-- ==== Sys2Proof/Word.lean ====
section
/-! DEFINITION. Sys2Proof/Word.lean: the widths the manual gives its bytes, words and descriptors.
Only what the manual treats as bits is a bit vector; counts, indices and times are natural numbers. -/

namespace Sys2Proof

/-- A byte (R3: every multi-byte field is stored least significant byte first). -/
abbrev Byte := BitVec 8

/-- A 64-byte submission descriptor (R269), bit 0 the least significant bit of byte 0 (R3, R4). -/
abbrev Desc := BitVec 512

/-- An FP32 word (IEEE 754 binary32). -/
abbrev F32 := BitVec 32

/-- A 48-bit ranking key word (R117). -/
abbrev KeyWord := BitVec 48

end Sys2Proof
end

