-- ==== Sys2Proof/Syntax.lean ====
section
/-! DEFINITION. Sys2Proof/Syntax.lean: the commands and events of Jenjor (spec/opcode_table.json), one constructor each,
with the operands each one carries from outside the module: the queue it came from, the bytes the host placed in an
operand area, a sensor reading, the outcome of a check on a physical medium. -/

namespace Sys2Proof

/-- Which part of a 64-bit register a write covers (R432). -/
inductive WriteHalf where
  | low | high | full
  deriving DecidableEq, Repr

/-- The role of a management client (R392). -/
inductive Role where
  | observer | operator
  deriving DecidableEq, Repr

/-- The three SPDM mailboxes (R379). -/
inductive Mailbox where
  | doe | mctp | companion
  deriving DecidableEq, Repr

/-- What a requester's certificate chain ends in, once verified (R381). -/
inductive ChainRoot where
  | unknown
  | orowick
  | root (digest : BitVec 384)
  | companionModule (serial : BitVec 96)
  deriving DecidableEq, Repr

/-- A write of a register: the value written, and the bits that hardware events set in the same cycle (R8). -/
structure Written (w : Nat) where
  v : BitVec w
  set : BitVec w
  deriving DecidableEq, Repr

/-- What decoding a plate's code words found (R295, R298): the physical channels of those it corrected, and the pool
addresses of the uncorrectable ones. -/
structure WordsFound where
  corrected : List Nat
  uncorr : List Nat
  deriving DecidableEq, Repr

/-- A ring whose restore has ended (R407), and its plates whose master fails validation (R59). -/
structure RestoredRing where
  num : Nat
  bad : List Nat
  deriving DecidableEq, Repr

/-- What the checks of one plate's fill find on the medium (R297): the header CRC, the header CRC of the re-read with
check bytes, the data CRC (sealed plate) or the decoding of every code word (open plate), and the physical channels
whose code words were corrected (R295), with the pool addresses of the uncorrectable code words. -/
structure FillCheck where
  hdrOk : Bool
  hdrReread : Bool
  dataOk : Bool
  corrected : List Nat
  uncorr : List Nat
  deriving DecidableEq, Repr

/-- What a write-back writes to the vault (R223). -/
inductive WriteBackTarget where
  | plate (pid : Nat)
  | bias (coll : Nat)
  deriving DecidableEq, Repr

/-- A draining collection or object (R46). -/
inductive ReleaseTarget where
  | collection (n : Nat)
  | object (n : Nat)
  deriving DecidableEq, Repr

/-- Where a slew's switch stands (R236, R237). -/
inductive SlewStep where
  /-- the copy has converged, these granules having been copied again: writes are held from here -/
  | hold (copied : List Nat)
  /-- the switch: whether every page was read, and the plates that fail validation (R59) -/
  | switch (pageOk : Bool) (bad : List Nat)
  deriving DecidableEq, Repr

/-- The object whose bytes a read outside the sweep finds uncorrectable (R305); of a bias plane, whether they lie in its
published buffer; of a tile region, also the byte offset in
the region and the command that read it, by queue and command identifier. -/
inductive PoolObject where
  | plate (pid : Nat)
  | weightPackage (obj : Nat)
  | directory (coll : Nat)
  | payloadTable (obj : Nat)
  | program (obj : Nat)
  | cacheLine (page : Nat)
  | biasPlane (coll : Nat) (published : Bool)
  | queueRing (q : Nat)
  | tile (obj off : Nat) (reader : Option (Nat × BitVec 16))
  deriving DecidableEq, Repr

/-- The four events of R334. -/
inductive PcieResetKind where
  | flr | d3hotToD0 | perst | linkDown
  deriving DecidableEq, Repr

/-- The errors that discard a TLP (R338). -/
inductive TlpError where
  | malformed | unexpectedCompletion | ecrc
  /-- the address of a queue's CQ faults a completion written there (R287) -/
  | cqFault (q : Nat) (cid : BitVec 16)
  deriving DecidableEq, Repr

/-- An access to a queue's doorbell page (R265, R335): the 4-byte write of the row's field; the 8-byte write that covers
both, SQ_TAIL in its low word; any other write, from its byte offset and width; a read. -/
inductive PageAccess where
  | field (v : BitVec 32)
  | both (sq cq : BitVec 32)
  | other (off width : Nat)
  | read (width : Nat)
  deriving DecidableEq, Repr

/-- Who reads a vault page (R315): a slew, with the plate whose page it copies, if any. -/
inductive VaultReader where
  | deepField (pid : Nat)
  | slew (obj : Nat) (plate : Option Nat)
  | recordPage (page : Nat)
  | directory (coll : Nat)
  | restore (pid : Nat)
  | journal
  deriving DecidableEq, Repr

/-- Requests that a queue pair refuses (R343). -/
inductive RefusedReq where
  | send | read | atomicReq | outOfRange
  deriving DecidableEq, Repr

/-- What an inserted part answers to identification (R327 step 5, R330). -/
structure CarrierId where
  vc16 : Bool
  serial : BitVec 64
  wear : Nat
  spare : Nat
  retired : Nat
  programmed : Nat
  deriving DecidableEq, Repr

/-- What the other module of a pair reports of itself (R350). -/
structure PeerInfo where
  pairId : BitVec 64
  serial : BitVec 96
  companion : BitVec 96
  arith : BitVec 16
  tenant : BitVec 384
  deriving DecidableEq, Repr

/-- The write operations a journal record can hold (R207). -/
inductive WriteOp where
  | insert | update | delete | biasAdd | biasSet | biasFrame
  deriving DecidableEq, Repr

/-- A journal record (R210): what a write supplies. A B1 vector is kept as its packed bytes in `bits`; any other vector
as widened FP32 words in `vec` (R209). -/
structure JRec where
  seq : Nat
  op : WriteOp
  coll : Nat
  key : BitVec 64
  vec : List F32
  bits : List Byte
  tags : BitVec 64
  range0 : BitVec 32
  range1 : BitVec 32
  biasIndex : BitVec 16
  payload : List Byte
  stored : List (List (BitVec 16))
  pairs : List (BitVec 16 × F32)
  bytes : Nat
  deriving DecidableEq, Repr

/-- A companion RESTORE message (R349, R362). -/
inductive RestoreItem where
  | position (epoch seq catSeq : Nat)
  /-- a collection, and the generation of its grid -/
  | collection (d : Desc) (grid : List Byte) (gridGen : Nat)
  /-- an object of no collection -/
  | object (kind size : Nat)
  | objectBytes (addr : Nat) (data : List Byte)
  /-- a plate's bytes, and its locator block (R143) -/
  | plate (coll num : Nat) (image locators : List Byte)
  | journalTail (recs : List JRec)
  deriving DecidableEq, Repr

/-- The witness's answers (R355). -/
inductive WitnessReply where
  | renewGranted (n ceiling : Nat)
  | takeGranted (n ceiling : Nat)
  | refused
  deriving DecidableEq, Repr

/-- TAP instructions (R466); `other` is every instruction beyond boundary scan. -/
inductive JtagInstr where
  | extest | sample | preload | bypass | idcode | clamp | extestPulse | extestTrain
  | other (code : Nat)
  deriving DecidableEq, Repr

/-- A firmware image record (R402): its 256-byte header, and the outcomes of verifying its signature and the digest of its
code. -/
structure FwRecord where
  present : Bool
  header : List Byte
  sigOk : Bool
  digestOk : Bool
  deriving DecidableEq, Repr

/-- One ring entry of the Almanac's ring section (R400 type 0x05): bytes 0x14 to 0x1D of a RING_DEFINE descriptor as a
descriptor, START, and the collection list. -/
structure RingEntry where
  d : Desc
  start : Bool
  colls : List Nat
  deriving DecidableEq, Repr

/-- One queue-plan entry (R400 type 0x06), its reserved byte included. -/
structure PlanEntry where
  reserved : Byte
  first : Nat
  last : Nat
  kind : Nat
  maxPriority : Nat
  transports : BitVec 8
  deriving DecidableEq, Repr

/-- The network section (R400 type 0x08). `portOption` is the PHY option of R341: 0 is 800 Gb/s, 1 is 400 Gb/s. -/
structure NetCfg where
  portOption : List Nat
  portIpv4 : List (List Byte)
  portIpv6 : List (List Byte)
  mtu : List Nat
  prefixes : List (List Byte × Nat)
  dscp : BitVec 8
  ackExponent : Nat
  retryCount : Nat
  vectors : Nat
  witness : Bool
  deriving DecidableEq, Repr

/-- The bodies of the ten section types (R400), and a body of any other type. The manual gives no byte layout for several of
them, so a body is its values. -/
inductive SectionBody where
  | other (data : List Byte)
  | identity (pairId : BitVec 64) (companion : BitVec 96) (mode : Nat)
  | islandPlan (ceil : List Nat) (repair : List (Nat × Nat))
  | seeds (records : List (List Byte))
  | catalogue (entries : List (Desc × List Byte))
  | rings (entries : List RingEntry)
  | queuePlan (entries : List PlanEntry)
  | placement (mode promoteMin cacheMax cacheSize vaultShare dfReserve replatePct scrubHours : Nat)
  | network (n : NetCfg)
  | security (cas : List (Nat × Role)) (witnessCa : Bool)
  | firmware (a b : FwRecord)
  deriving DecidableEq, Repr

/-- A section (R397): its 256-byte header and its body. `signer` is the key that verifies its signature (`none`: it verifies
under no key), `digestOk` whether the body has the header's SHA-384. -/
structure Section where
  header : List Byte
  digestOk : Bool
  signer : Option Nat
  body : SectionBody
  deriving DecidableEq, Repr

/-- A delivered or stored image (R396). `headerOk` is every rule of the header itself, signature or tag included;
`leaf` is the key of its chain's leaf. -/
structure Image where
  headerOk : Bool
  owner : BitVec 64
  leaf : Nat
  length : Nat
  sections : List Section
  deriving DecidableEq, Repr

/-- What a start-up step finds on the hardware (R403): fuse reads, clocks that do not lock, training outcomes (passed,
eye margin in 1/256 UI), carriers found, and the plates whose master fails R59. -/
inductive StartReport where
  | fuses (reads : List (List (BitVec 32)))
  | firmware
  | image
  | clocks (unlocked : List Nat)
  | training (res : List (Bool × Nat))
  | vault (cars : List (Option CarrierId)) (sealedOpens : Bool)
  | restore (bad : List Nat)
  deriving DecidableEq, Repr

/-- The commands and events of spec/opcode_table.json, in the table's order. A command that arrives as a descriptor
names the queue whose oldest fetched descriptor it carries out, and the bytes of its operand area. An SPDM message says
whether Dome is handling a message from another mailbox when it arrives (R380). -/
inductive Instr where
  /-- QUERY_VECTOR (R271). -/
  | queryVector (q : Nat) (op : List Byte)
  /-- QUERY_TOKENS (R172). -/
  | queryTokens (q : Nat) (op : List Byte)
  /-- INSERT (R207). -/
  | insert (q : Nat) (op : List Byte)
  /-- UPDATE (R207). -/
  | update (q : Nat) (op : List Byte)
  /-- DELETE (R207). -/
  | delete (q : Nat)
  /-- BIAS_WRITE (R207). -/
  | biasWrite (q : Nat) (op : List Byte)
  /-- BIAS_FRAME (R230). -/
  | biasFrame (q : Nat)
  /-- WRITE_FENCE (R207). -/
  | writeFence (q : Nat)
  /-- COLLECTION_CREATE (R38). -/
  | collectionCreate (q : Nat) (op : List Byte)
  /-- COLLECTION_DELETE (R46). -/
  | collectionDelete (q : Nat)
  /-- OBJECT_CREATE (R34). -/
  | objectCreate (q : Nat) (op : List Byte)
  /-- OBJECT_DELETE (R46). -/
  | objectDelete (q : Nat)
  /-- OBJECT_WRITE (R277). -/
  | objectWrite (q : Nat) (op : List Byte)
  /-- OBJECT_STATUS (R235). -/
  | objectStatus (q : Nat)
  /-- PLACE (R240). -/
  | place (q : Nat)
  /-- SET_RESIDENCE (R248). -/
  | setResidence (q : Nat)
  /-- RING_DEFINE (R71). -/
  | ringDefine (q : Nat) (op : List Byte)
  /-- RING_EDIT (R88). -/
  | ringEdit (q : Nat) (op : List Byte)
  /-- RING_START (R73). -/
  | ringStart (q : Nat)
  /-- RING_STOP (R73). -/
  | ringStop (q : Nat)
  /-- MODEL_LOAD (R170). -/
  | modelLoad (q : Nat)
  /-- MODEL_UNLOAD (R171). -/
  | modelUnload (q : Nat)
  /-- CALIBRATE (R251). -/
  | calibrate (q : Nat) (op : List Byte)
  /-- RECALIBRATE (R255). -/
  | recalibrate (q : Nat) (op : List Byte)
  /-- ATOMIC (R250). -/
  | atomic (q : Nat) (op : List Byte)
  /-- QUEUE_CREATE (R263). -/
  | queueCreate (q : Nat)
  /-- QUEUE_DELETE (R264). -/
  | queueDelete (q : Nat)
  /-- SECTION_RELOAD (R408). -/
  | sectionReload (src : Option Nat) (sec : Section)
  /-- FIRMWARE_SWITCH (R413). -/
  | firmwareSwitch (q : Nat)
  /-- TILE_WRITE (R257). -/
  | tileWrite (q : Nat) (data : List Byte)
  /-- TILE_READ (R257). -/
  | tileRead (q : Nat)
  /-- TILE_PREFETCH (R257). -/
  | tilePrefetch (q : Nat)
  /-- TILE_EVICT (R257). -/
  | tileEvict (q : Nat)
  /-- ROUTE_CONNECT (R363). -/
  | routeConnect (q : Nat)
  /-- SHARD_LIST_DEFINE (R363). -/
  | shardListDefine (q : Nat)
  /-- SHARD_LIST_DELETE (R363). -/
  | shardListDelete (q : Nat)
  /-- MERGE_QUERY (R366). -/
  | mergeQuery (q : Nat)
  /-- DESCRIPTOR_FETCH (R267). -/
  | descriptorFetch (descs : List Desc)
  /-- SQ_TAIL_DOORBELL (R265). -/
  | sqTailDoorbell (q : Nat) (a : PageAccess)
  /-- CQ_HEAD_DOORBELL (R265). -/
  | cqHeadDoorbell (q : Nat) (a : PageAccess)
  /-- ROCE_DOORBELL (R266). -/
  | roceDoorbell (q : Nat) (imm : BitVec 32)
  /-- AQ_ENABLE (R439). -/
  | aqEnable
  /-- AQ_DISABLE (R439). -/
  | aqDisable
  /-- WINDOW_BASE_WRITE (R440). -/
  | windowBaseWrite (half : WriteHalf) (v : BitVec 64)
  /-- CATALOGUE_WINDOW_READ (R440). -/
  | catalogueWindowRead (off len : Nat)
  /-- CATALOGUE_WINDOW_WRITE (R440). -/
  | catalogueWindowWrite (off : Nat) (data : List Byte)
  /-- REGISTER_WRITE (R7). -/
  | registerWrite (off width : Nat) (x : Written 64)
  /-- REGISTER_READ_CLEAR (R7). -/
  | registerReadClear (off : Nat) (during : Nat)
  /-- REGISTER_LOW_HALF_READ (R336). -/
  | registerLowHalfRead (off : Nat)
  /-- MER_RING_OVF_WRITE (R99). -/
  | merRingOvfWrite (ring : Nat) (x : Written 32)
  /-- MGMT_REGISTER_WRITE (R433). -/
  | mgmtRegisterWrite (role : Role) (off width : Nat) (x : Written 64)
  /-- UNMAPPED_REQUEST (R335). -/
  | unmappedRequest (bar addr : Nat)
  /-- MSIX_VECTOR_UNMASK (R288). -/
  | msixVectorUnmask (vec : Nat)
  /-- TG_START (R308). -/
  | tgStart (ch : Nat)
  /-- TG_STOP (R308). -/
  | tgStop (ch : Nat)
  /-- TG_PASS_COMPLETE (R308). -/
  | tgPassComplete (ch diffs : Nat) (pins : BitVec 32)
  /-- CARRIER_RELEASE (R327). -/
  | carrierRelease (bay : Nat)
  /-- ISL_RETIRE (R421). -/
  | islRetire (isl : Nat)
  /-- SEE_ARM (R429). -/
  | seeArm (v : BitVec 32)
  /-- LOG_WINDOW_WRITE (R445). -/
  | logWindowWrite (half : WriteHalf) (v : BitVec 64)
  /-- ROW_LOAD_COMPLETE (R81). -/
  | rowLoadComplete (ctx : Nat)
  /-- PLATE_GROUP_DEAL (R85). -/
  | plateGroupDeal (ring : Nat) (altFor : Option (Nat × Nat))
  /-- PLATE_FILL_COMPLETE (R297). -/
  | plateFillComplete (c g : Nat) (checks : List FillCheck)
  /-- PLATE_RECHECK_COMPLETE (R298). -/
  | plateRecheckComplete (c g : Nat) (pid : Nat) (ok : Bool) (words : WordsFound)
  /-- FLIP (R89). -/
  | flip (c g : Nat)
  /-- RING_BOUNDARY (R89). -/
  | ringBoundary (ring : Nat)
  /-- BATCH_ACCUMULATE_END (R101). -/
  | batchAccumulateEnd (c g : Nat)
  /-- ADMISSION_ARRIVAL (R133). -/
  | admissionArrival (c : Nat)
  /-- OVERFLOW_SELECTION_COMPLETE (R133). -/
  | overflowSelectionComplete (ctx : Nat)
  /-- BOUNDARY_INSTALL (R134). -/
  | boundaryInstall (ctx c : Nat)
  /-- MERGE_START (R137). -/
  | mergeStart (ctx : Nat)
  /-- MERGE_COMPLETE (R137). -/
  | mergeComplete (ctx : Nat)
  /-- SPEC_REQUEST_ISSUE (R147). -/
  | specRequestIssue (c : Nat)
  /-- RERANK_START (R142). -/
  | rerankStart (core : Nat)
  /-- RECORD_PAGE_READ_COMPLETE (R149). -/
  | recordPageReadComplete (page : Nat) (ok : Bool)
  /-- RERANK_COMPLETE (R154). -/
  | rerankComplete (core : Nat)
  /-- RERANK_DEADLINE (R156). -/
  | rerankDeadline (ctx : Nat)
  /-- RESULT_DELIVERY (R286). -/
  | resultDelivery (ctx : Nat)
  /-- FLUSH_READ_COMPLETE (R286). -/
  | flushReadComplete (ctx : Nat)
  /-- FLUSH_READ_FAILED (R287). -/
  | flushReadFailed (ctx : Nat)
  /-- COALESCING_TIMEOUT (R288). -/
  | coalescingTimeout (q : Nat)
  /-- QUERY_LIFETIME_EXPIRY (R20). -/
  | queryLifetimeExpiry (ctx : Nat)
  /-- RING_STRETCH (R96). -/
  | ringStretch (ring : Nat)
  /-- PASS_START (R174). -/
  | passStart
  /-- PASS_COMPLETE (R200). -/
  | passComplete
  /-- PASS_WATCHDOG (R201). -/
  | passWatchdog
  /-- ENCODER_CORE_FAILURE (R178). -/
  | encoderCoreFailure (core : Nat)
  /-- NOP (R187). -/
  | nop (r : Nat)
  /-- END (R200). -/
  | endStream (r : Nat)
  /-- SETI (R187). -/
  | seti (r : Nat)
  /-- ADDI (R187). -/
  | addi (r : Nat)
  /-- MULI (R187). -/
  | muli (r : Nat)
  /-- ANDI (R187). -/
  | andi (r : Nat)
  /-- LOOP (R188). -/
  | loop (r : Nat)
  /-- SKIPZ (R187). -/
  | skipz (r : Nat)
  /-- FENCE (R195). -/
  | fence (r : Nat)
  /-- BAR (R198). -/
  | bar (r : Nat)
  /-- WLD (R187). -/
  | wld (r : Nat)
  /-- WRCV (R197). -/
  | wrcv (r : Nat)
  /-- WFWD (R197). -/
  | wfwd (r : Nat)
  /-- FLIP_STAGE (R196). -/
  | flipStage (r : Nat)
  /-- ACLR (R187). -/
  | aclr (r : Nat)
  /-- MMA (R189). -/
  | mma (r : Nat)
  /-- MOUT (R190). -/
  | mout (r : Nat)
  /-- QROW (R190). -/
  | qrow (r : Nat)
  /-- GATH (R191). -/
  | gath (r : Nat)
  /-- NORM (R191). -/
  | norm (r : Nat)
  /-- GELU (R191). -/
  | gelu (r : Nat)
  /-- ADDV (R191). -/
  | addv (r : Nat)
  /-- MULV (R191). -/
  | mulv (r : Nat)
  /-- ROPE (R191). -/
  | rope (r : Nat)
  /-- ATTN (R192). -/
  | attn (r : Nat)
  /-- POOL (R199). -/
  | pool (r : Nat)
  /-- XALL (R198). -/
  | xall (r : Nat)
  /-- EMIT (R200). -/
  | emit (r : Nat)
  /-- JOURNAL_BUFFER_DURABLE (R318). -/
  | journalBufferDurable (seq : Nat)
  /-- JOURNAL_STRIPE_PROGRAMMED (R318). -/
  | journalStripeProgrammed (seq : Nat)
  /-- COMMIT_TICK (R215). -/
  | commitTick
  /-- COMMIT_PUBLISH (R217). -/
  | commitPublish
  /-- PLATE_SETTLE_VISIT (R65). -/
  | plateSettleVisit (pid : Nat)
  /-- WRITE_WAIT_RELEASE (R218). -/
  | writeWaitRelease (seq : Nat)
  /-- WRITE_BACK (R223). -/
  | writeBack (tgt : WriteBackTarget)
  /-- HEADER_LOG_STRIPE_TIMEOUT (R312). -/
  | headerLogStripeTimeout (coll : Nat)
  /-- REPLATING_START (R225). -/
  | replatingStart (pids : List Nat)
  /-- REPLATING_READY (R225). -/
  | replatingReady (job : Nat)
  /-- PLATE_RETIRE (R227). -/
  | plateRetire (pid : Nat)
  /-- BIAS_BUFFER_DRAINED (R231). -/
  | biasBufferDrained (coll : Nat)
  /-- OBJECT_RELEASE (R46). -/
  | objectRelease (what : ReleaseTarget)
  /-- SLEW_START (R236). -/
  | slewStart (obj : Nat)
  /-- SLEW_SWITCH (R237). -/
  | slewSwitch (obj : Nat) (step : SlewStep)
  /-- ALLOCATION_RETRY (R245). -/
  | allocationRetry (alloc : Nat) (expired : Bool)
  /-- PHOTOMETER_INTERVAL (R241). -/
  | photometerInterval
  /-- CALIBRATION_COMPLETE (R254). -/
  | calibrationComplete
  /-- MODEL_LOAD_DECRYPT_COMPLETE (R387). -/
  | modelLoadDecryptComplete
  /-- STEP_PLATE_LOSS (R423). -/
  | stepPlateLoss (pid : Nat)
  /-- PLATE_RESTORE_COMPLETE (R423). -/
  | plateRestoreComplete (pid : Nat) (ok : Bool)
  /-- PLATE_MASTER_LOST (R424). -/
  | plateMasterLost (pid : Nat)
  /-- CLUSTER_HARD_FAULT (R421). -/
  | clusterHardFault (c : Nat)
  /-- CLUSTER_PLANNED_RETIRE (R421). -/
  | clusterPlannedRetire (c : Nat)
  /-- WHOLE_MODULE_FAULT (R420). -/
  | wholeModuleFault (blk unit : Nat)
  /-- CHANNEL_ACCESS_RETRY (R304): of an access that fails all its retries, the raw burst and what was read there. -/
  | channelAccessRetry (ch : Nat) (fail : Option (Nat × PoolObject)) (overRate : Bool)
  /-- CHANNEL_RETRAIN (R422). -/
  | channelRetrain (ch margin : Nat) (trained : Bool)
  /-- CHANNEL_SUBSTITUTION_START (R425). -/
  | channelSubstitutionStart (ch : Nat)
  /-- CHANNEL_SUBSTITUTION_COMPLETE (R425). -/
  | channelSubstitutionComplete (rim : Nat)
  /-- CHANNEL_LOST (R425). -/
  | channelLost (ch : Nat)
  /-- UNCORRECTABLE_CODE_WORD (R305): the 68 bytes of the code word at a pool address, on the channel of R293. -/
  | uncorrectableCodeWord (addr : Nat) (word : List Byte) (what : PoolObject)
  /-- REFRESH (R303). -/
  | refresh (ch : Nat) (drift : Bool) (waitCycles : Nat) (waiter : Option (Nat × Nat))
  /-- PATROL_SCRUB_READ (R306): of a raw burst, the code words that are not clean, each by number with its 68 bytes and its
object, and the plates whose validation fails (R59). -/
  | patrolScrubRead (ch burst : Nat) (words : List (Nat × List Byte × PoolObject)) (bad : List Nat) (passDone : Bool)
  /-- D2D_FLIT_REPLAY (R418). -/
  | d2dFlitReplay (b : Nat) (overRate : Bool)
  /-- MEMORY_TEMP_READ (R302). -/
  | memoryTempRead (temps : List Nat)
  /-- BAND_FALL_TIMEOUT (R302). -/
  | bandFallTimeout
  /-- ISLAND_TEMP_READ (R95). -/
  | islandTempRead (isl temp : Nat)
  /-- CLOCK_STEP_DOWN_TIMER (R95). -/
  | clockStepDownTimer (isl : Nat)
  /-- CLOCK_STEP_UP_TIMER (R95). -/
  | clockStepUpTimer (isl : Nat)
  /-- NEIGHBOUR_TEMP_CHECK (R417). -/
  | neighbourTempCheck (isl j : Nat)
  /-- ISLAND_FLOOR_TIMEOUT (R417). -/
  | islandFloorTimeout (isl : Nat)
  /-- HUB_OVERTEMP_TIMEOUT (R461). -/
  | hubOvertempTimeout (isl : Nat)
  /-- COOLANT_WARNING (R460). -/
  | coolantWarning (inletHot flowLow : Bool)
  /-- POWER_SAMPLE (R29). -/
  | powerSample (watts avg : Nat)
  /-- LOAD_SHED_STEP (R29). -/
  | loadShedStep
  /-- LOAD_RESTORE_STEP (R29). -/
  | loadRestoreStep
  /-- POWER_GOOD (R456). -/
  | powerGood (straps : BitVec 3)
  /-- START_STEP_COMPLETE (R403). -/
  | startStepComplete (rep : StartReport)
  /-- RING_RESTORE_COMPLETE (R407). -/
  | ringRestoreComplete (ring : RestoredRing)
  /-- ALMANAC_REPAIR_COMPLETE (R404). -/
  | almanacRepairComplete
  /-- POWER_LOSS (R319). -/
  | powerLoss
  /-- HOLDUP_FLUSH_COMPLETE (R319). -/
  | holdupFlushComplete (us : Nat) (inputBack : Bool)
  /-- POWER_OFF (R456). -/
  | powerOff
  /-- MOD_RST_TIMEOUT (R457). -/
  | modRstTimeout
  /-- MOD_RST_RISE (R457). -/
  | modRstRise (lowNs : Nat)
  /-- HOLDUP_MEASURE (R320). -/
  | holdupMeasure (enough : Bool)
  /-- FUSE_RECHECK (R374). -/
  | fuseRecheck (reads : List (List (BitVec 32)))
  /-- PCIE_RESET (R334). -/
  | pcieReset (kind : PcieResetKind)
  /-- PERST_RELEASE (R458). -/
  | perstRelease
  /-- PCIE_LINK_TRAINED (R332). -/
  | pcieLinkTrained (width speed : Nat) (flit : Bool)
  /-- PCIE_COMPLETION_TIMEOUT (R338). -/
  | pcieCompletionTimeout (q : Nat) (cid : Option (BitVec 16))
  /-- PCIE_POISONED_TLP (R338). -/
  | pciePoisonedTlp (q : Nat)
  /-- PCIE_ERROR_TLP (R338). -/
  | pcieErrorTlp (kind : TlpError)
  /-- PCIE_CORRECTABLE_ERROR (R338). -/
  | pcieCorrectableError
  /-- DOE_DISCOVERY (R339). -/
  | doeDiscovery (idx : Nat)
  /-- DOE_ABORT (R339). -/
  | doeAbort
  /-- DOE_OTHER_PROTOCOL (R339). -/
  | doeOtherProtocol (vendor ty : Nat)
  /-- GET_VERSION (R379). -/
  | getVersion (mb : Mailbox) (busy : Bool)
  /-- GET_CAPABILITIES (R379). -/
  | getCapabilities (mb : Mailbox) (busy : Bool)
  /-- NEGOTIATE_ALGORITHMS (R379). -/
  | negotiateAlgorithms (mb : Mailbox) (busy : Bool)
  /-- GET_DIGESTS (R379). -/
  | getDigests (mb : Mailbox) (busy : Bool)
  /-- GET_CERTIFICATE (R377). -/
  | getCertificate (mb : Mailbox) (busy : Bool) (slot off len : Nat)
  /-- CHALLENGE (R377). -/
  | challenge (mb : Mailbox) (busy : Bool) (nonce : BitVec 256)
  /-- GET_MEASUREMENTS (R378). -/
  | getMeasurements (mb : Mailbox) (busy : Bool) (nonce : BitVec 256)
  /-- KEY_EXCHANGE (R379). -/
  | keyExchange (mb : Mailbox) (busy : Bool) (chain : ChainRoot)
  /-- FINISH (R379). -/
  | finish (mb : Mailbox) (busy : Bool) (sid : Nat) (ok : Bool)
  /-- HEARTBEAT (R379). -/
  | heartbeat (mb : Mailbox) (busy : Bool) (sid : Nat)
  /-- KEY_UPDATE (R379). -/
  | keyUpdate (mb : Mailbox) (busy : Bool) (sid : Nat)
  /-- END_SESSION (R379). -/
  | endSession (mb : Mailbox) (busy : Bool) (sid : Nat)
  /-- SPDM_SESSION_TIMEOUT (R379). -/
  | spdmSessionTimeout (sid : Nat)
  /-- SLOT_WRITE (R383). -/
  | slotWrite (mb : Mailbox) (busy : Bool) (sid slot : Nat) (key : List Byte) (persist : Bool)
  /-- SLOT_ERASE (R384). -/
  | slotErase (mb : Mailbox) (busy : Bool) (sid slot : Nat)
  /-- SLOT_STATUS (R381). -/
  | slotStatus (mb : Mailbox) (busy : Bool) (sid slot : Nat)
  /-- END_TENANCY (R390). -/
  | endTenancy (mb : Mailbox) (busy : Bool) (sid : Nat)
  /-- DEBUG_UNLOCK (R391). -/
  | debugUnlock (mb : Mailbox) (busy : Bool) (sid : Nat) (token : List Byte)
  /-- PAIR_CHECK (R381). -/
  | pairCheck (mb : Mailbox) (busy : Bool) (sid : Nat) (digest : BitVec 384) (rev : BitVec 16)
  /-- SLOT_ERASE_TIMEOUT (R384). -/
  | slotEraseTimeout (slot : Nat)
  /-- KEY_GENERATION_RETIRE (R383). -/
  | keyGenerationRetire (slot : Nat)
  /-- REKEY_BATCH (R388). -/
  | rekeyBatch (coll : Nat) (pids : List Nat)
  /-- VAULT_REKEY (R389). -/
  | vaultRekey
  /-- BIND (R390). -/
  | bind (role : Role) (digest : BitVec 384)
  /-- UNBIND (R390). -/
  | unbind (role : Role)
  /-- TENANT_SCRUB_COMPLETE (R390). -/
  | tenantScrubComplete (us : Nat)
  /-- VAULT_BACKGROUND_ERASE (R390). -/
  | vaultBackgroundErase
  /-- FIRMWARE_COMMIT (R376). -/
  | firmwareCommit (role : Role)
  /-- LIFECYCLE_RMA (R372). -/
  | lifecycleRma (role : Role) (token : List Byte)
  /-- LIFECYCLE_SCRAP (R372). -/
  | lifecycleScrap (role : Role) (token : List Byte)
  /-- LEASE_FORCE (R357). -/
  | leaseForce (role : Role)
  /-- ALMANAC_WRITE (R411). -/
  | almanacWrite (role : Role) (img : Image)
  /-- FIRMWARE_WRITE (R412). -/
  | firmwareWrite (role : Role) (named : Bool) (rec : FwRecord)
  /-- MGMT_CARRIER_RELEASE (R327). -/
  | mgmtCarrierRelease (role : Role) (bay : Nat)
  /-- MGMT_TLS_HANDSHAKE (R392): the operator CA that the chain ends in, 8 for the Orowick root, and the handshakes already
  accepted from the source address within the second. -/
  | mgmtTlsHandshake (src : Nat) (ca : Option Nat) (inSecond : Nat)
  /-- SECTION_PERSISTED (R410). -/
  | sectionPersisted
  /-- FIRMWARE_SWITCH_APPLY (R413). -/
  | firmwareSwitchApply
  /-- FIRMWARE_SWITCH_WATCHDOG (R413). -/
  | firmwareSwitchWatchdog
  /-- ATTENTION_BUTTON (R448). -/
  | attentionButton (bay heldMs : Nat)
  /-- CARRIER_SAFE_TO_REMOVE (R327). -/
  | carrierSafeToRemove (bay : Nat)
  /-- CARRIER_REMOVAL (R328). -/
  | carrierRemoval (bay : Nat)
  /-- CARRIER_INSERTION (R327). -/
  | carrierInsertion (bay : Nat) (id : CarrierId)
  /-- CARRIER_FAILURE (R328). -/
  | carrierFailure (bay : Nat)
  /-- CARRIER_REBUILD_COMPLETE (R327). -/
  | carrierRebuildComplete (bay : Nat)
  /-- VAULT_PAGE_READ (R314): the reference level at which the page decodes, and those of the stripe's other three pages
where it is rebuilt. -/
  | vaultPageRead (page : Nat) (level : Option Nat) (others : List (Option Nat)) (by_ : VaultReader)
  /-- BLOCK_RETIRE (R322). -/
  | blockRetire (bay : Nat) (sparePct : Nat)
  /-- ONFI_CHANNEL_RETRAIN (R323). -/
  | onfiChannelRetrain (bay chan : Nat) (fixed space : Bool)
  /-- CARRIER_OVERTEMP (R461). -/
  | carrierOvertemp (bay temp : Nat)
  /-- ARP_REQUEST (R342). -/
  | arpRequest (port : Nat) (ip : List Byte)
  /-- NEIGHBOUR_SOLICITATION (R342). -/
  | neighbourSolicitation (port : Nat) (ip : List Byte)
  /-- ICMP_ECHO (R342). -/
  | icmpEcho (port : Nat) (ip : List Byte) (data : List Byte)
  /-- ETH_FRAME_DROPPED (R342). -/
  | ethFrameDropped (port : Nat)
  /-- ETH_LINK_DOWN (R346). -/
  | ethLinkDown (port : Nat)
  /-- ETH_LINK_UP (R342). -/
  | ethLinkUp (port : Nat) (speed : Nat)
  /-- RDMA_WRITE (R343). -/
  | rdmaWrite (qpn : Nat) (rkey : BitVec 32) (addr : Nat) (data : List Byte)
  /-- ROCE_REFUSED_REQUEST (R343). -/
  | roceRefusedRequest (qpn : Nat) (kind : RefusedReq)
  /-- ROCE_ACK (R286). -/
  | roceAck (qpn psn : Nat)
  /-- ROCE_NAK (R346). -/
  | roceNak (qpn : Nat)
  /-- ROCE_ACK_TIMEOUT (R345). -/
  | roceAckTimeout (qpn : Nat)
  /-- ECN_MARKED_PACKET (R343). -/
  | ecnMarkedPacket (qpn : Nat)
  /-- CNP_RECEIVED (R343). -/
  | cnpReceived (qpn : Nat)
  /-- RATE_INCREASE_TIMER (R343). -/
  | rateIncreaseTimer (qpn : Nat)
  /-- CM_REQ (R344). -/
  | cmReq (port : Nat) (src : List Byte) (rc : Bool) (mtu : Nat) (mergeSvc : Bool)
  /-- CM_RTU (R344). -/
  | cmRtu (qpn : Nat)
  /-- CM_DREQ (R346). -/
  | cmDreq (qpn : Nat)
  /-- CM_REP_REJ (R363). -/
  | cmRepRej (qpn : Nat) (rep : Bool)
  /-- CM_REP_TIMEOUT (R363). -/
  | cmRepTimeout (qpn : Nat)
  /-- QP_BIND_TIMEOUT (R344). -/
  | qpBindTimeout (qpn : Nat)
  /-- MERGE_RECORD_ARRIVAL (R365). -/
  | mergeRecordArrival (qpn : Nat) (rkey : BitVec 32) (addr : Nat) (data : List Byte) (imm : BitVec 32)
  /-- MERGE_DEADLINE (R366). -/
  | mergeDeadline (list ticket : Nat)
  /-- COMPANION_LINK_TRAINED (R348). -/
  | companionLinkTrained (lanes : List Bool) (peer : PeerInfo)
  /-- COMPANION_LINK_ERRORS (R348). -/
  | companionLinkErrors (corrected : Nat) (uncorr : Bool)
  /-- COMPANION_LINK_DOWN (R356). -/
  | companionLinkDown
  /-- CPN_REPLAY_TIMEOUT (R349). -/
  | cpnReplayTimeout (seq : Nat)
  /-- CPN_RESERVED_MESSAGE (R349). -/
  | cpnReservedMessage (ty : Nat)
  /-- RENEW (R354). -/
  | renew (lease : Nat) (holder : BitVec 96) (epoch ceiling floor : Nat)
  /-- RENEW_ACK (R354). -/
  | renewAck (lease : Nat) (holder : BitVec 96) (epoch ceiling floor : Nat)
  /-- JOURNAL (R353). -/
  | journal (rec : JRec)
  /-- DURABLE (R353). -/
  | durable (seq : Nat)
  /-- COMMIT (R353). -/
  | commit (epoch : Nat) (seqs : List Nat)
  /-- COMMIT_ACK (R353). -/
  | commitAck (epoch : Nat)
  /-- FORWARD (R352). -/
  | forward (tag : Nat) (d : Desc) (op : List Byte)
  /-- FORWARD_DONE (R352). -/
  | forwardDone (tag : Nat) (status : BitVec 8) (v0 v1 : BitVec 64)
  /-- XQUERY (R359). -/
  | xquery (tag : Nat) (d : Desc) (op : List Byte) (epoch frame : Nat)
  /-- XDIGEST (R359). -/
  | xdigest (tag : Nat) (final coarse : BitVec 256) (tookCoarse : Bool)
  /-- RESTORE (R362). -/
  | restore (item : RestoreItem)
  /-- RELINQUISH (R357). -/
  | relinquish (lease epoch : Nat)
  /-- FRAME_DONE (R361). -/
  | frameDone (coll frame : Nat)
  /-- LEASE_RENEW_TIMER (R354). -/
  | leaseRenewTimer
  /-- LEASE_LAPSE (R354). -/
  | leaseLapse
  /-- TAKE_WAIT_ELAPSED (R354). -/
  | takeWaitElapsed
  /-- WITNESS_REPLY (R357). -/
  | witnessReply (r : WitnessReply)
  /-- PAIR_REJOIN (R358). -/
  | pairRejoin (peerLease peerEpoch : Nat)
  /-- CATCH_UP_COMPLETE (R358). -/
  | catchUpComplete
  /-- PLDM_SENSOR_REQUEST (R464). -/
  | pldmSensorRequest (sensor : Nat)
  /-- PLDM_EVENT_READ (R464). -/
  | pldmEventRead
  /-- SMBUS_CLOCK_LOW_TIMEOUT (R464). -/
  | smbusClockLowTimeout
  /-- JTAG_INSTRUCTION (R466). -/
  | jtagInstruction (ins : JtagInstr)
  /-- RECALIBRATION_STAGED (R255). -/
  | recalibrationStaged (coll : Nat)
  /-- SHARD_LIST_RELEASE (R363). -/
  | shardListRelease (list : Nat)
  /-- LIFECYCLE_ERASE_COMPLETE (R372). -/
  | lifecycleEraseComplete
  /-- ALMANAC_WRITE_COMPLETE (R411). -/
  | almanacWriteComplete
  /-- POWER_CONVERTER_OVERTEMP (R461). -/
  | powerConverterOvertemp
  /-- MGMT_LINK_UP (R465). -/
  | mgmtLinkUp
  /-- MGMT_LINK_DOWN (R465). -/
  | mgmtLinkDown
  deriving DecidableEq, Repr

end Sys2Proof
end

