-- ==== Sys2Proof/Machine/State.lean ====
section
/-! DEFINITION. Sys2Proof/Machine/State.lean: everything the manual gives Jenjor to hold, as plain data, one structure
per block, and `State.reset`. Times are nanoseconds since power-good (R437 DEV_TIME); epochs, sequence numbers and frame
numbers do not wrap in service (R48) and are natural numbers. -/

namespace Sys2Proof.Machine

/-- Element formats (R57). -/
inductive Format where
  | b1 | s4 | s8 | u8 | e4m3 | e5m2 | bf16 | fp16
  deriving DecidableEq, Repr

/-- Metrics (R38). -/
inductive Metric where
  | innerProduct | l2 | cosine | hamming
  deriving DecidableEq, Repr

/-- Sidecar classes (R55, R57). -/
inductive Sidecar where
  | bare | tagged | full
  deriving DecidableEq, Repr

/-- Residence (R38): false sweep-resident, true deep-field, is a Bool; tiers (R233) are these. -/
inductive Tier where
  | sram | sweep | vault
  deriving DecidableEq, Repr

/-- Record stores (R38). -/
inductive StoreKind where
  | none | single | multi
  deriving DecidableEq, Repr

/-- A 48-bit performance counter with its sticky overflow bit (R11). -/
structure Ctr where
  count : BitVec 48
  ovf : Bool
  deriving DecidableEq, Repr

/-- Status codes (R289). -/
inductive Status where
  | success | deadlineCoarse | partialShards | truncated | staleSince
  | opcodeInvalid | commandNotAllowed | descriptorInvalid | duplicateCommandId | addressInvalid | limitReached
  | idInUse | unknownCollection | keyExists | keyNotFound | vectorInvalid | predicateInvalid | parameterInvalid
  | gridInvalid | ringInvalid | ringBusy | ringStopped | modelInvalid | modelNotResident | sequenceInvalid
  | programInvalid | programFault | readOnly | unknownObject | queueInvalid
  | plateLost | poolBusy | periodStretched | aborted | deliveryFailed | internalError | queryExpired
  | keyWithdrawn | noTenant | keySlotInvalid | authenticationFailed | scrubInProgress
  deriving DecidableEq, Repr

/-- A command in flight, as its completion needs it (R278): queue, command identifier, NO_IRQ, fetch time; the PCIe reset
events before its fetch (R334); the FORWARD tag of a command that the companion forwarded (R352). -/
structure CmdRef where
  q : Nat
  cid : BitVec 16
  noIrq : Bool
  t0 : Nat
  gen : Nat
  tag : Option Nat
  deriving DecidableEq, Repr

/-- A descriptor that has passed stage 1 at its fetch and waits to be carried out (R270), in fetch order. -/
structure Fetched where
  ref : CmdRef
  d : Desc
  deriving DecidableEq, Repr

/-! ### The Logbook (R427, R430) -/

/-- A trace record (R427). -/
structure LogRec where
  seq : Nat
  time : Nat
  cls : Nat
  injected : Bool
  blk : Nat
  status : BitVec 8
  unit : Nat
  cause : Nat
  addr : Nat
  detail : BitVec 256
  deriving DecidableEq, Repr

structure LogState where
  /-- LOG_HEAD, the sequence of the newest record -/
  head : Nat
  /-- the records held, newest first, at most 262,144 -/
  trace : List LogRec
  /-- LOG_WINDOW -/
  window : BitVec 64
  /-- LOG_RECORD (R445) -/
  record : BitVec 512
  /-- LOG_ERR_SUMMARY.CLASS: bits for classes 2, 3, 4 -/
  errClass : BitVec 3
  errEn : Bool
  errVector : BitVec 11
  deriving DecidableEq, Repr

/-! ### The catalogue (R32 to R47) and plates (R50 to R70) -/

/-- One record of a plate: its sidecar (R55), its codes, one per dimension (a B1 code is a bit), and its locator entry
(R143). OCCUPIED is clear only where a restored image has it so. -/
structure Rec where
  occupied : Bool
  key : BitVec 64
  delta : Nat
  hasRecord : Bool
  hasPayload : Bool
  tags : BitVec 64
  range0 : BitVec 32
  range1 : BitVec 32
  norm : F32
  biasIndex : BitVec 16
  codes : List (BitVec 16)
  recOff : Nat
  recLen : Nat
  payOff : Nat
  payLen : Nat
  deriving DecidableEq, Repr

/-- A plate (R50, R56). `pid` names this physical plate apart from any other that has had its number: riders hold plates
by it. The data CRC and header CRC are functions of the rest (R58). -/
structure Plate where
  pid : Nat
  coll : Nat
  num : Nat
  pred : Option Nat
  gridGen : Nat
  keyGen : Bool
  epochBase : Nat
  recs : List Rec
  sealed_ : Bool
  tomb : List Nat
  settled : List Nat
  /-- delete log: (delete epoch delta, slot), in ascending delete epoch then slot (R63) -/
  dlog : List (Nat × Nat)
  minDelta : Nat
  maxDelta : Nat
  tagUnion : BitVec 64
  tagInter : BitVec 64
  min0 : Nat
  max0 : Nat
  min1 : Nat
  max1 : Nat
  /-- dirty bits (R223) -/
  dirtyHdr : Bool
  dirtyData : Bool
  /-- a replating source (R225) -/
  source : Bool
  /-- quarantined and being restored (R423) -/
  quarantined : Bool
  /-- lost: neither its master nor a companion can supply it (R424) -/
  lost : Bool
  /-- present in the tier its collection reads (false while a start-up restore still owes it, R407) -/
  present : Bool
  /-- off the current list: retires once no query holds it (R227) -/
  retiring : Bool
  deriving DecidableEq, Repr

/-- The state of a bias plane's second buffer (R229 to R231). -/
inductive BiasPhase where
  | accumulating
  | frozen
  | draining
  deriving DecidableEq, Repr

/-- A bias plane (R229): the published buffer, the other buffer, the frame number and the hold list. Buffers list the
entries that are not +0, by ascending index. -/
structure BiasPlane where
  published : List (Nat × F32)
  other : List (Nat × F32)
  frame : Nat
  phase : BiasPhase
  hold : List (WriteOp × Nat × F32)
  dirty : Bool
  /-- the companion has sent FRAME_DONE for the frame that drains (R361) -/
  peerDone : Bool
  doneSent : Bool
  /-- in the bias store, not in sweep memory (R233) -/
  inStore : Bool
  deriving DecidableEq, Repr

/-- A collection's catalogue entry (R38) with its key directory (R44). `accepted` is the set of user keys live after every
accepted write (R212); `dir` holds the published position of each live key. -/
structure Coll where
  num : Nat
  format : Format
  dim : Nat
  metric : Metric
  sidecar : Sidecar
  deep : Bool
  payloadMax : Nat
  store : StoreKind
  storeFmt : Format
  gridA : List F32
  gridB : List F32
  gridGen : Nat
  objPlates : Nat
  objDir : Nat
  objPayload : Nat
  objStore : Nat
  objBias : Nat
  bias : Option BiasPlane
  accepted : List (BitVec 64)
  dir : List (BitVec 64 × Nat × Nat)
  /-- next free byte offsets in the record store and the payload table (R144) -/
  storeEnd : Nat
  payEnd : Nat
  deleting : Bool
  draining : Bool
  /-- headers waiting for the header-log stripe, and of each plate the vault data address of its newest header in the log
  (R312) -/
  hdrLog : List Nat
  hdrAt : List (Nat × Nat)
  deriving DecidableEq, Repr

/-- A catalogue object other than the plates themselves (R36, R235). -/
structure Obj where
  num : Nat
  kind : Nat
  coll : Nat
  base : Nat
  bytes : Nat
  extent : Nat
  tier : Tier
  lastUse : Nat
  heat : Nat
  keyGen : Nat
  draining : Bool
  /-- pool pages held in sweep memory -/
  pages : Nat
  /-- dirty 64 KiB granules (R235) -/
  dirty : List Nat
  deriving DecidableEq, Repr

/-- What waits on a slew's switch (R236). -/
inductive SlewFor where
  | place (c : CmdRef)
  | residence (c : CmdRef) (coll : Nat)
  | ringStart (ring : Nat)
  | photometric
  | evict
  | rekey
  /-- a bias plane takes a bias-store place as its ring starts, or gives up the place of a stopped ring (R241) -/
  | bias
  deriving DecidableEq, Repr

/-- A slew in flight (R236, R237): object, destination tier, granules written after they were copied, whether the switch
holds writes. -/
structure Slew where
  obj : Nat
  dest : Tier
  pages : Nat
  started : Bool
  pendingGranules : List Nat
  held : Bool
  cause : SlewFor
  order : Nat
  deriving DecidableEq, Repr

/-- A command or engine step whose allocation returned POOL_BUSY and is retried (R245). -/
inductive AllocFor where
  | queueCreate (f : Fetched)
  | shardList (f : Fetched)
  | collectionCreate (f : Fetched) (op : List Byte)
  | objectCreate (f : Fetched) (op : List Byte)
  | modelLoad (f : Fetched)
  | slewStart (obj : Nat)
  | recalibrate (f : Fetched) (op : List Byte)
  deriving DecidableEq, Repr

structure Alloc where
  id : Nat
  what : AllocFor
  since : Nat
  /-- its last attempt returned POOL_BUSY; otherwise it waits for a victim's switch (R243) -/
  failed : Bool
  deriving DecidableEq, Repr

/-- A replating (R225), with its cause: reclaim, re-base, or a rekey batch (R388). -/
inductive ReplateCause where
  | reclaim | rebase | rekey
  deriving DecidableEq, Repr

structure Replating where
  id : Nat
  coll : Nat
  cause : ReplateCause
  sources : List Nat
  repl : List Plate
  base : Nat
  ready : Bool
  deriving DecidableEq, Repr

/-- A staged recalibration (R255): the twins stand beside their plates until the one edit swaps them in. -/
structure Recal where
  ref : CmdRef
  seq : Nat
  coll : Nat
  fromStore : Bool
  gridA : List F32
  gridB : List F32
  twins : List Plate
  fromCodes : Nat
  staged : Bool
  deriving DecidableEq, Repr

/-- A calibration sweep (R251, R252). -/
structure Calib where
  ref : CmdRef
  coll : Nat
  fromStore : Bool
  stride : Nat
  params : List (F32 × F32)
  addr : Nat
  rkey : BitVec 32
  view : List Nat
  epochStart : Nat
  /-- the grid of the plates captured at the start -/
  gridA : List F32
  gridB : List F32
  gridGen : Nat
  deriving DecidableEq, Repr

structure CatState where
  colls : List Coll
  objs : List Obj
  plates : List Plate
  nextPid : Nat
  /-- DEV_CATALOGUE_SEQ -/
  seq : Nat
  slews : List Slew
  allocs : List Alloc
  nextId : Nat
  replatings : List Replating
  recals : List Recal
  calib : Option Calib
  calibQueue : List (Fetched × List Byte)
  deriving DecidableEq, Repr

/-! ### Queues (R260 to R290) -/

structure Queue where
  num : Nat
  kind : Nat
  roce : Bool
  priority : Nat
  sqBase : Nat
  cqBase : Nat
  sqDepth : Nat
  cqDepth : Nat
  vector : Nat
  coalCount : Nat
  coalTime : Nat
  stagingBytes : Nat
  qpn : Nat
  cqRkey : BitVec 32
  /-- module-side SQ ring address and remote key of a RoCEv2 queue (R263) -/
  ringAddr : Nat
  rkey : BitVec 32
  /-- pool pages held by the ring and staging area -/
  pages : Nat
  sqHead : Nat
  sqTail : Nat
  cqTail : Nat
  cqHead : Nat
  phase : Bool
  /-- identifiers of the commands in flight -/
  inflight : List (BitVec 16)
  fault : Nat
  /-- QUEUE_DELETEs that wait for this queue (R264), or a deletion by a PCIe reset event with no command (R334) -/
  deleting : Bool
  orphan : Bool
  waiters : List CmdRef
  /-- completions counted for the next interrupt, and the time of the oldest (R288) -/
  irqCount : Nat
  irqSince : Nat
  deriving DecidableEq, Repr

/-- A completion that waits for a flush read, or for the acknowledgement of RDMA WRITEs up to a packet (R286). `id` is the
query context's, or a number of its own. -/
structure Waiting where
  id : Nat
  ref : CmdRef
  status : Status
  v0 : BitVec 64
  v1 : BitVec 64
  len : Option Nat
  flush : Bool
  qpn : Nat
  psn : Nat
  deriving DecidableEq, Repr

/-- What Jenjor sends to the world outside. -/
inductive Output where
  /-- a 32-byte completion written to a CQ slot (R278, R279) -/
  | completion (q slot : Nat) (bytes : BitVec 256)
  /-- bytes written to a PCIe address (R285) -/
  | pcieWrite (addr : Nat) (data : List Byte)
  /-- bytes sent by RDMA WRITE on a queue pair (R285) -/
  | rdmaWrite (qpn addr : Nat) (rkey : BitVec 32) (data : List Byte)
  /-- a completion sent by RDMA WRITE WITH IMMEDIATE into a client's CQ, with the queue number in the immediate (R287) -/
  | rdmaCompletion (qpn addr : Nat) (rkey imm : BitVec 32) (bytes : BitVec 256)
  | flushRead (addr : Nat)
  | msix (vector : Nat) (addr : BitVec 64) (data : BitVec 32)
  /-- the answer to a BAR0 read (R335) -/
  | readResponse (off : Nat) (data : BitVec 64)
  /-- bytes that a read of BAR4 or BAR2 returns (R335) -/
  | windowData (data : List Byte)
  | unsupportedRequest (addr : Nat)
  | completerAbort (addr : Nat)
  | configRetry
  | spdm (mb : Mailbox) (code : Nat) (data : List Byte)
  | doe (data : List Byte)
  | ethFrame (port kind : Nat) (data : List Byte)
  | nak (qpn syndrome : Nat)
  | cnp (qpn : Nat)
  | cmMessage (port kind arg : Nat)
  | roceRetransmit (qpn psn : Nat)
  /-- a companion message: its values, and its 16-byte header (R349) -/
  | cpn (ty seq : Nat) (a b c : Nat) (data header : List Byte)
  | witness (take : Bool) (n ceiling : Nat)
  | pldmEvent (cls : Nat)
  | pldmReading (sensor value : Nat)
  | mgmt (ok : Bool) (v : BitVec 64)
  | aer (kind : Nat)
  | vaultRead (page : Nat)
  | jtag (code : BitVec 32)
  deriving DecidableEq, Repr

structure MsixEntry where
  addr : BitVec 64
  data : BitVec 32
  masked : Bool
  pending : Bool
  deriving DecidableEq, Repr

structure QueueState where
  queues : List Queue
  /-- fetched and waiting to be carried out, oldest first; the contexts (R19) and command slots (R262) in use are the
  commands in flight -/
  fetched : List Fetched
  /-- the queue served last at each priority, by priority (R268), admin queues apart -/
  lastAdmin : List (Nat × Nat)
  lastServed : List (Nat × Nat)
  /-- admin queue registers (R438) -/
  aqSqBase : BitVec 64
  aqCqBase : BitVec 64
  aqSqDepth : BitVec 16
  aqCqDepth : BitVec 16
  aqVector : BitVec 11
  aqEnable : Bool
  aqReady : Bool
  aqError : Bool
  /-- MSI-X entries that differ from the reset entry, by vector -/
  msix : List (Nat × MsixEntry)
  /-- doorbells held before the end of start-up step 6 (R406): (queue, is SQ_TAIL, value) -/
  heldDoorbells : List (Nat × Bool × Nat)
  /-- completions that wait on their delivered bytes (R286) -/
  waits : List Waiting
  /-- stored low halves of 64-bit registers being written in two parts, by BAR0 address (R432) -/
  halves : List (Nat × BitVec 32)
  /-- the latched high half: (address of the high half, value) (R336) -/
  latch : Option (Nat × BitVec 32)
  /-- DEV_WINDOW_BASE -/
  windowBase : BitVec 64
  nextRkey : BitVec 32
  nextRing : Nat
  deriving DecidableEq, Repr

/-! ### Queries (R81, R125 to R137, R140) -/

/-- A predicate block (R125, R126). -/
structure Predicate where
  ctl : BitVec 32
  masks : List (BitVec 64)
  values : List (BitVec 64)
  lo : List (BitVec 32)
  hi : List (BitVec 32)
  deriving DecidableEq, Repr

/-- A candidate entry (R124). -/
structure Entry where
  key : KeyWord
  user : BitVec 64
  handle : BitVec 48
  cluster : Nat
  hasRecord : Bool
  hasPayload : Bool
  pid : Nat
  slot : Nat
  deriving DecidableEq, Repr

/-- Where a query stands (R81 and R21 steps 2, 6, 7, 8). -/
inductive CtxPhase where
  | encoding
  | inPass
  | waiting
  | loading
  | loaded
  | reloading
  | riding
  | alighting
  | merging
  | rerankWait
  | reranking (core : Nat)
  | payloadFetch
  | delivering
  | flushing
  | ackWait
  | xcheckWait
  deriving DecidableEq, Repr

/-- A query context (R19). -/
structure Ctx where
  id : Nat
  ref : CmdRef
  d : Desc
  coll : Nat
  ring : Nat
  priority : Nat
  arrival : Nat
  phase : CtxPhase
  pred : Predicate
  model : Nat
  tokens : List Nat
  /-- FP32 query of R105, B1 query bytes (R110), query token vectors and rerank vector (R140) -/
  q32 : List F32
  qbits : List Byte
  qtok : List (List F32)
  rvec : List F32
  /-- converted operands (R107 to R110) -/
  words : List Int
  floats : List F32
  gsum : Int
  mu : F32
  const : F32
  gridGen : Nat
  clamped : Bool
  row : Option Nat
  /-- snapshot (R22) -/
  epoch : Nat
  frame : Nat
  view : List Nat
  pinned : Bool
  owed : List Nat
  /-- candidate list, boundary, and boundary as installed in each cluster's lanes (R133, R134) -/
  list : List Entry
  boundary : Option (KeyWord × BitVec 64)
  lanes : List (Nat × KeyWord × BitVec 64)
  selecting : Bool
  matchCount : Nat
  qualCount : Nat
  nanCount : Nat
  /-- speculative requests formed, and those that wait for room in their cluster's queue (R146, R147) -/
  specIssued : Nat
  specTodo : List (Bool × Entry)
  /-- order of alighting (R142) -/
  alighted : Nat
  coarse : List Entry
  /-- coarse entries rescored so far and their rerank entries (R150, R151) -/
  rpos : Nat
  scored : List Entry
  /-- entries probed in the record cache so far (R150) -/
  probed : Nat
  /-- record pages that the query's rerank or payload fetch pins (R150) -/
  pins : List Nat
  final : List Entry
  reranked : Bool
  payloads : List (Nat × List Byte)
  /-- step 7 reads its payloads from the vault (R155) -/
  vaultPay : Bool
  deferred : Bool
  stretched : Bool
  tookCoarse : Bool
  t0 : Nat
  boardTime : Nat
  mergeTime : Nat
  /-- cross-check: tag of the XQUERY, true at the origin; the companion's digests (R359) -/
  xtag : Option (Nat × Bool)
  xpeer : Option (BitVec 256 × BitVec 256 × Bool)
  psn : Nat
  deriving DecidableEq, Repr

/-! ### Rings, clusters and groups (R71 to R99) -/

structure RingDef where
  deep : Bool
  alt : Option Nat
  minC : Nat
  maxC : Nat
  prio : Nat
  share : Nat
  window : Nat
  colls : List Nat
  format : Format
  dim : Nat
  deriving DecidableEq, Repr

inductive RingPhase where
  | stopped | waiting | running | stopping
  deriving DecidableEq, Repr

/-- A pending switch at a ring boundary (R87, R88). -/
inductive RingSwitch where
  /-- RING_EDIT entries: (append, collection, MARK) -/
  | edit (entries : List (Bool × Nat × Bool))
  /-- a plate opened under R221 joins the list -/
  | addPlate (pid : Nat)
  /-- replacements take the places of sources (R225) -/
  | replate (job : Nat)
  | recal (coll : Nat)
  | biasFrame (coll : Nat)
  | delete (coll : Nat)
  /-- a reloaded ring section's entry (R409) -/
  | redefine (e : RingEntry)
  deriving DecidableEq, Repr

/-- A row of a ring's home set (R104): its slot, its context, and once the rider has alighted the groups in which it has
freed (R83). -/
structure Row where
  slot : Nat
  ctx : Nat
  alighted : Bool
  freed : List (Nat × Nat)
  deriving DecidableEq, Repr

structure Ring where
  num : Nat
  defn : Option RingDef
  phase : RingPhase
  /-- the current plate-list view, by plate -/
  view : List Nat
  switches : List RingSwitch
  /-- list positions before which software placed a mark -/
  marks : List Nat
  clusters : List Nat
  /-- clusters announced to leave at the next boundary, and clusters that join at it (R75) -/
  leaving : List Nat
  joining : List Nat
  period : Nat
  derated : Nat
  stretched : Bool
  /-- capacity has covered the need since the last boundary (R96) -/
  covered : Bool
  grant : Nat
  grantNext : Option Nat
  passed : Bool
  pgSize : Nat
  /-- the pass being dealt: its list and the next position to deal -/
  passList : List Nat
  passPos : Nat
  rows : List Row
  starter : Option CmdRef
  stoppers : List CmdRef
  expired : Nat
  /-- an Almanac entry with START whose ring's restore is not complete (R407) -/
  almanacStart : Bool
  deriving DecidableEq, Repr

/-- A plate group (R76): the ring it comes from, its first list position, its plates, and once its headers are read the
plates as they stood then (R61). -/
structure PlateGroup where
  ring : Nat
  pos : Nat
  pids : List Nat
  skip : List Nat
  snap : List Plate
  ready : Bool
  recheck : List Nat
  deriving DecidableEq, Repr

/-- A cell's registers in one bank (R113): the 32-bit accumulator, which is an FP32 word for a float format, and the
48-bit spill register. -/
structure Cell where
  acc : BitVec 32
  spill : BitVec 48
  deriving DecidableEq, Repr

/-- A bank of partial sums that has accumulated and not finished draining (R101): its batch, the columns drained, and the
cells of the enabled pairs, by column of the batch and context. -/
structure Bank where
  batch : Nat
  column : Nat
  cells : List ((Nat × Nat) × Cell)
  deriving DecidableEq, Repr

structure Group where
  queue : List PlateGroup
  fill : Option PlateGroup
  compute : Option PlateGroup
  /-- contexts enabled for the compute half's plate group -/
  enabled : List Nat
  /-- (context, plate) pairs that the summary test excluded (R91) -/
  excluded : List (Nat × Nat)
  /-- batches accumulated so far; the banks not yet drained, oldest first, at most two (R101) -/
  batch : Nat
  banks : List Bank
  /-- held at the barrier (R89) -/
  held : Bool
  /-- times of the last completed plate groups and their plates, newest first: 65, which bound the last 64 (R85) -/
  done : List (Nat × Nat)
  deriving DecidableEq, Repr

structure Cluster where
  num : Nat
  spare : Bool
  active : Bool
  failed : Bool
  retiring : Bool
  home : Option Nat
  groups : List Group
  /-- admission queue: (context, entry), oldest first; greatest fill since last read (R135) -/
  admq : List (Nat × Entry)
  admHigh : Nat
  /-- speculative requests (R147): context, whether for the payload, and the entry -/
  specq : List (Nat × Bool × Entry)
  specHigh : Nat
  deriving DecidableEq, Repr

structure SweepState where
  rings : List Ring
  clusters : List Cluster
  ctxs : List Ctx
  arrivals : Nat
  dfReserve : Nat
  deriving DecidableEq, Repr

/-! ### Spectrograph (R142 to R160) -/

structure Line where
  page : Nat
  /-- the 2 MiB cache page that holds the line -/
  home : Nat
  lastUse : Nat
  /-- filled by a speculative read -/
  spec : Bool
  /-- pinned when a rekey dropped the lines (R388): dropped once it is unpinned -/
  stale : Bool
  deriving DecidableEq, Repr

structure PageRead where
  page : Nat
  demand : Bool
  waiters : List Nat
  deriving DecidableEq, Repr

structure SpgState where
  vaultShare : Nat
  cacheSize : Nat
  cacheMax : Nat
  /-- the record cache's 2 MiB pages with their heat (R242) -/
  cachePages : List (Nat × Nat)
  lines : List Line
  reads : List PageRead
  /-- context on each of the four cores -/
  cores : List (Option Nat)
  alightOrder : Nat
  deriving DecidableEq, Repr

/-! ### Coelostat (R161 to R206) -/

/-- Program fault codes (R201). -/
inductive ProgFault where
  | order | address | pairing | collective | loopZero | output | seqSplit | watchdog
  deriving DecidableEq, Repr

structure CoeFault where
  rank : Nat
  code : ProgFault
  index : Nat
  deriving DecidableEq, Repr

structure CoeCore where
  failed : Bool
  spare : Bool
  active : Bool
  /-- COE_FAULT: the fault recorded last, and VALID -/
  fault : Option CoeFault
  faultValid : Bool
  deriving DecidableEq, Repr

/-- The model header's fields that running it needs (R164). -/
structure ModelHeader where
  flags : BitVec 16
  layers : Nat
  heads : Nat
  width : Nat
  ffn : Nat
  vocab : Nat
  maxSeq : Nat
  outDim : Nat
  scale : F32
  eps : F32
  deriving DecidableEq, Repr

inductive ModelPhase where
  | empty | loading | resident | draining
  deriving DecidableEq, Repr

structure Model where
  phase : ModelPhase
  obj : Nat
  prog : Nat
  keySlot : Nat
  keyGen : Nat
  maxSeq : Nat
  maxTokens : Nat
  hdr : ModelHeader
  /-- decrypted package bytes and instructions while loaded (R204) -/
  package : List Byte
  instrs : List (BitVec 128)
  footprint : Nat
  accTiles : Nat
  stagePanels : Nat
  storeBase : Nat
  constBase : Nat
  constUnits : Nat
  consts : List Byte
  digests : BitVec 384 × BitVec 384
  loadSeq : Nat
  waitHigh : Nat
  loader : Option CmdRef
  /-- the MODEL_UNLOAD that waits, with its catalogue sequence number -/
  unloader : Option (CmdRef × Nat)
  deriving DecidableEq, Repr

/-- A collective a rank waits in (R198). -/
structure Collective where
  opcode : Nat
  count : Nat
  opc : Nat
  opa : Nat
  opb : Nat
  deriving DecidableEq, Repr

/-- A rank's state (R182, R183). Memory is the bytes of the data region that are not zero; accumulators the FP32 elements
that are not +0, by (tile · 256 + row) · 64 + column; exponents those that are not zero, by slot · 256 + row; a panel is its
bytes, once filled. -/
structure Rank where
  pc : Nat
  ended : Bool
  scalars : List (BitVec 32)
  mem : List (Nat × Byte)
  acc : List (Nat × F32)
  slices : List Nat
  exps : List (Nat × Int)
  compute : List (Option (List Byte))
  fill : List (Option (List Byte))
  /-- WFWDs whose WRCV has not been issued: their panels; WRCVs issued and not yet paired: panels and first fill panel
  (R197) -/
  sends : List (List (List Byte))
  recvs : List (Nat × Nat)
  /-- the collective that this rank has reached and waits in -/
  coll : Option Collective
  emittedPooled : Bool
  emittedTokens : Bool
  deriving DecidableEq, Repr

/-- One row of the row table (R181). -/
structure RowInfo where
  token : Nat
  seq : Nat
  pos : Nat
  wantTokens : Bool
  deriving DecidableEq, Repr

structure Pass where
  model : Nat
  reqs : List Nat
  rows : List RowInfo
  padded : Nat
  ranks : List Rank
  pooled : List (Nat × List (BitVec 16))
  tokvecs : List (Nat × Nat × List (BitVec 16))
  startTime : Nat
  deriving DecidableEq, Repr

structure CoeState where
  cores : List CoeCore
  models : List Model
  pass : Option Pass
  /-- requests of an abandoned pass, run again as the next pass (R178) -/
  rerun : Option (Nat × List Nat)
  deriving DecidableEq, Repr

/-! ### The write path (R207 to R232) -/

/-- A journal entry: the record, the command it answers, and the stages of R210 it has passed. -/
structure JEntry where
  jr : JRec
  ref : CmdRef
  visible : Bool
  localDurable : Bool
  peerDurable : Bool
  acked : Bool
  completed : Bool
  /-- waits outside commit grouping (R218) -/
  waiting : Bool
  programmed : Bool
  epoch : Option Nat
  published : Bool
  discarded : Bool
  /-- plates, and the bias buffer, that its changes wait to see written back (R223) -/
  touched : List Nat
  touchedBias : Bool
  deriving DecidableEq, Repr

/-- A formed, unpublished commit (R215). -/
structure Commit where
  epoch : Nat
  seqs : List Nat
  /-- the wait of R222 has been counted -/
  waited : Bool
  peerAck : Bool
  deriving DecidableEq, Repr

structure Fence where
  ref : CmdRef
  covered : List Nat
  /-- highest epoch among its covered writes published so far -/
  best : Option Nat
  deriving DecidableEq, Repr

structure WriteState where
  epoch : Nat
  formed : Nat
  nextSeq : Nat
  ackSeq : Nat
  journal : List JEntry
  commits : List Commit
  fences : List Fence
  /-- journal buffer: sequence numbers held (R318) -/
  buffer : List Nat
  bufHigh : Nat
  /-- journal region: bytes in use (R317) -/
  region : Nat
  stopped : Bool
  tokens : Nat
  byteTokens : Nat
  replatePct : Nat
  deriving DecidableEq, Repr

/-! ### Placement and photometer registers (R259) -/

structure PlaceState where
  photometric : Bool
  promoteMin : Nat
  deriving DecidableEq, Repr

/-! ### Sweep memory (R291 to R309) -/

inductive ChanState where
  | untrained | serving | standby | retraining | retired | testing
  deriving DecidableEq, Repr

structure Chan where
  temp : Nat
  margin : Nat
  state : ChanState
  logical : Option Nat
  marked : Bool
  /-- when it was last marked, and that its present mark came within 1 s of another (R422) -/
  markAt : Option Nat
  again : Bool
  retries : Nat
  pattern : BitVec 4
  loop : Bool
  busy : Bool
  done : Bool
  errPins : BitVec 32
  /-- state to return to after a test -/
  back : ChanState
  deriving DecidableEq, Repr

structure Rim where
  spareUsed : Bool
  spareFailed : Bool
  spareFor : Nat
  /-- a substitution under way: the channel shadowed onto the spare (R425) -/
  shadow : Option Nat
  deriving DecidableEq, Repr

structure MemState where
  online : Bool
  band : Nat
  hours : Nat
  chans : List Chan
  rims : List Rim
  /-- poisoned code words (R305): pool address ÷ 64, and the object they belong to -/
  poison : List (Nat × PoolObject)
  stopped : Bool
  deriving DecidableEq, Repr

/-! ### The vault (R310 to R330) -/

inductive CarState where
  | empty | identifying | serving | releasing | safeToRemove | rebuilding | failed
  deriving DecidableEq, Repr

structure Carrier where
  state : CarState
  serial : BitVec 64
  wear : Nat
  spare : Nat
  refuse : Nat
  permille : Nat
  retired : Nat
  chansRetired : List Nat
  retrains : List Nat
  /-- NAND case temperature, °C (R461): above 75 its programs are paced -/
  temp : Nat
  deriving DecidableEq, Repr

/-- What a run of vault stripes holds (R312): a plate's copy, an object, or a stripe of a collection's header log with the
plates whose headers lie in it, in order. -/
inductive VaultHold where
  | plate (pid : Nat)
  | object (n : Nat)
  | headers (coll : Nat) (pids : List Nat)
  deriving DecidableEq, Repr

/-- Stripes in use, from the first (R311, R312). -/
structure VaultExtent where
  what : VaultHold
  stripe : Nat
  stripes : Nat
  deriving DecidableEq, Repr

structure VaultState where
  /-- the vault data addresses that hold objects (R312) -/
  extents : List VaultExtent
  online : Bool
  holdupWeak : Bool
  failed : Bool
  carriers : List Carrier
  holdupLast : Nat
  /-- the journal region's flush mark (R319) -/
  flushMark : Bool
  erasing : Bool
  deriving DecidableEq, Repr

/-! ### Links (R331 to R347) -/

inductive QpState where
  | setup | established | error
  deriving DecidableEq, Repr

structure Qp where
  num : Nat
  port : Nat
  state : QpState
  bound : List Nat
  mtu : Nat
  route : Bool
  mergeIn : Bool
  rtuAt : Nat
  /-- next PSN, oldest unacknowledged PSN, retries of it (R343, R345) -/
  psn : Nat
  unacked : Nat
  retries : Nat
  rateMbps : Nat
  lastCnp : Option Nat
  connector : Option (CmdRef × Nat)
  deriving DecidableEq, Repr

structure Port where
  up : Bool
  speed : Nat
  deriving DecidableEq, Repr

structure LinkState where
  width : Nat
  speed : Nat
  flit : Bool
  degraded : Bool
  perstHigh : Bool
  endpointUp : Bool
  pcieDown : Bool
  /-- PCIe reset events so far (R334) -/
  resets : Nat
  vectors : Nat
  ports : List Port
  qps : List Qp
  doePending : Bool
  deriving DecidableEq, Repr

/-! ### Companion and shard merge (R348 to R368) -/

structure ShardList where
  num : Nat
  count : Nat
  kMax : Nat
  tickets : Nat
  fp32 : Bool
  base : Nat
  slot : Nat
  rkey : BitVec 32
  pages : Nat
  deleting : Bool
  discarding : Bool
  deleters : List CmdRef
  /-- valid slots: (ticket, shard, tag, record bytes) -/
  slots : List (Nat × Nat × BitVec 16 × List Byte)
  deriving DecidableEq, Repr

structure MergeOpen where
  list : Nat
  ticket : Nat
  tag : BitVec 16
  k : Nat
  addr : Nat
  len : Nat
  rkey : BitVec 32
  route : Nat
  ref : CmdRef
  deriving DecidableEq, Repr

inductive PairState where
  | unpaired | training | checking | paired | split | restoringSource | restoringTarget | mismatch
  deriving DecidableEq, Repr

structure Sent where
  seq : Nat
  msg : Output
  deriving DecidableEq, Repr

structure PairData where
  pairState : PairState
  mode : Nat
  lanes : Nat
  spareLane : Bool
  linkUp : Bool
  retraining : Bool
  witnessOk : Bool
  catchingUp : Bool
  readOnly : Bool
  solo : Bool
  holder : Bool
  behind : Bool
  lease : Nat
  staleEpoch : Nat
  peerEpoch : Nat
  ceiling : Nat
  peerFloor : Option Nat
  /-- times of the last RENEW sent, of the last that counted, and of the last acknowledged here -/
  sentAt : Nat
  countedAt : Nat
  ackedAt : Nat
  sendSeq : Nat
  replay : List Sent
  /-- the peer's report and the companion mailbox's check (R350) -/
  peer : Option PeerInfo
  peerChecked : Bool
  pairId : BitVec 64
  companion : BitVec 96
  /-- forwarded commands awaiting FORWARD_DONE, by tag -/
  forwards : List (Nat × Fetched)
  nextTag : Nat
  peerDurable : Nat
  /-- the epoch published when the pair last separated (R358) -/
  splitEpoch : Nat
  deriving DecidableEq, Repr

structure CpnState where
  pair : PairData
  lists : List ShardList
  merges : List MergeOpen
  deriving DecidableEq, Repr

/-! ### Dome (R369 to R393) -/

inductive Tenancy where
  | unbound | binding | bound | scrubbing | suspended
  deriving DecidableEq, Repr

inductive LifeCycle where
  | test | service | rma | scrapped
  deriving DecidableEq, Repr

inductive SlotState where
  | empty | loaded | draining
  deriving DecidableEq, Repr

structure KeySlot where
  state : SlotState
  generation : Nat
  current : List Byte
  prev : Option (List Byte)
  staged : Option (List Byte × Bool)
  persist : Bool
  deriving DecidableEq, Repr

structure Session where
  id : Nat
  mb : Mailbox
  root : ChainRoot
  finished : Bool
  deriving DecidableEq, Repr

/-- What follows a scrub (R390, R372). -/
inductive ScrubThen where
  | binding (digest : BitVec 384)
  | unbound
  | lifeCycle (next : LifeCycle)
  deriving DecidableEq, Repr

/-- The sealed record (R386). -/
structure SealedRec where
  tenant : BitVec 384
  life : LifeCycle
  slots : List (Nat × KeySlot)
  deriving DecidableEq, Repr

structure DomState where
  life : LifeCycle
  tenant : Tenancy
  debug : Bool
  digest : BitVec 384
  secverFuses : Nat
  /-- the fuse words latched at reset (R373), and the words that were not settled -/
  latched : List (BitVec 32)
  unsettled : List Nat
  seedErased : Bool
  /-- transient sweep-memory keys drawn so far (R296) -/
  transientKeys : Nat
  scrubLast : Nat
  scrub : Option ScrubThen
  /-- a life-cycle change waits for its foreground erase (R372) -/
  lifeErase : Option LifeCycle
  slots : List KeySlot
  sessions : List Session
  nextSession : Nat
  sealedRec : Option SealedRec
  /-- management sessions by CA index (R392) -/
  tls : List (Nat × Role)
  /-- a rekey of slot 0 under way, and one of slot 1 (R388, R389) -/
  rekeySweep : Bool
  rekeyVault : Bool
  serial : BitVec 96
  order : BitVec 128
  mac : BitVec 48
  stepping : BitVec 8
  deriving DecidableEq, Repr

/-! ### Almanac and start-up (R394 to R414) -/

/-- One xSPI device: the image its header in force names, if any (R394). -/
structure Device where
  image : Option Image
  pendingImage : Option Image
  deriving DecidableEq, Repr

/-- A SECTION_RELOAD accepted (R410): its command or the management port, and its catalogue sequence number. -/
structure Reload where
  src : Option CmdRef
  mgmt : Bool
  seq : Nat
  sec : Section
  persisted : Bool
  /-- ring numbers of the ring section that it replaces, and those whose entries wait for their own next boundary -/
  replaced : List Nat
  entered : List Nat
  deriving DecidableEq, Repr

structure AlmState where
  step : Nat
  startTime : Nat
  generation : Nat
  floor : Nat
  owner : BitVec 64
  leaf : Nat
  source : Bool
  otherBad : Bool
  repairing : Bool
  pending : Bool
  writing : Option Image
  writesWaiting : List Image
  primary : Device
  alternate : Device
  image : Option Image
  running : Bool
  selected : Option Bool
  fwA : FwRecord
  fwB : FwRecord
  runSecver : Nat
  switchTo : Option (Bool × Option CmdRef)
  switchesWaiting : List (Bool × CmdRef)
  reloads : List Reload
  reloadsWaiting : List (Option CmdRef × Section)
  runtimeSeq : Nat
  training : List Nat
  plan : List PlanEntry
  planSet : Bool
  net : NetCfg
  cas : List (Nat × Role)
  witnessCa : Bool
  deriving DecidableEq, Repr

/-! ### Islands, power, service (R415 to R430, R448, R456 to R466) -/

structure Island where
  clk : Nat
  temp : Nat
  ceil : Nat
  /-- a reloaded ceiling that waits for the boundary of the cluster's ring (R409) -/
  ceilNext : Option Nat
  /-- lowered by the neighbour rule (R417) -/
  neighbourHeld : Bool
  deriving DecidableEq, Repr

inductive Power where
  | off | resetHeld | starting | on | flushing
  deriving DecidableEq, Repr

structure IslState where
  islands : List Island
  shedStep : Nat
  /-- the average passed 1,500 W and has not fallen to 1,480 W since (R29) -/
  shedding : Bool
  avgW : Nat
  nowW : Nat
  converterHot : Bool
  /-- spare lanes used by each die-to-die bundle (R418) -/
  d2d : List Nat
  whole : Bool
  power : Power
  straps : BitVec 3
  /-- FAULT#, PWR_LOSS#, SMB_ALERT#, LED_LINK: true is driven low -/
  pwrLossLow : Bool
  alertLow : Bool
  ledLinkLow : Bool
  /-- amber blink after a refused button, by bay (R448) -/
  amberBlink : List Bool
  refusedPart : List Bool
  resetLow : Bool
  inletHot : Bool
  flowLow : Bool
  smbReleased : Bool
  deriving DecidableEq, Repr

structure SeeState where
  arm : Bool
  kind : BitVec 4
  target : BitVec 32
  param : BitVec 32
  addr : BitVec 64
  /-- a single-read injector has made its injection -/
  spent : Bool
  deriving DecidableEq, Repr

/-- Every register, buffer, queue, counter, mode and pin of the module but its two byte-addressed memories. -/
structure Jenjor where
  /-- DEV_TIME -/
  time : Nat
  /-- next index of the free values (the model's own field) -/
  freeIdx : Nat
  /-- what has been sent out of the module, newest first -/
  out : List Output
  /-- the 48-bit counters that are not at zero, by the BAR0 address of their register -/
  ctrs : List (Nat × Ctr)
  log : LogState
  cat : CatState
  qs : QueueState
  sw : SweepState
  spg : SpgState
  coe : CoeState
  wr : WriteState
  place : PlaceState
  mem : MemState
  vlt : VaultState
  lnk : LinkState
  cpn : CpnState
  dom : DomState
  alm : AlmState
  isl : IslState
  see : SeeState
  deriving DecidableEq, Repr

/-- The machine: the commands and events that wait, first in, first out; catalogue memory by object-region address,
the bytes that are not zero (R33); the module-side pool memory that RoCEv2 clients write, the bytes that are not zero
(R263, R363); and the blocks. -/
structure State where
  pending : List Instr
  mem : List Host.Cell
  rmem : List Host.Cell
  j : Jenjor
  deriving DecidableEq, Repr

/-! ### Reset (R434): every register table's reset value; a register whose source is a fuse, the Almanac, the sealed
record or the journal reads zero until its source is read -/

def zeroFw : FwRecord :=
  { present := false, header := [], sigOk := false, digestOk := false }

def zeroNet : NetCfg :=
  { portOption := [0, 0], portIpv4 := [[], []], portIpv6 := [[], []], mtu := [0, 0], prefixes := [], dscp := 0,
    ackExponent := 0, retryCount := 0, vectors := 2048, witness := false }

def zeroHeader : ModelHeader :=
  { flags := 0, layers := 0, heads := 0, width := 0, ffn := 0, vocab := 0, maxSeq := 0, outDim := 0, scale := 0, eps := 0 }

def emptyModel : Model :=
  { phase := .empty, obj := 0, prog := 0, keySlot := 0, keyGen := 0, maxSeq := 0, maxTokens := 0, hdr := zeroHeader,
    package := [], instrs := [], footprint := 0, accTiles := 0, stagePanels := 0, storeBase := 0, constBase := 0,
    constUnits := 0, consts := [], digests := (0, 0), loadSeq := 0, waitHigh := 0, loader := none, unloader := none }

def stoppedRing (n : Nat) : Ring :=
  { num := n, defn := none, phase := .stopped, view := [], switches := [], marks := [], clusters := [], leaving := [],
    joining := [], period := 0, derated := 0, stretched := false, covered := true, grant := 0, grantNext := none,
    passed := false, pgSize := 0, passList := [], passPos := 0, rows := [], starter := none, stoppers := [], expired := 0,
    almanacStart := false }

def offCluster (n : Nat) : Cluster :=
  { num := n, spare := false, active := false, failed := false, retiring := false, home := none, groups := [], admq := [],
    admHigh := 0, specq := [], specHigh := 0 }

def untrainedChan : Chan :=
  { temp := 0, margin := 0, state := .untrained, logical := none, marked := false, markAt := none, again := false, retries := 0, pattern := 0,
    loop := false, busy := false, done := false, errPins := 0, back := .untrained }

def freshRim : Rim := { spareUsed := false, spareFailed := false, spareFor := 0, shadow := none }

def emptyCarrier : Carrier :=
  { state := .empty, serial := 0, wear := 0, spare := 0, refuse := 0, permille := 0, retired := 0, chansRetired := [],
    retrains := [], temp := 0 }

def emptySlot : KeySlot :=
  { state := .empty, generation := 0, current := [], prev := none, staged := none, persist := false }

def gatedIsland : Island := { clk := 0, temp := 0, ceil := 0, ceilNext := none, neighbourHeld := false }

def unpaired : PairData :=
  { pairState := .unpaired, mode := 0, lanes := 0, spareLane := false, linkUp := false, retraining := false,
    witnessOk := false, catchingUp := false, readOnly := false, solo := false, holder := false, behind := false,
    lease := 0, staleEpoch := 0, peerEpoch := 0, ceiling := 0, peerFloor := none, sentAt := 0, countedAt := 0,
    ackedAt := 0, sendSeq := 0, replay := [], peer := none, peerChecked := false, pairId := 0, companion := 0,
    forwards := [], nextTag := 0, peerDurable := 0, splitEpoch := 0 }

def resetLog : LogState :=
  { head := 0, trace := [], window := 0, record := 0, errClass := 0, errEn := false, errVector := 0 }

def resetCat : CatState :=
  { colls := [], objs := [], plates := [], nextPid := 0, seq := 0, slews := [], allocs := [], nextId := 0,
    replatings := [], recals := [], calib := none, calibQueue := [] }

/-- Queue 0 exists from reset (R261, R441), placed nowhere. -/
def queueZero : Queue :=
  { num := 0, kind := 3, roce := false, priority := 7, sqBase := 0, cqBase := 0, sqDepth := 0, cqDepth := 0, vector := 0,
    coalCount := 0, coalTime := 0, stagingBytes := 0, qpn := 0, cqRkey := 0, ringAddr := 0, rkey := 0, pages := 0,
    sqHead := 0, sqTail := 0, cqTail := 0, cqHead := 0, phase := true, inflight := [], fault := 0, deleting := false, orphan := false,
    waiters := [], irqCount := 0, irqSince := 0 }

def resetQueues : QueueState :=
  { queues := [queueZero], fetched := [], lastAdmin := [], lastServed := [], aqSqBase := 0, aqCqBase := 0, aqSqDepth := 0,
    aqCqDepth := 0, aqVector := 0, aqEnable := false, aqReady := false, aqError := false, msix := [], heldDoorbells := [], waits := [],
    halves := [], latch := none, windowBase := 0, nextRkey := 0, nextRing := 0 }

def resetSweep : SweepState :=
  { rings := (List.range 64).map stoppedRing, clusters := (List.range 18).map offCluster, ctxs := [], arrivals := 0,
    dfReserve := 25 }

def resetSpg : SpgState :=
  { vaultShare := 80, cacheSize := 0, cacheMax := 0, cachePages := [], lines := [], reads := [],
    cores := List.replicate 4 none, alightOrder := 0 }

def resetCoe : CoeState :=
  { cores := List.replicate 9 { failed := false, spare := false, active := false, fault := none, faultValid := false },
    models := List.replicate 8 emptyModel, pass := none, rerun := none }

def resetWrite : WriteState :=
  { epoch := 0, formed := 0, nextSeq := 1, ackSeq := 0, journal := [], commits := [], fences := [], buffer := [],
    bufHigh := 0, region := 0, stopped := false, tokens := 16384, byteTokens := 16777216, replatePct := 25 }

def resetMem : MemState :=
  { online := false, band := 0, hours := 24, chans := List.replicate 84 untrainedChan, rims := List.replicate 4 freshRim,
    poison := [], stopped := false }

def resetVault : VaultState :=
  { extents := [], online := false, holdupWeak := false, failed := false, carriers := List.replicate 4 emptyCarrier, holdupLast := 0,
    flushMark := false, erasing := false }

def resetLink : LinkState :=
  { width := 0, speed := 0, flit := false, degraded := false, perstHigh := false, endpointUp := false, pcieDown := false, resets := 0,
    vectors := 2048, ports := List.replicate 2 { up := false, speed := 0 }, qps := [], doePending := false }

/-- The part as shipped: in SERVICE (R371), no tenant bound, no sealed record; the fuses are read at step 1. -/
def resetDome : DomState :=
  { life := .service, tenant := .unbound, debug := false, digest := 0, secverFuses := 0, latched := [],
    unsettled := [], seedErased := false, transientKeys := 0, scrubLast := 0, scrub := none, lifeErase := none,
    slots := List.replicate 64 emptySlot, sessions := [], nextSession := 1, sealedRec := none, tls := [],
    rekeySweep := false, rekeyVault := false, serial := 0, order := 0, mac := 0, stepping := 0 }

def resetAlmanac : AlmState :=
  { step := 0, startTime := 0, generation := 0, floor := 0, owner := 0, leaf := 0, source := false, otherBad := false,
    repairing := false, pending := false, writing := none, writesWaiting := [], primary := { image := none, pendingImage := none },
    alternate := { image := none, pendingImage := none }, image := none, running := false, selected := none,
    fwA := zeroFw, fwB := zeroFw, runSecver := 0, switchTo := none, switchesWaiting := [], reloads := [],
    reloadsWaiting := [], runtimeSeq := 0, training := [], plan := [], planSet := false, net := zeroNet, cas := [],
    witnessCa := false }

def resetIslands : IslState :=
  { islands := List.replicate 29 gatedIsland, shedStep := 0, shedding := false, avgW := 0, nowW := 0, converterHot := false,
    d2d := List.replicate 22 0, whole := false, power := .off, straps := 0, pwrLossLow := false, alertLow := false,
    ledLinkLow := false, amberBlink := List.replicate 4 false, refusedPart := List.replicate 4 false, resetLow := false,
    inletHot := false, flowLow := false, smbReleased := false }

def resetSeeing : SeeState := { arm := false, kind := 0, target := 0, param := 0, addr := 0, spent := false }

/-- Every block at its reset values. -/
def Jenjor.reset : Jenjor :=
  { time := 0, freeIdx := 0, out := [], ctrs := [], log := resetLog, cat := resetCat, qs := resetQueues, sw := resetSweep,
    spg := resetSpg, coe := resetCoe, wr := resetWrite, place := { photometric := false, promoteMin := 64 },
    mem := resetMem, vlt := resetVault, lnk := resetLink, cpn := { pair := unpaired, lists := [], merges := [] },
    dom := resetDome, alm := resetAlmanac, isl := resetIslands, see := resetSeeing }

/-- The module before power-good, with nothing pending and nothing written (R434, R403). -/
def State.reset : State := { pending := [], mem := [], rmem := [], j := Jenjor.reset }

/-- Reasons the machine stops with a fault. -/
inductive Fault where
  /-- A command names a cluster, group, channel, island, bay, port, slot or core that the module does not have
  (R14, R291, R310, R341, R382), or has a form that its event cannot have (R265, R295, R314, R332, R342, R348): no event of
  the hardware is such a one. Raised by the meanings of the commands that `wellFormed` refuses. Safe: the model stops where
  the hardware has nothing to do. -/
  | noSuchUnit
  deriving DecidableEq, Repr

/-- Reasons the model gives a command no meaning. -/
inductive Refusal where
  /-- The command's arm has no meaning yet. Raised by Dispatch alone. Safe. -/
  | notModelled (mnemonic : String)
  deriving DecidableEq, Repr

end Sys2Proof.Machine
end

