-- ==== Sys2Proof/Config.lean ====
section
/-! DEFINITION. Sys2Proof/Config.lean: what the manual leaves open, as constants with no body. Nothing evaluates them
and no proof can see a value of one. -/

namespace Sys2Proof

/-- Bits of the NaN that an FP32 operation produces: IEEE 754 fixes neither its sign nor its payload, and the manual
names none (DESIGN CHOICE, log entry 9). -/
opaque Config.nanBits : BitVec 32

/-- Bytes whose content the manual calls undefined, by free-value index (DESIGN CHOICE, log entry 8). -/
opaque Config.freeByte : Nat → BitVec 8

/-- Words that the module draws or signs: nonces, signatures, certificate bytes, key shares (DESIGN CHOICE, log entry 10). -/
opaque Config.freeBytes : Nat → Nat → List (BitVec 8)

/-- Whether an unlock or life-cycle token verifies for this serial number (DESIGN CHOICE, log entry 10). -/
opaque Config.tokenVerifies : BitVec 96 → Nat → List (BitVec 8) → Bool

/-- Opening a weight package under a key: the plaintext, or failure of the AES-GCM check (DESIGN CHOICE, log entry 11). -/
opaque Config.openPackage : List (BitVec 8) → List (BitVec 8) → Option (List (BitVec 8))

/-- The digest of an evidence record or certificate chain (DESIGN CHOICE, log entry 10). -/
opaque Config.freeDigest : Nat → BitVec 384

/-- The PCIe function that the platform routes a bus address to (DESIGN CHOICE, log entry 12). -/
opaque Config.pcieFunction : Nat → Nat

/-- First module-side address of the rings, staging areas and merge areas that remote writes reach (DESIGN CHOICE, log entry 13). -/
opaque Config.poolBase : Nat

/-- Remote keys that the module assigns, by order of assignment (DESIGN CHOICE, log entry 13). -/
opaque Config.remoteKey : Nat → BitVec 32

/-- Bytes between a RoCEv2 SQ ring of a depth and its staging area (DESIGN CHOICE, log entry 13). -/
opaque Config.stagingGap : Nat → Nat

/-- The fixed voltage table: an island's supply in mV at a clock in MHz (DESIGN CHOICE, log entry 14). -/
opaque Config.supplyMv : Nat → Nat

/-- Vault pages that relocation or a rebuild programs, and cycles that pass by themselves, by free-value index (DESIGN
CHOICE, log entries 16 and 90). -/
opaque Config.freeCount : Nat → Nat

/-- The serial number of this module, set in manufacture (R2, R437; DESIGN CHOICE, log entry 31). -/
opaque Config.serial : BitVec 96

/-- The base MAC address of this module, set in manufacture (R2, R437; DESIGN CHOICE, log entry 31). -/
opaque Config.mac : BitVec 48

/-- What a repair fuse word assigns: the kind of unit and the physical unit that serves as spare (R373; DESIGN CHOICE, log entry 32). -/
opaque Config.repairUnit : BitVec 32 → Nat × Nat

/-- Whether a register that shows a quotient rounds it up, by its BAR0 address (DESIGN CHOICE, log entry 35). -/
opaque Config.roundsUp : Nat → Bool

/-- The bytes after the header of a companion message of a type and its values: the manual gives no layout of them (R349;
DESIGN CHOICE, log entry 99). -/
opaque Config.cpnBody : Nat → Nat → Nat → Nat → List (BitVec 8) → List (BitVec 8)

/-- The exponent of an A8 row that holds an infinity, a function of the row (R165 states it for finite rows; DESIGN CHOICE,
log entry 97). -/
opaque Config.rowExponent : List (BitVec 32) → Int

/-- An output element beyond the columns that an EMIT's source holds, a function of the elements it holds (R200; DESIGN
CHOICE, log entry 98). -/
opaque Config.emitElement : List (BitVec 16) → Nat → BitVec 16

/-- AES-256-XTS of a 512-byte data unit (R296): under a sweep key by its generation, or a transient key by its draw, with
the unit's tweak. The keys are no state of the model (DESIGN CHOICE, log entry 112). -/
opaque Config.xts : Bool × Nat → Nat → List (BitVec 8) → List (BitVec 8)

end Sys2Proof
end

