-- ==== Sys2Proof/Machine/Ops.lean ====
section
/-! DEFINITION. Sys2Proof/Machine/Ops.lean: the operations every family shares: byte memory, counters, the Logbook,
messages, completions, and the forms a meaning takes. -/

namespace Sys2Proof.Machine

/-! ### The forms of a meaning -/

/-- The module carries out commands: powered, not held in reset, not flushing after a power loss (R319, R456, R457), and
not scrapped (R371). -/
def Jenjor.live (j : Jenjor) : Bool :=
  (j.isl.power == .starting || j.isl.power == .on) && j.dom.life != .scrapped

/-- A command that reads and writes the blocks alone. -/
def onBlocks (f : Jenjor → Jenjor) (s : State) : Host.Outcome State Fault Refusal :=
  .next (if s.j.live then { s with j := f s.j } else s)

/-- A command that reads the memories and writes the blocks. -/
def onReading (f : List Host.Cell → List Host.Cell → Jenjor → Jenjor) (s : State) : Host.Outcome State Fault Refusal :=
  .next (if s.j.live then { s with j := f s.mem s.rmem s.j } else s)

/-- A command that writes catalogue memory and the blocks. -/
def onMemory (f : List Host.Cell → List Host.Cell → Jenjor → List Host.Cell × Jenjor) (s : State) :
    Host.Outcome State Fault Refusal :=
  .next (if s.j.live then { s with mem := (f s.mem s.rmem s.j).1, j := (f s.mem s.rmem s.j).2 } else s)

/-- A command that writes module-side pool memory and the blocks. -/
def onPool (f : List Host.Cell → List Host.Cell → Jenjor → List Host.Cell × Jenjor) (s : State) :
    Host.Outcome State Fault Refusal :=
  .next (if s.j.live then { s with rmem := (f s.mem s.rmem s.j).1, j := (f s.mem s.rmem s.j).2 } else s)

/-- A command about a unit: the module must have it (R14, R291, R310, R341). -/
def onUnit (exists_ : Bool) (k : Host.Outcome State Fault Refusal) : Host.Outcome State Fault Refusal :=
  if exists_ then k else .fault .noSuchUnit

/-! ### Byte memory: a sorted list of the bytes that are not zero -/

/-- The byte at an address; an unlisted address reads zero (R33). -/
def Memory.read : List Host.Cell → Nat → Byte
  | [], _ => 0
  | (b, v) :: m, a => if a = b then v else Memory.read m a

/-- Write one byte; writing zero removes the entry. -/
def Memory.write : List Host.Cell → Nat → Byte → List Host.Cell
  | [], a, v => if v = 0 then [] else [(a, v)]
  | (b, w) :: m, a, v =>
    if a < b then (if v = 0 then (b, w) :: m else (a, v) :: (b, w) :: m)
    else if a = b then (if v = 0 then m else (a, v) :: m)
    else (b, w) :: Memory.write m a v

def Memory.readBytes (m : List Host.Cell) (a n : Nat) : List Byte :=
  (List.range n).map fun i => Memory.read m (a + i)

def Memory.writeBytes : List Host.Cell → Nat → List Byte → List Host.Cell
  | m, _, [] => m
  | m, a, b :: bs => Memory.writeBytes (Memory.write m a b) (a + 1) bs

/-- Make `n` bytes read zero. -/
def Memory.clear (m : List Host.Cell) (a n : Nat) : List Host.Cell :=
  m.filter fun c => c.1 < a || a + n ≤ c.1

/-- Every listed address is at least `lo` and rises, and no listed byte is zero. -/
def Memory.wfFrom : Nat → List Host.Cell → Bool
  | _, [] => true
  | lo, (a, v) :: m => lo ≤ a && v != 0 && Memory.wfFrom (a + 1) m

/-- The canonical form: addresses strictly rising, no entry that reads as an unlisted address does. -/
def Memory.wf (m : List Host.Cell) : Bool := Memory.wfFrom 0 m

/-! ### Bytes and fields (R3, R4) -/

/-- Little-endian value of a byte list. -/
def leNat : List Byte → Nat
  | [] => 0
  | b :: bs => b.toNat + 256 * leNat bs

/-- `n` little-endian bytes of a value. -/
def leBytes : Nat → Nat → List Byte
  | 0, _ => []
  | n + 1, v => BitVec.ofNat 8 v :: leBytes n (v / 256)

/-- `n` bytes of a byte list from an offset, absent bytes reading zero. -/
def bytesAt (bs : List Byte) (off n : Nat) : List Byte :=
  (List.range n).map fun i => bs.getD (off + i) 0

/-- A little-endian field of a byte list. -/
def fieldAt (bs : List Byte) (off n : Nat) : Nat := leNat (bytesAt bs off n)

def wordAt (bs : List Byte) (off : Nat) : BitVec 32 := BitVec.ofNat 32 (fieldAt bs off 4)

/-- Byte field of a descriptor: `n` bytes at offset `off` (R269). -/
def dField (d : Desc) (off n : Nat) : Nat := (d.extractLsb' (8 * off) (8 * n)).toNat

/-- The little-endian word of 32-bit lanes. -/
def wordsOf : List Byte → List (BitVec 32)
  | a :: b :: c :: d :: bs => (d ++ c ++ b ++ a) :: wordsOf bs
  | _ => []

def halvesOf : List Byte → List (BitVec 16)
  | a :: b :: bs => (b ++ a) :: halvesOf bs
  | _ => []

def bit (v : BitVec 32) (i : Nat) : Bool := v.getLsbD i

/-- Round up to a multiple of 8 (R273, R276). -/
def pad8 (n : Nat) : Nat := (n + 7) / 8 * 8

def ceilDiv (a b : Nat) : Nat := if b = 0 then 0 else (a + b - 1) / b

/-- CRC-32C (R58): reflected, initial value and final exclusive-or all ones. -/
def crcByte (crc : BitVec 32) (b : Byte) : BitVec 32 :=
  (List.range 8).foldl (fun c _ => if c.getLsbD 0 then (c >>> 1) ^^^ 0x82F63B78#32 else c >>> 1)
    (crc ^^^ b.setWidth 32)

def crc32c (bs : List Byte) : BitVec 32 := bs.foldl crcByte 0xFFFFFFFF#32 ^^^ 0xFFFFFFFF#32

/-- Replace the entries of a list that satisfy `p`. -/
def updWhere {α : Type} (p : α → Bool) (f : α → α) (l : List α) : List α :=
  l.map fun x => if p x then f x else x

/-- Put an entry before the first that it may precede. -/
def insertBy {α : Type} (le : α → α → Bool) (x : α) : List α → List α
  | [] => [x]
  | y :: ys => if le x y then x :: y :: ys else y :: insertBy le x ys

/-- Sort by an order; equals keep their places. -/
def sortBy {α : Type} (le : α → α → Bool) : List α → List α
  | [] => []
  | x :: xs => insertBy le x (sortBy le xs)

/-- Fields of a firmware record's header (R402). -/
def fwMark (r : FwRecord) : Nat := fieldAt r.header 0x00 4
def fwWhich (r : FwRecord) : Nat := fieldAt r.header 0x04 1
def fwSecver (r : FwRecord) : Nat := fieldAt r.header 0x06 2
def fwArith (r : FwRecord) : Nat := fieldAt r.header 0x08 2
def fwLength (r : FwRecord) : Nat := fieldAt r.header 0x10 4
def fwDigest (r : FwRecord) : BitVec 384 := BitVec.ofNat 384 (fieldAt r.header 0x20 48)

/-- Every reserved byte of a firmware record's header is zero (R5, R402). -/
def fwReservedZero (r : FwRecord) : Bool :=
  [(0x05, 1), (0x0A, 6), (0x14, 12), (0xB0, 80)].all fun f => fieldAt r.header f.1 f.2 == 0

/-! ### Blocks of BAR0 and their Logbook codes (R427, R431) -/

def blkDEV : Nat := 0x1
def blkMER : Nat := 0x2
def blkTRN : Nat := 0x3
def blkCMP : Nat := 0x4
def blkFLT : Nat := 0x5
def blkSPG : Nat := 0x6
def blkCOE : Nat := 0x7
def blkMEM : Nat := 0x8
def blkVLT : Nat := 0x9
def blkLNK : Nat := 0xA
def blkCPN : Nat := 0xB
def blkDOM : Nat := 0xC
def blkISL : Nat := 0xD
def blkSEE : Nat := 0xE
def blkLOG : Nat := 0xF

/-- Base of a block in BAR0 (R431): DEV_ is 128 KiB at 0, every other block 64 KiB at its code. -/
def blkBase (blk : Nat) : Nat := if blk = blkDEV then 0 else blk * 0x10000

/-! ### Status codes (R289) -/

def Status.code : Status → BitVec 8
  | .success => 0x00 | .deadlineCoarse => 0x01 | .partialShards => 0x02 | .truncated => 0x03 | .staleSince => 0x04
  | .opcodeInvalid => 0x40 | .commandNotAllowed => 0x41 | .descriptorInvalid => 0x42 | .duplicateCommandId => 0x43
  | .addressInvalid => 0x44 | .limitReached => 0x45 | .idInUse => 0x46 | .unknownCollection => 0x47
  | .keyExists => 0x48 | .keyNotFound => 0x49 | .vectorInvalid => 0x4A | .predicateInvalid => 0x4B
  | .parameterInvalid => 0x4C | .gridInvalid => 0x4D | .ringInvalid => 0x4E | .ringBusy => 0x4F
  | .ringStopped => 0x50 | .modelInvalid => 0x51 | .modelNotResident => 0x52 | .sequenceInvalid => 0x53
  | .programInvalid => 0x54 | .programFault => 0x55 | .readOnly => 0x56 | .unknownObject => 0x57 | .queueInvalid => 0x58
  | .plateLost => 0x80 | .poolBusy => 0x81 | .periodStretched => 0x82 | .aborted => 0x83 | .deliveryFailed => 0x84
  | .internalError => 0x85 | .queryExpired => 0x86
  | .keyWithdrawn => 0xC0 | .noTenant => 0xC1 | .keySlotInvalid => 0xC2 | .authenticationFailed => 0xC3
  | .scrubInProgress => 0xC4

def statuses : List Status :=
  [.success, .deadlineCoarse, .partialShards, .truncated, .staleSince, .opcodeInvalid, .commandNotAllowed,
   .descriptorInvalid, .duplicateCommandId, .addressInvalid, .limitReached, .idInUse, .unknownCollection, .keyExists,
   .keyNotFound, .vectorInvalid, .predicateInvalid, .parameterInvalid, .gridInvalid, .ringInvalid, .ringBusy, .ringStopped,
   .modelInvalid, .modelNotResident, .sequenceInvalid, .programInvalid, .programFault, .readOnly, .unknownObject,
   .queueInvalid] ++
  [.plateLost, .poolBusy, .periodStretched, .aborted, .deliveryFailed, .internalError, .queryExpired, .keyWithdrawn,
   .noTenant, .keySlotInvalid, .authenticationFailed, .scrubInProgress]

/-- The status of a code, if it names one. -/
def Status.ofCode (c : BitVec 8) : Option Status := statuses.find? fun s => s.code == c

/-- Where several stage-2 statuses apply, the one of lowest value (R270). -/
def firstStatus (checks : List (Bool × Status)) : Option Status :=
  checks.foldl (fun acc c =>
    if c.1 then
      match acc with
      | none => some c.2
      | some s => if c.2.code.toNat < s.code.toNat then some c.2 else acc
    else acc) none

/-! ### Output, counters and the Logbook -/

namespace Jenjor

def emit (j : Jenjor) (o : Output) : Jenjor := { j with out := o :: j.out }

/-- One event of a 48-bit counter, `n` at once: wraps at 2^48 and sets the sticky overflow bit (R11). -/
def bump (j : Jenjor) (addr n : Nat) : Jenjor :=
  let old := (j.ctrs.lookup addr).getD { count := 0, ovf := false }
  let sum := old.count.toNat + n
  let new : Ctr := { count := BitVec.ofNat 48 sum, ovf := old.ovf || 2 ^ 48 ≤ sum }
  let rest := j.ctrs.filter (fun c => c.1 != addr)
  { j with ctrs := if new.count = 0 ∧ new.ovf = false then rest else (addr, new) :: rest }

/-- Count an event in a block's counter at `off` (R426). -/
def count (j : Jenjor) (blk off : Nat) : Jenjor := j.bump (blkBase blk + off) 1

def counter (j : Jenjor) (addr : Nat) : Ctr := (j.ctrs.lookup addr).getD { count := 0, ovf := false }

/-- The MSI-X entry of a vector; every entry resets masked and not pending (R443). -/
def msixEntry (j : Jenjor) (v : Nat) : MsixEntry :=
  (j.qs.msix.lookup v).getD { addr := 0, data := 0, masked := true, pending := false }

def setMsix (j : Jenjor) (v : Nat) (e : MsixEntry) : Jenjor :=
  { j with qs := { j.qs with msix := (v, e) :: j.qs.msix.filter (fun x => x.1 != v) } }

/-- Append a Logbook record (R427): the sequence rises by one; the 262,145th oldest is overwritten and LOG_LOST rises. -/
def record (j : Jenjor) (cls blk unit cause addr : Nat) (status : BitVec 8) (detail : BitVec 256) : Jenjor :=
  let r : LogRec := { seq := j.log.head + 1, time := j.time, cls := cls, injected := false, blk := blk,
                      status := status, unit := unit, cause := cause, addr := addr, detail := detail }
  let full := decide (262144 ≤ j.log.trace.length)
  let j := { j with log := { j.log with head := j.log.head + 1, trace := (r :: j.log.trace).take 262144 } }
  if full then j.count blkLOG 0x18 else j

/-- Send a vector's MSI-X message, or set its pending bit while it is masked (R288); a vector beyond the configured
table sends no message and is logged (R430); an entry whose address is zero sends none either, stays pending and is
logged (R337). -/
def sendVector (j : Jenjor) (v : Nat) : Jenjor :=
  if j.lnk.vectors ≤ v then j.record 0 blkLNK v 0xFFFF 0 0 0
  else
    let e := j.msixEntry v
    if e.masked then j.setMsix v { e with pending := true }
    else if e.addr = 0 then (j.setMsix v { e with pending := true }).record 0 blkLNK v 0xFFFF 0 0 0
    else j.emit (.msix v e.addr e.data)

/-- Report a fault of a class (R426, R428): the record, for classes 2 to 4 the summary bit and error interrupt, for
classes 3 and 4 the PLDM event. -/
def fault (j : Jenjor) (cls blk unit cause addr : Nat) (status : BitVec 8) (detail : BitVec 256) : Jenjor :=
  let j := j.record cls blk unit cause addr status detail
  if 2 ≤ cls ∧ cls ≤ 4 then
    let was := j.log.errClass.getLsbD (cls - 2)
    let j := { j with log := { j.log with errClass := j.log.errClass ||| (1#3 <<< (cls - 2)) } }
    let j := if !was && j.log.errEn then j.sendVector j.log.errVector.toNat else j
    if 3 ≤ cls then { j with isl := { j.isl with alertLow := true } }.emit (.pldmEvent cls) else j
  else j

/-- An informational record. -/
def info (j : Jenjor) (blk unit cause addr : Nat) : Jenjor := j.record 0 blk unit cause addr 0 0

/-- A write discarded or refused with no other counter: LOG_DISCARDS (R6, R265, R427, R430). -/
def discard (j : Jenjor) (unit addr : Nat) : Jenjor :=
  (j.count blkLOG 0x20).record 5 blkLOG unit 0x20 addr 0 0

/-! ### Queues and completions -/

def queue? (j : Jenjor) (q : Nat) : Option Queue := j.qs.queues.find? fun x => x.num == q

def mapQueue (j : Jenjor) (q : Nat) (f : Queue → Queue) : Jenjor :=
  { j with qs := { j.qs with queues := updWhere (fun x => x.num == q) f j.qs.queues } }

def qp? (j : Jenjor) (n : Nat) : Option Qp := j.lnk.qps.find? fun x => x.num == n

def mapQp (j : Jenjor) (n : Nat) (f : Qp → Qp) : Jenjor :=
  { j with lnk := { j.lnk with qps := updWhere (fun x => x.num == n) f j.lnk.qps } }

/-- A queue's first fault is kept; later ones reach the Logbook alone (R442). -/
def queueFault (j : Jenjor) (q cause : Nat) : Jenjor :=
  (j.mapQueue q fun x => if x.fault = 0 then { x with fault := cause } else x).record 5 blkDEV q 0xFFFF 0 0 cause

/-- Query contexts in use (R19): the commands in flight on query queues and the companion's queries run here. -/
def contextsUsed (j : Jenjor) : Nat :=
  (j.qs.queues.filter fun q => q.kind == 1).foldl (fun n q => n + q.inflight.length) 0
    + (j.sw.ctxs.filter fun c => c.xtag.any fun t => !t.2).length

/-- Command slots in use (R262). -/
def slotsUsed (j : Jenjor) : Nat :=
  (j.qs.queues.filter fun q => q.kind != 1).foldl (fun n q => n + q.inflight.length) 0

/-- The 32 bytes of a completion (R278). -/
def completionBytes (v0 v1 : BitVec 64) (cid : BitVec 16) (sqHead q : Nat) (st : BitVec 8) (result phase : Bool)
    (len us : Nat) : BitVec 256 :=
  BitVec.ofNat 32 (min us 0xFFFFFFFF) ++ BitVec.ofNat 32 (if result then len else 0)
    ++ (0#6 ++ BitVec.ofBool result ++ BitVec.ofBool phase) ++ st ++ (0#4 ++ BitVec.ofNat 12 q)
    ++ BitVec.ofNat 16 sqHead ++ cid ++ v1 ++ v0

/-- Count a completion toward its queue's interrupt and send the message at the coalescing count (R288). -/
def countInterrupt (j : Jenjor) (q : Queue) : Jenjor :=
  let n := q.irqCount + 1
  if max 1 q.coalCount ≤ n then
    (j.mapQueue q.num fun x => { x with irqCount := 0, irqSince := 0 }).sendVector q.vector
  else j.mapQueue q.num fun x => { x with irqCount := n, irqSince := if x.irqCount = 0 then j.time else x.irqSince }

/-- Packets of an RDMA WRITE at a path MTU (R343). -/
def packets (len mtu : Nat) : Nat := max 1 (ceilDiv len mtu)

/-- Send an RDMA WRITE: its packets take the next packet sequence numbers (R343). -/
def sendRdma (j : Jenjor) (qpn addr : Nat) (rkey : BitVec 32) (data : List Byte) : Jenjor :=
  (j.mapQp qpn fun p => { p with psn := (p.psn + packets data.length p.mtu) % 2 ^ 24 }).emit (.rdmaWrite qpn addr rkey data)

/-- A queue pair that can carry writes. -/
def qpAlive (j : Jenjor) (n : Nat) : Bool := (j.qp? n).any fun p => p.state == .established

/-- The header of a companion message (R349): type, length in 64-byte units, sequence number, and the CRC-32C of the whole
message with that field zero. -/
def cpnHeader (ty seq a b c : Nat) (data : List Byte) : List Byte :=
  let body := Config.cpnBody ty a b c data
  let h := leBytes 1 ty ++ leBytes 1 0 ++ leBytes 2 (ceilDiv (16 + body.length) 64) ++ leBytes 8 seq
  h ++ leBytes 4 (crc32c (h ++ leBytes 4 0 ++ body)).toNat

/-- Send a message to the companion (R349): the next sequence number, kept for replay until acknowledged. -/
def sendCpn (j : Jenjor) (ty a b c : Nat) (data : List Byte) : Jenjor :=
  if j.cpn.pair.linkUp then
    let seq := j.cpn.pair.sendSeq + 1
    let m : Output := .cpn ty seq a b c data (cpnHeader ty seq a b c data)
    let p : PairData := { j.cpn.pair with sendSeq := seq, replay := j.cpn.pair.replay ++ [{ seq := seq, msg := m }] }
    { j with cpn := { j.cpn with pair := p }, out := m :: j.out }
  else j

/-- Write one completion (R278, R279): the slot at CQ_TAIL, the phase, the command identifier out of flight, the
interrupt; a RoCEv2 queue's goes by RDMA WRITE WITH IMMEDIATE. A completion whose queue pair has failed is lost and
faults the queue (R287). A use refused or aborted for its key is counted (R384). One of a PCIe command taken before a PCIe reset event is dropped (R334); a forwarded command
answers with FORWARD_DONE (R352). -/
def writeCompletion (j : Jenjor) (r : CmdRef) (st : Status) (v0 v1 : BitVec 64) (len : Option Nat) : Jenjor :=
  let j := if st = .keyWithdrawn then j.count blkDOM 0x800 else j
  match r.tag with
  | some t => j.sendCpn 0x08 t st.code.toNat v0.toNat (leBytes 8 v1.toNat)
  | none =>
  match j.queue? r.q with
  | none => j
  | some q =>
    let bytes := completionBytes v0 v1 r.cid q.sqHead q.num st.code len.isSome q.phase (len.getD 0)
      ((j.time - r.t0) / 1000)
    let last := decide (q.cqDepth ≤ q.cqTail + 1)
    if !q.roce && r.gen != j.lnk.resets then
      (j.mapQueue q.num fun x => if x.orphan then { x with inflight := x.inflight.erase r.cid } else x).record 5 blkLNK q.num
        0xFFFF 0 st.code 0
    else
      let j := j.mapQueue q.num fun x =>
        { x with inflight := x.inflight.erase r.cid, cqTail := if last then 0 else x.cqTail + 1,
                 phase := if last then !x.phase else x.phase }
      if q.roce && !j.qpAlive q.qpn then (j.queueFault q.num 5).record 5 blkLNK q.num 0xFFFF 0 st.code 0
      else
        if q.roce then
          (j.emit (.rdmaCompletion q.qpn (q.cqBase + 32 * q.cqTail) q.cqRkey (BitVec.ofNat 32 (q.num % 4096)) bytes)).mapQp q.qpn
            fun p => { p with psn := (p.psn + 1) % 2 ^ 24 }
        else
          let j := j.emit (.completion q.num q.cqTail bytes)
          if r.noIrq then j else j.countInterrupt q

/-- A queue whose deletion waits only for its own QUEUE_DELETE commands (R264). -/
def reapable (q : Queue) : Bool :=
  q.deleting && (q.orphan || !q.waiters.isEmpty) && q.inflight.all fun c => q.waiters.any fun w => w.q == q.num && w.cid == c

/-- Release deleted queues whose last completion is written, completing the QUEUE_DELETEs that waited (R264): a queue's
own after every other completion of that queue. -/
def reapQueues : Nat → Jenjor → Jenjor
  | 0, j => j
  | fuel + 1, j =>
    match j.qs.queues.find? reapable with
    | none => j
    | some q =>
      let own := q.waiters.filter fun w => w.q == q.num
      let others := q.waiters.filter fun w => w.q != q.num
      let j := own.foldl (fun j w => j.writeCompletion w .success 0 0 none) j
      let j := { j with qs := { j.qs with queues := j.qs.queues.filter fun x => x.num != q.num } }
      let j := if q.roce then j.mapQp q.qpn fun p => { p with bound := p.bound.filter (· != q.num) } else j
      -- a failed queue pair's number is freed with its last bound queue (R346)
      let j := { j with lnk := { j.lnk with qps := j.lnk.qps.filter fun p => !(p.state == .error && p.bound.isEmpty) } }
      let j := others.foldl (fun j w => j.writeCompletion w .success 0 0 none) j
      reapQueues fuel j

/-- READY clears once a disabled admin queue has no command in flight (R439). -/
def settleAdmin (j : Jenjor) : Jenjor :=
  if !j.qs.aqEnable && j.qs.aqReady && (j.queue? 0).all fun q => q.inflight.isEmpty
  then { j with qs := { j.qs with aqReady := false } } else j

/-- Complete a command: its completion, and what waited for the last completion of its queue. -/
def complete (j : Jenjor) (r : CmdRef) (st : Status) (v0 v1 : BitVec 64) (len : Option Nat) : Jenjor :=
  let j := j.writeCompletion r st v0 v1 len
  settleAdmin (reapQueues (j.qs.queues.length + 1) j)

/-- A command completed with no effect: zero in both values (R270). -/
def refuse (j : Jenjor) (r : CmdRef) (st : Status) : Jenjor := j.complete r st 0 0 none

/-- The oldest fetched descriptor of queue `q`, if it carries the opcode, taken out of the list. -/
def takeFetched (j : Jenjor) (q op : Nat) : Option (Fetched × Jenjor) :=
  match j.qs.fetched.find? fun f => f.ref.q == q with
  | none => none
  | some f =>
    if dField f.d 0 1 = op then
      some (f, { j with qs := { j.qs with fetched := j.qs.fetched.erase f } })
    else none

/-- The module serves as one of a pair in a mode (R351): 1 mirror, 2 standby, 3 cross-check. -/
def pairedIn (j : Jenjor) (mode : Nat) : Bool := j.cpn.pair.pairState == .paired && j.cpn.pair.mode == mode

/-- Generation of the sweep key in force (R383). -/
def sweepGen (j : Jenjor) : Nat := ((j.dom.slots[0]?).map fun s => s.generation).getD 0

/-- The KEY_GEN bit of plates written now (R56, R296). -/
def genBit (j : Jenjor) : Bool := j.sweepGen % 2 == 1

/-- A tenant is bound, or was, and slot 0 is draining or erased: every new use of the sweep key is refused (R384). -/
def keyGone (j : Jenjor) : Bool :=
  (j.dom.tenant == .bound || j.dom.tenant == .suspended) && (j.dom.slots[0]?).any fun s => s.state != .loaded

/-- The module is the secondary of a pair (R351). -/
def secondary (j : Jenjor) : Bool := j.cpn.pair.pairState == .paired && !j.cpn.pair.holder

/-- The holder sends its journal, commits and catalogue commands to the companion: paired, or while it catches up or is
restored (R352, R353, R358, R362). -/
def mirroring (j : Jenjor) : Bool :=
  j.cpn.pair.holder
    && (j.cpn.pair.pairState == .paired || j.cpn.pair.catchingUp || j.cpn.pair.pairState == .restoringSource)

/-- The module takes the journal and commits of the companion (R353, R358, R362). -/
def mirrored (j : Jenjor) : Bool :=
  !j.cpn.pair.holder
    && (j.cpn.pair.pairState == .paired || j.cpn.pair.catchingUp || j.cpn.pair.pairState == .restoringTarget)

/-- Read-only under the lease (R356). -/
def readOnlyNow (j : Jenjor) : Bool := j.cpn.pair.readOnly

/-- Queue numbers, beyond those of queues, of commands that the companion forwards to the primary, and of the primary's own
that the secondary repeats (R352). -/
def forwardQueue : Nat := 4096

def replicaQueue : Nat := 4097

/-- Forward a descriptor to the primary, its completion to follow FORWARD_DONE (R352). -/
def forwardCmd (j : Jenjor) (f : Fetched) (op : List Byte) : Jenjor :=
  let t := j.cpn.pair.nextTag
  let p : PairData := { j.cpn.pair with forwards := j.cpn.pair.forwards ++ [(t, f)], nextTag := t + 1 }
  sendCpn { j with cpn := { j.cpn with pair := p } } 0x07 t 0 0 (leBytes 64 f.d.toNat ++ op)

/-- The firmware record that runs, or is to run. -/
def fwRec (j : Jenjor) (b : Bool) : FwRecord := if b then j.alm.fwB else j.alm.fwA

/-- The arithmetic revision of the running firmware image (R121); 1 while no image is held. -/
def arithRev (j : Jenjor) : Nat :=
  let r := j.fwRec j.alm.running
  if r.present then fwArith r else 1

/-- Next free value index. -/
def free (j : Jenjor) : Nat × Jenjor := (j.freeIdx, { j with freeIdx := j.freeIdx + 1 })

end Jenjor

end Sys2Proof.Machine
end

