-- ==== Sys2Proof/Machine/Descriptors.lean ====
section
/-! DEFINITION. Sys2Proof/Machine/Descriptors.lean: the layouts of the descriptors (R263, R264, R269, R271 to R277,
R363), the stage-1 checks at fetch (R270), and the choice of the queue to fetch from (R267, R268). -/

namespace Sys2Proof.Machine

/-- Queue kinds that accept an opcode (R260): 1 query, 2 write, 3 admin, 5 tile; a delivery queue accepts none.
Empty: the opcode is reserved. -/
def kindsOf (op : Nat) : List Nat :=
  if op = 0x10 ∨ op = 0x11 then [1]
  else if 0x20 ≤ op ∧ op ≤ 0x25 then [2]
  else if 0x30 ≤ op ∧ op ≤ 0x33 then [5]
  else if op = 0x50 then [3, 5]
  else if 0x40 ≤ op ∧ op ≤ 0x54 then [3]
  else if 0x60 ≤ op ∧ op ≤ 0x63 then [1]
  else []

/-- Opcodes whose header names a collection at 0x04 (R269). -/
def namesCollection (op : Nat) : Bool :=
  [0x10, 0x11, 0x20, 0x21, 0x22, 0x23, 0x24, 0x40, 0x41, 0x47, 0x4E, 0x4F].contains op

/-- A field of `n` whole bytes at offset `off`, as (first bit, bits). -/
def wholeBytes (off n : Nat) : Nat × Nat := (8 * off, 8 * n)

/-- The low `w` bits of the field at offset `off`. -/
def lowBits (off w : Nat) : Nat × Nat := (8 * off, w)

/-- "op": operand address and length (R277). -/
def opFields : List (Nat × Nat) := [wholeBytes 0x08 8, wholeBytes 0x10 4]

/-- The fields of each opcode's layout past the common header. -/
def bodyFields (op : Nat) : List (Nat × Nat) :=
  if op = 0x10 then
    opFields ++ [wholeBytes 0x14 4, wholeBytes 0x18 8, wholeBytes 0x20 4, lowBits 0x24 11, lowBits 0x26 11,
      lowBits 0x28 48, wholeBytes 0x30 4, lowBits 0x34 8, wholeBytes 0x3A 1, wholeBytes 0x3B 1, lowBits 0x3C 12]
  else if op = 0x11 then
    opFields ++ [wholeBytes 0x14 4, wholeBytes 0x18 8, wholeBytes 0x20 4, lowBits 0x24 11, lowBits 0x26 11,
      lowBits 0x28 48, wholeBytes 0x30 4, lowBits 0x34 8, lowBits 0x36 3, wholeBytes 0x38 2, lowBits 0x3C 12]
  else if op = 0x20 ∨ op = 0x21 then
    [wholeBytes 0x08 8, wholeBytes 0x10 8, wholeBytes 0x18 4, wholeBytes 0x1C 1, lowBits 0x1D 2, wholeBytes 0x1E 2,
      wholeBytes 0x20 8, wholeBytes 0x28 4, wholeBytes 0x2C 4, wholeBytes 0x30 2, wholeBytes 0x32 2]
  else if op = 0x22 then [wholeBytes 0x08 8, lowBits 0x1D 1]
  else if op = 0x23 then [wholeBytes 0x10 8, wholeBytes 0x18 4, lowBits 0x1D 1, wholeBytes 0x34 2, wholeBytes 0x36 1]
  else if op = 0x24 then [lowBits 0x1D 1]
  else if op = 0x30 ∨ op = 0x31 then
    [wholeBytes 0x08 8, wholeBytes 0x10 4, lowBits 0x14 28, wholeBytes 0x18 1, wholeBytes 0x19 1, wholeBytes 0x20 4]
  else if op = 0x32 ∨ op = 0x33 then [wholeBytes 0x10 4, lowBits 0x14 28, wholeBytes 0x18 1, wholeBytes 0x19 1]
  else if op = 0x40 then
    opFields ++ [wholeBytes 0x14 1, wholeBytes 0x15 1, wholeBytes 0x16 2, wholeBytes 0x18 1, wholeBytes 0x19 1,
      wholeBytes 0x1A 2, wholeBytes 0x1C 1, wholeBytes 0x1D 1, wholeBytes 0x1E 1, wholeBytes 0x20 4, wholeBytes 0x28 8,
      wholeBytes 0x30 8, wholeBytes 0x38 8]
  else if op = 0x42 then opFields ++ [wholeBytes 0x14 1, wholeBytes 0x18 8]
  else if op = 0x43 ∨ op = 0x45 then [wholeBytes 0x08 4]
  else if op = 0x44 then opFields ++ [wholeBytes 0x14 4, wholeBytes 0x18 8]
  else if op = 0x46 then [wholeBytes 0x08 4, wholeBytes 0x0C 1]
  else if op = 0x47 then [wholeBytes 0x08 1]
  else if op = 0x48 then
    opFields ++ [wholeBytes 0x14 1, wholeBytes 0x15 1, wholeBytes 0x16 1, wholeBytes 0x17 1, wholeBytes 0x18 1,
      wholeBytes 0x19 1, lowBits 0x1A 6, (8 * 0x1A + 7, 1), wholeBytes 0x1C 2]
  else if op = 0x49 then opFields ++ [wholeBytes 0x14 1]
  else if op = 0x4A ∨ op = 0x4B then [wholeBytes 0x14 1]
  else if op = 0x4C then [wholeBytes 0x08 4, wholeBytes 0x0C 4, lowBits 0x10 6, wholeBytes 0x12 2, wholeBytes 0x14 4]
  else if op = 0x4D then [lowBits 0x08 3]
  else if op = 0x4E then opFields ++ [wholeBytes 0x14 1, wholeBytes 0x18 4, wholeBytes 0x20 8, wholeBytes 0x28 4]
  else if op = 0x4F then opFields ++ [wholeBytes 0x14 1]
  else if op = 0x50 then
    opFields ++ [wholeBytes 0x14 4, wholeBytes 0x18 1, wholeBytes 0x19 1, wholeBytes 0x1A 2, wholeBytes 0x20 8,
      wholeBytes 0x28 4]
  else if op = 0x51 then
    [wholeBytes 0x08 8, wholeBytes 0x10 8, lowBits 0x18 12, wholeBytes 0x1A 1, wholeBytes 0x1B 1, wholeBytes 0x1C 2,
      wholeBytes 0x1E 2, lowBits 0x20 11, lowBits 0x22 3, wholeBytes 0x23 1, wholeBytes 0x24 2, wholeBytes 0x26 2,
      lowBits 0x28 24, wholeBytes 0x2C 4]
  else if op = 0x52 then [lowBits 0x08 12]
  else if op = 0x53 then opFields
  else if op = 0x54 then [wholeBytes 0x08 1]
  else if op = 0x60 then [lowBits 0x08 12, wholeBytes 0x0A 1, wholeBytes 0x0B 1, wholeBytes 0x10 16]
  else if op = 0x61 then [lowBits 0x08 6, wholeBytes 0x0A 2, wholeBytes 0x0C 2, wholeBytes 0x0E 2, wholeBytes 0x10 1]
  else if op = 0x62 then [lowBits 0x08 6]
  else if op = 0x63 then
    [lowBits 0x08 6, wholeBytes 0x09 1, wholeBytes 0x0A 2, wholeBytes 0x0C 2, wholeBytes 0x10 8, wholeBytes 0x18 4,
      wholeBytes 0x1C 4, wholeBytes 0x20 4, lowBits 0x24 12]
  else []

/-- Every field of an opcode's layout, the common header included (R269). -/
def layout (op : Nat) : List (Nat × Nat) :=
  [wholeBytes 0x00 1, lowBits 0x01 1, wholeBytes 0x02 2]
    ++ (if namesCollection op then [wholeBytes 0x04 2] else []) ++ bodyFields op

/-- The bits that a layout names. -/
def maskOf (fs : List (Nat × Nat)) : Desc :=
  fs.foldl (fun m f => m ||| (BitVec.ofNat 512 ((2 ^ f.2 - 1) * 2 ^ f.1))) 0

/-- A reserved field of the descriptor is nonzero (R5, R269). -/
def reservedNonzero (d : Desc) : Bool := d &&& ~~~(maskOf (layout (dField d 0 1))) != 0

/-- Code fields of an opcode that the table lists in full: (offset, listed codes). The kind and transport of
QUEUE_CREATE are checked at stage 2 instead (R263, R270). -/
def codeFields (op : Nat) : List (Nat × List Nat) :=
  if op = 0x10 then [(0x3B, [1, 2, 3, 4])]
  else if op = 0x20 ∨ op = 0x21 then [(0x1C, [1, 2, 3, 4])]
  else if op = 0x23 then [(0x36, [1, 2])]
  else if op = 0x40 then
    [(0x14, [1, 2, 3, 4, 5, 6, 7, 8]), (0x15, [1, 2, 3]), (0x18, [1, 2, 3, 4]), (0x19, [0, 1]), (0x1C, [0, 1, 2]),
      (0x1D, [0, 7, 8])]
  else if op = 0x42 then [(0x14, [4, 8, 9])]
  else if op = 0x46 then [(0x0C, [1, 2, 3])]
  else if op = 0x47 then [(0x08, [0, 1])]
  else if op = 0x48 then [(0x15, [0, 1])]
  else if op = 0x4E ∨ op = 0x4F then [(0x14, [1, 2])]
  else if op = 0x50 then [(0x18, [1, 2, 3, 4]), (0x19, [1, 2, 3])]
  else if op = 0x54 then [(0x08, [0, 1])]
  else if op = 0x60 then [(0x0B, [4, 6])]
  else if op = 0x61 then [(0x10, [1, 2])]
  else []

/-- A field of the descriptor holds a reserved code (R270 stage 1 step 3, R272). -/
def reservedCode (d : Desc) : Bool :=
  let op := dField d 0 1
  (codeFields op).any (fun c => !(c.2.contains (dField d c.1 1)))
    || ((op = 0x10 || op = 0x11) && (dField d 0x34 1 / 4 % 4 == 3 || 2 ≤ dField d 0x34 1 % 4))

/-- A query, write or tile command, on a queue of this kind (R260): not a shard-list command, and ATOMIC only where a tile
queue carries it. -/
def needsTenant (kind op : Nat) : Bool := kindsOf op = [2] || kindsOf op = [5] || op = 0x10 || op = 0x11 || (op = 0x50 && kind = 5)

/-- Stage 1 of R270: the first check that fails. `inflight` are the queue's command identifiers before this one. A suspended module
answers query, write and tile commands with KEY_WITHDRAWN (R369). -/
def stage1 (kind : Nat) (inflight : List (BitVec 16)) (tenant : Tenancy) (d : Desc) : Option Status :=
  let op := dField d 0 1
  if kindsOf op = [] then some .opcodeInvalid
  else if !(kindsOf op).contains kind then some .commandNotAllowed
  else if reservedNonzero d || reservedCode d then some .descriptorInvalid
  else if inflight.contains (BitVec.ofNat 16 (dField d 2 2)) then some .duplicateCommandId
  else if tenant = .scrubbing then some .scrubInProgress
  else if needsTenant kind op then
    match tenant with
    | .bound => none
    | .suspended => some .keyWithdrawn
    | _ => some .noTenant
  else none

namespace Jenjor

/-- Descriptors between head and tail (R265: an SQ_TAIL equal to the head is an empty SQ). -/
def announced (q : Queue) : Nat :=
  if q.sqDepth = 0 then 0 else (q.sqTail + q.sqDepth - q.sqHead) % q.sqDepth

/-- Completions written and not yet consumed. -/
def unconsumed (q : Queue) : Nat :=
  if q.cqDepth = 0 then 0 else (q.cqTail + q.cqDepth - q.cqHead) % q.cqDepth

/-- Bytes in the journal buffer (R318). -/
def bufferBytes (j : Jenjor) : Nat :=
  (j.wr.journal.filter fun e => j.wr.buffer.contains e.jr.seq).foldl (fun n e => n + e.jr.bytes) 0

/-- Write descriptors that may be fetched now: both token buckets hold something, beyond what is fetched and not yet
accepted; the journal region is not stopped and the journal buffer is not full (R214, R318). -/
def writeRoom (j : Jenjor) : Nat :=
  if j.wr.stopped || j.wr.byteTokens = 0 || 33554432 ≤ j.bufferBytes || j.vlt.failed then 0
  else j.wr.tokens - (j.qs.fetched.filter fun f => kindsOf (dField f.d 0 1) == [2]).length

/-- How many descriptors one read of this queue takes (R267, R19, R262): none before the end of start-up step 6 (R406),
none from a query queue of a standby module that is not the primary (R351, R357). -/
def fetchCount (j : Jenjor) (q : Queue) : Nat :=
  if q.fault != 0 || q.deleting || j.isl.whole || (q.num == 0 && !(j.qs.aqEnable && j.qs.aqReady))
      || !(j.alm.step == 7 || j.alm.step == 8) || j.isl.power == .flushing
      || (q.kind == 1 && j.cpn.pair.mode == 2 && !j.cpn.pair.holder) then 0
  else
    let credit := q.cqDepth - 1 - unconsumed q - q.inflight.length
    let room := if q.kind = 1 then 16384 - j.contextsUsed else 4096 - j.slotsUsed
    let room := if q.kind = 2 then min room j.writeRoom else room
    min (min 32 (announced q)) (min credit room)

/-- Of queues equal in priority, the one whose turn it is: the lowest number above the last served, else the lowest. -/
def turn (last : Option Nat) (qs : List Queue) : Option Queue :=
  match qs.filter fun q => last.all fun n => n < q.num with
  | q :: rest => some (rest.foldl (fun b x => if x.num < b.num then x else b) q)
  | [] =>
    match qs with
    | [] => none
    | q :: rest => some (rest.foldl (fun b x => if x.num < b.num then x else b) q)

/-- The queue to fetch from (R268): admin queues first, then by priority, then in turn. -/
def arbitrate (j : Jenjor) : Option Queue :=
  let ready := j.qs.queues.filter fun q => 0 < j.fetchCount q
  let admin := ready.filter fun q => q.kind == 3
  let pool := if admin.isEmpty then ready else admin
  let top := pool.foldl (fun p q => max p q.priority) 0
  turn ((if admin.isEmpty then j.qs.lastServed else j.qs.lastAdmin).lookup top) (pool.filter fun q => q.priority == top)

/-- Queue `q` is the one served last at its priority (R268). -/
def noteServed (j : Jenjor) (q : Queue) : Jenjor :=
  let note := fun (l : List (Nat × Nat)) => (q.priority, q.num) :: l.filter fun x => x.1 != q.priority
  if q.kind = 3 then { j with qs := { j.qs with lastAdmin := note j.qs.lastAdmin } }
  else { j with qs := { j.qs with lastServed := note j.qs.lastServed } }

/-- One descriptor of a read: in flight from here; refused at stage 1, or kept for its command. The read has moved the SQ
head past all that it fetched (R267, R278). -/
def fetchOne (j : Jenjor) (qn : Nat) (d : Desc) : Jenjor :=
  match j.queue? qn with
  | none => j
  | some q =>
    let cid := BitVec.ofNat 16 (dField d 2 2)
    let r : CmdRef := { q := qn, cid := cid,
                        noIrq := dField d 1 1 % 2 == 1, t0 := j.time,
                        gen := j.lnk.resets, tag := none }
    let bad := stage1 q.kind q.inflight j.dom.tenant d
    let j := j.mapQueue qn fun x => { x with inflight := x.inflight ++ [cid] }
    match bad with
    | some st => j.refuse r st
    | none =>
      let j := { j with qs := { j.qs with fetched := j.qs.fetched ++ [{ ref := r, d := d }] } }
      -- a QUEUE_DELETE stops its queue's fetches from the cycle in which it is fetched (R264)
      if dField d 0 1 = 0x52 ∧ dField d 8 2 ≠ 0 then j.mapQueue (dField d 8 2) fun x => { x with deleting := true } else j

/-- The descriptors in the module-side ring of a RoCEv2 queue, from its SQ head (R266). -/
def ringDescs (rmem : List Host.Cell) (q : Queue) (n : Nat) : List Desc :=
  (List.range n).map fun i =>
    BitVec.ofNat 512 (leNat (Memory.readBytes rmem (q.ringAddr + ((q.sqHead + i) % q.sqDepth) * 64) 64))

/-- A read of queue `q`: its SQ head moves past the descriptors (R267). -/
def moveHead (j : Jenjor) (q n : Nat) : Jenjor :=
  j.mapQueue q fun x => { x with sqHead := if x.sqDepth ≤ x.sqHead + n then x.sqHead + n - x.sqDepth else x.sqHead + n }

end Jenjor

end Sys2Proof.Machine
end

