-- ==== Sys2Proof/Machine/Operands.lean ====
section
/-! DEFINITION. Sys2Proof/Machine/Operands.lean: the element formats and their arithmetic. A floating value is held
exactly as a signed dyadic number; every operation computes exactly and rounds once, to nearest, ties to even (R54,
R68, R165). No value is flushed. -/

namespace Sys2Proof.Machine

/-- A floating value: (-1)^neg · m · 2^e, an infinity, or NaN. A zero keeps its sign. -/
inductive Fp where
  | nan
  | inf (neg : Bool)
  | fin (neg : Bool) (m : Nat) (e : Int)
  deriving DecidableEq, Repr

/-- A binary format: bits of significand with the hidden one, weight of the least subnormal bit, field widths, and the
codes of +∞ or of the largest finite value where the format saturates. -/
structure FpFmt where
  width : Nat
  prec : Nat
  emin : Int
  inf : Nat
  saturates : Bool
  nan : Nat
  deriving DecidableEq, Repr

def fmtF32 : FpFmt := { width := 32, prec := 24, emin := -149, inf := 0x7F800000, saturates := false, nan := 0x7FC00000 }
def fmtBF16 : FpFmt := { width := 16, prec := 8, emin := -133, inf := 0x7F80, saturates := false, nan := 0x7FC0 }
def fmtFP16 : FpFmt := { width := 16, prec := 11, emin := -24, inf := 0x7C00, saturates := false, nan := 0x7E00 }
def fmtE5M2 : FpFmt := { width := 8, prec := 3, emin := -16, inf := 0x7C, saturates := false, nan := 0x7E }
/-- E4M3 has no infinity: 0x7E is its largest finite code and 0x7F its NaN (R54, R68). -/
def fmtE4M3 : FpFmt := { width := 8, prec := 4, emin := -9, inf := 0x7F, saturates := true, nan := 0x7F }

/-- Decode a code of a format, exactly. -/
def Fp.ofBits (f : FpFmt) (b : Nat) : Fp :=
  let neg := b / 2 ^ (f.width - 1) % 2 == 1
  let mag := b % 2 ^ (f.width - 1)
  if f.inf < mag then .nan
  else if mag = f.inf then (if f.saturates then .nan else .inf neg)
  else
    let e := mag / 2 ^ (f.prec - 1)
    let frac := mag % 2 ^ (f.prec - 1)
    if e = 0 then .fin neg frac f.emin else .fin neg (frac + 2 ^ (f.prec - 1)) (f.emin + (e - 1 : Nat))

/-- Magnitude code of m · 2^e rounded to nearest even, before the range check. -/
def roundMag (f : FpFmt) (m : Nat) (e : Int) : Nat :=
  if m = 0 then 0
  else
    let u : Int := max (Nat.log2 m + e - (f.prec - 1 : Nat)) f.emin
    let q : Nat :=
      if u ≤ e then m <<< (e - u).toNat
      else
        let sh := (u - e).toNat
        let q := m >>> sh
        let r := m % 2 ^ sh
        let half := 2 ^ (sh - 1)
        if half < r ∨ (r = half ∧ q % 2 = 1) then q + 1 else q
    if q < 2 ^ (f.prec - 1) then q else (u - f.emin).toNat * 2 ^ (f.prec - 1) + q

/-- Encode a value in a format, rounding once. -/
def Fp.toBits (f : FpFmt) : Fp → Nat
  | .nan => f.nan
  | .inf neg => (if neg then 2 ^ (f.width - 1) else 0) + (if f.saturates then f.inf - 1 else f.inf)
  | .fin neg m e =>
    (if neg then 2 ^ (f.width - 1) else 0)
      + (let r := roundMag f m e
         if f.inf ≤ r then (if f.saturates then f.inf - 1 else f.inf) else r)

/-- Round to a format and read back. -/
def Fp.round (f : FpFmt) (x : Fp) : Fp := Fp.ofBits f (x.toBits f)

def Fp.r32 (x : Fp) : Fp := x.round fmtF32

def Fp.ofF32 (b : F32) : Fp := Fp.ofBits fmtF32 b.toNat

/-- The FP32 word of a value. A NaN's sign and payload are open (IEEE 754): the bits of `Config.nanBits` outside the
exponent and quiet bit. -/
def Fp.toF32 : Fp → F32
  | .nan => 0x7FC00000#32 ||| (Config.nanBits &&& 0x803FFFFF#32)
  | x => BitVec.ofNat 32 (x.toBits fmtF32)

/-- The 16-bit word of a value in BF16 or FP16, with the open bits of a NaN as `Fp.toF32` has them. -/
def Fp.toWord16 (f : FpFmt) : Fp → BitVec 16
  | .nan => BitVec.ofNat 16 f.nan ||| (Config.nanBits.extractLsb' 16 16 &&& (0x8000#16 + BitVec.ofNat 16 (2 ^ (f.prec - 2) - 1)))
  | x => BitVec.ofNat 16 (x.toBits f)

def Fp.zero : Fp := .fin false 0 0
def Fp.negZero : Fp := .fin true 0 0
def Fp.one : Fp := .fin false 1 0
def Fp.ofNat (n : Nat) : Fp := .fin false n 0
def Fp.ofInt (i : Int) : Fp := .fin (decide (i < 0)) i.natAbs 0

def Fp.isNaN : Fp → Bool
  | .nan => true
  | _ => false

def Fp.isZero : Fp → Bool
  | .fin _ m _ => m == 0
  | _ => false

def Fp.isFinite : Fp → Bool
  | .fin _ _ _ => true
  | _ => false

def Fp.isNeg : Fp → Bool
  | .nan => false
  | .inf n => n
  | .fin n _ _ => n

def Fp.neg : Fp → Fp
  | .nan => .nan
  | .inf n => .inf (!n)
  | .fin n m e => .fin (!n) m e

/-- Signed integer mantissa at exponent `e0 ≤ e`. -/
def signedAt (neg : Bool) (m : Nat) (e e0 : Int) : Int :=
  let v : Int := (m <<< (e - e0).toNat : Nat)
  if neg then -v else v

/-- Exact sum. An exact zero sum is +0 unless both operands are negative zero (IEEE 754, round to nearest). -/
def Fp.add : Fp → Fp → Fp
  | .nan, _ => .nan
  | _, .nan => .nan
  | .inf a, .inf b => if a = b then .inf a else .nan
  | .inf a, _ => .inf a
  | _, .inf b => .inf b
  | .fin na ma ea, .fin nb mb eb =>
    let e0 := min ea eb
    let s := signedAt na ma ea e0 + signedAt nb mb eb e0
    if s = 0 then .fin (na && nb) 0 0 else .fin (decide (s < 0)) s.natAbs e0

def Fp.sub (a b : Fp) : Fp := a.add b.neg

/-- Exact product. -/
def Fp.mul : Fp → Fp → Fp
  | .nan, _ => .nan
  | _, .nan => .nan
  | .inf a, .inf b => .inf (a != b)
  | .inf a, .fin nb mb _ => if mb = 0 then .nan else .inf (a != nb)
  | .fin na ma _, .inf b => if ma = 0 then .nan else .inf (na != b)
  | .fin na ma ea, .fin nb mb eb => .fin (na != nb) (ma * mb) (ea + eb)

/-- Quotient to 60 bits beyond any format here, the remainder kept as a sticky bit, so that one rounding of the result
is the rounding of the exact quotient. -/
def Fp.div : Fp → Fp → Fp
  | .nan, _ => .nan
  | _, .nan => .nan
  | .inf _, .inf _ => .nan
  | .inf a, .fin nb _ _ => .inf (a != nb)
  | .fin na _ _, .inf b => .fin (na != b) 0 0
  | .fin na ma ea, .fin nb mb eb =>
    if mb = 0 then (if ma = 0 then .nan else .inf (na != nb))
    else if ma = 0 then .fin (na != nb) 0 0
    else
      let sh := 64 + Nat.log2 mb
      let n := ma <<< sh
      .fin (na != nb) (2 * (n / mb) + (if n % mb = 0 then 0 else 1)) (ea - eb - sh - 1)

/-- Integer square root by bits, from bit `k` down. -/
def isqrtBits (n : Nat) : Nat → Nat → Nat
  | 0, r => r
  | k + 1, r =>
    let c := r + 2 ^ k
    isqrtBits n k (if c * c ≤ n then c else r)

def isqrt (n : Nat) : Nat := isqrtBits n (Nat.log2 n / 2 + 1) 0

/-- Square root with a sticky bit. The root of −0 is −0 and of any other negative value NaN. -/
def Fp.sqrt : Fp → Fp
  | .nan => .nan
  | .inf n => if n then .nan else .inf false
  | .fin n m e =>
    if m = 0 then .fin n 0 0
    else if n then .nan
    else
      let sh : Nat := 128 + (if (e - 128) % 2 = 0 then 0 else 1)
      let v := m <<< sh
      let r := isqrt v
      .fin false (2 * r + (if r * r = v then 0 else 1)) ((e - sh) / 2 - 1)

/-- Ordering of two values; none when either is NaN. −0 and +0 are equal. -/
def Fp.cmp : Fp → Fp → Option Ordering
  | .nan, _ => none
  | _, .nan => none
  | .inf a, .inf b => some (if a = b then .eq else if a then .lt else .gt)
  | .inf a, _ => some (if a then .lt else .gt)
  | _, .inf b => some (if b then .gt else .lt)
  | .fin na ma ea, .fin nb mb eb =>
    let e0 := min ea eb
    some (compare (signedAt na ma ea e0) (signedAt nb mb eb e0))

def Fp.lt (a b : Fp) : Bool := a.cmp b == some .lt

/-- FP32 operations on words. -/
def f32Add (a b : F32) : F32 := ((Fp.ofF32 a).add (Fp.ofF32 b)).toF32
def f32Sub (a b : F32) : F32 := ((Fp.ofF32 a).sub (Fp.ofF32 b)).toF32
def f32Mul (a b : F32) : F32 := ((Fp.ofF32 a).mul (Fp.ofF32 b)).toF32
def f32Div (a b : F32) : F32 := ((Fp.ofF32 a).div (Fp.ofF32 b)).toF32
def f32Fma (a b c : F32) : F32 := (((Fp.ofF32 a).mul (Fp.ofF32 b)).add (Fp.ofF32 c)).toF32
def f32Sqrt (a : F32) : F32 := (Fp.ofF32 a).sqrt.toF32
def f32IsNaN (a : F32) : Bool := (Fp.ofF32 a).isNaN
def f32IsFinite (a : F32) : Bool := (Fp.ofF32 a).isFinite
def f32Neg (a : F32) : F32 := a ^^^ 0x80000000#32

/-- A positive normal FP32 value. -/
def f32PosNormal (a : F32) : Bool := 0x00800000 ≤ a.toNat && a.toNat < 0x7F800000

/-- Nearest integer to m · 2^e, ties to even. -/
def roundInt (neg : Bool) (m : Nat) (e : Int) : Int :=
  let q : Nat :=
    if 0 ≤ e then m <<< e.toNat
    else
      let sh := (-e).toNat
      let q := m >>> sh
      let r := m % 2 ^ sh
      let half := 2 ^ (sh - 1)
      if half < r ∨ (r = half ∧ q % 2 = 1) then q + 1 else q
  if neg then -(q : Int) else q

/-- A value rounded to an integer and clamped; infinities clamp, NaN has none (R68, R107). -/
def Fp.toIntClamped (lo hi : Int) : Fp → Option Int
  | .nan => none
  | .inf n => some (if n then lo else hi)
  | .fin n m e => some (max lo (min hi (roundInt n m e)))

/-! ### Element formats (R54, R57, R68) -/

def Format.code : Format → Nat
  | .b1 => 1 | .s4 => 2 | .s8 => 3 | .u8 => 4 | .e4m3 => 5 | .e5m2 => 6 | .bf16 => 7 | .fp16 => 8

def Format.ofCode : Nat → Format
  | 1 => .b1 | 2 => .s4 | 3 => .s8 | 4 => .u8 | 5 => .e4m3 | 6 => .e5m2 | 7 => .bf16 | _ => .fp16

def Metric.ofCode : Nat → Metric
  | 1 => .innerProduct | 2 => .l2 | 3 => .cosine | _ => .hamming

def Metric.code : Metric → Nat
  | .innerProduct => 1 | .l2 => 2 | .cosine => 3 | .hamming => 4

def Sidecar.ofCode : Nat → Sidecar
  | 1 => .bare | 2 => .tagged | _ => .full

def Sidecar.code : Sidecar → Nat
  | .bare => 1 | .tagged => 2 | .full => 3

/-- Bits per dimension (R51). -/
def Format.bits : Format → Nat
  | .b1 => 1 | .s4 => 4 | .s8 => 8 | .u8 => 8 | .e4m3 => 8 | .e5m2 => 8 | .bf16 => 16 | .fp16 => 16

def Format.isInteger : Format → Bool
  | .s4 => true | .s8 => true | .u8 => true | _ => false

def Format.isFloat : Format → Bool
  | .e4m3 => true | .e5m2 => true | .bf16 => true | .fp16 => true | _ => false

def Format.fp : Format → FpFmt
  | .e4m3 => fmtE4M3 | .e5m2 => fmtE5M2 | .bf16 => fmtBF16 | _ => fmtFP16

/-- Range of integer codes (R68). -/
def Format.lo : Format → Int
  | .s4 => -8 | .s8 => -128 | _ => 0
def Format.hi : Format → Int
  | .s4 => 7 | .s8 => 127 | _ => 255

/-- A code's value: the integer of an integer format. -/
def codeInt (f : Format) (c : BitVec 16) : Int :=
  match f with
  | .s4 => (c.extractLsb' 0 4).toInt
  | .s8 => (c.extractLsb' 0 8).toInt
  | _ => (c.extractLsb' 0 8).toNat

/-- A code's value in a float format, exact. -/
def codeFp (f : Format) (c : BitVec 16) : Fp := Fp.ofBits f.fp (c.toNat % 2 ^ f.bits)

/-- Code one element on the grid or in the float format (R68); none for NaN in an integer collection. -/
def codeElement (f : Format) (a b x : F32) : Option (BitVec 16) :=
  if f.isInteger then
    ((Fp.ofF32 (f32Div (f32Sub x b) a)).toIntClamped f.lo f.hi).map fun i => BitVec.ofInt 16 i &&& BitVec.ofNat 16 (2 ^ f.bits - 1)
  else some (BitVec.ofNat 16 ((Fp.ofF32 x).toBits f.fp))

/-- Widening of the input formats (R274): 1 FP32, 2 BF16, 3 FP16. -/
def widen (fmt : Nat) (bs : List Byte) : List F32 :=
  if fmt = 1 then wordsOf bs
  else if fmt = 2 then (halvesOf bs).map fun h => h ++ (0#16)
  else (halvesOf bs).map fun h => (Fp.ofBits fmtFP16 h.toNat).toF32

/-- Bytes per element of an input format. -/
def inputBytes (fmt d : Nat) : Nat := if fmt = 1 then 4 * d else if fmt = 4 then d / 8 else 2 * d

/-- Euclidean norm in FP32: products and sums rounded in ascending order, then the root (R55, R106). -/
def norm32 (xs : List F32) : F32 := f32Sqrt (xs.foldl (fun acc x => f32Add acc (f32Mul x x)) 0)

/-- Element of a list of 32-bit words at `i`, +0 beyond the end. -/
def f32At (xs : List F32) (i : Nat) : F32 := xs.getD i 0

end Sys2Proof.Machine
end

