-- ==== Sys2Proof/Machine/Plates.lean ====
section
/-! DEFINITION. Sys2Proof/Machine/Plates.lean: plate geometry and bytes (R50 to R58), validation (R59), header edits
(R60, R63 to R66), visibility (R62). -/

namespace Sys2Proof.Machine

/-! ### Geometry (R51 to R53) -/

/-- Code bytes K of a record. -/
def codeBytes (f : Format) (d : Nat) : Nat := f.bits * d / 8

def Sidecar.bytes : Sidecar → Nat
  | .bare => 16 | .tagged => 24 | .full => 40

/-- Records a plate holds (R42, R51). -/
def plateN (f : Format) (d : Nat) (s : Sidecar) : Nat := min 4096 (258048 / (codeBytes f d + s.bytes))

def Coll.plateN (c : Coll) : Nat := Machine.plateN c.format c.dim c.sidecar

/-- Insert into a rising list of naturals. -/
def insertNat (n : Nat) : List Nat → List Nat
  | [] => [n]
  | m :: ms => if n < m then n :: m :: ms else if n = m then m :: ms else m :: insertNat n ms

/-! ### Visibility and settling -/

/-- R62. -/
def Plate.visible (p : Plate) (slot q : Nat) : Bool :=
  match p.recs[slot]? with
  | none => false
  | some r =>
    r.occupied && (p.settled.contains slot || p.epochBase + r.delta ≤ q)
      && !(p.tomb.contains slot
            && ((p.dlog.find? fun e => e.2 == slot).all fun e => p.epochBase + e.1 ≤ q))

/-- A record that is not deleted. -/
def Plate.liveSlot (p : Plate) (slot : Nat) : Bool := slot < p.recs.length && !p.tomb.contains slot

/-- Settle a plate at oldest rider epoch `o`, in one header edit (R65). -/
def Plate.settle (p : Plate) (o : Nat) : Plate :=
  let now := (List.range p.recs.length).filter fun s =>
    p.settled.contains s || (p.recs[s]?).any fun r => p.epochBase + r.delta ≤ o
  { p with settled := now, dlog := p.dlog.filter fun e => o < p.epochBase + e.1 }

/-- The plate has something to settle. -/
def Plate.unsettled (p : Plate) : Bool := !p.dlog.isEmpty || p.settled.length < p.recs.length

/-- A plate with no record (R56): the empty-set summaries for the fields its class has. -/
def emptyPlate (pid coll num gridGen epochBase : Nat) (keyGen : Bool) (s : Sidecar) : Plate :=
  { pid := pid, coll := coll, num := num, pred := none, gridGen := gridGen, keyGen := keyGen, epochBase := epochBase,
    recs := [], sealed_ := false, tomb := [], settled := [], dlog := [], minDelta := 0xFFFFFFFF, maxDelta := 0,
    tagUnion := 0, tagInter := if s = .bare then 0 else BitVec.allOnes 64,
    min0 := if s = .full then 0xFFFFFFFF else 0, max0 := 0, min1 := if s = .full then 0xFFFFFFFF else 0, max1 := 0,
    dirtyHdr := true, dirtyData := true, source := false, quarantined := false, lost := false, present := true,
    retiring := false }

/-- Widen the summaries by a record (R60). -/
def Plate.widen (p : Plate) (s : Sidecar) (r : Rec) : Plate :=
  { p with minDelta := min p.minDelta r.delta, maxDelta := max p.maxDelta r.delta,
           tagUnion := if s = .bare then 0 else p.tagUnion ||| r.tags,
           tagInter := if s = .bare then 0 else p.tagInter &&& r.tags,
           min0 := if s = .full then min p.min0 r.range0.toNat else 0,
           max0 := if s = .full then max p.max0 r.range0.toNat else 0,
           min1 := if s = .full then min p.min1 r.range1.toNat else 0,
           max1 := if s = .full then max p.max1 r.range1.toNat else 0 }

/-- Append a record and raise the header in one edit; the plate seals when it holds `n` (R56, R66). -/
def Plate.append (p : Plate) (s : Sidecar) (n : Nat) (r : Rec) : Plate :=
  let p := { p with recs := p.recs ++ [r], dirtyHdr := true, dirtyData := true }.widen s r
  { p with sealed_ := decide (n ≤ p.recs.length) }

/-- Insert a delete-log entry in ascending delete epoch, then slot (R63). -/
def insertDlog (e : Nat × Nat) : List (Nat × Nat) → List (Nat × Nat)
  | [] => [e]
  | x :: xs => if e.1 < x.1 ∨ (e.1 = x.1 ∧ e.2 < x.2) then e :: x :: xs else x :: insertDlog e xs

/-- Delete a slot at an epoch, in one header edit (R66). -/
def Plate.delete (p : Plate) (slot epoch : Nat) : Plate :=
  { p with tomb := insertNat slot p.tomb, dlog := insertDlog (epoch - p.epochBase, slot) p.dlog, dirtyHdr := true }

/-- A plate built from records, its summaries recomputed (R60, R225): slots in order, tombstones, settled slots and
delete log as given. -/
def buildPlate (base : Plate) (s : Sidecar) (n : Nat) (recs : List Rec) (tomb settled : List Nat)
    (dlog : List (Nat × Nat)) : Plate :=
  let p := recs.foldl (fun p r => p.append s n r) base
  { p with tomb := tomb, settled := settled, dlog := dlog }

/-! ### Bytes (R52 to R56) -/

/-- Code unit `u` of a record: one byte, or a 16-bit unit (R51, R54). -/
def unitValue (f : Format) (codes : List (BitVec 16)) (u : Nat) : Nat :=
  match f with
  | .b1 => (List.range 8).foldl (fun v i => v + (if (codes.getD (8 * u + i) 0).toNat % 2 = 1 then 2 ^ i else 0)) 0
  | .s4 => (codes.getD (2 * u) 0).toNat % 16 + (codes.getD (2 * u + 1) 0).toNat % 16 * 16
  | .bf16 => (codes.getD u 0).toNat
  | .fp16 => (codes.getD u 0).toNat
  | _ => (codes.getD u 0).toNat % 256

def Format.unitBytes : Format → Nat
  | .bf16 => 2 | .fp16 => 2 | _ => 1

/-- Sidecar bytes (R55). -/
def Rec.sidecarBytes (r : Rec) (s : Sidecar) : List Byte :=
  let bare := leBytes 8 r.key.toNat ++ leBytes 4 r.delta
    ++ leBytes 4 ((if r.occupied then 1 else 0) + (if r.hasPayload then 2 else 0) + (if r.hasRecord then 4 else 0))
  let tagged := bare ++ leBytes 8 r.tags.toNat
  match s with
  | .bare => bare
  | .tagged => tagged
  | .full => tagged ++ leBytes 4 r.range0.toNat ++ leBytes 4 r.range1.toNat ++ leBytes 4 r.norm.toNat
      ++ leBytes 2 r.biasIndex.toNat ++ leBytes 2 0

/-- Byte of the data area at plate offset `o` from 4,096 (R52, R53). -/
def Plate.dataByte (p : Plate) (f : Format) (d : Nat) (s : Sidecar) (o : Nat) : Byte :=
  let k := codeBytes f d
  let r := k + s.bytes
  let n := plateN f d s
  let b := (o - 4096) / (128 * r)
  let w := min 128 (n - 128 * b)
  let off := (o - 4096) - b * 128 * r
  if n ≤ 128 * b then 0
  else if off < k * w then
    let u := f.unitBytes
    let c := off % (w * u) / u
    match p.recs[128 * b + c]? with
    | none => 0
    | some rec => BitVec.ofNat 8 (unitValue f rec.codes (off / (w * u)) / 256 ^ (off % u))
  else if off < r * w then
    let c := (off - k * w) / s.bytes
    match p.recs[128 * b + c]? with
    | none => 0
    | some rec => (rec.sidecarBytes s).getD ((off - k * w) % s.bytes) 0
  else 0

/-- A bitmap of 4,096 bits. -/
def bitmapBytes (slots : List Nat) : List Byte :=
  (List.range 512).map fun i =>
    BitVec.ofNat 8 ((List.range 8).foldl (fun v k => v + (if slots.contains (8 * i + k) then 2 ^ k else 0)) 0)

def Plate.dataBytes (p : Plate) (f : Format) (d : Nat) (s : Sidecar) : List Byte :=
  (List.range 258048).map fun i => p.dataByte f d s (4096 + i)

/-- The data CRC: zero while the plate is open (R58). -/
def Plate.dataCrc (p : Plate) (f : Format) (d : Nat) (s : Sidecar) : BitVec 32 :=
  if p.sealed_ then crc32c (p.dataBytes f d s) else 0

/-- Header bytes 0x000 to 0xFF7 (R56). -/
def Plate.headerBody (p : Plate) (f : Format) (d : Nat) (s : Sidecar) : List Byte :=
  leBytes 4 0x54414C50 ++ leBytes 2 1 ++ leBytes 2 p.coll ++ leBytes 4 p.num
    ++ leBytes 4 (match p.pred with | none => 0 | some n => 2 ^ 20 + n)
    ++ leBytes 1 f.code ++ leBytes 1 s.code ++ leBytes 2 d ++ leBytes 2 p.recs.length ++ leBytes 2 p.dlog.length
    ++ leBytes 4 ((if p.keyGen then 4 else 0) + (if p.sealed_ then 2 else 1)) ++ leBytes 4 p.gridGen
    ++ leBytes 8 p.epochBase ++ leBytes 4 p.minDelta ++ leBytes 4 p.maxDelta
    ++ leBytes 8 p.tagUnion.toNat ++ leBytes 8 p.tagInter.toNat
    ++ leBytes 4 p.min0 ++ leBytes 4 p.max0 ++ leBytes 4 p.min1 ++ leBytes 4 p.max1 ++ leBytes 176 0
    ++ bitmapBytes p.tomb ++ bitmapBytes p.settled
    ++ (List.range 351).flatMap fun i =>
        match p.dlog[i]? with
        | none => leBytes 8 0
        | some e => leBytes 8 (e.1 * 2 ^ 32 + e.2)

def Plate.headerBytes (p : Plate) (f : Format) (d : Nat) (s : Sidecar) : List Byte :=
  let h := p.headerBody f d s ++ leBytes 4 (p.dataCrc f d s).toNat
  h ++ leBytes 4 (crc32c h).toNat

/-- Byte `o` of the plate. -/
def Plate.byteAt (p : Plate) (f : Format) (d : Nat) (s : Sidecar) (o : Nat) : Byte :=
  if o < 4096 then (p.headerBytes f d s).getD o 0 else p.dataByte f d s o

/-! ### Reading a plate image back (R59, R362) -/

def bitmapSlots (bs : List Byte) : List Nat :=
  (List.range 4096).filter fun s => (bs.getD (s / 8) 0).getLsbD (s % 8)

/-- The codes of slot `slot` in an image. -/
def imageCodes (f : Format) (d : Nat) (s : Sidecar) (img : List Byte) (slot : Nat) : List (BitVec 16) :=
  let k := codeBytes f d
  let r := k + s.bytes
  let b := slot / 128
  let w := min 128 (plateN f d s - 128 * b)
  let at_ := fun u => fieldAt img (4096 + b * 128 * r + u * w * f.unitBytes + slot % 128 * f.unitBytes) f.unitBytes
  (List.range d).map fun i =>
    match f with
    | .b1 => BitVec.ofNat 16 (at_ (i / 8) / 2 ^ (i % 8) % 2)
    | .s4 => BitVec.ofNat 16 (at_ (i / 2) / 16 ^ (i % 2) % 16)
    | _ => BitVec.ofNat 16 (at_ i)

/-- A locator entry (R143): the word of the record, and that of the payload. -/
def locatorEntry (r : Rec) : List Byte :=
  leBytes 8 (r.recOff * 2 ^ 24 + r.recLen) ++ leBytes 8 (r.payOff * 2 ^ 24 + r.payLen)

/-- The locator block of a plate in its collection's key directory (R143): 4,096 entries, those past the records zero. -/
def Plate.locatorBlock (p : Plate) : List Byte :=
  (List.range 4096).flatMap fun s =>
    match p.recs[s]? with
    | none => leBytes 16 0
    | some r => locatorEntry r

/-- The record of slot `slot` in an image, its locator entry from the plate's locator block. -/
def imageRec (f : Format) (d : Nat) (s : Sidecar) (img loc : List Byte) (slot : Nat) : Rec :=
  let k := codeBytes f d
  let r := k + s.bytes
  let b := slot / 128
  let w := min 128 (plateN f d s - 128 * b)
  let o := 4096 + b * 128 * r + k * w + slot % 128 * s.bytes
  let full := s == .full
  { occupied := fieldAt img (o + 12) 4 % 2 == 1, key := BitVec.ofNat 64 (fieldAt img o 8), delta := fieldAt img (o + 8) 4,
    hasRecord := fieldAt img (o + 12) 4 / 4 % 2 == 1, hasPayload := fieldAt img (o + 12) 4 / 2 % 2 == 1,
    tags := if s = .bare then 0 else BitVec.ofNat 64 (fieldAt img (o + 16) 8),
    range0 := if full then wordAt img (o + 24) else 0, range1 := if full then wordAt img (o + 28) else 0,
    norm := if full then wordAt img (o + 32) else 0,
    biasIndex := if full then BitVec.ofNat 16 (fieldAt img (o + 36) 2) else 0,
    codes := imageCodes f d s img slot,
    recOff := fieldAt loc (16 * slot) 8 / 2 ^ 24, recLen := fieldAt loc (16 * slot) 8 % 2 ^ 24,
    payOff := fieldAt loc (16 * slot + 8) 8 / 2 ^ 24, payLen := fieldAt loc (16 * slot + 8) 8 % 2 ^ 13 }

/-- The reserved fields of the sidecars of an image's written slots are zero (R55, R59). -/
def sidecarsClean (c : Coll) (img : List Byte) : Bool :=
  (List.range (fieldAt img 0x14 2)).all fun slot =>
    let b := slot / 128
    let w := min 128 (plateN c.format c.dim c.sidecar - 128 * b)
    let k := codeBytes c.format c.dim
    let o := 4096 + b * 128 * (k + c.sidecar.bytes) + k * w + slot % 128 * c.sidecar.bytes
    fieldAt img (o + 12) 4 < 8 && (c.sidecar != .full || fieldAt img (o + 38) 2 == 0)

/-- The reserved bits of an image's live delete-log entries are zero (R56, R59). -/
def deleteLogClean (img : List Byte) : Bool :=
  (List.range (fieldAt img 0x16 2)).all fun i => fieldAt img (0x500 + 8 * i) 4 < 4096

/-- Validation of a plate image (R59): CRCs, mark, version, agreement with the catalogue, reserved fields. An image in which
not exactly one of OPEN and SEALED is set breaks R56 and fails too, which R59 does not list (DESIGN CHOICE, log entry 100). -/
def validImage (c : Coll) (num : Nat) (img : List Byte) : Bool :=
  let st := fieldAt img 0x18 4
  img.length == 262144
    && fieldAt img 0xFFC 4 == (crc32c (bytesAt img 0 0xFFC)).toNat
    && (if st % 4 = 2 then fieldAt img 0xFF8 4 == (crc32c (bytesAt img 4096 258048)).toNat else fieldAt img 0xFF8 4 == 0)
    && fieldAt img 0 4 == 0x54414C50 && fieldAt img 4 2 == 1
    && fieldAt img 6 2 == c.num && fieldAt img 8 4 == num && fieldAt img 0xC 4 < 2 ^ 21
    && fieldAt img 0x10 1 == c.format.code && fieldAt img 0x11 1 == c.sidecar.code && fieldAt img 0x12 2 == c.dim
    && fieldAt img 0x1C 4 == c.gridGen && st < 8 && (st % 4 == 1 || st % 4 == 2)
    && (bytesAt img 0x50 176).all (· == 0) && deleteLogClean img && sidecarsClean c img

/-- The plate of a valid image and its locator block. -/
def plateOfImage (c : Coll) (pid : Nat) (img loc : List Byte) : Plate :=
  let n := fieldAt img 0x14 2
  let pred := fieldAt img 0xC 4
  { pid := pid, coll := c.num, num := fieldAt img 8 4, pred := if pred / 2 ^ 20 = 1 then some (pred % 2 ^ 20) else none,
    gridGen := fieldAt img 0x1C 4, keyGen := fieldAt img 0x18 4 / 4 % 2 == 1, epochBase := fieldAt img 0x20 8,
    recs := (List.range n).map (imageRec c.format c.dim c.sidecar img loc),
    sealed_ := fieldAt img 0x18 4 / 2 % 2 == 1,
    tomb := bitmapSlots (bytesAt img 0x100 512), settled := bitmapSlots (bytesAt img 0x300 512),
    dlog := (List.range (fieldAt img 0x16 2)).map fun i =>
      (fieldAt img (0x500 + 8 * i + 4) 4, fieldAt img (0x500 + 8 * i) 4 % 4096),
    minDelta := fieldAt img 0x28 4, maxDelta := fieldAt img 0x2C 4,
    tagUnion := BitVec.ofNat 64 (fieldAt img 0x30 8), tagInter := BitVec.ofNat 64 (fieldAt img 0x38 8),
    min0 := fieldAt img 0x40 4, max0 := fieldAt img 0x44 4, min1 := fieldAt img 0x48 4, max1 := fieldAt img 0x4C 4,
    dirtyHdr := false, dirtyData := false, source := false, quarantined := false, lost := false, present := true,
    retiring := false }

/-! ### Grids (R67) -/

/-- Whether the grid of a command breaks R67: `a` are the scales, `b` the offsets. `len` is the operand length that the
descriptor states. -/
def gridBad (f : Format) (m : Metric) (d len : Nat) (op : List Byte) : Bool :=
  len != op.length ||
  if f.isInteger then
    let ws := wordsOf op
    let a := ws.take d
    let b := ws.drop d
    op.length != 8 * d || a.any (fun x => !f32PosNormal x) || b.any (fun x => !f32IsFinite x)
      || (m == .l2 && (a.any (fun x => x != f32At a 0) || !f32IsFinite (f32Mul (f32At a 0) (f32At a 0))))
  else op.length != 0

end Sys2Proof.Machine
end

