-- ==== Sys2Proof/Machine/Catalogue.lean ====
section
/-! DEFINITION. Sys2Proof/Machine/Catalogue.lean: the catalogue's shared operations: lookups, object numbers and extents
(R34, R37), addresses (R32, R33), pins and allocation (R243 to R245), catalogue order (R45), fences (R207), and rates and periods
(R77, R80, R94, R97). -/

namespace Sys2Proof.Machine

/-- Smallest number from `n` that is not in `used`; `fuel` at least the length of `used` suffices. -/
def lowestFree (used : List Nat) : Nat → Nat → Nat
  | 0, n => n
  | fuel + 1, n => if used.contains n then lowestFree used fuel (n + 1) else n

/-- The `k` smallest numbers from 1 that are not in `used`. -/
def lowestFreeMany (used : List Nat) : Nat → List Nat
  | 0 => []
  | k + 1 =>
    let n := lowestFree used (used.length + 1) 1
    n :: lowestFreeMany (n :: used) k

/-- The entry of least measure, the first of equals. -/
def argmin {α : Type} (f : α → Nat) : List α → Option α
  | [] => none
  | x :: xs => some (xs.foldl (fun b y => if f y < f b then y else b) x)

def natSum (xs : List Nat) : Nat := xs.foldl (· + ·) 0

/-- Outcome of an allocation (R243). -/
inductive Grant where
  | granted (j : Jenjor)
  | limit
  /-- POOL_BUSY, or a wait for a victim's switch -/
  | wait (failed : Bool) (j : Jenjor)

/-- A command waits on a slew's switch: a PLACE or a SET_RESIDENCE (R240, R248). -/
def Slew.commanded (s : Slew) : Bool :=
  match s.cause with
  | .place _ => true
  | .residence _ _ => true
  | _ => false

/-- A slew that a command or a start waits on (R238). -/
def Slew.awaited (s : Slew) : Bool :=
  match s.cause with
  | .ringStart _ => true
  | _ => s.commanded

/-- The descriptor of a command whose allocation is parked (R245). -/
def AllocFor.desc : AllocFor → Option Desc
  | .queueCreate f => some f.d
  | .shardList f => some f.d
  | .collectionCreate f _ => some f.d
  | .objectCreate f _ => some f.d
  | .modelLoad f => some f.d
  | .recalibrate f _ => some f.d
  | .slewStart _ => none

namespace Jenjor

/-! ### Lookups -/

def coll? (j : Jenjor) (n : Nat) : Option Coll := j.cat.colls.find? fun c => c.num == n

/-- A collection that is live, that is not deleted in catalogue order (R46). -/
def liveColl? (j : Jenjor) (n : Nat) : Option Coll := j.cat.colls.find? fun c => c.num == n && !c.deleting

def mapCat (j : Jenjor) (f : CatState → CatState) : Jenjor := { j with cat := f j.cat }

def mapColl (j : Jenjor) (n : Nat) (f : Coll → Coll) : Jenjor :=
  { j with cat := { j.cat with colls := updWhere (fun c => c.num == n) f j.cat.colls } }

def plate? (j : Jenjor) (pid : Nat) : Option Plate := j.cat.plates.find? fun p => p.pid == pid

def mapPlate (j : Jenjor) (pid : Nat) (f : Plate → Plate) : Jenjor :=
  { j with cat := { j.cat with plates := updWhere (fun p => p.pid == pid) f j.cat.plates } }

/-- The plates on a collection's current list. -/
def collPlates (j : Jenjor) (n : Nat) : List Plate := j.cat.plates.filter fun p => p.coll == n && !p.retiring

def obj? (j : Jenjor) (n : Nat) : Option Obj := j.cat.objs.find? fun o => o.num == n

def liveObj? (j : Jenjor) (n : Nat) : Option Obj := j.cat.objs.find? fun o => o.num == n && !o.draining

def mapObj (j : Jenjor) (n : Nat) (f : Obj → Obj) : Jenjor :=
  { j with cat := { j.cat with objs := updWhere (fun o => o.num == n) f j.cat.objs } }

def ring? (j : Jenjor) (n : Nat) : Option Ring := j.sw.rings.find? fun r => r.num == n

def mapRing (j : Jenjor) (n : Nat) (f : Ring → Ring) : Jenjor :=
  { j with sw := { j.sw with rings := updWhere (fun r => r.num == n) f j.sw.rings } }

def mapRings (j : Jenjor) (f : Ring → Ring) : Jenjor := { j with sw := { j.sw with rings := j.sw.rings.map f } }

def mapPlates (j : Jenjor) (p : Plate → Bool) (f : Plate → Plate) : Jenjor :=
  { j with cat := { j.cat with plates := updWhere p f j.cat.plates } }

def addPlates (j : Jenjor) (ps : List Plate) : Jenjor :=
  { j with cat := { j.cat with plates := j.cat.plates ++ ps } }

def mapObjs (j : Jenjor) (p : Obj → Bool) (f : Obj → Obj) : Jenjor :=
  { j with cat := { j.cat with objs := updWhere p f j.cat.objs } }

def mapJournal (j : Jenjor) (p : JEntry → Bool) (f : JEntry → JEntry) : Jenjor :=
  { j with wr := { j.wr with journal := updWhere p f j.wr.journal } }

def mapCtxs (j : Jenjor) (p : Ctx → Bool) (f : Ctx → Ctx) : Jenjor :=
  { j with sw := { j.sw with ctxs := updWhere p f j.sw.ctxs } }

def mapClusters (j : Jenjor) (p : Cluster → Bool) (f : Cluster → Cluster) : Jenjor :=
  { j with sw := { j.sw with clusters := updWhere p f j.sw.clusters } }

/-- The ring whose definition lists a collection (R72). -/
def ringOf (j : Jenjor) (coll : Nat) : Option Ring :=
  j.sw.rings.find? fun r => r.defn.any fun d => d.colls.contains coll

def cluster? (j : Jenjor) (c : Nat) : Option Cluster := j.sw.clusters.find? fun x => x.num == c

def mapCluster (j : Jenjor) (c : Nat) (f : Cluster → Cluster) : Jenjor :=
  { j with sw := { j.sw with clusters := updWhere (fun x => x.num == c) f j.sw.clusters } }

def ctx? (j : Jenjor) (id : Nat) : Option Ctx := j.sw.ctxs.find? fun c => c.id == id

def mapCtx (j : Jenjor) (id : Nat) (f : Ctx → Ctx) : Jenjor :=
  { j with sw := { j.sw with ctxs := updWhere (fun c => c.id == id) f j.sw.ctxs } }

/-- Clusters a ring counts as holding: those it uses and those that join it, less those announced to leave. -/
def heldClusters (r : Ring) : List Nat := (r.clusters ++ r.joining).filter fun c => !r.leaving.contains c

/-- Before boarding: waiting for a row, loading, loaded or being reloaded (R81). -/
def unboarded (c : Ctx) : Bool :=
  c.phase == .waiting || c.phase == .loading || c.phase == .loaded || c.phase == .reloading

/-- The ring holds clusters: running or stopping (R73). -/
def holdsClusters (r : Ring) : Bool := r.phase == .running || r.phase == .stopping

/-- A ring whose changes wait for its boundaries: it sweeps, and its list is not empty (R73, R222). -/
def sweeping (r : Ring) : Bool := holdsClusters r && !r.view.isEmpty

/-! ### Epochs -/

/-- A query that has boarded and has not yet alighted (R65, R81). -/
def riding (c : Ctx) : Bool := c.phase == .riding || c.phase == .alighting || c.phase == .merging

/-- The module's own oldest rider epoch (R65); a query of pinned epoch counts from its context entry (R360). -/
def ownFloor (j : Jenjor) : Nat :=
  (j.sw.ctxs.filter fun c => riding c || c.pinned).foldl (fun e c => min e c.epoch) j.wr.epoch

/-- The oldest rider epoch (R65); in cross-check mode the pair floor (R360). -/
def oldestRider (j : Jenjor) : Nat :=
  if j.pairedIn 3 then min j.ownFloor (j.cpn.pair.peerFloor.getD j.ownFloor) else j.ownFloor

/-- Raise an object's heat by 1, saturating, and set its last use (R242, R243). -/
def touch (j : Jenjor) (obj : Nat) : Jenjor :=
  j.mapObj obj fun o => { o with heat := min (o.heat + 1) 0xFFFFFFFF, lastUse := j.time }

/-! ### Catalogue order (R45) -/

def catalogueOps : List Nat := [0x40, 0x41, 0x42, 0x43, 0x46, 0x47, 0x48, 0x49, 0x4A, 0x4B, 0x4C, 0x4D, 0x4F, 0x53]

def isCatalogue (f : Fetched) : Bool := catalogueOps.contains (dField f.d 0 1)

/-- Catalogue commands are carried out one at a time: a PLACE or SET_RESIDENCE whose slew is under way, one whose
allocation waits, a model load under way, or a section reload until it is persisted (R410), holds those behind it. -/
def catalogueWaits (j : Jenjor) : Bool :=
  j.cat.slews.any Slew.commanded || j.coe.models.any (fun m => m.phase == .loading) || j.alm.reloads.any (fun r => !r.persisted)
    || j.alm.reloadsWaiting.any (fun r => r.1.isSome) || j.cat.allocs.any fun a =>
    match a.what with
    | .collectionCreate _ _ => true
    | .objectCreate _ _ => true
    | .modelLoad _ => true
    | .recalibrate _ _ => true
    | _ => false

/-- The oldest fetched descriptor of queue `q` as a catalogue command: only when it is next in catalogue order. -/
def takeCatalogue (j : Jenjor) (q op : Nat) : Option (Fetched × Jenjor) :=
  match j.takeFetched q op with
  | none => none
  | some (f, j') =>
    if j.qs.fetched.find? isCatalogue = some f ∧ !j.catalogueWaits then some (f, j') else none

/-- The oldest fetched descriptor of queue `q` as a query or a write: behind a COLLECTION_DELETE of its collection that was
fetched before it, it waits (R46). -/
def takeData (j : Jenjor) (q op : Nat) : Option (Fetched × Jenjor) :=
  match j.takeFetched q op with
  | none => none
  | some (f, j') =>
    if (j.qs.fetched.takeWhile (· != f)).any fun g => dField g.d 0 1 == 0x41 && dField g.d 4 2 == dField f.d 4 2 then none
    else some (f, j')

/-- A primary sends a catalogue command that it carries out to the secondary as well, so that both hold one catalogue (R352,
DEDUCED, log entry 30). -/
def repeatCmd (j : Jenjor) (f : Fetched) (op : List Byte) : Jenjor :=
  if j.mirroring then j.sendCpn 0x07 0 0 0 (leBytes 64 f.d.toNat ++ op) else j

/-- Carry out a catalogue command in its turn; a secondary forwards it (R352). -/
def catalogueCmd (j : Jenjor) (q code : Nat) (op : List Byte) (body : Jenjor → Fetched → List Byte → Jenjor) : Jenjor :=
  match j.takeCatalogue q code with
  | none => j
  | some (f, j) =>
    if j.secondary && f.ref.q != replicaQueue then j.forwardCmd f op else body (j.repeatCmd f op) f op

/-- The next catalogue sequence number, assigned (R45). -/
def nextSeq (j : Jenjor) : Nat × Jenjor := (j.cat.seq + 1, { j with cat := { j.cat with seq := j.cat.seq + 1 } })

/-- Complete a catalogue command that takes effect: its sequence number in value 0 (R277). -/
def completeCatalogue (j : Jenjor) (r : CmdRef) (v1 : BitVec 64) : Jenjor :=
  let j' := j.nextSeq.2
  j'.complete r .success (BitVec.ofNat 64 j'.cat.seq) v1 none

/-! ### Objects (R34, R36, R37) -/

def mib2 : Nat := 2097152

def roundMib2 (n : Nat) : Nat := ceilDiv n mib2 * mib2

/-- Pool pages of a size. -/
def pagesOf (bytes : Nat) : Nat := ceilDiv bytes mib2

/-- The lowest free extent of a region of `size` among those `used`, each a base and a length. -/
def lowestExtent (used : List (Nat × Nat)) (size ext : Nat) : Option Nat :=
  argmin id ((0 :: used.map fun u => u.1 + u.2).filter fun b =>
    b + ext ≤ size && used.all fun u => b + ext ≤ u.1 || u.1 + u.2 ≤ b)

/-- Extents of the object region in use (R34). -/
def extentsUsed (j : Jenjor) : List (Nat × Nat) :=
  (j.cat.objs.filter fun o => 0 < o.extent).map fun o => (o.base, o.extent)

/-- The lowest free extent of the object region, which is 16 PiB (R32, R34). -/
def freeBase (j : Jenjor) (ext : Nat) : Option Nat := lowestExtent j.extentsUsed (2 ^ 54) ext

/-- Extents of these sizes find room in the region, placed in order (R34). -/
def extentsPlaced : List (Nat × Nat) → List Nat → Bool
  | _, [] => true
  | used, e :: es =>
    match lowestExtent used (2 ^ 54) e with
    | none => false
    | some b => extentsPlaced ((b, e) :: used) es

/-- Object numbers left (R37). -/
def objNumsLeft (j : Jenjor) : Nat := 16777215 - j.cat.objs.length

/-- Add an object: lowest free number, lowest free extent. -/
def addObj (j : Jenjor) (kind coll bytes ext : Nat) (tier : Tier) (pages : Nat) : Nat × Jenjor :=
  let n := lowestFree (j.cat.objs.map fun o => o.num) (j.cat.objs.length + 1) 1
  let o : Obj := { num := n, kind := kind, coll := coll, base := if ext = 0 then 0 else (j.freeBase ext).getD 0, bytes := bytes,
                   extent := ext, tier := tier, lastUse := j.time, heat := 0, keyGen := j.sweepGen, draining := false,
                   pages := pages, dirty := [] }
  (n, { j with cat := { j.cat with objs := j.cat.objs ++ [o] } })

/-- The live object whose extent holds an object-region offset (R33). -/
def objAt (j : Jenjor) (off : Nat) : Option Obj :=
  j.cat.objs.find? fun o => !o.draining && o.base ≤ off && off < o.base + o.extent

/-- What a catalogue address names (R32, R33). -/
inductive Target where
  | invalid
  | plateByte (p : Plate) (off : Nat)
  | objByte (o : Obj) (off : Nat)

def resolve (j : Jenjor) (a : Nat) : Target :=
  if 2 ^ 55 ≤ a then .invalid
  else if a / 2 ^ 54 % 2 = 1 then
    match j.objAt (a % 2 ^ 54) with
    | none => .invalid
    | some o => .objByte o (a % 2 ^ 54)
  else
    match (j.liveColl? (a / 2 ^ 38)).bind fun _ =>
        (j.collPlates (a / 2 ^ 38)).find? fun p => p.num == a / 2 ^ 18 % 2 ^ 20 with
    | none => .invalid
    | some p => .plateByte p (a % 2 ^ 18)

/-! ### The pool (R233, R243 to R245) -/

/-- The plate set's object of a collection in sweep memory. -/
def plateSetTier (j : Jenjor) (c : Coll) : Tier := ((j.obj? c.objPlates).map fun o => o.tier).getD .vault

/-- Bytes that a plate takes in sweep memory: all of it where its set's tier is sweep memory; otherwise all of it while it
is open, and a copy of its header while it has a delete-log entry or an unsettled record (R222, R235). -/
def heldBytes (whole : Bool) (p : Plate) : Nat :=
  if whole || !p.sealed_ then 262144 else if p.unsettled then 4096 else 0

/-- The plates of a collection are read from sweep memory. -/
def sweptHere (j : Jenjor) (c : Coll) : Bool := j.plateSetTier c == .sweep && !c.deep

def plateBytes (j : Jenjor) (c : Coll) (ps : List Plate) : Nat := natSum (ps.map (heldBytes (j.sweptHere c)))

/-- Pool pages of a collection's plates (R233, R235). -/
def plateSetPages (j : Jenjor) (c : Coll) : Nat :=
  ceilDiv (j.plateBytes c (j.cat.plates.filter fun p => p.coll == c.num)) 2097152

/-- Pool pages of staged twins and replacements, in the tier that their plates occupy (R225, R239, R255). -/
def stagedPages (j : Jenjor) : Nat :=
  let pages := fun (n : Nat) (ps : List Plate) => ceilDiv (((j.coll? n).map fun c => j.plateBytes c ps).getD 0) 2097152
  natSum (j.cat.recals.map fun r => pages r.coll r.twins) + natSum (j.cat.replatings.map fun r => pages r.coll r.repl)

def poolUsed (j : Jenjor) : Nat :=
  natSum (j.cat.colls.map j.plateSetPages) + natSum (j.cat.objs.map fun o => o.pages)
    + natSum (j.qs.queues.map fun q => q.pages) + natSum (j.cpn.lists.map fun l => l.pages)
    + natSum ((j.cat.slews.filter fun s => s.started).map fun s => s.pages)
    + j.stagedPages + j.spg.cachePages.length

/-- DEV_POOL_FREE. -/
def poolFree (j : Jenjor) : Nat := 153600 - j.poolUsed

/-- Model slots that name an object as weight package or program image (R171, R244). -/
def usedByModel (j : Jenjor) (obj : Nat) : Bool :=
  j.coe.models.any fun m => m.phase != .empty && (m.obj == obj || m.prog == obj)

/-- Objects that a command in the allocation order names: PLACE, SET_RESIDENCE, RING_START, MODEL_LOAD and RECALIBRATE
(R244). -/
def namedObjects (j : Jenjor) (d : Desc) : List Nat :=
  let plates := fun (n : Nat) => ((j.coll? n).map fun c => c.objPlates).toList
  match dField d 0 1 with
  | 0x46 => [dField d 0x08 4]
  | 0x47 => plates (dField d 0x04 2)
  | 0x4A => (((j.ring? (dField d 0x14 1)).bind fun r => r.defn).map fun d => d.colls.flatMap plates).getD []
  | 0x4C => [dField d 0x08 4, dField d 0x0C 4]
  | 0x4F => (j.cat.objs.filter fun o => o.coll == dField d 0x04 2).map fun o => o.num
  | _ => []

/-- Objects that commands name from their fetch until their allocation completes (R244). -/
def allocating (j : Jenjor) : List Nat :=
  let waiting : List Desc := j.cat.allocs.filterMap fun (a : Alloc) => a.what.desc
  (j.qs.fetched.map (fun (f : Fetched) => f.d) ++ waiting).flatMap j.namedObjects

/-- Pinned (R244). `named` are the objects that the allocating command names. -/
def pinned (j : Jenjor) (named : List Nat) (o : Obj) : Bool :=
  named.contains o.num || j.allocating.contains o.num
    || j.cat.slews.any (fun s => s.obj == o.num && (s.started || s.awaited))
    || (o.kind == 1 && ((j.ringOf o.coll).any (fun r => r.phase != .stopped)
          || j.cat.replatings.any (fun r => r.coll == o.coll) || j.cat.recals.any (fun r => r.coll == o.coll)
          || j.cat.calib.any (fun c => c.coll == o.coll)))
    || j.usedByModel o.num
    || (o.kind == 5 && (j.ringOf o.coll).any holdsClusters)

/-- Bytes the eviction of an object would free, in pages. -/
def evictable (j : Jenjor) (o : Obj) : Nat :=
  if o.kind = 1 then ((j.coll? o.coll).map j.plateSetPages).getD 0 else o.pages

/-- Eviction candidates (R243): plate sets and payload tables in sweep memory, not pinned, not draining; for a photometric
promotion only those of less than half the promoted object's heat (R241). -/
def candidates (j : Jenjor) (named : List Nat) (heat : Option Nat) : List Obj :=
  j.cat.objs.filter fun o => (o.kind == 1 || o.kind == 2) && o.tier == .sweep && !o.draining && !j.pinned named o
    && heat.all fun h => 2 * o.heat < h

/-- An object holds a change that its vault master lacks (R223, R235). -/
def objDirty (j : Jenjor) (o : Obj) : Bool :=
  if o.kind = 1 then (j.collPlates o.coll).any fun p => p.dirtyHdr || p.dirtyData else !o.dirty.isEmpty

/-- Record-cache pages above the floor (R247). -/
def cacheAboveFloor (j : Jenjor) : Nat := if j.place.photometric then j.spg.cachePages.length - j.spg.cacheSize else 0

/-- Record pages pinned by running reranks and payload fetches (R150). -/
def pinnedPages (j : Jenjor) : List Nat := j.sw.ctxs.flatMap fun c => c.pins

/-- Lines that a rekey marked are dropped when they are unpinned (R388). -/
def dropStale (j : Jenjor) : Jenjor :=
  { j with spg := { j.spg with lines := j.spg.lines.filter fun l => !l.stale || j.pinnedPages.contains l.page } }

/-- Record-cache pages that hold no pinned line (R247). -/
def loosePages (j : Jenjor) : List (Nat × Nat) :=
  j.spg.cachePages.filter fun p => !(j.spg.lines.any fun l => l.home == p.1 && j.pinnedPages.contains l.page)

/-- Release the coldest record-cache page with its lines, of equals the one of highest number (R243, R247). -/
def releaseCachePage (j : Jenjor) : Jenjor :=
  match argmin (fun p => p.2 * 2 ^ 24 + (2 ^ 24 - p.1)) j.loosePages with
  | none => j
  | some p => { j with spg := { j.spg with cachePages := j.spg.cachePages.erase p,
                                           lines := j.spg.lines.filter fun l => l.home != p.1 } }

def addSlew (j : Jenjor) (obj : Nat) (dest : Tier) (pages : Nat) (cause : SlewFor) : Jenjor :=
  { j with cat := { j.cat with
      slews := j.cat.slews ++ [{ obj := obj, dest := dest, pages := pages, started := false, pendingGranules := [], held := false,
                                 cause := cause, order := j.cat.nextId }],
      nextId := j.cat.nextId + 1 } }

/-- Switch an object to a tier (R236 step 4). -/
def switchTier (j : Jenjor) (obj : Nat) (dest : Tier) (pages : Nat) : Jenjor :=
  (j.mapObj obj fun o => { o with tier := dest, pages := if o.kind = 1 then 0 else pages }).count blkDEV 0x518

/-- Allocate pool pages (R243). A dirty victim's switch is waited for; with no victim the attempt returns POOL_BUSY and
is counted (R245). -/
def allocLoop (need : Nat) (named : List Nat) (heat : Option Nat) : Nat → Jenjor → Grant
  | 0, j => .wait true (j.count blkDEV 0x528)
  | fuel + 1, j =>
    if need ≤ j.poolFree then .granted j
    else if 0 < j.cacheAboveFloor && !j.loosePages.isEmpty then
      allocLoop need named heat fuel j.releaseCachePage
    else if j.cat.slews.any fun s => s.cause == .evict then .wait false j
    else
      match argmin (fun o => o.lastUse * 2 ^ 24 + o.num) (j.candidates named heat) with
      | none => .wait true (j.count blkDEV 0x528)
      | some o =>
        let j := j.count blkDEV 0x520
        if j.objDirty o then .wait false (j.addSlew o.num .vault 0 .evict)
        else allocLoop need named heat fuel (j.switchTier o.num .vault 0)

/-- Allocate for an object that heat promotes (R241): its victims are cooler than half its heat. -/
def allocateCool (j : Jenjor) (need : Nat) (named : List Nat) (heat : Option Nat) : Grant :=
  let movable := natSum ((j.cat.objs.filter fun o => (o.kind == 1 || o.kind == 2) && o.tier == .sweep).map j.evictable)
  if j.poolFree + j.cacheAboveFloor + movable < need then .limit
  else allocLoop need named heat (j.cat.objs.length + j.spg.cachePages.length + 1) j

def allocate (j : Jenjor) (need : Nat) (named : List Nat) : Grant := j.allocateCool need named none

/-- Keep a command whose allocation waits (R245). -/
def park (j : Jenjor) (what : AllocFor) (since : Nat) (failed : Bool) : Jenjor :=
  { j with cat := { j.cat with allocs := j.cat.allocs ++ [{ id := j.cat.nextId, what := what, since := since, failed := failed }],
                               nextId := j.cat.nextId + 1 } }

/-! ### Fences (R207) -/

/-- Complete the fences whose covered writes are all published or discarded. -/
def settleFences (j : Jenjor) : Jenjor :=
  let resolved := fun (s : Nat) => j.wr.journal.all fun e => e.jr.seq != s || e.published || e.discarded
  let note := fun (f : Fence) =>
    let es := (j.wr.journal.filter fun e => f.covered.contains e.jr.seq && e.published).filterMap fun e => e.epoch
    { f with covered := f.covered.filter fun s => !resolved s,
             best := es.foldl (fun b e => some (max e (b.getD 0))) f.best }
  let fs := j.wr.fences.map note
  let done := fs.filter fun f => f.covered.isEmpty
  let j := { j with wr := { j.wr with fences := fs.filter fun f => !f.covered.isEmpty } }
  done.foldl (fun j f => j.complete f.ref .success 0 (BitVec.ofNat 64 (f.best.getD j.wr.epoch)) none) j

/-! ### Rates and periods (R77, R80, R84, R94, R97, R325) -/

/-- Plate-group size m for a record count N (R77). e(m) ≥ 0.9 is 10·m·N ≥ 9·128·⌈m·N/128⌉. -/
def packBatches (m n : Nat) : Nat := ceilDiv (m * n) 128

def plateGroupSize (n : Nat) : Nat :=
  let ms := [1, 2, 3, 4, 5, 6, 7, 8]
  match ms.find? fun m => 9 * 128 * packBatches m n ≤ 10 * m * n with
  | some m => m
  | none => ms.foldl (fun b m => if b * n * packBatches m n < m * n * packBatches b n then m else b) 1

/-- Engines per group G and groups per cluster (R76). -/
def groupsPerCluster (f : Format) : Nat := if f = .s4 then 8 else 4

def reticle (f : Format) : Nat := if f = .s4 then 128 else 256

/-- Sustained sweep rate of one cluster in MB/s, by memory band (R25, R94). -/
def clusterRate (band : Nat) : Nat := if band = 0 then 588800 else if band = 1 then 569600 else 441600

/-- Vault data read rate in MB/s (R325): three quarters of the serving channels' rate, in stripes of equal width. -/
def vaultRate (j : Jenjor) : Nat :=
  let serving := j.vlt.carriers.filter fun c => c.state == .serving
  let chans := serving.foldl (fun n c => min n (8 - c.chansRetired.length)) 8
  if serving.length < 3 then 0 else 2700 * serving.length * chans

/-- The pool that deep-field grants divide (R97), in MB/s. -/
def deepPool (j : Jenjor) : Nat := j.vaultRate * (100 - j.sw.dfReserve) / 100

def ringBytes (r : Ring) : Nat := 262144 * r.view.length

/-- Period in ns of `bytes` at `mbps`; all ones at a rate of zero (R96, R97). -/
def periodOf (bytes mbps : Nat) : Nat := if mbps = 0 then 0xFFFFFFFFFFFFFFFF else ceilDiv (bytes * 1000) mbps

/-- The published period of a ring holding `n` clusters (R25, R80, R97). -/
def publishedPeriod (r : Ring) (d : RingDef) (n : Nat) : Nat :=
  if d.deep then periodOf (ringBytes r) r.grant else if n = 0 then 0 else periodOf (ringBytes r) (n * clusterRate 0)

end Jenjor

end Sys2Proof.Machine
end

