-- ==== Sys2Proof/Machine/Capacity.lean ====
section
/-! DEFINITION. Sys2Proof/Machine/Capacity.lean: what a ring's clusters hold and deliver: engine groups (R76, R77, R86),
measured rates and capacity (R85, R94, R96), stretches (R27, R96), deep-field grants (R97, R98), published periods
(R80), and opening a plate on its ring's list (R221). -/

namespace Sys2Proof.Machine
open Jenjor

/-! ### Islands -/

def Jenjor.island (j : Jenjor) (i : Nat) : Island := (j.isl.islands[i]?).getD gatedIsland

def Jenjor.mapIsland (j : Jenjor) (i : Nat) (f : Island → Island) : Jenjor :=
  { j with isl := { j.isl with islands := j.isl.islands.modify i f } }

/-! ### Groups -/

/-- The `g`-th group of cluster `c`. -/
def Jenjor.group? (j : Jenjor) (c g : Nat) : Option Group := (j.cluster? c).bind fun x => x.groups[g]?

def Jenjor.mapGroup (j : Jenjor) (c g : Nat) (f : Group → Group) : Jenjor :=
  j.mapCluster c fun x => { x with groups := x.groups.modify g f }

/-- Records that a plate group packs (R77): those of the plates that are scored. -/
def PlateGroup.records (pg : PlateGroup) : Nat := natSum (pg.snap.map fun p => p.recs.length)

/-- Batches of a plate group (R77). -/
def PlateGroup.batches (pg : PlateGroup) : Nat := ceilDiv pg.records 128

/-- The compute half has finished accumulating and drained (R89). With no enabled row there is nothing to accumulate
(R17). -/
def Group.drained (g : Group) : Bool :=
  match g.compute with
  | none => true
  | some pg => g.enabled.isEmpty || (pg.batches ≤ g.batch && g.banks.isEmpty)

/-- Plate groups of a group that are dealt and not finished (R86). -/
def Group.unfinished (g : Group) : List PlateGroup :=
  g.queue ++ g.fill.toList ++ (if g.drained then [] else g.compute.toList)

/-- Plate groups that a cluster's groups hold and have not finished. -/
def Cluster.unfinished (c : Cluster) : List PlateGroup := c.groups.flatMap Group.unfinished

/-- Plate groups of a ring that are dealt and not finished, in any group. -/
def Jenjor.outstanding (j : Jenjor) (ring : Nat) : List PlateGroup :=
  (j.sw.clusters.flatMap Cluster.unfinished).filter fun pg => pg.ring == ring

/-! ### Rates (R78, R85, R94, R96), exact, per nanosecond -/

structure Rate where
  num : Nat
  den : Nat
  deriving DecidableEq, Repr

namespace Rate

def zero : Rate := { num := 0, den := 1 }

def add (a b : Rate) : Rate := { num := a.num * b.den + b.num * a.den, den := a.den * b.den }

def min (a b : Rate) : Rate := if a.num * b.den ≤ b.num * a.den then a else b

/-- Time to pass `n` at a rate, rounded up; all ones at a rate of zero (R96, R97). -/
def time (r : Rate) (n : Nat) : Nat := if r.num = 0 then 0xFFFFFFFFFFFFFFFF else ceilDiv (n * r.den) r.num

/-- The rate passes `n` in `t`. -/
def passes (r : Rate) (n t : Nat) : Bool := 0 < r.num && n * r.den ≤ r.num * t

end Rate

/-- A ring's rate from one cluster of it in bytes: the cluster's in the present band, or the ring's grant (R25, R94, R97). -/
def clusterShare (j : Jenjor) (r : Ring) (d : RingDef) : Rate :=
  { num := if d.deep then r.grant else clusterRate j.mem.band, den := 1000 }

/-- A group's share of it (R78, R84). -/
def groupShare (j : Jenjor) (r : Ring) (d : RingDef) : Rate :=
  let s := clusterShare j r d
  { s with den := s.den * groupsPerCluster d.format }

/-- Rate of what `f` counts over a group's last 64 completed plate groups; none before two have completed (R85). -/
def completed (f : Nat × Nat → Nat) (g : Group) : Option Rate :=
  match g.done.head?, g.done.getLast? with
  | some a, some b =>
    if b.1 < a.1 then some { num := natSum (g.done.dropLast.map f), den := a.1 - b.1 } else none
  | _, _ => none

/-- A group's measured rate in bytes (R85, R96); its share before two plate groups have completed. -/
def measuredBytes (share : Rate) (g : Group) : Rate := (completed (fun x => x.2 * 262144) g).getD share

/-- A group's measured rate in plate groups (R85), of `m` plates each before two have completed. -/
def measuredGroups (share : Rate) (m : Nat) (g : Group) : Rate :=
  (completed (fun _ => 1) g).getD { share with den := share.den * (m * 262144) }

/-- The measured rate of a cluster's groups. -/
def clusterMeasured (j : Jenjor) (r : Ring) (d : RingDef) (c : Cluster) : Rate :=
  (c.groups.map (measuredBytes (groupShare j r d))).foldl Rate.add Rate.zero

namespace Jenjor

/-- A ring's measured capacity (R96): the sum of its groups' measured rates, and no more than the present band (R94) or the
ring's grant (R98) gives its clusters at once (DEDUCED, log entry 101). -/
def capacity (j : Jenjor) (r : Ring) (d : RingDef) : Rate :=
  let cs := j.sw.clusters.filter fun c => r.clusters.contains c.num
  let s := clusterShare j r d
  Rate.min ((cs.map (clusterMeasured j r d)).foldl Rate.add Rate.zero) { s with num := s.num * cs.length }

/-- Capacity covers the rate that the published period needs. -/
def covers (j : Jenjor) (r : Ring) (d : RingDef) : Bool := (j.capacity r d).passes (ringBytes r) r.period

/-! ### Stretches (R27, R96) -/

/-- Riding has ended for a query that still waits for its flip or barrier (R82, R96). -/
def rideOver (j : Jenjor) (c : Ctx) : Bool :=
  c.owed.isEmpty && j.sw.clusters.all fun x => x.groups.all fun g => !g.enabled.contains c.id || g.drained

/-- Stretch a ring to a derated period, marking the queries whose wait or ride overlaps it. -/
def stretchTo (j : Jenjor) (n p : Nat) : Jenjor :=
  (j.mapRing n fun r => { r with stretched := true, covered := false, derated := p }).mapCtxs
    (fun c => c.ring == n && (unboarded c || (c.phase == .riding && !j.rideOver c))) fun c => { c with stretched := true }

/-- Capacity has fallen by a further 1 % below that of a derated period (R96). -/
def fallsFurther (r : Ring) (cap : Rate) : Bool :=
  cap.num = 0 || cap.num * r.derated * 100 < ringBytes r * cap.den * 99

/-- Stretch a ring whose capacity falls short of its published period. -/
def stretchCheck (j : Jenjor) (n : Nat) : Jenjor :=
  match j.ring? n with
  | none => j
  | some r =>
    match r.defn with
    | none => j
    | some d =>
      if !holdsClusters r || r.view.isEmpty || j.covers r d then j
      else
        let cap := j.capacity r d
        j.stretchTo n (if !r.stretched || fallsFurther r cap then cap.time (ringBytes r) else r.derated)

/-! ### Deep-field grants (R97, R98) -/

/-- Target grants of the running deep-field rings (R97): the top priority shares the pool by weight. A grant's cap of
588.8 GB/s exceeds the whole vault rate of R325, so no rate is ever left over for a lower priority. A share that is not a
whole number of MB/s is rounded down, so that the grants never pass the pool (DESIGN CHOICE, log entry 102). -/
def targetGrant (j : Jenjor) (n : Nat) : Nat :=
  let deep := j.sw.rings.filter fun r => holdsClusters r && r.defn.any fun d => d.deep
  let top := deep.foldl (fun p r => max p ((r.defn.map fun d => d.prio).getD 0)) 0
  let share := fun (r : Ring) => (r.defn.map fun d => if d.prio = top then d.share else 0).getD 0
  match deep.find? fun r => r.num == n with
  | none => 0
  | some r =>
    let total := natSum (deep.map share)
    if total = 0 then 0 else min 588800 (j.deepPool * share r / total)

/-- Rate that no other ring's present grant holds. -/
def ungranted (j : Jenjor) (n : Nat) : Nat :=
  j.deepPool - natSum ((j.sw.rings.filter fun r => r.num != n).map fun r => r.grant)

/-- The published period of a ring from its list, its clusters or announced clusters, and its grant or announced grant (R75,
R80, R97). -/
def republish (j : Jenjor) (n : Nat) : Jenjor :=
  j.mapRing n fun r =>
    match r.defn with
    | none => r
    | some d =>
      if holdsClusters r then
        { r with period := publishedPeriod { r with grant := r.grantNext.getD r.grant } d (heldClusters r).length }
      else r

/-- Give a ring its grant, and publish its period from it. A grant of zero is a stretch with no bound; a rise from zero
gives the derated period a bound again (R96, R97). -/
def setGrant (j : Jenjor) (n g : Nat) : Jenjor :=
  let j := (j.mapRing n fun r => { r with grant := g, grantNext := none }).republish n
  match j.ring? n with
  | none => j
  | some r =>
    match r.defn with
    | none => j
    | some d =>
      if g = 0 then j.stretchTo n 0xFFFFFFFFFFFFFFFF
      else if r.stretched then j.mapRing n fun r => { r with derated := (j.capacity r d).time (ringBytes r) }
      else j

/-- A ring that has started and not passed its first boundary takes each rise of its grant at once, as rate is given up
(R97). -/
def regrant (j : Jenjor) : Jenjor :=
  j.sw.rings.foldl (fun j r =>
    match j.ring? r.num with
    | none => j
    | some r =>
      let g := min (j.targetGrant r.num) (j.ungranted r.num)
      if holdsClusters r && !r.passed && r.defn.any (fun d => d.deep) && r.grant < g then j.setGrant r.num g else j) j

/-- Cut every deep-field grant above its target at once, and stretch each ring whose grant no longer covers the rate its
published period needs (R98). -/
def cutGrants (j : Jenjor) : Jenjor :=
  j.sw.rings.foldl (fun j r =>
    let t := j.targetGrant r.num
    if holdsClusters r && r.defn.any (fun d => d.deep) && t < r.grant then
      (j.mapRing r.num fun r => { r with grant := t }).stretchCheck r.num
    else j) j

/-! ### Opening a plate (R39, R221) -/

/-- The open plates of a collection that take the next commit's appends (R221): a delta of that commit's epoch stays below
2^30 (R49, R228). -/
def openPlates (j : Jenjor) (n : Nat) : List Plate :=
  (j.collPlates n).filter fun p =>
    !p.sealed_ && !p.source && p.present && !p.lost && j.wr.epoch + 1 < p.epochBase + 2 ^ 30

/-- Free slots in a collection's open plates. -/
def freeSlots (j : Jenjor) (c : Coll) : Nat := natSum ((j.openPlates c.num).map fun p => c.plateN - p.recs.length)

/-- Plate numbers of a collection in use, replacements in progress included. -/
def plateNums (j : Jenjor) (n : Nat) : List Nat :=
  (j.cat.plates.filter fun p => p.coll == n).map (fun p => p.num)
    ++ (j.cat.replatings.filter fun r => r.coll == n).flatMap fun r => r.repl.map fun p => p.num

/-- The number that a new plate of a collection takes (R221): the lowest free one, below the limit, while the collection's
live plates are below it too (R39). -/
def newPlateNum (j : Jenjor) (n : Nat) : Option Nat :=
  let num := lowestFree (j.plateNums n) ((j.plateNums n).length + 1) 0
  if num < 1048064 && (j.collPlates n).length < 1048064 then some num else none

/-- Give a new plate its place on the collection's ring list: at the next ring boundary while the ring sweeps,
otherwise at once (R88, R222). -/
def listPlate (j : Jenjor) (coll pid : Nat) : Jenjor :=
  match j.ringOf coll with
  | none => j
  | some r =>
    if sweeping r then j.mapRing r.num fun r => { r with switches := r.switches ++ [.addPlate pid] }
    else (j.mapRing r.num fun r => { r with view := r.view ++ [pid] }).republish r.num

/-- Open a plate (R221). It waits when the pool has no page for it. -/
def openPlate (j : Jenjor) (c : Coll) : Jenjor :=
  match j.newPlateNum c.num with
  | none => j
  | some num =>
    let p := emptyPlate j.cat.nextPid c.num num c.gridGen j.wr.epoch j.genBit c.sidecar
    let add := fun (k : Jenjor) =>
      { k with cat := { k.cat with plates := k.cat.plates ++ [p], nextPid := k.cat.nextPid + 1 } }
    match j.allocate ((add j).plateSetPages c - j.plateSetPages c) [c.objPlates] with
    | .granted k => (add k).listPlate c.num p.pid
    | .wait _ k => k
    | .limit => j

/-- Open a successor when the free slots fall below N (R221). -/
def topUp (j : Jenjor) (n : Nat) : Jenjor :=
  match j.liveColl? n with
  | none => j
  | some c => if j.freeSlots c < c.plateN then j.openPlate c else j

end Jenjor
end Sys2Proof.Machine
end

