-- ==== Sys2Proof/Machine/Rings.lean ====
section
/-! DEFINITION. Sys2Proof/Machine/Rings.lean: rings and their clusters: ending a query early, assignment (R74, R75),
starting and stopping (R73), the switches of a ring boundary (R87), and RING_DEFINE, RING_EDIT, RING_START and
RING_STOP. -/

namespace Sys2Proof.Machine
namespace Jenjor

/-! ### Ending a query early (R20, R81) -/

/-- Release everything a query holds: its row in every set, what its clusters queue for it, its reads and cache pins, its
rerank core, its cross-check (R20, R83, R145). -/
def dropCtx (j : Jenjor) (id : Nat) : Jenjor :=
  dropStale <|
  let group := fun (g : Group) =>
    { g with enabled := g.enabled.filter (· != id), excluded := g.excluded.filter fun e => e.1 != id }
  { j with
      qs := { j.qs with waits := j.qs.waits.filter fun w => w.id != id },
      sw := { j.sw with
        ctxs := j.sw.ctxs.filter fun c => c.id != id,
        rings := j.sw.rings.map fun r => { r with rows := r.rows.filter fun x => x.ctx != id },
        clusters := j.sw.clusters.map fun c =>
          { c with groups := c.groups.map group, admq := c.admq.filter fun e => e.1 != id,
                   specq := c.specq.filter fun e => e.1 != id } },
      spg := { j.spg with
        cores := j.spg.cores.map fun o => if o = some id then none else o,
        reads := j.spg.reads.map fun r => { r with waiters := r.waiters.filter (· != id) } } }

/-- Complete a query early with a status and no result (R81, R284). A query run for the companion's cross-check sends
nothing (R359). -/
def abortCtx (j : Jenjor) (id : Nat) (st : Status) : Jenjor :=
  match j.ctx? id with
  | none => j
  | some c =>
    let j := j.dropCtx id
    if c.xtag.any fun t => !t.2 then j else j.refuse c.ref st

def abortAll (j : Jenjor) (ids : List Nat) (st : Status) : Jenjor := ids.foldl (fun j i => j.abortCtx i st) j

def ridersOf (j : Jenjor) (ring : Nat) : List Nat :=
  (j.sw.ctxs.filter fun c => c.ring == ring && c.phase == .riding).map fun c => c.id

def waitersOf (j : Jenjor) (ring : Nat) : List Nat :=
  (j.sw.ctxs.filter fun c => c.ring == ring && unboarded c).map fun c => c.id

/-! ### Cluster assignment (R74, R75) -/

/-- Clusters in service, lowest first. -/
def activeClusters (j : Jenjor) : List Nat :=
  (j.sw.clusters.filter fun c => c.active && !c.failed && !c.retiring).map fun c => c.num

/-- Order of R74: deep-field first, then priority descending, then number ascending. -/
def assignOrder (rs : List Ring) : List Ring :=
  let key := fun (r : Ring) =>
    match r.defn with
    | none => 100000
    | some d => (if d.deep then 0 else 1000) + (7 - d.prio) * 64 + r.num
  sortBy (fun a b => key a ≤ key b) rs

/-- An eviction of an object is under way or queued: a promotion is evaluated after its switch (R246). -/
def leavesSweep (j : Jenjor) (obj : Nat) : Bool := j.cat.slews.any fun s => s.obj == obj && s.dest == .vault

/-- Every plate set on the ring's list is in sweep memory and stays there, or the ring is deep-field (R246). -/
def promoted (j : Jenjor) (r : Ring) : Bool :=
  r.defn.any fun d => d.deep || d.colls.all fun n =>
    match j.coll? n with
    | none => true
    | some c => j.plateSetTier c == .sweep && !(j.leavesSweep c.objPlates)
        && (j.collPlates n).all fun p => p.present || p.quarantined

/-- A ring that waits for clusters and is not held by a promotion (R73, R246). While an Almanac ring has yet to start, no
other ring starts (R407). -/
def wantsClusters (j : Jenjor) (r : Ring) : Bool :=
  r.phase == .waiting && j.promoted r && (r.almanacStart || !j.sw.rings.any fun x => x.almanacStart)

/-- One cluster to the sweep-resident ring of highest priority below its maximum, least assigned ÷ share first. -/
def giveOne (ds : List (Nat × RingDef × Nat)) : Option (List (Nat × RingDef × Nat)) :=
  let open_ := ds.filter fun x => !x.2.1.deep && 0 < x.2.2 && x.2.2 < x.2.1.maxC
  let top := open_.foldl (fun p x => max p x.2.1.prio) 0
  match open_.filter fun x => x.2.1.prio == top with
  | [] => none
  | x :: xs =>
    let best := xs.foldl (fun b y =>
      if y.2.2 * b.2.1.share < b.2.2 * y.2.1.share
        ∨ (y.2.2 * b.2.1.share = b.2.2 * y.2.1.share ∧ y.1 < b.1) then y else b) x
    some (ds.map fun y => if y.1 = best.1 then (y.1, y.2.1, y.2.2 + 1) else y)

def spread : Nat → List (Nat × RingDef × Nat) → List (Nat × RingDef × Nat)
  | 0, ds => ds
  | n + 1, ds =>
    match giveOne ds with
    | none => ds
    | some ds' => spread n ds'

/-- The procedure of R74: the clusters each started ring is to hold, as (ring, definition, count). -/
def targetCounts (j : Jenjor) : List (Nat × RingDef × Nat) :=
  let total := j.activeClusters.length
  let rs := assignOrder (j.sw.rings.filter fun r => r.defn.isSome)
  let keep := (rs.filter holdsClusters).foldl (fun (acc : List (Nat × RingDef × Nat) × Nat) r =>
    match r.defn with
    | none => acc
    | some d =>
      let k := min (min d.minC (heldClusters r).length) acc.2
      (acc.1 ++ [(r.num, d, k)], acc.2 - k)) ([], total)
  let start := (rs.filter j.wantsClusters).foldl (fun (acc : List (Nat × RingDef × Nat) × Nat) r =>
    match r.defn with
    | none => acc
    | some d => if d.minC ≤ acc.2 then (acc.1 ++ [(r.num, d, d.minC)], acc.2 - d.minC) else acc) keep
  spread start.2 start.1

def targetOf (j : Jenjor) (n : Nat) : Nat :=
  ((j.targetCounts.find? fun x => x.1 == n).map fun x => x.2.2).getD 0

/-- Active clusters that no ring holds and that finish no plate group of another ring, lowest first. -/
def freeClusters (j : Jenjor) : List Nat :=
  let held := j.sw.rings.flatMap fun r => r.clusters ++ r.joining
  let busy := (j.sw.clusters.filter fun c => !c.unfinished.isEmpty).map fun c => c.num
  j.activeClusters.filter fun c => !held.contains c && !busy.contains c

/-- An idle group. -/
def idleGroup : Group :=
  { queue := [], fill := none, compute := none, enabled := [], excluded := [], batch := 0, banks := [], held := false, done := [] }

/-- Put a cluster in a ring's service: its groups follow the ring's format (R76). -/
def homeCluster (j : Jenjor) (c ring : Nat) (f : Format) : Jenjor :=
  j.mapCluster c fun x => { x with home := some ring, groups := List.replicate (groupsPerCluster f) idleGroup }

/-- A group without the plate groups of ring `n` that it has not begun. -/
def Group.without (n : Nat) (g : Group) : Group :=
  let l := (g.fill.toList ++ g.queue).filter fun pg => pg.ring != n
  { g with fill := l.head?, queue := l.tail }

/-- A group as its cluster leaves ring `n`: the plate groups of an alternate ring that it holds are still finished (R82,
R92). -/
def Group.leave (n : Nat) (g : Group) : Group :=
  let g := Group.without n g
  if !g.drained && g.compute.any fun pg => pg.ring != n then { g with held := false }
  else { idleGroup with fill := g.fill, queue := g.queue }

/-- Take a cluster out of service of its ring. What it has admitted still reaches the selection stage. -/
def unhome (j : Jenjor) (c : Nat) : Jenjor :=
  j.mapCluster c fun x => { x with home := none, groups := x.groups.map (Group.leave (x.home.getD 64)) }

/-- A retiring cluster is gated once it has finished its plate groups in flight, and out of service once it has left its
ring (R95, R421). -/
def gateRetired (j : Jenjor) : Jenjor :=
  (j.sw.clusters.filter fun x => x.retiring && x.unfinished.isEmpty).foldl (fun j x =>
    (j.mapIsland (7 + x.num) fun i => { i with clk := 0 }).mapCluster x.num fun x =>
      { x with active := x.active && x.home.isSome }) j

/-- Bias-store places in use or taken by a plane on its way (R233). -/
def biasPlaces (j : Jenjor) : Nat :=
  (j.cat.colls.filter fun c => c.bias.any fun b => b.inStore || j.cat.slews.any fun s => s.obj == c.objBias && s.dest == .sram).length

/-- A bias plane takes a bias-store place when its collection's ring starts, if one is free: a slew moves it (R236, R241). -/
def placeBias (j : Jenjor) (n : Nat) : Jenjor :=
  match j.coll? n with
  | none => j
  | some c =>
    if c.bias.all (fun b => b.inStore) || (j.cat.slews.any fun s => s.obj == c.objBias) || 128 ≤ j.biasPlaces then j
    else j.addSlew c.objBias .sram 0 .bias

/-- Plate-group size of a ring: from the smallest N among its collections (R77). -/
def ringM (j : Jenjor) (d : RingDef) : Nat :=
  let ns := d.colls.filterMap fun n => (j.coll? n).map fun c => c.plateN
  plateGroupSize ((argmin id ns).getD 1)

/-- Begin a pass (R89): its list, from the first entry. Riders' old plates that are no longer listed and are still owed
follow the list, so that each is scored once (R22, R82). The plate-group size follows the collections (R77). -/
def beginPass (j : Jenjor) (n : Nat) : Jenjor :=
  let owed := (j.sw.ctxs.filter fun c => c.ring == n && c.phase == .riding).flatMap fun c => c.owed
  j.mapRing n fun r =>
    { r with passList := r.view ++ (owed.filter fun p => !r.view.contains p).eraseDups, passPos := 0,
             pgSize := (r.defn.map j.ringM).getD r.pgSize }

/-- A waiting ring takes its clusters and runs; RING_START completes with the published period (R73, R277). -/
def startRing (j : Jenjor) (n : Nat) (cs : List Nat) : Jenjor :=
  match j.ring? n with
  | none => j
  | some r =>
    match r.defn with
    | none => j
    | some d =>
      let j := cs.foldl (fun j c => j.homeCluster c n d.format) j
      let j := d.colls.foldl placeBias j
      let j := j.mapRing n fun r =>
        { r with phase := .running, clusters := cs, leaving := [], joining := [], pgSize := j.ringM d, passed := false,
                 stretched := false, derated := 0, covered := true, grant := 0, grantNext := none,
                 period := publishedPeriod r d cs.length }
      let j := if d.deep then j.regrant else j
      let j := if d.deep && (j.ring? n).any (fun r => r.grant == 0) then j.setGrant n 0 else j
      let j := j.beginPass n
      match r.starter with
      | none => j
      | some c =>
        let p := ((j.ring? n).map fun r => r.period).getD 0
        (j.mapRing n fun r => { r with starter := none }).complete c .success 0 (BitVec.ofNat 64 p) none

/-! ### Switches at a ring boundary (R87, R222) -/

/-- The plates that a collection's list shows, in ascending plate number. -/
def viewOf (j : Jenjor) (coll : Nat) : List Nat :=
  (sortBy (fun a b => a.num ≤ b.num) (j.collPlates coll)).map fun p => p.pid

/-- Apply one RING_EDIT entry to a list view (R88): the collection joins the list, or leaves it. A collection that is gone
by now does not join. A marked entry that appends marks the collection's first plate (R87); on an entry that removes,
MARK has no effect (DESIGN CHOICE, log entry 104). -/
def applyEntry (j : Jenjor) (r : Ring) (e : Bool × Nat × Bool) : Ring :=
  let ps := j.viewOf e.2.1
  let relist := fun (f : List Nat → List Nat) => r.defn.map fun d => { d with colls := f d.colls }
  if !e.1 then
    let gone := (j.cat.plates.filter fun p => p.coll == e.2.1).map fun p => p.pid
    { r with view := r.view.filter fun p => !gone.contains p, defn := relist fun cs => cs.filter (· != e.2.1) }
  else if (j.coll? e.2.1).all fun c => c.draining then r
  else
    { r with view := r.view ++ ps.filter (fun p => !r.view.contains p), defn := relist fun cs => cs ++ [e.2.1],
             marks := if e.2.2 then r.marks ++ ps.take 1 else r.marks }

/-- Give a plate back to its collection's numbers once no query holds it (R227). -/
def retirePlate (j : Jenjor) (pid : Nat) : Jenjor := j.mapPlate pid fun p => { p with retiring := true }

/-- A replating's plates at its swap. A rekey's twins repeat every header edit of their plates (R388): they stand as their
plates do, under the other key bit. -/
def swapPlates (j : Jenjor) (rp : Replating) : List Plate :=
  if rp.cause = .rekey then
    rp.repl.filterMap fun t =>
      (rp.sources.filterMap j.plate?).find? (fun p => p.num == t.num) |>.map fun p =>
        { p with pid := t.pid, keyGen := t.keyGen, source := false, dirtyHdr := true }
  else rp.repl

/-- Swap replacements in for sources (R225 steps 5 and 6): each takes the list position of one source, the directory
points at the new slots, the sources go off the list, and the journal waits for the replacements that have changed since
they were written. -/
def swapReplating (j : Jenjor) (job : Nat) : Jenjor :=
  match j.cat.replatings.find? fun r => r.id == job with
  | none => j
  | some rp =>
    let rp := { rp with repl := j.swapPlates rp }
    let gone := (rp.sources.filterMap j.plate?).map fun p => p.num
    let kept := rp.repl.map fun p => p.num
    let pids := rp.repl.map fun p => p.pid
    let dirty := (rp.repl.filter fun p => p.dirtyHdr || p.dirtyData).map fun p => p.pid
    let pairs := rp.sources.zip (pids.map some ++ List.replicate rp.sources.length none)
    let subst := fun (v : List Nat) => v.flatMap fun p =>
      match pairs.lookup p with
      | none => [p]
      | some none => []
      | some (some q) => [q]
    let j := { j with
      cat := { j.cat with plates := j.cat.plates ++ rp.repl,
                          replatings := j.cat.replatings.filter (fun r => r.id != job),
                          recals := j.cat.recals.map fun r =>
                            if r.coll = rp.coll then { r with twins := r.twins.filter fun t => !gone.contains t.num || kept.contains t.num }
                            else r },
      sw := { j.sw with rings := j.sw.rings.map fun r => { r with view := subst r.view } } }
    let j := rp.sources.foldl retirePlate j
    let j := j.mapJournal (fun e => e.touched.any rp.sources.contains) fun e =>
      { e with touched := e.touched.filter (fun p => !rp.sources.contains p) ++ dirty }
    let entries := rp.repl.flatMap fun p =>
      (List.range p.recs.length).filterMap fun s =>
        if p.tomb.contains s then none else (p.recs[s]?).map fun r => (r.key, p.pid, s)
    let j := j.mapColl rp.coll fun c =>
      { c with dir := entries ++ c.dir.filter fun d => !(entries.any fun e => e.1 == d.1) }
    if rp.cause = .rekey then j else j.bump (blkBase blkDEV + 0x448) rp.repl.length

/-- Swap every plate of a collection for its staged twin and install the grid (R255 step 6). Twins keep numbers and
slots, so the directory moves plate by plate. A re-base that has not swapped in goes on in the new grid generation
(R69, R255 step 3). -/
def swapRecal (j : Jenjor) (coll : Nat) : Jenjor :=
  match j.cat.recals.find? fun r => r.coll == coll with
  | none => j
  | some rc =>
    let old := j.collPlates coll
    let twinOf := fun (pid : Nat) =>
      (old.find? fun p => p.pid == pid).bind fun p => (rc.twins.find? fun t => t.num == p.num).map fun t => t.pid
    let twins := (rc.twins.filter fun t => old.any fun p => p.num == t.num).map fun t =>
      { t with source := old.any fun p => p.num == t.num && p.source }
    let clean := twins.filter fun t => !t.dirtyHdr && !t.dirtyData
    let j := (j.mapPlates (fun p => p.coll == coll && !p.retiring) fun p =>
      if twins.any fun t => t.num == p.num then { p with retiring := true }
      else { p with gridGen := p.gridGen + 1, dirtyHdr := true }).addPlates twins
    let j := j.mapJournal (fun e => e.jr.coll == coll) fun e =>
      { e with touched := (e.touched.map fun p => (twinOf p).getD p).filter fun p => !clean.any fun t => t.pid == p }
    let regrid := fun (p : Plate) =>
      match rc.twins.find? fun t => t.num == p.num with
      | some t => t
      | none => { p with gridGen := p.gridGen + 1, dirtyHdr := true }
    let follow := fun (r : Replating) =>
      if r.coll = coll then { r with sources := r.sources.map fun p => (twinOf p).getD p, repl := r.repl.map regrid } else r
    let j := j.mapCat fun c =>
      { c with recals := c.recals.filter (fun r => r.coll != coll), replatings := c.replatings.map follow }
    let j := j.mapRings fun r => { r with view := r.view.map fun p => (twinOf p).getD p }
    let j := j.mapColl coll fun c =>
      { c with gridA := rc.gridA, gridB := rc.gridB, gridGen := c.gridGen + 1,
               dir := c.dir.map fun d => (d.1, (twinOf d.2.1).getD d.2.1, d.2.2) }
    let gen := ((j.coll? coll).map fun c => c.gridGen).getD 0
    j.complete rc.ref .success (BitVec.ofNat 64 rc.seq) (BitVec.ofNat 64 (rc.fromCodes * 2 ^ 32 + gen)) none

/-- A bias frame switch (R230): the frozen buffer is published, the frame number rises, the old buffer drains. -/
def switchFrame (j : Jenjor) (coll : Nat) : Jenjor :=
  j.mapColl coll fun c =>
    { c with bias := c.bias.map fun b =>
        if b.phase = .frozen then
          { b with published := b.other, other := b.published, frame := b.frame + 1, phase := .draining, dirty := true }
        else b }

/-- A write answered because its collection is gone (R46, R211). -/
def discardWrites (j : Jenjor) (coll : Nat) : Jenjor :=
  let doomed := j.wr.journal.filter fun e => e.jr.coll == coll && !e.published && !e.discarded
  let j := j.mapJournal (fun e => e.jr.coll == coll && !e.published) fun e => { e with discarded := true, touched := [], touchedBias := false }
  let j := doomed.foldl (fun j e =>
    if e.completed then j
    else
      let j := j.mapJournal (fun x => x.jr.seq == e.jr.seq) fun x => { x with completed := true }
      j.complete e.ref .unknownCollection 0 0 none) j
  j.settleFences

/-- A collection's delete takes effect: acknowledged writes are discarded, and the collection drains (R46). -/
def deleteTakesEffect (j : Jenjor) (coll : Nat) : Jenjor :=
  let j := j.discardWrites coll
  let j := j.mapJournal (fun e => e.jr.coll == coll) fun e => { e with touched := [], touchedBias := false }
  let gone := (j.cat.plates.filter fun p => p.coll == coll).map fun p => p.pid
  let j := j.mapColl coll fun c => { c with draining := true }
  let j := j.mapRings fun r =>
    { r with view := r.view.filter (fun p => !gone.contains p),
             defn := r.defn.map fun d => { d with colls := d.colls.filter (· != coll) } }
  let j := j.mapPlates (fun p => p.coll == coll) fun p => { p with retiring := true }
  j.mapObjs (fun o => o.coll == coll && o.kind != 7) fun o => { o with draining := true }

/-- The format and dimension that a ring's collections share (R40). -/
def shapeOf (j : Jenjor) (colls : List Nat) : Option (Format × Nat) :=
  match colls with
  | [] => none
  | n :: _ => (j.coll? n).map fun c => (c.format, c.dim)

/-- Apply one pending switch of a ring. -/
def applySwitch (j : Jenjor) (ring : Nat) (s : RingSwitch) : Jenjor :=
  match s with
  | .edit es => es.foldl (fun j e => j.mapRing ring fun r => j.applyEntry r e) j
  | .addPlate pid =>
    j.mapRing ring fun r =>
      let listed := (j.plate? pid).any fun p => !p.retiring && r.defn.any fun d => d.colls.contains p.coll
      { r with view := if r.view.contains pid || !listed then r.view else r.view ++ [pid] }
  | .replate job => j.swapReplating job
  | .recal coll => j.swapRecal coll
  | .biasFrame coll => j.switchFrame coll
  | .delete coll => j.deleteTakesEffect coll
  | .redefine e =>
    j.mapRing ring fun r =>
      let kept := (j.cat.plates.filter fun p => e.colls.contains p.coll).map fun p => p.pid
      let more := (e.colls.flatMap j.viewOf).filter fun p => !r.view.contains p
      { r with view := r.view.filter kept.contains ++ more, marks := r.marks ++ more.take 1,
               defn := r.defn.map fun d => { d with
                 minC := dField e.d 0x16 1, maxC := dField e.d 0x17 1, prio := dField e.d 0x18 1,
                 share := dField e.d 0x19 1,
                 alt := if dField e.d 0x1A 1 / 128 = 1 then some (dField e.d 0x1A 1 % 64) else none,
                 window := if dField e.d 0x1C 2 = 0 then 256 else dField e.d 0x1C 2, colls := e.colls } }

def applySwitches (j : Jenjor) (ring : Nat) : Jenjor :=
  match j.ring? ring with
  | none => j
  | some r =>
    let j := j.mapRing ring fun r => { r with switches := [] }
    r.switches.foldl (fun j s => j.applySwitch ring s) j

/-- Enter a switch: at the next boundary of a ring that sweeps, otherwise at once (R73, R222). -/
def enterSwitch (j : Jenjor) (ring : Nat) (s : RingSwitch) : Jenjor :=
  match j.ring? ring with
  | none => j.applySwitch ring s
  | some r =>
    if sweeping r then j.mapRing ring fun r => { r with switches := r.switches ++ [s] }
    else (j.applySwitch ring s).republish ring

/-- Enter a switch on the ring of a collection; off any ring it takes effect at once. -/
def enterForColl (j : Jenjor) (coll : Nat) (s : RingSwitch) : Jenjor :=
  match j.ringOf coll with
  | none => j.applySwitch 64 s
  | some r => j.enterSwitch r.num s

/-! ### Cluster changes and grants at a boundary (R75, R97) -/

/-- Clusters announced to leave go, those that join come in (R75). -/
def moveClusters (j : Jenjor) (n : Nat) : Jenjor :=
  match j.ring? n with
  | none => j
  | some r =>
    match r.defn with
    | none => j
    | some d =>
      let j := (r.leaving.foldl unhome j).gateRetired
      let j := r.joining.foldl (fun j c => j.homeCluster c n d.format) j
      j.mapRing n fun r =>
        { r with clusters := (r.clusters.filter fun c => !r.leaving.contains c) ++ r.joining, leaving := [], joining := [] }

/-- Announce the clusters that a ring is to give up: highest numbers first, with the longer period (R75). -/
def announce (j : Jenjor) (n : Nat) : Jenjor :=
  match j.ring? n with
  | none => j
  | some r =>
    let cs := heldClusters r
    let go := (sortBy (fun a b => b ≤ a) cs).take (cs.length - j.targetOf n)
    if go.isEmpty then j else (j.mapRing n fun r => { r with leaving := r.leaving ++ go }).republish n

/-- A deep-field ring's grant at its boundary (R97): a fall announced before takes effect, and rings that have not passed
their first boundary take what it gives up; a further fall is announced, a rise is taken. -/
def boundaryGrant (j : Jenjor) (n : Nat) : Jenjor :=
  match j.ring? n with
  | none => j
  | some r =>
    if !(r.defn.any fun d => d.deep) then j
    else
      let j := match r.grantNext with
        | none => j
        | some g => (j.setGrant n g).regrant
      let now : Nat := ((j.ring? n).map fun r => r.grant).getD 0
      let t : Nat := j.targetGrant n
      if t < now then (j.mapRing n fun r => { r with grantNext := some t }).republish n
      else j.setGrant n (max now (min t (j.ungranted n)))

/-! ### Stopping (R73) -/

/-- Take the plate groups of a ring that no group has begun out of every group. -/
def dropGroups (j : Jenjor) (n : Nat) : Jenjor :=
  j.mapClusters (fun _ => true) fun c => { c with groups := c.groups.map (Group.without n) }

/-- Release a ring's clusters and complete its RING_STOPs. -/
def stopRing (j : Jenjor) (n : Nat) : Jenjor :=
  match j.ring? n with
  | none => j
  | some r =>
    let j := (((r.clusters ++ r.joining).foldl unhome j).dropGroups n).gateRetired
    let j := j.mapRing n fun r =>
      { r with phase := .stopped, clusters := [], leaving := [], joining := [], period := 0, derated := 0,
               stretched := false, grant := 0, grantNext := none, passed := false, starter := none, stoppers := [],
               rows := [], passList := [], passPos := 0, pgSize := 0 }
    r.stoppers.foldl (fun j c => j.complete c .success 0 0 none) j.regrant

/-- A ring left holding no cluster returns to waiting (R75): its riders fail, its waiting queries are stopped, and what
waited for its boundary takes effect (R222). A stopping ring has no rider left from here, and stops (R73; DEDUCED, log
entry 105). -/
def ringToWaiting (j : Jenjor) (n : Nat) : Jenjor :=
  let j := j.abortAll (j.ridersOf n) .internalError
  let j := (j.abortAll (j.waitersOf n) .ringStopped).applySwitches n
  if (j.ring? n).any fun r => r.phase == .stopping then j.stopRing n
  else
    ((j.dropGroups n).mapRing n fun r =>
      { r with phase := .waiting, clusters := [], leaving := [], joining := [], period := 0, derated := 0, stretched := false,
               grant := 0, grantNext := none, passed := false, rows := [], passList := [], passPos := 0 }).regrant

/-- No cluster is left to a ring, and none is on its way to it. -/
def bereft (r : Ring) : Bool := holdsClusters r && r.clusters.isEmpty && r.joining.isEmpty

/-- A ring that holds clusters while its list is empty passes no boundary: every change that waits for one takes effect at
once (R73). -/
def settleEmpty (j : Jenjor) (n : Nat) : Jenjor :=
  match j.ring? n with
  | none => j
  | some r =>
    if !holdsClusters r || !r.view.isEmpty then j
    else
      let j := ((j.applySwitches n).announce n).moveClusters n
      let j := if r.defn.any (fun d => d.deep) then (j.setGrant n (min (j.targetGrant n) (j.ungranted n))).regrant else j
      if (j.ring? n).any bereft then j.ringToWaiting n else j.republish n

/-! ### Handing out clusters (R74, R75) -/

/-- A running ring takes new clusters: at its next boundary, or at once while its list is empty (R73, R75). -/
def giveClusters (j : Jenjor) (r : Ring) (cs : List Nat) : Jenjor :=
  let j := j.mapRing r.num fun r => { r with joining := r.joining ++ cs }
  if sweeping r then j else (j.moveClusters r.num).republish r.num

/-- Hand free clusters out under the present targets: a waiting ring that can have its minimum starts at once, a running
ring uses its new clusters from its next boundary (R74, R75). -/
def reassign (j : Jenjor) : Jenjor :=
  let j := j.sw.rings.foldl (fun j r => j.settleEmpty r.num) j
  (assignOrder j.sw.rings).foldl (fun j r0 =>
    match j.ring? r0.num with
    | none => j
    | some r =>
      match r.defn with
      | none => j
      | some d =>
        let give := j.freeClusters.take (j.targetOf r.num - (heldClusters r).length)
        if j.wantsClusters r then
          if d.minC ≤ give.length && (j.sw.rings.filter holdsClusters).length < 16 then j.startRing r.num give else j
        else if holdsClusters r && !give.isEmpty then j.giveClusters r give
        else j) j

/-- Bring a ring to its stop: no query boards from here, queries waiting for rows are answered (R73). -/
def beginStop (j : Jenjor) (n : Nat) (c : Option CmdRef) : Jenjor :=
  let j := j.mapRing n fun r => { r with phase := .stopping, stoppers := r.stoppers ++ c.toList }
  let j := j.abortAll (j.waitersOf n) .ringStopped
  match j.ring? n with
  | none => j
  | some r => if r.view.isEmpty && (j.ridersOf n).isEmpty then (j.stopRing n).reassign else j

end Jenjor

open Jenjor

/-! ### The ring commands -/

/-- The collections of a ring's list once its pending edits have taken effect. -/
def pendingColls (r : Ring) : List Nat :=
  r.switches.foldl (fun cs s =>
    match s with
    | .edit es => es.foldl (fun cs e => if e.1 then cs ++ [e.2.1] else cs.filter (· != e.2.1)) cs
    | .delete n => cs.filter (· != n)
    | .redefine e => e.colls
    | _ => cs) ((r.defn.map fun d => d.colls).getD [])

/-- A collection is on another ring's list, or on its way there (R72). -/
def listedElsewhere (j : Jenjor) (ring n : Nat) : Bool :=
  j.sw.rings.any fun r => r.num != ring && (pendingColls r ++ (r.defn.map fun d => d.colls).getD []).contains n

/-- A rule of R71 that a definition breaks, and the collections it names. -/
def ringDefBad (j : Jenjor) (n : Nat) (d : Desc) (colls : List Nat) : Option Status :=
  let cs := colls.filterMap j.liveColl?
  let deep := dField d 0x15 1 == 1
  let minC := dField d 0x16 1
  let maxC := dField d 0x17 1
  let win := dField d 0x1C 2
  let alt := dField d 0x1A 1
  let shape := j.shapeOf colls
  let m := plateGroupSize ((argmin id (cs.map fun c => c.plateN)).getD 1)
  let plates := natSum (cs.map fun c => (j.collPlates c.num).length)
  let groups := (shape.map fun s => groupsPerCluster s.1).getD 4
  firstStatus
    [ (64 ≤ n, .ringInvalid),
      ((j.ring? n).any (fun r => r.phase != .stopped), .ringBusy),
      (cs.length != colls.length, .addressInvalid),
      (colls.isEmpty || colls.eraseDups.length != colls.length, .ringInvalid),
      (cs.any (fun c => c.deep != deep || shape != some (c.format, c.dim) || listedElsewhere j n c.num), .ringInvalid),
      (minC == 0 || maxC < minC || 16 < maxC || (deep && maxC != 1), .ringInvalid),
      (7 < dField d 0x18 1 || dField d 0x19 1 == 0, .ringInvalid),
      (win != 0 && (win < 16 || 4096 < win), .ringInvalid),
      (alt / 128 == 1 && (alt % 64 == n || (j.ring? (alt % 64)).any fun r =>
          r.defn.any fun a => a.deep || some (a.format, a.dim) != shape), .ringInvalid),
      (plates < 1 || (if deep then 167772160 else 1228800) < plates, .ringInvalid),
      (ceilDiv plates m < 8 * groups * maxC, .ringInvalid) ]

/-- Install a definition (R71): the list view, and a Logbook record for each ring whose alternate it no longer suits. -/
def defineRing (j : Jenjor) (n : Nat) (d : Desc) (colls : List Nat) : Jenjor :=
  match j.shapeOf colls with
  | none => j
  | some (f, dim) =>
    let df : RingDef :=
      { deep := dField d 0x15 1 == 1, alt := if dField d 0x1A 1 / 128 = 1 then some (dField d 0x1A 1 % 64) else none,
        minC := dField d 0x16 1, maxC := dField d 0x17 1, prio := dField d 0x18 1, share := dField d 0x19 1,
        window := if dField d 0x1C 2 = 0 then 256 else dField d 0x1C 2, colls := colls, format := f, dim := dim }
    let j := j.mapRing n fun r => { r with defn := some df, view := colls.flatMap j.viewOf, marks := [] }
    let bad := j.sw.rings.filter fun r => r.defn.any fun a =>
      a.alt == some n && (df.deep || a.format != f || a.dim != dim)
    bad.foldl (fun j r => j.info blkMER r.num 0xFFFF n) j

def ringDefineBody (j : Jenjor) (f : Fetched) (op : List Byte) : Jenjor :=
  let n := dField f.d 0x14 1
  let colls := (halvesOf op).map BitVec.toNat
  if op.length % 2 = 1 then j.refuse f.ref .ringInvalid
  else
    match ringDefBad j n f.d colls with
    | some st => j.refuse f.ref st
    | none =>
      if j.readOnlyNow then j.refuse f.ref .readOnly else (defineRing j n f.d colls).completeCatalogue f.ref 0

/-- RING_DEFINE (R71, R277). -/
def execRingDefine (q : Nat) (op : List Byte) (s : State) : Host.Outcome State Fault Refusal :=
  onBlocks (fun j => j.catalogueCmd q 0x48 op ringDefineBody) s

/-- The 8-byte edit entries of RING_EDIT: (MARK, operation, reserved bits, collection) (R277). -/
def editEntries (op : List Byte) : List (Bool × Nat × Nat × Nat) :=
  (List.range (op.length / 8)).map fun i =>
    let w := fieldAt op (8 * i) 8
    (w / 2 ^ 63 == 1, w / 2 ^ 61 % 4, w / 2 ^ 16 % 2 ^ 45, w % 2 ^ 16)

/-- Check edit entries in order against the list as the earlier ones leave it (R88). -/
def editCheck (j : Jenjor) (ring : Nat) (d : RingDef) : List (Bool × Nat × Nat × Nat) → List Nat → List (Bool × Status)
  | [], _ => []
  | (_, op, res, n) :: es, colls =>
    let bad := match j.liveColl? n with
      | none => (true, Status.addressInvalid)
      | some c =>
        if op = 0 then
          (colls.contains n || listedElsewhere j ring n || c.format != d.format || c.dim != d.dim || c.deep != d.deep,
           Status.ringInvalid)
        else (!colls.contains n, Status.ringInvalid)
    (2 ≤ op || res != 0, Status.descriptorInvalid) :: bad
      :: editCheck j ring d es (if op = 0 then colls ++ [n] else colls.filter (· != n))

def ringEditBody (j : Jenjor) (f : Fetched) (op : List Byte) : Jenjor :=
  let n := dField f.d 0x14 1
  match j.ring? n with
  | none => j.refuse f.ref .ringInvalid
  | some r =>
    match r.defn with
    | none => j.refuse f.ref .ringInvalid
    | some d =>
      let es := editEntries op
      if op.length % 8 != 0 || es.isEmpty || 256 < es.length then j.refuse f.ref .ringInvalid
      else
        match firstStatus ((j.readOnlyNow, .readOnly) :: editCheck j n d es (pendingColls r)) with
        | some st => j.refuse f.ref st
        | none => (j.enterSwitch n (.edit (es.map fun e => (e.2.1 == 0, e.2.2.2, e.1)))).completeCatalogue f.ref 0

/-- RING_EDIT (R88): the view changes at the next ring boundary, or at once when the ring does not sweep. -/
def execRingEdit (q : Nat) (op : List Byte) (s : State) : Host.Outcome State Fault Refusal :=
  onBlocks (fun j => j.catalogueCmd q 0x49 op ringEditBody) s

/-- RING_START (R73, R246): promotion of the plate sets first, then clusters under R74. -/
def ringStartCmd (j : Jenjor) (n : Nat) (starter : Option CmdRef) : Jenjor :=
  let answer := fun (j : Jenjor) (st : Status) (v1 : BitVec 64) =>
    match starter with
    | none => j
    | some c => j.complete c st 0 v1 none
  match j.ring? n with
  | none => answer j .ringInvalid 0
  | some r =>
    match r.defn with
    | none => answer j .ringInvalid 0
    | some d =>
      if r.phase = .running then answer j .success (BitVec.ofNat 64 r.period)
      else if r.phase = .waiting ∨ r.phase = .stopping then answer j .ringBusy 0
      else if j.keyGone then answer j .keyWithdrawn 0
      else if r.view.any fun p => (j.plate? p).any fun p => p.lost then answer j .plateLost 0
      else
        let j := j.mapRing n fun r => { r with phase := .waiting, starter := starter }
        let away := d.colls.filterMap fun c =>
          (j.coll? c).bind fun c => if !d.deep && (j.plateSetTier c != .sweep || j.leavesSweep c.objPlates) then some c else none
        let j := away.foldl (fun j c => j.addSlew c.objPlates .sweep 0 (.ringStart n)) j
        j.reassign

def execRingStart (q : Nat) (s : State) : Host.Outcome State Fault Refusal :=
  onBlocks (fun j =>
    match j.takeCatalogue q 0x4A with
    | none => j
    | some (f, j) => ringStartCmd j (dField f.d 0x14 1) (some f.ref)) s

/-- RING_STOP (R73). -/
def execRingStop (q : Nat) (s : State) : Host.Outcome State Fault Refusal :=
  onBlocks (fun j =>
    match j.takeCatalogue q 0x4B with
    | none => j
    | some (f, j) =>
      let n := dField f.d 0x14 1
      match j.ring? n with
      | none => j.refuse f.ref .ringInvalid
      | some r =>
        if r.defn.isNone then j.refuse f.ref .ringInvalid
        else
          match r.phase with
          | .stopped => j.complete f.ref .success 0 0 none
          | .waiting =>
            let j := match r.starter with
              | none => j
              | some c => j.refuse c .ringStopped
            let j := j.mapRing n fun r => { r with phase := .stopped, starter := none }
            (j.abortAll (j.waitersOf n) .ringStopped).complete f.ref .success 0 0 none
          | .stopping => j.mapRing n fun r => { r with stoppers := r.stoppers ++ [f.ref] }
          | .running => j.beginStop n (some f.ref)) s

end Sys2Proof.Machine
end

