-- ==== Sys2Proof/Machine/Pool.lean ====
section
/-! DEFINITION. Sys2Proof/Machine/Pool.lean: the bytes of sweep memory: channels, raw offsets and check bursts (R293,
R294), code words (R295), encryption (R296) and poison (R305). -/

namespace Sys2Proof.Machine

/-! ### Address layout (R293, R294) -/

/-- The sweep burst of a pool address, its logical channel, and its data burst in the channel. -/
def poolBurst (a : Nat) : Nat := a / 2048

def poolChannel (a : Nat) : Nat := poolBurst a % 80

def dataBurst (a : Nat) : Nat := poolBurst a / 80

/-- The raw offset of a pool address on its channel's device. -/
def rawOffset (a : Nat) : Nat := (dataBurst a / 15 * 16 + dataBurst a % 15) * 2048 + a % 2048

/-- The raw offset of the 4 check bytes of its code word. -/
def checkOffset (a : Nat) : Nat := (dataBurst a / 15 * 16 + 15) * 2048 + 128 * (dataBurst a % 15) + 4 * (a % 2048 / 64)

/-- The poison bit of its code word: the byte of the check burst, and the bit of that byte. -/
def poisonBit (a : Nat) : Nat × Nat :=
  let c := 32 * (dataBurst a % 15) + a % 2048 / 64
  (1920 + c / 8, c % 8)

/-- The pool address of code word `w` of a raw burst of a logical channel; none for a check burst. -/
def codeWordAt (ch burst w : Nat) : Option Nat :=
  if burst % 16 = 15 then none else some (((burst / 16 * 15 + burst % 16) * 80 + ch) * 2048 + 64 * w)

/-! ### Code words (R295) -/

/-- Multiply by α, a root of x⁸ + x⁴ + x³ + x² + 1. -/
def gfAlpha (x : Byte) : Byte := (x <<< 1) ^^^ (if x.msb then 0x1D#8 else 0)

/-- The product of the bits of `a` from bit `i` up, `k` of them, with `b`. -/
def gfMulFrom (a : Byte) : Nat → Nat → Byte → Byte
  | 0, _, _ => 0
  | k + 1, i, b => (if a.getLsbD i then b else 0) ^^^ gfMulFrom a k (i + 1) (gfAlpha b)

def gfMul (a b : Byte) : Byte := gfMulFrom a 8 0 b

def gfPow (x : Byte) : Nat → Byte
  | 0 => 1
  | n + 1 => gfMul x (gfPow x n)

/-- Divide by the generator (x + α⁰)(x + α¹)(x + α²)(x + α³) = x⁴ + 15x³ + 54x² + 120x + 64: the check bytes of 64 data
bytes. Byte 0 of a code word is its highest coefficient (DESIGN CHOICE, log entry 111). -/
def rsCheck (data : List Byte) : List Byte :=
  let step := fun (r : Byte × Byte × Byte × Byte) (b : Byte) =>
    let f := b ^^^ r.1
    (r.2.1 ^^^ gfMul 15 f, r.2.2.1 ^^^ gfMul 54 f, r.2.2.2 ^^^ gfMul 120 f, gfMul 64 f)
  let r := data.foldl step (0, 0, 0, 0)
  [r.1, r.2.1, r.2.2.1, r.2.2.2]

/-- The value of a received word at αᵏ. -/
def syndrome (w : List Byte) (k : Nat) : Byte := w.foldl (fun s b => gfMul s (gfPow 2 k) ^^^ b) 0

/-- What a read that fetches check bytes makes of a code word. -/
inductive Decoded where
  | clean
  | corrected (word : List Byte)
  | uncorrectable
  deriving DecidableEq, Repr

/-- A code word with no error, with an error confined to one byte, or with more. -/
def decodeWord (w : List Byte) : Decoded :=
  let s := (List.range 4).map (syndrome w)
  if s.all (· == 0) then .clean
  else
    let e := s.getD 0 0
    let fits := fun (i : Nat) =>
      e != 0 && (List.range 4).all fun k => gfMul e (gfPow (gfPow 2 k) (w.length - 1 - i)) == s.getD k 0
    match (List.range w.length).find? fits with
    | some i => .corrected (w.modify i fun b => b ^^^ e)
    | none => .uncorrectable

namespace Jenjor

/-! ### Encryption (R296) -/

/-- The key of a unit: the bound tenant's sweep key of the generation that the request names, or while no tenant is bound
the transient key that Dome drew last. -/
def sweepKey (j : Jenjor) (gen : Nat) : Bool × Nat :=
  if j.dom.tenant = .unbound then (true, j.dom.transientKeys) else (false, gen)

/-- The 512 ciphertext bytes of the data unit at a pool address; its tweak is the address ÷ 512. -/
def storedUnit (j : Jenjor) (gen a : Nat) (plain : List Byte) : List Byte := Config.xts (j.sweepKey gen) (a / 512) plain

/-- The code word that the rim writes for a pool address in a data unit (R295): 64 ciphertext bytes and their check
bytes. -/
def storedWord (j : Jenjor) (gen a : Nat) (plain : List Byte) : List Byte :=
  let data := ((j.storedUnit gen a plain).drop (a % 512 / 64 * 64)).take 64
  data ++ rsCheck data

/-! ### Channels and poison (R295, R305, R419) -/

/-- The physical channel that serves a logical channel. -/
def physChannel (j : Jenjor) (l : Nat) : Option Nat := j.mem.chans.findIdx? fun c => c.logical == some l

/-- Count a corrected code word of a physical channel (R295, R419 class 1). -/
def countCorrected (j : Jenjor) (chs : List Nat) : Jenjor :=
  chs.foldl (fun j ch => (j.count blkMEM (0x1008 + ch * 0x40)).fault 1 blkMEM ch (0x1008 + ch * 0x40) 0 0 0) j

/-- A read with check bytes finds the code word at a pool address uncorrectable: it is counted, poisoned, and recorded with
the address and the physical channel. -/
def poisonWord (j : Jenjor) (a cls : Nat) (st : BitVec 8) (what : PoolObject) : Jenjor :=
  match j.physChannel (poolChannel a) with
  | none => j
  | some ch =>
    let j := j.count blkMEM (0x1010 + ch * 0x40)
    let j : Jenjor := { j with mem := { j.mem with
      poison := (a / 64, what) :: j.mem.poison.filter fun x => x.1 != a / 64 } }
    j.fault cls blkMEM ch (0x1010 + ch * 0x40) a st 0

/-- Clear the poison of an object's code words. -/
def healPoison (j : Jenjor) (what : PoolObject) : Jenjor :=
  { j with mem := { j.mem with poison := j.mem.poison.filter fun x => x.2 != what } }

/-- The check burst's poison map of a group of a logical channel (R294). -/
def poisonMap (j : Jenjor) (ch group : Nat) : List Byte :=
  (List.range 60).map fun i =>
    let set := fun (b : Nat) =>
      match codeWordAt ch (group * 16 + (8 * i + b) / 32) ((8 * i + b) % 32) with
      | none => false
      | some a => j.mem.poison.any fun x => x.1 == a / 64
    BitVec.ofNat 8 (natSum ((List.range 8).map fun b => if set b then 2 ^ b else 0))

/-- A plate whose bytes lie in sweep memory: of a sweep-resident set held there, or open (R235). -/
def inSweepMemory (j : Jenjor) (p : Plate) : Bool :=
  p.present && (!p.sealed_ || (j.coll? p.coll).any fun c => j.plateSetTier c == .sweep && !c.deep)

/-- A plate's header is read from sweep memory (R222, R235). -/
def headerInSweep (j : Jenjor) (p : Plate) : Bool := j.inSweepMemory p || (p.present && p.unsettled)

end Jenjor
end Sys2Proof.Machine
end

