-- ==== Sys2Proof/Machine/Scoring.lean ====
section
/-! DEFINITION. Sys2Proof/Machine/Scoring.lean: query conversion (R105 to R110), exact scores (R112 to R116), ranking
keys and their order (R117 to R119, R131), predicates and the summary test (R125 to R130), rerank scores (R151, R153). -/

namespace Sys2Proof.Machine

/-! ### Query conversion -/

/-- The operands a row holds: grid words or float operands, G of R114, μ, C, and how many elements were clamped. -/
structure Operand where
  words : List Int
  floats : List F32
  gsum : Int
  mu : F32
  const : F32
  clamped : Nat
  deriving DecidableEq, Repr

/-- Normalise a vector (R106); none when the norm is zero or not finite. -/
def normalise (q : List F32) : Option (List F32) :=
  let n := norm32 q
  if (Fp.ofF32 n).isZero || !f32IsFinite n then none else some (q.map fun x => f32Div x n)

/-- The exponent e of R107 step 2: the smallest from −122 with 16·M < 32,767.5·2^e. -/
def gridExponent (m : Fp) : Int :=
  match (List.range 300).find? fun (i : Nat) => ((Fp.fin false 32 0).mul m).lt (.fin false 65535 ((i : Int) - 122)) with
  | some i => (i : Int) - 122
  | none => 178

/-- The largest magnitude of a list. -/
def maxAbs (xs : List F32) : Fp :=
  xs.foldl (fun m x =>
    let a := Fp.ofF32 (x &&& 0x7FFFFFFF#32)
    if m.lt a then a else m) Fp.zero

def scaleInt (k : Nat) (x : F32) (e : Int) : Int :=
  match (Fp.fin false k 0).mul (Fp.ofF32 x) with
  | .fin n m ex => roundInt n m (ex - e)
  | _ => 0

/-- R107. -/
def convertGrid (a b q : List F32) : Option Operand :=
  let w := q.zipWith f32Mul a
  if w.any fun x => !f32IsFinite x then none
  else
    let e := gridExponent (maxAbs w)
    let g := w.map fun x => scaleInt 16 x e
    let c := (q.zip b).foldl (fun acc p => f32Fma p.1 p.2 acc) 0
    some { words := g, floats := [], gsum := 0, mu := (Fp.fin false 1 (e - 4)).toF32, const := c, clamped := 0 }

/-- R108. -/
def convertL2 (a : F32) (b q : List F32) : Option Operand :=
  let u := (q.zip b).map fun p => f32Div (f32Sub p.1 p.2) a
  let g := u.map fun x =>
    let y := (Fp.fin false 16 0).mul (Fp.ofF32 x)
    ((y.toIntClamped (-32768) 32767).getD 0, (y.toIntClamped (-(2 ^ 140)) (2 ^ 140)).getD 0)
  let mu := (((Fp.ofF32 (f32Mul a a)).mul (.fin false 1 (-8)))).toF32
  some { words := g.map Prod.fst, floats := [], gsum := g.foldl (fun s x => s + x.1 * x.1) 0, mu := mu, const := 0,
         clamped := (g.filter fun x => x.1 != x.2).length }

/-- R109. -/
def convertFloat (f : Format) (q : List F32) : Operand :=
  { words := [], floats := q.map fun x => (((Fp.ofF32 x).round f.fp).toF32), gsum := 0, mu := 0x3F800000#32, const := 0,
    clamped := 0 }

/-- The conversion unit (R105 to R109) for a collection that is not B1; none is VECTOR_INVALID. -/
def convert (c : Coll) (q : List F32) : Option Operand :=
  if q.length != c.dim || q.any f32IsNaN then none
  else
    match (if c.metric = .cosine then normalise q else some q) with
    | none => none
    | some q =>
      if c.format.isInteger then
        if c.metric = .l2 then convertL2 (f32At c.gridA 0) c.gridB q else convertGrid c.gridA c.gridB q
      else some (convertFloat c.format q)

/-- R110. -/
def operandB1 : Operand := { words := [], floats := [], gsum := 0, mu := 0x3F800000#32, const := 0, clamped := 0 }

/-! ### Scores -/

/-- One dimension in a cell (R113): its product joins the 32-bit accumulator; after every 256th dimension the accumulator
goes into the spill register. -/
def cellStep (f : Format) (s : Cell × Nat) (p : Int × BitVec 16) : Cell × Nat :=
  let acc := s.1.acc + BitVec.ofInt 32 (p.1 * codeInt f p.2)
  (if (s.2 + 1) % 256 = 0 then { acc := 0, spill := s.1.spill + acc.signExtend 48 } else { s.1 with acc := acc }, s.2 + 1)

/-- The last spill of a batch. -/
def Cell.last (k : Cell) : Cell := { acc := 0, spill := k.spill + k.acc.signExtend 48 }

/-- A cell after a batch of an S4, S8 or U8 collection: Σ g_d × c_d stands in its spill register (R112, R113). -/
def cellInt (f : Format) (g : List Int) (codes : List (BitVec 16)) : Cell :=
  ((g.zip codes).foldl (cellStep f) ({ acc := 0, spill := 0 }, 0)).1.last

/-- Σ g_d × c_d (R112). -/
def dotInt (f : Format) (g : List Int) (codes : List (BitVec 16)) : Int := (cellInt f g codes).spill.toInt

/-- The column unit's register: Σ c_d² (R114). -/
def codeSquares (f : Format) (codes : List (BitVec 16)) : BitVec 32 :=
  codes.foldl (fun s c => s + BitVec.ofInt 32 (codeInt f c * codeInt f c)) 0

/-- The drain finisher (R114): 32·P − 256·Q − G in 48-bit signed arithmetic. -/
def finishL2 (p : BitVec 48) (q : BitVec 32) (g : Int) : Int :=
  (32#48 * p - 256#48 * q.setWidth 48 - BitVec.ofInt 48 g).toInt

/-- R114. -/
def scoreL2 (f : Format) (g : List Int) (gsum : Int) (codes : List (BitVec 16)) : Int :=
  finishL2 (cellInt f g codes).spill (codeSquares f codes) gsum

/-- R116: minus the number of differing bit positions. -/
def scoreB1 (bits : List Byte) (codes : List (BitVec 16)) : Int :=
  -(((List.range codes.length).filter fun i =>
      (bits.getD (i / 8) 0).getLsbD (i % 8) != (codes.getD i 0).getLsbD 0).length : Int)

/-- One step of float accumulation (R115). -/
def accStep (l2 : Bool) (acc q x : Fp) : Fp :=
  if l2 then
    let t := (q.sub x).r32
    ((t.neg.mul t).add acc).r32
  else ((q.mul x).add acc).r32

/-- R115: dimensions in ascending order from +0. -/
def scoreFloat (l2 : Bool) (q x : List Fp) : Fp := (q.zip x).foldl (fun acc p => accStep l2 acc p.1 p.2) Fp.zero

/-- The cell of a rider and a record after its batch (R113, R115, R116): a B1 cell counts into its accumulator alone, and
a float cell's accumulator is an FP32 word. -/
def cellOf (c : Coll) (x : Ctx) (codes : List (BitVec 16)) : Cell :=
  if c.format = .b1 then { acc := BitVec.ofInt 32 (scoreB1 x.qbits codes), spill := 0 }
  else if c.format.isInteger then cellInt c.format x.words codes
  else { acc := (scoreFloat (c.metric == .l2) (x.floats.map Fp.ofF32) (codes.map (codeFp c.format))).toF32, spill := 0 }

/-- The score that the drain presents for a cell (R112): an integer, or the FP32 accumulator. -/
def cellScore (c : Coll) (x : Ctx) (codes : List (BitVec 16)) (k : Cell) : Fp :=
  if c.format = .b1 then Fp.ofInt k.acc.toInt
  else if c.format.isInteger then
    Fp.ofInt (if c.metric = .l2 then finishL2 k.spill (codeSquares c.format codes) x.gsum else k.spill.toInt)
  else Fp.ofF32 k.acc

/-- The exact score of a record for a rider. -/
def scoreOf (c : Coll) (x : Ctx) (codes : List (BitVec 16)) : Fp := cellScore c x codes (cellOf c x codes)

/-! ### Ranking keys (R117 to R119) -/

/-- The collection's keys are FP32 words. -/
def fpKeys (c : Coll) : Bool := c.format.isFloat || c.bias.isSome

def fpKeyWord (x : Fp) : Option KeyWord := if x.isNaN then none else some (x.toF32.setWidth 48)

def intOf : Fp → Int
  | .fin n m e => signedAt n m e 0
  | _ => 0

/-- The ranking key word; none for NaN. `beta` is the bias entry when the collection has a plane. -/
def keyWord (c : Coll) (mu : F32) (beta : Option F32) (score : Fp) : Option KeyWord :=
  match beta with
  | some b => fpKeyWord (((score.mul (Fp.ofF32 mu)).add (Fp.ofF32 b)).r32)
  | none => if c.format.isFloat then fpKeyWord score else some (BitVec.ofInt 48 (intOf score))

def keyFp (k : KeyWord) : Fp := Fp.ofF32 (k.setWidth 32)

/-- Key a is greater than key b (R119). -/
def keyGt (fp : Bool) (a b : KeyWord) : Bool := if fp then (keyFp b).lt (keyFp a) else b.toInt < a.toInt

/-- Key a ≥ key b (R136). -/
def keyGe (fp : Bool) (a b : KeyWord) : Bool := !(keyGt fp b a)

/-- The total order (R131): a ranks before b. -/
def ranksBefore (fp : Bool) (a b : KeyWord × BitVec 64) : Bool :=
  keyGt fp a.1 b.1 || (!(keyGt fp b.1 a.1) && a.2.toNat < b.2.toNat)

def Entry.rank (e : Entry) : KeyWord × BitVec 64 := (e.key, e.user)

/-- Insert an entry into a list in total order. -/
def insertEntry (fp : Bool) (e : Entry) : List Entry → List Entry
  | [] => [e]
  | x :: xs => if ranksBefore fp e.rank x.rank then e :: x :: xs else x :: insertEntry fp e xs

/-- Sort by the total order. -/
def sortEntries (fp : Bool) (es : List Entry) : List Entry := es.foldl (fun l e => insertEntry fp e l) []

/-- The first `s` in the total order (R133, R137). -/
def firstOf (fp : Bool) (s : Nat) (es : List Entry) : List Entry := (sortEntries fp es).take s

/-! ### Predicates -/

def Predicate.empty : Predicate := { ctl := 0, masks := [0, 0, 0, 0], values := [0, 0, 0, 0], lo := [0, 0], hi := [0, 0] }

/-- R125. -/
def parsePredicate (bs : List Byte) : Predicate :=
  let d := fun off => BitVec.ofNat 64 (fieldAt bs off 8)
  { ctl := wordAt bs 0, masks := (List.range 4).map fun i => d (8 + 16 * i), values := (List.range 4).map fun i => d (16 + 16 * i),
    lo := [wordAt bs 0x48, wordAt bs 0x50], hi := [wordAt bs 0x4C, wordAt bs 0x54] }

def Predicate.tagMode (p : Predicate) (i : Nat) : Nat := (p.ctl.extractLsb' (2 * i) 2).toNat
def Predicate.rangeOn (p : Predicate) (i : Nat) : Bool := p.ctl.getLsbD (8 + 2 * i)
def Predicate.rangeField (p : Predicate) (i : Nat) : Bool := p.ctl.getLsbD (9 + 2 * i)
def Predicate.mask (p : Predicate) (i : Nat) : BitVec 64 := p.masks.getD i 0
def Predicate.value (p : Predicate) (i : Nat) : BitVec 64 := p.values.getD i 0
def Predicate.low (p : Predicate) (i : Nat) : Nat := (p.lo.getD i 0).toNat
def Predicate.high (p : Predicate) (i : Nat) : Nat := (p.hi.getD i 0).toNat

/-- R127. -/
def predicateBad (bs : List Byte) (s : Sidecar) : Bool :=
  let p := parsePredicate bs
  let tag := fun i =>
    let m := p.mask i
    let v := p.value i
    match p.tagMode i with
    | 0 => m != 0 || v != 0
    | 1 => m == 0 || (v &&& ~~~m) != 0 || s == .bare
    | _ => m == 0 || v != 0 || s == .bare
  let range := fun i =>
    if p.rangeOn i then p.high i < p.low i || s != .full
    else p.low i != 0 || p.high i != 0 || p.rangeField i
  p.ctl.extractLsb' 12 20 != 0 || fieldAt bs 4 4 != 0 || fieldAt bs 0x58 8 != 0
    || (List.range 4).any tag || (List.range 2).any range

def Predicate.tagPass (p : Predicate) (i : Nat) (t : BitVec 64) : Bool :=
  match p.tagMode i with
  | 0 => true
  | 1 => (t &&& p.mask i) == p.value i
  | 2 => (t &&& p.mask i) != 0
  | _ => (t &&& p.mask i) == 0

def Predicate.rangePass (p : Predicate) (i : Nat) (r0 r1 : BitVec 32) : Bool :=
  let r := if p.rangeField i then r1.toNat else r0.toNat
  !p.rangeOn i || (p.low i ≤ r && r ≤ p.high i)

/-- R126. -/
def Predicate.passes (p : Predicate) (r : Rec) : Bool :=
  (List.range 4).all (fun i => p.tagPass i r.tags) && (List.range 2).all fun i => p.rangePass i r.range0 r.range1

/-- R130: the header proves that no record of the plate passes steps 1 to 3 of R128 for this rider. -/
def summaryExcludes (p : Plate) (pr : Predicate) (q : Nat) : Bool :=
  let tag := fun i =>
    let m := pr.mask i
    let v := pr.value i
    match pr.tagMode i with
    | 0 => false
    | 1 => (v &&& ~~~p.tagUnion) != 0 || (p.tagInter &&& m &&& ~~~v) != 0
    | 2 => (p.tagUnion &&& m) == 0
    | _ => (p.tagInter &&& m) != 0
  let range := fun i =>
    pr.rangeOn i && (if pr.rangeField i then pr.high i < p.min1 || p.max1 < pr.low i
                     else pr.high i < p.min0 || p.max0 < pr.low i)
  p.recs.isEmpty || (p.settled.isEmpty && q < p.epochBase + p.minDelta)
    || (List.range 4).any tag || (List.range 2).any range

/-! ### Rerank scores (R151, R153) -/

/-- Round an FP32 vector to a store's element format, as values. -/
def storeOperand (f : Format) (q : List F32) : List Fp := q.map fun x => (Fp.ofF32 x).round f.fp

/-- The maximum over a record's token vectors for one query vector; none when any score is NaN. -/
def maxSim (l2 : Bool) (q : List Fp) (xs : List (List Fp)) : Option Fp :=
  match xs.map (scoreFloat l2 q) with
  | [] => some Fp.zero
  | s :: ss =>
    if (s :: ss).any Fp.isNaN then none else some (ss.foldl (fun m x => if m.lt x then x else m) s)

/-- Late interaction: Σ over query vectors of the maxima (R153). -/
def lateScore (l2 : Bool) (qs : List (List Fp)) (xs : List (List Fp)) : Fp :=
  qs.foldl (fun t q =>
    match maxSim l2 q xs with
    | none => .nan
    | some m => (t.add m).r32) Fp.zero

/-- The rerank key from S_r (R151 step 3). -/
def rerankKey (beta : Option F32) (unnorm : Bool) (nu : F32) (s : Fp) : Fp :=
  match beta with
  | none => if unnorm then (s.mul (Fp.ofF32 nu)).r32 else s
  | some b => ((s.mul (if unnorm then Fp.ofF32 nu else Fp.one)).add (Fp.ofF32 b)).r32

/-- −∞, the rerank key of a record without a stored vector (R152). -/
def negInfKey : KeyWord := 0xFF800000#48

end Sys2Proof.Machine
end

