-- ==== Sys2Proof/Machine/Query.lean ====
section
/-! DEFINITION. Sys2Proof/Machine/Query.lean: a query's entry into a context (R132, R140, R271 to R275), conversion
(R105 to R111) and loading (R81), and the results it can leave with (R280 to R290): QUERY_VECTOR and
ROW_LOAD_COMPLETE. -/

namespace Sys2Proof.Machine
open Jenjor

/-! ### Fields of a query descriptor (R271, R272) -/

def qK (d : Desc) : Nat := dField d 0x24 2 % 2048
def qKp (d : Desc) : Nat := dField d 0x26 2 % 2048
def qThreshold (d : Desc) : KeyWord := BitVec.ofNat 48 (dField d 0x28 6)
def qDeadline (d : Desc) : Nat := dField d 0x30 4
def qCtl (d : Desc) : Nat := dField d 0x34 1
def qRange (d : Desc) : Bool := qCtl d % 4 == 1
def qRerank (d : Desc) : Nat := qCtl d / 4 % 4
def qSpec (d : Desc) : Bool := qCtl d / 16 % 2 == 1
def qUnnorm (d : Desc) : Bool := qCtl d / 32 % 2 == 1
def qPayloads (d : Desc) : Bool := qCtl d / 64 % 2 == 1
def qPred (d : Desc) : Bool := qCtl d / 128 % 2 == 1
def qTokens (d : Desc) : Bool := dField d 0 1 == 0x11
def qDelivery (d : Desc) : Nat := dField d 0x3C 2 % 4096

/-- Selection depth s (R132). -/
def selectDepth (d : Desc) : Nat := if qRange d then 4096 else if qRerank d = 0 then qK d else qKp d

/-- Payload table of a collection resides in the vault. -/
def payloadInVault (j : Jenjor) (c : Coll) : Bool :=
  c.payloadMax != 0 && (j.obj? c.objPayload).any fun o => o.tier == .vault

/-- Largest result record of a query (R275). -/
def maxResult (c : Coll) (d : Desc) : Nat :=
  let e := if qRange d then 4096 else qK d
  32 + 16 * e + (if qPayloads d then e * (8 + pad8 c.payloadMax) else 0)

/-- Byte offsets of the operand area's parts (R273): vector or tokens, query token vectors, rerank vector, and the end of
the last part. -/
structure Parts where
  vec : Nat
  vecLen : Nat
  tok : Nat
  tokLen : Nat
  rr : Nat
  rrLen : Nat
  total : Nat
  deriving DecidableEq, Repr

def partsOf (c : Coll) (d : Desc) : Parts :=
  let vec := if qPred d then 96 else 0
  let vecLen := if qTokens d then 4 * dField d 0x38 2 else inputBytes (dField d 0x3B 1) c.dim
  let tokLen := if qTokens d then 0 else dField d 0x3A 1 * c.dim * 4
  let rrLen := if qRerank d = 1 && c.format == .b1 && !qTokens d then 4 * c.dim else 0
  let tok := pad8 (vec + vecLen)
  let rr := if tokLen = 0 then tok else pad8 (tok + tokLen)
  let total := if rrLen ≠ 0 then rr + rrLen else if tokLen ≠ 0 then tok + tokLen else vec + vecLen
  { vec := vec, vecLen := vecLen, tok := tok, tokLen := tokLen, rr := rr, rrLen := rrLen, total := total }

/-- A key word that is a proper word of the collection's key kind (R132, R140). -/
def keyWordOk (fp : Bool) (k : KeyWord) : Bool := !fp || (k.toNat < 2 ^ 32 && !(keyFp k).isNaN)

/-- Parameter rules of R132, R140, R271 and R275. -/
def queryParamBad (j : Jenjor) (c : Coll) (d : Desc) : Bool :=
  let rr := qRerank d
  let k := qK d
  let kp := qKp d
  let th := qThreshold d
  let fp := fpKeys c
  let nq := dField d 0x3A 1
  let dl := qDeadline d
  let needsDl := rr != 0 || (qPayloads d && payloadInVault j c)
  (if qRange d then k != 0 || kp != 0 || rr != 0 || !keyWordOk fp th
   else k == 0 || 1024 < k || (if rr = 0 then kp != 0 else kp < k || 1024 < kp)
          || (qSpec d && (!keyWordOk fp th || (if fp then (keyFp th).lt Fp.zero else th.toInt < 0))))
    || (rr == 1 && c.store == .none) || (rr == 2 && c.store != .multi)
    || (qUnnorm d && (rr != 1 || c.metric != .cosine || c.sidecar != .full))
    || (!qTokens d && (if rr = 2 then nq == 0 || 64 < nq else nq != 0))
    || (dl != 0 && (dl < 10 || 1000000 < dl)) || (needsDl && dl == 0)
    || dField d 0x14 4 < maxResult c d || dField d 0x18 8 % 64 != 0 || dField d 0x08 8 % 8 != 0

/-- The delivery queue field names something that is not a delivery queue (R285). -/
def deliveryBad (j : Jenjor) (n : Nat) : Bool := n != 0 && (j.queue? n).all fun q => q.kind != 4

/-- A token-sequence query on a B1 collection that supplies a rerank vector of its own beside its tokens (R173). -/
def suppliesRerank (c : Coll) (d : Desc) (op : List Byte) : Bool :=
  c.format == .b1 && qRerank d == 1 && op.length == pad8 (partsOf c d).total + 4 * c.dim && dField d 0x10 4 == op.length

/-- Stage-2 checks that both query commands share (R270). -/
def queryChecks (j : Jenjor) (d : Desc) (op : List Byte) : List (Bool × Status) :=
  match j.liveColl? (dField d 4 2) with
  | none => [(true, .unknownCollection)]
  | some c =>
    let fmt := dField d 0x3B 1
    let p := partsOf c d
    [ (j.keyGone, .keyWithdrawn),
      (qTokens d && suppliesRerank c d op, .parameterInvalid),
      (!(qTokens d && suppliesRerank c d op) && (dField d 0x10 4 != p.total || op.length != p.total), .vectorInvalid),
      (!qTokens d && ((fmt == 4) != (c.format == .b1)), .vectorInvalid),
      (qPred d && predicateBad (bytesAt op 0 96) c.sidecar, .predicateInvalid),
      (queryParamBad j c d, .parameterInvalid),
      ((j.ringOf c.num).all fun r => r.phase != .running, .ringStopped),
      (deliveryBad j (qDelivery d), .queueInvalid) ]

/-- A vector query whose vector is not D elements long: the conversion unit counts its refusal (R105). -/
def wrongLength (j : Jenjor) (d : Desc) (op : List Byte) : Bool :=
  (j.liveColl? (dField d 4 2)).any fun c => op.length != (partsOf c d).total || dField d 0x10 4 != (partsOf c d).total

/-- Refuse a query at its context entry. -/
def refuseQuery (j : Jenjor) (f : Fetched) (op : List Byte) (st : Status) : Jenjor :=
  (if st = .vectorInvalid && !qTokens f.d && wrongLength j f.d op then j.count blkTRN 0x2010 else j).refuse f.ref st

/-! ### Rows (R18, R81, R83, R104) -/

/-- Order in which queries wait for rows: priority, then arrival (R18, R268). -/
def waitKey (c : Ctx) : Nat := (7 - c.priority) * 2 ^ 64 + c.arrival

/-- Load queries waiting for rows of a ring into its free slots, lowest slot first. -/
def fillRows (ring : Nat) : Nat → Jenjor → Jenjor
  | 0, j => j
  | fuel + 1, j =>
    match j.ring? ring with
    | none => j
    | some r =>
      let cap := (r.defn.map fun d => reticle d.format).getD 0
      match (List.range cap).find? (fun s => !(r.rows.any fun x => x.slot == s)),
            argmin waitKey (j.sw.ctxs.filter fun c => c.ring == ring && c.phase == .waiting) with
      | some s, some c =>
        if r.phase = .running then
          let j := j.mapRing ring fun r => { r with rows := r.rows ++ [{ slot := s, ctx := c.id, alighted := false, freed := [] }] }
          fillRows ring fuel (j.mapCtx c.id fun c => { c with phase := .loading, row := some s })
        else j
      | _, _ => j

def Jenjor.loadRows (j : Jenjor) (ring : Nat) : Jenjor := fillRows ring 256 j

/-! ### Conversion and entry -/

/-- The FP32 vectors of a part: `n` vectors of `d` words. -/
def vectorsAt (op : List Byte) (off n d : Nat) : List (List F32) :=
  (List.range n).map fun i => wordsOf (bytesAt op (off + i * d * 4) (d * 4))

/-- A query token vector or rerank vector that R140 refuses. -/
def rerankVecBad (cosine : Bool) (v : List F32) : Bool := v.any f32IsNaN || (cosine && (normalise v).isNone)

/-- Put the operands of a conversion into a context (R105 to R110), with its query vector. Once GRID_CLAMPED is set, a
reconversion that clamps nothing leaves it set (R108; DESIGN CHOICE, log entry 107). -/
def setOperand (c : Ctx) (o : Operand) (gen : Nat) : Ctx :=
  { c with words := o.words, floats := o.floats, gsum := o.gsum, mu := o.mu, const := o.const, gridGen := gen,
           clamped := c.clamped || 0 < o.clamped }

/-- Convert a query in its context and let it wait for a row; refusals complete it with VECTOR_INVALID and are counted
(R105). `bits` are a B1 query's bytes. -/
def enterConversion (j : Jenjor) (id : Nat) (vec : List F32) (bits : List Byte) : Jenjor :=
  match j.ctx? id with
  | none => j
  | some x =>
    match j.coll? x.coll with
    | none => j.abortCtx id .unknownCollection
    | some c =>
      let cosine := c.metric == .cosine
      let badExtra := x.qtok.any (rerankVecBad cosine) || rerankVecBad cosine x.rvec && !x.rvec.isEmpty
      let o := if c.format = .b1 then some operandB1 else convert c vec
      match (if badExtra then none else o) with
      | none => (j.count blkTRN 0x2010).abortCtx id .vectorInvalid
      | some o =>
        let j := if o.clamped = 0 then j else j.bump (blkBase blkTRN + 0x2008) o.clamped
        match j.ringOf c.num with
        | none => j.abortCtx id .ringStopped
        | some r =>
          if r.phase != .running then j.abortCtx id .ringStopped
          else
            let j := j.mapCtx id fun x =>
              { setOperand x o c.gridGen with q32 := vec, qbits := bits, phase := .waiting, ring := r.num,
                                              stretched := x.stretched || r.stretched }
            j.loadRows r.num

/-- A context for a query (R19): pinned to an epoch and a frame where a cross-check is asked for (R359). -/
def makeCtx (j : Jenjor) (f : Fetched) (op : List Byte) (xtag : Option (Nat × Bool)) (epoch frame : Nat) : Nat × Jenjor :=
  let id := j.sw.arrivals
  let coll := dField f.d 4 2
  let c := j.coll? coll
  let parts := c.map fun c => partsOf c f.d
  let nq := if qTokens f.d then 0 else dField f.d 0x3A 1
  let dim := (c.map fun c => c.dim).getD 0
  let x : Ctx :=
    { id := id, ref := f.ref, d := f.d, coll := coll, ring := 64, priority := ((j.queue? f.ref.q).map fun q => q.priority).getD 0,
      arrival := id, phase := .encoding, pred := if qPred f.d then parsePredicate (bytesAt op 0 96) else Predicate.empty,
      model := dField f.d 0x36 1 % 8, tokens := [], q32 := [], qbits := [],
      qtok := (parts.map fun p => vectorsAt op p.tok nq dim).getD [],
      rvec := (parts.map fun p => wordsOf (bytesAt op p.rr p.rrLen)).getD [],
      words := [], floats := [], gsum := 0, mu := 0, const := 0, gridGen := 0, clamped := false, row := none,
      epoch := epoch, frame := frame, view := [], pinned := xtag.isSome, owed := [], list := [], boundary := none, lanes := [],
      selecting := false, matchCount := 0, qualCount := 0, nanCount := 0, specIssued := 0, specTodo := [], alighted := 0,
      coarse := [], rpos := 0, scored := [], probed := 0, pins := [], final := [],
      reranked := false, payloads := [], vaultPay := false, deferred := qTokens f.d && j.isl.shedStep != 0, stretched := false, tookCoarse := false, t0 := j.time,
      boardTime := 0, mergeTime := 0, xtag := xtag, xpeer := none, psn := 0 }
  (id, { j with sw := { j.sw with ctxs := j.sw.ctxs ++ [x], arrivals := id + 1 } })

/-- The context of a query fetched here. In cross-check mode it is pinned to the last published epoch and the current
frame, and goes to the companion in XQUERY (R359). -/
def newCtx (j : Jenjor) (f : Fetched) (op : List Byte) : Nat × Jenjor :=
  let pin := j.pairedIn 3
  let frame := (((j.coll? (dField f.d 4 2)).bind fun c => c.bias).map fun b => b.frame).getD 0
  let (id, j) := makeCtx j f op (if pin then some (j.sw.arrivals, true) else none) j.wr.epoch frame
  (id, if pin then j.sendCpn 0x09 id j.wr.epoch frame (leBytes 64 f.d.toNat ++ op) else j)

/-- Take a vector query into conversion. -/
def enterVector (j : Jenjor) (id : Nat) (c : Coll) (d : Desc) (op : List Byte) : Jenjor :=
  let p := partsOf c d
  let bytes := bytesAt op p.vec p.vecLen
  if dField d 0x3B 1 = 4 then enterConversion j id [] bytes else enterConversion j id (widen (dField d 0x3B 1) bytes) []

/-- QUERY_VECTOR (R271). -/
def execQueryVector (q : Nat) (op : List Byte) (s : State) : Host.Outcome State Fault Refusal :=
  onBlocks (fun j =>
    match j.takeData q 0x10 with
    | none => j
    | some (f, j) =>
      match firstStatus (queryChecks j f.d op) with
      | some st => refuseQuery j f op st
      | none =>
        match j.liveColl? (dField f.d 4 2) with
        | none => j.refuse f.ref .unknownCollection
        | some c =>
          let (id, j) := newCtx j f op
          enterVector j id c f.d op) s

/-- ROW_LOAD_COMPLETE (R81): the row is loaded in every group. -/
def execRowLoadComplete (ctx : Nat) (s : State) : Host.Outcome State Fault Refusal :=
  onBlocks (fun j => j.mapCtx ctx fun c =>
    if c.phase == .loading || c.phase == .reloading then { c with phase := .loaded } else c) s

/-! ### Result records (R280 to R284, R290) -/

/-- Result flags of R281 that apply to a query. -/
def resultFlags (fpk reranked deferred clamped stretched stale trunc partShards coarse mask : Bool) : Nat :=
  (if coarse then 1 else 0) + (if partShards then 2 else 0) + (if trunc then 4 else 0) + (if stale then 8 else 0)
    + (if stretched then 16 else 0) + (if clamped then 32 else 0) + (if deferred then 64 else 0)
    + (if mask then 128 else 0) + (if reranked then 256 else 0) + (if fpk then 512 else 0)

/-- The one status of a query with a result (R290). -/
def resultStatus (stretched coarse partShards trunc stale : Bool) : Status :=
  if stretched then .periodStretched else if coarse then .deadlineCoarse else if partShards then .partialShards
  else if trunc then .truncated else if stale then .staleSince else .success

/-- A 32-byte result header (R280). -/
def resultHeader (count flags len nan : Nat) (mu const : F32) (matches_ qual : Nat) : List Byte :=
  leBytes 2 count ++ leBytes 2 flags ++ leBytes 4 len ++ leBytes 4 (min nan 0xFFFFFFFF) ++ leBytes 4 mu.toNat
    ++ leBytes 4 const.toNat ++ leBytes 5 matches_ ++ leBytes 5 qual ++ leBytes 2 0

/-- A 16-byte result entry (R282). -/
def resultEntry (user : BitVec 64) (key : KeyWord) (payload record hasPay : Bool) (shard : Nat) : List Byte :=
  leBytes 8 user.toNat ++ leBytes 6 key.toNat
    ++ leBytes 2 ((if payload then 0x8000 else 0) + (if record then 0x4000 else 0) + (if hasPay then 0x2000 else 0) + shard)

/-- A payload block (R283). -/
def payloadBlock (i : Nat) (bytes : List Byte) : List Byte :=
  leBytes 8 (i + bytes.length * 65536) ++ bytes ++ leBytes (pad8 bytes.length - bytes.length) 0

/-- The entries a query returns: on the coarse path the first k of the coarse list, or all of it in range mode, which has
no k (R132, R156). -/
def resultEntries (x : Ctx) (coarse : Bool) : List Entry :=
  if !coarse then x.final else if qRange x.d then x.coarse else x.coarse.take (qK x.d)

/-- The result record of a query (R280 to R283). -/
def resultRecord (fpCoarse : Bool) (x : Ctx) (stale coarse timing : Bool) : List Byte :=
  let es := resultEntries x coarse
  let rer := x.reranked && !coarse
  let idx := List.range es.length
  let pay := if coarse then [] else x.payloads
  let area := idx.flatMap fun i =>
    match pay.lookup i with
    | none => []
    | some bs => payloadBlock i bs
  let trunc := qRange x.d && 4096 < x.qualCount
  let flags := resultFlags (rer || fpCoarse) rer (timing && x.deferred) x.clamped (timing && x.stretched) (timing && stale)
    trunc false coarse false
  let len := 32 + 16 * es.length + area.length
  resultHeader es.length flags len x.nanCount x.mu x.const x.matchCount (if qRange x.d then x.qualCount else 0)
    ++ (es.zip idx).flatMap (fun p =>
          resultEntry p.1.user p.1.key ((pay.lookup p.2).isSome) p.1.hasRecord p.1.hasPayload 0)
    ++ area

end Sys2Proof.Machine
end

