-- ==== Sys2Proof/Machine/Sweep.lean ====
section
/-! DEFINITION. Sys2Proof/Machine/Sweep.lean: plate groups from deal to boundary (R76 to R92, R96), plate loss (R423,
R424), and the tests in the stream (R128): PLATE_GROUP_DEAL, PLATE_FILL_COMPLETE, PLATE_RECHECK_COMPLETE, FLIP,
BATCH_ACCUMULATE_END, RING_BOUNDARY, RING_STRETCH, STEP_PLATE_LOSS, PLATE_RESTORE_COMPLETE, PLATE_MASTER_LOST. -/

namespace Sys2Proof.Machine
open Jenjor

/-! ### Stretches (R96) -/

/-- RING_STRETCH (R96). -/
def execRingStretch (ring : Nat) (s : State) : Host.Outcome State Fault Refusal :=
  onUnit (decide (ring < 64)) (onBlocks (fun j => j.stretchCheck ring) s)

/-! ### Plate loss (R423, R424) -/

/-- The rings whose plate-list view holds a plate. -/
def ringsHolding (j : Jenjor) (pid : Nat) : List Nat :=
  (j.sw.rings.filter fun r => r.view.contains pid).map fun r => r.num

/-- A plate's collection and number, as Logbook detail (R427). -/
def plateDetail (p : Plate) : BitVec 256 := BitVec.ofNat 256 (p.coll * 2 ^ 32 + p.num)

/-- An uncorrectable plate read (R423): every rider of the rings that hold the plate is aborted, the plate is
quarantined and its restore begins. -/
def Jenjor.plateLoss (j : Jenjor) (pid : Nat) : Jenjor :=
  match j.plate? pid with
  | none => j
  | some p =>
    let rings := ringsHolding j pid
    let j := j.fault 2 blkMEM 0 0xFFFF 0 Status.plateLost.code (plateDetail p)
    let j := j.abortAll ((j.sw.ctxs.filter fun c =>
      c.phase == .riding && (rings.contains c.ring || c.view.contains pid)).map fun c => c.id) .plateLost
    j.mapPlate pid fun p => { p with quarantined := true }

/-- STEP_PLATE_LOSS (R423). -/
def execStepPlateLoss (pid : Nat) (s : State) : Host.Outcome State Fault Refusal := onBlocks (fun j => j.plateLoss pid) s

/-- A plate that neither its master nor a companion can supply is lost (R424): its rings stop. -/
def Jenjor.masterLost (j : Jenjor) (pid : Nat) : Jenjor :=
  match j.plate? pid with
  | none => j
  | some p =>
    if j.cpn.pair.pairState == .paired then j
    else
      let j := j.fault 2 blkMEM 0 0xFFFF 0 Status.plateLost.code (plateDetail p)
      let rings := ringsHolding j pid
      let j := j.mapPlate pid fun p => { p with lost := true, quarantined := false }
      rings.foldl (fun j n =>
        let j := j.abortAll (j.waitersOf n) .plateLost
        match j.ring? n with
        | none => j
        | some r =>
          match r.phase with
          | .running => j.beginStop n none
          | .waiting =>
            let j := j.mapRing n fun r => { r with phase := .stopped, starter := none }
            match r.starter with
            | none => j
            | some c => j.refuse c .plateLost
          | _ => j) j

/-- PLATE_MASTER_LOST (R424). -/
def execPlateMasterLost (pid : Nat) (s : State) : Host.Outcome State Fault Refusal := onBlocks (fun j => j.masterLost pid) s

/-- PLATE_RESTORE_COMPLETE (R423 steps 3 and 4): `ok` is validation under R59. The write at the pool address clears
poison (R305). -/
def execPlateRestoreComplete (pid : Nat) (ok : Bool) (s : State) : Host.Outcome State Fault Refusal :=
  onBlocks (fun j =>
    match j.plate? pid with
    | none => j
    | some p =>
      if !p.quarantined then j
      else if !ok then j.masterLost pid
      else
        (j.mapPlate pid fun p => { p with quarantined := false, present := true }).healPoison (.plate pid)) s

/-! ### Dealing (R85 to R87, R92) -/

/-- A clock ceiling of a reloaded plan takes effect at ring `n`'s next boundary (R10, R409): of a cluster that sweeps, at
its own ring's; of any other island, at the first of any ring. -/
def ceilDue (j : Jenjor) (n i : Nat) : Bool :=
  let own := if 7 ≤ i && i < 25 then ((j.cluster? (i - 7)).bind fun c => c.home.bind j.ring?).filter sweeping else none
  (j.island i).ceilNext.isSome && own.all fun r => r.num == n

/-- Something waits for the ring's next boundary, so that a dependence mark lies there (R87): a switch, a change of its
clusters, or what a section reload changes at a boundary (R409). -/
def boundaryMarked (j : Jenjor) (r : Ring) : Bool :=
  !r.switches.isEmpty || !r.leaving.isEmpty || !r.joining.isEmpty || j.alm.reloads.any (fun x => x.persisted)
    || (List.range 29).any (ceilDue j r.num)

/-- List entries from the next position to deal: the rest of this pass, then with no mark at the boundary the next pass
(R87). -/
def entriesToDeal (j : Jenjor) (r : Ring) : List Nat :=
  if r.passPos < r.passList.length then r.passList.drop r.passPos
  else if boundaryMarked j r then []
  else r.view.drop (r.passPos - r.passList.length)

/-- An entry with a dependence mark before it: held until every plate group dealt before it has finished; the entry of
a quarantined plate is held until it is back (R87). -/
def markedEntry (j : Jenjor) (r : Ring) (pid : Nat) : Bool := r.marks.contains pid || (j.plate? pid).any fun p => p.quarantined

/-- The plates of the next plate group: at most m, stopping before a mark. -/
def takeGroup (j : Jenjor) (r : Ring) : List Nat :=
  match entriesToDeal j r with
  | [] => []
  | p :: ps =>
    if (j.plate? p).any (fun x => x.quarantined) then []
    else if r.marks.contains p && !(j.outstanding r.num).isEmpty then []
    else p :: (ps.take (r.pgSize - 1)).takeWhile fun q => !markedEntry j r q

/-- Within the run-ahead window (R86). -/
def inWindow (j : Jenjor) (r : Ring) (d : RingDef) : Bool :=
  (j.outstanding r.num).all fun pg => r.passPos ≤ pg.pos + d.window

/-- A group that takes new plate groups: its cluster and number, the plate groups queued before it, and its measured
rate. -/
structure DealTarget where
  cluster : Nat
  group : Nat
  queued : Nat
  rate : Rate

/-- The groups of a ring's clusters that take new plate groups. A retiring cluster takes none (R421). -/
def dealTargets (j : Jenjor) (r : Ring) (d : RingDef) : List DealTarget :=
  (j.sw.clusters.filter fun c => r.clusters.contains c.num && !c.retiring && !c.failed).flatMap fun c =>
    (c.groups.zip (List.range c.groups.length)).map fun g =>
      { cluster := c.num, group := g.2, queued := g.1.queue.length + g.1.fill.toList.length,
        rate := measuredGroups (groupShare j r d) r.pgSize g.1 }

/-- Queued ÷ measured rate is less at one group than at another (R85). -/
def DealTarget.less (x y : DealTarget) : Bool := x.queued * x.rate.den * y.rate.num < y.queued * y.rate.den * x.rate.num

/-- Least queued ÷ measured rate, the first of equals (R85). -/
def leastLoaded : List DealTarget → Option (Nat × Nat)
  | [] => none
  | x :: xs =>
    let b := xs.foldl (fun b y => if y.less b then y else b) x
    some (b.cluster, b.group)

/-- The alternate ring that a ring's clusters may serve (R71). -/
def alternateOf (j : Jenjor) (d : RingDef) : Option Ring :=
  (d.alt.bind j.ring?).bind fun r =>
    if r.phase == .running && r.defn.any (fun a => !a.deep && a.format == d.format && a.dim == d.dim) then some r else none

/-- A group that may take a plate group of its alternate ring (R92): its home fill is not ready and its compute half has
drained. -/
def mayServe (j : Jenjor) (c g alt : Nat) : Bool :=
  match j.cluster? c, j.group? c g with
  | some x, some y =>
    y.drained && !(y.fill.any fun pg => pg.ready) && !x.retiring
      && ((x.home.bind j.ring?).bind fun h => h.defn.bind (alternateOf j)).any fun a => a.num == alt
  | _, _ => false

/-- Put a plate group before a group: into its fill half, or its queue. An alternate ring's plate group goes ahead of
the home ring's. -/
def enqueue (front : Bool) (pg : PlateGroup) (g : Group) : Group :=
  match g.fill with
  | none => { g with fill := some pg }
  | some h => if front then { g with fill := some pg, queue := h :: g.queue } else { g with queue := g.queue ++ [pg] }

/-- PLATE_GROUP_DEAL (R85): `altFor` names the group that asks for a plate group of this ring as its alternate. -/
def execPlateGroupDeal (ring : Nat) (altFor : Option (Nat × Nat)) (s : State) : Host.Outcome State Fault Refusal :=
  onUnit (decide (ring < 64)) (onBlocks (fun j =>
    match j.ring? ring with
    | none => j
    | some r0 =>
      -- a ring whose list was empty begins a pass once it has one (R73)
      let j := if r0.passList.isEmpty && !r0.view.isEmpty && holdsClusters r0 then j.beginPass ring else j
      match j.ring? ring with
      | none => j
      | some r =>
        match r.defn with
        | none => j
        | some d =>
          let pids := takeGroup j r
          let dest := match altFor with
            | none => leastLoaded (dealTargets j r d)
            | some (c, g) => if mayServe j c g ring then some (c, g) else none
          match dest with
          | none => j
          | some (c, g) =>
            if !holdsClusters r || pids.isEmpty || !inWindow j r d || j.isl.whole then j
            else
              let lost := pids.filter fun p => (j.plate? p).any fun x => x.lost
              let pg : PlateGroup :=
                { ring := ring, pos := r.passPos, pids := pids, skip := lost, snap := [], ready := false, recheck := [] }
              (j.mapGroup c g (enqueue altFor.isSome pg)).mapRing ring fun r => { r with passPos := r.passPos + pids.length }) s)

/-! ### Fills (R297, R298, R316) -/

/-- The riders whose row a plate group enables: those that ride its ring and owe a plate of it (R82). -/
def owing (j : Jenjor) (pg : PlateGroup) : List Ctx :=
  j.sw.ctxs.filter fun c => c.ring == pg.ring && c.phase == .riding
    && c.owed.any fun p => pg.pids.contains p && !pg.skip.contains p

/-- The header excludes every rider: no data area is fetched (R91). -/
def skipped (cs : List Ctx) (p : Plate) : Bool :=
  !cs.isEmpty && cs.all fun c => summaryExcludes p c.pred c.epoch

/-- One plate of a fill: what its checks make of it. The result is the plate group with the plate set aside for a
re-read or taken out as lost. Reads of sweep memory that fetch check bytes, of a header once more and of an open plate,
count what they correct and poison what they cannot (R295, R305). -/
def fillPlate (c g : Nat) (riders : List Ctx) (j : Jenjor) (p : Plate) (k : FillCheck) : Jenjor :=
  let mark := fun (j : Jenjor) (f : PlateGroup → PlateGroup) => j.mapGroup c g fun x => { x with fill := x.fill.map f }
  let checked := (!k.hdrOk && j.headerInSweep p) || (!p.sealed_ && j.inSweepMemory p)
  let bad := checked && !k.uncorr.isEmpty
  let lost := fun (j : Jenjor) => (mark j fun pg => { pg with skip := p.pid :: pg.skip }).plateLoss p.pid
  let j := if checked then j.countCorrected k.corrected else j
  let j := if bad then k.uncorr.foldl (fun j a => j.poisonWord a 1 0 (.plate p.pid)) j else j
  if bad || (!k.hdrOk && !k.hdrReread) then lost j
  else if k.dataOk || skipped riders p then j
  else if p.sealed_ then mark j fun pg => { pg with recheck := pg.recheck ++ [p.pid] }
  else lost j

def allGood : FillCheck := { hdrOk := true, hdrReread := true, dataOk := true, corrected := [], uncorr := [] }

/-- PLATE_FILL_COMPLETE (R297, R316). -/
def execPlateFillComplete (c g : Nat) (checks : List FillCheck) (s : State) : Host.Outcome State Fault Refusal :=
  onUnit (decide (c < 18)) (onBlocks (fun j =>
    match (j.group? c g).bind fun x => x.fill with
    | none => j
    | some pg =>
      if pg.ready || !pg.recheck.isEmpty then j
      else
        let riders := owing j pg
        let ps := (pg.pids.filter fun p => !pg.skip.contains p).filterMap j.plate?
        let j := (ps.zip (List.range ps.length)).foldl (fun j x => fillPlate c g riders j x.1 (checks.getD x.2 allGood)) j
        j.mapGroup c g fun x => { x with fill := x.fill.map fun pg => { pg with ready := pg.recheck.isEmpty } }) s)

/-- PLATE_RECHECK_COMPLETE (R298, R316): `ok` says that the CRC matches once every code word is decoded. -/
def execPlateRecheckComplete (c g pid : Nat) (ok : Bool) (words : WordsFound) (s : State) :
    Host.Outcome State Fault Refusal :=
  onUnit (decide (c < 18)) (onBlocks (fun j =>
    match (j.group? c g).bind fun x => x.fill with
    | none => j
    | some pg =>
      if !pg.recheck.contains pid then j
      else
        let pool := (j.plate? pid).any j.inSweepMemory
        let ok := ok && (!pool || words.uncorr.isEmpty)
        let j := if pool then j.countCorrected words.corrected else j
        let j := if pool then words.uncorr.foldl (fun j a => j.poisonWord a 1 0 (.plate pid)) j else j
        let j := j.mapGroup c g fun x => { x with fill := x.fill.map fun pg =>
          { pg with recheck := pg.recheck.erase pid, ready := (pg.recheck.erase pid).isEmpty,
                    skip := if ok then pg.skip else pid :: pg.skip } }
        if !ok then j.plateLoss pid
        else if !pool then j
        else (j.count blkMEM 0x10).fault 1 blkMEM 0 0x10 0 0 (BitVec.ofNat 256 pid)) s)

/-! ### Finishing, rows and boarding (R82, R83, R89) -/

/-- Finish the compute half's plate group: its time for the measured rate, its rows gated. -/
def Jenjor.finishGroup (j : Jenjor) (c g : Nat) : Jenjor :=
  j.mapGroup c g fun x =>
    match x.compute with
    | none => x
    | some pg => { x with compute := none, enabled := [], excluded := [], batch := 0, banks := [],
                          done := ((j.time, pg.pids.length) :: x.done).take 65 }

/-- Riders whose riding has ended alight, in order (R142): their merge may run, their rows free at the next boundary of
each group. -/
def Jenjor.alightEnded (j : Jenjor) : Jenjor :=
  let ended := (j.sw.ctxs.filter fun c => c.phase == .riding && c.owed.isEmpty
    && j.sw.clusters.all fun x => x.groups.all fun g => !g.enabled.contains c.id).map fun c => c.id
  let alight := fun (j : Jenjor) (id : Nat) =>
    { (j.mapCtx id fun c => { c with phase := .alighting, alighted := j.spg.alightOrder }) with
        spg := { j.spg with alightOrder := j.spg.alightOrder + 1 } }
  let mark := fun (x : Row) => if ended.contains x.ctx then { x with alighted := true } else x
  (ended.foldl alight j).mapRings fun r => { r with rows := r.rows.map mark }

/-- The groups in which a ring's riders hold rows: those of its clusters, and of the clusters whose ring names it as
alternate (R76). -/
def rowGroups (j : Jenjor) (n : Nat) : List (Nat × Nat) :=
  (j.sw.clusters.filter fun c =>
      c.home == some n || ((c.home.bind j.ring?).bind fun h => h.defn.bind fun d => d.alt) == some n).flatMap fun c =>
    (List.range c.groups.length).map fun g => (c.num, g)

/-- A plate-group boundary of a group frees the rows of alighted riders there (R83). -/
def Jenjor.freeRows (j : Jenjor) (c g : Nat) : Jenjor :=
  j.mapRings fun r =>
    let all := rowGroups j r.num
    let here := fun (x : Row) => if x.alighted && all.contains (c, g) then { x with freed := (c, g) :: x.freed } else x
    { r with rows := (r.rows.map here).filter fun x => !(x.alighted && all.all x.freed.contains) }

/-- A RING_STOP of a ring is fetched and waits for its turn: no query boards from the cycle of the fetch (R73). -/
def stopFetched (j : Jenjor) (n : Nat) : Bool := j.qs.fetched.any fun f => dField f.d 0 1 == 0x4B && dField f.d 0x14 1 == n

/-- No query boards (R73, R75, R423): the ring is not running or is about to stop, a plate of its list is quarantined, or
it is announced to hold no cluster. -/
def boardingHeld (j : Jenjor) (r : Ring) : Bool :=
  r.phase != .running || stopFetched j r.num || r.view.any (fun p => (j.plate? p).any fun x => x.quarantined || !x.present)
    || (heldClusters r).isEmpty

/-- Reconvert a loaded query whose grid generation is no longer its collection's, and reload its row (R111). A query that
the new grid refuses counts in TRN_REJECTED alone (DESIGN CHOICE, log entry 108). -/
def Jenjor.reconvert (j : Jenjor) (x : Ctx) (c : Coll) : Jenjor :=
  match convert c x.q32 with
  | none => (j.count blkTRN 0x2010).abortCtx x.id .vectorInvalid
  | some o =>
    let j := j.count blkTRN 0x2018
    let j := if o.clamped = 0 then j else j.bump (blkBase blkTRN + 0x2008) o.clamped
    j.mapCtx x.id fun x => { setOperand x o c.gridGen with phase := .reloading }

/-- A query of pinned epoch and frame boards once both are published here (R359). -/
def pinReady (j : Jenjor) (x : Ctx) (c : Coll) : Bool :=
  !x.pinned || (x.epoch ≤ j.wr.epoch && c.bias.all fun b => x.frame ≤ b.frame)

/-- Board a loaded query (R22, R82): the epoch, frame and list view of this cycle. A query that was fetched before the
delete of its collection and has not boarded when the delete takes effect rides a view without the collection's plates
(R46; DESIGN CHOICE, log entry 106). -/
def Jenjor.boardOne (j : Jenjor) (r : Ring) (x : Ctx) : Jenjor :=
  match j.coll? x.coll with
  | none => j.abortCtx x.id .unknownCollection
  | some c =>
    if c.format.isInteger && x.gridGen != c.gridGen then j.reconvert x c
    else if !pinReady j x c then j
    else
      -- heat and last use of the plate set, last use of the payload table (R242, R243)
      let j := (j.touch c.objPlates).mapObj c.objPayload fun o => { o with lastUse := j.time }
      j.mapCtx x.id fun x =>
        { x with phase := .riding, epoch := if x.pinned then x.epoch else j.wr.epoch,
                 frame := if x.pinned then x.frame else (c.bias.map fun b => b.frame).getD 0,
                 view := r.view, owed := r.view, list := [], boundary := none, lanes := [], selecting := false,
                 matchCount := 0, qualCount := 0, nanCount := 0, boardTime := j.time,
                 stretched := x.stretched || r.stretched }

def Jenjor.board (j : Jenjor) (n : Nat) : Jenjor :=
  match j.ring? n with
  | none => j
  | some r =>
    if boardingHeld j r then j
    else (j.sw.ctxs.filter fun c => c.ring == n && c.phase == .loaded).foldl (fun j c => j.boardOne r c) j

/-! ### The flip (R89) -/

/-- Row order of a rider. -/
def rowOf (x : Ctx) : Nat := x.row.getD 0

/-- (context, plate) pairs that a plate group does not score: not owed (R82), of another collection (R40), or excluded
by the summary test (R91). A rider takes part in the summary test of a plate of another collection of its ring, and its
pairs with that plate count nowhere (DESIGN CHOICE, log entry 110). -/
def gatedPairs (riders : List Ctx) (ps : List Plate) : List (Nat × Nat) :=
  riders.flatMap fun c => (ps.filter fun p =>
    !c.owed.contains p.pid || c.coll != p.coll || summaryExcludes p c.pred c.epoch).map fun p => (c.id, p.pid)

/-- Begin the plate group in the fill half: the header version of each plate (R61), the rows enabled (R82), the summary
test (R91, R130) and its counts. -/
def Jenjor.beginGroup (j : Jenjor) (c g : Nat) (pg : PlateGroup) : Jenjor :=
  let riders := sortBy (fun a b => rowOf a ≤ rowOf b) (owing j pg)
  let ps := (pg.pids.filter fun p => !pg.skip.contains p).filterMap j.plate?
  let excl := natSum (ps.map fun p => (riders.filter fun x => summaryExcludes p x.pred x.epoch).length)
  let skips := (ps.filter (skipped riders)).length
  let pg := { pg with snap := ps.filter fun p => !skipped riders p }
  let j := if excl = 0 then j else j.bump (blkBase blkFLT + c * 0x40 + 0x18) excl
  let j := if skips = 0 then j else j.bump (blkBase blkMER + 0x1028 + pg.ring * 0x40) skips
  let j := j.mapGroup c g fun x =>
    { x with compute := some pg, fill := x.queue.head?, queue := x.queue.tail, enabled := riders.map fun r => r.id,
             excluded := gatedPairs riders ps, batch := 0, banks := [], held := false }
  j.mapCtxs (fun x => riders.any fun r => r.id == x.id) fun x =>
    { x with owed := x.owed.filter fun p => pg.skip.contains p || !pg.pids.contains p }

/-- The plate group belongs to the pass that is being swept, not to the next one. -/
def inPass (j : Jenjor) (pg : PlateGroup) : Bool := (j.ring? pg.ring).any fun r => pg.pos < r.passList.length

/-- A cluster that has finished all its plate groups while it retires or after it left its ring: its riders alight, it is
gated or free (R92, R95, R421). -/
def Jenjor.quiet (j : Jenjor) (c : Nat) : Jenjor :=
  match j.cluster? c with
  | none => j
  | some x =>
    if !x.unfinished.isEmpty || !(x.retiring || x.home.isNone) then j
    else
      let j := if x.home.isNone then ((List.range x.groups.length).foldl (fun j g => j.finishGroup c g) j).alightEnded else j
      j.gateRetired.reassign

/-- Count in a register the cycles that had passed by themselves: a free value, since no command carries the time (R93,
R103; DESIGN CHOICE, log entry 90). -/
def Jenjor.freeCycles (j : Jenjor) (addr : Nat) : Jenjor := j.free.2.bump addr (Config.freeCount j.freeIdx)

/-- At a flip: the cycles in which the cells stood clock-gated since the last drain (R103), and the stall cycles whose
causes no command reports: plate late, query load late, island handshake, thermal (R93). -/
def Jenjor.idleCycles (j : Jenjor) (c : Nat) : Jenjor :=
  [0, 8, 32, 48].foldl (fun j i => j.freeCycles (blkBase blkMER + 0x4000 + c * 0x40 + i))
    (j.freeCycles (blkBase blkTRN + c * 0x100 + 0x10))

/-- FLIP (R89): the plate group that has drained ends, rows of riders that alighted before free here (R83), riders whose
riding ends alight, waiting queries board, and the plate group in the fill half begins. A group whose next plate group
belongs to the next pass is held at the barrier. The cycles idled before the flip are counted. -/
def execFlip (c g : Nat) (s : State) : Host.Outcome State Fault Refusal :=
  onUnit (decide (c < 18)) (onBlocks (fun j =>
    match j.group? c g with
    | none => j
    | some x =>
      match x.fill with
      | none => j
      | some pg =>
        if !x.drained || !pg.ready then j
        else if !inPass j pg then j.mapGroup c g fun x => { x with held := true }
        else
          let home := ((j.cluster? c).bind fun x => x.home).getD 64
          let j := ((j.finishGroup c g).freeRows c g).alightEnded.board home
          (((j.beginGroup c g pg).loadRows home).quiet c).idleCycles c) s)

/-! ### The stream (R128) and the drain (R101, R102, R135) -/

/-- What the tests make of one pair. -/
inductive Pair where
  | gated
  | notVisible
  | notMatching
  | nan
  | match_ (qualifies : Bool) (admitted : Option Entry)

/-- The bias entry of a rider's own frame (R118, R229): the published buffer, or the one before it while it drains. -/
def biasAt (c : Coll) (x : Ctx) (i : Nat) : Option F32 :=
  c.bias.map fun b => ((if x.frame = b.frame then b.published else b.other).lookup i).getD 0

/-- Tests 1 to 6 of R128 for one rider and one record, whose cell is `k`. -/
def testPair (c : Coll) (cluster : Nat) (x : Ctx) (p : Plate) (slot : Nat) (k : Cell) : Pair :=
  match p.recs[slot]? with
  | none => .gated
  | some r =>
    if !r.occupied then .gated
    else if !p.visible slot x.epoch then .notVisible
    else if !x.pred.passes r then .notMatching
    else
      match keyWord c x.mu (biasAt c x r.biasIndex.toNat) (cellScore c x r.codes k) with
      | none => .nan
      | some k =>
        let q := !qRange x.d || keyGe (fpKeys c) k (qThreshold x.d)
        let e : Entry :=
          { key := k, user := r.key, handle := BitVec.ofNat 48 (p.coll * 2 ^ 32 + p.num * 4096 + slot), cluster := cluster,
            hasRecord := r.hasRecord, hasPayload := r.hasPayload, pid := p.pid, slot := slot }
        let before := match x.lanes.lookup cluster with
          | none => true
          | some b => ranksBefore (fpKeys c) e.rank b
        .match_ q (if q && before then some e else none)

/-- The record in column `i` of a plate group's run of batches (R77). -/
def columnAt : List Plate → Nat → Option (Plate × Nat)
  | [], _ => none
  | p :: ps, i => if i < p.recs.length then some (p, i) else columnAt ps (i - p.recs.length)

/-- The enabled pairs of one record, rows in ascending order: each rider, its collection, and whether it is scored. -/
def recordPairs (j : Jenjor) (g : Group) (p : Plate) : List (Ctx × Coll) :=
  g.enabled.filterMap fun id =>
    if g.excluded.contains (id, p.pid) then none
    else (j.ctx? id).bind fun x => (j.coll? x.coll).map fun c => (x, c)

/-- The cells of a batch once it has accumulated (R101): by column of the batch and rider. -/
def batchCells (j : Jenjor) (g : Group) (pg : PlateGroup) (batch : Nat) : List ((Nat × Nat) × Cell) :=
  (List.range 128).flatMap fun i =>
    match columnAt pg.snap (128 * batch + i) with
    | none => []
    | some (p, slot) =>
      (recordPairs j g p).map fun x => ((i, x.1.id), cellOf x.2 x.1 (((p.recs[slot]?).map fun r => r.codes).getD []))

/-- The pairs of column `i` of a bank, rows in ascending order, each with its cell. -/
def columnPairs (j : Jenjor) (cluster : Nat) (g : Group) (pg : PlateGroup) (b : Bank) (i : Nat) : List (Ctx × Pair) :=
  match columnAt pg.snap (128 * b.batch + i) with
  | none => []
  | some (p, slot) =>
    (recordPairs j g p).filterMap fun x =>
      (b.cells.lookup (i, x.1.id)).map fun k => (x.1, testPair x.2 cluster x.1 p slot k)

def survivors (ps : List (Ctx × Pair)) : List (Nat × Entry) :=
  ps.filterMap fun x => match x.2 with
    | .match_ _ (some e) => some (x.1.id, e)
    | _ => none

def countPairs (f : Pair → Bool) (ps : List (Ctx × Pair)) : Nat := (ps.filter fun x => f x.2).length

/-- Put the outcome of a drain cycle into the counters, the riders' counts and the admission queue. FLT_PASSED,
FLT_REJ_PRED and FLT_REJ_VIS count a pair in its drain cycle (DESIGN CHOICE, log entry 109). -/
def Jenjor.drainCycle (j : Jenjor) (c : Nat) (ps : List (Ctx × Pair)) : Jenjor :=
  let add := fun (j : Jenjor) (addr n : Nat) => if n = 0 then j else j.bump addr n
  let isMatch := fun p => match p with | Pair.match_ _ _ => true | _ => false
  let isNan := fun p => match p with | Pair.nan => true | _ => false
  let isVis := fun p => match p with | Pair.notVisible => true | _ => false
  let isPred := fun p => match p with | Pair.notMatching => true | _ => false
  let ent := survivors ps
  let j := add j (blkBase blkFLT + c * 0x40) (countPairs isMatch ps + countPairs isNan ps)
  let j := add j (blkBase blkFLT + c * 0x40 + 0x08) (countPairs isPred ps)
  let j := add j (blkBase blkFLT + c * 0x40 + 0x10) (countPairs isVis ps)
  let j := add j (blkBase blkTRN + c * 0x100 + 0x18) (countPairs isNan ps)
  let j := add j (blkBase blkTRN + c * 0x100 + 0x20) (countPairs isMatch ps)
  let j := add j (blkBase blkCMP + c * 0x40) ent.length
  let j := ps.foldl (fun j x => j.mapCtx x.1.id fun y =>
    match x.2 with
    | .nan => { y with nanCount := min (y.nanCount + 1) 0xFFFFFFFF }
    | .match_ q _ => { y with matchCount := y.matchCount + 1, qualCount := if q && qRange y.d then y.qualCount + 1 else y.qualCount }
    | _ => y) j
  j.mapCluster c fun x =>
    { x with admq := x.admq ++ ent, admHigh := max x.admHigh (x.admq.length + ent.length) }

/-- The oldest bank of a group that has not drained. -/
def mapBank (f : Bank → Bank) (g : Group) : Group :=
  match g.banks with
  | [] => g
  | b :: bs => { g with banks := f b :: bs }

/-- Drain the oldest bank, cycle by cycle, holding at the first whose survivors do not fit (R135): a held cycle is
counted as comparator back-pressure, or as rerank back-pressure when the speculative queue is full (R147). `step` columns
drain per cycle (R102). -/
def drainBank (c g step : Nat) : Nat → Jenjor → Jenjor
  | 0, j => j
  | fuel + 1, j =>
    match j.cluster? c, j.group? c g with
    | some x, some y =>
      match y.compute, y.banks with
      | some pg, b :: bs =>
        if 128 ≤ b.column then j.mapGroup c g fun y => { y with banks := bs }
        else
          let ps := (List.range step).flatMap fun i => columnPairs j c y pg b (b.column + i)
          if 16384 < x.admq.length + (survivors ps).length then
            j.count blkMER (0x4000 + c * 0x40 + if 1024 ≤ x.specq.length then 0x18 else 0x10)
          else drainBank c g step fuel ((j.drainCycle c ps).mapGroup c g (mapBank fun b => { b with column := b.column + step }))
      | _, _ => j
    | _, _ => j

/-- Accumulating cycles of a batch (R100). -/
def accCycles (f : Format) (d : Nat) : Nat :=
  match f with
  | .b1 => d / 8 | .bf16 => 2 * d | .fp16 => 2 * d | _ => d

/-- The next batch accumulates in a bank that has drained (R101): with both banks still draining it waits. -/
def accumulateBatch (j : Jenjor) (c g : Nat) (d : RingDef) : Jenjor :=
  match j.group? c g with
  | none => j
  | some x =>
    match x.compute with
    | none => j
    | some pg =>
      if 2 ≤ x.banks.length || pg.batches ≤ x.batch then j
      else
        let bank : Bank := { batch := x.batch, column := 0, cells := batchCells j x pg x.batch }
        (j.bump (blkBase blkTRN + c * 0x100 + 0x08) (accCycles d.format d.dim * (8 / groupsPerCluster d.format))).mapGroup c g
          fun x => { x with batch := x.batch + 1, banks := x.banks ++ [bank] }

/-- BATCH_ACCUMULATE_END (R101): a batch ends in its bank, and the oldest bank drains to the comparator as far as that
accepts it. While a drain is held the same event tries it again. -/
def execBatchAccumulateEnd (c g : Nat) (s : State) : Host.Outcome State Fault Refusal :=
  onUnit (decide (c < 18)) (onBlocks (fun j =>
    match j.group? c g with
    | none => j
    | some x =>
      match x.compute with
      | none => j
      | some pg =>
        if x.drained then j
        else
          match (j.ring? pg.ring).bind fun r => r.defn with
          | none => j
          | some d => (drainBank c g (8 / groupsPerCluster d.format) 130 (accumulateBatch j c g d)).quiet c) s)

/-! ### The ring boundary (R75, R87, R89, R96, R97) -/

/-- Every group has finished its last plate group of the closing pass (R89). -/
def passFinished (j : Jenjor) (r : Ring) : Bool :=
  r.passList.length ≤ r.passPos && (j.outstanding r.num).all fun pg => r.passList.length ≤ pg.pos

/-- Finish every drained plate group of a ring. -/
def finishAll (j : Jenjor) (n : Nat) : Jenjor :=
  (j.sw.clusters.flatMap fun c => (List.range c.groups.length).map fun g => (c.num, g)).foldl (fun j x =>
    match j.group? x.1 x.2 with
    | none => j
    | some y => if y.drained && y.compute.any (fun pg => pg.ring == n) then j.finishGroup x.1 x.2 else j) j

/-- Plate groups already dealt for the next pass: kept, their positions counted from its first entry, or given back when
a switch changes the list they were taken from. -/
def carryOver (j : Jenjor) (n len : Nat) (drop : Bool) : Jenjor :=
  let keep := fun (pg : PlateGroup) => pg.ring != n || !drop
  let move := fun (pg : PlateGroup) => if pg.ring = n then { pg with pos := pg.pos - len } else pg
  j.mapClusters (fun _ => true) fun c =>
    { c with groups := c.groups.map fun g =>
        let l := ((g.fill.toList ++ g.queue).filter keep).map move
        { g with fill := l.head?, queue := l.tail, held := false } }

/-- The stretch at a boundary (R96): over once capacity has covered the need for a whole pass, otherwise recomputed. -/
def boundaryStretch (j : Jenjor) (n : Nat) : Jenjor :=
  match j.ring? n with
  | none => j
  | some r =>
    match r.defn with
    | none => j
    | some d =>
      let ok := j.covers r d
      let j := if !r.stretched then j.stretchCheck n
        else if r.covered && ok then j.mapRing n fun r => { r with stretched := false, derated := 0 }
        else j.mapRing n fun r => { r with derated := (j.capacity r d).time (ringBytes r) }
      j.mapRing n fun r => { r with covered := ok }

/-- The boundary of a ring once its barrier is reached: rows free, every pending switch applies, the groups are released,
and the riders whose riding ended here alight after the barrier (R89). A stopping ring stops at the first boundary after
its last rider has alighted (R73). -/
def Jenjor.boundary (j : Jenjor) (n : Nat) : Jenjor :=
  match j.ring? n with
  | none => j
  | some r =>
    let groups := rowGroups j n
    let j := groups.foldl (fun j x => j.freeRows x.1 x.2) (finishAll j n)
    let j := j.bump (blkBase blkMER + 0x1020 + n * 0x40) 1
    let marked := boundaryMarked j r
    if r.phase = .stopping && (j.ridersOf n).isEmpty then ((j.applySwitches n).stopRing n).reassign
    else
      let j := ((carryOver j n r.passList.length marked).applySwitches n).moveClusters n
      let j := ((j.mapRing n fun r => { r with passed := true }).announce n).boundaryGrant n
      let j := boundaryStretch (j.republish n) n
      let ahead := if marked then 0 else r.passPos - r.passList.length
      let j := ((j.beginPass n).mapRing n fun r => { r with passPos := ahead }).alightEnded
      let j := if (j.ring? n).any bereft then j.ringToWaiting n else j
      ((j.board n).loadRows n).reassign

end Sys2Proof.Machine
end

