-- ==== Sys2Proof/Machine/Comparator.lean ====
section
/-! DEFINITION. Sys2Proof/Machine/Comparator.lean: the selection stage, its boundaries and speculative requests (R133,
R134, R146, R147), and the merge (R137): ADMISSION_ARRIVAL, OVERFLOW_SELECTION_COMPLETE, BOUNDARY_INSTALL, MERGE_START,
MERGE_COMPLETE; and the start of R21 step 7 (R140, R155). -/

namespace Sys2Proof.Machine
open Jenjor

/-! ### Speculative requests -/

/-- Key of an entry ≥ key of the boundary + Δ (R146): exact for integer keys, rounded once for FP32 keys. No key is ≥ a sum
that is NaN. -/
def marginMet (fp : Bool) (delta : KeyWord) (b k : KeyWord) : Bool :=
  if fp then
    let t := ((keyFp b).add (keyFp delta)).r32
    !t.isNaN && !(keyFp k).lt t
  else b.toInt + delta.toInt ≤ k.toInt

/-- Requests a rider may still form (R146). -/
def specRoom (x : Ctx) : Nat := 2 * (if qRerank x.d = 0 then qK x.d else qKp x.d) - x.specIssued

/-- The requests that entries form under boundary `b`: one for a record, one for a vault-resident payload. -/
def specRequests (c : Coll) (vaultPay : Bool) (x : Ctx) (b : KeyWord) (es : List Entry) : List (Bool × Entry) :=
  if !qSpec x.d || qRange x.d then []
  else
    ((es.filter fun e => marginMet (fpKeys c) (qThreshold x.d) b e.key).flatMap fun e =>
      (if qRerank x.d != 0 && e.hasRecord then [(false, e)] else [])
        ++ (if qPayloads x.d && vaultPay && e.hasPayload then [(true, e)] else [])).take (specRoom x)

/-- Move a rider's formed requests into the queues of the clusters that scored them, as far as they have room (R147). -/
def queueSpec (id : Nat) : Nat → Jenjor → Jenjor
  | 0, j => j
  | fuel + 1, j =>
    match (j.ctx? id).bind fun x => x.specTodo.head? with
    | none => j
    | some r =>
      match j.cluster? r.2.cluster with
      | none => j.mapCtx id fun x => { x with specTodo := x.specTodo.tail }
      | some c =>
        if 1024 ≤ c.specq.length then j
        else
          let j := j.mapCluster c.num fun y =>
            { y with specq := y.specq ++ [(id, r.1, r.2)], specHigh := max y.specHigh (y.specq.length + 1) }
          queueSpec id fuel (j.mapCtx id fun x => { x with specTodo := x.specTodo.tail })

/-- Test entries against the boundary and queue the requests they form. -/
def Jenjor.testSpec (j : Jenjor) (id : Nat) (es : List Entry) : Jenjor :=
  match j.ctx? id with
  | none => j
  | some x =>
    match x.boundary, j.coll? x.coll with
    | some b, some c =>
      let rs := if x.phase = .riding then specRequests c (payloadInVault j c) x b.1 es else []
      let j := j.mapCtx id fun x => { x with specIssued := x.specIssued + rs.length, specTodo := x.specTodo ++ rs }
      queueSpec id (rs.length + 1) j
    | _, _ => j

/-! ### Selection (R133, R134, R136) -/

/-- Move a rider's boundary to the last-ranked entry of its list, and send it to the lanes (R134). -/
def Jenjor.moveBoundary (j : Jenjor) (id : Nat) : Jenjor :=
  (j.mapCtx id fun x => { x with boundary := x.list.getLast?.map Entry.rank }).count blkCMP 0x2010

/-- One arriving entry. The list is kept in total order. -/
def Jenjor.arrive (j : Jenjor) (c : Coll) (x : Ctx) (e : Entry) : Jenjor :=
  let fp := fpKeys c
  let s := selectDepth x.d
  if x.boundary.any fun b => !ranksBefore fp e.rank b then j.count blkCMP 0x2018
  else if qRange x.d && 4096 ≤ x.list.length then
    (j.mapCtx x.id fun x => { x with list := insertEntry fp e x.list.dropLast }).moveBoundary x.id
  else
    let n := x.list.length + 1
    let j := j.mapCtx x.id fun x => { x with list := insertEntry fp e x.list }
    if n = s then
      let j := j.moveBoundary x.id
      j.testSpec x.id (((j.ctx? x.id).map fun x => x.list).getD [])
    else
      let j := if x.boundary.isSome then j.testSpec x.id [e] else j
      if n = 4096 then (j.mapCtx x.id fun x => { x with selecting := true }).count blkCMP 0x2000 else j

/-- ADMISSION_ARRIVAL (R133): the oldest entry of the cluster's queue whose rider runs no overflow selection. While the
cluster's speculative queue is full the selection stage takes nothing from it (R147). -/
def execAdmissionArrival (c : Nat) (s : State) : Host.Outcome State Fault Refusal :=
  onUnit (decide (c < 18)) (onBlocks (fun j =>
    match j.cluster? c with
    | none => j
    | some y =>
      if 1024 ≤ y.specq.length then j
      else
        match y.admq.find? fun e => (j.ctx? e.1).all fun x => !x.selecting with
        | none => j
        | some e =>
          let j := j.mapCluster c fun y => { y with admq := y.admq.erase e }
          match j.ctx? e.1 with
          | none => j
          | some x =>
            match j.coll? x.coll with
            | none => j
            | some cl => j.arrive cl x e.2) s)

/-- OVERFLOW_SELECTION_COMPLETE (R133 item 4). -/
def execOverflowSelectionComplete (ctx : Nat) (s : State) : Host.Outcome State Fault Refusal :=
  onBlocks (fun j =>
    match j.ctx? ctx with
    | none => j
    | some x =>
      if !x.selecting then j
      else
        let kept := x.list.take (selectDepth x.d)
        let j := j.mapCtx ctx fun x => { x with list := kept, selecting := false }
        (j.moveBoundary ctx).testSpec ctx kept) s

/-- BOUNDARY_INSTALL (R134): the rider's boundary in the threshold lanes of a cluster. -/
def execBoundaryInstall (ctx c : Nat) (s : State) : Host.Outcome State Fault Refusal :=
  onUnit (decide (c < 18)) (onBlocks (fun j => j.mapCtx ctx fun x =>
    match x.boundary with
    | none => x
    | some b => { x with lanes := (c, b) :: x.lanes.filter fun l => l.1 != c }) s)

/-! ### The merge (R137) -/

/-- MERGE_START: no admission entry of the rider is queued and no selection of it runs. -/
def execMergeStart (ctx : Nat) (s : State) : Host.Outcome State Fault Refusal :=
  onBlocks (fun j =>
    match j.ctx? ctx with
    | none => j
    | some x =>
      if x.phase != .alighting || x.selecting || j.sw.clusters.any (fun c => c.admq.any fun e => e.1 == ctx) then j
      else j.mapCtx ctx fun x => { x with phase := .merging }) s

/-- Merge neighbours, each merge keeping the first `s`; an input without a partner passes up. -/
def mergeLevel (fp : Bool) (s : Nat) : List (List Entry) → List (List Entry)
  | a :: b :: rest => firstOf fp s (a ++ b) :: mergeLevel fp s rest
  | l => l

/-- The five levels of the tree over the cluster bins. -/
def mergeTree (fp : Bool) (s : Nat) (es : List Entry) : List Entry :=
  let bins := (List.range 18).map fun c => sortEntries fp (es.filter fun e => e.cluster == c)
  let l := mergeLevel fp s (mergeLevel fp s (mergeLevel fp s (mergeLevel fp s (mergeLevel fp s bins))))
  l.flatten

/-- The vault is degraded: a carrier does not serve (R325). -/
def Jenjor.degraded (j : Jenjor) : Bool := j.vlt.carriers.any fun c => c.state != .serving

/-- Record pages of `len` bytes at a 16-byte-unit offset of an object (R144), numbered over the object region. -/
def pagesAt (o : Obj) (off len : Nat) : List Nat :=
  if len = 0 then []
  else
    let a := (o.base + off * 16) / 16384
    (List.range ((o.base + off * 16 + len - 1) / 16384 + 1 - a)).map fun i => a + i

/-- The record behind an entry, through the rider's own plates (R145). -/
def recordOf (j : Jenjor) (e : Entry) : Option Rec := (j.plate? e.pid).bind fun p => p.recs[e.slot]?

def recordPages (j : Jenjor) (c : Coll) (e : Entry) : List Nat :=
  match recordOf j e, j.obj? c.objStore with
  | some r, some o => if r.hasRecord then pagesAt o r.recOff r.recLen else []
  | _, _ => []

def payloadPages (j : Jenjor) (c : Coll) (e : Entry) : List Nat :=
  match recordOf j e, j.obj? c.objPayload with
  | some r, some o => if r.hasPayload then pagesAt o r.payOff r.payLen else []
  | _, _ => []

/-- Pages that the rest of a query's step 7 reads. -/
def pagesNeeded (j : Jenjor) (c : Coll) (x : Ctx) : List Nat :=
  (if qRerank x.d = 0 || x.reranked then [] else (x.coarse.drop x.rpos).flatMap (recordPages j c))
    ++ (if x.vaultPay && (qRerank x.d = 0 || x.reranked)
        then (x.final.drop x.rpos).flatMap (payloadPages j c) else [])

/-- The coarse path (R156): the first k of the coarse list, no payloads; the core, its pins and its reads are given
up. -/
def Jenjor.coarsePath (j : Jenjor) (id : Nat) : Jenjor :=
  let j := j.mapCtx id fun x => { x with tookCoarse := true, phase := .delivering, pins := [] }
  let cores := j.spg.cores.map fun o => if o = some id then none else o
  let reads := j.spg.reads.map fun (r : PageRead) => { r with waiters := r.waiters.filter (· != id) }
  dropStale { j with spg := { j.spg with cores := cores, reads := reads } }

/-- While the vault is degraded, a query that needs a page not in the record cache takes the coarse path at once
(R155). -/
def Jenjor.coarseIfDegraded (j : Jenjor) (id : Nat) : Jenjor :=
  match j.ctx? id with
  | none => j
  | some x =>
    match j.coll? x.coll with
    | none => j
    | some c =>
      if j.degraded && (pagesNeeded j c x).any fun p => !(j.spg.lines.any fun l => l.page == p) then j.coarsePath id else j

/-- MERGE_COMPLETE (R137): the coarse list of a reranked query or of one that reads payloads from the vault, which go to
the Spectrograph (R138, R155); otherwise the result. -/
def execMergeComplete (ctx : Nat) (s : State) : Host.Outcome State Fault Refusal :=
  onBlocks (fun j =>
    match j.ctx? ctx with
    | none => j
    | some x =>
      if x.phase != .merging then j
      else
        match j.coll? x.coll with
        | none => j
        | some c =>
          let out := mergeTree (fpKeys c) (selectDepth x.d) x.list
          let vaultPay := qPayloads x.d && payloadInVault j c
          let step7 := qRerank x.d != 0 || vaultPay
          let j := j.mapCtx ctx fun x =>
            { x with coarse := out, final := if qRerank x.d = 0 then out else [], rpos := 0, scored := [], probed := 0,
                     mergeTime := j.time, vaultPay := vaultPay, phase := if step7 then .rerankWait else .delivering }
          if step7 then j.coarseIfDegraded ctx else j) s

end Sys2Proof.Machine
end

