-- ==== Sys2Proof/Machine/Rerank.lean ====
section
/-! DEFINITION. Sys2Proof/Machine/Rerank.lean: the record cache and its reads (R147 to R150, R247), rescoring (R151 to
R154), payload fetches (R155) and the coarse path (R156): SPEC_REQUEST_ISSUE, RERANK_START, RECORD_PAGE_READ_COMPLETE,
RERANK_COMPLETE, RERANK_DEADLINE. -/

namespace Sys2Proof.Machine
open Jenjor

namespace Jenjor

/-! ### The record cache -/

def line? (j : Jenjor) (page : Nat) : Option Line := j.spg.lines.find? fun l => l.page == page

/-- Raise the heat of the 2 MiB cache page that holds a line (R242), and note the line's use (R150). -/
def touchLine (j : Jenjor) (page : Nat) : Jenjor :=
  match j.line? page with
  | none => j
  | some l =>
    { j with spg := { j.spg with
        lines := updWhere (fun x => x.page == page) (fun x => { x with lastUse := j.time }) j.spg.lines,
        cachePages := j.spg.cachePages.map fun p => if p.1 = l.home then (p.1, min (p.2 + 1) 0xFFFFFFFF) else p } }

/-- Lines of a cache page: 2 MiB of 16 KiB. -/
def linesPerPage : Nat := 128

/-- The cache page of a free line, lowest first. -/
def freeHome (j : Jenjor) : Option Nat :=
  (argmin id ((j.spg.cachePages.map fun p => p.1).filter fun h =>
    (j.spg.lines.filter fun l => l.home == h).length < linesPerPage))

/-- The cache may take another pool page (R247): photometric placement, below the ceiling, a page free. -/
def mayGrow (j : Jenjor) : Bool :=
  j.place.photometric && j.spg.cachePages.length < j.spg.cacheMax && 0 < j.poolFree

/-- The least recently used unpinned line, of equals the lowest page (R150). -/
def victimLine (j : Jenjor) : Option Line :=
  argmin (fun l => l.lastUse * 2 ^ 48 + l.page) (j.spg.lines.filter fun l => !j.pinnedPages.contains l.page)

/-- A read could be filled: a free line, a page to grow into, or an unpinned line. -/
def hasLine (j : Jenjor) : Bool := j.freeHome.isSome || j.mayGrow || j.victimLine.isSome

/-- Fill a line with a page. -/
def fillLine (j : Jenjor) (page : Nat) (spec : Bool) : Jenjor :=
  let put := fun (j : Jenjor) (h : Nat) =>
    let l : Line := { page := page, home := h, lastUse := j.time, spec := spec, stale := false }
    touchLine { j with spg := { j.spg with lines := j.spg.lines ++ [l] } } page
  match j.freeHome with
  | some h => put j h
  | none =>
    if j.mayGrow then
      let h := lowestFree (j.spg.cachePages.map fun p => p.1) (j.spg.cachePages.length + 1) 0
      put { j with spg := { j.spg with cachePages := j.spg.cachePages ++ [(h, 0)] } } h
    else
      match j.victimLine with
      | none => j
      | some v => put { j with spg := { j.spg with lines := j.spg.lines.erase v } } v.home

/-- A page is being read. -/
def reading (j : Jenjor) (page : Nat) : Bool := j.spg.reads.any fun r => r.page == page

/-- Issue a vault read of a record page. -/
def issueRead (j : Jenjor) (page : Nat) (demand : Bool) (waiters : List Nat) : Jenjor :=
  let j := j.count blkSPG (if demand then 0x128 else 0x110)
  let r : PageRead := { page := page, demand := demand, waiters := waiters }
  emit { j with spg := { j.spg with reads := j.spg.reads ++ [r] } } (.vaultRead page)

/-- Demand a page that no line holds: join the read in flight, or issue one while fewer than 65,536 are outstanding (R147,
R148). -/
def demand (j : Jenjor) (id page : Nat) : Jenjor :=
  if j.reading page then
    let join := fun (r : PageRead) => { r with waiters := if r.waiters.contains id then r.waiters else r.waiters ++ [id] }
    { j with spg := { j.spg with reads := updWhere (fun r => r.page == page) join j.spg.reads } }
  else if 65536 ≤ j.spg.reads.length then j
  else j.issueRead page true [id]

/-! ### Rescoring -/

/-- Bytes of an object from a 16-byte-unit offset (R143, R144). -/
def objBytes (mem : List Host.Cell) (o : Obj) (off len : Nat) : List Byte := Memory.readBytes mem (o.base + off * 16) len

/-- The vectors of a record store's record, as values of the store's format (R141). -/
def recordVectors (c : Coll) (bs : List Byte) : List (List Fp) :=
  (List.range (bs.length / (2 * c.dim))).map fun i =>
    ((halvesOf (bytesAt bs (i * c.dim * 2) (c.dim * 2))).map (codeFp c.storeFmt))

/-- Step 1 of R151: normalised in a cosine collection, rounded to the store's format. -/
def rerankQuery (c : Coll) (v : List F32) : List Fp :=
  storeOperand c.storeFmt (if c.metric = .cosine then (normalise v).getD v else v)

/-- S_r of a record (R151 step 2, R153). -/
def rerankScore (c : Coll) (x : Ctx) (vs : List (List Fp)) : Fp :=
  let l2 := c.metric == .l2
  if qRerank x.d = 2 then lateScore l2 (x.qtok.map (rerankQuery c)) vs
  else scoreFloat l2 (rerankQuery c (if c.format = .b1 then x.rvec else x.q32)) (vs.headD [])

/-- The rerank key of a coarse entry with a record (R151). -/
def rescore (mem : List Host.Cell) (j : Jenjor) (c : Coll) (x : Ctx) (e : Entry) : Fp :=
  match recordOf j e, j.obj? c.objStore with
  | some r, some o =>
    rerankKey (biasAt c x r.biasIndex.toNat) (qUnnorm x.d) r.norm
      (rerankScore c x (recordVectors c (objBytes mem o r.recOff r.recLen)))
  | _, _ => .nan

/-- The pages that an entry needs in the query's present phase: its record, or its payload. -/
def entryPages (j : Jenjor) (c : Coll) (x : Ctx) (e : Entry) : List Nat :=
  if x.phase = .payloadFetch then payloadPages j c e else recordPages j c e

/-- The entries the query's core works through: the coarse list, then the final result's payloads. -/
def workList (x : Ctx) : List Entry := if x.phase = .payloadFetch then x.final else x.coarse

/-- Probe entries in order while their pages fit the core's 1,024 pins (R150): a line found is hit and raises its page's
heat (R242), a lookup found whole is counted, what is missing is demanded. -/
def probe (id : Nat) : Nat → Jenjor → Jenjor
  | 0, j => j
  | fuel + 1, j =>
    match j.ctx? id with
    | none => j
    | some x =>
      match j.coll? x.coll, (workList x)[x.probed]? with
      | some c, some e =>
        let ps := j.entryPages c x e
        let new := ps.filter fun p => !x.pins.contains p
        if x.pins ≠ [] ∧ 1024 < x.pins.length + new.length then j
        else
          let missing := ps.filter fun p => (j.line? p).isNone
          let j := (ps.filter fun p => (j.line? p).isSome).foldl touchLine j
          let j := if !ps.isEmpty && missing.isEmpty then j.count blkSPG 0x130 else j
          let j := missing.foldl (fun j p => j.demand id p) j
          probe id fuel (j.mapCtx id fun x => { x with probed := x.probed + 1, pins := x.pins ++ new })
      | _, _ => j

/-- Unpin the pages that no entry still to be worked needs (R150). -/
def unpin (j : Jenjor) (id : Nat) : Jenjor :=
  match j.ctx? id with
  | none => j
  | some x =>
    match j.coll? x.coll with
    | none => j
    | some c =>
      let need := ((workList x).drop x.rpos).flatMap (j.entryPages c x)
      (j.mapCtx id fun x => { x with pins := x.pins.filter need.contains }).dropStale

/-- Give a coarse entry its rerank key: −∞ without a record, dropped when NaN (R152). -/
def scoreEntry (mem : List Host.Cell) (j : Jenjor) (c : Coll) (x : Ctx) (e : Entry) : Jenjor :=
  if !e.hasRecord then
    (j.count blkSPG 0x140).mapCtx x.id fun x => { x with scored := x.scored ++ [{ e with key := negInfKey }] }
  else
    let used := (recordPages j c e).any fun p => (j.line? p).any fun l => l.spec
    let j := if used then j.count blkSPG 0x120 else j
    match fpKeyWord (rescore mem j c x e) with
    | none => (j.count blkSPG 0x138).mapCtx x.id fun x => { x with nanCount := min (x.nanCount + 1) 0xFFFFFFFF }
    | some k => j.mapCtx x.id fun x => { x with scored := x.scored ++ [{ e with key := k }] }

/-- Take the payload of a result entry (R155). -/
def takePayload (mem : List Host.Cell) (j : Jenjor) (c : Coll) (x : Ctx) (e : Entry) : Jenjor :=
  match recordOf j e, j.obj? c.objPayload with
  | some r, some o =>
    if !r.hasPayload then j
    else (j.touch o.num).mapCtx x.id fun y => { y with payloads := y.payloads ++ [(y.rpos, objBytes mem o r.payOff r.payLen)] }
  | _, _ => j

/-- Work through the entries in order whose pages are in the cache (R150). What the entry in turn still lacks is demanded
again, so that a page dropped meanwhile, or one that found the table of reads full, is read (R147). -/
def advance (mem : List Host.Cell) (id : Nat) : Nat → Jenjor → Jenjor
  | 0, j => j
  | fuel + 1, j =>
    let j := probe id 1025 j
    match j.ctx? id with
    | none => j
    | some x =>
      match j.coll? x.coll, (workList x)[x.rpos]? with
      | some c, some e =>
        let missing := (j.entryPages c x e).filter fun p => (j.line? p).isNone
        if x.probed ≤ x.rpos then j
        else if !missing.isEmpty then missing.foldl (fun j p => j.demand id p) j
        else
          let j := if x.phase = .payloadFetch then takePayload mem j c x e else scoreEntry mem j c x e
          advance mem id fuel ((j.mapCtx id fun x => { x with rpos := x.rpos + 1 }).unpin id)
      | _, _ => j

/-- Step 7 ends within the deadline: the core and its pins are freed, and the result is delivered. -/
def endStep7 (j : Jenjor) (id : Nat) : Jenjor :=
  let j := (j.mapCtx id fun x => { x with phase := .delivering, pins := [] }).dropStale
  count { j with spg := { j.spg with cores := j.spg.cores.map fun o => if o = some id then none else o } } blkSPG 0x100

/-- The query is on a core. -/
def onCore (x : Ctx) : Bool :=
  match x.phase with
  | .reranking _ => true
  | .payloadFetch => true
  | _ => false

/-- Take up work on a query's entries; a payload fetch ends when its last payload is read. -/
def work (mem : List Host.Cell) (j : Jenjor) (id : Nat) : Jenjor :=
  let j := if (j.ctx? id).any onCore then advance mem id 4097 j else j
  match j.ctx? id with
  | none => j
  | some x => if x.phase = .payloadFetch ∧ x.final.length ≤ x.rpos then j.endStep7 id else j

/-- Begin the vault payload reads of step 7, on the query's core (R155). -/
def beginPayloads (mem : List Host.Cell) (j : Jenjor) (id : Nat) : Jenjor :=
  ((j.mapCtx id fun x => { x with phase := .payloadFetch, rpos := 0, probed := 0, pins := [] }).dropStale.coarseIfDegraded id) |>.work mem id

/-- Cores that start new reranks (R142): 0 and 1 under R29 step 2. -/
def coresStarting (j : Jenjor) : Nat := if j.isl.shedStep < 2 then 4 else 2

/-- The query whose rerank starts next (R142): queue priority, then alighting order. -/
def nextRerank (j : Jenjor) : Option Ctx :=
  argmin (fun c => (7 - c.priority) * 2 ^ 64 + c.alighted) (j.sw.ctxs.filter fun c => c.phase == .rerankWait)

end Jenjor

/-! ### The events -/

/-- SPEC_REQUEST_ISSUE (R147, R148, R150): the oldest request of the cluster's queue. A page that a line holds is a hit
(R242). -/
def execSpecRequestIssue (c : Nat) (s : State) : Host.Outcome State Fault Refusal :=
  onUnit (decide (c < 18)) (onBlocks (fun j =>
    match j.cluster? c with
    | none => j
    | some y =>
      match y.specq with
      | [] => j
      | r :: rest =>
        let pages := match (j.ctx? r.1).bind fun x => j.coll? x.coll with
          | none => []
          | some cl => if r.2.1 then payloadPages j cl r.2.2 else recordPages j cl r.2.2
        let new := pages.filter fun p => (j.line? p).isNone && !j.reading p
        if 65536 < j.spg.reads.length + new.length then j
        else
          let j := j.mapCluster c fun y => { y with specq := rest }
          let j := (pages.filter fun p => (j.line? p).isSome).foldl touchLine j
          let j := if j.degraded then j
            else new.foldl (fun j p => if j.hasLine then j.issueRead p false [] else j.count blkSPG 0x118) j
          ((j.sw.ctxs.filter fun x => !x.specTodo.isEmpty).map fun x => x.id).foldl (fun j id => queueSpec id 1025 j) j) s)

/-- RERANK_START (R142): the core takes the next query; the pages it lacks are demanded, unless the vault is degraded
(R155). -/
def execRerankStart (core : Nat) (s : State) : Host.Outcome State Fault Refusal :=
  onUnit (decide (core < 4)) (onReading (fun mem _ j =>
    if j.spg.cores.getD core none != none || j.coresStarting ≤ core || j.isl.whole then j
    else
      match j.nextRerank with
      | none => j
      | some x =>
        let j := j.coarseIfDegraded x.id
        if (j.ctx? x.id).any fun x => x.phase == .rerankWait then
          let j := { j with spg := { j.spg with cores := j.spg.cores.set core (some x.id) } }
          if qRerank x.d = 0 then j.beginPayloads mem x.id
          else (j.mapCtx x.id fun x => { x with phase := .reranking core }).work mem x.id
        else j) s)

/-- A record page that cannot be read: the queries that need it take the coarse path (R156). -/
def Jenjor.failRecordPage (j : Jenjor) (page : Nat) : Jenjor :=
  match j.spg.reads.find? fun r => r.page == page with
  | none => j
  | some r =>
    let j : Jenjor := { j with spg := { j.spg with reads := j.spg.reads.erase r } }
    let j := (j.count blkSPG 0x148).fault 2 blkSPG 0 0x148 (page * 16384) 0 0
    r.waiters.foldl coarsePath j

/-- RECORD_PAGE_READ_COMPLETE (R149, R156): the page fills a line and its waiters go on, with any core that waits for room
in the table of reads, or the queries that need it take the coarse path. -/
def execRecordPageReadComplete (page : Nat) (ok : Bool) (s : State) : Host.Outcome State Fault Refusal :=
  onReading (fun mem _ j =>
    match j.spg.reads.find? fun r => r.page == page with
    | none => j
    | some r =>
      if ok && (r.demand || !r.waiters.isEmpty) && !j.hasLine then j
      else
        if ok then
          let j := { j with spg := { j.spg with reads := j.spg.reads.erase r } }
          (r.waiters ++ j.spg.cores.filterMap id).eraseDups.foldl (fun j id => j.work mem id) (j.fillLine page (!r.demand))
        else j.failRecordPage page) s

/-- RERANK_COMPLETE (R154): every coarse entry has its key or is dropped; the first k, then the vault payloads. -/
def execRerankComplete (core : Nat) (s : State) : Host.Outcome State Fault Refusal :=
  onUnit (decide (core < 4)) (onReading (fun mem _ j =>
    match (j.spg.cores.getD core none).bind j.ctx? with
    | none => j
    | some x =>
      if x.phase != .reranking core || x.rpos < x.coarse.length then j
      else
        let j := j.mapCtx x.id fun x => { x with final := firstOf true (qK x.d) x.scored, reranked := true }
        if x.vaultPay then j.beginPayloads mem x.id
        else j.endStep7 x.id) s)

/-- RERANK_DEADLINE (R156). -/
def execRerankDeadline (ctx : Nat) (s : State) : Host.Outcome State Fault Refusal :=
  onBlocks (fun j =>
    match j.ctx? ctx with
    | none => j
    | some x =>
      match x.phase with
      | .rerankWait => j.coarsePath ctx
      | .reranking _ => j.coarsePath ctx
      | .payloadFetch => j.coarsePath ctx
      | _ => j) s

end Sys2Proof.Machine
end

