-- ==== Sys2Proof/Machine/Sha.lean ====
section
/-! DEFINITION. Sys2Proof/Machine/Sha.lean: SHA-384 (FIPS 180-4), the hash of the cross-check digests (R359) and of the
measured packages (R205). The chaining value is one 512-bit vector and a message block one 1,024-bit shift register, first
word uppermost; the constants are computed from the roots of primes that FIPS 180-4 takes them from. -/

namespace Sys2Proof.Machine

/-- Greatest `r + x` with `x < 2^b` whose `k`th power is at most `n`. -/
def rootFrom (k n : Nat) : Nat → Nat → Nat
  | 0, r => r
  | b + 1, r => rootFrom k n b (if (r + 2 ^ b) ^ k ≤ n then r + 2 ^ b else r)

/-- First 64 bits of the fractional part of the `k`th root of `p`, for a root below 8. -/
def rootBits (k p : Nat) : BitVec 64 := BitVec.ofNat 64 (rootFrom k (p * 2 ^ (64 * k)) 67 0)

/-- The first `n` primes from `c` on, given the primes below `c`; `fuel` bounds the search. -/
def primesFrom : Nat → Nat → List Nat → List Nat
  | 0, _, ps => ps.reverse
  | fuel + 1, c, ps => primesFrom fuel (c + 1) (if ps.all fun p => c % p != 0 then c :: ps else ps)

/-- The 80 primes below 410. -/
def shaPrimes : List Nat := primesFrom 408 2 []

/-- Round constants: cube roots of the first 80 primes. -/
def roundConsts : List (BitVec 64) := shaPrimes.map (rootBits 3)

/-- First chaining value: square roots of the ninth to sixteenth primes. -/
def chain384 : BitVec 512 := ((shaPrimes.drop 8).take 8).foldl (fun v p => (v ++ rootBits 2 p).setWidth 512) 0

/-- Word `i` of a vector of `n` words, from the uppermost. -/
def upper {w : Nat} (n i : Nat) (v : BitVec w) : BitVec 64 := v.extractLsb' (64 * (n - 1 - i)) 64

/-- The exclusive-or of right rotations of a word. -/
def rotations (rs : List Nat) (x : BitVec 64) : BitVec 64 := rs.foldl (fun y r => y ^^^ x.rotateRight r) 0

/-- One round: the chaining value shifts down one word, the message register up one. -/
def shaStep (s : BitVec 512 × BitVec 1024) (k : BitVec 64) : BitVec 512 × BitVec 1024 :=
  let x := fun i => upper 8 i s.1
  let m := fun i => upper 16 i s.2
  let pick := x 6 ^^^ (x 4 &&& (x 5 ^^^ x 6))
  let most := (x 0 &&& x 1) ||| (x 2 &&& (x 0 ||| x 1))
  let up := rotations [14, 18, 41] (x 4) + pick + x 7 + m 0 + k
  let next := m 0 + m 9 + (rotations [1, 8] (m 1) ^^^ (m 1 >>> 7)) + (rotations [19, 61] (m 14) ^^^ (m 14 >>> 6))
  ((up + most + rotations [28, 34, 39] (x 0)) ++ s.1.extractLsb' 320 192 ++ (x 3 + up) ++ s.1.extractLsb' 64 192,
    s.2.setWidth 960 ++ next)

/-- One block: 80 rounds, then word by word the sum with the chaining value. -/
def shaBlock (v : BitVec 512) (m : BitVec 1024) : BitVec 512 :=
  let r := (roundConsts.foldl shaStep (v, m)).1
  (List.range 8).foldl (fun acc i => (acc ++ (upper 8 i v + upper 8 i r)).setWidth 512) 0

/-- The padded message: a one bit, zeros, and the length in bits in the last 16 bytes of a block. -/
def shaPad (bs : List Byte) : List Byte :=
  bs ++ [0x80#8] ++ List.replicate ((239 - bs.length % 128) % 128) 0 ++ (leBytes 16 (8 * bs.length)).reverse

/-- Chain the first `n` blocks of a padded message. -/
def shaChain : Nat → BitVec 512 → List Byte → BitVec 512
  | 0, v, _ => v
  | n + 1, v, bs => shaChain n (shaBlock v (BitVec.ofNat 1024 (leNat (bs.take 128).reverse))) (bs.drop 128)

/-- The 48 bytes of SHA-384. -/
def sha384 (bs : List Byte) : List Byte :=
  let p := shaPad bs
  (leBytes 64 (shaChain (p.length / 128) chain384 p).toNat).reverse.take 48

end Sys2Proof.Machine
end

