-- ==== Sys2Proof/Machine/Delivery.lean ====
section
/-! DEFINITION. Sys2Proof/Machine/Delivery.lean: delivered bytes and the completions behind them (R285 to R287), results
(R280 to R284, R290) with their cross-check (R359), and the end of a query's lifetime (R20): RESULT_DELIVERY,
FLUSH_READ_COMPLETE, FLUSH_READ_FAILED, COALESCING_TIMEOUT, QUERY_LIFETIME_EXPIRY. -/

namespace Sys2Proof.Machine
open Jenjor

namespace Jenjor

/-- End a command: its query context, if it has one, and its completion. -/
def endCommand (j : Jenjor) (id : Nat) (r : CmdRef) (st : Status) (v0 v1 : BitVec 64) (len : Option Nat) : Jenjor :=
  (j.dropCtx id).complete r st v0 v1 len

/-- Hold a completion for its flush read or acknowledgement (R286). -/
def holdCompletion (j : Jenjor) (w : Waiting) : Jenjor :=
  ({ j with qs := { j.qs with waits := j.qs.waits ++ [w] } }).mapCtx w.id fun x =>
    { x with phase := if w.flush then .flushing else .ackWait }

/-- A byte goes to the PCIe function of the submitting queue's CQ. -/
def ownFunction (q : Queue) (addr : Nat) : Bool := Config.pcieFunction addr == Config.pcieFunction q.cqBase

/-- The last of `len` bytes from an address that goes to another PCIe function than the CQ (R286). -/
def foreignByte (q : Queue) (addr : Nat) : Nat → Option Nat
  | 0 => none
  | len + 1 => if ownFunction q (addr + len) then foreignByte q addr len else some (addr + len)

/-- The last packet sequence number sent on a queue pair. -/
def lastPsn (j : Jenjor) (n : Nat) : Nat := ((j.qp? n).map fun p => (p.psn + 2 ^ 24 - 1) % 2 ^ 24).getD 0

/-- Deliver a command's bytes, then complete it as R286 orders: behind the bytes, behind a flush read, or behind the
acknowledgement of the RDMA WRITEs. `dq` is the delivery queue, 0 for the submitting queue's own transport (R285). -/
def deliverThen (j : Jenjor) (id : Nat) (r : CmdRef) (dq addr : Nat) (rkey : BitVec 32) (data : List Byte) (st : Status)
    (v0 v1 : BitVec 64) (len : Option Nat) : Jenjor :=
  let w : Waiting := { id := id, ref := r, status := st, v0 := v0, v1 := v1, len := len, flush := false, qpn := 0, psn := 0 }
  let rdma := fun (n : Nat) (own : Bool) =>
    if j.qpAlive n then
      let j := j.sendRdma n addr rkey data
      if own then j.endCommand id r st v0 v1 len else j.holdCompletion { w with qpn := n, psn := j.lastPsn n }
    else j.endCommand id r .deliveryFailed 0 0 none
  match j.queue? r.q with
  | none => j.endCommand id r st v0 v1 len
  | some q =>
    if data.isEmpty then j.endCommand id r st v0 v1 len
    else if dq ≠ 0 then
      match j.queue? dq with
      | none => j.endCommand id r .deliveryFailed 0 0 none
      | some d => if d.kind = 4 then rdma d.qpn (q.roce && q.qpn == d.qpn) else j.endCommand id r .deliveryFailed 0 0 none
    else if q.roce then rdma q.qpn true
    else if r.gen != j.lnk.resets then (j.record 5 blkLNK q.num 0xFFFF 0 0 0).endCommand id r st v0 v1 len
    else
      let j := j.emit (.pcieWrite addr data)
      match foreignByte q addr data.length with
      | none => j.endCommand id r st v0 v1 len
      | some a => (j.emit (.flushRead a)).holdCompletion { w with flush := true }

/-- Release a held completion with a status of its own. -/
def releaseWaiting (j : Jenjor) (w : Waiting) (ok : Bool) : Jenjor :=
  let j := { j with qs := { j.qs with waits := j.qs.waits.erase w } }
  if ok then j.endCommand w.id w.ref w.status w.v0 w.v1 w.len else j.endCommand w.id w.ref .deliveryFailed 0 0 none

/-- A new number for a command that is no query. -/
def newId (j : Jenjor) : Nat × Jenjor := (j.sw.arrivals, { j with sw := { j.sw with arrivals := j.sw.arrivals + 1 } })

/-! ### Results -/

/-- Payloads that are read in step 8, of a query whose payload table was in sweep memory when its merge ended (R155). -/
def sweepPayloads (mem : List Host.Cell) (j : Jenjor) (c : Coll) (id : Nat) : Jenjor :=
  match j.ctx? id with
  | none => j
  | some x =>
    if !qPayloads x.d || x.tookCoarse || x.vaultPay || x.payloads ≠ [] then j
    else
      x.final.foldl (fun j e =>
        match j.ctx? id with
        | none => j
        | some y => (takePayload mem j c y e).mapCtx id fun x => { x with rpos := x.rpos + 1 })
        (j.mapCtx id fun x => { x with rpos := 0 })

/-- The first 32 bytes of the SHA-384 of a result record without its timing flags (R359). -/
def resultDigest (c : Coll) (x : Ctx) (coarse : Bool) : BitVec 256 :=
  BitVec.ofNat 256 (leNat ((sha384 (resultRecord (fpKeys c) x false coarse false)).take 32))

/-- Deliver a query's result and complete it (R284 to R286, R290). -/
def deliverQuery (j : Jenjor) (c : Coll) (x : Ctx) : Jenjor :=
  let stale := j.readOnlyNow
  let trunc := qRange x.d && 4096 < x.qualCount
  let rec_ := resultRecord (fpKeys c) x stale x.tookCoarse true
  let j := if x.tookCoarse then j.count blkSPG 0x108 else j
  let j := if trunc then j.count blkCMP 0x2008 else j
  j.deliverThen x.id x.ref (qDelivery x.d) (dField x.d 0x18 8) (BitVec.ofNat 32 (dField x.d 0x20 4)) rec_
    (resultStatus x.stretched x.tookCoarse false trunc stale)
    (BitVec.ofNat 64 (if stale then j.wr.epoch else x.epoch)) (BitVec.ofNat 64 (if c.bias.isSome then x.frame else 0))
    (some rec_.length)

/-- A query ready to deliver: the companion's copy answers with its digests, the origin compares them (R359). -/
def resultReady (j : Jenjor) (c : Coll) (x : Ctx) : Jenjor :=
  let fin := resultDigest c x x.tookCoarse
  let coa := resultDigest c x true
  match x.xtag with
  | none => j.deliverQuery c x
  | some (tag, false) =>
    (j.sendCpn 0x0A tag (if x.tookCoarse then 1 else 0) 0 (leBytes 32 fin.toNat ++ leBytes 32 coa.toNat)).dropCtx x.id
  | some (_, true) =>
    match x.xpeer with
    | none => j
    | some (pf, pc, pcoarse) =>
      let coarse := x.tookCoarse || pcoarse
      if (if coarse then coa == pc else fin == pf) then j.deliverQuery c { x with tookCoarse := coarse }
      else
        let mine := if coarse then coa else fin
        let theirs := if coarse then pc else pf
        (((j.count blkCPN 0x118).record 2 blkCPN 0 0x118 0 Status.internalError.code mine).record 2 blkCPN 0 0x118 0
          Status.internalError.code theirs).abortCtx x.id .internalError

end Jenjor

/-! ### The events -/

/-- RESULT_DELIVERY (R284 to R286, R359). -/
def execResultDelivery (ctx : Nat) (s : State) : Host.Outcome State Fault Refusal :=
  onReading (fun mem _ j =>
    match (j.ctx? ctx).bind fun x => j.coll? x.coll with
    | none => j
    | some c =>
      if (j.ctx? ctx).any fun x => x.phase == .delivering then
        let j := j.sweepPayloads mem c ctx
        match j.ctx? ctx with
        | none => j
        | some x => j.resultReady c x
      else j) s

/-- FLUSH_READ_COMPLETE (R286). -/
def execFlushReadComplete (ctx : Nat) (s : State) : Host.Outcome State Fault Refusal :=
  onBlocks (fun j =>
    match j.qs.waits.find? fun w => w.id == ctx && w.flush with
    | none => j
    | some w => j.releaseWaiting w true) s

/-- FLUSH_READ_FAILED (R287, R338, R340). -/
def execFlushReadFailed (ctx : Nat) (s : State) : Host.Outcome State Fault Refusal :=
  onBlocks (fun j =>
    match j.qs.waits.find? fun w => w.id == ctx && w.flush with
    | none => j
    | some w => ((((j.count blkLNK 0x10).emit (.aer 0)).record 5 blkLNK 0 0x10 0 Status.deliveryFailed.code 0)).releaseWaiting w false) s

/-- COALESCING_TIMEOUT (R288). -/
def execCoalescingTimeout (q : Nat) (s : State) : Host.Outcome State Fault Refusal :=
  onBlocks (fun j =>
    match j.queue? q with
    | none => j
    | some x =>
      if x.irqCount = 0 then j
      else (j.mapQueue q fun x => { x with irqCount := 0, irqSince := 0 }).sendVector x.vector) s

/-- Held by the lifetime limit: boarded, and no result byte written yet (R20). -/
def lifetimeApplies (x : Ctx) : Bool :=
  match x.phase with
  | .riding => true
  | .alighting => true
  | .merging => true
  | .rerankWait => true
  | .reranking _ => true
  | .payloadFetch => true
  | .delivering => true
  | _ => false

/-- The lifetime limit of a query in ns (R20): 60 s, or 1,000 s on a deep-field ring. -/
def lifetimeLimit (j : Jenjor) (x : Ctx) : Nat :=
  if (j.ring? x.ring).any fun r => r.defn.any fun d => d.deep then 1000000000000 else 60000000000

/-- QUERY_LIFETIME_EXPIRY (R20): the limit, counted from the boarding boundary, has passed, so DEV_TIME stands no earlier
than its end. -/
def execQueryLifetimeExpiry (ctx : Nat) (s : State) : Host.Outcome State Fault Refusal :=
  onBlocks (fun j =>
    match j.ctx? ctx with
    | none => j
    | some x =>
      if lifetimeApplies x then
        let j : Jenjor := { j with time := max j.time (x.boardTime + lifetimeLimit j x) }
        (j.mapRing x.ring fun r => { r with expired := min (r.expired + 1) 0xFFFFFFFF }).abortCtx ctx .queryExpired
      else j) s

end Sys2Proof.Machine
end

