-- ==== Sys2Proof/Machine/Encoder.lean ====
section
/-! DEFINITION. Sys2Proof/Machine/Encoder.lean: Coelostat's arithmetic (R165): correctly rounded exp, erf and rsqrt,
accumulation, softmax, normalisation, GELU, rotation and pooling. -/

namespace Sys2Proof.Machine

/-- 2^p · v, at exponent −p. -/
def fixedFp (v p : Nat) : Fp := .fin false v (-(p : Int))

/-! ### Correctly rounded functions: two bounds, refined until both round to one FP32 value -/

/-- Raise the precision from `p` bits until the bounds round alike. -/
def refine (bounds : Nat → Fp × Fp) : Nat → Nat → Fp
  | 0, p => (bounds p).1.r32
  | fuel + 1, p =>
    let b := bounds p
    if b.1.toF32 = b.2.toF32 then b.1.r32 else refine bounds fuel (2 * p)

/-- Sums of x^i / i! for x = m · 2^e, each term rounded down and up at `p` bits: (term, term above, sum, sum above). -/
def expTerms (m : Nat) (e : Int) (p : Nat) : Nat → Nat → Nat → Nat → Nat → Nat → Nat × Nat
  | 0, _, _, hi, sl, sh => (sl, sh + hi + 1)
  | fuel + 1, i, lo, hi, sl, sh =>
    let scale := fun (v : Nat) => if 0 ≤ e then v * m * 2 ^ e.toNat else v * m / 2 ^ (-e).toNat
    let up := fun (v : Nat) => if 0 ≤ e then v * m * 2 ^ e.toNat else (v * m + (2 ^ (-e).toNat - 1)) / 2 ^ (-e).toNat
    let lo' := scale lo / i
    let hi' := (up hi + (i - 1)) / i
    expTerms m e p fuel (i + 1) lo' hi' (sl + lo') (sh + hi')

/-- Bounds on exp of ± m · 2^e at `p` bits, for a magnitude of at most 128. -/
def expBounds (neg : Bool) (m : Nat) (e : Int) (p : Nat) : Fp × Fp :=
  let b := expTerms m e p 900 1 (2 ^ p) (2 ^ p) (2 ^ p) (2 ^ p)
  if neg then (fixedFp (2 ^ (3 * p) / b.2) (2 * p), fixedFp (2 ^ (3 * p) / b.1 + 1) (2 * p))
  else (fixedFp b.1 p, fixedFp b.2 p)

/-- exp (R165): beyond ±128 the result overflows, or rounds to zero. -/
def Fp.exp : Fp → Fp
  | .nan => .nan
  | .inf neg => if neg then Fp.zero else .inf false
  | .fin neg m e =>
    if m = 0 then Fp.one
    else if (Fp.fin false 128 0).lt (.fin false m e) then (if neg then Fp.zero else .inf false)
    else refine (expBounds neg m e) 4 256

/-- Arctangent of 1/q at `p` bits, to within `fuel` units. -/
def atanInv (q p : Nat) : Nat → Nat → Int
  | 0, _ => 0
  | fuel + 1, k =>
    let t : Int := (2 ^ p / ((2 * k + 1) * q ^ (2 * k + 1)) : Nat)
    (if k % 2 = 0 then t else -t) + atanInv q p fuel (k + 1)

/-- π at `p` bits, from below and above (Machin). -/
def piBounds (p : Nat) : Nat × Nat :=
  let v := (16 * atanInv 5 p (p / 4 + 4) 0 - 4 * atanInv 239 p (p / 4 + 4) 0).toNat
  (v - 32 * p, v + 32 * p)

/-- Sums of (−1)^n · y^n / (n! · (2n+1)) for y = m · 2^e, positive and negative terms apart, down and up: y^n/n! is carried
from term to term. -/
def erfTerms (m : Nat) (e : Int) : Nat → Nat → Nat → Nat → (Nat × Nat × Nat × Nat) → Nat × Nat × Nat × Nat
  | 0, _, _, hi, (pl, ph, nl, nh) => (pl, ph + hi + 1, nl, nh + hi + 1)
  | fuel + 1, n, lo, hi, (pl, ph, nl, nh) =>
    let d := 2 * n + 1
    let t := lo / d
    let u := (hi + (d - 1)) / d
    let acc := if n % 2 = 0 then (pl + t, ph + u, nl, nh) else (pl, ph, nl + t, nh + u)
    let scale := fun (v : Nat) => if 0 ≤ e then v * m * 2 ^ e.toNat else v * m / 2 ^ (-e).toNat
    let up := fun (v : Nat) => if 0 ≤ e then v * m * 2 ^ e.toNat else (v * m + (2 ^ (-e).toNat - 1)) / 2 ^ (-e).toNat
    erfTerms m e fuel (n + 1) (scale lo / (n + 1)) ((up hi + n) / (n + 1)) acc

/-- Bounds on erf of m · 2^e at `p` bits, for a magnitude of at most 4: x · (2/√π) · Σ. -/
def erfBounds (m : Nat) (e : Int) (p : Nat) : Fp × Fp :=
  let s := erfTerms (m * m) (2 * e) 900 0 (2 ^ p) (2 ^ p) (0, 0, 0, 0)
  let pi := piBounds p
  let lo := isqrt (4 * 2 ^ (3 * p) / pi.2) * (s.1 - s.2.2.2)
  let hi := (isqrt (4 * 2 ^ (3 * p) / pi.1 + 1) + 1) * (s.2.1 - s.2.2.1)
  ((Fp.fin false m e).mul (fixedFp lo (2 * p)), (Fp.fin false m e).mul (fixedFp hi (2 * p)))

/-- erf (R165): from a magnitude of 4 the result rounds to one. -/
def Fp.erf : Fp → Fp
  | .nan => .nan
  | .inf neg => if neg then Fp.one.neg else Fp.one
  | .fin neg m e =>
    if m = 0 then .fin neg 0 0
    else
      let v := if (Fp.fin false m e).lt (.fin false 4 0) then refine (erfBounds m e) 4 256 else Fp.one
      if neg then v.neg else v

/-- rsqrt (R165): the root of the quotient to 64 bits beyond FP32, with a sticky bit. The reciprocal root of −0 is −∞,
as IEEE 754 gives it. -/
def Fp.rsqrt : Fp → Fp
  | .nan => .nan
  | .inf neg => if neg then .nan else Fp.zero
  | .fin neg m e =>
    if m = 0 then .inf neg
    else if neg then .nan
    else
      let sh : Nat := 2 * Nat.log2 m + 192 + (if e % 2 = 0 then 0 else 1)
      let v := 2 ^ sh / m
      let r := isqrt v
      (Fp.fin false (2 * r + (if r * r * m = 2 ^ sh then 0 else 1)) (-((e + sh) / 2) - 1)).r32

/-! ### FP32 steps -/

def add32 (a b : Fp) : Fp := (a.add b).r32
def sub32 (a b : Fp) : Fp := (a.sub b).r32
def mul32 (a b : Fp) : Fp := (a.mul b).r32
def div32 (a b : Fp) : Fp := (a.div b).r32
def fma32 (a b c : Fp) : Fp := ((a.mul b).add c).r32

/-- x · 2^k, exactly. -/
def Fp.scale (k : Int) : Fp → Fp
  | .nan => .nan
  | .inf n => .inf n
  | .fin n m e => .fin n m (e + k)

/-- One level of the pairwise tree: index 2i is added to 2i + 1. -/
def pairSums : List Fp → List Fp
  | a :: b :: xs => add32 a b :: pairSums xs
  | xs => xs

/-- The fixed pairwise tree of R165; `fuel` at least the number of levels. -/
def treeSum : Nat → List Fp → Fp
  | _, [] => Fp.zero
  | _, [x] => x.r32
  | 0, x :: _ => x
  | fuel + 1, xs => treeSum fuel (pairSums xs)

/-- The slice sum of exact products. -/
def sliceSum (a b : List Fp) : Fp := treeSum 16 ((a.zip b).map fun p => p.1.mul p.2)

/-- Cut a list into slices of 256. -/
def slices256 : Nat → List (Fp × Fp) → List (List (Fp × Fp))
  | 0, _ => []
  | fuel + 1, xs => if xs.isEmpty then [] else xs.take 256 :: slices256 fuel (xs.drop 256)

/-- An inner product under the accumulation rule of R165. -/
def accumulate (a b : List Fp) : Fp :=
  (slices256 (a.length / 256 + 1) (a.zip b)).foldl
    (fun acc s => add32 acc (treeSum 16 (s.map fun p => p.1.mul p.2))) Fp.zero

/-- Greatest of a list; NaN propagates. -/
def maxFp : List Fp → Fp
  | [] => .inf true
  | x :: xs => xs.foldl (fun m y => if m.isNaN || y.isNaN then .nan else if m.lt y then y else m) x

/-- Sum in ascending order from +0, each step rounded. -/
def runSum (xs : List Fp) : Fp := xs.foldl add32 Fp.zero

/-- Softmax weights (R165), in the activation format. -/
def softmax (f : FpFmt) (s : List Fp) : List Fp :=
  let m := maxFp s
  let es := s.map fun x => (sub32 x m).exp
  let sigma := runSum es
  es.map fun e => (div32 e sigma).round f

/-- Layer normalisation of one row (R165). -/
def layerNorm (f : FpFmt) (eps : Fp) (gamma beta x : List Fp) : List Fp :=
  let h := Fp.ofNat x.length
  let mu := div32 (runSum x) h
  let d := x.map fun v => sub32 v mu
  let v := div32 (runSum (d.map fun y => mul32 y y)) h
  let r := (add32 v eps).rsqrt
  (d.zip (gamma.zip beta)).map fun t => (fma32 (mul32 t.1 r) t.2.1 t.2.2).round f

/-- GELU (R165); 0.70710677 is the FP32 word 0x3F3504F3. -/
def gelu (f : FpFmt) (x : Fp) : Fp :=
  let half := Fp.fin false 1 (-1)
  (mul32 (mul32 x half) (add32 Fp.one (mul32 x (Fp.ofF32 0x3F3504F3#32)).erf)).round f

/-- Rotation of one element pair (R165). -/
def rotate (f : FpFmt) (c s x0 x1 : Fp) : Fp × Fp :=
  ((fma32 x0 c (mul32 x1 s).neg).round f, (fma32 x0 s (mul32 x1 c)).round f)

/-- The exponent of A8 matrix input (R165): the smallest from −126 with max|x| · 2^(−e) ≤ 448; none when no exponent
meets it. -/
def a8Exponent (xs : List Fp) : Option Int :=
  if xs.any fun x => !x.isFinite && !x.isNaN then none
  else
    let top := maxFp (xs.filterMap fun x => if x.isNaN then none else some (if x.isNeg then x.neg else x))
    ((List.range 254).find? fun (k : Nat) => !((Fp.fin false 448 0).lt (top.scale (126 - (k : Int))))).map fun (k : Nat) => (k : Int) - 126

/-- Pooling modes (R164): 0 mean, 1 first token, 2 last token, 3 maximum, of one element's values in token order. -/
def poolElement (f : FpFmt) (mode : Nat) (xs : List Fp) : Fp :=
  if mode = 0 then (div32 (runSum xs) (Fp.ofNat xs.length)).round f
  else if mode = 1 then xs.headD Fp.zero
  else if mode = 2 then xs.getLastD Fp.zero
  else (xs.tail.foldl (fun m y => if m.isNaN || y.isNaN then Fp.nan else if m.lt y then y else m) (xs.headD Fp.zero)).round f

end Sys2Proof.Machine
end

