-- ==== Sys2Proof/Machine/Programs.lean ====
section
/-! DEFINITION. Sys2Proof/Machine/Programs.lean: Coelostat programs (R180 to R205): instruction fields, image checks, a
rank's memory, and program faults. A rank executes its instructions one at a time in program order (R194). -/

namespace Sys2Proof.Machine

/-! ### Instruction fields (R185 to R187) -/

/-- A 16-byte instruction. -/
abbrev Ins := BitVec 128

def insField (i : Ins) (lo w : Nat) : Nat := (i.extractLsb' lo w).toNat
def insOp (i : Ins) : Nat := insField i 120 8
def insMod (i : Ins) : Nat := insField i 112 8
def insTile (i : Ins) : Nat := insField i 107 5
def insCount (i : Ins) : Nat := insField i 96 11
def insA (i : Ins) : Nat := insField i 64 32
def insB (i : Ins) : Nat := insField i 32 32
def insC (i : Ins) : Nat := insField i 0 32
/-- Scalar fields d and s. -/
def insD (i : Ins) : Nat := insMod i % 16
def insS (i : Ins) : Nat := insMod i / 16
/-- Rows that "row quarters q" names in a 256-row block. -/
def insRows (i : Ins) : Nat := 64 * (insMod i % 4 + 1)

/-- The bits that an opcode uses, as (first bit, width); an SRAM operand's bits [26:20] are reserved (R186). -/
def sramBits (lo : Nat) : List (Nat × Nat) := [(lo, 20), (lo + 27, 5)]

def insUsed (op : Nat) : Option (List (Nat × Nat)) :=
  let a := sramBits 64
  let b := sramBits 32
  let c := sramBits 0
  let count := [(96, 11)]
  let tile := [(107, 5)]
  let q := [(112, 2)]
  if op = 0x00 ∨ op = 0x01 ∨ op = 0x13 then some []
  else if op = 0x02 ∨ op = 0x06 ∨ op = 0x07 then some [(112, 4), (0, 32)]
  else if op = 0x03 ∨ op = 0x04 ∨ op = 0x05 then some [(112, 8), (0, 32)]
  else if op = 0x08 ∨ op = 0x09 then some count
  else if op = 0x10 then some ([(112, 4), (32, 7), (0, 32)] ++ count)
  else if op = 0x11 then some ((32, 7) :: count)
  else if op = 0x12 then some ((64, 7) :: count)
  else if op = 0x20 then some (tile ++ count)
  else if op = 0x21 then some ([(112, 5), (32, 7), (40, 7)] ++ tile ++ count ++ a)
  else if op = 0x22 then some ([(112, 8)] ++ tile ++ a ++ b ++ c)
  else if op = 0x23 then some ([(116, 4)] ++ count ++ a ++ b)
  else if op = 0x30 then some ([(116, 4), (32, 32), (0, 32)] ++ count ++ a)
  else if op = 0x31 ∨ op = 0x33 ∨ op = 0x34 then some (q ++ count ++ a ++ b ++ c)
  else if op = 0x32 then some (q ++ count ++ a ++ b)
  else if op = 0x35 then some ([(116, 4)] ++ count ++ a ++ b ++ c)
  else if op = 0x38 then some ([(112, 4)] ++ tile ++ count ++ a ++ b ++ c)
  else if op = 0x39 then some (count ++ a ++ b)
  else if op = 0x3A then some ([(0, 32)] ++ a ++ b)
  else if op = 0x3B then some ([(112, 1)] ++ count ++ a)
  else none

/-! ### Models as programs see them -/

def ModelHeader.flag (h : ModelHeader) (b : Nat) : Bool := h.flags.getLsbD b
def ModelHeader.act (h : ModelHeader) : FpFmt := if h.flag 9 then fmtFP16 else fmtBF16
def ModelHeader.weight (h : ModelHeader) : FpFmt := if h.flag 8 then fmtE5M2 else fmtE4M3
def ModelHeader.headDim (h : ModelHeader) : Nat := h.width / h.heads
def ModelHeader.pooling (h : ModelHeader) : Nat := h.flags.toNat / 16 % 4

/-- 64-byte units of one rotary table in the constants (R164, R183). -/
def ModelHeader.rotaryUnits (h : ModelHeader) : Nat := ceilDiv (h.maxSeq * (h.headDim / 2) * 4) 64

/-- Units of `rows` rows of the model's width (R183). -/
def ModelHeader.rowUnits (h : ModelHeader) (rows : Nat) : Nat := ceilDiv rows 256 * (h.width / 64 * 0x200)

/-- First panel and stride of an MMA (R187). -/
def mmaPanels (i : Ins) : Nat × Nat := (insB i % 128, insB i / 256 % 128)

/-- SRAM operands of an opcode: (word, units of its extent, written). Extents of POOL and EMIT follow the pass; the least
is one row block (R186). -/
def insOperands (m : ModelHeader) (i : Ins) : List (Nat × Nat × Bool) :=
  let op := insOp i
  let n := insCount i
  let a := insA i
  let b := insB i
  let c := insC i
  let blk := n * 0x800
  if op = 0x21 then [(a, if insMod i / 16 % 2 = 1 then 0x400 else 0x800, false)]
  else if op = 0x22 then
    [(a, 1, false), (b, 0x200, true)] ++ (if insMod i / 4 % 2 = 1 then [] else [(c, 2, false)])
  else if op = 0x23 then [(a, blk, false), (b, n * 0x400, true)]
  else if op = 0x30 then [(a, m.rowUnits (64 * n), true)]
  else if op = 0x31 then [(a, blk, false), (b, blk, true), (c, n * 16, false)]
  else if op = 0x32 then [(a, blk, false), (b, blk, true)]
  else if op = 0x33 ∨ op = 0x34 then [(a, blk, false), (b, blk, false), (c, blk, true)]
  else if op = 0x35 then [(a, blk, false), (b, blk, true), (c, 2 * m.rotaryUnits, false)]
  else if op = 0x38 then [(a, n * (m.headDim * 8), true), (b, n * (m.headDim * 8), false), (c, n * (m.headDim * 8), false)]
  else if op = 0x39 then [(a, blk, false), (b, blk, true)]
  else if op = 0x3A then [(a, 8 * c, false), (b, 8 * c, true)]
  else if op = 0x3B then [(a, blk, false)]
  else []

/-! ### Program images (R202, R203) -/

structure Image9 where
  arith : Nat
  count : Nat
  footprint : Nat
  accTiles : Nat
  stagePanels : Nat
  tokenLimit : Nat
  digest : List Byte
  instrs : List Ins
  deriving DecidableEq, Repr

def parseImage (bs : List Byte) : Image9 :=
  let n := fieldAt bs 0x08 4
  { arith := fieldAt bs 6 2, count := n, footprint := fieldAt bs 0x0C 4, accTiles := fieldAt bs 0x10 2,
    stagePanels := fieldAt bs 0x12 2, tokenLimit := fieldAt bs 0x14 4, digest := bytesAt bs 0x20 48,
    instrs := (List.range (min n 1048576)).map fun k => BitVec.ofNat 128 (fieldAt bs (256 + 16 * k) 16) }

/-- An instruction that R203 refuses. `constUnits` are the model's constants. -/
def insBad (g : Image9) (m : ModelHeader) (constUnits : Nat) (idx : Nat) (i : Ins) : Bool :=
  let op := insOp i
  let n := insCount i
  let sramBad := fun (x : Nat × Nat × Bool) =>
    let const := x.1 / 2 ^ 27 % 2 == 1
    (const && x.2.2)
      || (x.1 / 2 ^ 28 == 0 && (if const then constUnits else g.footprint) < x.1 % 2 ^ 20 + x.2.1)
  match insUsed op with
  | none => true
  | some fs =>
    let mask := fs.foldl (fun (m : Ins) f => m ||| BitVec.ofNat 128 ((2 ^ f.2 - 1) * 2 ^ f.1)) (BitVec.ofNat 128 (255 * 2 ^ 120))
    i &&& ~~~mask != 0
      || (op == 0x06 && idx < insC i)
      || (op == 0x07 && (insC i == 0 || g.count ≤ idx + 1 + insC i))
      || ((0x02 ≤ op && op ≤ 0x06) && (insD i == 0 || 10 ≤ insD i))
      || ((op == 0x10 || op == 0x11) && (n == 0 || g.stagePanels < insB i % 128 + n))
      || (op == 0x12 && (n == 0 || g.stagePanels < insA i % 128 + n))
      || (op == 0x20 && (n == 0 || 32 < n || g.accTiles < insTile i + n))
      || (op == 0x21 && (g.accTiles < insTile i + insMod i % 4 + 1
            || g.stagePanels ≤ (mmaPanels i).1 + insMod i % 4 * (mmaPanels i).2))
      || (op == 0x22 && g.accTiles ≤ insTile i)
      || (op == 0x38 && (n == 0 || g.accTiles < insTile i + 4))
      || ([0x23, 0x30, 0x31, 0x32, 0x33, 0x34, 0x35, 0x39, 0x3B].contains op && n == 0)
      || (insOperands m i).any sramBad

/-- A rule of R202 or R203 that an image breaks, at the module's arithmetic revision. -/
def imageBad (bs : List Byte) (rev : Nat) (m : ModelHeader) (constUnits maxTokens : Nat) (digest : List Byte) : Bool :=
  let g := parseImage bs
  fieldAt bs 0 4 != 0x47525043 || fieldAt bs 4 2 != 1 || g.arith != rev || g.count == 0 || 1048576 < g.count
    || bs.length != 256 + 16 * g.count || g.footprint == 0 || 360448 < g.footprint || g.accTiles == 0 || 32 < g.accTiles
    || g.stagePanels == 0 || 128 < g.stagePanels || 2 ^ 26 / m.width < g.tokenLimit
    || (bytesAt bs 0x18 8).any (· != 0) || (bytesAt bs 0x50 176).any (· != 0)
    || g.digest != digest || g.tokenLimit < maxTokens
    || ((List.range g.instrs.length).zip g.instrs).any (fun x => insBad g m constUnits x.1 x.2)
    || (g.instrs.getLast?.map insOp) != some 0x01

/-! ### What a rank reads and writes -/

/-- A rank in its pass. -/
structure Here where
  m : Model
  p : Pass
  r : Nat
  k : Rank
  i : Ins
  free : Nat

/-- What an instruction does: the pass goes on, using some free values; ranks fault; or the rank waits. -/
inductive Ran where
  | go (p : Pass) (used : Nat)
  | fault (ranks : List Nat) (code : ProgFault)
  | wait

namespace Here

def scalar (h : Here) (n : Nat) : Nat := (h.k.scalars.getD n 0).toNat

/-- An SRAM operand: in the constants or not, and its unit address (R186). -/
def operand (h : Here) (w : Nat) : Bool × Nat := (w / 2 ^ 27 % 2 == 1, w % 2 ^ 20 + h.scalar (w / 2 ^ 28))

/-- The operand's whole extent is in its region (R186). -/
def fits (h : Here) (o : Bool × Nat) (units : Nat) : Bool :=
  o.2 + units ≤ (if o.1 then h.m.constUnits else h.m.footprint)

def byteOf (h : Here) (o : Bool × Nat) (off : Nat) : Byte :=
  if o.1 then h.m.consts.getD (o.2 * 64 + off) 0 else Memory.read h.k.mem (o.2 * 64 + off)

def read16 (h : Here) (o : Bool × Nat) (off : Nat) : Nat := (h.byteOf o off).toNat + 256 * (h.byteOf o (off + 1)).toNat

def act (h : Here) : FpFmt := h.m.hdr.act

def actAt (h : Here) (o : Bool × Nat) (off : Nat) : Fp := Fp.ofBits h.act (h.read16 o off)

def f32Of (h : Here) (o : Bool × Nat) (off : Nat) : Fp :=
  Fp.ofBits fmtF32 (h.read16 o off + 65536 * h.read16 o (off + 2))

/-- Byte offset of an element of a matrix whose row blocks hold `q` column quarters (R183). -/
def off16 (q row col : Nat) : Nat := (row / 256 * q + col / 64) * 32768 + row % 256 * 128 + col % 64 * 2

def off8 (q row col : Nat) : Nat := (row / 256 * q + col / 64) * 16384 + row % 256 * 64 + col % 64

/-- `n` elements of a row. -/
def row (h : Here) (o : Bool × Nat) (q r n : Nat) : List Fp := (List.range n).map fun c => h.actAt o (off16 q r c)

/-- Go on to the next instruction with a new rank state. -/
def next (h : Here) (k : Rank) : Ran := .go { h.p with ranks := h.p.ranks.set h.r { k with pc := k.pc + 1 } } 0

/-- As `next`, having used free values. -/
def nextUsing (h : Here) (k : Rank) (n : Nat) : Ran :=
  .go { h.p with ranks := h.p.ranks.set h.r { k with pc := k.pc + 1 } } n

def addressFault (h : Here) : Ran := .fault [h.r] .address

/-- Go on if every extent fits. -/
def guard (h : Here) (exts : List ((Bool × Nat) × Nat)) (k : Ran) : Ran :=
  if exts.all fun e => h.fits e.1 e.2 then k else h.addressFault

/-- Put a row of 16-bit elements into the data region. -/
def putRow (f : FpFmt) (mem : List Host.Cell) (u q r : Nat) (xs : List Fp) : List Host.Cell :=
  (xs.zip (List.range xs.length)).foldl
    (fun m x => Memory.writeBytes m (u * 64 + off16 q r x.2) (leBytes 2 (x.1.toWord16 f).toNat)) mem

/-- Put rows given by row number. -/
def putRows (h : Here) (u q : Nat) (rows : List (Nat × List Fp)) : Rank :=
  { h.k with mem := rows.foldl (fun m x => putRow h.act m u q x.1 x.2) h.k.mem }

/-- Rows of a rank: T′ ÷ 8 (R181). -/
def rankRows (h : Here) : Nat := h.p.padded / 8

/-- The row table's entry for a pass row; a padding row has none. -/
def info (h : Here) (passRow : Nat) : Option RowInfo := h.p.rows[passRow]?

/-- A package byte, or none outside the package. -/
def packByte (h : Here) (a : Nat) : Option Byte := h.m.package[a]?

end Here

/-! ### Row-wise instructions -/

/-- Set scalar `d`. -/
def Rank.setScalar (k : Rank) (d v : Nat) : Rank := { k with scalars := k.scalars.set d (BitVec.ofNat 32 v) }

/-- A row-wise instruction on COUNT column tiles of one row block (R191): the rows named, each mapped. -/
def rowWise (h : Here) (rows : Nat) (src dst : Bool × Nat) (f : List Fp → List Fp) : Rank :=
  let q := 4 * insCount h.i
  h.putRows dst.2 q ((List.range rows).map fun r => (r, f (h.row src q r (64 * q))))

/-- A row-wise instruction of two sources. -/
def rowWise2 (h : Here) (rows : Nat) (a b dst : Bool × Nat) (f : Fp → Fp → Fp) : Rank :=
  let q := 4 * insCount h.i
  h.putRows dst.2 q ((List.range rows).map fun r =>
    (r, ((h.row a q r (64 * q)).zip (h.row b q r (64 * q))).map fun x => f x.1 x.2))

/-! ### Matrix instructions -/

def accAt (k : Rank) (tile row col : Nat) : Fp := Fp.ofF32 ((k.acc.lookup ((tile * 256 + row) * 64 + col)).getD 0)

def setAcc (acc : List (Nat × F32)) (i : Nat) (v : F32) : List (Nat × F32) :=
  let rest := acc.filter fun x => x.1 != i
  if v = 0 then rest else (i, v) :: rest

/-- Clear tiles to +0, next slice index 0. -/
def clearTiles (k : Rank) (tile n : Nat) : Rank :=
  { k with acc := k.acc.filter fun x => !(tile ≤ x.1 / 16384 && x.1 / 16384 < tile + n),
           slices := (List.range 32).map fun t => if tile ≤ t ∧ t < tile + n then 0 else k.slices.getD t 0 }

/-- Activation row of an MMA: 256 elements, 16-bit or E4M3 (R189). -/
def mmaRow (h : Here) (a8 : Bool) (o : Bool × Nat) (r : Nat) : List Fp :=
  (List.range 256).map fun c =>
    if a8 then Fp.ofBits fmtE4M3 (h.byteOf o (Here.off8 4 r c)).toNat else h.actAt o (Here.off16 4 r c)

/-- A panel's column, 256 weights (R184). -/
def panelColumn (f : FpFmt) (bs : List Byte) (c : Nat) : List Fp :=
  (List.range 256).map fun k => Fp.ofBits f (bs.getD (k * 64 + c) 0).toNat

/-- One tile of an MMA: each element gains its slice sum. -/
def mmaTile (h : Here) (rows : List (Nat × List Fp)) (tile : Nat) (panel : List Byte) (acc : List (Nat × F32)) :
    List (Nat × F32) :=
  (List.range 64).foldl (fun acc c =>
    let w := panelColumn h.m.hdr.weight panel c
    rows.foldl (fun acc x =>
      let i := (tile * 256 + x.1) * 64 + c
      setAcc acc i (add32 (accAt h.k tile x.1 c) (sliceSum x.2 w)).toF32) acc) acc

/-- Exponent of a row from a slot. -/
def expAt (k : Rank) (slot row : Nat) : Int := (k.exps.lookup (slot * 256 + row)).getD 0

/-! ### The pass's cross-rank state (R197, R198) -/

/-- The instruction that a rank stands at. -/
def atIns (m : Model) (k : Rank) : Ins := m.instrs.getD k.pc 0

/-- A rank that will issue nothing more: its stream has ended, or it stands at END. -/
def atEnd (m : Model) (k : Rank) : Bool := k.ended || insOp (atIns m k) == 0x01

/-- Pair forwards with receives from rank `r` to rank r + 1 (R197): none if a pair differs in its count. -/
def pairForwards (ranks : List Rank) (r : Nat) : Nat → Option (List Rank)
  | 0 => some ranks
  | fuel + 1 =>
    match ranks[r]?, ranks[(r + 1) % 8]? with
    | some a, some b =>
      match a.sends, b.recvs with
      | ps :: restS, (n, first) :: restR =>
        if ps.length ≠ n then none
        else
          let b' := { b with recvs := restR,
                             fill := (List.range 128).map fun i =>
                               if first ≤ i ∧ i < first + n then ps[i - first]? else b.fill.getD i none }
          pairForwards ((ranks.set r { a with sends := restS }).set ((r + 1) % 8) b') r fuel
      | _, _ => some ranks
    | _, _ => some ranks

/-- The rank state that a pass begins with (R182). -/
def startRank (rows : List RowInfo) (padded nseq r : Nat) : Rank :=
  let per := padded / 8
  let own := (List.range per).filterMap fun i => rows[r * per + i]?
  let last := ((List.range per).filter fun i =>
    match rows[r * per + i]?, rows[r * per + i + 1]? with
    | some a, some b => a.seq != b.seq
    | some _, none => true
    | none, _ => false).length
  let tok := (own.filter fun x => x.wantTokens).length
  { pc := 0, ended := false,
    scalars := List.replicate 10 0 ++ [last, tok, nseq, r * per, per, r].map (BitVec.ofNat 32),
    mem := [], acc := [], slices := List.replicate 32 0, exps := [], compute := List.replicate 128 none,
    fill := List.replicate 128 none, sends := [], recvs := [], coll := none, emittedPooled := false, emittedTokens := false }

end Sys2Proof.Machine
end

