-- ==== Sys2Proof/WellFormed.lean ====
section
/-! DEFINITION. Sys2Proof/WellFormed.lean: the unit numbers a command or event may carry (R14, R16, R48, R291, R310,
R341, R382, R418, R187, R315, R466) and the forms a link event may have. -/

namespace Sys2Proof

/-- The numbers of physical units that an event carries, each with how many of them the module has. -/
def unitNumbers : Instr → List (Nat × Nat)
  | .plateGroupDeal r _ => [(r, 64)]
  | .plateFillComplete c _ _ => [(c, 18)]
  | .plateRecheckComplete c _ _ _ _ => [(c, 18)]
  | .flip c _ => [(c, 18)]
  | .ringBoundary r => [(r, 64)]
  | .ringStretch r => [(r, 64)]
  | .ringRestoreComplete r => [(r.num, 64)]
  | .merRingOvfWrite r _ => [(r, 64)]
  | .batchAccumulateEnd c _ => [(c, 18)]
  | .admissionArrival c => [(c, 18)]
  | .boundaryInstall _ c => [(c, 18)]
  | .specRequestIssue c => [(c, 18)]
  | .clusterHardFault c => [(c, 18)]
  | .clusterPlannedRetire c => [(c, 18)]
  | .rerankStart k => [(k, 4)]
  | .rerankComplete k => [(k, 4)]
  | .encoderCoreFailure k => [(k, 9)]
  | .tgStart ch => [(ch, 84)]
  | .tgStop ch => [(ch, 84)]
  | .tgPassComplete ch _ _ => [(ch, 84)]
  | .channelAccessRetry ch f _ => (ch, 84) :: (f.map fun x => (x.1, 2097152)).toList
  | .channelRetrain ch _ _ => [(ch, 84)]
  | .channelSubstitutionStart ch => [(ch, 84)]
  | .channelSubstitutionComplete rim => [(rim, 4)]
  | .channelLost ch => [(ch, 84)]
  | .uncorrectableCodeWord addr _ _ => [(addr, 322122547200)]
  | .refresh ch _ _ w => (ch, 84) :: (w.map fun x => (x.1, 18)).toList
  | .patrolScrubRead ch burst u _ _ => [(ch, 84), (burst, 2097152)] ++ u.map fun x => (x.1, 32)
  | .carrierRelease b => [(b, 4)]
  | .mgmtCarrierRelease _ b => [(b, 4)]
  | .attentionButton b _ => [(b, 4)]
  | .carrierSafeToRemove b => [(b, 4)]
  | .carrierRemoval b => [(b, 4)]
  | .carrierInsertion b _ => [(b, 4)]
  | .carrierFailure b => [(b, 4)]
  | .carrierRebuildComplete b => [(b, 4)]
  | .blockRetire b _ => [(b, 4)]
  | .onfiChannelRetrain b ch _ _ => [(b, 4), (ch, 8)]
  | .carrierOvertemp b _ => [(b, 4)]
  | .islRetire i => [(i, 29)]
  | .islandTempRead i _ => [(i, 29)]
  | .clockStepDownTimer i => [(i, 29)]
  | .clockStepUpTimer i => [(i, 29)]
  | .neighbourTempCheck i k => [(i, 29), (k, 29)]
  | .islandFloorTimeout i => [(i, 29)]
  | .hubOvertempTimeout i => [(i, 29)]
  | .d2dFlitReplay b _ => [(b, 22)]
  | .slotEraseTimeout k => [(k, 64)]
  | .keyGenerationRetire k => [(k, 64)]
  | .arpRequest p _ => [(p, 2)]
  | .neighbourSolicitation p _ => [(p, 2)]
  | .icmpEcho p _ _ => [(p, 2)]
  | .ethFrameDropped p => [(p, 2)]
  | .ethLinkDown p => [(p, 2)]
  | .ethLinkUp p _ => [(p, 2)]
  | .cmReq p _ _ _ _ => [(p, 2)]
  | .msixVectorUnmask v => [(v, 2048)]
  | .pldmSensorRequest n => [(n, 20)]
  | .vaultPageRead page _ _ _ => [(page, 3221225472)]
  | .nop r => [(r, 8)]
  | .endStream r => [(r, 8)]
  | .seti r => [(r, 8)]
  | .addi r => [(r, 8)]
  | .muli r => [(r, 8)]
  | .andi r => [(r, 8)]
  | .loop r => [(r, 8)]
  | .skipz r => [(r, 8)]
  | .fence r => [(r, 8)]
  | .bar r => [(r, 8)]
  | .wld r => [(r, 8)]
  | .wrcv r => [(r, 8)]
  | .wfwd r => [(r, 8)]
  | .flipStage r => [(r, 8)]
  | .aclr r => [(r, 8)]
  | .mma r => [(r, 8)]
  | .mout r => [(r, 8)]
  | .qrow r => [(r, 8)]
  | .gath r => [(r, 8)]
  | .norm r => [(r, 8)]
  | .gelu r => [(r, 8)]
  | .addv r => [(r, 8)]
  | .mulv r => [(r, 8)]
  | .rope r => [(r, 8)]
  | .attn r => [(r, 8)]
  | .pool r => [(r, 8)]
  | .xall r => [(r, 8)]
  | .emit r => [(r, 8)]
  | _ => []

/-- A write of a doorbell page that is none of the two fields' own forms (R265): it lies in the 64-byte page. -/
def pageForm : PageAccess → Bool
  | .other off width => decide (off < 64) && decide (1 ≤ width) && decide (width ≤ 8)
      && !((off == 0 && (width == 4 || width == 8)) || (off == 4 && width == 4))
  | _ => true

/-- What else an event states: a width and speed of the PCIe link (R332), a speed of an Ethernet port (R342), the nine
lanes of the companion link (R348), an access of a doorbell page (R265), the bytes of a code word (R295), the other three
pages of a stripe (R314). -/
def linkForm : Instr → Bool
  | .pcieLinkTrained width speed _ => [1, 2, 4, 8, 16].contains width && decide (1 ≤ speed) && decide (speed ≤ 6)
  | .ethLinkUp _ speed => speed == 1 || speed == 2
  | .companionLinkTrained lanes _ => lanes.length == 9
  | .sqTailDoorbell _ a => pageForm a
  | .cqHeadDoorbell _ a => pageForm a
  | .uncorrectableCodeWord _ w _ => w.length == 68
  | .patrolScrubRead _ _ ws _ _ => ws.all fun x => x.2.1.length == 68
  | .vaultPageRead _ _ others _ => others.length == 3
  | _ => true

/-- Every unit number names a unit that the module has, and every link event a form that the link has. -/
def wellFormed (i : Instr) : Bool := (unitNumbers i).all (fun u => u.1 < u.2) && linkForm i

end Sys2Proof
end

