-- ==== Sys2Proof/Machine/Queues.lean ====
section
/-! DEFINITION. Sys2Proof/Machine/Queues.lean: queue pairs (R260 to R268, R438 to R444) and their MSI-X messages (R288,
R337): DESCRIPTOR_FETCH, SQ_TAIL_DOORBELL, CQ_HEAD_DOORBELL, ROCE_DOORBELL, AQ_ENABLE, AQ_DISABLE, QUEUE_CREATE,
QUEUE_DELETE, MSIX_VECTOR_UNMASK. -/

namespace Sys2Proof.Machine
open Jenjor

namespace Jenjor

/-! ### Fetch -/

/-- The query has not boarded (R81, R264). -/
def beforeBoarding (x : Ctx) : Bool := unboarded x || x.phase == .encoding || x.phase == .inPass

/-- Complete with ABORTED every query of a queue that has not boarded (R264). -/
def abortUnboarded (j : Jenjor) (q : Nat) : Jenjor :=
  let waiting := j.qs.fetched.filter fun f => f.ref.q == q && f.ref.tag.isNone && (dField f.d 0 1 == 0x10 || dField f.d 0 1 == 0x11)
  let j := { j with qs := { j.qs with fetched := j.qs.fetched.filter fun f => !waiting.contains f } }
  let j := j.abortAll ((j.sw.ctxs.filter fun c => c.ref.q == q && c.xtag.all (fun t => t.2) && beforeBoarding c).map fun c => c.id)
    .aborted
  waiting.foldl (fun j f => j.refuse f.ref .aborted) j

/-! ### Doorbells (R265, R444) -/

/-- The host reaches BAR0 and BAR2: the endpoint is up and the module is not in recovery (R406, R446). -/
def barsOpen (j : Jenjor) : Bool := j.lnk.endpointUp && !j.lnk.pcieDown && 5 ≤ j.alm.step && j.alm.step != 9

/-- Act on a doorbell value. -/
def ring (j : Jenjor) (q : Nat) (isTail : Bool) (v : Nat) : Jenjor :=
  match j.queue? q with
  | none => j.discard 0 q
  | some x =>
    if x.kind = 4 ∨ (q = 0 ∧ !j.qs.aqReady) then j.discard 0 q
    else if isTail then
      if x.sqDepth ≤ v then j.queueFault q 1 else j.mapQueue q fun x => { x with sqTail := v }
    else if x.cqDepth ≤ v then j.queueFault q 1
    else if unconsumed x < (v + x.cqDepth - x.cqHead) % x.cqDepth then j.queueFault q 2
    else j.mapQueue q fun x => { x with cqHead := v }

/-- A doorbell write: held until the end of start-up step 6, the latest value alone (R406). -/
def doorbell (j : Jenjor) (q : Nat) (isTail : Bool) (v : Nat) : Jenjor :=
  if !j.barsOpen then j
  else if j.alm.step < 7 then
    { j with qs := { j.qs with
        heldDoorbells := j.qs.heldDoorbells.filter (fun d => !(d.1 == q && d.2.1 == isTail)) ++ [(q, isTail, v)] } }
  else j.ring q isTail v

end Jenjor

/-- DESCRIPTOR_FETCH (R267, R268): `descs` is what the platform returns for a PCIe ring, in ring order. A QUEUE_DELETE
among them aborts the queries of its queue that have not boarded (R264). -/
def execDescriptorFetch (descs : List Desc) (s : State) : Host.Outcome State Fault Refusal :=
  onReading (fun _ rmem j =>
    match j.arbitrate with
    | none => j
    | some q =>
      let n := j.fetchCount q
      let ds := if q.roce then Jenjor.ringDescs rmem q n else descs.take n
      let j := ds.foldl (fun j d => j.fetchOne q.num d) ((j.moveHead q.num ds.length).noteServed q)
      (j.qs.queues.filter fun q => q.deleting).foldl (fun j q => j.abortUnboarded q.num) j) s

/-- An access to a queue's doorbell page (R265, R335): a field's value, its reserved bits [31:16] ignored; an 8-byte write
of both fields, the credit first (R444); a write that crosses its size alignment, aborted and reported; any other write,
discarded and counted; a read, which returns zeros. -/
def Jenjor.doorbellPage (j : Jenjor) (q : Nat) (isTail : Bool) (a : PageAccess) : Jenjor :=
  if !j.barsOpen then j
  else
    match a with
    | .field v => j.doorbell q isTail (v.toNat % 65536)
    | .both sq cq => (j.doorbell q false (cq.toNat % 65536)).doorbell q true (sq.toNat % 65536)
    | .other off width =>
      let addr := q * 0x40 + off
      if off % width != 0 then ((j.emit (.completerAbort addr)).emit (.aer 0)).info blkLNK 0 0xFFFF addr
      else j.discard 0 addr
    | .read width => j.emit (.windowData (List.replicate width 0))

/-- SQ_TAIL_DOORBELL (R265). -/
def execSqTailDoorbell (q : Nat) (a : PageAccess) (s : State) : Host.Outcome State Fault Refusal :=
  onUnit (pageForm a) (onBlocks (fun j => j.doorbellPage q true a) s)

/-- CQ_HEAD_DOORBELL (R265). -/
def execCqHeadDoorbell (q : Nat) (a : PageAccess) (s : State) : Host.Outcome State Fault Refusal :=
  onUnit (pageForm a) (onBlocks (fun j => j.doorbellPage q false a) s)

/-- ROCE_DOORBELL (R266): CQ_HEAD in [31:16], SQ_TAIL in [15:0], the credit first (R444). -/
def execRoceDoorbell (q : Nat) (imm : BitVec 32) (s : State) : Host.Outcome State Fault Refusal :=
  onBlocks (fun j =>
    match j.queue? q with
    | none => j
    | some x =>
      if x.roce && x.kind != 4 && j.qpAlive x.qpn then
        (j.ring q false (imm.toNat / 65536)).ring q true (imm.toNat % 65536)
      else j) s

/-! ### The admin queue (R439) -/

/-- A ring depth: a power of two from 16 to 4,096. -/
def depthOk (n : Nat) : Bool := [16, 32, 64, 128, 256, 512, 1024, 2048, 4096].contains n

namespace Jenjor

/-- ENABLE written from 0 to 1: the placement is checked (R439). -/
def enableAdmin (j : Jenjor) : Jenjor :=
  if j.qs.aqEnable then j
  else
    let q := j.qs
    let j := { j with qs := { q with aqEnable := true } }
    if q.aqSqBase != 0 && q.aqCqBase != 0 && depthOk q.aqSqDepth.toNat && depthOk q.aqCqDepth.toNat
        && q.aqVector.toNat < j.lnk.vectors then
      let j := { j with qs := { j.qs with aqReady := true, aqError := false } }
      j.mapQueue 0 fun x => { x with sqBase := q.aqSqBase.toNat, cqBase := q.aqCqBase.toNat, sqDepth := q.aqSqDepth.toNat,
                                     cqDepth := q.aqCqDepth.toNat, vector := q.aqVector.toNat, sqHead := 0, sqTail := 0,
                                     cqTail := 0, cqHead := 0, phase := true }
    else { j with qs := { j.qs with aqError := true } }.record 5 blkDEV 0 0xFFFF 0x118 0 0

/-- ENABLE written from 1 to 0: READY clears once no command of queue 0 is in flight (R439, R442). -/
def disableAdmin (j : Jenjor) : Jenjor :=
  if !j.qs.aqEnable then j
  else
    let j := { j with qs := { j.qs with aqEnable := false, aqError := false } }
    (j.mapQueue 0 fun x => { x with fault := 0 }).settleAdmin

/-- A write that BAR0 takes: the endpoint is up and start-up step 4 has ended (R406); in recovery it is discarded and
counted (R446). -/
def onBar0 (j : Jenjor) (addr : Nat) (k : Jenjor → Jenjor) : Jenjor :=
  if !j.lnk.endpointUp || j.lnk.pcieDown || j.alm.step < 5 then j
  else if j.alm.step = 9 then j.discard 0 addr
  else k j

end Jenjor

/-- AQ_ENABLE (R439). -/
def execAqEnable (s : State) : Host.Outcome State Fault Refusal :=
  onBlocks (fun j => j.onBar0 0x118 fun j => j.enableAdmin) s

/-- AQ_DISABLE (R439). -/
def execAqDisable (s : State) : Host.Outcome State Fault Refusal :=
  onBlocks (fun j => j.onBar0 0x118 fun j => j.disableAdmin) s

/-! ### QUEUE_CREATE and QUEUE_DELETE -/

/-- The queue plan allows a queue (R400 type 0x06). -/
def planAllows (j : Jenjor) (n kind prio transport : Nat) : Bool :=
  !j.alm.planSet || j.alm.plan.any fun e =>
    e.first ≤ n && n ≤ e.last && e.kind == kind && prio ≤ e.maxPriority && e.transports.getLsbD transport

/-- The rules of R263. -/
def queueChecks (j : Jenjor) (d : Desc) : List (Bool × Status) :=
  let n := dField d 0x18 2
  let kind := dField d 0x1A 1
  let tr := dField d 0x1B 1
  let sqBase := dField d 0x08 8
  let cqBase := dField d 0x10 8
  let sqDepth := dField d 0x1C 2
  let cqDepth := dField d 0x1E 2
  let staging := dField d 0x26 2
  let qpn := dField d 0x28 4
  let delivery := kind == 4
  let roce := tr == 1
  [ (n == 0 || (j.queue? n).isSome || kind == 0 || 5 < kind || 1 < tr
      || !planAllows j n kind (dField d 0x22 1) tr, .queueInvalid),
    (delivery && !roce, .parameterInvalid),
    (if delivery || roce then sqBase != 0 else sqBase % 4096 != 0, .parameterInvalid),
    (if delivery then cqBase != 0 else if roce then cqBase % 32 != 0 else cqBase % 4096 != 0, .parameterInvalid),
    (if delivery then sqDepth != 0 || cqDepth != 0 else !depthOk sqDepth || !depthOk cqDepth, .parameterInvalid),
    (!roce && j.lnk.vectors ≤ dField d 0x20 2, .parameterInvalid),
    (1000 < dField d 0x24 2, .parameterInvalid),
    (if roce && !delivery then staging == 0 || 256 < staging else staging != 0, .parameterInvalid),
    (if roce then (j.qp? qpn).all (fun p => p.state != .established || !p.bound.isEmpty || p.route || p.mergeIn) else qpn != 0,
      .parameterInvalid),
    ((!roce || delivery) && dField d 0x2C 4 != 0, .parameterInvalid),
    (roce && !delivery && j.keyGone, .keyWithdrawn) ]

/-- Bytes of a RoCEv2 queue's ring and staging area, and the staging area's offset (R263). -/
def stagingOffset (sqDepth : Nat) : Nat := sqDepth * 64 + Config.stagingGap sqDepth

def ringPages (d : Desc) : Nat :=
  if dField d 0x1B 1 = 1 ∧ dField d 0x1A 1 ≠ 4 then
    pagesOf (dField d 0x1C 2 * 64 + dField d 0x26 2 * 65536)
  else 0

/-- Install a queue and complete its QUEUE_CREATE (R263). -/
def installQueue (j : Jenjor) (f : Fetched) : Jenjor :=
  let d := f.d
  let n := dField d 0x18 2
  let kind := dField d 0x1A 1
  let roce := dField d 0x1B 1 == 1
  let hasRing := roce && kind != 4
  let off := stagingOffset (dField d 0x1C 2)
  let rk := Config.remoteKey j.qs.nextRkey.toNat
  let x : Queue :=
    { num := n, kind := kind, roce := roce, priority := dField d 0x22 1, sqBase := dField d 0x08 8, cqBase := dField d 0x10 8,
      sqDepth := dField d 0x1C 2, cqDepth := dField d 0x1E 2, vector := dField d 0x20 2, coalCount := dField d 0x23 1,
      coalTime := dField d 0x24 2, stagingBytes := dField d 0x26 2 * 65536, qpn := dField d 0x28 4,
      cqRkey := BitVec.ofNat 32 (dField d 0x2C 4), ringAddr := if hasRing then j.qs.nextRing else 0,
      rkey := if hasRing then rk else 0, pages := ringPages d, sqHead := 0, sqTail := 0, cqTail := 0, cqHead := 0,
      phase := true, inflight := [], fault := 0, deleting := false, orphan := false, waiters := [], irqCount := 0,
      irqSince := 0 }
  let j := { j with qs := { j.qs with queues := j.qs.queues ++ [x],
                                      nextRing := if hasRing then j.qs.nextRing + off + x.stagingBytes else j.qs.nextRing,
                                      nextRkey := if hasRing then j.qs.nextRkey + 1 else j.qs.nextRkey } }
  let j := if roce then j.mapQp x.qpn fun p => { p with bound := p.bound ++ [n] } else j
  if hasRing then
    j.complete f.ref .success (BitVec.ofNat 64 (Config.poolBase + x.ringAddr)) (BitVec.ofNat 64 (off * 2 ^ 32 + rk.toNat)) none
  else j.complete f.ref .success 0 0 none

/-- Carry out a QUEUE_CREATE, or one more attempt at its allocation (R245). -/
def createQueue (j : Jenjor) (f : Fetched) (since : Nat) : Jenjor :=
  match firstStatus (queueChecks j f.d) with
  | some st => j.refuse f.ref st
  | none =>
    if ringPages f.d = 0 then installQueue j f
    else
      match j.allocate (ringPages f.d) [] with
      | .granted j => installQueue j f
      | .limit => j.refuse f.ref .limitReached
      | .wait b j => j.park (.queueCreate f) since b

/-- QUEUE_CREATE (R263). -/
def execQueueCreate (q : Nat) (s : State) : Host.Outcome State Fault Refusal :=
  onBlocks (fun j =>
    match j.takeFetched q 0x51 with
    | none => j
    | some (f, j) => createQueue j f j.time) s

/-- QUEUE_DELETE (R264). -/
def execQueueDelete (q : Nat) (s : State) : Host.Outcome State Fault Refusal :=
  onBlocks (fun j =>
    match j.takeFetched q 0x52 with
    | none => j
    | some (f, j) =>
      let n := dField f.d 0x08 2
      if n = 0 ∨ (j.queue? n).isNone then j.refuse f.ref .queueInvalid
      else
        let j := (j.mapQueue n fun x => { x with deleting := true, waiters := x.waiters ++ [f.ref] }).abortUnboarded n
        (j.reapQueues (j.qs.queues.length + 1)).settleAdmin) s

/-! ### MSI-X (R288, R337, R443) -/

/-- Unmask a vector: a pending message is sent, unless its address is zero. -/
def Jenjor.unmask (j : Jenjor) (v : Nat) : Jenjor :=
  let e := j.msixEntry v
  let j := j.setMsix v { e with masked := false }
  if e.pending && e.addr != 0 then
    (j.setMsix v { e with masked := false, pending := false }).emit (.msix v e.addr e.data)
  else if e.pending then j.record 0 blkLNK v 0xFFFF 0 0 0
  else j

/-- MSIX_VECTOR_UNMASK (R288): a write to an entry at or above the configured size is discarded (R443). -/
def execMsixVectorUnmask (vec : Nat) (s : State) : Host.Outcome State Fault Refusal :=
  onUnit (decide (vec < 2048)) (onBlocks (fun j => if j.lnk.vectors ≤ vec then j.discard 0 vec else j.unmask vec) s)

end Sys2Proof.Machine
end

