-- ==== Sys2Proof/Machine/Stripes.lean ====
section
/-! DEFINITION. Sys2Proof/Machine/Stripes.lean: the vault's stripes (R311, R312): which vault data addresses hold objects,
the 40 TiB limit, and the header logs. -/

namespace Sys2Proof.Machine

/-- Stripes that hold some bytes: three data pages each. -/
def stripesOf (bytes : Nat) : Nat := ceilDiv bytes 49152

/-- Stripes of the vault data address space. -/
def vaultStripes : Nat := 1073741824

/-- Kinds of object whose bytes have a vault home apart from the plates (R36, R235). -/
def vaultKind (kind : Nat) : Bool := kind == 2 || kind == 3 || kind == 4 || kind == 6

namespace Jenjor

/-- Count vault pages programmed: whole stripes, one page on each serving carrier (R311, R312, R330). -/
def programStripes (j : Jenjor) (stripes : Nat) : Jenjor :=
  (List.range 4).foldl (fun j c =>
    if (j.vlt.carriers[c]?).any fun x => x.state == .serving then j.bump (blkBase blkVLT + 0x118 + c * 0x40) stripes else j) j

/-- Stripes of vault data addresses in use. -/
def stripesUsed (j : Jenjor) : Nat := natSum (j.vlt.extents.map fun e => e.stripes)

/-- A creation or a placement of `n` more stripes keeps within 40 TiB of vault data addresses (R312). -/
def vaultFits (j : Jenjor) (n : Nat) : Bool := (j.stripesUsed + n) * 49152 ≤ 43980465111040

/-- The extent that holds something. -/
def vaultExtent? (j : Jenjor) (what : VaultHold) : Option VaultExtent := j.vlt.extents.find? fun e => e.what == what

/-- Give up the vault data addresses of what `p` holds of. -/
def moveOut (j : Jenjor) (p : VaultHold → Bool) : Jenjor :=
  { j with vlt := { j.vlt with extents := j.vlt.extents.filter fun e => !p e.what } }

/-- Place something at new vault data addresses; its old ones stay valid until it is placed (R312). It takes the lowest
whole stripes that are free (DESIGN CHOICE, log entry 115). -/
def moveIn (j : Jenjor) (what : VaultHold) (n : Nat) : Jenjor :=
  match lowestExtent (j.vlt.extents.map fun e => (e.stripe, e.stripes)) vaultStripes n with
  | none => j
  | some b =>
    let j := j.moveOut (· == what)
    { j with vlt := { j.vlt with extents := { what := what, stripe := b, stripes := n } :: j.vlt.extents } }

/-- Plates of a collection that have no copy in the vault yet. -/
def uncopied (j : Jenjor) (n : Nat) : Nat :=
  ((j.cat.plates.filter fun p => p.coll == n).filter fun p => (j.vaultExtent? (.plate p.pid)).isNone).length

/-- Free each log stripe of a collection in which no plate's newest header lies. -/
def freeLogs (j : Jenjor) (coll : Nat) : Jenjor :=
  let newest := ((j.coll? coll).map fun c => c.hdrAt.map fun x => x.2 / 49152).getD []
  let keep := fun (e : VaultExtent) =>
    match e.what with
    | .headers c _ => c != coll || newest.contains e.stripe
    | _ => true
  { j with vlt := { j.vlt with extents := j.vlt.extents.filter keep } }

/-- A stripe of a collection's header log: these plates' headers, in order, each at its vault data address from here. -/
def logHeaders (j : Jenjor) (coll : Nat) (pids : List Nat) : Jenjor :=
  let j := j.moveIn (.headers coll pids) 1
  match j.vaultExtent? (.headers coll pids) with
  | none => j
  | some e =>
    let at_ := ((List.range pids.length).zip pids).map fun x => (x.2, e.stripe * 49152 + 4096 * x.1)
    (j.mapColl coll fun c => { c with hdrAt := at_ ++ c.hdrAt.filter fun x => !pids.contains x.1 }).freeLogs coll

/-- A full copy of a plate makes every earlier header of it obsolete. -/
def copyPlate (j : Jenjor) (p : Plate) : Jenjor :=
  ((j.moveIn (.plate p.pid) (stripesOf 262144)).mapColl p.coll fun c =>
    { c with hdrAt := c.hdrAt.filter fun x => x.1 != p.pid }).freeLogs p.coll

/-- A plate's copies leave the vault with it. -/
def dropCopies (j : Jenjor) (p : Plate) : Jenjor :=
  ((j.moveOut (· == .plate p.pid)).mapColl p.coll fun c =>
    { c with hdrAt := c.hdrAt.filter fun x => x.1 != p.pid }).freeLogs p.coll

/-- An object's bytes take their place in the vault, if its kind has one. -/
def homeObject (j : Jenjor) (o : Obj) : Jenjor :=
  if vaultKind o.kind then j.moveIn (.object o.num) (stripesOf o.bytes) else j

end Jenjor
end Sys2Proof.Machine
end

