-- ==== Sys2Proof/Machine/Collections.lean ====
section
/-! DEFINITION. Sys2Proof/Machine/Collections.lean: collections and objects (R33 to R47, R235, R277): COLLECTION_CREATE,
COLLECTION_DELETE, OBJECT_CREATE, OBJECT_DELETE, OBJECT_WRITE, OBJECT_STATUS, OBJECT_RELEASE. -/

namespace Sys2Proof.Machine
open Jenjor

/-- 16 TiB, the most that one object reserves (R34). -/
def tib16 : Nat := 2 ^ 44

/-- Plates a collection holds at most (R39). -/
def maxPlates : Nat := 1048064

namespace Jenjor

/-- The extents that a creation reserves fit the object region (R34). -/
def extentsFit (j : Jenjor) (exts : List Nat) : Bool := exts.all (· ≤ tib16) && extentsPlaced j.extentsUsed exts

/-! ### COLLECTION_CREATE (R38, R277) -/

/-- Extents of a collection's objects past the plate set: key directory, payload table, record store, bias plane. -/
def collExtents (d : Desc) : List Nat :=
  [mib2] ++ (if dField d 0x1A 2 = 0 then [] else [roundMib2 (dField d 0x30 8)])
    ++ (if dField d 0x1C 1 = 0 then [] else [roundMib2 (dField d 0x28 8)])
    ++ (if dField d 0x1E 1 = 0 then [] else [mib2])

/-- Stripes of vault data addresses that a creation takes: its objects' and its first plate's (R312, DEDUCED, log entry
116). -/
def collStripes (d : Desc) : Nat :=
  stripesOf mib2 + stripesOf (dField d 0x30 8) + stripesOf (dField d 0x28 8) + stripesOf 262144

/-- The rules of R38, R39 and R277, and what stands against any creation. -/
def collectionChecks (j : Jenjor) (d : Desc) (op : List Byte) : List (Bool × Status) :=
  let n := dField d 0x04 2
  let f := Format.ofCode (dField d 0x14 1)
  let m := Metric.ofCode (dField d 0x18 1)
  let dim := dField d 0x16 2
  let pay := dField d 0x1A 2
  let store := dField d 0x1C 1
  let bias := dField d 0x1E 1
  let step := if f = .b1 then 64 else 8
  [ (j.cat.colls.any fun c => c.num == n, .idInUse),
    (n == 0, .parameterInvalid),
    (dim < step || 4096 < dim || dim % step != 0, .parameterInvalid),
    ((m == .hamming) != (f == .b1), .parameterInvalid),
    (1 < bias || (bias == 1 && dField d 0x15 1 != 3), .parameterInvalid),
    (dField d 0x19 1 == 1 && !j.place.photometric, .parameterInvalid),
    (4096 < pay || (pay == 0 && dField d 0x30 8 != 0), .parameterInvalid),
    (store == 0 && dField d 0x28 8 != 0, .parameterInvalid),
    ((store == 0) != (dField d 0x1D 1 == 0), .parameterInvalid),
    (dField d 0x20 4 == 0, .parameterInvalid),
    (maxPlates < dField d 0x20 4 || tib16 < dField d 0x28 8 || tib16 < dField d 0x30 8, .limitReached),
    (!j.extentsFit (collExtents d) || j.objNumsLeft < 1 + (collExtents d).length
      || !j.vaultFits (collStripes d), .limitReached),
    (gridBad f m dim (dField d 0x10 4) op, .gridInvalid),
    (j.readOnlyNow, .readOnly),
    (j.keyGone, .keyWithdrawn) ]

/-- Create a collection's objects and entry, and open its first plate. Objects take numbers in the order plate set, key
directory, payload table, record store, bias plane (DESIGN CHOICE, log entry 20). -/
def addCollection (j : Jenjor) (d : Desc) (op : List Byte) : Jenjor :=
  let n := dField d 0x04 2
  let f := Format.ofCode (dField d 0x14 1)
  let m := Metric.ofCode (dField d 0x18 1)
  let dim := dField d 0x16 2
  let deep := dField d 0x19 1 == 1
  let hasPay := dField d 0x1A 2 != 0
  let hasStore := dField d 0x1C 1 != 0
  let hasBias := dField d 0x1E 1 == 1
  let ws := wordsOf op
  let (o1, j) := j.addObj 1 n 0 0 (if deep then .vault else .sweep) 0
  let (o2, j) := j.addObj 6 n mib2 mib2 .vault 0
  let (o3, j) := if hasPay then j.addObj 2 n (dField d 0x30 8) (roundMib2 (dField d 0x30 8)) .vault 0 else (0, j)
  let (o4, j) := if hasStore then j.addObj 3 n (dField d 0x28 8) (roundMib2 (dField d 0x28 8)) .vault 0 else (0, j)
  let (o5, j) := if hasBias then j.addObj 5 n 524288 mib2 .sweep 1 else (0, j)
  let plane : BiasPlane := { published := [], other := [], frame := 0, phase := .accumulating, hold := [], dirty := true,
                             peerDone := false, doneSent := false, inStore := false }
  let c : Coll :=
    { num := n, format := f, dim := dim, metric := m, sidecar := Sidecar.ofCode (dField d 0x15 1), deep := deep,
      payloadMax := dField d 0x1A 2,
      store := if dField d 0x1C 1 = 0 then .none else if dField d 0x1C 1 = 1 then .single else .multi,
      storeFmt := if dField d 0x1D 1 = 7 then .bf16 else .fp16,
      gridA := if f.isInteger then ws.take dim else [], gridB := if f.isInteger then ws.drop dim else [],
      gridGen := if f.isInteger then 1 else 0, objPlates := o1, objDir := o2, objPayload := o3, objStore := o4,
      objBias := o5, bias := if hasBias then some plane else none, accepted := [], dir := [], storeEnd := 0, payEnd := 0,
      deleting := false, draining := false, hdrLog := [], hdrAt := [] }
  let j := (j.cat.objs.filter fun o => o.coll == n).foldl (fun j o => j.homeObject o) j
  ({ j with cat := { j.cat with colls := j.cat.colls ++ [c] } }).openPlate c

/-- The 32-byte info block of COLLECTION_CREATE (R277). -/
def infoBlock (c : Coll) (seq : Nat) : List Byte :=
  leBytes 8 seq ++ leBytes 3 c.objPlates ++ leBytes 3 c.objDir ++ leBytes 3 c.objPayload ++ leBytes 3 c.objStore
    ++ leBytes 3 c.objBias ++ leBytes 9 0

/-- Write the info block, if one is asked for, and complete (R277, R285). -/
def answerCreate (j : Jenjor) (r : CmdRef) (d : Desc) (seq : Nat) : Jenjor :=
  let addr := dField d 0x38 8
  match j.coll? (dField d 0x04 2) with
  | none => j.complete r .success (BitVec.ofNat 64 seq) 0 none
  | some c =>
    if addr = 0 then j.complete r .success (BitVec.ofNat 64 seq) 0 none
    else
      let (id, j) := j.newId
      let rkey := ((j.queue? r.q).map fun q => q.cqRkey).getD 0
      j.deliverThen id r 0 addr rkey (infoBlock c seq) .success (BitVec.ofNat 64 seq) 0 (some 32)

/-- Carry out a COLLECTION_CREATE, or one more attempt at its allocation (R245): a pool page for the first plate and one
for a bias plane. -/
def createCollection (j : Jenjor) (f : Fetched) (op : List Byte) (since : Nat) : Jenjor :=
  match firstStatus (j.collectionChecks f.d op) with
  | some st => j.refuse f.ref st
  | none =>
    match j.allocate (1 + dField f.d 0x1E 1) [] with
    | .limit => j.refuse f.ref .limitReached
    | .wait b j => j.park (.collectionCreate f op) since b
    | .granted j =>
      let j := (j.addCollection f.d op).nextSeq.2
      j.answerCreate f.ref f.d j.cat.seq

/-! ### Deletes and releases (R46) -/

def deleteCollection (j : Jenjor) (f : Fetched) (_ : List Byte) : Jenjor :=
  let n := dField f.d 0x04 2
  match firstStatus [((j.liveColl? n).isNone, .addressInvalid), (j.readOnlyNow, .readOnly)] with
  | some st => j.refuse f.ref st
  | none =>
    let j := j.mapColl n fun c => { c with deleting := true }
    (j.enterForColl n (.delete n)).completeCatalogue f.ref 0

/-- Something still uses a draining collection: a query that holds its plates, a slew, a staged change, a calibration
sweep (R46, R252). -/
def collBusy (j : Jenjor) (n : Nat) : Bool :=
  let pids := (j.cat.plates.filter fun p => p.coll == n).map fun p => p.pid
  let objs := (j.cat.objs.filter fun o => o.coll == n && o.kind != 7).map fun o => o.num
  j.sw.ctxs.any (fun c => c.coll == n || c.view.any pids.contains)
    || j.cat.slews.any (fun s => objs.contains s.obj) || j.cat.replatings.any (fun r => r.coll == n)
    || j.cat.recals.any (fun r => r.coll == n) || j.cat.calib.any (fun c => c.coll == n)
    || j.sw.rings.any fun r => r.passList.any pids.contains && holdsClusters r

/-- Something still uses a draining object (R46, R171). -/
def objBusy (j : Jenjor) (n : Nat) : Bool := j.usedByModel n || j.cat.slews.any fun s => s.obj == n

/-- Make the bytes of objects' extents unwritten (R33, R47). -/
def clearExtents (mem : List Host.Cell) (os : List Obj) : List Host.Cell :=
  os.foldl (fun m o => if o.extent = 0 then m else Memory.clear m o.base o.extent) mem

/-- Poison of a tile region leaves with it (R305). -/
def healTiles (j : Jenjor) (obj : Nat) : Jenjor :=
  let stays := fun (p : Nat × PoolObject) =>
    match p.2 with
    | .tile o _ _ => o != obj
    | _ => true
  { j with mem := { j.mem with poison := j.mem.poison.filter stays } }

end Jenjor

def execCollectionCreate (q : Nat) (op : List Byte) (s : State) : Host.Outcome State Fault Refusal :=
  onBlocks (fun j => j.catalogueCmd q 0x40 op fun j f op => j.createCollection f op j.time) s

/-- COLLECTION_DELETE (R46): it takes effect at the next boundary of the ring that holds the collection, or at once. -/
def execCollectionDelete (q : Nat) (s : State) : Host.Outcome State Fault Refusal :=
  onBlocks (fun j => j.catalogueCmd q 0x41 [] Jenjor.deleteCollection) s

namespace Jenjor

/-! ### OBJECT_CREATE, OBJECT_DELETE, OBJECT_WRITE, OBJECT_STATUS -/

/-- OBJECT_CREATE (R34, R36, R37, R257, R312): a weight package starts in the vault, a tile region and a program image in
sweep memory. A size of 0, and initial contents longer than the size, give PARAMETER_INVALID (DESIGN CHOICE, log entry 113:
R34 names no status for them). Kinds that OBJECT_CREATE does not list end at stage 1. -/
def objectChecks (j : Jenjor) (d : Desc) (op : List Byte) : List (Bool × Status) :=
  let kind := dField d 0x14 1
  let size := dField d 0x18 8
  [ (size == 0 || (kind == 8 && size % 65536 != 0), .parameterInvalid),
    (size < op.length || op.length != dField d 0x10 4, .parameterInvalid),
    (tib16 < size || !j.extentsFit [roundMib2 size] || j.objNumsLeft < 1
      || (kind == 4 && !j.vaultFits (stripesOf size)), .limitReached),
    (j.readOnlyNow, .readOnly),
    (j.keyGone, .keyWithdrawn) ]

/-- Pool pages that an object of OBJECT_CREATE takes. -/
def objectPages (d : Desc) : Nat := if dField d 0x14 1 = 4 then 0 else pagesOf (dField d 0x18 8)

/-- Carry out an OBJECT_CREATE, or one more attempt at its allocation (R245). -/
def createObject (mem : List Host.Cell) (j : Jenjor) (f : Fetched) (op : List Byte) (since : Nat) : List Host.Cell × Jenjor :=
  match firstStatus (j.objectChecks f.d op) with
  | some st => (mem, j.refuse f.ref st)
  | none =>
    match j.allocate (objectPages f.d) [] with
    | .limit => (mem, j.refuse f.ref .limitReached)
    | .wait b j => (mem, j.park (.objectCreate f op) since b)
    | .granted j =>
      let kind := dField f.d 0x14 1
      let size := dField f.d 0x18 8
      let (n, j) := j.addObj kind 0 size (roundMib2 size) (if kind = 4 then .vault else .sweep) (objectPages f.d)
      let base := ((j.obj? n).map fun o => o.base).getD 0
      let j := ((j.obj? n).map j.homeObject).getD j
      (Memory.writeBytes mem base op, j.completeCatalogue f.ref (BitVec.ofNat 64 n))

/-- The catalogue form of a command that also writes catalogue memory. -/
def catalogueMem (mem : List Host.Cell) (j : Jenjor) (q code : Nat) (op : List Byte)
    (body : List Host.Cell → Jenjor → Fetched → List Byte → List Host.Cell × Jenjor) : List Host.Cell × Jenjor :=
  match j.takeCatalogue q code with
  | none => (mem, j)
  | some (f, j) =>
    if j.secondary && f.ref.q != replicaQueue then (mem, j.forwardCmd f op)
    else body mem (j.repeatCmd f op) f op

def deleteObject (j : Jenjor) (f : Fetched) (_ : List Byte) : Jenjor :=
  let n := dField f.d 0x08 4
  let deletable := (j.liveObj? n).any fun o => o.kind == 4 || o.kind == 8 || o.kind == 9
  match firstStatus [(!deletable, .unknownObject), (j.readOnlyNow, .readOnly)] with
  | some st => j.refuse f.ref st
  | none => (j.mapObj n fun o => { o with draining := true }).completeCatalogue f.ref 0

/-- Granules of 64 KiB that a write covers (R235). -/
def granules (off len : Nat) : List Nat :=
  if len = 0 then [] else (List.range ((off + len - 1) / 65536 + 1 - off / 65536)).map fun i => off / 65536 + i

/-- The slews that copy an object copy these granules again (R237). -/
def noteSlew (j : Jenjor) (obj : Nat) (gs : List Nat) : Jenjor :=
  let note := fun (s : Slew) =>
    if s.obj = obj ∧ s.started then { s with pendingGranules := s.pendingGranules ++ gs.filter fun g => !s.pendingGranules.contains g } else s
  { j with cat := { j.cat with slews := j.cat.slews.map note } }

/-- A write to an object: dirty where its vault master lacks it, and copied again where a slew has passed (R235, R237). -/
def noteWrite (j : Jenjor) (obj off len : Nat) : Jenjor :=
  let gs := granules off len
  (j.mapObj obj fun o =>
    { o with dirty := if o.tier = .vault then o.dirty else o.dirty ++ gs.filter fun g => !o.dirty.contains g }).noteSlew obj gs

/-- A slew that is about to switch holds writes to its object (R237). -/
def heldBySlew (j : Jenjor) (obj : Nat) : Bool := j.cat.slews.any fun s => s.obj == obj && s.held

/-- OBJECT_WRITE (R277): into a weight package or program image that no loaded or loading model names. -/
def writeObject (mem : List Host.Cell) (j : Jenjor) (f : Fetched) (op : List Byte) : List Host.Cell × Jenjor :=
  let n := dField f.d 0x14 4
  let off := dField f.d 0x18 8
  match j.liveObj? n with
  | none => (mem, j.refuse f.ref .unknownObject)
  | some o =>
    match firstStatus
        [ ((o.kind != 4 && o.kind != 9) || j.usedByModel n, .parameterInvalid),
          (op.length != dField f.d 0x10 4 || o.extent < off + op.length, .addressInvalid),
          (o.tier != .vault && j.keyGone, .keyWithdrawn) ] with
    | some st => (mem, j.refuse f.ref st)
    | none => (Memory.writeBytes mem (o.base + off) op, (j.noteWrite n off op.length).complete f.ref .success 0 0 none)

def tierCode : Tier → Nat
  | .sram => 1
  | .sweep => 2
  | .vault => 3

/-- OBJECT_STATUS (R235, R277): a draining object still has its status. -/
def objectStatus (j : Jenjor) (f : Fetched) : Jenjor :=
  match j.obj? (dField f.d 0x08 4) with
  | none => j.refuse f.ref .unknownObject
  | some o =>
    let slewing := j.cat.slews.any fun s => s.obj == o.num && s.started
    j.complete f.ref .success (BitVec.ofNat 64 o.lastUse)
      (BitVec.ofNat 64 ((if slewing then 2 ^ 38 else 0) + (if o.draining then 2 ^ 37 else 0)
        + (if j.pinned [] o then 2 ^ 36 else 0) + tierCode o.tier * 2 ^ 32 + o.heat)) none

end Jenjor

def execObjectCreate (q : Nat) (op : List Byte) (s : State) : Host.Outcome State Fault Refusal :=
  onMemory (fun mem _ j => j.catalogueMem mem q 0x42 op fun mem j f op => j.createObject mem f op j.time) s

/-- OBJECT_DELETE (R46): the object drains from here. -/
def execObjectDelete (q : Nat) (s : State) : Host.Outcome State Fault Refusal :=
  onBlocks (fun j => j.catalogueCmd q 0x43 [] Jenjor.deleteObject) s

def execObjectWrite (q : Nat) (op : List Byte) (s : State) : Host.Outcome State Fault Refusal :=
  onMemory (fun mem _ j =>
    match j.takeFetched q 0x44 with
    | none => (mem, j)
    | some (f, j) => j.writeObject mem f op) s

def execObjectStatus (q : Nat) (s : State) : Host.Outcome State Fault Refusal :=
  onBlocks (fun j =>
    match j.takeFetched q 0x45 with
    | none => j
    | some (f, j) => j.objectStatus f) s

/-- OBJECT_RELEASE (R46 items 4 and 5, R47): a draining collection or object that nothing holds gives back its numbers,
extents and space. -/
def execObjectRelease (what : ReleaseTarget) (s : State) : Host.Outcome State Fault Refusal :=
  onMemory (fun mem _ j =>
    match what with
    | .collection n =>
      match j.coll? n with
      | none => (mem, j)
      | some c =>
        if !c.draining || j.collBusy n then (mem, j)
        else
          let os := j.cat.objs.filter fun o => o.coll == n && o.kind != 7 && o.kind != 4 && o.kind != 8 && o.kind != 9
          let keep := fun (o : Obj) => !os.contains o
          let pids := (j.cat.plates.filter fun p => p.coll == n).map fun p => p.pid
          let j := j.moveOut fun w =>
            match w with
            | .plate pid => pids.contains pid
            | .object o => os.any fun x => x.num == o
            | .headers coll _ => coll == n
          let j := j.mapCat fun k =>
            { k with colls := k.colls.filter fun c => c.num != n, objs := k.objs.filter keep,
                     plates := k.plates.filter fun p => p.coll != n }
          (clearExtents mem os, j)
    | .object n =>
      match j.obj? n with
      | none => (mem, j)
      | some o =>
        if !o.draining || o.coll != 0 || j.objBusy n then (mem, j)
        else
          let j := (j.moveOut (· == .object n)).healTiles n
          (clearExtents mem [o], j.mapCat fun k => { k with objs := k.objs.filter fun x => x.num != n })) s

end Sys2Proof.Machine
end

