-- ==== Sys2Proof/Machine/Writes.lean ====
section
/-! DEFINITION. Sys2Proof/Machine/Writes.lean: write acceptance, the journal and acknowledgement (R207 to R214, R317,
R318, R320): INSERT, UPDATE, DELETE, BIAS_WRITE, BIAS_FRAME, WRITE_FENCE, JOURNAL_BUFFER_DURABLE,
JOURNAL_STRIPE_PROGRAMMED. -/

namespace Sys2Proof.Machine
open Jenjor

/-! ### What a write supplies (R209, R276) -/

/-- The operand area of INSERT and UPDATE: bytes of the vector, the payload and the record-store vectors. -/
structure WriteParts where
  vecLen : Nat
  payLen : Nat
  count : Nat
  storeLen : Nat
  deriving DecidableEq, Repr

def writeParts (c : Coll) (d : Desc) : WriteParts :=
  let n := dField d 0x32 2
  { vecLen := inputBytes (dField d 0x1C 1) c.dim, payLen := dField d 0x30 2, count := n,
    storeLen := n * c.dim * (if dField d 0x1D 1 / 2 % 2 = 1 then 4 else 2) }

/-- Record-store vectors as supplied, widened (R209). -/
def suppliedStore (c : Coll) (d : Desc) (op : List Byte) : List (List F32) :=
  let p := writeParts c d
  let off := pad8 p.vecLen + pad8 p.payLen
  (List.range p.count).map fun i =>
    if dField d 0x1D 1 / 2 % 2 = 1 then wordsOf (bytesAt op (off + i * c.dim * 4) (c.dim * 4))
    else (halvesOf (bytesAt op (off + i * c.dim * 2) (c.dim * 2))).map fun h => (codeFp c.storeFmt h).toF32

/-- One record-store vector in the store's format: kept as it came, or normalised and rounded (R141, R209). -/
def storeCodes (c : Coll) (d : Desc) (op : List Byte) : List (List (BitVec 16)) :=
  let p := writeParts c d
  let off := pad8 p.vecLen + pad8 p.payLen
  let round := fun (v : List F32) => v.map fun x => BitVec.ofNat 16 ((Fp.ofF32 x).toBits c.storeFmt.fp)
  if c.metric = .cosine then (suppliedStore c d op).map fun v => round ((normalise v).getD v)
  else if dField d 0x1D 1 / 2 % 2 = 1 then (suppliedStore c d op).map round
  else (List.range p.count).map fun i => halvesOf (bytesAt op (off + i * c.dim * 2) (c.dim * 2))

/-- The pairs of a BIAS_WRITE (R276): index, reserved bits, value. -/
def biasPairs (op : List Byte) : List (BitVec 16 × Nat × F32) :=
  (List.range (op.length / 8)).map fun i =>
    (BitVec.ofNat 16 (fieldAt op (8 * i) 2), fieldAt op (8 * i + 2) 2, wordAt op (8 * i + 4))

namespace Jenjor

/-! ### Acceptance (R208, R212) -/

/-- Bytes of a record or payload placed at or after `e` (R144): one of at most 16,384 bytes never crosses a record page,
a longer one begins at a page; both lie at multiples of 16 bytes. -/
def placeRecord (e len : Nat) : Nat :=
  let a := ceilDiv e 16 * 16
  if len = 0 then a
  else if 16384 < len ∨ a / 16384 ≠ (a + len - 1) / 16384 then ceilDiv a 16384 * 16384 else a

/-- Extents of a collection's record store that a record names, one of a plate not yet retired included (R145, R227). -/
def storeExtents (j : Jenjor) (n : Nat) : List (Nat × Nat) :=
  let ps := (j.cat.plates.filter fun p => p.coll == n)
    ++ (j.cat.replatings.filter fun r => r.coll == n).flatMap (fun r => r.repl)
    ++ (j.cat.recals.filter fun r => r.coll == n).flatMap fun r => r.twins
  (ps.flatMap fun p => p.recs).filterMap fun r => if r.hasRecord then some (16 * r.recOff, r.recLen) else none

/-- Where a record goes in a store of `size` bytes: after `e`, in append order (R144), else in the lowest place that
retired plates have freed (R227). -/
def placeStore (used : List (Nat × Nat)) (e size len : Nat) : Nat :=
  let a := placeRecord e len
  let fits := fun (b : Nat) => b + len ≤ size && used.all fun u => b + len ≤ u.1 || u.1 + u.2 ≤ b
  if a + len ≤ size then a
  else (argmin id ((0 :: used.map fun u => placeRecord (u.1 + u.2) len).filter fits)).getD a

/-- Declared bytes of an object. -/
def objSize (j : Jenjor) (n : Nat) : Nat := ((j.obj? n).map fun o => o.bytes).getD 0

/-- The record store's extents and its end, and the payload table's end, once every accepted write is applied. -/
def projectedStores (j : Jenjor) (c : Coll) : List (Nat × Nat) × Nat × Nat :=
  (j.wr.journal.filter fun e => e.jr.coll == c.num && !e.published && !e.discarded).foldl (fun acc e =>
    let s := 2 * c.dim * e.jr.stored.length
    let p := e.jr.payload.length
    let so := placeStore acc.1 acc.2.1 (j.objSize c.objStore) s
    (if s = 0 then acc.1 else (so, s) :: acc.1, if s = 0 then acc.2.1 else max acc.2.1 (so + s),
      if p = 0 then acc.2.2 else placeRecord acc.2.2 p + p))
    (j.storeExtents c.num, c.storeEnd, c.payEnd)

/-- A declared record store or payload table has no room for a write (DEDUCED, log entry 21). -/
def storeFull (j : Jenjor) (c : Coll) (store pay : Nat) : Bool :=
  let (used, e, p) := j.projectedStores c
  let size := j.objSize c.objStore
  (store != 0 && decide (size < placeStore used e size store + store))
    || (pay != 0 && decide (j.objSize c.objPayload < placeRecord p pay + pay))

/-- Plates that a collection can still open: plate numbers below the limit that are free, as many as its live plates leave
(R39, R221). -/
def platesLeft (j : Jenjor) (c : Coll) : Nat :=
  maxPlates - max ((j.plateNums c.num).eraseDups.filter (· < maxPlates)).length (j.collPlates c.num).length

/-- The insert would need a plate number of 1,048,064 or above (R39). -/
def platesExhausted (j : Jenjor) (c : Coll) : Bool :=
  let pending := (j.wr.journal.filter fun e => e.jr.coll == c.num && !e.published && !e.discarded
    && (e.jr.op == .insert || e.jr.op == .update)).length
  j.freeSlots c + j.platesLeft c * c.plateN ≤ pending

/-- R208 for INSERT and UPDATE. -/
def recordChecks (j : Jenjor) (c : Coll) (d : Desc) (op : List Byte) (update : Bool) : List (Bool × Status) :=
  let key := BitVec.ofNat 64 (dField d 0x08 8)
  let fmt := dField d 0x1C 1
  let p := writeParts c d
  let vec := if fmt = 4 then [] else widen fmt (bytesAt op 0 p.vecLen)
  let fits := op.length == pad8 p.vecLen + pad8 p.payLen + pad8 p.storeLen && dField d 0x18 4 == op.length
  let tags := dField d 0x20 8 != 0
  let rest := dField d 0x28 8 != 0 || dField d 0x1E 2 != 0
  [ (if update then !c.accepted.contains key else c.accepted.contains key, if update then .keyNotFound else .keyExists),
    ((fmt == 4) != (c.format == .b1) || !fits, .vectorInvalid),
    (c.format.isInteger && vec.any f32IsNaN, .vectorInvalid),
    (c.metric == .cosine && ((normalise vec).isNone || (suppliedStore c d op).any fun v => (normalise v).isNone),
      .vectorInvalid),
    ((c.sidecar == .bare && tags) || (c.sidecar != .full && rest), .parameterInvalid),
    (c.payloadMax < p.payLen, .parameterInvalid),
    ((c.store == .none && p.count != 0) || (c.store == .single && 1 < p.count) || 256 < p.count, .parameterInvalid),
    (j.platesExhausted c || j.storeFull c (2 * c.dim * p.count) p.payLen, .limitReached) ]

/-- R208 for BIAS_WRITE. -/
def biasChecks (c : Coll) (d : Desc) (op : List Byte) : List (Bool × Status) :=
  let n := dField d 0x34 2
  [ (c.bias.isNone || n == 0 || 4096 < n, .parameterInvalid),
    ((biasPairs op).any fun p => p.2.1 != 0 || f32IsNaN p.2.2, .parameterInvalid),
    (op.length != 8 * n || dField d 0x18 4 != op.length, .vectorInvalid) ]

/-- What of R208 refuses a write, first by value (R270). -/
def writeRefused (j : Jenjor) (d : Desc) (op : List Byte) : Option Status :=
  let oc := dField d 0 1
  let all := [(j.readOnlyNow, Status.readOnly), (j.keyGone, .keyWithdrawn)]
  match j.liveColl? (dField d 0x04 2) with
  | none => firstStatus ((true, .unknownCollection) :: all)
  | some c =>
    firstStatus (all ++
      (if oc = 0x20 then j.recordChecks c d op false
       else if oc = 0x21 then j.recordChecks c d op true
       else if oc = 0x22 then [(!c.accepted.contains (BitVec.ofNat 64 (dField d 0x08 8)), .keyNotFound)]
       else if oc = 0x23 then biasChecks c d op
       else [(c.bias.isNone, .parameterInvalid)]))

def writeOpOf (d : Desc) : WriteOp :=
  let oc := dField d 0 1
  if oc = 0x20 then .insert else if oc = 0x21 then .update else if oc = 0x22 then .delete
  else if oc = 0x23 then (if dField d 0x36 1 = 1 then .biasAdd else .biasSet) else .biasFrame

/-- Bytes of a write's journal record (R209): a 64-byte header and what the command supplies. -/
def recordBytes (c : Coll) (d : Desc) (op : List Byte) : Nat :=
  let oc := dField d 0 1
  let p := writeParts c d
  let supplied := if oc = 0x20 ∨ oc = 0x21 then p.vecLen + p.payLen + p.storeLen else if oc = 0x23 then op.length else 0
  ceilDiv (64 + supplied) 64 * 64

/-- The journal record of an accepted write (R209, R210). -/
def journalRecord (c : Coll) (d : Desc) (op : List Byte) (seq : Nat) : JRec :=
  let oc := dField d 0 1
  let body := oc = 0x20 ∨ oc = 0x21
  let fmt := dField d 0x1C 1
  let p := writeParts c d
  { seq := seq, op := writeOpOf d, coll := c.num, key := if oc ≤ 0x22 then BitVec.ofNat 64 (dField d 0x08 8) else 0,
    vec := if body ∧ fmt ≠ 4 then widen fmt (bytesAt op 0 p.vecLen) else [],
    bits := if body ∧ fmt = 4 then bytesAt op 0 p.vecLen else [],
    tags := if body then BitVec.ofNat 64 (dField d 0x20 8) else 0,
    range0 := if body then BitVec.ofNat 32 (dField d 0x28 4) else 0,
    range1 := if body then BitVec.ofNat 32 (dField d 0x2C 4) else 0,
    biasIndex := if body then BitVec.ofNat 16 (dField d 0x1E 2) else 0,
    payload := if body then bytesAt op (pad8 p.vecLen) p.payLen else [],
    stored := if body then storeCodes c d op else [],
    pairs := if oc = 0x23 then (biasPairs op).map fun p => (p.1, p.2.2) else [],
    bytes := recordBytes c d op }

/-- Put a record into the journal, its key outcome decided (R212). -/
def journalAppend (j : Jenjor) (r : JRec) (ref : CmdRef) (visible : Bool) : Jenjor :=
  let e : JEntry :=
    { jr := r, ref := ref, visible := visible, localDurable := false, peerDurable := false, acked := false,
      completed := false, waiting := false, programmed := false, epoch := none, published := false, discarded := false,
      touched := [], touchedBias := false }
  let j := { j with wr := { j.wr with journal := j.wr.journal ++ [e], nextSeq := r.seq + 1 } }
  j.mapColl r.coll fun c =>
    { c with accepted :=
        match r.op with
        | .insert => r.key :: c.accepted
        | .delete => c.accepted.erase r.key
        | _ => c.accepted }

/-- Synchronous pairing as primary (R353). -/
def syncPaired (j : Jenjor) : Bool := j.cpn.pair.pairState == .paired && j.cpn.pair.holder

/-- A write that nothing refuses is not accepted yet: acceptance has stopped at 90 % of the journal region, or a bucket
does not hold what it takes (R214), or the journal buffer has no room for its record (R318). It stays where it is. -/
def acceptWaits (j : Jenjor) (f : Fetched) (op : List Byte) : Bool :=
  match j.liveColl? (dField f.d 0x04 2) with
  | none => false
  | some c =>
    let n := recordBytes c f.d op
    !j.secondary && (j.writeRefused f.d op).isNone
      && (j.wr.stopped || j.wr.tokens == 0 || decide (j.wr.byteTokens < n) || decide (33554432 < j.bufferBytes + n))

/-- Acceptance of a write (R208, R210 stage 2, R212, R214); a secondary forwards it (R352). -/
def acceptWrite (j : Jenjor) (f : Fetched) (op : List Byte) : Jenjor :=
  if j.secondary then j.forwardCmd f op
  else
    match j.writeRefused f.d op with
    | some st =>
      (j.count blkDEV 0x430).refuse f.ref st
    | none =>
      match j.liveColl? (dField f.d 0x04 2) with
      | none => j.refuse f.ref .unknownCollection
      | some c =>
        let r := journalRecord c f.d op j.wr.nextSeq
        let j := { j with wr := { j.wr with tokens := j.wr.tokens - 1, byteTokens := j.wr.byteTokens - r.bytes } }
        let j := j.journalAppend r f.ref (dField f.d 0x1D 1 % 2 == 1)
        if j.mirroring then j.sendCpn 0x03 r.seq r.coll r.key.toNat [] else j

/-! ### Durability and acknowledgement (R210, R211, R356) -/

/-- Past its acknowledgement point, publication in SOLO apart. -/
def durable (j : Jenjor) (e : JEntry) : Bool := e.localDurable && (!j.syncPaired || e.peerDurable)

/-- Acknowledge a write that reached its acknowledgement point; without VISIBLE it completes here (stage 5). -/
def ackEntry (j : Jenjor) (e : JEntry) : Jenjor :=
  if e.acked then j
  else
    let j := j.mapJournal (fun x => x.jr.seq == e.jr.seq) fun x => { x with acked := true }
    let j := { j with wr := { j.wr with ackSeq := max j.wr.ackSeq e.jr.seq } }
    let j := j.count blkDEV 0x428
    if e.visible || e.completed then j
    else
      (j.mapJournal (fun x => x.jr.seq == e.jr.seq) fun x => { x with completed := true }).complete e.ref .success
        (BitVec.ofNat 64 e.jr.seq) 0 none

/-- Acknowledge what is durable; in SOLO writes wait for their publication (R356). A secondary answers DURABLE to the
primary. -/
def ackReady (j : Jenjor) : Jenjor :=
  if j.cpn.pair.solo then j
  else
    (j.wr.journal.filter fun e => !e.acked && !e.discarded).foldl (fun j e => if j.durable e then j.ackEntry e else j) j

/-- Journal region in bytes (R317). -/
def journalRegion : Nat := 68719476736

/-- Acceptance stops at 90 % and resumes below 80 % (R214). -/
def regionCheck (j : Jenjor) : Jenjor :=
  if !j.wr.stopped && journalRegion * 9 ≤ j.wr.region * 10 then
    { j with wr := { j.wr with stopped := true } }.count blkDEV 0x440
  else if j.wr.stopped && j.wr.region * 10 < journalRegion * 8 then { j with wr := { j.wr with stopped := false } }
  else j

/-- Free the journal space of records whose every change is written back, or that are discarded (R223). -/
def freeJournal (j : Jenjor) : Jenjor :=
  let gone := fun (e : JEntry) =>
    e.programmed && e.completed && ((e.published && e.touched.isEmpty && !e.touchedBias) || e.discarded)
      && !(j.wr.fences.any fun f => f.covered.contains e.jr.seq)
  let bytes := natSum ((j.wr.journal.filter gone).map fun e => e.jr.bytes)
  let rest := j.wr.journal.filter fun e => !gone e
  regionCheck { j with wr := { j.wr with journal := rest, region := j.wr.region - bytes } }

end Jenjor

/-! ### The commands -/

/-- A write command's meaning, by opcode. -/
def writeCommand (code q : Nat) (op : List Byte) (s : State) : Host.Outcome State Fault Refusal :=
  onBlocks (fun j =>
    match j.takeData q code with
    | none => j
    | some (f, k) => if j.acceptWaits f op then j else k.acceptWrite f op) s

/-- INSERT (R207, R208). -/
def execInsert (q : Nat) (op : List Byte) (s : State) : Host.Outcome State Fault Refusal := writeCommand 0x20 q op s

/-- UPDATE (R207, R208). -/
def execUpdate (q : Nat) (op : List Byte) (s : State) : Host.Outcome State Fault Refusal := writeCommand 0x21 q op s

/-- DELETE (R207, R208). -/
def execDelete (q : Nat) (s : State) : Host.Outcome State Fault Refusal := writeCommand 0x22 q [] s

/-- BIAS_WRITE (R207, R208). -/
def execBiasWrite (q : Nat) (op : List Byte) (s : State) : Host.Outcome State Fault Refusal := writeCommand 0x23 q op s

/-- BIAS_FRAME (R207, R230). -/
def execBiasFrame (q : Nat) (s : State) : Host.Outcome State Fault Refusal := writeCommand 0x24 q [] s

/-- A WRITE_FENCE covers the accepted and unpublished writes of its queue (R207); a forwarded one those the companion
forwarded. -/
def Jenjor.fence (j : Jenjor) (f : Fetched) : Jenjor :=
  if j.secondary then j.forwardCmd f []
  else
    let mine := fun (e : JEntry) => if f.ref.tag.isSome then e.ref.tag.isSome else e.ref.tag.isNone && e.ref.q == f.ref.q
    let covered := (j.wr.journal.filter fun e => mine e && !e.published && !e.discarded).map fun e => e.jr.seq
    settleFences { j with wr := { j.wr with fences := j.wr.fences ++ [{ ref := f.ref, covered := covered, best := none }] } }

/-- WRITE_FENCE (R207, R213). -/
def execWriteFence (q : Nat) (s : State) : Host.Outcome State Fault Refusal :=
  onBlocks (fun j =>
    match j.takeData q 0x25 with
    | none => j
    | some (f, j) => j.fence f) s

/-! ### The journal's events -/

/-- JOURNAL_BUFFER_DURABLE (R210 stage 3, R318): the record is in the journal buffer. With a weak hold-up bank that is not
yet stage 3 (R320). -/
def execJournalBufferDurable (seq : Nat) (s : State) : Host.Outcome State Fault Refusal :=
  onBlocks (fun j =>
    match j.wr.journal.find? fun e => e.jr.seq == seq with
    | none => j
    | some e =>
      if e.programmed || j.wr.buffer.contains seq || 33554432 < j.bufferBytes + e.jr.bytes then j
      else
        let j := { j with wr := { j.wr with buffer := j.wr.buffer ++ [seq], bufHigh := max j.wr.bufHigh (j.bufferBytes + e.jr.bytes) } }
        if j.vlt.holdupWeak then j
        else
          let j := j.mapJournal (fun x => x.jr.seq == seq) fun x => { x with localDurable := true }
          let j := if j.mirrored then j.sendCpn 0x04 seq 0 0 [] else j
          j.ackReady) s

/-- JOURNAL_STRIPE_PROGRAMMED (R318, R320): the stripe that holds the record, parity included, is programmed. -/
def execJournalStripeProgrammed (seq : Nat) (s : State) : Host.Outcome State Fault Refusal :=
  onBlocks (fun j =>
    match j.wr.journal.find? fun e => e.jr.seq == seq with
    | none => j
    | some e =>
      if !j.wr.buffer.contains seq then j
      else
        let j := { j with wr := { j.wr with buffer := j.wr.buffer.filter (· != seq), region := j.wr.region + e.jr.bytes } }
        let j := (j.mapJournal (fun x => x.jr.seq == seq) fun x => { x with programmed := true, localDurable := true }).programStripes
          (stripesOf e.jr.bytes)
        let j := if j.mirrored && !e.localDurable then j.sendCpn 0x04 seq 0 0 [] else j
        j.ackReady.regionCheck.freeJournal) s

end Sys2Proof.Machine
end

