-- ==== Sys2Proof/Machine/Commits.lean ====
section
/-! DEFINITION. Sys2Proof/Machine/Commits.lean: commits (R215 to R222): COMMIT_TICK forms one, COMMIT_PUBLISH applies and
publishes the oldest, WRITE_WAIT_RELEASE ends a wait of R218. -/

namespace Sys2Proof.Machine
namespace Jenjor

/-! ### What a write waits for (R64, R218, R228, R230, R231) -/

/-- An operation on a record, by user key. -/
def keyed (e : JEntry) : Bool := e.jr.op == .insert || e.jr.op == .update || e.jr.op == .delete

/-- It deletes a live record. -/
def deletes (e : JEntry) : Bool := e.jr.op == .update || e.jr.op == .delete

/-- The published place of the record that a write names (R44). -/
def placeOf (j : Jenjor) (coll : Nat) (key : BitVec 64) : Option (Nat × Nat) :=
  (j.coll? coll).bind fun c => (c.dir.find? fun d => d.1 == key).map fun d => d.2

/-- In a formed commit that is not yet published. -/
def formedEntries (j : Jenjor) : List JEntry :=
  j.wr.journal.filter fun e => e.epoch.isSome && !e.published && !e.discarded

/-- Deletes of formed, unpublished commits on a plate. -/
def pendingDeletes (j : Jenjor) (pid : Nat) : Nat :=
  (j.formedEntries.filter fun e => deletes e && ((j.placeOf e.jr.coll e.jr.key).any fun p => p.1 == pid)).length

/-- Delete-log entries that a plate keeps once it is settled (R64). -/
def settledLog (j : Jenjor) (p : Plate) : Nat := (p.dlog.filter fun e => j.oldestRider < p.epochBase + e.1).length

/-- Writes already in the commit being formed: deletes by plate, bias frames and bias pairs by collection. -/
structure Forming where
  seqs : List Nat
  keys : List (Nat × BitVec 64)
  kept : List (Nat × BitVec 64)
  waitKeys : List (Nat × BitVec 64)
  dels : List Nat
  frames : List Nat
  pairs : List (Nat × Nat)
  keptBias : List Nat
  waitBias : List Nat
  deriving DecidableEq, Repr

def Forming.empty : Forming :=
  { seqs := [], keys := [], kept := [], waitKeys := [], dels := [], frames := [], pairs := [], keptBias := [], waitBias := [] }

/-- A write's object is held for a slew's switch: the plate set and the payload table of a record, the bias plane of a bias
write (R237). -/
def slewHeld (j : Jenjor) (e : JEntry) : Bool :=
  (j.coll? e.jr.coll).any fun c =>
    if keyed e then j.heldBySlew c.objPlates || (!e.jr.payload.isEmpty && j.heldBySlew c.objPayload)
    else c.objBias != 0 && j.heldBySlew c.objBias

/-- A delete or update waits: its plate's log is full, its plate must first be re-based, or its plate is still being
restored. -/
def deleteWaits (j : Jenjor) (g : Forming) (e : JEntry) : Bool :=
  match (j.placeOf e.jr.coll e.jr.key).bind fun x => j.plate? x.1 with
  | none => false
  | some p =>
    351 ≤ j.settledLog p + j.pendingDeletes p.pid + (g.dels.filter (· == p.pid)).length
      || p.epochBase + 2 ^ 30 ≤ j.wr.formed + 1 || !p.present

/-- Pairs of a collection's formed and unpublished bias writes that the hold list is to take: those after its formed
BIAS_FRAME, or all of them once the buffer is not accumulating (R230, R231). -/
def pendingPairs (j : Jenjor) (coll : Nat) : Nat :=
  let es := j.formedEntries.filter fun e => e.jr.coll == coll
  let frame := (es.find? fun e => e.jr.op == .biasFrame).map fun e => e.jr.seq
  let acc := (j.coll? coll).any fun c => c.bias.any fun b => b.phase == .accumulating
  natSum ((es.filter fun e => !acc || frame.any fun n => n < e.jr.seq).map fun e => e.jr.pairs.length)

/-- Bias writes committed from here go to the hold list (R230). -/
def biasHeld (j : Jenjor) (g : Forming) (coll : Nat) : Bool :=
  (j.coll? coll).any (fun c => c.bias.any fun b => b.phase != .accumulating)
    || j.formedEntries.any (fun e => e.jr.coll == coll && e.jr.op == .biasFrame) || g.frames.contains coll

/-- A bias write that the hold list has no room for waits, and a BIAS_FRAME while the buffer is not accumulating. -/
def biasWaits (j : Jenjor) (g : Forming) (e : JEntry) : Bool :=
  if !j.biasHeld g e.jr.coll then false
  else if e.jr.op = .biasFrame then !g.frames.contains e.jr.coll
  else
    let held := ((j.coll? e.jr.coll).bind fun c => c.bias.map fun b => b.hold.length).getD 0
    let now := natSum ((g.pairs.filter fun p => p.1 == e.jr.coll).map fun p => p.2)
    65536 < held + j.pendingPairs e.jr.coll + now + e.jr.pairs.length

def mustWait (j : Jenjor) (g : Forming) (e : JEntry) : Bool :=
  j.slewHeld e || (if keyed e then deletes e && j.deleteWaits g e else j.biasWaits g e)

/-! ### Formation (R215) -/

/-- Edit the twins of plate number `num` of a collection. -/
def mapTwin (j : Jenjor) (coll num : Nat) (f : Recal → Plate → Plate) : Jenjor :=
  let g := fun (r : Recal) => if r.coll = coll then { r with twins := r.twins.map fun t => if t.num = num then f r t else t } else r
  { j with cat := { j.cat with recals := j.cat.recals.map g } }

/-- Granules of a plate set that an edit of a plate writes: its header's, and those of the batch that holds a slot (R52,
R237). -/
def plateGranules (c : Coll) (p : Plate) (slot : Option Nat) : List Nat :=
  let r := codeBytes c.format c.dim + c.sidecar.bytes
  (4 * p.num :: (slot.map fun s => granules (262144 * p.num + 4096 + s / 128 * (128 * r)) (128 * r)).getD []).eraseDups

/-- An edit of a plate, of its header or of a slot too, as the slew engine sees it (R237). -/
def notePlate (j : Jenjor) (p : Plate) (slot : Option Nat) : Jenjor :=
  match j.coll? p.coll with
  | none => j
  | some c => j.noteSlew c.objPlates (plateGranules c p slot)

/-- Settle a plate, and its twin, at the oldest rider epoch, in a header edit of its own (R65, R66, R256). -/
def settlePlate (j : Jenjor) (pid : Nat) : Jenjor :=
  let o := j.oldestRider
  let edit := fun (p : Plate) =>
    let q := p.settle o
    if q.settled = p.settled ∧ q.dlog = p.dlog then p else { q with dirtyHdr := true }
  match j.plate? pid with
  | none => j
  | some p => ((j.mapPlate pid edit).mapTwin p.coll p.num fun _ t => edit t).notePlate p none

/-- A plate whose delete log holds 351 entries is settled (R64, R65). -/
def settleFull (j : Jenjor) (pid : Nat) : Jenjor :=
  if (j.plate? pid).any fun p => 351 ≤ p.dlog.length then j.settlePlate pid else j

/-- The plate that a write deletes from is settled first when its log is full (R64). -/
def settleFor (j : Jenjor) (e : JEntry) : Jenjor :=
  if deletes e then ((j.placeOf e.jr.coll e.jr.key).map fun x => j.settleFull x.1).getD j else j

/-- A write begins to wait, counted once (R218). -/
def startWait (j : Jenjor) (seq : Nat) : Jenjor :=
  (j.mapJournal (fun x => x.jr.seq == seq) fun x => { x with waiting := true }).count blkDEV 0x438

/-- One unformed entry, in journal order. A write that is not yet durable keeps the later writes of its key or plane
out, as a limit does. -/
def formOne (a : Forming × Jenjor) (e : JEntry) : Forming × Jenjor :=
  let g := a.1
  let j := a.2
  let k := (e.jr.coll, e.jr.key)
  if keyed e then
    if e.waiting then ({ g with waitKeys := k :: g.waitKeys }, j)
    else if !j.durable e then ({ g with kept := k :: g.kept }, j)
    else if g.waitKeys.contains k then (g, j.startWait e.jr.seq)
    else if g.kept.contains k then (g, j)
    else if g.keys.contains k || 4096 ≤ g.seqs.length then ({ g with kept := k :: g.kept }, j)
    else
      let j := j.settleFor e
      if j.mustWait g e then ({ g with waitKeys := k :: g.waitKeys }, j.startWait e.jr.seq)
      else
      let del := if deletes e then ((j.placeOf e.jr.coll e.jr.key).map fun p => p.1).toList else []
      ({ g with seqs := g.seqs ++ [e.jr.seq], keys := k :: g.keys, dels := del ++ g.dels }, j)
  else if e.waiting then ({ g with waitBias := e.jr.coll :: g.waitBias }, j)
  else if !j.durable e then ({ g with keptBias := e.jr.coll :: g.keptBias }, j)
  else if g.waitBias.contains e.jr.coll then (g, j.startWait e.jr.seq)
  else if g.keptBias.contains e.jr.coll then (g, j)
  else if 4096 ≤ g.seqs.length || (e.jr.op == .biasFrame && g.frames.contains e.jr.coll) then
    ({ g with keptBias := e.jr.coll :: g.keptBias }, j)
  else if j.mustWait g e then ({ g with waitBias := e.jr.coll :: g.waitBias }, j.startWait e.jr.seq)
  else
    -- pairs ahead of a BIAS_FRAME reach the buffer that it freezes, not the hold list (R230)
    let before := if e.jr.op = .biasFrame then g.pairs.filter fun p => p.1 != e.jr.coll else g.pairs
    ({ g with seqs := g.seqs ++ [e.jr.seq], pairs := (e.jr.coll, e.jr.pairs.length) :: before,
              frames := if e.jr.op = .biasFrame then e.jr.coll :: g.frames else g.frames }, j)

/-- The module gives commits their epochs: unpaired, or as the holder of the lease (R216, R351, R357). -/
def formsCommits (j : Jenjor) : Bool := j.cpn.pair.mode == 0 || (j.cpn.pair.holder && !j.cpn.pair.behind)

/-- Form one commit (R215); in synchronous pairing it goes to the secondary (R353). -/
def formCommit (j : Jenjor) : Jenjor :=
  let todo := j.wr.journal.filter fun e => e.epoch.isNone && !e.published && !e.discarded
  let (g, j) := todo.foldl formOne (Forming.empty, j)
  if g.seqs.isEmpty then j
  else
    let e := j.wr.formed + 1
    let j := j.mapJournal (fun x => g.seqs.contains x.jr.seq) fun x => { x with epoch := some e }
    let c : Commit := { epoch := e, seqs := g.seqs, waited := false, peerAck := false }
    let j := { j with wr := { j.wr with formed := e, commits := j.wr.commits ++ [c] } }
    if j.mirroring then j.sendCpn 0x05 e 0 0 (g.seqs.flatMap fun s => leBytes 8 s) else j

/-! ### Applying a commit (R66, R209, R217, R226, R256) -/

/-- A vector's codes on a grid (R68, R209); a B1 vector's bits. -/
def codesOf (c : Coll) (a b : List F32) (r : JRec) : List (BitVec 16) :=
  if c.format = .b1 then
    (List.range c.dim).map fun i => if (r.bits.getD (i / 8) 0).getLsbD (i % 8) then 1 else 0
  else
    let v := if c.metric = .cosine then (normalise r.vec).getD r.vec else r.vec
    (List.range c.dim).map fun i => (codeElement c.format (f32At a i) (f32At b i) (f32At v i)).getD 0

/-- The norm word of a Full record (R55, R209 step 1). -/
def normWord (c : Coll) (r : JRec) : F32 :=
  if c.sidecar ≠ .full then 0
  else if c.format = .b1 then
    f32Sqrt (Fp.ofNat ((List.range c.dim).filter fun i => (r.bits.getD (i / 8) 0).getLsbD (i % 8)).length).toF32
  else norm32 r.vec

/-- The twin of a plate in a staged recalibration; a plate opened since has an empty one made for it (R256). -/
def withTwin (j : Jenjor) (c : Coll) (p : Plate) : Jenjor :=
  if (j.cat.recals.any fun r => r.coll == c.num && !r.twins.any fun t => t.num == p.num) then
    let t := { p with pid := j.cat.nextPid, gridGen := c.gridGen + 1, dirtyHdr := true, dirtyData := true }
    let f := fun (r : Recal) => if r.coll = c.num then { r with twins := r.twins ++ [t] } else r
    { j with cat := { j.cat with recals := j.cat.recals.map f, nextPid := j.cat.nextPid + 1 } }
  else j

/-- Append an accepted record to a plate, and to the plate's twin (R56, R143, R144, R209, R227, R256). -/
def appendRecord (mem : List Host.Cell) (j : Jenjor) (c : Coll) (p : Plate) (r : JRec) (epoch : Nat) :
    List Host.Cell × Jenjor :=
  let store := r.stored.flatMap fun v => v.flatMap fun x => leBytes 2 x.toNat
  let so := placeStore (j.storeExtents c.num) c.storeEnd (j.objSize c.objStore) store.length
  let po := placeRecord c.payEnd r.payload.length
  let base := fun (n : Nat) => ((j.obj? n).map fun o => o.base).getD 0
  let mem := if store.isEmpty then mem else Memory.writeBytes mem (base c.objStore + so) store
  let mem := if r.payload.isEmpty then mem else Memory.writeBytes mem (base c.objPayload + po) r.payload
  let j := if r.payload.isEmpty then j else j.noteWrite c.objPayload po r.payload.length
  let rec_ : Rec :=
    { occupied := true, key := r.key, delta := epoch - p.epochBase, hasRecord := !store.isEmpty, hasPayload := !r.payload.isEmpty,
      tags := r.tags, range0 := r.range0, range1 := r.range1, norm := normWord c r, biasIndex := r.biasIndex,
      codes := codesOf c c.gridA c.gridB r, recOff := if store.isEmpty then 0 else so / 16, recLen := store.length,
      payOff := if r.payload.isEmpty then 0 else po / 16, payLen := r.payload.length }
  let j := j.withTwin c p
  let j := ((j.settlePlate p.pid).mapPlate p.pid fun p => p.append c.sidecar c.plateN rec_).notePlate p (some p.recs.length)
  let j := j.mapTwin c.num p.num fun rc t => t.append c.sidecar c.plateN { rec_ with codes := codesOf c rc.gridA rc.gridB r }
  let j := j.mapColl c.num fun c =>
    { c with storeEnd := if store.isEmpty then c.storeEnd else max c.storeEnd (so + store.length),
             payEnd := if r.payload.isEmpty then c.payEnd else po + r.payload.length,
             dir := (r.key, p.pid, p.recs.length) :: c.dir.filter fun d => d.1 != r.key }
  (mem, j.mapJournal (fun x => x.jr.seq == r.seq) fun x => { x with touched := insertNat p.pid x.touched })

/-- Delete the live record of a key: in its plate, in the plate's twin, and where its plate is a replating source in its
replacement (R63, R66, R226, R256). -/
def deleteRecord (j : Jenjor) (c : Coll) (r : JRec) (epoch : Nat) : Jenjor :=
  match j.placeOf c.num r.key with
  | none => j
  | some (pid, slot) =>
    match j.plate? pid with
    | none => j
    | some p =>
      let j := (((j.settlePlate pid).mapPlate pid fun p => p.delete slot epoch).notePlate p none).settleFull pid
      let j := j.mapTwin c.num p.num fun _ t => t.delete slot epoch
      let copy := fun (t : Plate) =>
        match (List.range t.recs.length).find? fun s => (t.recs[s]?).any fun x => x.key == r.key && !t.tomb.contains s with
        | none => t
        | some s => t.delete s epoch
      let nums := (j.cat.replatings.filter fun x => x.sources.contains pid).flatMap fun x => x.repl.map fun t => t.num
      let onJob := fun (x : Replating) => if x.sources.contains pid then { x with repl := x.repl.map copy } else x
      let onRecal := fun (x : Recal) =>
        if x.coll = c.num then { x with twins := x.twins.map fun t => if nums.contains t.num then copy t else t } else x
      let j := { j with cat := { j.cat with replatings := j.cat.replatings.map onJob, recals := j.cat.recals.map onRecal } }
      let j := j.mapColl c.num fun c => { c with dir := c.dir.filter fun d => d.1 != r.key }
      j.mapJournal (fun x => x.jr.seq == r.seq) fun x => { x with touched := insertNat pid x.touched }

/-- Set an entry of a bias buffer; +0 is not listed. -/
def setBias (b : List (Nat × F32)) (i : Nat) (v : F32) : List (Nat × F32) :=
  let lo := b.filter fun x => x.1 < i
  let hi := b.filter fun x => i < x.1
  if v = 0 then lo ++ hi else lo ++ (i, v) :: hi

/-- Apply one pair to a bias buffer (R229). -/
def applyPair (b : List (Nat × F32)) (op : WriteOp) (i : Nat) (v : F32) : List (Nat × F32) :=
  if op = .biasAdd then setBias b i (f32Add ((b.lookup i).getD 0) v) else setBias b i v

/-- A bias write of a commit: to the accumulating buffer, or to the hold list (R230, R231). The buffers
change places at each frame (R229). -/
def applyBias (j : Jenjor) (r : JRec) : Jenjor :=
  let f := fun (b : BiasPlane) =>
    if r.op = .biasFrame then { b with phase := .frozen, peerDone := false, doneSent := false, dirty := true }
    else if b.phase = .accumulating then
      { b with other := r.pairs.foldl (fun o p => applyPair o r.op p.1.toNat p.2) b.other, dirty := true }
    else { b with hold := b.hold ++ r.pairs.map fun p => (r.op, p.1.toNat, p.2) }
  let j := j.mapColl r.coll fun c => { c with bias := c.bias.map f }
  let spots := ((j.coll? r.coll).bind fun c => c.bias.map fun b => (c.objBias, (b.frame + 1) % 2)).getD (0, 0)
  let j := r.pairs.foldl (fun j p => j.noteSlew spots.1 [(spots.2 * 262144 + 4 * p.1.toNat) / 65536]) j
  j.mapJournal (fun x => x.jr.seq == r.seq) fun x => { x with touchedBias := true }

/-! ### The plates of a commit's appends (R221, R222) -/

/-- The entries of a commit that still have an effect, in journal order. -/
def liveEntries (j : Jenjor) (c : Commit) : List JEntry :=
  j.wr.journal.filter fun e => c.seqs.contains e.jr.seq && !e.discarded && !e.published

/-- Records a commit appends to a collection. -/
def appendsTo (es : List JEntry) (coll : Nat) : Nat :=
  (es.filter fun e => e.jr.coll == coll && (e.jr.op == .insert || e.jr.op == .update)).length

/-- The open plate of lowest number with a free slot (R221). -/
def targetPlate (j : Jenjor) (c : Coll) : Option Plate :=
  argmin (fun p => p.num) ((j.openPlates c.num).filter fun p => p.recs.length < c.plateN)

/-- The open plates that take `n` appends, lowest number first; none when they have not the slots. -/
def platesFor (c : Coll) : List Plate → Nat → Option (List Nat)
  | _, 0 => some []
  | [], _ + 1 => none
  | p :: ps, n => (platesFor c ps (n - (c.plateN - p.recs.length))).map fun l => if c.plateN ≤ p.recs.length then l else p.pid :: l

def appendPlates (j : Jenjor) (c : Coll) (n : Nat) : Option (List Nat) :=
  platesFor c (sortBy (fun a b => a.num ≤ b.num) (j.openPlates c.num)) n

/-- A boarding rider's view will hold the plate (R222). -/
def onView (j : Jenjor) (coll pid : Nat) : Bool :=
  match j.ringOf coll with
  | none => true
  | some r => !sweeping r || r.view.contains pid

/-- Open plates until the slots suffice or no plate can be opened (R221, R245). -/
def openFor (coll n : Nat) : Nat → Jenjor → Jenjor
  | 0, j => j
  | fuel + 1, j =>
    match j.coll? coll with
    | none => j
    | some c =>
      if n ≤ j.freeSlots c then j
      else
        let k := j.openPlate c
        if k.cat.plates.length = j.cat.plates.length then k else openFor coll n fuel k

/-- Every append of a commit has its plate, and riders that board after the publication will have it on their view. -/
def appendsReady (j : Jenjor) (es : List JEntry) (colls : List Nat) : Bool :=
  colls.all fun n =>
    (j.coll? n).all fun c => (j.appendPlates c (appendsTo es n)).any fun ps => ps.all (j.onView n)

/-- The delete log of every plate that a commit deletes from has room (R64). -/
def deletesReady (j : Jenjor) (es : List JEntry) : Bool :=
  es.all fun e => !deletes e || ((j.placeOf e.jr.coll e.jr.key).bind fun x => j.plate? x.1).all fun p =>
    p.present && j.settledLog p + (es.filter fun x => deletes x && ((j.placeOf x.jr.coll x.jr.key).any fun y => y.1 == p.pid)).length ≤ 351

/-! ### Publication (R217, R353, R356) -/

/-- Apply one entry of a commit. -/
def applyEntryOf (epoch : Nat) (a : List Host.Cell × Jenjor) (e : JEntry) : List Host.Cell × Jenjor :=
  match a.2.coll? e.jr.coll with
  | none => a
  | some c =>
    let j := if deletes e then a.2.deleteRecord c e.jr epoch else a.2
    if e.jr.op = .delete then (a.1, j)
    else if keyed e then
      match (j.coll? c.num).bind fun c => (j.targetPlate c).map fun p => (c, p) with
      | none => (a.1, j)
      | some (c, p) => appendRecord a.1 j c p e.jr epoch
    else (a.1, j.applyBias e.jr)

/-- A published entry: acknowledged here in SOLO, and completed with its epoch when VISIBLE is set (R210 stage 8, R213,
R356). -/
def publishEntry (j : Jenjor) (epoch : Nat) (e : JEntry) : Jenjor :=
  let j := j.mapJournal (fun x => x.jr.seq == e.jr.seq) fun x => { x with published := true }
  let j := j.ackEntry e
  if e.visible && !e.completed then
    (j.mapJournal (fun x => x.jr.seq == e.jr.seq) fun x => { x with completed := true }).complete e.ref .success
      (BitVec.ofNat 64 e.jr.seq) (BitVec.ofNat 64 epoch) none
  else j

/-- A module that took the lease behind the witness's ceiling has applied every epoch up to it (R357, R358). -/
def settleBehind (j : Jenjor) : Jenjor :=
  let p := j.cpn.pair
  if p.behind && p.ceiling ≤ j.wr.epoch then
    { j with cpn := { j.cpn with pair := { p with behind := false, readOnly := false, staleEpoch := 0 } } }
  else j

/-- The commit's edits, then its epoch, then what waited for it (R217). A secondary reports the epoch in its next
renewal. -/
def publishCommit (mem : List Host.Cell) (j : Jenjor) (c : Commit) : List Host.Cell × Jenjor :=
  let es := j.liveEntries c
  let (mem, j) := es.foldl (applyEntryOf c.epoch) (mem, j)
  let j := { j with wr := { j.wr with epoch := c.epoch, formed := max j.wr.formed c.epoch,
                                      commits := j.wr.commits.filter fun x => x.epoch != c.epoch } }
  let j := j.count blkDEV 0x420
  let j := es.foldl (fun j e => j.publishEntry c.epoch e) j
  let j := (es.filter fun e => e.jr.op == .biasFrame).foldl (fun j e => j.enterForColl e.jr.coll (.biasFrame e.jr.coll)) j
  let j := ((es.map fun e => e.jr.coll).eraseDups).foldl topUp j
  (mem, j.settleFences.freeJournal.settleBehind)

/-- What lets the oldest commit publish beyond its plates: COMMIT_ACK in synchronous pairing (R353), the witness's ceiling
in SOLO (R356). -/
def mayPublish (j : Jenjor) (c : Commit) : Bool :=
  !j.keyGone && !j.isl.whole && (!j.syncPaired || c.peerAck) && (!j.cpn.pair.solo || c.epoch ≤ j.cpn.pair.ceiling)

/-- The oldest commit: published, or made to wait for its plates, counted once for each of its writes (R222). -/
def publishOldest (mem : List Host.Cell) (j : Jenjor) : List Host.Cell × Jenjor :=
  match j.wr.commits with
  | [] => (mem, j)
  | c :: _ =>
    if !j.mayPublish c then (mem, j)
    else
      let es := j.liveEntries c
      let colls := (es.map fun e => e.jr.coll).eraseDups
      let j := colls.foldl (fun j n => openFor n (appendsTo es n) (appendsTo es n) j) j
      let j := es.foldl (fun j e => j.settleFor e) j
      if j.appendsReady es colls && j.deletesReady es && !es.any j.slewHeld then publishCommit mem j c
      else if c.waited then (mem, j)
      else
        let note := fun (x : Commit) => if x.epoch = c.epoch then { x with waited := true } else x
        let j := { j with wr := { j.wr with commits := j.wr.commits.map note } }
        (mem, j.bump (blkBase blkDEV + 0x438) es.length)

/-- A waiting write goes on (R218) once its cause has cleared and no waiting write of its key or plane is before it. -/
def releaseWrite (j : Jenjor) (seq : Nat) : Jenjor :=
  match j.wr.journal.find? fun e => e.jr.seq == seq with
  | none => j
  | some e =>
    let before := j.wr.journal.any fun x => x.waiting && x.jr.seq < seq && x.jr.coll == e.jr.coll
      && (if keyed e then keyed x && x.jr.key == e.jr.key else !keyed x)
    let k := j.settleFor e
    if !e.waiting || before || k.mustWait Forming.empty e then j
    else k.mapJournal (fun x => x.jr.seq == seq) fun x => { x with waiting := false }

end Jenjor

/-! ### The events -/

/-- COMMIT_TICK (R214, R215): the buckets of R214 take their refill of one microsecond, and one commit forms. -/
def execCommitTick (s : State) : Host.Outcome State Fault Refusal :=
  onBlocks (fun j =>
    let j := { j with wr := { j.wr with tokens := min 16384 (j.wr.tokens + 1), byteTokens := min 16777216 (j.wr.byteTokens + 4000) } }
    if j.formsCommits then j.formCommit else j) s

/-- COMMIT_PUBLISH (R217, R222). -/
def execCommitPublish (s : State) : Host.Outcome State Fault Refusal := onMemory (fun mem _ j => Jenjor.publishOldest mem j) s

/-- WRITE_WAIT_RELEASE (R218). -/
def execWriteWaitRelease (seq : Nat) (s : State) : Host.Outcome State Fault Refusal := onBlocks (fun j => j.releaseWrite seq) s

end Sys2Proof.Machine
end

