-- ==== Sys2Proof/Machine/Upkeep.lean ====
section
/-! DEFINITION. Sys2Proof/Machine/Upkeep.lean: settling visits (R65), write-back and the header log (R223, R312), replating
(R224 to R228), retirement (R227), and the drain of a bias buffer (R231, R361). -/

namespace Sys2Proof.Machine
namespace Jenjor

/-! ### Write-back (R223, R312) -/

/-- A plate's changes reach its vault master: the journal no longer keeps records for it. -/
def plateWritten (j : Jenjor) (pid : Nat) : Jenjor :=
  (j.mapJournal (fun e => e.touched.contains pid) fun e => { e with touched := e.touched.filter (· != pid) }).count blkDEV 0x458

/-- Write a whole plate: its master copy is whole and new. -/
def writePlate (j : Jenjor) (p : Plate) : Jenjor :=
  (((j.mapPlate p.pid fun p => { p with dirtyHdr := false, dirtyData := false }).plateWritten p.pid).copyPlate p).programStripes
    (stripesOf 262144)

/-- Write the header-log stripe of a collection, padded when it is not full (R312). A plate whose data has changed since
its header joined the stripe is left to a full write-back. -/
def writeHeaders (j : Jenjor) (coll : Nat) : Jenjor :=
  match j.coll? coll with
  | none => j
  | some c =>
    if c.hdrLog.isEmpty then j
    else
      let pids := c.hdrLog.filter fun pid => (j.plate? pid).any fun p => !p.dirtyData
      let j := pids.foldl (fun j pid => (j.mapPlate pid fun p => { p with dirtyHdr := false }).plateWritten pid) j
      ((j.mapColl coll fun c => { c with hdrLog := [] }).logHeaders coll pids).programStripes 1

/-- The write-back of one plate: whole, or its header alone into the log, twelve headers to a stripe. -/
def writeBackPlate (j : Jenjor) (p : Plate) : Jenjor :=
  if !p.present || p.lost then j
  else if p.dirtyData then (j.writePlate p).freeJournal
  else if p.dirtyHdr && (j.coll? p.coll).any fun c => !c.hdrLog.contains p.pid then
    let j := j.mapColl p.coll fun c => { c with hdrLog := c.hdrLog ++ [p.pid] }
    if (j.coll? p.coll).any fun c => 12 ≤ c.hdrLog.length then (j.writeHeaders p.coll).freeJournal else j
  else j

/-- The write-back of a bias plane's accumulating buffer. Records of held pairs stay in the journal until the pairs are
in a buffer. -/
def writeBackBias (j : Jenjor) (coll : Nat) : Jenjor :=
  match (j.coll? coll).bind fun c => c.bias with
  | none => j
  | some b =>
    if !b.dirty then j
    else
      let j := j.mapColl coll fun c => { c with bias := c.bias.map fun b => { b with dirty := false } }
      let j := if b.hold.isEmpty then
          j.mapJournal (fun e => e.jr.coll == coll && e.published) fun e => { e with touchedBias := false }
        else j
      ((j.count blkDEV 0x458).programStripes (stripesOf 262144)).freeJournal

/-! ### Replating (R224 to R228) -/

/-- Settled deletes of a plate: tombstones with no delete-log entry (R224). -/
def settledDeletes (p : Plate) : Nat := (p.tomb.filter fun s => !p.dlog.any fun e => e.2 == s).length

def needsReclaim (j : Jenjor) (c : Coll) (p : Plate) : Bool :=
  p.sealed_ && ceilDiv (j.wr.replatePct * c.plateN) 100 ≤ settledDeletes p

/-- R228. -/
def needsRebase (j : Jenjor) (p : Plate) : Bool :=
  p.epochBase + 2 ^ 30 ≤ j.wr.epoch && (!p.sealed_ || p.unsettled)

/-- A plate on its collection's list that a replating may take as a source. -/
def sourceable (p : Plate) : Bool := !p.retiring && !p.source && p.present && !p.quarantined && !p.lost

/-- Replacement plates in flight across the module (R224). -/
def inFlightPlates (j : Jenjor) : Nat :=
  natSum ((j.cat.replatings.filter fun r => r.cause != .rekey).map fun r => r.repl.length)

/-- An occupied slot that a replacement carries: the source's number, the record, its insert epoch, whether it is settled,
and the epoch of its delete (R225 step 2). -/
structure Carried where
  num : Nat
  rec_ : Rec
  born : Nat
  settled : Bool
  gone : Option Nat
  deriving DecidableEq, Repr

def carriedOf (o : Nat) (p : Plate) : List Carried :=
  (List.range p.recs.length).filterMap fun s =>
    (p.recs[s]?).bind fun r =>
      let entry := p.dlog.find? fun e => e.2 == s
      let keep := !p.tomb.contains s || entry.any fun e => o < p.epochBase + e.1
      if keep then
        some { num := p.num, rec_ := r, born := p.epochBase + r.delta, settled := p.settled.contains s,
               gone := if p.tomb.contains s then entry.map fun e => p.epochBase + e.1 else none }
      else none

/-- Cut a list into pieces of `n`. -/
def chunks {α : Type} (n : Nat) : Nat → List α → List (List α)
  | 0, _ => []
  | _ + 1, [] => []
  | fuel + 1, x :: xs => (x :: xs).take n :: chunks n fuel ((x :: xs).drop n)

/-- One replacement (R225 steps 3 and 4): epoch base O, records born at or below O settled with delta 0, the rest and the
delete log re-based. -/
def replacement (c : Coll) (keyGen : Bool) (pid num o : Nat) (cs : List Carried) : Plate :=
  let base := { emptyPlate pid c.num num c.gridGen o keyGen c.sidecar with pred := (cs.head?).map fun x => x.num }
  let done := fun (x : Carried) => x.settled || x.born ≤ o
  let recs := cs.map fun x => { x.rec_ with delta := if done x then 0 else x.born - o }
  let idx := (List.range cs.length).zip cs
  let tomb := (idx.filter fun x => x.2.gone.isSome).map fun x => x.1
  let settled := (idx.filter fun x => done x.2).map fun x => x.1
  let dlog := idx.foldl (fun l x =>
    match x.2.gone with
    | none => l
    | some e => insertDlog (e - o, x.1) l) []
  buildPlate base c.sidecar c.plateN recs tomb settled dlog

/-- A code's value on a grid, one fused step to FP32 (R252, R255). -/
def codeValue (f : Format) (a b : F32) (c : BitVec 16) : F32 := f32Fma a (Fp.ofInt (codeInt f c)).toF32 b

/-- The codes of one record on a recalibration's new grid (R255 step 4): from its store vector, or from its old codes. -/
def recode (mem : List Host.Cell) (j : Jenjor) (c : Coll) (rc : Recal) (r : Rec) : List (BitVec 16) :=
  let base := ((j.obj? c.objStore).map fun o => o.base).getD 0
  let value := fun (i : Nat) =>
    if rc.fromStore ∧ r.hasRecord then
      (codeFp c.storeFmt (BitVec.ofNat 16 (leNat (Memory.readBytes mem (base + 16 * r.recOff + 2 * i) 2)))).toF32
    else codeValue c.format (f32At c.gridA i) (f32At c.gridB i) (r.codes.getD i 0)
  (List.range c.dim).map fun i => (codeElement c.format (f32At rc.gridA i) (f32At rc.gridB i) (value i)).getD 0

/-- The twin of a plate on the new grid. -/
def twinPlate (mem : List Host.Cell) (j : Jenjor) (c : Coll) (rc : Recal) (pid : Nat) (p : Plate) : Plate :=
  { p with pid := pid, gridGen := c.gridGen + 1, recs := p.recs.map (fun r => { r with codes := recode mem j c rc r }),
           source := false, dirtyHdr := true, dirtyData := true }

/-- The replacements of some sources, with their plate numbers and identities (R225). -/
def replacements (j : Jenjor) (c : Coll) (ps : List Plate) : List Plate :=
  let o := j.oldestRider
  let cs := chunks c.plateN (ps.length * c.plateN + 1) (ps.flatMap (carriedOf o))
  let nums := (List.range cs.length).foldl (fun (used : List Nat) _ => used ++ [lowestFree used (used.length + 1) 0])
    (j.plateNums c.num)
  let nums := nums.drop (j.plateNums c.num).length
  ((List.range cs.length).zip (nums.zip cs)).map fun x => replacement c j.genBit (j.cat.nextPid + x.1) x.2.1 o x.2.2

/-- Mark the sources and stage the replacements; under a staged recalibration, in both grid generations (R225, R255). -/
def startReplating (mem : List Host.Cell) (j : Jenjor) (c : Coll) (cause : ReplateCause) (ps repl : List Plate) : Jenjor :=
  let k := j.cat
  let first := k.nextPid + repl.length
  let twins := fun (r : Recal) => ((List.range repl.length).zip repl).map fun x => twinPlate mem j c r (first + x.1) x.2
  let job : Replating := { id := k.nextId, coll := c.num, cause := cause, sources := ps.map fun p => p.pid, repl := repl,
                           base := j.oldestRider, ready := false }
  let staged := k.recals.any fun r => r.coll == c.num
  let k := { k with replatings := k.replatings ++ [job], nextId := k.nextId + 1,
                    nextPid := first + (if staged then repl.length else 0),
                    recals := k.recals.map fun r => if r.coll = c.num then { r with twins := r.twins ++ twins r } else r }
  let j := { j with cat := k }
  (j.mapPlates (fun p => ps.any fun x => x.pid == p.pid) fun p => { p with source := true }).topUp c.num

/-- REPLATING_START: up to 8 plates of one collection that need it, in ascending number, with pool pages for their
replacements (R224, R225, R228, R243). -/
def replate (mem : List Host.Cell) (j : Jenjor) (pids : List Nat) : Jenjor :=
  let ps := pids.filterMap j.plate?
  match (ps.head?).bind fun p => j.liveColl? p.coll with
  | none => j
  | some c =>
    let rising := (ps.zip (ps.drop 1)).all fun x => x.1.num < x.2.num
    let reclaim := ps.all (j.needsReclaim c) && !j.cat.recals.any fun r => r.coll == c.num
    let rebase := ps.all j.needsRebase
    let repl := j.replacements c ps
    if ps.length != pids.length || 8 < ps.length || !rising || !ps.all (fun p => p.coll == c.num && sourceable p)
        || !(reclaim || rebase) || 64 < j.inFlightPlates + repl.length then j
    else
      match j.allocate (ceilDiv (j.plateBytes c repl) 2097152) [c.objPlates] with
      | .limit => j
      | .wait _ j => j
      | .granted j => startReplating mem j c (if reclaim then .reclaim else .rebase) ps repl

/-! ### Retirement (R227) -/

/-- A query, a calibration sweep, a pass or a group still holds a plate (R145, R227, R252). -/
def plateHeld (j : Jenjor) (pid : Nat) : Bool :=
  j.sw.ctxs.any (fun c => c.view.contains pid || c.owed.contains pid)
    || j.cat.calib.any (fun c => c.view.contains pid)
    || j.sw.rings.any (fun r => holdsClusters r && r.passList.contains pid)
    || j.sw.clusters.any fun c => c.groups.any fun g =>
        (g.queue ++ g.fill.toList ++ g.compute.toList).any fun x => x.pids.contains pid

/-! ### Bias drain (R231, R361) -/

/-- A query that has captured a frame of the collection older than the published one. -/
def holdsOldFrame (j : Jenjor) (coll frame : Nat) : Bool :=
  j.sw.ctxs.any fun x => x.coll == coll && (x.pinned || !beforeBoarding x) && x.frame < frame

/-- Copy the published buffer into the drained one, apply the hold list, and accumulate again (R231). -/
def refillBias (j : Jenjor) (coll : Nat) : Jenjor :=
  j.mapColl coll fun c =>
    { c with bias := c.bias.map fun b =>
        { b with other := b.hold.foldl (fun o h => applyPair o h.1 h.2.1 h.2.2) b.published, hold := [],
                 phase := .accumulating, dirty := true } }

def drainBias (j : Jenjor) (coll : Nat) : Jenjor :=
  match (j.coll? coll).bind fun c => c.bias with
  | none => j
  | some b =>
    if b.phase ≠ .draining ∨ j.holdsOldFrame coll b.frame then j
    else if j.pairedIn 3 then
      let j := if b.doneSent then j
        else (j.mapColl coll fun c => { c with bias := c.bias.map fun b => { b with doneSent := true } }).sendCpn 0x0E coll (b.frame - 1) 0 []
      if b.peerDone then j.refillBias coll else j
    else j.refillBias coll

end Jenjor

/-! ### The events -/

/-- PLATE_SETTLE_VISIT (R65). -/
def execPlateSettleVisit (pid : Nat) (s : State) : Host.Outcome State Fault Refusal :=
  onBlocks (fun j => if (j.plate? pid).any fun p => p.present && !p.lost then j.settlePlate pid else j) s

/-- WRITE_BACK (R223, R312). -/
def execWriteBack (tgt : WriteBackTarget) (s : State) : Host.Outcome State Fault Refusal :=
  onBlocks (fun j =>
    match tgt with
    | .plate pid =>
      match j.plate? pid with
      | none => j
      | some p => j.writeBackPlate p
    | .bias coll => j.writeBackBias coll) s

/-- HEADER_LOG_STRIPE_TIMEOUT (R312). -/
def execHeaderLogStripeTimeout (coll : Nat) (s : State) : Host.Outcome State Fault Refusal :=
  onBlocks (fun j => (j.writeHeaders coll).freeJournal) s

/-- REPLATING_START (R224, R225, R228). -/
def execReplatingStart (pids : List Nat) (s : State) : Host.Outcome State Fault Refusal :=
  onReading (fun mem _ j => Jenjor.replate mem j pids) s

/-- REPLATING_READY (R225 step 5): the replacements are written, and the edit that swaps them in is entered. -/
def execReplatingReady (job : Nat) (s : State) : Host.Outcome State Fault Refusal :=
  onBlocks (fun j =>
    match j.cat.replatings.find? fun r => r.id == job && !r.ready with
    | none => j
    | some r =>
      let written := fun (p : Plate) => { p with dirtyHdr := false, dirtyData := false }
      let note := fun (x : Replating) => if x.id = job then { x with ready := true, repl := x.repl.map written } else x
      let j := (r.repl.foldl (fun j p => j.copyPlate p) j).programStripes (r.repl.length * stripesOf 262144)
      let j := { j with cat := { j.cat with replatings := j.cat.replatings.map note } }
      j.enterForColl r.coll (.replate job)) s

/-- PLATE_RETIRE (R227): the plate's number, locator block and tier space are free again, and the record-store extents that
no record names any more (`storeExtents`). -/
def execPlateRetire (pid : Nat) (s : State) : Host.Outcome State Fault Refusal :=
  onBlocks (fun j =>
    if ((j.plate? pid).any fun p => p.retiring) && !j.plateHeld pid then
      let j := ((j.plate? pid).map j.dropCopies).getD j
      let j := j.mapJournal (fun e => e.touched.contains pid) fun e => { e with touched := e.touched.filter (· != pid) }
      (j.mapCat fun k => { k with plates := k.plates.filter fun p => p.pid != pid }).freeJournal
    else j) s

/-- BIAS_BUFFER_DRAINED (R231). -/
def execBiasBufferDrained (coll : Nat) (s : State) : Host.Outcome State Fault Refusal := onBlocks (fun j => j.drainBias coll) s

end Sys2Proof.Machine
end

