-- ==== Sys2Proof/Machine/Tiers.lean ====
section
/-! DEFINITION. Sys2Proof/Machine/Tiers.lean: tiers and placement (R233 to R258): PLACE, SET_RESIDENCE, the slew engine, the
photometer, ATOMIC, CALIBRATE and RECALIBRATE with their completions, and the tile commands. -/

namespace Sys2Proof.Machine
open Jenjor

namespace Jenjor

/-! ### PLACE and SET_RESIDENCE (R240, R248) -/

def tierOf (n : Nat) : Tier := if n = 1 then .sram else if n = 2 then .sweep else .vault

/-- Tiers that PLACE may name for a kind (R36, R240); a deep-field plate set is always read from the vault. -/
def placeable (j : Jenjor) (o : Obj) (t : Tier) : Bool :=
  if o.kind = 1 then t == .vault || (t == .sweep && !((j.coll? o.coll).any fun c => c.deep))
  else if o.kind = 2 then t == .vault || t == .sweep
  else if o.kind = 5 then t == .sram || t == .sweep
  else o.kind == 8 && t == .sweep

def placeChecks (j : Jenjor) (d : Desc) : List (Bool × Status) :=
  let t := tierOf (dField d 0x0C 1)
  match j.liveObj? (dField d 0x08 4) with
  | none => [(true, .unknownObject), (j.readOnlyNow, .readOnly)]
  | some o =>
    [ (!j.placeable o t, .parameterInvalid),
      (o.kind == 1 && (j.ringOf o.coll).any (fun r => r.phase != .stopped), .ringBusy),
      (t == .sram && o.tier != t && 128 ≤ j.biasPlaces, .limitReached),
      (o.kind == 1 && t == .vault && o.tier != t && !j.vaultFits (j.uncopied o.coll * stripesOf 262144), .limitReached),
      (j.readOnlyNow, .readOnly),
      (j.keyGone && t != .vault && o.tier != t, .keyWithdrawn) ]

/-- A PLACE or SET_RESIDENCE takes its sequence number when its effect is made. -/
def placeObject (j : Jenjor) (f : Fetched) (_ : List Byte) : Jenjor :=
  match firstStatus (j.placeChecks f.d) with
  | some st => j.refuse f.ref st
  | none =>
    let n := dField f.d 0x08 4
    let t := tierOf (dField f.d 0x0C 1)
    if (j.obj? n).any fun o => o.tier == t then
      (j.mapObj n fun o => { o with lastUse := j.time }).completeCatalogue f.ref 0
    else j.addSlew n t 0 (.place f.ref)

/-- Write an object's changes to its vault master, as an eviction does (R236 step 3, R248). -/
def writeBackObject (j : Jenjor) (o : Obj) : Jenjor :=
  let j := if o.kind = 1 then
      (j.cat.plates.filter fun p => p.coll == o.coll && (p.dirtyHdr || p.dirtyData) && p.present && !p.lost).foldl
        (fun j p => j.writePlate p) j
    else if o.dirty.isEmpty then j
    else (j.homeObject o).programStripes (stripesOf (65536 * o.dirty.length))
  j.mapObj o.num fun o => { o with dirty := [] }

/-- Set a collection's residence; its plate set is read from the vault once deep-field. -/
def setDeep (j : Jenjor) (coll : Nat) (deep : Bool) : Jenjor := j.mapColl coll fun c => { c with deep := deep }

def setResidence (j : Jenjor) (f : Fetched) (_ : List Byte) : Jenjor :=
  let deep := dField f.d 0x08 1 == 1
  match j.liveColl? (dField f.d 0x04 2) with
  | none => j.refuse f.ref .addressInvalid
  | some c =>
    match firstStatus
        [ (j.sw.rings.any (fun r => r.defn.any fun d => d.colls.contains c.num), .ringInvalid),
          (deep && !j.place.photometric, .parameterInvalid),
          (deep && !j.vaultFits (j.uncopied c.num * stripesOf 262144), .limitReached),
          (j.readOnlyNow, .readOnly),
          (j.keyGone, .keyWithdrawn) ] with
    | some st => j.refuse f.ref st
    | none =>
      let t : Tier := if deep then .vault else .sweep
      if c.deep = deep then j.completeCatalogue f.ref 0
      else if j.plateSetTier c = t then
        let j := if deep then (((j.obj? c.objPlates).map j.writeBackObject).getD j).freeJournal else j
        (j.setDeep c.num deep).completeCatalogue f.ref 0
      else j.addSlew c.objPlates t 0 (.residence f.ref c.num)

/-! ### The slew engine (R236 to R238) -/

/-- Pool pages that an object's promotion takes. -/
def promotePages (j : Jenjor) (o : Obj) (t : Tier) : Nat :=
  if t ≠ .sweep ∨ o.tier = .sweep then 0
  else if o.kind = 1 then
    ceilDiv (j.cat.plates.filter fun p => p.coll == o.coll).length 8 - ((j.coll? o.coll).map j.plateSetPages).getD 0
  else if o.kind = 5 then 1
  else pagesOf o.bytes

def byCommand (s : Slew) : Bool := s.cause != .photometric

/-- The slew to start next: those that commands wait on in order, then photometric ones hottest first (R238), leaving out
an object that is being moved, one whose allocation waits, and a promotion of one whose eviction is ahead of it (R246). -/
def nextSlew (j : Jenjor) : Option Slew :=
  let ahead := fun (s t : Slew) => t.obj == s.obj && (t.started || (t.dest == .vault && s.dest != .vault && t.order < s.order))
  let ready := j.cat.slews.filter fun s =>
    !s.started && !j.cat.slews.any (ahead s) && !(j.cat.allocs.any fun a => a.what == .slewStart s.obj)
  match argmin (fun s => s.order) (ready.filter byCommand) with
  | some s => some s
  | none => argmin (fun s => 2 ^ 32 - ((j.obj? s.obj).map fun o => o.heat).getD 0) ready

def slewsInFlight (j : Jenjor) : Nat := (j.cat.slews.filter fun s => s.started).length

def dropSlew (j : Jenjor) (s : Slew) : Jenjor := { j with cat := { j.cat with slews := j.cat.slews.erase s } }

/-- A slew that cannot be made: what waited on it is answered. -/
def failSlew (j : Jenjor) (s : Slew) (st : Status) : Jenjor :=
  let j := j.dropSlew s
  match s.cause with
  | .place c => j.refuse c st
  | .residence c _ => j.refuse c st
  | .ringStart n =>
    match (j.ring? n).bind fun r => if r.phase = .waiting then r.starter else none with
    | none => j
    | some c => ((j.mapRing n fun r => { r with phase := .stopped, starter := none }).abortAll (j.waitersOf n) .ringStopped).refuse c st
  | _ => j

/-- Start a slew, or try its allocation once more (R236 steps 1 to 3, R245). A photometric promotion evicts only objects
cooler than half its own heat (R241) and is dropped when its allocation fails; one that waits for a victim's switch goes
on. -/
def beginSlew (j : Jenjor) (s : Slew) (since : Nat) (expired : Bool) : Jenjor :=
  match j.obj? s.obj with
  | none => j.dropSlew s
  | some o =>
    let need := j.promotePages o s.dest
    let heat := if s.cause = .photometric ∧ o.kind = 2 then some o.heat else none
    match j.allocateCool need [s.obj] heat with
    | .limit => if s.cause = .photometric then j.dropSlew s else j.failSlew s .limitReached
    | .wait failed j =>
      if failed && s.cause == .photometric then j.dropSlew s
      else if failed && expired then j.failSlew s .poolBusy
      else j.park (.slewStart s.obj) since failed
    | .granted j =>
      let f := fun (x : Slew) => if x = s then { x with started := true, pages := need } else x
      { j with cat := { j.cat with slews := j.cat.slews.map f } }

/-- Slews that heat asked for end where directed placement begins (R239). -/
def dropHeatSlews (j : Jenjor) : Jenjor :=
  let gone := (j.cat.slews.filter fun s => s.cause == .photometric).map fun s => s.obj
  j.mapCat fun c =>
    { c with slews := c.slews.filter (fun s => s.cause != .photometric),
             allocs := c.allocs.filter fun a => !gone.any fun o => a.what == .slewStart o }

/-- A bias plane moves between sweep memory and the bias store. A place that a photometer interval has set free goes to a
plane of a starting ring that waits for it (R241). -/
def moveBias (j : Jenjor) (s : Slew) (o : Obj) : Jenjor :=
  if o.kind ≠ 5 then j
  else
    let j := j.mapColl o.coll fun c => { c with bias := c.bias.map fun b => { b with inStore := s.dest == .sram } }
    if s.cause ≠ .photometric then j
    else
      (j.sw.rings.filter holdsClusters).foldl (fun j r =>
        match r.defn with
        | none => j
        | some d => (d.colls.filter (· != o.coll)).foldl placeBias j) j

/-- The objects of a rekey take the current generation at their switch (R388 item 5): of a plate set whose ring sweeps,
the open plates alone. -/
def rekeyObject (j : Jenjor) (o : Obj) : Jenjor :=
  let g := j.sweepGen
  let b := j.genBit
  let j := j.mapObj o.num fun o => { o with keyGen := g }
  if o.kind = 1 then
    let all := !(j.ringOf o.coll).any sweeping
    j.mapPlates (fun p => p.coll == o.coll && p.keyGen != b && (all || !p.sealed_)) fun p =>
      { p with keyGen := b, dirtyHdr := true }
  else j

/-- The switch (R236 step 4, R237): pending granules are copied, the destination becomes the tier, and what waited goes
on. -/
def switchSlew (j : Jenjor) (s : Slew) (o : Obj) : Jenjor :=
  let j := if s.dest = .vault then j.writeBackObject o else j
  let j := j.dropSlew s
  let j := if s.dest = o.tier then j.count blkDEV 0x518 else j.switchTier s.obj s.dest s.pages
  let j := j.moveBias s o
  let j := match s.cause with
    | .place c => (j.mapObj s.obj fun o => { o with lastUse := j.time }).completeCatalogue c 0
    | .residence c n => (j.setDeep n (s.dest == Tier.vault)).completeCatalogue c 0
    | .ringStart _ => j.reassign
    | .rekey => j.rekeyObject o
    | _ => j
  j.freeJournal

/-- A page that fails its check abandons the slew: the object stays where it was (R236). -/
def abandonSlew (j : Jenjor) (s : Slew) : Jenjor :=
  ((j.count blkDEV 0x530).fault 2 blkDEV s.obj 0x530 0 Status.internalError.code 0).failSlew s .internalError

/-! ### The photometer (R241, R242, R247) -/

/-- Pages that R243 could free for an object by evicting only objects of less than half its heat, beyond what the
promotions of the same interval take. -/
def coolPages (j : Jenjor) (o : Obj) : Nat :=
  let queued := (j.cat.slews.filter fun s => s.cause == .photometric && !s.started).map fun s =>
    ((j.obj? s.obj).map fun x => j.promotePages x s.dest).getD 0
  j.poolFree + j.cacheAboveFloor + natSum ((j.candidates [o.num] (some o.heat)).map j.evictable) - natSum queued

/-- Promote hot payload tables of running rings, hottest first. -/
def promoteTables (j : Jenjor) : Jenjor :=
  let hot := j.cat.objs.filter fun o =>
    o.kind == 2 && o.tier == .vault && !o.draining && j.place.promoteMin ≤ o.heat
      && (j.ringOf o.coll).any (fun r => r.phase == .running) && !(j.cat.slews.any fun s => s.obj == o.num)
  (sortBy (fun a b => b.heat < a.heat || (a.heat == b.heat && a.num ≤ b.num)) hot).foldl (fun j o =>
    if pagesOf o.bytes ≤ j.coolPages o then j.addSlew o.num .sweep 0 .photometric else j) j

/-- The record cache holds no more pages than its ceiling. -/
def trimCache : Nat → Jenjor → Jenjor
  | 0, j => j
  | fuel + 1, j =>
    let top := if j.place.photometric then max j.spg.cacheSize j.spg.cacheMax else j.spg.cacheSize
    if top < j.spg.cachePages.length && !j.loosePages.isEmpty then trimCache fuel j.releaseCachePage
    else j

/-- Bring the record cache to its size (R149): pages below the floor are added as the pool has them. -/
def fitCache (j : Jenjor) : Jenjor :=
  let j := trimCache j.spg.cachePages.length j
  let more := min (j.spg.cacheSize - j.spg.cachePages.length) j.poolFree
  let used := j.spg.cachePages.map fun p => p.1
  let fresh := (lowestFreeMany used more).map fun n => (n, 0)
  let j : Jenjor := { j with spg := { j.spg with cachePages := j.spg.cachePages ++ fresh } }
  j.mapObjs (fun o => o.kind == 7) fun o => { o with bytes := j.spg.cacheSize * mib2 }

/-- A bias plane whose ring has stopped leaves the bias store when one of a starting or running ring waits for a place. -/
def freeBiasPlace (j : Jenjor) : Jenjor :=
  let waits := j.cat.colls.any fun c =>
    c.bias.any (fun b => !b.inStore) && (j.ringOf c.num).any fun r => r.phase == .running || r.phase == .waiting
  let idle := j.cat.colls.filter fun c =>
    c.bias.any (fun b => b.inStore) && (j.ringOf c.num).all (fun r => r.phase == .stopped)
      && !(j.cat.slews.any fun s => s.obj == c.objBias)
  match idle with
  | c :: _ => if waits && 128 ≤ j.biasPlaces then j.addSlew c.objBias .sweep 0 .photometric else j
  | [] => j

/-- Every heat count is halved. -/
def decay (j : Jenjor) : Jenjor :=
  { j with cat := { j.cat with objs := j.cat.objs.map fun o => { o with heat := o.heat / 2 } },
           spg := { j.spg with cachePages := j.spg.cachePages.map fun p => (p.1, p.2 / 2) } }

/-! ### ATOMIC (R249, R250) -/

/-- Bytes of an element of an adder format. -/
def adderBytes (fmt : Nat) : Nat := if fmt = 2 then 8 else if fmt = 3 then 2 else 4

/-- One operation on a stored element (R249). -/
def adderOp (fmt op stored operand : Nat) : Nat :=
  let int := fun (w : Nat) =>
    let a := (BitVec.ofNat w stored).toInt
    let b := (BitVec.ofNat w operand).toInt
    if op = 1 then (stored + operand) % 2 ^ w
    else if op = 2 then (if b < a then operand else stored)
    else if a < b then operand else stored
  if fmt = 1 then int 32
  else if fmt = 2 then int 64
  else if fmt = 3 then
    let r := (Fp.ofBits fmtBF16 stored).add (Fp.ofBits fmtBF16 operand)
    (r.toWord16 fmtBF16).toNat
  else
    let a := BitVec.ofNat 32 stored
    let b := BitVec.ofNat 32 operand
    if op = 1 then (f32Add a b).toNat
    else if op = 2 then (if (Fp.ofF32 b).lt (Fp.ofF32 a) then operand else stored)
    else if (Fp.ofF32 a).lt (Fp.ofF32 b) then operand else stored

/-- The pairs of an ATOMIC: offset and operand. -/
def atomicPairs (op : List Byte) : List (Nat × Nat) :=
  (List.range (op.length / 16)).map fun i => (fieldAt op (16 * i) 8, fieldAt op (16 * i + 8) 8)

def region? (j : Jenjor) (n : Nat) : Option Obj := (j.liveObj? n).bind fun o => if o.kind = 8 then some o else none

def atomicChecks (j : Jenjor) (d : Desc) (op : List Byte) : List (Bool × Status) :=
  let w := adderBytes (dField d 0x18 1)
  let n := dField d 0x1A 2
  match j.region? (dField d 0x14 4) with
  | none => [(true, .unknownObject)]
  | some o =>
    [ (n == 0 || 4096 < n || op.length != 16 * n || dField d 0x10 4 != op.length, .parameterInvalid),
      (dField d 0x18 1 == 3 && dField d 0x19 1 != 1, .parameterInvalid),
      ((atomicPairs op).any fun p => 2 ^ (8 * w) ≤ p.2, .parameterInvalid),
      ((atomicPairs op).any fun p => o.bytes < p.1 + w || p.1 % w != 0, .addressInvalid),
      (j.keyGone, .keyWithdrawn) ]

/-- Apply the pairs in list order; the second value is what each element held before (R250). -/
def applyAtomics (fmt op base : Nat) : List (Nat × Nat) → List Host.Cell → List Host.Cell × List Nat
  | [], m => (m, [])
  | p :: ps, m =>
    let w := adderBytes fmt
    let old := leNat (Memory.readBytes m (base + p.1) w)
    let (m', olds) := applyAtomics fmt op base ps (Memory.writeBytes m (base + p.1) (leBytes w (adderOp fmt op old p.2)))
    (m', old :: olds)

/-- Return bytes to the submitter, or complete at once when it asked for none (R250, R257). -/
def returnBytes (j : Jenjor) (r : CmdRef) (addr : Nat) (rkey : BitVec 32) (data : List Byte) : Jenjor :=
  let (id, j) := j.newId
  j.deliverThen id r 0 addr rkey data .success 0 0 none

/-- A poisoned code word of a tile region lies among `n` bytes from `off` (R305). -/
def tilePoisoned (j : Jenjor) (obj off n : Nat) : Bool :=
  j.mem.poison.any fun p =>
    match p.2 with
    | .tile o a _ => o == obj && off < a / 64 * 64 + 64 && a / 64 * 64 < off + n
    | _ => false

/-- A write that covers whole code words clears their poison (R305). -/
def clearTilePoison (j : Jenjor) (obj off n : Nat) : Jenjor :=
  let stays := fun (p : Nat × PoolObject) =>
    match p.2 with
    | .tile o a _ => !(o == obj && off ≤ a / 64 * 64 && a / 64 * 64 + 64 ≤ off + n)
    | _ => true
  { j with mem := { j.mem with poison := j.mem.poison.filter stays } }

/-- ATOMIC (R249, R250). -/
def atomicCmd (mem : List Host.Cell) (j : Jenjor) (f : Fetched) (op : List Byte) : List Host.Cell × Jenjor :=
  match j.region? (dField f.d 0x14 4) with
  | none => (mem, j.refuse f.ref .unknownObject)
  | some o =>
    match firstStatus (j.atomicChecks f.d op) with
    | some st => (mem, j.refuse f.ref st)
    | none =>
      let ps := atomicPairs op
      if ps.any fun p => j.tilePoisoned o.num p.1 (adderBytes (dField f.d 0x18 1)) then (mem, j.refuse f.ref .internalError)
      else
      let (m, olds) := applyAtomics (dField f.d 0x18 1) (dField f.d 0x19 1) o.base ps mem
      let j := ps.foldl (fun j p => j.noteWrite o.num p.1 (adderBytes (dField f.d 0x18 1))) j
      if dField f.d 0x20 8 = 0 then (m, j.complete f.ref .success 0 0 none)
      else (m, j.returnBytes f.ref (dField f.d 0x20 8) (BitVec.ofNat 32 (dField f.d 0x28 4)) (olds.flatMap (leBytes 8)))

/-! ### The tile commands (R257) -/

def tileBytes : Nat := 65536

def tileChecks (j : Jenjor) (d : Desc) : List (Bool × Status) :=
  let n := dField d 0x18 1
  match j.region? (dField d 0x10 4) with
  | none => [(true, .unknownObject)]
  | some o =>
    [ (n == 0 || 16 < n, .parameterInvalid),
      (o.bytes < (dField d 0x14 4 % 2 ^ 28 + n) * tileBytes, .addressInvalid),
      (j.keyGone, .keyWithdrawn) ]

/-- Byte offset of the first tile in the region, and the bytes of the tiles named. -/
def tileSpan (d : Desc) : Nat × Nat := (dField d 0x14 4 % 2 ^ 28 * tileBytes, dField d 0x18 1 * tileBytes)

/-- A command on the tile region of number `obj` waits in its queue while a slew holds the region (R237). -/
def tileHeld (j : Jenjor) (q : Nat) (obj : Desc → Nat) : Bool :=
  (j.qs.fetched.find? fun f => f.ref.q == q).any fun f => j.heldBySlew (obj f.d)

/-- A tile command: `body` is what it does once its region and tiles are in order. -/
def tileCmd (mem : List Host.Cell) (j : Jenjor) (q code : Nat)
    (body : Jenjor → Fetched → Obj → List Host.Cell × Jenjor) : List Host.Cell × Jenjor :=
  match j.takeFetched q code with
  | none => (mem, j)
  | some (f, j) =>
    match firstStatus (j.tileChecks f.d), j.region? (dField f.d 0x10 4) with
    | some st, _ => (mem, j.refuse f.ref st)
    | none, none => (mem, j.refuse f.ref .unknownObject)
    | none, some o => body j f o

/-! ### Calibration sweeps (R251 to R254) -/

def calibPairs (op : List Byte) : List (F32 × F32) :=
  (List.range (op.length / 8)).map fun i => (wordAt op (8 * i), wordAt op (8 * i + 4))

def calibChecks (j : Jenjor) (d : Desc) (op : List Byte) : List (Bool × Status) :=
  match j.liveColl? (dField d 0x04 2) with
  | none => [(true, .addressInvalid)]
  | some c =>
    [ (dField d 0x14 1 == 1 && c.format == .b1, .parameterInvalid),
      (dField d 0x14 1 == 2 && c.store == .none, .parameterInvalid),
      ((calibPairs op).any fun p => !f32IsFinite p.1 || !f32PosNormal p.2, .parameterInvalid),
      (op.length != 8 * c.dim || dField d 0x10 4 != op.length, .parameterInvalid),
      (dField d 0x18 4 == 0 || 65536 < dField d 0x18 4, .parameterInvalid),
      (j.keyGone, .keyWithdrawn) ]

/-- A collection's plates in list position (R252): as they stand on its ring's list, else in ascending plate number. -/
def listView (j : Jenjor) (n : Nat) : List Nat :=
  match j.ringOf n with
  | none => j.viewOf n
  | some r => r.view.filter fun pid => (j.plate? pid).any fun p => p.coll == n

/-- Start a calibration sweep: its view, and the grid of the view's plates (R252). -/
def startCalib (j : Jenjor) (f : Fetched) (op : List Byte) : Jenjor :=
  match firstStatus (j.calibChecks f.d op), j.liveColl? (dField f.d 0x04 2) with
  | some st, _ => j.refuse f.ref st
  | none, none => j.refuse f.ref .addressInvalid
  | none, some c =>
    let k : Calib := { ref := f.ref, coll := c.num, fromStore := dField f.d 0x14 1 == 2, stride := dField f.d 0x18 4,
                       params := calibPairs op, addr := dField f.d 0x20 8, rkey := BitVec.ofNat 32 (dField f.d 0x28 4),
                       view := j.listView c.num, epochStart := j.wr.epoch, gridA := c.gridA, gridB := c.gridB,
                       gridGen := c.gridGen }
    { j with cat := { j.cat with calib := some k } }

/-- The sums that one dimension keeps (R253). -/
structure DimStat where
  n : Nat
  nans : Nat
  sum : F32
  squares : F32
  lo : F32
  hi : F32
  bins : List Nat
  deriving DecidableEq, Repr

def DimStat.start : DimStat :=
  { n := 0, nans := 0, sum := 0, squares := 0, lo := 0x7F800000#32, hi := 0xFF800000#32, bins := List.replicate 258 0 }

/-- The histogram bin of a value. -/
def binOf (p : F32 × F32) (x : F32) : Nat :=
  let t := Fp.ofF32 (f32Div (f32Sub x p.1) p.2)
  if t.lt Fp.zero then 0
  else if (Fp.ofNat 256).lt t || t.cmp (Fp.ofNat 256) == some .eq then 257
  else
    match t with
    | .fin _ m e => 1 + (if 0 ≤ e then m * 2 ^ e.toNat else m / 2 ^ (-e).toNat)
    | _ => 257

def DimStat.add (p : F32 × F32) (s : DimStat) (x : F32) : DimStat :=
  if f32IsNaN x then { s with nans := s.nans + 1 }
  else
    { s with n := s.n + 1, sum := f32Add s.sum x, squares := f32Fma x x s.squares,
             lo := if (Fp.ofF32 x).lt (Fp.ofF32 s.lo) then x else s.lo,
             hi := if (Fp.ofF32 s.hi).lt (Fp.ofF32 x) then x else s.hi,
             bins := s.bins.set (binOf p x) (s.bins.getD (binOf p x) 0 + 1) }

def DimStat.bytes (s : DimStat) : List Byte :=
  leBytes 8 s.n ++ leBytes 8 s.nans ++ leBytes 4 s.sum.toNat ++ leBytes 4 s.squares.toNat ++ leBytes 4 s.lo.toNat
    ++ leBytes 4 s.hi.toNat ++ leBytes 32 0 ++ s.bins.flatMap (leBytes 8)

/-- The vectors that a counted record gives (R252). -/
def calibVectors (mem : List Host.Cell) (j : Jenjor) (c : Coll) (k : Calib) (r : Rec) : List (List F32) :=
  if k.fromStore then
    let base := ((j.obj? c.objStore).map fun o => o.base).getD 0
    let hs := halvesOf (Memory.readBytes mem (base + 16 * r.recOff) r.recLen)
    (List.range (r.recLen / (2 * c.dim))).map fun i =>
      ((hs.drop (i * c.dim)).take c.dim).map fun h => (codeFp c.storeFmt h).toF32
  else
    [(List.range c.dim).map fun i =>
      if c.format.isInteger then codeValue c.format (f32At k.gridA i) (f32At k.gridB i) (r.codes.getD i 0)
      else (codeFp c.format (r.codes.getD i 0)).toF32]

/-- The records that a sweep counts, in read order (R252). -/
def calibRecords (j : Jenjor) (k : Calib) : List Rec :=
  (k.view.filterMap j.plate?).flatMap fun p =>
    (List.range p.recs.length).filterMap fun s => if s % k.stride = 0 && p.visible s j.wr.epoch then p.recs[s]? else none

/-- The result block (R254). -/
def calibBlock (mem : List Host.Cell) (j : Jenjor) (c : Coll) (k : Calib) : List Byte :=
  let rs := j.calibRecords k
  let vs := rs.flatMap (calibVectors mem j c k)
  let gen := if k.fromStore || !c.format.isInteger then 0 else k.gridGen
  leBytes 8 rs.length ++ leBytes 8 vs.length ++ leBytes 8 k.epochStart ++ leBytes 8 j.wr.epoch ++ leBytes 4 gen
    ++ leBytes 2 c.dim ++ leBytes 1 (if k.fromStore then 2 else 1) ++ leBytes 1 0 ++ leBytes 4 k.stride ++ leBytes 20 0
    ++ (List.range c.dim).flatMap fun d =>
        ((vs.map fun v => f32At v d).foldl (DimStat.add (k.params.getD d (0, 0))) DimStat.start).bytes

/-- Of the calibration sweeps that wait, the first that is not refused starts (R251). -/
def startWaiting : List (Fetched × List Byte) → Jenjor → Jenjor
  | [], j => j
  | (f, op) :: rest, j =>
    let j := startCalib { j with cat := { j.cat with calibQueue := rest } } f op
    if j.cat.calib.isSome then j else startWaiting rest j

def nextCalib (j : Jenjor) : Jenjor := startWaiting j.cat.calibQueue j

/-- The sweep ends: its block, then its completion. A collection deleted meanwhile keeps its plates for the sweep. -/
def finishCalib (mem : List Host.Cell) (j : Jenjor) : Jenjor :=
  match j.cat.calib with
  | none => j
  | some k =>
    let j' := { j with cat := { j.cat with calib := none } }
    match j.coll? k.coll with
    | none => j'.nextCalib
    | some c => (j'.returnBytes k.ref k.addr k.rkey (calibBlock mem j c k)).nextCalib

/-! ### Recalibration (R255, R256) -/

def recalChecks (j : Jenjor) (d : Desc) (op : List Byte) : List (Bool × Status) :=
  match j.liveColl? (dField d 0x04 2) with
  | none => [(true, .addressInvalid), (j.readOnlyNow, .readOnly)]
  | some c =>
    [ (!c.format.isInteger, .parameterInvalid),
      (c.format.isInteger && gridBad c.format c.metric c.dim (dField d 0x10 4) op, .gridInvalid),
      (dField d 0x14 1 == 2 && c.store != .single, .parameterInvalid),
      (!j.vaultFits ((j.collPlates c.num).length * stripesOf 262144), .limitReached),
      (j.readOnlyNow, .readOnly),
      (j.keyGone, .keyWithdrawn) ]

/-- Build a twin for every plate on the collection's list (R255 steps 2 to 4). -/
def stageRecal (mem : List Host.Cell) (j : Jenjor) (f : Fetched) (c : Coll) (op : List Byte) : Jenjor :=
  let ws := wordsOf op
  let j := j.nextSeq.2
  let store := dField f.d 0x14 1 == 2
  let ps := sortBy (fun a b => a.num ≤ b.num) (j.collPlates c.num)
  let bare : Recal := { ref := f.ref, seq := j.cat.seq, coll := c.num, fromStore := store, gridA := ws.take c.dim,
                        gridB := ws.drop c.dim, twins := [], fromCodes := 0, staged := false }
  let twins := ((List.range ps.length).zip ps).map fun x => twinPlate mem j c bare (j.cat.nextPid + x.1) x.2
  let codes := natSum (ps.map fun p => (p.recs.filter fun r => !r.hasRecord).length)
  let rc : Recal := { bare with twins := twins, fromCodes := if store then codes else 0 }
  { j with cat := { j.cat with recals := j.cat.recals ++ [rc], nextPid := j.cat.nextPid + ps.length } }

/-- Carry out a RECALIBRATE, or one more attempt at its allocation (R245, R255). -/
def recalibrate (mem : List Host.Cell) (j : Jenjor) (f : Fetched) (op : List Byte) (since : Nat) : Jenjor :=
  match firstStatus (j.recalChecks f.d op), j.liveColl? (dField f.d 0x04 2) with
  | some st, _ => j.refuse f.ref st
  | none, none => j.refuse f.ref .addressInvalid
  | none, some c =>
    match j.allocate (ceilDiv (j.plateBytes c (j.collPlates c.num)) 2097152) [c.objPlates] with
    | .limit => j.refuse f.ref .limitReached
    | .wait b j => j.park (.recalibrate f op) since b
    | .granted j => stageRecal mem j f c op

/-- A RECALIBRATE waits while a recalibration, rekey or replating of its collection is under way (R255 step 1). -/
def recalWaits (j : Jenjor) (q : Nat) : Bool :=
  match j.qs.fetched.find? fun f => f.ref.q == q with
  | none => false
  | some f =>
    let n := dField f.d 0x04 2
    j.cat.recals.any (fun r => r.coll == n) || j.cat.replatings.any fun r => r.coll == n

end Jenjor

/-! ### The commands and events -/

/-- PLACE (R240). -/
def execPlace (q : Nat) (s : State) : Host.Outcome State Fault Refusal :=
  onBlocks (fun j => j.catalogueCmd q 0x46 [] Jenjor.placeObject) s

/-- SET_RESIDENCE (R248). -/
def execSetResidence (q : Nat) (s : State) : Host.Outcome State Fault Refusal :=
  onBlocks (fun j => j.catalogueCmd q 0x47 [] Jenjor.setResidence) s

/-- PHOTOMETER_INTERVAL (R241, R242). -/
def execPhotometerInterval (s : State) : Host.Outcome State Fault Refusal :=
  onBlocks (fun j =>
    let j := if j.place.photometric then j.promoteTables.fitCache.freeBiasPlace else j.fitCache
    j.decay) s

/-- ATOMIC (R249, R250). -/
def execAtomic (q : Nat) (op : List Byte) (s : State) : Host.Outcome State Fault Refusal :=
  onMemory (fun mem _ j =>
    match if j.tileHeld q fun d => dField d 0x14 4 then none else j.takeFetched q 0x50 with
    | none => (mem, j)
    | some (f, j) => atomicCmd mem j f op) s

/-- TILE_WRITE (R257): `data` is what the source addresses hold. -/
def execTileWrite (q : Nat) (data : List Byte) (s : State) : Host.Outcome State Fault Refusal :=
  onMemory (fun mem _ j => if j.tileHeld q fun d => dField d 0x10 4 then (mem, j) else tileCmd mem j q 0x30 fun j f o =>
    let (off, n) := tileSpan f.d
    (Memory.writeBytes mem (o.base + off) (bytesAt data 0 n),
      ((j.clearTilePoison o.num off n).noteWrite o.num off n).complete f.ref .success 0 0 none)) s

/-- TILE_READ (R257). -/
def execTileRead (q : Nat) (s : State) : Host.Outcome State Fault Refusal :=
  onMemory (fun mem _ j => tileCmd mem j q 0x31 fun j f o =>
    let (off, n) := tileSpan f.d
    if j.tilePoisoned o.num off n then (mem, j.refuse f.ref .internalError)
    else
      (mem, j.returnBytes f.ref (dField f.d 0x08 8) (BitVec.ofNat 32 (dField f.d 0x20 4)) (Memory.readBytes mem (o.base + off) n))) s

/-- TILE_PREFETCH (R257): no effect. -/
def execTilePrefetch (q : Nat) (s : State) : Host.Outcome State Fault Refusal :=
  onMemory (fun mem _ j => tileCmd mem j q 0x32 fun j f _ => (mem, j.complete f.ref .success 0 0 none)) s

/-- TILE_EVICT (R257): no effect. -/
def execTileEvict (q : Nat) (s : State) : Host.Outcome State Fault Refusal :=
  onMemory (fun mem _ j => tileCmd mem j q 0x33 fun j f _ => (mem, j.complete f.ref .success 0 0 none)) s

/-- CALIBRATE (R251): one sweep at a time. -/
def execCalibrate (q : Nat) (op : List Byte) (s : State) : Host.Outcome State Fault Refusal :=
  onBlocks (fun j =>
    match j.takeFetched q 0x4E with
    | none => j
    | some (f, j) =>
      match firstStatus (j.calibChecks f.d op) with
      | some st => j.refuse f.ref st
      | none =>
        if j.cat.calib.isSome || !j.cat.calibQueue.isEmpty then { j with cat := { j.cat with calibQueue := j.cat.calibQueue ++ [(f, op)] } }
        else j.startCalib f op) s

/-- CALIBRATION_COMPLETE (R254): every plate of the view is read, at the epoch published now. -/
def execCalibrationComplete (s : State) : Host.Outcome State Fault Refusal := onReading (fun mem _ j => finishCalib mem j) s

/-- RECALIBRATE (R255). -/
def execRecalibrate (q : Nat) (op : List Byte) (s : State) : Host.Outcome State Fault Refusal :=
  onReading (fun mem _ j =>
    if j.recalWaits q then j else j.catalogueCmd q 0x4F op fun j f op => recalibrate mem j f op j.time) s

/-- RECALIBRATION_STAGED (R255 steps 5 and 6): the twins' masters are written, and the edit is entered. -/
def execRecalibrationStaged (coll : Nat) (s : State) : Host.Outcome State Fault Refusal :=
  onBlocks (fun j =>
    match j.cat.recals.find? fun r => r.coll == coll && !r.staged with
    | none => j
    | some r =>
      let clean := fun (t : Plate) => { t with dirtyHdr := false, dirtyData := false }
      let note := fun (x : Recal) => if x.coll = coll then { x with staged := true, twins := x.twins.map clean } else x
      let j := { j with cat := { j.cat with recals := j.cat.recals.map note } }
      let j := r.twins.foldl (fun j t => j.copyPlate t) j
      (j.programStripes (6 * r.twins.length)).enterForColl coll (.recal coll)) s

end Sys2Proof.Machine
end

