-- ==== Sys2Proof/Machine/Coelostat.lean ====
section
/-! DEFINITION. Sys2Proof/Machine/Coelostat.lean: models, requests and passes (R161 to R178, R200 to R205, R387):
QUERY_TOKENS, MODEL_LOAD, MODEL_LOAD_DECRYPT_COMPLETE, MODEL_UNLOAD, PASS_START, PASS_COMPLETE, PASS_WATCHDOG,
ENCODER_CORE_FAILURE. -/

namespace Sys2Proof.Machine
open Jenjor

/-! ### The package (R162 to R164, R183, R184) -/

def headerOf (bs : List Byte) : ModelHeader :=
  { flags := BitVec.ofNat 16 (fieldAt bs 6 2), layers := fieldAt bs 8 2, heads := fieldAt bs 0x0A 2,
    width := fieldAt bs 0x0C 2, ffn := fieldAt bs 0x10 4, vocab := fieldAt bs 0x14 4, maxSeq := fieldAt bs 0x18 2,
    outDim := fieldAt bs 0x1A 2, scale := wordAt bs 0x1C, eps := wordAt bs 0x20 }

/-- A tensor of a package: bytes of its data, whether a tensor scale precedes it, whether its data is copied to the
constant area, and its parameters. -/
structure Tensor where
  bytes : Nat
  scaled : Bool
  const : Bool
  params : Nat
  deriving DecidableEq, Repr

def matrixOf (i o : Nat) : Tensor :=
  { bytes := ceilDiv o 64 * (i / 256) * 16384, scaled := true, const := false, params := i * o }

def vectorOf (n : Nat) : Tensor := { bytes := 2 * n, scaled := false, const := true, params := n }

def tableOf (rows h : Nat) : Tensor := { bytes := rows * h, scaled := true, const := false, params := rows * h }

def rotaryOf (h : ModelHeader) : Tensor :=
  { bytes := h.maxSeq * (h.headDim / 2) * 4, scaled := false, const := true, params := 0 }

/-- Tensors in package order (R164). -/
def tensorsOf (h : ModelHeader) : List Tensor :=
  let w := h.width
  let f := h.ffn
  let layer := [vectorOf w, vectorOf w] ++ (List.replicate 4 [matrixOf w w, vectorOf w]).flatten ++ [vectorOf w, vectorOf w]
    ++ (if h.flag 3 then [matrixOf w f, vectorOf f] else []) ++ [matrixOf w f, vectorOf f, matrixOf f w, vectorOf w]
  [tableOf h.vocab w] ++ (if h.flag 0 then [rotaryOf h, rotaryOf h] else [tableOf h.maxSeq w])
    ++ (List.replicate h.layers layer).flatten
    ++ (if h.flag 2 then [vectorOf w, vectorOf w] else [])
    ++ (if h.flag 6 then [matrixOf w h.outDim] else []) ++ (if h.flag 7 then [matrixOf w h.outDim] else [])

def round256 (n : Nat) : Nat := ceilDiv n 256 * 256

/-- Walk the package: what goes to the constant area, as (package offset, bytes), and the package's length. -/
def layTensors : Nat → List Tensor → List (Nat × Nat) × Nat
  | off, [] => ([], off)
  | off, t :: ts =>
    let data := if t.scaled then off + 256 else off
    let rest := layTensors (round256 (data + t.bytes)) ts
    ((if t.scaled then [(off, 4)] else []) ++ (if t.const then [(data, t.bytes)] else []) ++ rest.1, rest.2)

/-- The constant area of a model: each item starts on a 64-byte boundary (R183). -/
def constsOf (h : ModelHeader) (pack : List Byte) : List Byte :=
  (layTensors 256 (tensorsOf h)).1.flatMap fun x => bytesAt pack x.1 x.2 ++ List.replicate ((64 - x.2 % 64) % 64) 0

def constUnitsOf (h : ModelHeader) : Nat := natSum ((layTensors 256 (tensorsOf h)).1.map fun x => ceilDiv x.2 64)

/-- A rule of R162 or R164 that a header breaks. -/
def headerBad (bs : List Byte) : Bool :=
  let h := headerOf bs
  let hd := h.headDim
  let basic := fieldAt bs 0 4 != 0x4C454F43 || fieldAt bs 4 2 != 1 || fieldAt bs 6 2 / 2048 != 0
    || h.layers == 0 || 48 < h.layers || h.heads < 8 || 64 < h.heads || h.heads % 8 != 0
    || h.width < 512 || 8192 < h.width || h.width % 512 != 0 || h.width % h.heads != 0 || !([64, 128, 256].contains hd)
    || h.ffn < 512 || 32768 < h.ffn || h.ffn % 512 != 0 || h.vocab == 0 || 262144 < h.vocab
    || h.maxSeq == 0 || 8192 < h.maxSeq || h.outDim < 8 || 4096 < h.outDim || h.outDim % 8 != 0
    || (!h.flag 6 && h.outDim != h.width) || !f32PosNormal h.scale || !f32PosNormal h.eps
    || fieldAt bs 0x0E 2 != 0 || (bytesAt bs 0x2C 212).any (· != 0)
  if basic then true
  else
    let ts := tensorsOf h
    let n := natSum (ts.map fun t => t.params)
    fieldAt bs 0x24 8 != n || 8000000000 < n || bs.length != (layTensors 256 ts).2

/-- A rule of R387 step 1 that an envelope breaks: `bytes` is the object's size. -/
def envelopeBad (env : List Byte) (bytes : Nat) : Bool :=
  let n := fieldAt env 0x18 8
  fieldAt env 0 4 != 0x50454E57 || fieldAt env 4 2 != 1 || fieldAt env 6 2 != 0 || fieldAt env 0x14 4 != 0
    || (bytesAt env 0x20 32).any (· != 0) || n < 256 || 2 ^ 36 - 32 < n || bytes != 0x50 + n

namespace Jenjor

def model? (j : Jenjor) (m : Nat) : Option Model := j.coe.models[m]?

def mapModel (j : Jenjor) (m : Nat) (f : Model → Model) : Jenjor :=
  { j with coe := { j.coe with models := j.coe.models.modify m f } }

/-! ### Rates and P_max (R167, R175) -/

/-- COE_CORES.ACTIVE. -/
def activeCores (j : Jenjor) : Nat := (j.coe.cores.filter fun c => c.active && !c.failed).length

/-- B_w in MB/s. -/
def weightRate (j : Jenjor) : Nat := if j.mem.band < 2 then 256000 else 192000

/-- Present clock of an island in MHz. -/
def clockOf (j : Jenjor) (i : Nat) : Nat := ((j.isl.islands[i]?).map fun x => x.clk).getD 0

/-- P_max of a model in ns, rounded up: R175 with every term over the denominator bw · 67,108,864 · n · f. Token output is
counted in where the model can give it. -/
def pmax (j : Jenjor) (m : Model) : Nat :=
  let h := m.hdr
  let n := j.activeCores
  let f := j.clockOf 6
  let bw := j.weightRate / 1000
  let w := h.width
  let r := 67108864 * n * f
  let a8 := h.flag 10
  let ops := fun (x : Nat) => x * 1280000 * bw / (if a8 then 2 else 1)
  let up512 := fun (x : Nat) => ceilDiv x 512 * 512
  let t := up512 m.maxTokens
  let pl := 4 * w * w + (if h.flag 3 then 3 else 2) * w * h.ffn
  let cl := ops (2 * pl * t) + 4 * w * (m.maxTokens * m.maxSeq) * 1280000 * bw
  let wp := if h.flag 6 then w * h.outDim else 0
  let wt := if h.flag 7 then w * h.outDim else 0
  let cp := ops (2 * wp * 1024 + 2 * wt * t)
  ceilDiv (20000 * bw * r + m.maxTokens * w * r + h.layers * (6000 * bw * r + max cl (pl * r)) + max cp ((wp + wt) * r))
    (bw * r)

/-! ### Requests (R172 to R174) -/

/-- A model slot that takes requests: from the fetch of a MODEL_UNLOAD that names it, it takes none (R171). -/
def takesRequests (j : Jenjor) (m : Nat) : Bool :=
  (j.model? m).any (fun x => x.phase == .resident)
    && !(j.qs.fetched.any fun f => dField f.d 0 1 == 0x4D && dField f.d 0x08 1 % 8 == m)

def encoding (c : Ctx) (m : Nat) : Bool := c.model == m && c.phase == .encoding

def inPassOf (c : Ctx) (m : Nat) : Bool := c.model == m && (c.phase == .encoding || c.phase == .inPass)

/-- A model's requests have all ended (R171). -/
def modelIdle (j : Jenjor) (m : Nat) : Bool :=
  !(j.sw.ctxs.any fun c => qTokens c.d && inPassOf c m) && !(j.coe.pass.any fun p => p.model == m)

/-- The program image of a model becomes resident in the program store, or once no model runs it is in sweep memory again
(R204, R233). Its pool pages stay its own meanwhile (DESIGN CHOICE, log entry 117). -/
def tierImages (j : Jenjor) : Jenjor :=
  let runs := fun (n : Nat) => j.coe.models.any fun m => (m.phase == .resident || m.phase == .draining) && m.prog == n
  j.mapObjs (fun o => o.kind == 9) fun o => { o with tier := if runs o.num then .sram else .sweep }

/-- Free a model slot: its extents, its plaintext copy, its measurement; the package lies in the vault again (R171,
R204). -/
def freeModel (j : Jenjor) (m : Nat) : Jenjor :=
  match j.model? m with
  | none => j
  | some x =>
    let j := ((j.mapModel m fun _ => emptyModel).mapObj x.obj fun o => { o with tier := .vault, pages := 0 }).tierImages
    match x.unloader with
    | none => j
    | some (c, seq) => j.complete c .success (BitVec.ofNat 64 seq) 0 none

/-- Free every slot that has drained. -/
def settleModels (j : Jenjor) : Jenjor :=
  (List.range 8).foldl (fun j m =>
    if (j.model? m).any (fun x => x.phase == .draining) && j.modelIdle m then j.freeModel m else j) j

/-- Complete every pending request of a model, and those of `ids`. -/
def failRequests (j : Jenjor) (m : Nat) (ids : List Nat) (st : Status) : Jenjor :=
  j.abortAll (ids ++ (j.sw.ctxs.filter fun c => qTokens c.d && inPassOf c m && !ids.contains c.id).map fun c => c.id) st

def tokenChecks (j : Jenjor) (d : Desc) (op : List Byte) : List (Bool × Status) :=
  match j.liveColl? (dField d 4 2) with
  | none => []
  | some c =>
    let m := dField d 0x36 1 % 8
    let n := dField d 0x38 2
    if !j.takesRequests m then [(true, .modelNotResident)]
    else
      match j.model? m with
      | none => [(true, .modelNotResident)]
      | some x =>
        let p := partsOf c d
        [ (n == 0 || x.maxSeq < n || ((List.range n).any fun i => x.hdr.vocab ≤ fieldAt op (p.vec + 4 * i) 4), .sequenceInvalid),
          (x.hdr.outDim != c.dim || (qRerank d == 2 && (!x.hdr.flag 7 || 64 < n)), .parameterInvalid) ]

/-- Put a token sequence into its context (R273). -/
def setTokens (j : Jenjor) (id : Nat) (c : Coll) (d : Desc) (op : List Byte) : Jenjor :=
  j.mapCtx id fun x =>
    { x with tokens := (List.range (dField d 0x38 2)).map fun i => fieldAt op ((partsOf c d).vec + 4 * i) 4 }

/-- A token-sequence query enters a context and waits for a pass (R172); with fewer than 4 active cores it cannot be
encoded (R178). -/
def queryTokens (j : Jenjor) (f : Fetched) (op : List Byte) : Jenjor :=
  match firstStatus (queryChecks j f.d op ++ j.tokenChecks f.d op) with
  | some st => (if st = .sequenceInvalid then j.count blkCOE 0x2000 else j).refuse f.ref st
  | none =>
    match j.liveColl? (dField f.d 4 2) with
    | none => j.refuse f.ref .unknownCollection
    | some c =>
      if j.activeCores < 4 then j.refuse f.ref .internalError
      else
        let (id, j) := newCtx j f op
        j.setTokens id c f.d op

/-! ### Loading (R170, R203 to R205, R385, R387) -/

/-- A key slot that a MODEL_LOAD may use (R385). -/
def packageSlot (j : Jenjor) (s : Nat) : Option KeySlot :=
  if s < 2 then none else (j.dom.slots[s]?).bind fun x => if x.state = .loaded then some x else none

def loadChecks (mem : List Host.Cell) (j : Jenjor) (d : Desc) : List (Bool × Status) :=
  let kind := fun (n k : Nat) => (j.liveObj? n).bind fun o => if o.kind = k then some o else none
  let bad := [ (j.coe.models.all (fun m => m.phase != .empty), .limitReached), (j.readOnlyNow, .readOnly),
               ((j.packageSlot (dField d 0x10 1 % 64)).isNone || j.keyGone, Status.keySlotInvalid),
               (dField d 0x12 2 == 0 || 8192 < dField d 0x12 2 || dField d 0x14 4 < dField d 0x12 2, .parameterInvalid) ]
  match kind (dField d 0x08 4) 4, kind (dField d 0x0C 4) 9 with
  | some o, some _ => bad ++ [(envelopeBad (Memory.readBytes mem o.base 0x40) o.bytes, .modelInvalid)]
  | _, _ => bad ++ [(true, .unknownObject)]

/-- Carry out a MODEL_LOAD as far as its decryption, or one more attempt at its allocation (R245). -/
def loadModel (mem : List Host.Cell) (j : Jenjor) (f : Fetched) (since : Nat) : Jenjor :=
  match firstStatus (loadChecks mem j f.d), (List.range 8).find? (fun m => (j.model? m).any fun x => x.phase == .empty),
      j.liveObj? (dField f.d 0x08 4) with
  | some st, _, _ => j.refuse f.ref st
  | none, some m, some o =>
    match j.allocate (pagesOf o.bytes) [o.num, dField f.d 0x0C 4] with
    | .limit => j.refuse f.ref .limitReached
    | .wait b j => j.park (.modelLoad f) since b
    | .granted j =>
      let s := dField f.d 0x10 1 % 64
      let j := j.mapObj o.num fun o => { o with tier := .sweep, pages := pagesOf o.bytes }
      j.mapModel m fun _ =>
        { emptyModel with phase := .loading, obj := o.num, prog := dField f.d 0x0C 4, keySlot := s,
                          keyGen := ((j.packageSlot s).map fun x => x.generation).getD 0, maxSeq := dField f.d 0x12 2,
                          maxTokens := dField f.d 0x14 4, loader := some f.ref }
  | none, _, _ => j.refuse f.ref .limitReached

/-- A load that fails: the slot is free again. -/
def failLoad (j : Jenjor) (m : Nat) (st : Status) : Jenjor :=
  match (j.model? m).bind fun x => x.loader with
  | none => j
  | some c => (j.freeModel m).refuse c st

/-- A load refused after its measurement: the Logbook keeps both digests of 48 bytes, each in two records, its first 32
bytes and the rest (R205). -/
def refuseMeasured (j : Jenjor) (m : Nat) (st : Status) (pd id : List Byte) : Jenjor :=
  let part := fun (j : Jenjor) (bs : List Byte) => j.record 5 blkCOE m 0xFFFF 0 st.code (BitVec.ofNat 256 (leNat bs))
  ([pd.take 32, pd.drop 32, id.take 32, id.drop 32].foldl part j).failLoad m st

/-- The captured generation's key of a model's slot. -/
def loadKey (j : Jenjor) (x : Model) : List Byte :=
  match j.dom.slots[x.keySlot]? with
  | none => []
  | some s => if s.generation = x.keyGen then s.current else s.prev.getD []

/-- The program image that a load names. -/
def imageOf (mem : List Host.Cell) (j : Jenjor) (x : Model) : List Byte :=
  match j.obj? x.prog with
  | none => []
  | some o => Memory.readBytes mem o.base o.bytes

/-- A package that does not authenticate (R387). What its plaintext's digest is, the manual does not say: it is free
(DESIGN CHOICE, log entry 118). -/
def loadUnauthentic (mem : List Host.Cell) (j : Jenjor) (m : Nat) (x : Model) (pack : Option (List Byte)) : Jenjor :=
  let (i, j) := (j.count blkDOM 0x810).free
  let pd := (pack.map sha384).getD (leBytes 48 (Config.freeDigest i).toNat)
  j.refuseMeasured m .authenticationFailed pd (sha384 (imageOf mem j x))

/-- Steps 3 and 4 of R170 on a decrypted package. -/
def finishLoad (mem : List Host.Cell) (j : Jenjor) (m : Nat) (x : Model) (pack : List Byte) : Jenjor :=
  let image := imageOf mem j x
  let pd := sha384 pack
  let id := sha384 image
  let h := headerOf pack
  let used := j.coe.models.filter fun y => y.phase == .resident || y.phase == .draining
  let g := parseImage image
  if headerBad pack then j.refuseMeasured m .modelInvalid pd id
  else if h.maxSeq < x.maxSeq || 2 ^ 26 / h.width < x.maxTokens then j.refuseMeasured m .parameterInvalid pd id
  else if imageBad image j.arithRev h (constUnitsOf h) x.maxTokens pd then j.refuseMeasured m .programInvalid pd id
  else
    match lowestExtent (used.map fun y => (y.storeBase, y.instrs.length)) 2097152 g.count,
        lowestExtent (used.map fun y => (y.constBase, y.constUnits)) 196608 (constUnitsOf h) with
    | some sb, some cb =>
      let j := j.nextSeq.2
      let seq := j.cat.seq
      let j := j.mapModel m fun x =>
        { x with phase := .resident, hdr := h, package := pack, instrs := g.instrs, footprint := g.footprint,
                 accTiles := g.accTiles, stagePanels := g.stagePanels, storeBase := sb, constBase := cb,
                 constUnits := constUnitsOf h, consts := constsOf h pack,
                 digests := (BitVec.ofNat 384 (leNat pd), BitVec.ofNat 384 (leNat id)), loadSeq := seq, loader := none }
      let j := j.tierImages
      match x.loader with
      | none => j
      | some c => j.complete c .success (BitVec.ofNat 64 seq) (BitVec.ofNat 64 m) none
    | _, _ => j.refuseMeasured m .limitReached pd id

/-- Dome has decrypted the package of the load under way (R387 steps 2 and 3). -/
def decrypted (mem : List Host.Cell) (j : Jenjor) : Jenjor :=
  match (List.range 8).find? fun m => (j.model? m).any fun x => x.phase == .loading with
  | none => j
  | some m =>
    match j.model? m with
    | none => j
    | some x =>
      let env := match j.obj? x.obj with
        | none => []
        | some o => Memory.readBytes mem o.base o.bytes
      let n := fieldAt env 0x18 8
      match Config.openPackage (j.loadKey x) env with
      | none => loadUnauthentic mem j m x none
      | some pack => if pack.length = n then finishLoad mem j m x pack else loadUnauthentic mem j m x (some pack)

/-- MODEL_UNLOAD (R171): the slot drains, and frees once its requests have ended. -/
def unloadModel (j : Jenjor) (f : Fetched) (_ : List Byte) : Jenjor :=
  let m := dField f.d 0x08 1 % 8
  match firstStatus [(!((j.model? m).any fun x => x.phase == .resident), .modelNotResident), (j.readOnlyNow, .readOnly)] with
  | some st => j.refuse f.ref st
  | none =>
    let j := j.nextSeq.2
    let seq := j.cat.seq
    (j.mapModel m fun x => { x with phase := .draining, unloader := some (f.ref, seq) }).settleModels

/-! ### Passes (R174, R178, R180, R181) -/

/-- Requests that wait for a pass. -/
def pendingRequests (j : Jenjor) : List Ctx :=
  j.sw.ctxs.filter fun c => qTokens c.d && c.phase == .encoding
    && (j.model? c.model).any fun m => m.phase == .resident || m.phase == .draining

/-- Admit in order while the batch holds (R174). -/
def takeRequests (maxTokens : Nat) : Nat → Nat → List Ctx → List Ctx
  | _, _, [] => []
  | seqs, toks, c :: cs =>
    if seqs < 1024 ∧ toks + c.tokens.length ≤ maxTokens then c :: takeRequests maxTokens (seqs + 1) (toks + c.tokens.length) cs else []

/-- The requests of the next pass, and their model: those of an abandoned pass again, or a new batch. -/
def nextBatch (j : Jenjor) : Option (Nat × List Ctx) :=
  let again := match j.coe.rerun with
    | none => none
    | some (m, ids) =>
      let cs := ids.filterMap j.ctx?
      if cs.isEmpty then none else some (m, cs)
  match again with
  | some b => some b
  | none =>
    match argmin waitKey j.pendingRequests with
    | none => none
    | some first =>
      let cs := sortBy (fun a b => waitKey a ≤ waitKey b) (j.pendingRequests.filter fun c => c.model == first.model)
      (j.model? first.model).map fun m => (first.model, takeRequests m.maxTokens 0 0 cs)

/-- The row table (R181). -/
def rowTable (cs : List Ctx) : List RowInfo :=
  ((List.range cs.length).zip cs).flatMap fun x =>
    ((List.range x.2.tokens.length).zip x.2.tokens).map fun t =>
      { token := t.2, seq := x.1, pos := t.1, wantTokens := qRerank x.2.d == 2 }

/-- Start a pass (R174, R182). None starts under load shedding or with fewer than 4 active cores (R177, R178). -/
def startPass (j : Jenjor) : Jenjor :=
  if j.coe.pass.isSome || j.isl.shedStep != 0 || j.activeCores < 4 || j.isl.whole then j
  else
    match j.nextBatch with
    | none => { j with coe := { j.coe with rerun := none } }.settleModels
    | some (m, cs) =>
      let rows := rowTable cs
      let padded := ceilDiv rows.length 512 * 512
      let ids := cs.map fun c => c.id
      let p : Pass := { model := m, reqs := ids, rows := rows, padded := padded,
                        ranks := (List.range 8).map (startRank rows padded cs.length), pooled := [], tokvecs := [],
                        startTime := j.time }
      let wait := cs.foldl (fun w c => max w ((j.time - c.t0) / 1000)) 0
      let j := { j with coe := { j.coe with pass := some p, rerun := none } }
      (j.mapModel m fun x => { x with waitHigh := min (max x.waitHigh wait) 0xFFFFFFFF }).mapCtxs
        (fun c => ids.contains c.id) fun c => { c with phase := .inPass }

/-- The core that runs a rank (R180). -/
def coreOfRank (j : Jenjor) (r : Nat) : Nat :=
  let cs := (List.range 9).filter fun c => (j.coe.cores[c]?).any fun x => x.active && !x.failed
  cs.getD (if cs.length = 0 then 0 else r % cs.length) 0

/-- Record a fault in the core's COE_FAULT: the first since VALID was last cleared (R206). -/
def noteFault (j : Jenjor) (r : Nat) (code : ProgFault) (idx : Nat) : Jenjor :=
  let c := j.coreOfRank r
  { j with coe := { j.coe with cores := j.coe.cores.modify c fun x =>
      if x.faultValid then x
      else { x with fault := some { rank := r, code := code, index := idx }, faultValid := true } } }

/-- A program fault abandons the pass (R201). -/
def progFault (j : Jenjor) (ranks : List Nat) (code : ProgFault) : Jenjor :=
  match j.coe.pass with
  | none => j
  | some p =>
    let j := ranks.foldl (fun j r => j.noteFault r code ((p.ranks[r]?.map fun k => k.pc).getD 0)) j
    let j := { j with coe := { j.coe with pass := none } }
    let j := (j.count blkCOE 0x2018).record 5 blkCOE p.model 0x2018 0 Status.programFault.code 0
    let j := j.mapModel p.model fun m => { m with phase := .draining }
    (j.failRequests p.model p.reqs .programFault).settleModels

/-- Abandon the pass for its hardware; its requests run again (R178, R305), deferred while load shedding is in force
(R177). -/
def abandonPass (j : Jenjor) : Jenjor :=
  match j.coe.pass with
  | none => j
  | some p =>
    let j := { j with coe := { j.coe with pass := none, rerun := some (p.model, p.reqs) } }
    (j.count blkCOE 0x2010).mapCtxs (fun c => p.reqs.contains c.id) fun c =>
      { c with phase := .encoding, deferred := c.deferred || j.isl.shedStep != 0 }

/-- A core leaves service; the spare takes its place (R178, R421). -/
def coreFailure (j : Jenjor) (core : Nat) : Jenjor :=
  match j.coe.cores[core]? with
  | none => j
  | some c =>
    if c.failed then j
    else
      let j := if c.active then j.abandonPass else j
      let j : Jenjor := { j with coe := { j.coe with cores := j.coe.cores.modify core fun x =>
        { x with failed := true, active := false, spare := false } } }
      let spare := (List.range 9).find? fun k => (j.coe.cores[k]?).any fun x => x.spare && !x.failed
      let j : Jenjor := match spare with
        | some k =>
          if c.active then { j with coe := { j.coe with cores := j.coe.cores.modify k fun x => { x with spare := false, active := true } } }
          else j
        | none => j
      let j := j.fault 3 blkCOE core 0xFFFF 0 0 0
      if j.activeCores < 4 then
        let j := { j with coe := { j.coe with rerun := none } }
        j.abortAll ((j.sw.ctxs.filter fun c => qTokens c.d && (c.phase == .encoding || c.phase == .inPass)).map fun c => c.id)
          .internalError
      else j

/-! ### The end of a pass (R173, R200) -/

/-- Values of 16-bit words of the activation format. -/
def actValues (h : ModelHeader) (ws : List (BitVec 16)) : List Fp := ws.map fun w => Fp.ofBits h.act w.toNat

/-- Bits of a B1 query from the pooled embedding, packed (R173). -/
def packBits (xs : List Fp) : List Byte :=
  (List.range (xs.length / 8)).map fun i =>
    BitVec.ofNat 8 ((List.range 8).foldl (fun v k => v + (if Fp.zero.lt (xs.getD (8 * i + k) Fp.zero) then 2 ^ k else 0)) 0)

/-- Hand a request's embedding to conversion (R173). -/
def handOver (j : Jenjor) (m : Model) (p : Pass) (seq id : Nat) : Jenjor :=
  match j.ctx? id with
  | none => j
  | some x =>
    match j.coll? x.coll, p.pooled.lookup seq with
    | some c, some ws =>
      let v := actValues m.hdr ws
      let wide := v.map Fp.toF32
      let toks := (sortBy (fun a b => a.2.1 ≤ b.2.1) (p.tokvecs.filter fun t => t.1 == seq)).map
        fun t => (actValues m.hdr t.2.2).map Fp.toF32
      let j := j.mapCtx id fun x =>
        { x with qtok := if qRerank x.d = 2 then toks else [], rvec := if c.format = .b1 && qRerank x.d = 1 then wide else [] }
      if c.format = .b1 then
        if v.any fun e => e.isNaN then (j.count blkTRN 0x2010).abortCtx id .vectorInvalid
        else enterConversion j id [] (packBits v)
      else if v.any fun e => !e.isFinite then (j.count blkTRN 0x2010).abortCtx id .vectorInvalid
      else enterConversion j id wide []
    | _, _ => j.abortCtx id .unknownCollection

/-- Ranks that hold an output the pass lacks (R200): the last row of a sequence with no pooled row, or a row with no token
vector that asks for one. -/
def missingOutputs (p : Pass) : List Nat :=
  let per := p.padded / 8
  ((List.range p.rows.length).filterMap fun t =>
    match p.rows[t]? with
    | none => none
    | some a =>
      let last := match p.rows[t + 1]? with
        | none => true
        | some b => b.seq != a.seq
      let noPool := last && (p.pooled.lookup a.seq).isNone
      let noTok := a.wantTokens && !(p.tokvecs.any fun v => v.1 == a.seq && v.2.1 == a.pos)
      if noPool || noTok then some (if per = 0 then 0 else t / per) else none).eraseDups

/-- The pass completes (R200): every rank has ended. -/
def completePass (j : Jenjor) : Jenjor :=
  match j.coe.pass with
  | none => j
  | some p =>
    if p.ranks.any fun k => !k.ended then j
    else
      match missingOutputs p, j.model? p.model with
      | [], some m =>
        let j := { j with coe := { j.coe with pass := none } }
        let j := (j.count blkCOE (0x1018 + p.model * 0x40)).bump (blkBase blkCOE + 0x1020 + p.model * 0x40) p.reqs.length
        (((List.range p.reqs.length).zip p.reqs).foldl (fun j x => j.handOver m p x.1 x.2) j).settleModels
      | rs, _ => j.progFault rs .output

end Jenjor

/-! ### The commands and events -/

/-- QUERY_TOKENS (R172). -/
def execQueryTokens (q : Nat) (op : List Byte) (s : State) : Host.Outcome State Fault Refusal :=
  onBlocks (fun j =>
    match j.takeData q 0x11 with
    | none => j
    | some (f, j) => j.queryTokens f op) s

/-- MODEL_LOAD (R170). -/
def execModelLoad (q : Nat) (s : State) : Host.Outcome State Fault Refusal :=
  onReading (fun mem _ j => j.catalogueCmd q 0x4C [] fun j f _ => loadModel mem j f j.time) s

/-- MODEL_LOAD_DECRYPT_COMPLETE (R387, R170 steps 2 to 4). -/
def execModelLoadDecryptComplete (s : State) : Host.Outcome State Fault Refusal := onReading (fun mem _ j => decrypted mem j) s

/-- MODEL_UNLOAD (R171). -/
def execModelUnload (q : Nat) (s : State) : Host.Outcome State Fault Refusal :=
  onBlocks (fun j => j.catalogueCmd q 0x4D [] unloadModel) s

/-- PASS_START (R174). -/
def execPassStart (s : State) : Host.Outcome State Fault Refusal := onBlocks (fun j => j.startPass) s

/-- PASS_COMPLETE (R200, R173). -/
def execPassComplete (s : State) : Host.Outcome State Fault Refusal := onBlocks (fun j => j.completePass) s

/-- PASS_WATCHDOG (R201): the ranks that have not ended record it. -/
def execPassWatchdog (s : State) : Host.Outcome State Fault Refusal :=
  onBlocks (fun j =>
    match j.coe.pass with
    | none => j
    | some p => j.progFault ((List.range 8).filter fun r => (p.ranks[r]?).any fun k => !k.ended) .watchdog) s

/-- ENCODER_CORE_FAILURE (R178, R421). -/
def execEncoderCoreFailure (core : Nat) (s : State) : Host.Outcome State Fault Refusal :=
  onUnit (decide (core < 9)) (onBlocks (fun j => j.coreFailure core) s)

end Sys2Proof.Machine
end

