-- ==== Sys2Proof/Machine/Ranks.lean ====
section
/-! DEFINITION. Sys2Proof/Machine/Ranks.lean: the instructions of a Coelostat program (R187 to R200), each as the step of
one rank of the pass in flight. -/

namespace Sys2Proof.Machine
open Jenjor

/-- Step rank `r` of the pass in flight if the instruction it stands at has opcode `op` (R193, R194). A rank that waits in a
collective or whose stream has ended takes no step. -/
def Jenjor.rankStep (j : Jenjor) (r op : Nat) (f : Here → Ran) : Jenjor :=
  match j.coe.pass with
  | none => j
  | some p =>
    match p.ranks[r]?, j.model? p.model with
    | some k, some m =>
      if k.ended || k.coll.isSome || insOp (atIns m k) != op then j
      else
        match f { m := m, p := p, r := r, k := k, i := atIns m k, free := j.freeIdx } with
        | .go p' used => { j with coe := { j.coe with pass := some p' }, freeIdx := j.freeIdx + used }
        | .fault rs code => j.progFault rs code
        | .wait => j
    | _, _ => j

/-- The form of an instruction's meaning. -/
def onRank (r op : Nat) (f : Here → Ran) (s : State) : Host.Outcome State Fault Refusal :=
  onUnit (decide (r < 8)) (onBlocks (fun j => j.rankStep r op f) s)

/-! ### Control (R187, R188, R195) -/

/-- NOP. -/
def execNop (r : Nat) (s : State) : Host.Outcome State Fault Refusal := onRank r 0x00 (fun h => h.next h.k) s

/-- A forward or receive of this rank at END that can no longer pair (R197): its partner will issue nothing more, or waits
in a collective that this rank never reaches. -/
def unpaired_ (h : Here) : List Nat :=
  let dead := fun (n : Nat) => (h.p.ranks[n]?).any fun k => atEnd h.m k || k.coll.isSome
  (if !h.k.sends.isEmpty && dead ((h.r + 1) % 8) then [h.r] else [])
    ++ (if !h.k.recvs.isEmpty && dead ((h.r + 7) % 8) then [h.r] else [])

/-- END (R200): it waits for forwards that may still pair, and faults on one that cannot (R197). -/
def endBody (h : Here) : Ran :=
  if !(unpaired_ h).isEmpty then .fault [h.r] .pairing
  else if !h.k.sends.isEmpty || !h.k.recvs.isEmpty then .wait
  else .go { h.p with ranks := h.p.ranks.set h.r { h.k with ended := true } } 0

def execEndStream (r : Nat) (s : State) : Host.Outcome State Fault Refusal := onRank r 0x01 endBody s

/-- SETI: S[d] = OPC. -/
def execSeti (r : Nat) (s : State) : Host.Outcome State Fault Refusal :=
  onRank r 0x02 (fun h => h.next (h.k.setScalar (insD h.i) (insC h.i))) s

/-- ADDI: S[d] = S[s] + OPC, modulo 2^32. -/
def execAddi (r : Nat) (s : State) : Host.Outcome State Fault Refusal :=
  onRank r 0x03 (fun h => h.next (h.k.setScalar (insD h.i) (h.scalar (insS h.i) + insC h.i))) s

/-- MULI: S[d] = S[s] × OPC, modulo 2^32. -/
def execMuli (r : Nat) (s : State) : Host.Outcome State Fault Refusal :=
  onRank r 0x04 (fun h => h.next (h.k.setScalar (insD h.i) (h.scalar (insS h.i) * insC h.i))) s

/-- ANDI: S[d] = S[s] AND OPC. -/
def execAndi (r : Nat) (s : State) : Host.Outcome State Fault Refusal :=
  onRank r 0x05 (fun h => h.next (h.k.setScalar (insD h.i) (h.scalar (insS h.i) &&& insC h.i))) s

/-- LOOP (R187, R188). -/
def loopBody (h : Here) : Ran :=
  let v := h.scalar (insD h.i)
  if v = 0 then .fault [h.r] .loopZero
  else if v = 1 then h.next (h.k.setScalar (insD h.i) 0)
  else .go { h.p with ranks := h.p.ranks.set h.r { h.k.setScalar (insD h.i) (v - 1) with pc := insC h.i } } 0

def execLoop (r : Nat) (s : State) : Host.Outcome State Fault Refusal := onRank r 0x06 loopBody s

/-- SKIPZ: a zero scalar skips the next OPC instructions. -/
def execSkipz (r : Nat) (s : State) : Host.Outcome State Fault Refusal :=
  onRank r 0x07 (fun h =>
    let n := if h.scalar (insD h.i) = 0 then insC h.i else 0
    h.next { h.k with pc := h.k.pc + n }) s

/-- FENCE (R195): in program order every earlier instruction has completed, so the fence releases at once; the Logbook
records its mark. -/
def execFence (r : Nat) (s : State) : Host.Outcome State Fault Refusal :=
  onUnit (decide (r < 8)) (onBlocks (fun j =>
    let at_ := (j.coe.pass.bind fun p => p.ranks[r]?).map fun k => k.pc
    let mark := ((j.coe.pass.bind fun p => (j.model? p.model).bind fun m => (p.ranks[r]?).map fun k => insCount (atIns m k))).getD 0
    let j' := j.rankStep r 0x08 fun h => h.next h.k
    if ((j'.coe.pass.bind fun p => p.ranks[r]?).map fun k => k.pc) = at_ then j' else j'.info blkCOE r 0xFFFF mark) s)

/-! ### Weight fetch (R187, R196, R197) -/

/-- WLD: COUNT panels from the package into the fill half. It waits for an earlier receive of a panel that it fills (R194). -/
def wldBody (h : Here) : Ran :=
  let n := insCount h.i
  let first := insB h.i % 128
  let off := (insC h.i + h.scalar (insD h.i)) * 256
  if h.m.package.length < off + n * 16384 || 128 < first + n then h.addressFault
  else if h.k.recvs.any fun x => first < x.2 + x.1 && x.2 < first + n then .wait
  else
    let panel := fun (i : Nat) => bytesAt h.m.package (off + i * 16384) 16384
    h.next { h.k with fill := (List.range 128).map fun i =>
      if first ≤ i ∧ i < first + n then some (panel (i - first)) else h.k.fill.getD i none }

def execWld (r : Nat) (s : State) : Host.Outcome State Fault Refusal := onRank r 0x10 wldBody s

/-- Pair what can be paired from rank `r`, or fault both ranks (R197). -/
def pairFrom (p : Pass) (r : Nat) : Ran :=
  match pairForwards p.ranks r 4 with
  | some rs => .go { p with ranks := rs } 0
  | none => .fault [r, (r + 1) % 8] .pairing

/-- WRCV: fill-half panels reserved for the forward from rank r − 1. -/
def wrcvBody (h : Here) : Ran :=
  let n := insCount h.i
  let first := insB h.i % 128
  if 128 < first + n then h.addressFault
  else
    let k := { h.k with pc := h.k.pc + 1, recvs := h.k.recvs ++ [(n, first)],
                        fill := (List.range 128).map fun i => if first ≤ i ∧ i < first + n then none else h.k.fill.getD i none }
    pairFrom { h.p with ranks := h.p.ranks.set h.r k } ((h.r + 7) % 8)

def execWrcv (r : Nat) (s : State) : Host.Outcome State Fault Refusal := onRank r 0x11 wrcvBody s

/-- WFWD: compute-half panels sent to rank r + 1. -/
def wfwdBody (h : Here) : Ran :=
  let n := insCount h.i
  let first := insA h.i % 128
  let ps := (List.range n).filterMap fun i => h.k.compute.getD (first + i) none
  if ps.length ≠ n then h.addressFault
  else
    let k := { h.k with pc := h.k.pc + 1, sends := h.k.sends ++ [ps] }
    pairFrom { h.p with ranks := h.p.ranks.set h.r k } h.r

def execWfwd (r : Nat) (s : State) : Host.Outcome State Fault Refusal := onRank r 0x12 wfwdBody s

/-- FLIP of the weight stage (R196): it waits for this rank's forwards and receives. -/
def execFlipStage (r : Nat) (s : State) : Host.Outcome State Fault Refusal :=
  onRank r 0x13 (fun h =>
    if !h.k.sends.isEmpty || !h.k.recvs.isEmpty then .wait
    else h.next { h.k with compute := h.k.fill, fill := List.replicate 128 none }) s

/-! ### Matrix instructions (R189, R190, R192) -/

/-- ACLR. -/
def execAclr (r : Nat) (s : State) : Host.Outcome State Fault Refusal :=
  onRank r 0x20 (fun h => h.next (clearTiles h.k (insTile h.i) (insCount h.i))) s

/-- MMA (R189). -/
def mmaBody (h : Here) : Ran :=
  let w := insMod h.i % 4 + 1
  let rows := 64 * (insMod h.i / 4 % 4 + 1)
  let a8 := insMod h.i / 16 % 2 == 1
  let o := h.operand (insA h.i)
  let first := (mmaPanels h.i).1
  let stride := (mmaPanels h.i).2
  let tiles := (List.range w).map fun i => insTile h.i + i
  let panels := (List.range w).map fun i => h.k.compute.getD (first + i * stride) none
  h.guard [(o, if a8 then 0x400 else 0x800)]
    (if panels.any (fun p => p.isNone) then h.addressFault
     else if tiles.any (fun t => h.k.slices.getD t 0 != insCount h.i) then .fault [h.r] .order
     else
       let act := (List.range rows).map fun r => (r, mmaRow h a8 o r)
       let acc := (tiles.zip panels).foldl (fun acc x => mmaTile h act x.1 (x.2.getD []) acc) h.k.acc
       h.next { h.k with acc := acc,
                         slices := (List.range 32).map fun t =>
                           if tiles.contains t then h.k.slices.getD t 0 + 1 else h.k.slices.getD t 0 })

def execMma (r : Nat) (s : State) : Host.Outcome State Fault Refusal := onRank r 0x21 mmaBody s

/-- MOUT (R190). -/
def moutBody (h : Here) : Ran :=
  let nobias := insMod h.i / 4 % 2 == 1
  let a8 := insMod h.i / 8 % 2 == 1
  let scale := h.operand (insA h.i)
  let dst := h.operand (insB h.i)
  let bias := h.operand (insC h.i)
  h.guard ([(scale, 1), (dst, 0x200)] ++ if nobias then [] else [(bias, 2)])
    (let sw := h.f32Of scale 0
     let rows := (List.range (insRows h.i)).map fun r =>
       let e := if a8 then expAt h.k (insS h.i) r else 0
       (r, (List.range 64).map fun c =>
         (fma32 ((accAt h.k (insTile h.i) r c).scale e) sw (if nobias then Fp.zero else h.actAt bias (2 * c))).round h.act)
     h.next (h.putRows dst.2 1 rows))

def execMout (r : Nat) (s : State) : Host.Outcome State Fault Refusal := onRank r 0x22 moutBody s

/-- QROW (R190): a row whose largest element no exponent brings to 448 takes a free one that depends on the row alone
(R166; DESIGN CHOICE, log entry 97). -/
def qrowBody (h : Here) : Ran :=
  let n := insCount h.i
  let slot := insS h.i
  let src := h.operand (insA h.i)
  let dst := h.operand (insB h.i)
  h.guard [(src, n * 0x800), (dst, n * 0x400)]
    (let one := fun (k : Rank) (r : Nat) =>
       let xs := h.row src (4 * n) r (256 * n)
       let e := (a8Exponent xs).getD (Config.rowExponent (xs.map Fp.toF32))
       let mem := ((List.range (256 * n)).zip xs).foldl (fun m x =>
         Memory.write m (dst.2 * 64 + Here.off8 (4 * n) r x.1) (BitVec.ofNat 8 ((x.2.scale (-e)).toBits fmtE4M3))) k.mem
       { k with mem := mem,
                exps := (if e = 0 then [] else [(slot * 256 + r, e)]) ++ k.exps.filter fun x => x.1 != slot * 256 + r }
     h.next ((List.range 256).foldl one h.k))

def execQrow (r : Nat) (s : State) : Host.Outcome State Fault Refusal := onRank r 0x23 qrowBody s

/-- One query row of ATTN: the head output over the rows of its own sequence (R192, R165). -/
def attnRow (h : Here) (b q len : Nat) (kv : (Bool × Nat) × (Bool × Nat)) (qv : List Fp) (first : Nat) : List Fp :=
  let hd := h.m.hdr.headDim
  let at_ := fun (o : Bool × Nat) (t : Nat) => h.row o q (t - b) hd
  let toks := (List.range len).map fun i => first + i
  let scale := Fp.ofF32 h.m.hdr.scale
  let s := toks.map fun t => fma32 (accumulate qv (at_ kv.1 t)) scale Fp.zero
  let p := softmax h.act s
  let vs := toks.map (at_ kv.2)
  (List.range hd).map fun c => (accumulate p (vs.map fun v => v.getD c Fp.zero)).round h.act

/-- ATTN (R192). -/
def attnBody (h : Here) : Ran :=
  let hd := h.m.hdr.headDim
  let q := hd / 64
  let b := h.scalar (insD h.i)
  let n := 256 * insCount h.i
  let units := insCount h.i * (hd * 8)
  let oq := h.operand (insA h.i)
  let ok := h.operand (insB h.i)
  let ov := h.operand (insC h.i)
  let span := fun (x : RowInfo) (t : Nat) =>
    let first := t - x.pos
    (first, (h.p.rows.filter fun y => y.seq == x.seq).length)
  h.guard [(oq, units), (ok, units), (ov, units)]
    (let split := (List.range n).any fun i =>
       match h.info (b + i) with
       | none => false
       | some x => let z := span x (b + i); z.1 < b || b + n < z.1 + z.2
     if split then .fault [h.r] .seqSplit
     else
       let rows := (List.range n).map fun i =>
         match h.info (b + i) with
         | none => (i, List.replicate hd Fp.zero)
         | some x =>
           let z := span x (b + i)
           (i, attnRow h b q z.2 (ok, ov) (h.row oq q i hd) z.1)
       h.next (clearTiles (h.putRows oq.2 q rows) (insTile h.i) 4))

def execAttn (r : Nat) (s : State) : Host.Outcome State Fault Refusal := onRank r 0x38 attnBody s

/-! ### Row-wise instructions (R191) -/

/-- The scale before a table in the package, and one row of the table. -/
def tableRow (h : Here) (off row : Nat) : Option (Fp × List Fp) :=
  let w := h.m.hdr.width
  let a := off * 256 + row * w
  if off = 0 ∨ h.m.package.length < a + w then none
  else some (Fp.ofBits fmtF32 (fieldAt h.m.package (off * 256 - 256) 4),
    (bytesAt h.m.package a w).map fun b => Fp.ofBits h.m.hdr.weight b.toNat)

/-- One row of GATH; none when a package read lies outside the package. -/
def gathRow (h : Here) (info : Option RowInfo) : Option (List Fp) :=
  match info with
  | none => some (List.replicate h.m.hdr.width Fp.zero)
  | some x =>
    match tableRow h (insB h.i) x.token with
    | none => none
    | some (se, es) =>
      if h.m.hdr.flag 0 then some (es.map fun e => (fma32 e se Fp.zero).round h.act)
      else
        (tableRow h (insC h.i) x.pos).map fun (sp, ps) =>
          (es.zip ps).map fun y => (fma32 y.1 se (mul32 y.2 sp)).round h.act

/-- GATH (R191): the rows gathered lie from row 0 of the matrix at OPA. -/
def gathBody (h : Here) : Ran :=
  let n := 64 * insCount h.i
  let q := h.m.hdr.width / 64
  let dst := h.operand (insA h.i)
  let first := h.r * h.rankRows + h.scalar (insS h.i)
  h.guard [(dst, h.m.hdr.rowUnits n)]
    (let rows := (List.range n).map fun i => (i, gathRow h (h.info (first + i)))
     if rows.any (fun x => x.2.isNone) then h.addressFault
     else h.next (h.putRows dst.2 q (rows.map fun x => (x.1, x.2.getD []))))

def execGath (r : Nat) (s : State) : Host.Outcome State Fault Refusal := onRank r 0x30 gathBody s

/-- NORM (R191): γ at OPC, β in the following units. -/
def normBody (h : Here) : Ran :=
  let n := insCount h.i
  let a := h.operand (insA h.i)
  let b := h.operand (insB h.i)
  let c := h.operand (insC h.i)
  h.guard [(a, n * 0x800), (b, n * 0x800), (c, n * 16)]
    (let gamma := (List.range (256 * n)).map fun i => h.actAt c (2 * i)
     let beta := (List.range (256 * n)).map fun i => h.actAt c (512 * n + 2 * i)
     h.next (rowWise h (insRows h.i) a b (layerNorm h.act (Fp.ofF32 h.m.hdr.eps) gamma beta)))

def execNorm (r : Nat) (s : State) : Host.Outcome State Fault Refusal := onRank r 0x31 normBody s

/-- GELU (R191). -/
def geluBody (h : Here) : Ran :=
  let n := insCount h.i
  let a := h.operand (insA h.i)
  let b := h.operand (insB h.i)
  h.guard [(a, n * 0x800), (b, n * 0x800)] (h.next (rowWise h (insRows h.i) a b fun xs => xs.map (gelu h.act)))

def execGelu (r : Nat) (s : State) : Host.Outcome State Fault Refusal := onRank r 0x32 geluBody s

/-- ADDV and MULV: one FP32 operation per element, rounded to the activation format. -/
def twoSource (op : Fp → Fp → Fp) (h : Here) : Ran :=
  let n := insCount h.i
  let a := h.operand (insA h.i)
  let b := h.operand (insB h.i)
  let c := h.operand (insC h.i)
  h.guard [(a, n * 0x800), (b, n * 0x800), (c, n * 0x800)]
    (h.next (rowWise2 h (insRows h.i) a b c fun x y => (op x y).round h.act))

def execAddv (r : Nat) (s : State) : Host.Outcome State Fault Refusal := onRank r 0x33 (twoSource add32) s

def execMulv (r : Nat) (s : State) : Host.Outcome State Fault Refusal := onRank r 0x34 (twoSource mul32) s

/-- One row of ROPE at a position: cosines at OPC, sines at the next 64-byte boundary after them. -/
def ropeRow (h : Here) (t : Bool × Nat) (pos : Nat) (xs : List Fp) : List Fp :=
  let half := h.m.hdr.headDim / 2
  let sin := h.m.hdr.rotaryUnits * 64
  (List.range xs.length).map fun c =>
    let i := c / 2 % half
    let at_ := (pos * half + i) * 4
    let y := rotate h.act (h.f32Of t at_) (h.f32Of t (sin + at_)) (xs.getD (c / 2 * 2) Fp.zero) (xs.getD (c / 2 * 2 + 1) Fp.zero)
    if c % 2 = 0 then y.1 else y.2

/-- ROPE (R191): padding rows have no position, and take free values (DESIGN CHOICE, log entry 15). -/
def ropeBody (h : Here) : Ran :=
  let n := insCount h.i
  let a := h.operand (insA h.i)
  let b := h.operand (insB h.i)
  let t := h.operand (insC h.i)
  let first := h.scalar (insS h.i)
  h.guard [(a, n * 0x800), (b, n * 0x800), (t, 2 * h.m.hdr.rotaryUnits)]
    (let rows := (List.range 256).map fun r =>
       match h.info (first + r) with
       | some x => (r, ropeRow h t x.pos (h.row a (4 * n) r (256 * n)))
       | none => (r, (List.range (256 * n)).map fun c =>
           let k := h.free + 2 * (r * 256 * n + c)
           Fp.ofBits h.act ((Config.freeByte k).toNat + 256 * (Config.freeByte (k + 1)).toNat))
     h.nextUsing (h.putRows b.2 (4 * n) rows) (2 * 65536 * n))

def execRope (r : Nat) (s : State) : Host.Outcome State Fault Refusal := onRank r 0x35 ropeBody s

/-! ### Collectives (R198, R199) -/

/-- Alike collectives: the same opcode, and the same COUNT or OPC. -/
def alike (a b : Collective) : Bool := a.opcode == b.opcode && a.count == b.count && (a.opcode != 0x3A || a.opc == b.opc)

/-- What a rank brings to a collective. -/
def collectiveOf (h : Here) : Collective :=
  { opcode := insOp h.i, count := if insOp h.i = 0x3A then 0 else insCount h.i, opc := insC h.i, opa := insA h.i, opb := insB h.i }

/-- Every rank goes on past its collective. -/
def release (p : Pass) : Pass := { p with ranks := p.ranks.map fun k => { k with coll := none, pc := k.pc + 1 } }

/-- A rank reaches a collective once its earlier instructions have completed, its forwards and receives among them; once
all eight have, `done` carries it out. -/
def arrive (done : Here → Pass → Ran) (h : Here) : Ran :=
  if !h.k.sends.isEmpty || !h.k.recvs.isEmpty then .wait
  else
  let p := { h.p with ranks := h.p.ranks.set h.r { h.k with coll := some (collectiveOf h) } }
  if p.ranks.any fun k => k.coll.isNone then .go p 0
  else if p.ranks.any fun k => !(k.coll.any (alike (collectiveOf h))) then .fault (List.range 8) .collective
  else done h p

/-- A rank as seen in a collective. -/
def Here.at_ (h : Here) (p : Pass) (r : Nat) : Here :=
  match p.ranks[r]? with
  | none => h
  | some k => { h with p := p, r := r, k := k, i := atIns h.m k }

/-- BAR. -/
def execBar (r : Nat) (s : State) : Host.Outcome State Fault Refusal := onRank r 0x09 (arrive fun _ p => .go (release p) 0) s

/-- XALL: block d of every rank goes to rank d, as block s of the sender. -/
def xallDone (h : Here) (p : Pass) : Ran :=
  let n := insC h.i
  let hs := (List.range 8).map (h.at_ p)
  let bad := hs.filter fun x => !(x.fits (x.operand (insA x.i)) (8 * n) && x.fits (x.operand (insB x.i)) (8 * n))
  if !bad.isEmpty then .fault (bad.map fun x => x.r) .address
  else
    let ranks := hs.map fun d =>
      let dst := (d.operand (insB d.i)).2 * 64
      let mem := hs.foldl (fun m s =>
        let src := s.operand (insA s.i)
        Memory.writeBytes m (dst + s.r * n * 64) ((List.range (n * 64)).map fun i => s.byteOf src (d.r * n * 64 + i))) d.k.mem
      { d.k with mem := mem }
    .go (release { p with ranks := ranks }) 0

def execXall (r : Nat) (s : State) : Host.Outcome State Fault Refusal := onRank r 0x3A (arrive xallDone) s

/-- Sequences whose last token a rank holds, ascending, with the pass rows of each. -/
def seqsEnding (h : Here) : List (Nat × List Nat) :=
  let per := h.rankRows
  ((List.range h.p.reqs.length).filterMap fun q =>
    let rows := (List.range h.p.rows.length).filter fun t => (h.p.rows[t]?).any fun x => x.seq == q
    match rows.getLast? with
    | none => none
    | some t => if per ≠ 0 ∧ t / per = h.r then some (q, rows) else none)

/-- POOL (R199): the chain of the ranks is the sequence's rows in order. -/
def poolDone (h : Here) (p : Pass) : Ran :=
  let n := insCount h.i
  let hs := (List.range 8).map (h.at_ p)
  let bad := hs.filter fun x =>
    !(x.fits (x.operand (insA x.i)) (ceilDiv x.rankRows 256 * (n * 0x800))
      && x.fits (x.operand (insB x.i)) (ceilDiv (seqsEnding x).length 256 * (n * 0x800)))
  if !bad.isEmpty then .fault (bad.map fun x => x.r) .address
  else
    let rowAt := fun (t : Nat) =>
      let x := h.at_ p (t / h.rankRows)
      x.row (x.operand (insA x.i)) (4 * n) (t % h.rankRows) (256 * n)
    let ranks := hs.map fun x =>
      let rows := ((List.range (seqsEnding x).length).zip (seqsEnding x)).map fun y =>
        let vs := y.2.2.map rowAt
        (y.1, (List.range (256 * n)).map fun c => poolElement h.act h.m.hdr.pooling (vs.map fun v => v.getD c Fp.zero))
      x.putRows (x.operand (insB x.i)).2 (4 * n) rows
    .go (release { p with ranks := ranks }) 0

def execPool (r : Nat) (s : State) : Host.Outcome State Fault Refusal := onRank r 0x39 (arrive poolDone) s

/-! ### Output (R200) -/

/-- The first output-dimension elements of a row; those that the source is too narrow to hold are free, and depend on the
row alone (R166; DESIGN CHOICE, log entry 98). -/
def outRow (h : Here) (o : Bool × Nat) (n row : Nat) : List (BitVec 16) :=
  let held := (List.range (min h.m.hdr.outDim (256 * n))).map fun c => BitVec.ofNat 16 (h.read16 o (Here.off16 (4 * n) row c))
  held ++ (List.range (h.m.hdr.outDim - held.length)).map fun c => Config.emitElement held (held.length + c)

/-- EMIT (R200). -/
def emitBody (h : Here) : Ran :=
  let n := insCount h.i
  let tok := insMod h.i % 2 == 1
  let o := h.operand (insA h.i)
  let per := h.rankRows
  let ends := seqsEnding h
  let rows := if tok then per else ends.length
  if if tok then h.k.emittedTokens else h.k.emittedPooled then .fault [h.r] .output
  else
    h.guard [(o, ceilDiv rows 256 * (n * 0x800))]
      (let k := { h.k with pc := h.k.pc + 1, emittedTokens := h.k.emittedTokens || tok, emittedPooled := h.k.emittedPooled || !tok }
       let p := { h.p with ranks := h.p.ranks.set h.r k }
       if tok then
         let vs := (List.range per).filterMap fun i =>
           match h.info (h.r * per + i) with
           | none => none
           | some x => if x.wantTokens then some (x.seq, x.pos, outRow h o n i) else none
         .go { p with tokvecs := p.tokvecs ++ vs } 0
       else
         let vs := ((List.range ends.length).zip ends).map fun y => (y.2.1, outRow h o n y.1)
         .go { p with pooled := p.pooled ++ vs } 0)

def execEmit (r : Nat) (s : State) : Host.Outcome State Fault Refusal := onRank r 0x3B emitBody s

end Sys2Proof.Machine
end

