-- ==== Sys2Proof/Machine/Faults.lean ====
section
/-! DEFINITION. Sys2Proof/Machine/Faults.lean: what ends the commands in flight (R264, R390, R420), whole-module faults
(R420), seeing injection (R429), clusters out of service (R421), channels (R304, R308, R422, R425), uncorrectable code
words (R305, R306) and die-to-die links (R418). -/

namespace Sys2Proof.Machine
open Jenjor

namespace Jenjor

/-! ### Commands in flight -/

def AllocFor.ref : AllocFor → List CmdRef
  | .queueCreate f => [f.ref]
  | .shardList f => [f.ref]
  | .collectionCreate f _ => [f.ref]
  | .objectCreate f _ => [f.ref]
  | .modelLoad f => [f.ref]
  | .slewStart _ => []
  | .recalibrate f _ => [f.ref]

def SlewFor.ref : SlewFor → List CmdRef
  | .place c => [c]
  | .residence c _ => [c]
  | _ => []

/-- The commands that wait anywhere but in a query context, in the journal or on a queue's deletion. -/
def heldRefs (j : Jenjor) : List CmdRef :=
  (j.qs.fetched.map fun f => f.ref) ++ (j.cat.allocs.flatMap fun a => AllocFor.ref a.what)
    ++ (j.cat.slews.flatMap fun s => SlewFor.ref s.cause)
    ++ (j.sw.rings.flatMap fun r => r.starter.toList ++ r.stoppers)
    ++ (j.cat.recals.map fun r => r.ref) ++ (j.cat.calib.toList.map fun c => c.ref) ++ (j.cat.calibQueue.map fun x => x.1.ref)
    ++ (j.wr.fences.map fun f => f.ref)
    ++ (j.coe.models.flatMap fun m => m.loader.toList ++ m.unloader.toList.map fun x => x.1)
    ++ (j.cpn.merges.map fun m => m.ref) ++ (j.cpn.lists.flatMap fun l => l.deleters)
    ++ (j.qs.waits.map fun w => w.ref) ++ (j.cpn.pair.forwards.map fun f => f.2.ref)
    ++ (j.lnk.qps.flatMap fun p => p.connector.toList.map fun c => c.1)
    ++ (j.alm.reloads.flatMap fun r => r.src.toList) ++ (j.alm.reloadsWaiting.flatMap fun r => r.1.toList)
    ++ (j.alm.switchTo.toList.flatMap fun s => s.2.toList) ++ (j.alm.switchesWaiting.map fun s => s.2)

/-- Forget every command that waits, leaving the work that no command waits for. -/
def forgetHeld (j : Jenjor) : Jenjor :=
  let byCmd := fun (s : Slew) => (SlewFor.ref s.cause).isEmpty
  let dropLoad := fun (m : Model) => if m.phase = .loading then emptyModel else { m with unloader := none }
  { j with
      qs := { j.qs with fetched := [], waits := [] },
      cat := { j.cat with allocs := [], slews := j.cat.slews.filter byCmd, recals := [], calib := none, calibQueue := [] },
      sw := { j.sw with rings := j.sw.rings.map fun r => { r with starter := none, stoppers := [] } },
      wr := { j.wr with fences := [] },
      coe := { j.coe with models := j.coe.models.map dropLoad },
      cpn := { j.cpn with merges := [], lists := j.cpn.lists.map (fun l => { l with deleters := [] }),
                          pair := { j.cpn.pair with forwards := [] } },
      lnk := { j.lnk with qps := j.lnk.qps.map fun p => { p with connector := none } },
      alm := { j.alm with reloads := j.alm.reloads.map (fun r => { r with src := none }), reloadsWaiting := [],
                          switchTo := j.alm.switchTo.map (fun s => (s.1, none)), switchesWaiting := [] } }

/-- Complete the writes in flight with a status; a VISIBLE write past its acknowledgement point reports its journal
sequence number (R290). -/
def endWrites (j : Jenjor) (st : Status) : Jenjor :=
  let open_ := j.wr.journal.filter fun e => !e.completed
  let j := j.mapJournal (fun e => !e.completed) fun e => { e with completed := true, discarded := e.discarded || !e.acked }
  open_.foldl (fun j e =>
    j.complete e.ref st (if e.acked && e.visible then BitVec.ofNat 64 e.jr.seq else 0) 0 none) j

/-- Complete every command in flight with a status: queries, what waits, writes, and the deletions of queues last. -/
def endCommands (j : Jenjor) (st : Status) : Jenjor :=
  let j := j.abortAll (j.sw.ctxs.map fun c => c.id) st
  let refs := j.heldRefs
  let j := refs.foldl (fun j r => j.refuse r st) j.forgetHeld
  let j := j.endWrites st
  let waiters := j.qs.queues.flatMap fun q => q.waiters
  let unmark := fun (q : Queue) => if q.orphan then q else { q with waiters := [], deleting := false }
  let j : Jenjor := { j with qs := { j.qs with queues := j.qs.queues.map unmark } }
  waiters.foldl (fun j r => j.refuse r st) j

/-! ### Whole-module faults (R420) -/

def isWhole (j : Jenjor) : Bool := j.isl.whole

/-- A whole-module fault, held until reset. -/
def wholeFault (j : Jenjor) (blk unit cause : Nat) : Jenjor :=
  if j.isl.whole then j
  else
    let p := j.cpn.pair
    let j := if p.holder && p.linkUp then
        let j := j.sendCpn 0x0C p.lease j.wr.epoch 0 []
        { j with cpn := { j.cpn with pair := { j.cpn.pair with holder := false } } }
      else j
    let j : Jenjor := { j with isl := { j.isl with whole := true }, coe := { j.coe with pass := none, rerun := none } }
    (j.endCommands .internalError).fault 4 blk unit cause 0 Status.internalError.code 0

/-! ### Seeing injection (R429) -/

/-- The event is the armed injector's doing: of its kind, on its target. -/
def injects (j : Jenjor) (kind target addr : Nat) : Bool :=
  j.see.arm && j.see.kind.toNat == kind && !j.see.spent
    && j.see.target.toNat == target && (kind != 4 || j.see.addr.toNat / 64 == addr / 64)

/-- Carry out an event that may be injected: an injection is counted, the records it causes carry INJECTED, and a single
corruption is spent. -/
def injecting (j : Jenjor) (kind target addr : Nat) (f : Jenjor → Jenjor) : Jenjor :=
  if j.injects kind target addr then
    let head := j.log.head
    let sticky := j.see.param.getLsbD 8
    let j := f j
    let mark := fun (r : LogRec) => if head < r.seq then { r with injected := true } else r
    count { j with log := { j.log with trace := j.log.trace.map mark },
                   see := { j.see with spent := j.see.kind == 4 && !sticky } } blkSEE 0x18
  else f j

/-! ### Clusters (R421) -/

/-- The spare that takes a departing cluster's place: of its own transit die, otherwise of the other. -/
def spareFor (j : Jenjor) (c : Nat) : Option Nat :=
  let spares := j.sw.clusters.filter fun x => x.spare && !x.failed && !x.active
  match spares.find? fun x => (x.num < 9) == (c < 9) with
  | some x => some x.num
  | none => (spares.head?).map fun x => x.num

/-- Put the spare in service; it joins the departing cluster's ring at its next boundary (R421), or at once where the ring
passes none. -/
def bringSpare (j : Jenjor) (c : Nat) (home : Option Nat) : Jenjor :=
  match j.spareFor c with
  | none => j
  | some s =>
    let j := j.mapCluster s fun x => { x with spare := false, active := true }
    match home.bind j.ring? with
    | none => j
    | some r => if holdsClusters r then j.giveClusters r [s] else j

/-- The ring that uses a cluster, or is about to. -/
def ringHolding (j : Jenjor) (c : Nat) : Option Ring := j.sw.rings.find? fun r => r.clusters.contains c || r.joining.contains c

/-- A cluster leaves service with no work lost (R421): it takes no new plate group, is gated once it has finished those in
flight, and leaves at the next boundary of its ring, announced like any other (R75). -/
def retireCluster (j : Jenjor) (c : Nat) : Jenjor :=
  match j.cluster? c with
  | none => j
  | some x =>
    if !x.active || x.failed || x.retiring then j
    else
      let home := (j.ringHolding c).map fun r => r.num
      let j := j.mapCluster c fun x => { x with retiring := true }
      let j := j.mapRings fun r =>
        { r with joining := r.joining.filter (· != c),
                 leaving := if r.clusters.contains c && !r.leaving.contains c then r.leaving ++ [c] else r.leaving }
      let j := j.bringSpare c home
      let j := (home.map j.republish).getD j
      (j.fault 3 blkMER c 0xFFFF 0 0 0).gateRetired.reassign

/-- Rings whose plate groups a cluster's groups hold. -/
def ringsServed (x : Cluster) : List Nat :=
  (x.groups.flatMap fun g => (g.queue ++ g.fill.toList ++ g.compute.toList).map fun pg => pg.ring).eraseDups

/-- A cluster fails and leaves at once: the riders of the rings it serves are aborted whole, and what it has admitted is
discarded with them and with any query that alights and still waits for an entry of it. -/
def failCluster (j : Jenjor) (c : Nat) : Jenjor :=
  match j.cluster? c with
  | none => j
  | some x =>
    if !x.active || x.failed then j.mapCluster c fun x => { x with failed := true, spare := false }
    else
      let rings := (x.home.toList ++ ringsServed x).eraseDups
      let j := rings.foldl (fun j n => j.abortAll (j.ridersOf n) .internalError) j
      let j := j.abortAll ((j.sw.ctxs.filter fun y => x.admq.any fun e => e.1 == y.id).map fun y => y.id) .internalError
      let home := (j.ringHolding c).map fun r => r.num
      let j := j.mapCluster c fun x =>
        { x with home := none, groups := [], failed := true, active := false, retiring := false, admq := [], specq := [] }
      let j := j.mapRings fun r =>
        { r with clusters := r.clusters.filter (· != c), leaving := r.leaving.filter (· != c), joining := r.joining.filter (· != c) }
      let j := (j.fault 2 blkMER c 0xFFFF 0 Status.internalError.code 0).fault 3 blkMER c 0xFFFF 0 0 0
      let j := (j.bringSpare c home).reassign
      match home.bind j.ring? with
      | none => j
      | some r =>
        if !holdsClusters r then j
        else if !r.clusters.isEmpty then j.stretchCheck r.num
        else if r.joining.isEmpty then (j.ringToWaiting r.num).reassign
        else j.boundary r.num

/-! ### Channels (R291, R304, R308, R422, R425) -/

def chan? (j : Jenjor) (p : Nat) : Option Chan := j.mem.chans[p]?

def mapChan (j : Jenjor) (p : Nat) (f : Chan → Chan) : Jenjor := { j with mem := { j.mem with chans := j.mem.chans.modify p f } }

def mapRim (j : Jenjor) (r : Nat) (f : Rim → Rim) : Jenjor := { j with mem := { j.mem with rims := j.mem.rims.modify r f } }

/-- The physical number of a rim's spare. -/
def spareOf (rim : Nat) : Nat := rim * 21 + 20

/-- The rim's spare can take an index; a run of its traffic generator ends there. -/
def spareReady (j : Jenjor) (rim : Nat) : Bool :=
  (j.mem.rims[rim]?).any (fun r => !r.spareUsed && !r.spareFailed)
    && (j.chan? (spareOf rim)).any fun c => c.state == .standby || (c.state == .testing && c.back == .standby)

/-- The spare of a rim shadows a channel (R425). -/
def shadowing (j : Jenjor) (ch : Nat) : Bool := ch % 21 == 20 && (j.mem.rims[ch / 21]?).any fun r => r.shadow.isSome

/-- The traffic generator may run on a channel (R308); never where it serves while sweep memory is online, nor on a spare
that shadows one that serves. -/
def tgAllowed (j : Jenjor) (ch : Nat) (c : Chan) : Bool :=
  !j.shadowing ch &&
  (c.state == .standby || c.state == .retired || (!j.mem.online && j.dom.tenant == .unbound)
    || (j.dom.debug && !(j.mem.online && c.logical.isSome)))

/-- MEM_TG_CTL.STOP (R308). -/
def stopTg (j : Jenjor) (ch : Nat) : Jenjor :=
  j.mapChan ch fun c => if c.busy then { c with busy := false, done := true, state := c.back } else c

/-- Mark a channel for retraining (R304, R422). -/
def markChan (j : Jenjor) (ch : Nat) : Jenjor :=
  j.mapChan ch fun c =>
    { c with marked := true, again := c.markAt.any fun t => j.time ≤ t + 1000000000, markAt := some j.time }

/-- A planned substitution begins: the spare shadows the channel. -/
def startSubstitution (j : Jenjor) (ch : Nat) : Jenjor :=
  match j.chan? ch, j.mem.rims[ch / 21]? with
  | some c, some r =>
    if c.logical.isNone || r.shadow.isSome || !j.spareReady (ch / 21) then j
    else ((j.stopTg (spareOf (ch / 21))).mapRim (ch / 21) fun r => { r with shadow := some ch }).info blkMEM ch 0xFFFF 0
  | _, _ => j

/-- The spare takes a channel's logical index; the old channel is retired (R425 step 3). -/
def spareTakes (j : Jenjor) (ch : Nat) : Jenjor :=
  match j.chan? ch with
  | none => j
  | some c =>
    let rim := ch / 21
    let l := c.logical
    let j := j.mapChan (spareOf rim) fun x => { x with state := .serving, logical := l, busy := false }
    let j := j.mapChan ch fun x => { x with state := .retired, logical := none, marked := false }
    (j.mapRim rim fun r => { r with spareUsed := true, spareFor := (l.getD 0) % 20, shadow := none }).fault 3 blkMEM ch 0xFFFF 0 0 0

/-- A serving channel is lost: every rider of every sweep-resident ring is aborted, and what the spare takes is rebuilt
(R425). -/
def loseChannel (j : Jenjor) (ch : Nat) : Jenjor :=
  match j.chan? ch with
  | none => j
  | some c =>
    if c.logical.isNone then j
    else
      let rings := (j.sw.rings.filter fun r => r.defn.any fun d => !d.deep).map fun r => r.num
      let j := j.fault 2 blkMEM ch 0xFFFF 0 Status.plateLost.code 0
      let j := rings.foldl (fun j n => j.abortAll (j.ridersOf n) .plateLost) j
      if j.spareReady (ch / 21) then
        (j.spareTakes ch).mapPlates j.inSweepMemory fun p => { p with quarantined := true }
      else
        (j.mapChan ch fun x => { x with state := .retired, logical := none, marked := false }).wholeFault blkMEM ch 0xFFFF

/-! ### Uncorrectable code words (R305) -/

/-- A query that has captured the bias frame in a buffer of its collection's plane, which it holds until it completes (R22,
R83, R229): the published frame, or the one before it while that buffer drains. -/
def usesBuffer (j : Jenjor) (coll : Nat) (published : Bool) (c : Ctx) : Bool :=
  c.coll == coll && !beforeBoarding c && (j.coll? coll).any fun k => k.bias.any fun b =>
    c.frame + (if published then 0 else 1) == b.frame

/-- The class and status of an uncorrectable code word's record, by what was read (R419). -/
def uncorrectableClass (what : PoolObject) : Nat × BitVec 8 :=
  match what with
  | .plate _ => (2, Status.plateLost.code)
  | .biasPlane _ _ => (2, Status.plateLost.code)
  | .queueRing _ => (2, 0)
  | .tile _ _ _ => (2, Status.internalError.code)
  | _ => (1, 0)

/-- What the requester of poison does. -/
def takePoison (j : Jenjor) (what : PoolObject) : Jenjor :=
  match what with
  | .plate pid => j.plateLoss pid
  | .weightPackage obj =>
    let j := j.healPoison what
    if j.coe.pass.any fun p => (j.model? p.model).any fun m => m.obj == obj then j.abandonPass else j
  | .directory _ => j.healPoison what
  | .payloadTable _ => j.healPoison what
  | .program _ => j.healPoison what
  | .cacheLine page =>
    let j := j.healPoison what
    let j : Jenjor := { j with spg := { j.spg with lines := j.spg.lines.filter fun l => l.page != page } }
    (j.sw.ctxs.filter fun c => onCore c && c.pins.contains page).foldl (fun j c => j.demand c.id page) j
  | .biasPlane coll published =>
    let hit := (j.sw.ctxs.filter (j.usesBuffer coll published)).map fun c => c.id
    (j.abortAll hit .plateLost).healPoison what
  | .queueRing q => j.queueFault q 4
  | .tile _ _ reader =>
    match reader with
    | none => j
    | some (q, cid) =>
      match j.qs.fetched.find? fun f => f.ref.q == q && f.ref.cid == cid with
      | none => j
      | some f => ({ j with qs := { j.qs with fetched := j.qs.fetched.erase f } } : Jenjor).refuse f.ref .internalError

/-- A read with check bytes of the code word at a pool address (R295, R305): whether it returns poison. A word that is
poisoned already is not decoded. -/
def readCode (j : Jenjor) (a : Nat) (word : List Byte) (what : PoolObject) : Bool × Jenjor :=
  if j.mem.poison.any fun p => p.1 == a / 64 then (true, j)
  else
    match decodeWord word with
    | .clean => (false, j)
    | .corrected _ => (false, j.countCorrected (j.physChannel (poolChannel a)).toList)
    | .uncorrectable => (true, j.poisonWord a (uncorrectableClass what).1 (uncorrectableClass what).2 what)

/-- UNCORRECTABLE_CODE_WORD's read and its requester. -/
def uncorrectable (j : Jenjor) (a : Nat) (word : List Byte) (what : PoolObject) : Jenjor :=
  let (poison, j) := j.readCode a word what
  if poison then j.takePoison what else j

/-- A burst whose access has failed all its retries is uncorrectable (R304): of a plate as in R298 step 2, of anything else
each of its code words as in R305. -/
def burstFailed (j : Jenjor) (l burst : Nat) (what : PoolObject) : Jenjor :=
  match what with
  | .plate pid => j.plateLoss pid
  | _ =>
    let words := (List.range 32).filterMap (codeWordAt l burst)
    (words.foldl (fun j a =>
      j.poisonWord a (uncorrectableClass what).1 (uncorrectableClass what).2 what) j).takePoison what

/-- A patrol scrub read of a code word (R306): one that it cannot correct stays poisoned, and a plate's is a plate loss. -/
def scrubWord (j : Jenjor) (l burst : Nat) (x : Nat × List Byte × PoolObject) : Jenjor :=
  match codeWordAt l burst x.1 with
  | none => j
  | some a =>
    let fresh := !j.mem.poison.any fun p => p.1 == a / 64
    let (poison, j) := j.readCode a x.2.1 x.2.2
    match x.2.2 with
    | .plate pid => if poison && fresh then j.plateLoss pid else j
    | _ => j

/-- ISL_CTL.RETIRE (R421). -/
def retireIsland (j : Jenjor) (isl : Nat) : Jenjor :=
  if 7 ≤ isl ∧ isl < 25 then j.retireCluster (isl - 7) else j

/-- MEM_TG_CTL.START (R308). -/
def startTg (j : Jenjor) (ch : Nat) : Jenjor :=
  match j.chan? ch with
  | none => j
  | some c =>
    if c.busy || 5 < c.pattern.toNat || !j.tgAllowed ch c then j.discard ch (blkBase blkMEM + 0x1020 + ch * 0x40)
    else j.mapChan ch fun c => { c with busy := true, back := c.state, state := .testing }

end Jenjor

/-! ### The events -/

/-- WHOLE_MODULE_FAULT (R420). -/
def execWholeModuleFault (blk unit : Nat) (s : State) : Host.Outcome State Fault Refusal :=
  onBlocks (fun j => j.wholeFault blk unit 0xFFFF) s

/-- CLUSTER_PLANNED_RETIRE (R421). -/
def execClusterPlannedRetire (c : Nat) (s : State) : Host.Outcome State Fault Refusal :=
  onUnit (decide (c < 18)) (onBlocks (fun j => j.retireCluster c) s)

/-- ISL_RETIRE (R421): ignored for an island that is no transit island. -/
def execIslRetire (isl : Nat) (s : State) : Host.Outcome State Fault Refusal :=
  onUnit (decide (isl < 29)) (onBlocks (fun j => j.retireIsland isl) s)

/-- CLUSTER_HARD_FAULT (R421). -/
def execClusterHardFault (c : Nat) (s : State) : Host.Outcome State Fault Refusal :=
  onUnit (decide (c < 18)) (onBlocks (fun j => j.failCluster c) s)

/-- TG_START (R308). -/
def execTgStart (ch : Nat) (s : State) : Host.Outcome State Fault Refusal :=
  onUnit (decide (ch < 84)) (onBlocks (fun j => j.startTg ch) s)

/-- TG_STOP (R308, R309). -/
def execTgStop (ch : Nat) (s : State) : Host.Outcome State Fault Refusal :=
  onUnit (decide (ch < 84)) (onBlocks (fun j => j.stopTg ch) s)

/-- TG_PASS_COMPLETE (R308, R309): a spare that shows an error has failed. -/
def execTgPassComplete (ch diffs : Nat) (pins : BitVec 32) (s : State) : Host.Outcome State Fault Refusal :=
  onUnit (decide (ch < 84)) (onBlocks (fun j =>
    match j.chan? ch with
    | none => j
    | some c =>
      if !c.busy then j
      else
        let j := if diffs = 0 then j else j.bump (blkBase blkMEM + 0x1028 + ch * 0x40) diffs
        let j := if diffs ≠ 0 ∧ ch % 21 = 20 then j.mapRim (ch / 21) fun r => { r with spareFailed := true } else j
        j.mapChan ch fun c =>
          let c := { c with errPins := c.errPins ||| pins }
          if c.loop then c else { c with busy := false, done := true, state := c.back }) s)

/-- CHANNEL_ACCESS_RETRY (R304). -/
def execChannelAccessRetry (ch : Nat) (fail : Option (Nat × PoolObject)) (overRate : Bool) (s : State) :
    Host.Outcome State Fault Refusal :=
  onUnit (decide (ch < 84) && fail.all fun x => x.1 < 2097152) (onBlocks (fun j =>
    let off := 0x1018 + ch * 0x40
    let j := (j.count blkMEM off).fault 1 blkMEM ch off 0 0 0
    let j := if overRate || fail.isSome then j.markChan ch else j
    match fail, (j.chan? ch).bind fun c => c.logical with
    | some x, some l => j.burstFailed l x.1 x.2
    | _, _ => j) s)

/-- CHANNEL_RETRAIN (R422): a marked serving channel; a margin below 0.25 UI, or a second mark within 1 s, begins a planned
substitution. -/
def execChannelRetrain (ch margin : Nat) (trained : Bool) (s : State) : Host.Outcome State Fault Refusal :=
  onUnit (decide (ch < 84)) (onBlocks (fun j =>
    match j.chan? ch with
    | none => j
    | some c =>
      if !c.marked || c.state != .serving then j
      else if !trained then (j.mapChan ch fun c => { c with marked := false }).loseChannel ch
      else
        let j := (j.mapChan ch fun c => { c with marked := false, again := false, margin := margin }).info blkMEM ch 0xFFFF 0
        if margin < 64 || c.again then j.startSubstitution ch else j) s)

/-- CHANNEL_SUBSTITUTION_START (R425 steps 1 and 2). -/
def execChannelSubstitutionStart (ch : Nat) (s : State) : Host.Outcome State Fault Refusal :=
  onUnit (decide (ch < 84)) (onBlocks (fun j => j.startSubstitution ch) s)

/-- CHANNEL_SUBSTITUTION_COMPLETE (R425 step 3). -/
def execChannelSubstitutionComplete (rim : Nat) (s : State) : Host.Outcome State Fault Refusal :=
  onUnit (decide (rim < 4)) (onBlocks (fun j =>
    match (j.mem.rims[rim]?).bind fun r => r.shadow with
    | none => j
    | some ch => j.spareTakes ch) s)

/-- CHANNEL_LOST (R425). -/
def execChannelLost (ch : Nat) (s : State) : Host.Outcome State Fault Refusal :=
  onUnit (decide (ch < 84)) (onBlocks (fun j => j.loseChannel ch) s)

/-- UNCORRECTABLE_CODE_WORD (R295, R305): a read with check bytes returns these 68 bytes of the code word at a pool
address. -/
def execUncorrectableCodeWord (addr : Nat) (word : List Byte) (what : PoolObject) (s : State) : Host.Outcome State Fault Refusal :=
  onUnit (decide (addr < 322122547200) && word.length == 68) (onBlocks (fun j =>
    match j.physChannel (poolChannel addr) with
    | none => j
    | some ch => j.injecting 4 ch addr fun j => j.uncorrectable addr word what) s)

/-- REFRESH (R303): a fill that waits behind the refresh counts its cycles as "refresh" (R93); drift out of range marks
the channel (R422). -/
def execRefresh (ch : Nat) (drift : Bool) (waitCycles : Nat) (waiter : Option (Nat × Nat)) (s : State) :
    Host.Outcome State Fault Refusal :=
  onUnit (decide (ch < 84) && waiter.all fun w => w.1 < 18) (onBlocks (fun j =>
    let j := match waiter with
      | none => j
      | some w => if waitCycles = 0 then j else j.bump (blkBase blkMER + 0x4000 + w.1 * 0x40 + 40) waitCycles
    if drift then j.markChan ch else j) s)

/-- PATROL_SCRUB_READ (R306): of a raw burst of a serving channel. -/
def execPatrolScrubRead (ch burst : Nat) (words : List (Nat × List Byte × PoolObject)) (bad : List Nat) (passDone : Bool)
    (s : State) : Host.Outcome State Fault Refusal :=
  onUnit (decide (ch < 84) && decide (burst < 2097152) && words.all fun x => x.1 < 32 && x.2.1.length == 68) (onBlocks (fun j =>
    match (j.chan? ch).bind fun c => c.logical with
    | none => j
    | some l =>
      let j := words.foldl (fun j x => j.scrubWord l burst x) j
      let j := (bad.filter fun pid => (j.plate? pid).any fun p => j.inSweepMemory p && !p.quarantined).foldl Jenjor.plateLoss j
      if passDone then j.count blkMEM 0x18 else j) s)

/-- D2D_FLIT_REPLAY (R418). -/
def execD2dFlitReplay (b : Nat) (overRate : Bool) (s : State) : Host.Outcome State Fault Refusal :=
  onUnit (decide (b < 22)) (onBlocks (fun j => j.injecting 5 b 0 fun j =>
    let off := 0x1008 + b * 0x10
    let j := (j.count blkISL off).fault 1 blkISL b off 0 0 0
    if !overRate then j
    else if j.isl.d2d.getD b 0 < 2 then
      ({ j with isl := { j.isl with d2d := j.isl.d2d.modify b (· + 1) } } : Jenjor).fault 1 blkISL b 0xFFFF 0 0 0
    else if b < 18 then j.failCluster b
    else j.wholeFault blkISL b off) s)

end Sys2Proof.Machine
end

