-- ==== Sys2Proof/Machine/Thermal.lean ====
section
/-! DEFINITION. Sys2Proof/Machine/Thermal.lean: temperatures, clocks and power (R29, R94, R95, R302, R415 to R417, R455,
R460, R461). -/

namespace Sys2Proof.Machine
open Jenjor

/-! ### Islands (R415 to R417) -/

/-- Two islands are neighbours (R415). -/
def neighbours (a b : Nat) : Bool :=
  let one := fun (a b : Nat) =>
    if a = 0 ∨ a = 1 then b == 4 || b == 5 || 25 ≤ b
    else if a = 2 then b == 3 || b == 4 || b == 5
    else if a = 3 then b == 2 || b == 4 || b == 5 || 7 ≤ b
    else if a = 4 ∨ a = 5 then true
    else if a = 6 then b == 4 || b == 5 || 25 ≤ b
    else if a < 25 then b == 3 || b == 4 || b == 5 || 25 ≤ b
    else b == 0 || b == 1 || (3 ≤ b && b < 25)
  a != b && a < 29 && b < 29 && (one a b || one b a)

/-- Maximum clock in MHz (R415). -/
def maxClock (i : Nat) : Nat := if i < 5 then 1000 else if i < 25 then 1600 else 2000

/-- The floor of R417 in MHz. -/
def floorClock (i : Nat) : Nat := if i = 5 ∨ i = 6 ∨ (7 ≤ i ∧ i < 25) then 800 else if 25 ≤ i then 1000 else 500

def transit (i : Nat) : Bool := 7 ≤ i && i < 25

namespace Jenjor

/-- A clock keeps the ratio and supply limits with every running neighbour (R416). -/
def clockFits (j : Jenjor) (i f : Nat) : Bool :=
  (List.range 29).all fun k =>
    let g := (j.island k).clk
    !neighbours i k || g == 0
      || (f ≤ 4 * g && g ≤ 4 * f && Config.supplyMv f ≤ Config.supplyMv g + 150 && Config.supplyMv g ≤ Config.supplyMv f + 150)

/-- The value nearest to `f` that fits, the lower of two. -/
def nearestClock (j : Jenjor) (i f : Nat) : Nat → Nat → Option Nat
  | 0, _ => none
  | fuel + 1, d =>
    if d ≤ f && j.clockFits i (f - d) then some (f - d)
    else if f + d ≤ maxClock i && j.clockFits i (f + d) then some (f + d)
    else nearestClock j i f fuel (d + 1)

/-- Set an island's clock, clamped under R416; a clamp is counted in ISL_CLAMPS. -/
def setClock (j : Jenjor) (i f : Nat) : Jenjor :=
  if j.clockFits i f then j.mapIsland i fun x => { x with clk := f }
  else
    let j := j.count blkISL (i * 0x20 + 8)
    match j.nearestClock i f 2001 1 with
    | none => j
    | some g => j.mapIsland i fun x => { x with clk := g }

/-- The clock an island runs at when nothing holds it lower (R415). -/
def fullClock (j : Jenjor) (i : Nat) : Nat :=
  let c := (j.island i).ceil
  if c = 0 then maxClock i else min c (maxClock i)

/-- Lower a running island's clock by one 100 MHz step, to no less than `floor`. -/
def stepDown (j : Jenjor) (i floor : Nat) : Jenjor :=
  let x := j.island i
  if x.clk ≤ floor then j else j.setClock i (max floor (x.clk - 100))

/-- Raise an island's clock by one 100 MHz step. -/
def stepUp (j : Jenjor) (i : Nat) : Jenjor :=
  let x := j.island i
  if x.clk = 0 ∨ j.fullClock i ≤ x.clk then j else j.setClock i (min (j.fullClock i) (x.clk + 100))

/-- The floor of a transit island's temperature band (R95); none while it is in no band. -/
def bandFloor (t : Nat) : Option Nat := if 100 < t then some 800 else if 95 < t then some 1200 else none

/-- The temperature lets the clock rise (R95). -/
def coolEnough (x : Island) : Bool := if x.clk < 1200 then x.temp ≤ 97 else x.temp ≤ 92

/-- Compare every ring's capacity with its need (R96). -/
def stretchAll (j : Jenjor) : Jenjor := (List.range 64).foldl (fun j n => j.stretchCheck n) j

/-! ### Sweep memory temperature (R302) -/

/-- MEM_STATE.HOTTEST: spares on standby do not count. -/
def hottest (j : Jenjor) : Nat := (j.mem.chans.filter fun c => c.logical.isSome).foldl (fun t c => max t c.temp) 0

def setBand (j : Jenjor) (b : Nat) : Jenjor := { j with mem := { j.mem with band := b } }

/-! ### Power (R29) -/

/-- Lower every transit island's clock by a step. -/
def lowerTransit (j : Jenjor) : Jenjor := ((List.range 18).foldl (fun j c => j.stepDown (c + 7) 800) j)

/-- Raise every transit island's clock by a step where its temperature lets it. -/
def raiseTransit (j : Jenjor) : Jenjor :=
  (List.range 18).foldl (fun j c => if coolEnough (j.island (c + 7)) then j.stepUp (c + 7) else j) j

/-- Pass start is deferred from here (R177). -/
def deferPasses (j : Jenjor) : Jenjor :=
  (j.count blkCOE 0x2008).mapCtxs (fun c => qTokens c.d && c.phase == .encoding) fun c => { c with deferred := true }

/-- One more load-shedding step (R29); the third is repeated. -/
def shed (j : Jenjor) : Jenjor :=
  let s := min 3 (j.isl.shedStep + 1)
  let first := j.isl.shedStep == 0
  let j : Jenjor := { j with isl := { j.isl with shedStep := s } }
  let j := (j.count blkISL 0x808).info blkISL 0 0x808 s
  let j := if first then j.deferPasses else j
  if s = 3 then j.lowerTransit.stretchAll else j

/-- Undo one step (R29): the third step ends with the transit clocks' last rise. -/
def restoreLoad (j : Jenjor) : Jenjor :=
  if j.isl.shedStep = 3 ∨ j.isl.converterHot then
    let j := j.raiseTransit
    if j.raiseTransit.isl.islands = j.isl.islands then
      { j with isl := { j.isl with shedStep := min j.isl.shedStep 2, converterHot := false } }
    else j
  else { j with isl := { j.isl with shedStep := j.isl.shedStep - 1 } }

end Jenjor

/-! ### The events -/

/-- MEMORY_TEMP_READ (R302): one reading of every channel's device. -/
def execMemoryTempRead (temps : List Nat) (s : State) : Host.Outcome State Fault Refusal :=
  onBlocks (fun j =>
    let set := fun (x : Nat × Chan) => { x.2 with temp := min 255 (temps.getD x.1 x.2.temp) }
    let j : Jenjor := { j with mem := { j.mem with chans := ((List.range j.mem.chans.length).zip j.mem.chans).map set } }
    let t := j.hottest
    let b := if 95 < t then 2 else if 85 < t then 1 else 0
    let j := if j.mem.band < b then (j.setBand b).stretchAll else j
    if 105 < t then ({ j with mem := { j.mem with stopped := true } } : Jenjor).wholeFault blkMEM 0 0xFFFF else j) s

/-- BAND_FALL_TIMEOUT (R302): the hottest device has stayed at least 3 °C below the band's lower edge for 100 ms. -/
def execBandFallTimeout (s : State) : Host.Outcome State Fault Refusal :=
  onBlocks (fun j =>
    if j.mem.band = 2 ∧ j.hottest ≤ 92 then (j.setBand 1).stretchAll
    else if j.mem.band = 1 ∧ j.hottest ≤ 82 then (j.setBand 0).stretchAll
    else j) s

/-- ISLAND_TEMP_READ (R95, R461). -/
def execIslandTempRead (isl temp : Nat) (s : State) : Host.Outcome State Fault Refusal :=
  onUnit (decide (isl < 29)) (onBlocks (fun j =>
    let was := (j.island isl).temp
    let j := j.mapIsland isl fun x => { x with temp := min 255 temp }
    if !transit isl then j
    else
      let j := match bandFloor temp with
        | none => j
        | some f => if bandFloor was != some f && was < temp then (j.stepDown isl f).stretchAll else j
      if 105 < temp then j.retireCluster (isl - 7) else j) s)

/-- CLOCK_STEP_DOWN_TIMER (R95). -/
def execClockStepDownTimer (isl : Nat) (s : State) : Host.Outcome State Fault Refusal :=
  onUnit (decide (isl < 29)) (onBlocks (fun j =>
    match if transit isl then bandFloor (j.island isl).temp else none with
    | none => j
    | some f => (j.stepDown isl f).stretchAll) s)

/-- CLOCK_STEP_UP_TIMER (R95, R417): not while the neighbour rule or load shedding holds the clock. -/
def execClockStepUpTimer (isl : Nat) (s : State) : Host.Outcome State Fault Refusal :=
  onUnit (decide (isl < 29)) (onBlocks (fun j =>
    let x := j.island isl
    let shed := transit isl && (j.isl.shedStep == 3 || j.isl.converterHot)
    if x.neighbourHeld || shed || !coolEnough x then j else j.stepUp isl) s)

/-- NEIGHBOUR_TEMP_CHECK (R417): a pair of running neighbours. -/
def execNeighbourTempCheck (i k : Nat) (s : State) : Host.Outcome State Fault Refusal :=
  onUnit (decide (i < 29) && decide (k < 29)) (onBlocks (fun j =>
    if !neighbours i k || (j.island i).clk = 0 || (j.island k).clk = 0 then j
    else
      let h := if (j.island i).temp < (j.island k).temp then k else i
      let c := if h = i then k else i
      let diff := (j.island h).temp - (j.island c).temp
      let x := j.island h
      if 30 < diff ∨ (x.neighbourHeld ∧ 27 < diff) then
        if x.clk ≤ floorClock h then (if transit h && 30 < diff then j.retireCluster (h - 7) else j)
        else ((j.mapIsland h fun x => { x with neighbourHeld := true }).stepDown h (floorClock h)).stretchAll
      else
        (j.mapIsland h fun x => { x with neighbourHeld := false }).mapIsland c fun x => { x with neighbourHeld := false }) s)

/-- ISLAND_FLOOR_TIMEOUT (R417): 1 s at the floor and still too hot beside a neighbour. -/
def execIslandFloorTimeout (isl : Nat) (s : State) : Host.Outcome State Fault Refusal :=
  onUnit (decide (isl < 29)) (onBlocks (fun j =>
    let x := j.island isl
    let hot := (List.range 29).any fun k => neighbours isl k && (j.island k).temp + 30 < x.temp
    if !transit isl && x.clk ≤ floorClock isl && hot then j.wholeFault blkISL isl 0xFFFF else j) s)

/-- HUB_OVERTEMP_TIMEOUT (R461): a hub island above 110 °C for 1 s. -/
def execHubOvertempTimeout (isl : Nat) (s : State) : Host.Outcome State Fault Refusal :=
  onUnit (decide (isl < 29)) (onBlocks (fun j =>
    if isl < 7 ∧ 110 < (j.island isl).temp then j.wholeFault blkISL isl 0xFFFF else j) s)

/-- COOLANT_WARNING (R460). -/
def execCoolantWarning (inletHot flowLow : Bool) (s : State) : Host.Outcome State Fault Refusal :=
  onBlocks (fun j =>
    let j : Jenjor := { j with isl := { j.isl with inletHot := inletHot, flowLow := flowLow } }
    if inletHot || flowLow then j.info blkISL 0 0xFFFF 0 else j) s

/-- POWER_SAMPLE (R29): input power over 1 ms and its 10 ms average. An average above 1,500 W starts load shedding, and one
at or below 1,480 W ends it. -/
def execPowerSample (watts avg : Nat) (s : State) : Host.Outcome State Fault Refusal :=
  onBlocks (fun j =>
    let on := decide (1500 < avg) || (j.isl.shedding && decide (1480 < avg))
    { j with isl := { j.isl with nowW := watts, avgW := avg, shedding := on } }) s

/-- LOAD_SHED_STEP (R29): a step every 10 ms while load shedding goes on. -/
def execLoadShedStep (s : State) : Host.Outcome State Fault Refusal :=
  onBlocks (fun j => if j.isl.shedding then j.shed else j) s

/-- LOAD_RESTORE_STEP (R29). -/
def execLoadRestoreStep (s : State) : Host.Outcome State Fault Refusal :=
  onBlocks (fun j => if j.isl.avgW < 1400 then j.restoreLoad else j) s

/-- POWER_CONVERTER_OVERTEMP (R461): step 3 of R29, whatever the input power. -/
def execPowerConverterOvertemp (s : State) : Host.Outcome State Fault Refusal :=
  onBlocks (fun j =>
    let j : Jenjor := { j with isl := { j.isl with converterHot := true } }
    ((j.count blkISL 0x808).info blkISL 0 0x808 3).lowerTransit.stretchAll) s

end Sys2Proof.Machine
end

