-- ==== Sys2Proof/Machine/Vault.lean ====
section
/-! DEFINITION. Sys2Proof/Machine/Vault.lean: carriers in and out of service (R325 to R328, R448), vault page reads (R311,
R314, R315), wear and retirement (R322 to R324, R461) and the hold-up bank (R320). -/

namespace Sys2Proof.Machine
open Jenjor

/-- Parity carrier of a vault page's stripe, and the page's own carrier (R311). -/
def pageCarriers (page : Nat) : Nat × Nat :=
  let parity := page / 3 % 4
  (parity, ((List.range 4).filter fun c => c != parity).getD (page % 3) 0)

/-- A carrier whose pages can be read: serving, or finishing its work before it is powered down (R327 steps 1 to 3). -/
def readable (c : Carrier) : Bool := c.state == .serving || c.state == .releasing

/-- Bytewise exclusive-or of two vault pages. -/
def xorPage (a b : List Byte) : List Byte := List.zipWith (· ^^^ ·) a b

/-- The parity page of a stripe's three data pages, over ciphertext (R311, R321). A page is rebuilt from the other three
by the same sum (R314 step 3). -/
def parityPage (a b c : List Byte) : List Byte := xorPage (xorPage a b) c

namespace Jenjor

def carrier? (j : Jenjor) (b : Nat) : Option Carrier := j.vlt.carriers[b]?

def mapCarrier (j : Jenjor) (b : Nat) (f : Carrier → Carrier) : Jenjor :=
  { j with vlt := { j.vlt with carriers := j.vlt.carriers.modify b f } }

/-- Carriers, leaving out bay `b`, that do not serve. -/
def othersDown (j : Jenjor) (b : Nat) : Nat :=
  ((List.range 4).filter fun c => c != b && (j.carrier? c).any fun x => x.state != .serving).length

/-- What follows when a serving carrier has left service (R325, R326, R327 step 2): grants are cut and the Spectrograph
reads no vault page, or with a second carrier gone the vault has failed. -/
def carrierLost (j : Jenjor) (b : Nat) : Jenjor :=
  if !j.vlt.online then j
  else if 0 < j.othersDown b then
    ({ j with vlt := { j.vlt with failed := true } } : Jenjor).wholeFault blkVLT b 0xFFFF
  else
    let j := j.cutGrants
    let waiting := (j.sw.ctxs.filter fun c => onCore c || c.phase == .rerankWait).map fun c => c.id
    waiting.foldl coarseIfDegraded j

/-- A carrier fails (R328): a serving or releasing one leaves at once, a rebuild is abandoned. -/
def failCarrier (j : Jenjor) (b : Nat) : Jenjor :=
  match j.carrier? b with
  | none => j
  | some c =>
    let failed := (j.mapCarrier b fun c => { c with state := .failed, permille := 0 }).fault 3 blkVLT b 0xFFFF 0 0 0
    match c.state with
    | .serving => failed.carrierLost b
    | .releasing => failed
    | .identifying => failed
    | .rebuilding => failed
    | _ => j

/-- Why a release would be refused (R327, R330): 1 another carrier does not serve, 2 the vault is not online. -/
def releaseRefused (j : Jenjor) (b : Nat) : Nat :=
  if !j.vlt.online then 2 else if 0 < j.othersDown b then 1 else 0

/-- A request for release (R327 steps 1 and 2). A refused one sets REFUSE; a carrier already on its way out, or a bay
with no serving carrier, has nothing to release. -/
def requestRelease (j : Jenjor) (b : Nat) : Jenjor :=
  match j.carrier? b with
  | none => j
  | some c =>
    let r := j.releaseRefused b
    if r ≠ 0 then j.mapCarrier b fun c => { c with refuse := r }
    else if c.state != .serving then j
    else
      let j := (j.mapCarrier b fun c => { c with state := .releasing, refuse := 0 }).info blkVLT b 0xFFFF 0
      j.carrierLost b

/-- A bay's registers that are kept on its carrier (R330). -/
def setProgrammed (j : Jenjor) (b n : Nat) : Jenjor :=
  let a := blkBase blkVLT + 0x118 + b * 0x40
  let rest := j.ctrs.filter fun x => x.1 != a
  { j with ctrs := if n % 2 ^ 48 = 0 then rest else (a, { count := BitVec.ofNat 48 n, ovf := false }) :: rest }

/-- A carrier is out of its bay (R327 step 4, R328). -/
def removeCarrier (j : Jenjor) (b : Nat) : Jenjor :=
  match j.carrier? b with
  | none => j
  | some c =>
    let j := (j.mapCarrier b fun _ => emptyCarrier).setProgrammed b 0
    let j : Jenjor := { j with isl := { j.isl with refusedPart := j.isl.refusedPart.set b false } }
    match c.state with
    | .serving => (j.fault 3 blkVLT b 0xFFFF 0 0 0).carrierLost b
    | .releasing => j.fault 3 blkVLT b 0xFFFF 0 0 0
    | .identifying => j.fault 3 blkVLT b 0xFFFF 0 0 0
    | .rebuilding => j.fault 3 blkVLT b 0xFFFF 0 0 0
    | _ => j

/-- A carrier in its bay, as identification finds it (R327 step 5, R330). -/
def carrierOf (st : CarState) (id : CarrierId) : Carrier :=
  { emptyCarrier with state := st, serial := id.serial, wear := min 255 id.wear, spare := min 100 id.spare,
                      retired := id.retired % 2 ^ 32 }

/-- A part is put into an empty bay: a VC16 carrier is rebuilt, any other part is refused. -/
def insertCarrier (j : Jenjor) (b : Nat) (id : CarrierId) : Jenjor :=
  if id.vc16 then (j.mapCarrier b fun _ => carrierOf .rebuilding id).setProgrammed b id.programmed
  else
    let j := j.mapCarrier b fun c => { c with refuse := 3 }
    { j with isl := { j.isl with refusedPart := j.isl.refusedPart.set b true } }

/-- Pages that a carrier's controller programs of its own accord: how many the manual does not say (DESIGN CHOICE, log entry 16). -/
def programFree (j : Jenjor) (b : Nat) : Jenjor :=
  let (i, j) := j.free
  j.bump (blkBase blkVLT + 0x118 + b * 0x40) (Config.freeCount i)

/-- VLT_CAR_STATE.WEAR (R324): percent of the rated programmed bytes. -/
def wearOf (j : Jenjor) (b : Nat) : Nat :=
  let n := (j.counter (blkBase blkVLT + 0x118 + b * 0x40)).count.toNat
  let w := ((j.carrier? b).map fun c => c.wear).getD 0
  min 255 (max w (n * 16384 * 100 / 26388279066624000))

/-- The seeing injector makes every level of this page's read fail (R429 kind 6). -/
def injectsPage (j : Jenjor) (page : Nat) : Bool :=
  j.injects 6 (pageCarriers page).2 0 && j.see.addr.toNat / 16384 == page && j.see.param.getLsbD 0

/-- What the reader of an uncorrectable page does (R315): a slew that was copying a plate loses the plate, and any other
page abandons it (R236). -/
def uncorrectablePage (j : Jenjor) (page : Nat) (by_ : VaultReader) : Jenjor :=
  let log := fun (cls : Nat) (st : BitVec 8) => j.fault cls blkVLT (pageCarriers page).2 0x10 (page * 16384) st 0
  match by_ with
  | .deepField pid => (log 2 Status.plateLost.code).plateLoss pid
  | .restore pid => (log 2 Status.plateLost.code).plateLoss pid
  | .recordPage p => (log 2 0).failRecordPage p
  | .directory _ => log 1 0
  | .journal => (log 2 0).wholeFault blkVLT 0 0x10
  | .slew _ (some pid) => (log 2 Status.plateLost.code).plateLoss pid
  | .slew obj none =>
    match j.cat.slews.find? fun s => s.obj == obj && s.started with
    | none => log 2 0
    | some s => (log 2 0).abandonSlew s

/-- Decode one page of carrier `c` (R314 steps 1 and 2): a page recovered at an alternative level counts in VLT_CAR_CORR.
False when its carrier cannot be read, or every level fails. -/
def decodePage (j : Jenjor) (page c : Nat) (level : Option Nat) : Jenjor × Bool :=
  match if (j.carrier? c).any readable then level.filter (· ≤ 7) else none with
  | none => (j, false)
  | some 0 => (j, true)
  | some _ => ((j.count blkVLT (0x120 + c * 0x40)).fault 1 blkVLT c (0x120 + c * 0x40) (page * 16384) 0 0, true)

/-- Read the stripe's other three pages (R314 step 3), in ascending carrier number. -/
def decodeOthers (j : Jenjor) (page : Nat) (levels : List (Option Nat)) : Jenjor × Bool :=
  let own := (pageCarriers page).2
  let cars := (List.range 4).filter fun k => k != own
  ((List.range 3).zip cars).foldl (fun x ik =>
    let y := x.1.decodePage page ik.2 (levels.getD ik.1 none)
    (y.1, x.2 && y.2)) (j, true)

/-- A vault page read (R314): `level` is the read reference level that decodes the page, 0 the first, none when all
fail; `others`, those of the stripe's other three pages, which step 3 reads. -/
def readPage (j : Jenjor) (page : Nat) (level : Option Nat) (others : List (Option Nat)) (by_ : VaultReader) : Jenjor :=
  let c := (pageCarriers page).2
  let x := j.decodePage page c level
  if x.2 then x.1
  else
    let y := j.decodeOthers page others
    if y.2 then (y.1.count blkVLT (0x128 + c * 0x40)).fault 1 blkVLT c (0x128 + c * 0x40) (page * 16384) 0 0
    else (y.1.count blkVLT 0x10).uncorrectablePage page by_

/-- Writes that wait in the journal buffer reach stage 3 once the hold-up bank is strong again (R318, R320). -/
def bufferCounts (j : Jenjor) : Jenjor :=
  let late := j.wr.journal.filter fun e => j.wr.buffer.contains e.jr.seq && !e.localDurable
  let j := j.mapJournal (fun e => j.wr.buffer.contains e.jr.seq) fun e => { e with localDurable := true }
  let j := if j.mirrored then late.foldl (fun j e => j.sendCpn 0x04 e.jr.seq 0 0 []) j else j
  j.ackReady

end Jenjor

/-! ### The events -/

def bayOk (b : Nat) : Bool := b < 4

/-- CARRIER_RELEASE (R327, R330). -/
def execCarrierRelease (bay : Nat) (s : State) : Host.Outcome State Fault Refusal :=
  onUnit (bayOk bay) (onBlocks (fun j => j.requestRelease bay) s)

/-- MGMT_CARRIER_RELEASE (R327, R392): an operator's command. -/
def execMgmtCarrierRelease (role : Role) (bay : Nat) (s : State) : Host.Outcome State Fault Refusal :=
  onUnit (bayOk bay) (onBlocks (fun j =>
    if role != .operator then j.emit (.mgmt false 0)
    else
      let ok := j.releaseRefused bay == 0
      (j.requestRelease bay).emit (.mgmt ok 0)) s)

/-- ATTENTION_BUTTON (R448): held for at least 1 s; a refused release blinks amber. -/
def execAttentionButton (bay heldMs : Nat) (s : State) : Host.Outcome State Fault Refusal :=
  onUnit (bayOk bay) (onBlocks (fun j =>
    if heldMs < 1000 then j
    else
      let no := j.releaseRefused bay != 0
      let j := j.requestRelease bay
      { j with isl := { j.isl with amberBlink := j.isl.amberBlink.set bay no } }) s)

/-- CARRIER_SAFE_TO_REMOVE (R327 step 3). -/
def execCarrierSafeToRemove (bay : Nat) (s : State) : Host.Outcome State Fault Refusal :=
  onUnit (bayOk bay) (onBlocks (fun j =>
    if (j.carrier? bay).any fun c => c.state == .releasing then j.mapCarrier bay fun c => { c with state := .safeToRemove } else j) s)

/-- CARRIER_REMOVAL (R327 step 4, R328). -/
def execCarrierRemoval (bay : Nat) (s : State) : Host.Outcome State Fault Refusal :=
  onUnit (bayOk bay) (onBlocks (fun j => j.removeCarrier bay) s)

/-- CARRIER_INSERTION (R327 step 5, R328): into a bay that is not empty, a removal without release and then an
insertion. Before the vault starts, the bay is read at step 6 of the start (R329). -/
def execCarrierInsertion (bay : Nat) (id : CarrierId) (s : State) : Host.Outcome State Fault Refusal :=
  onUnit (bayOk bay) (onBlocks (fun j =>
    if !j.vlt.online then j
    else
      let there := (j.carrier? bay).any fun c => c.state != .empty
      let j := if there then (j.removeCarrier bay).info blkVLT bay 0xFFFF 0 else j.removeCarrier bay
      j.insertCarrier bay id) s)

/-- CARRIER_FAILURE (R328). -/
def execCarrierFailure (bay : Nat) (s : State) : Host.Outcome State Fault Refusal :=
  onUnit (bayOk bay) (onBlocks (fun j => j.failCarrier bay) s)

/-- CARRIER_REBUILD_COMPLETE (R327 steps 6 and 7): deep-field grants rise at each ring's next boundary. -/
def execCarrierRebuildComplete (bay : Nat) (s : State) : Host.Outcome State Fault Refusal :=
  onUnit (bayOk bay) (onBlocks (fun j =>
    if (j.carrier? bay).any (fun c => c.state == .rebuilding) && !j.vlt.failed then
      (j.mapCarrier bay fun c => { c with state := .serving, permille := 1000 }).programFree bay
    else j) s)

/-- VAULT_PAGE_READ (R314): a page of the vault data address space (R311). -/
def execVaultPageRead (page : Nat) (level : Option Nat) (others : List (Option Nat)) (by_ : VaultReader) (s : State) :
    Host.Outcome State Fault Refusal :=
  onUnit (decide (page < 3221225472) && others.length == 3) (onBlocks (fun j =>
    if j.injectsPage page then j.injecting 6 (pageCarriers page).2 0 fun j => j.readPage page none others by_
    else j.readPage page level others by_) s)

/-- BLOCK_RETIRE (R322): its valid pages are moved first; `sparePct` is what is left of the replacement blocks. -/
def execBlockRetire (bay : Nat) (sparePct : Nat) (s : State) : Host.Outcome State Fault Refusal :=
  onUnit (bayOk bay) (onBlocks (fun j =>
    match j.carrier? bay with
    | none => j
    | some c =>
      if !(readable c || c.state == .rebuilding) then j
      else
        let pct := min 100 sparePct
        let j := j.mapCarrier bay fun c => { c with retired := (c.retired + 1) % 2 ^ 32, spare := pct }
        let j := (j.programFree bay).fault 3 blkVLT bay 0x114 0 0 0
        let j := if pct ≤ 10 ∧ 10 < c.spare then j.info blkVLT bay 0x114 0 else j
        if pct = 0 then j.failCarrier bay else j) s)

/-- ONFI_CHANNEL_RETRAIN (R323): a channel whose errors persist after three retrainings is retired, its pages rebuilt
onto the other channels where there is space. -/
def execOnfiChannelRetrain (bay chan : Nat) (fixed space : Bool) (s : State) : Host.Outcome State Fault Refusal :=
  onUnit (bayOk bay && decide (chan < 8)) (onBlocks (fun j =>
    match j.carrier? bay with
    | none => j
    | some c =>
      if !readable c || c.chansRetired.contains chan then j
      else
        let j := j.fault 1 blkVLT bay 0xFFFF 0 0 0
        if fixed then j.mapCarrier bay fun c => { c with retrains := c.retrains.filter (· != chan) }
        else if c.retrains.count chan < 2 then j.mapCarrier bay fun c => { c with retrains := chan :: c.retrains }
        else
          let j := (j.mapCarrier bay fun c => { c with retrains := c.retrains.filter (· != chan) })
          if space then
            ((j.mapCarrier bay fun c => { c with chansRetired := chan :: c.chansRetired }).fault 3 blkVLT bay 0xFFFF 0 0 0).cutGrants
          else j.failCarrier bay) s)

/-- CARRIER_OVERTEMP (R461): above 75 °C its programs are paced, above 85 °C it fails. -/
def execCarrierOvertemp (bay temp : Nat) (s : State) : Host.Outcome State Fault Refusal :=
  onUnit (bayOk bay) (onBlocks (fun j =>
    let j := j.mapCarrier bay fun c => { c with temp := temp }
    if 85 < temp then j.failCarrier bay else j) s)

/-- HOLDUP_MEASURE (R320): `enough` is at least twice what a full-buffer flush needs. -/
def execHoldupMeasure (enough : Bool) (s : State) : Host.Outcome State Fault Refusal :=
  onBlocks (fun j =>
    let j : Jenjor := { j with vlt := { j.vlt with holdupWeak := !enough } }
    if enough then j.bufferCounts else j.info blkVLT 0 0xFFFF 0) s

end Sys2Proof.Machine
end

