-- ==== Sys2Proof/Machine/Links.lean ====
section
/-! DEFINITION. Sys2Proof/Machine/Links.lean: the PCIe endpoint (R331 to R339, R458), Ethernet ports (R341, R342, R346)
and RoCEv2 queue pairs with their connection management (R343 to R346). -/

namespace Sys2Proof.Machine
open Jenjor

namespace Jenjor

/-! ### PCIe -/

/-- Every RW field at its reset value (R434). -/
def resetRW (j : Jenjor) : Jenjor :=
  { j with
      qs := { j.qs with aqSqBase := 0, aqCqBase := 0, aqSqDepth := 0, aqCqDepth := 0, aqVector := 0, aqEnable := false,
                        windowBase := 0, halves := [], latch := none },
      log := { j.log with window := 0, errEn := false, errVector := 0 },
      see := resetSeeing,
      mem := { j.mem with chans := j.mem.chans.map fun c => { c with pattern := 0, loop := false } } }

/-- The PCIe queues that an event of R334 deletes. -/
def pcieQueues (j : Jenjor) : List Queue := j.qs.queues.filter fun q => !q.roce && q.num != 0

/-- An event of R334: PCIe queues go, queue 0 is as after reset, and nothing else is disturbed. -/
def pcieReset (j : Jenjor) (down perst : Bool) : Jenjor :=
  let j : Jenjor := { j with lnk := { j.lnk with resets := j.lnk.resets + 1, doePending := false,
                                                 perstHigh := j.lnk.perstHigh && !perst,
                                                 endpointUp := j.lnk.endpointUp && !perst } }
  let j : Jenjor := if down then
      { j with lnk := { j.lnk with pcieDown := true, width := 0, speed := 0, flit := false, degraded := false } }
    else j
  let j := (j.count blkLNK 8).info blkLNK 0 8 0
  let gone := j.pcieQueues
  let j := gone.foldl (fun j q => (j.mapQueue q.num fun x => { x with deleting := true, orphan := true }).abortUnboarded q.num) j
  let j := j.mapQueue 0 fun _ => queueZero
  let j : Jenjor := { j with qs := { j.qs with msix := [], heldDoorbells := [], aqReady := false, aqError := false } }
  (j.reapQueues (j.qs.queues.length + 1)).resetRW

/-- The endpoint leaves reset at the later of the rise of PERST# and the end of start-up step 4 (R458). -/
def raiseEndpoint (j : Jenjor) : Jenjor :=
  { j with lnk := { j.lnk with endpointUp := j.lnk.perstHigh && 5 ≤ j.alm.step } }

/-- The DOE protocols, in the order that discovery lists them (R339). -/
def doeProtocols : List (Nat × Nat) := [(1, 0), (1, 1), (1, 2)]

/-! ### Queue pairs (R343 to R346) -/

/-- Line rate of a port in Mb/s. -/
def lineRate (j : Jenjor) (port : Nat) : Nat :=
  if ((j.lnk.ports[port]?).map fun p => p.speed).getD 0 = 1 then 400000 else 800000

/-- A queue pair enters the error state (R346). -/
def qpError (j : Jenjor) (n : Nat) : Jenjor :=
  match j.qp? n with
  | none => j
  | some p =>
    if p.state = .error then j
    else
      let j := (j.mapQp n fun p => { p with state := .error, connector := none }).count blkLNK (0x120 + p.port * 0x80)
      let j := j.info blkLNK n (0x120 + p.port * 0x80) 0
      let j := (j.qs.queues.filter fun q => q.roce && q.qpn == n).foldl (fun j q => j.queueFault q.num 6) j
      let j := (j.qs.waits.filter fun w => !w.flush && w.qpn == n).foldl (fun j w => j.releaseWaiting w false) j
      let j := match p.connector with
        | none => j
        | some (c, _) => j.refuse c .deliveryFailed
      { j with lnk := { j.lnk with qps := j.lnk.qps.filter fun x => !(x.num == n && x.bound.isEmpty) } }

/-- The lowest free queue pair number (R344). -/
def freeQpn (j : Jenjor) : Nat := lowestFree (j.lnk.qps.map fun p => p.num) (j.lnk.qps.length + 1) 0x100

/-- A new queue pair. -/
def newQp (j : Jenjor) (port mtu : Nat) (st : QpState) : Qp :=
  { num := j.freeQpn, port := port, state := st, bound := [], mtu := mtu, route := false, mergeIn := false, rtuAt := 0,
    psn := 0, unacked := 0, retries := 0, rateMbps := j.lineRate port, lastCnp := none, connector := none }

def addQp (j : Jenjor) (p : Qp) : Jenjor := { j with lnk := { j.lnk with qps := j.lnk.qps ++ [p] } }

/-- Big-endian bits of an address (the first octet sent is the most significant). -/
def addrBits (bs : List Byte) : List Bool := bs.flatMap fun b => (List.range 8).map fun i => b.getLsbD (7 - i)

/-- A source address lies in a permitted prefix (R344). -/
def permitted (j : Jenjor) (src : List Byte) : Bool :=
  j.alm.net.prefixes.any fun p => p.1.length == src.length && (addrBits p.1).take p.2 == (addrBits src).take p.2

def portMtu (j : Jenjor) (port : Nat) : Nat := j.alm.net.mtu.getD port 0

/-- A path MTU that R343 allows. -/
def mtuOk (j : Jenjor) (port mtu : Nat) : Bool := [1024, 2048, 4096].contains mtu && mtu ≤ j.portMtu port

/-- Why a REQ is rejected, by the row of R344's table; none when a REP answers it. -/
def reqRejected (j : Jenjor) (port : Nat) (src : List Byte) (rc : Bool) (mtu : Nat) : Option Nat :=
  if !j.permitted src then some 1
  else if 4096 ≤ j.lnk.qps.length then some 2
  else if !rc then some 3
  else if !j.mtuOk port mtu then some 4
  else none

/-- The address is one of the port's own (R341). -/
def ownAddress (j : Jenjor) (port : Nat) (ip : List Byte) (v4 : Bool) : Bool :=
  ip.length == (if v4 then 4 else 16) && (if v4 then j.alm.net.portIpv4 else j.alm.net.portIpv6).getD port [] == ip

/-- MAC address of a port, first octet first (R341, R437). -/
def portMac (j : Jenjor) (port : Nat) : List Byte := (leBytes 6 (j.dom.mac.toNat + 1 + port)).reverse

def dropFrame (j : Jenjor) (port : Nat) : Jenjor := j.count blkLNK (0x108 + port * 0x80)

/-- Answer a frame for one of the port's addresses; any other is dropped (R342). -/
def answerFrame (j : Jenjor) (port kind : Nat) (own : Bool) (data : List Byte) : Jenjor :=
  if own then j.emit (.ethFrame port kind data) else j.dropFrame port

/-- The queue whose ring and staging area a remote key opens on a queue pair (R263). -/
def keyedQueue (j : Jenjor) (qpn : Nat) (rkey : BitVec 32) : Option Queue :=
  j.qs.queues.find? fun q => q.roce && q.kind != 4 && q.qpn == qpn && q.rkey == rkey

/-- `n` bytes at a module-side address lie within a queue's remote key (R263). -/
def inRing (q : Queue) (addr n : Nat) : Bool :=
  Config.poolBase + q.ringAddr ≤ addr
    && addr + n ≤ Config.poolBase + q.ringAddr + Machine.stagingOffset q.sqDepth + q.stagingBytes

/-- A request that the queue pair refuses: a NAK, then the error state (R343, R346). Syndrome 1 is Invalid Request, 2
Remote Access Error. -/
def refuseRequest (j : Jenjor) (qpn syndrome : Nat) : Jenjor :=
  if j.qpAlive qpn then (j.emit (.nak qpn syndrome)).qpError qpn else j

/-- A write into a ring or staging area clears the poison of the code words that it covers whole (R305). -/
def clearRingPoison (j : Jenjor) (q a n : Nat) : Jenjor :=
  let stays := fun (p : Nat × PoolObject) => !(p.2 == .queueRing q && a ≤ p.1 * 64 && p.1 * 64 + 64 ≤ a + n)
  { j with mem := { j.mem with poison := j.mem.poison.filter stays } }

/-- Acknowledgement up to a packet: what waits for it completes (R286). -/
def acknowledge (j : Jenjor) (qpn psn : Nat) : Jenjor :=
  let done := j.qs.waits.filter fun w => !w.flush && w.qpn == qpn && (psn + 2 ^ 24 - w.psn) % 2 ^ 24 < 2 ^ 23
  let j := j.mapQp qpn fun p => { p with unacked := (psn + 1) % 2 ^ 24, retries := 0 }
  done.foldl (fun j w => j.releaseWaiting w true) j

end Jenjor

def portOk (p : Nat) : Bool := p < 2

/-! ### PCIe events -/

/-- PCIE_RESET (R334). -/
def execPcieReset (kind : PcieResetKind) (s : State) : Host.Outcome State Fault Refusal :=
  if s.j.live then
    onBlocks (fun j =>
      match kind with
      | .flr => j.pcieReset false false
      | .d3hotToD0 => j.pcieReset false false
      | .perst => j.pcieReset true true
      | .linkDown => j.pcieReset true false) s
  else if kind = .perst then .next { s with j := { s.j with lnk := { s.j.lnk with perstHigh := false } } }
  else .next s

/-- PERST_RELEASE (R458). -/
def execPerstRelease (s : State) : Host.Outcome State Fault Refusal :=
  .next { s with j := ({ s.j with lnk := { s.j.lnk with perstHigh := true } } : Jenjor).raiseEndpoint }

/-- PCIE_LINK_TRAINED (R332, R347). -/
def execPcieLinkTrained (width speed : Nat) (flit : Bool) (s : State) : Host.Outcome State Fault Refusal :=
  onUnit ([1, 2, 4, 8, 16].contains width && decide (1 ≤ speed) && decide (speed ≤ 6)) (onBlocks (fun j =>
    let low := decide (width < 16) || decide (speed < 6)
    let j : Jenjor := { j with lnk := { j.lnk with pcieDown := false, width := width, speed := speed, flit := flit, degraded := low } }
    if low then j.info blkLNK 0 0xFFFF 0 else j) s)

/-- PCIE_COMPLETION_TIMEOUT (R338): of a descriptor read, or of the operand read of a command. -/
def execPcieCompletionTimeout (q : Nat) (cid : Option (BitVec 16)) (s : State) : Host.Outcome State Fault Refusal :=
  onBlocks (fun j =>
    if (j.queue? q).all fun x => x.roce then j
    else
      let j := (j.queueFault q 3).emit (.aer 1)
      match cid.bind fun c => j.qs.fetched.find? fun f => f.ref.q == q && f.ref.cid == c && f.ref.tag.isNone with
      | none => j
      | some f => ({ j with qs := { j.qs with fetched := j.qs.fetched.erase f } } : Jenjor).refuse f.ref .deliveryFailed) s

/-- PCIE_POISONED_TLP (R338). -/
def execPciePoisonedTlp (q : Nat) (s : State) : Host.Outcome State Fault Refusal :=
  onBlocks (fun j => if (j.queue? q).all fun x => x.roce then j else (j.queueFault q 3).emit (.aer 2)) s

/-- PCIE_ERROR_TLP (R338): logged, reported, discarded. A CQ address that faults loses the completion written there (R287). -/
def execPcieErrorTlp (kind : TlpError) (s : State) : Host.Outcome State Fault Refusal :=
  onBlocks (fun j =>
    let report := fun (k : Nat) => (j.info blkLNK 0 0xFFFF 0).emit (.aer k)
    match kind with
    | .malformed => report 3
    | .unexpectedCompletion => report 4
    | .ecrc => report 5
    | .cqFault q cid =>
      if (j.queue? q).all fun x => x.roce then j
      else ((j.queueFault q 5).record 5 blkLNK q 0xFFFF 0 0 (cid.setWidth 256)).emit (.aer 7)) s

/-- PCIE_CORRECTABLE_ERROR (R338). -/
def execPcieCorrectableError (s : State) : Host.Outcome State Fault Refusal := onBlocks (fun j => j.emit (.aer 6)) s

/-- DOE_DISCOVERY (R339): vendor, type and the next index; an index past the list names no protocol. -/
def execDoeDiscovery (idx : Nat) (s : State) : Host.Outcome State Fault Refusal :=
  onBlocks (fun j =>
    let answer := match doeProtocols[idx]? with
      | some (v, t) => v + t * 2 ^ 16 + (if idx < 2 then (idx + 1) * 2 ^ 24 else 0)
      | none => 0xFFFF
    ({ j with lnk := { j.lnk with doePending := true } } : Jenjor).emit (.doe (leBytes 4 answer))) s

/-- DOE_ABORT (R339). -/
def execDoeAbort (s : State) : Host.Outcome State Fault Refusal :=
  onBlocks (fun j => { j with lnk := { j.lnk with doePending := false } }) s

/-- DOE_OTHER_PROTOCOL (R339): a protocol of the list is not another one. -/
def execDoeOtherProtocol (vendor ty : Nat) (s : State) : Host.Outcome State Fault Refusal :=
  onBlocks (fun j => if doeProtocols.contains (vendor, ty) then j else j.discard vendor ty) s

/-! ### Ethernet events -/

/-- ARP_REQUEST (R342). -/
def execArpRequest (port : Nat) (ip : List Byte) (s : State) : Host.Outcome State Fault Refusal :=
  onUnit (portOk port) (onBlocks (fun j => j.answerFrame port 0 (j.ownAddress port ip true) (ip ++ j.portMac port)) s)

/-- NEIGHBOUR_SOLICITATION (R342). -/
def execNeighbourSolicitation (port : Nat) (ip : List Byte) (s : State) : Host.Outcome State Fault Refusal :=
  onUnit (portOk port) (onBlocks (fun j => j.answerFrame port 1 (j.ownAddress port ip false) (ip ++ j.portMac port)) s)

/-- ICMP_ECHO (R342). -/
def execIcmpEcho (port : Nat) (ip : List Byte) (data : List Byte) (s : State) : Host.Outcome State Fault Refusal :=
  onUnit (portOk port) (onBlocks (fun j =>
    j.answerFrame port 2 (j.ownAddress port ip true || j.ownAddress port ip false) (ip ++ data)) s)

/-- ETH_FRAME_DROPPED (R342). -/
def execEthFrameDropped (port : Nat) (s : State) : Host.Outcome State Fault Refusal :=
  onUnit (portOk port) (onBlocks (fun j => j.dropFrame port) s)

/-- ETH_LINK_DOWN (R346): the queue pairs stay. -/
def execEthLinkDown (port : Nat) (s : State) : Host.Outcome State Fault Refusal :=
  onUnit (portOk port) (onBlocks (fun j =>
    { j with lnk := { j.lnk with ports := j.lnk.ports.set port { up := false, speed := 0 } } }) s)

/-- ETH_LINK_UP (R342): `speed` is the code of LNK_ETH_STATE, 1 or 2. -/
def execEthLinkUp (port : Nat) (speed : Nat) (s : State) : Host.Outcome State Fault Refusal :=
  onUnit (portOk port && (speed == 1 || speed == 2)) (onBlocks (fun j =>
    { j with lnk := { j.lnk with ports := j.lnk.ports.set port { up := true, speed := speed } } }) s)

/-! ### RoCEv2 events -/

/-- RDMA_WRITE (R343): into a ring or staging area under its remote key. A zero-length write changes no byte, and the rims
take none once sweep memory has stopped (R302). -/
def execRdmaWrite (qpn : Nat) (rkey : BitVec 32) (addr : Nat) (data : List Byte) (s : State) :
    Host.Outcome State Fault Refusal :=
  onPool (fun _ rmem j =>
    if !j.qpAlive qpn || data.isEmpty then (rmem, j)
    else
      match j.keyedQueue qpn rkey with
      | none => (rmem, j.refuseRequest qpn 2)
      | some q =>
        if !inRing q addr data.length then (rmem, j.refuseRequest qpn 2)
        else if j.mem.stopped then (rmem, j)
        else
          let a := addr - Config.poolBase
          (Memory.writeBytes rmem a data, j.clearRingPoison q.num a data.length)) s

/-- ROCE_REFUSED_REQUEST (R343). -/
def execRoceRefusedRequest (qpn : Nat) (kind : RefusedReq) (s : State) : Host.Outcome State Fault Refusal :=
  onBlocks (fun j => j.refuseRequest qpn (if kind = .outOfRange then 2 else 1)) s

/-- ROCE_ACK (R286). -/
def execRoceAck (qpn psn : Nat) (s : State) : Host.Outcome State Fault Refusal :=
  onBlocks (fun j => if j.qpAlive qpn then j.acknowledge qpn psn else j) s

/-- ROCE_NAK (R346): other than sequence error. -/
def execRoceNak (qpn : Nat) (s : State) : Host.Outcome State Fault Refusal :=
  onBlocks (fun j => if j.qpAlive qpn then j.qpError qpn else j) s

/-- ROCE_ACK_TIMEOUT (R345): a retransmission, or the error state once the Almanac's retries are used. -/
def execRoceAckTimeout (qpn : Nat) (s : State) : Host.Outcome State Fault Refusal :=
  onBlocks (fun j =>
    match j.qp? qpn with
    | none => j
    | some p =>
      if p.state != .established || p.unacked = p.psn then j
      else if j.alm.net.retryCount ≤ p.retries then j.qpError qpn
      else
        let j := (j.mapQp qpn fun p => { p with retries := p.retries + 1 }).count blkLNK (0x118 + p.port * 0x80)
        j.emit (.roceRetransmit qpn p.unacked)) s

/-- ECN_MARKED_PACKET (R343): at most one CNP per 50 µs. -/
def execEcnMarkedPacket (qpn : Nat) (s : State) : Host.Outcome State Fault Refusal :=
  onBlocks (fun j =>
    match j.qp? qpn with
    | none => j
    | some p =>
      if p.lastCnp.all fun t => t + 50000 ≤ j.time then
        ((j.mapQp qpn fun p => { p with lastCnp := some j.time }).emit (.cnp qpn)).count blkLNK (0x128 + p.port * 0x80)
      else j) s

/-- CNP_RECEIVED (R343): the send rate halves, to no lower than 1 Gb/s. -/
def execCnpReceived (qpn : Nat) (s : State) : Host.Outcome State Fault Refusal :=
  onBlocks (fun j => j.mapQp qpn fun p => { p with rateMbps := max 1000 (p.rateMbps / 2) }) s

/-- RATE_INCREASE_TIMER (R343): 5 % of line rate. -/
def execRateIncreaseTimer (qpn : Nat) (s : State) : Host.Outcome State Fault Refusal :=
  onBlocks (fun j => j.mapQp qpn fun p =>
    { p with rateMbps := min (j.lineRate p.port) (p.rateMbps + j.lineRate p.port / 20) }) s

/-- CM_REQ (R344): to the merge service, the queue pair is an inbound merge route at once (R363). -/
def execCmReq (port : Nat) (src : List Byte) (rc : Bool) (mtu : Nat) (mergeSvc : Bool) (s : State) :
    Host.Outcome State Fault Refusal :=
  onUnit (portOk port) (onBlocks (fun j =>
    match j.reqRejected port src rc mtu with
    | some why => (j.count blkLNK (0x110 + port * 0x80)).emit (.cmMessage port 3 why)
    | none =>
      let p : Qp := { j.newQp port mtu .setup with mergeIn := mergeSvc }
      (j.addQp p).emit (.cmMessage port 2 p.num)) s)

/-- CM_RTU (R344). -/
def execCmRtu (qpn : Nat) (s : State) : Host.Outcome State Fault Refusal :=
  onBlocks (fun j => j.mapQp qpn fun p =>
    if p.state = .setup && p.connector.isNone then { p with state := .established, rtuAt := j.time } else p) s

/-- CM_DREQ (R346): the client disconnects. -/
def execCmDreq (qpn : Nat) (s : State) : Host.Outcome State Fault Refusal :=
  onBlocks (fun j =>
    match j.qp? qpn with
    | none => j
    | some p => (j.emit (.cmMessage p.port 6 qpn)).qpError qpn) s

/-- QP_BIND_TIMEOUT (R344): established and bound to no queue for 10 s; merge routes are exempt (R363). -/
def execQpBindTimeout (qpn : Nat) (s : State) : Host.Outcome State Fault Refusal :=
  onBlocks (fun j =>
    match j.qp? qpn with
    | none => j
    | some p =>
      if p.state = .established && p.bound.isEmpty && !p.mergeIn && !p.route then
        ({ j with lnk := { j.lnk with qps := j.lnk.qps.filter fun x => x.num != qpn } } : Jenjor).emit (.cmMessage p.port 5 qpn)
      else j) s

end Sys2Proof.Machine
end

