-- ==== Sys2Proof/Machine/Merge.lean ====
section
/-! DEFINITION. Sys2Proof/Machine/Merge.lean: merge routes (R363) and shard merge (R363 to R367): ROUTE_CONNECT,
SHARD_LIST_DEFINE, SHARD_LIST_DELETE, MERGE_QUERY, and the arrivals and times that end them. -/

namespace Sys2Proof.Machine
open Jenjor

/-! ### Records of shards (R280 to R282, R365) -/

def recCount (bs : List Byte) : Nat := fieldAt bs 0 2
def recFlags (bs : List Byte) : Nat := fieldAt bs 2 2
def recLength (bs : List Byte) : Nat := fieldAt bs 4 4
def recMu (bs : List Byte) : F32 := wordAt bs 0x0C
def recConst (bs : List Byte) : F32 := wordAt bs 0x10

/-- Entry `i` of a record: key word, user key, entry flags. -/
def recEntry (bs : List Byte) (i : Nat) : KeyWord × BitVec 64 × Nat :=
  (BitVec.ofNat 48 (fieldAt bs (40 + 16 * i) 6), BitVec.ofNat 64 (fieldAt bs (32 + 16 * i) 8), fieldAt bs (46 + 16 * i) 2)

/-- Bytes of a merge slot (R364). -/
def slotBytes (kMax : Nat) : Nat := (32 + 16 * kMax + 63) / 64 * 64

/-- What R365 asks of a record that begins at a slot's start. -/
def recordValid (l : ShardList) (bs : List Byte) : Bool :=
  32 ≤ bs.length && bs.length ≤ l.slot && recLength bs == 32 + 16 * recCount bs && recLength bs ≤ bs.length
    && recCount bs ≤ l.kMax && !(recFlags bs).testBit 7 && (recFlags bs).testBit 9 == l.fp32
    && (List.range (recCount bs)).all fun i => !(recEntry bs i).2.2.testBit 15

/-- The shards whose slot of a ticket holds a tag, ascending. -/
def tagged (l : ShardList) (ticket : Nat) (tag : BitVec 16) : List (Nat × List Byte) :=
  (List.range l.count).filterMap fun i =>
    (l.slots.find? fun s => s.1 == ticket && s.2.1 == i && s.2.2.1 == tag).map fun s => (i, s.2.2.2)

/-- The shards present (R365): with integer keys, those of the same μ as the lowest-numbered. -/
def present (l : ShardList) (ticket : Nat) (tag : BitVec 16) : List (Nat × List Byte) :=
  match tagged l ticket tag with
  | [] => []
  | x :: xs => x :: xs.filter fun y => l.fp32 || recMu y.2 == recMu x.2

/-- A merged entry: key word, user key, entry flags of its shard, shard number. -/
structure Merged where
  key : KeyWord
  user : BitVec 64
  flags : Nat
  shard : Nat
  deriving DecidableEq, Repr

/-- The order of R366: R131, then ascending shard number. -/
def mergedBefore (fp : Bool) (a b : Merged) : Bool :=
  ranksBefore fp (a.key, a.user) (b.key, b.user)
    || (!ranksBefore fp (b.key, b.user) (a.key, a.user) && a.shard < b.shard)

/-- The first `k` entries of all present shards. The order is total, so the fixed tree of R366 gives these. -/
def mergeEntries (fp : Bool) (k : Nat) (rs : List (Nat × List Byte)) : List Merged :=
  let all := rs.flatMap fun r => (List.range (recCount r.2)).map fun i =>
    let e := recEntry r.2 i
    ({ key := e.1, user := e.2.1, flags := e.2.2, shard := r.1 } : Merged)
  (sortBy (fun a b => !mergedBefore fp b a) all).take k

/-- The missing-shard mask (R283). -/
def missingMask (count : Nat) (here : List Nat) : List Byte :=
  (List.range 512).map fun b =>
    BitVec.ofNat 8 (natSum ((List.range 8).map fun i =>
      if 8 * b + i < count && !here.contains (8 * b + i) then 2 ^ i else 0))

/-- The flags of a merged record (R367). -/
def mergedFlags (rs : List (Nat × List Byte)) (missing : Bool) : Nat :=
  (rs.foldl (fun f r => f ||| recFlags r.2) 0) ||| 0x80 ||| (if missing then 2 else 0)

/-- The merged record (R367), given the μ and C of its header. -/
def mergedRecord (l : ShardList) (k : Nat) (rs : List (Nat × List Byte)) (mu const : F32) : List Byte :=
  let es := mergeEntries l.fp32 k rs
  let sum := fun (off n cap : Nat) => min cap (natSum (rs.map fun r => fieldAt r.2 off n))
  resultHeader es.length (mergedFlags rs (rs.length < l.count)) (32 + 16 * es.length + 512) (sum 8 4 0xFFFFFFFF) mu const
      (sum 0x14 5 (2 ^ 40 - 1)) (sum 0x19 5 (2 ^ 40 - 1))
    ++ es.flatMap (fun e => resultEntry e.user e.key false (e.flags.testBit 14) (e.flags.testBit 13) e.shard)
    ++ missingMask l.count (rs.map fun r => r.1)

namespace Jenjor

def list? (j : Jenjor) (n : Nat) : Option ShardList := j.cpn.lists.find? fun l => l.num == n

def mapList (j : Jenjor) (n : Nat) (f : ShardList → ShardList) : Jenjor :=
  { j with cpn := { j.cpn with lists := updWhere (fun l => l.num == n) f j.cpn.lists } }

/-- A free 32-bit word (DESIGN CHOICE, log entry 8): what the manual leaves unstated. -/
def freeWord (j : Jenjor) : F32 × Jenjor :=
  let (i, j) := j.free
  (BitVec.ofNat 32 (Config.freeCount i), j)

/-- A deleted list whose merges have ended discards what is written to it, and its SHARD_LIST_DELETEs complete (R363). -/
def settleList (j : Jenjor) (n : Nat) : Jenjor :=
  match j.list? n with
  | none => j
  | some l =>
    if !l.deleting || l.discarding || j.cpn.merges.any fun m => m.list == n then j
    else
      l.deleters.foldl (fun j c => j.complete c .success 0 0 none)
        (j.mapList n fun l => { l with discarding := true, deleters := [], slots := [] })

/-- Merge what is present and answer (R366, R367). Records of another μ are counted. -/
def finishMerge (j : Jenjor) (l : ShardList) (m : MergeOpen) : Jenjor :=
  let rs := present l m.ticket m.tag
  let odd := (tagged l m.ticket m.tag).length - rs.length
  let j := if odd = 0 then j else j.bump (blkBase blkCPN + 0x130) odd
  let j : Jenjor := { j with cpn := { j.cpn with merges := j.cpn.merges.filter fun x => x != m } }
  let (mu, const, j) := match rs with
    | r :: _ => (recMu r.2, recConst r.2, j)
    | [] =>
      let (a, j) := j.freeWord
      let (b, j) := j.freeWord
      (a, b, j)
  let bs := mergedRecord l m.k rs mu const
  let f := recFlags bs
  let (id, j) := j.newId
  let j := j.deliverThen id m.ref m.route m.addr m.rkey bs
    (resultStatus (f.testBit 4) (f.testBit 0) (f.testBit 1) (f.testBit 2) (f.testBit 3)) (BitVec.ofNat 64 rs.length) 0
    (some bs.length)
  j.settleList l.num

/-- Answer the open query of a ticket once every shard is present. -/
def checkMerge (j : Jenjor) (list ticket : Nat) : Jenjor :=
  match j.list? list, j.cpn.merges.find? fun m => m.list == list && m.ticket == ticket with
  | some l, some m => if (present l ticket m.tag).length = l.count then j.finishMerge l m else j
  | _, _ => j

/-! ### The commands -/

def listChecks (j : Jenjor) (d : Desc) : List (Bool × Status) :=
  let s := dField d 0x0A 2
  let k := dField d 0x0C 2
  let t := dField d 0x0E 2
  [ ((j.list? (dField d 8 1)).isSome, .idInUse),
    (s == 0 || 4096 < s || k == 0 || 1024 < k || t == 0 || 256 < t, .parameterInvalid),
    (j.keyGone, .keyWithdrawn) ]

/-- Carry out a SHARD_LIST_DEFINE, or one more attempt at its allocation (R245). -/
def defineList (j : Jenjor) (f : Fetched) (since : Nat) : Jenjor :=
  let d := f.d
  match firstStatus (j.listChecks d) with
  | some st => j.refuse f.ref st
  | none =>
    let slot := slotBytes (dField d 0x0C 2)
    let bytes := dField d 0x0E 2 * dField d 0x0A 2 * slot
    match j.allocate (pagesOf bytes) [] with
    | .limit => j.refuse f.ref .limitReached
    | .wait b j => j.park (.shardList f) since b
    | .granted j =>
      let rk := Config.remoteKey j.qs.nextRkey.toNat
      let l : ShardList :=
        { num := dField d 8 1, count := dField d 0x0A 2, kMax := dField d 0x0C 2, tickets := dField d 0x0E 2,
          fp32 := dField d 0x10 1 == 2, base := j.qs.nextRing, slot := slot, rkey := rk, pages := pagesOf bytes,
          deleting := false, discarding := false, deleters := [], slots := [] }
      let j : Jenjor := { j with qs := { j.qs with nextRing := j.qs.nextRing + bytes, nextRkey := j.qs.nextRkey + 1 },
                                 cpn := { j.cpn with lists := j.cpn.lists ++ [l] } }
      j.complete f.ref .success (BitVec.ofNat 64 (Config.poolBase + l.base)) (BitVec.ofNat 64 (slot * 2 ^ 32 + rk.toNat)) none

/-- A list that commands may name. -/
def openList (j : Jenjor) (n : Nat) : Option ShardList := (j.list? n).bind fun l => if l.deleting then none else some l

def mergeChecks (j : Jenjor) (d : Desc) : List (Bool × Status) :=
  match j.openList (dField d 8 1) with
  | none => [(true, .parameterInvalid)]
  | some l =>
    let k := dField d 0x0C 2
    [ (j.cpn.merges.any (fun m => m.list == l.num && m.ticket == dField d 9 1), .idInUse),
      (l.tickets ≤ dField d 9 1 || k == 0 || l.kMax < k || dField d 0x18 4 < 32 + 16 * k + 512
        || dField d 0x20 4 < 10 || 60000000 < dField d 0x20 4, .parameterInvalid),
      (deliveryBad j (dField d 0x24 2), .queueInvalid), (j.keyGone, .keyWithdrawn) ]

def mergeQuery (j : Jenjor) (f : Fetched) : Jenjor :=
  let d := f.d
  match firstStatus (j.mergeChecks d) with
  | some st => j.refuse f.ref st
  | none =>
    let m : MergeOpen :=
      { list := dField d 8 1, ticket := dField d 9 1, tag := BitVec.ofNat 16 (dField d 0x0A 2), k := dField d 0x0C 2,
        addr := dField d 0x10 8, len := dField d 0x18 4, rkey := BitVec.ofNat 32 (dField d 0x1C 4),
        route := dField d 0x24 2, ref := f.ref }
    ({ j with cpn := { j.cpn with merges := j.cpn.merges ++ [m] } } : Jenjor).checkMerge m.list m.ticket

/-- A delivery queue bound to a route's queue pair. -/
def routeQueue (n qpn : Nat) : Queue := { queueZero with num := n, kind := 4, roce := true, priority := 0, qpn := qpn }

/-- The number of a route's delivery queue cannot be used (R263, R400). -/
def routeBad (j : Jenjor) (n : Nat) : Bool := n == 0 || (j.queue? n).isSome || !planAllows j n 4 0 1

def routeConnect (j : Jenjor) (f : Fetched) : Jenjor :=
  let n := dField f.d 8 2 % 4096
  let port := dField f.d 0x0A 1
  let mtu := if 4096 ≤ j.portMtu port then 4096 else if 2048 ≤ j.portMtu port then 2048 else 1024
  match firstStatus
      [ (1 < port, .parameterInvalid),
        (4096 ≤ j.lnk.qps.length, .limitReached),
        (j.routeBad n, .queueInvalid) ] with
  | some st => j.refuse f.ref st
  | none =>
    let p : Qp := { j.newQp port mtu .setup with route := true, connector := some (f.ref, n) }
    (j.addQp p).emit (.cmMessage port 1 p.num)

/-- The connection fails (R363). -/
def routeFails (j : Jenjor) (qpn : Nat) : Jenjor :=
  match (j.qp? qpn).bind fun p => p.connector with
  | none => j
  | some (c, _) =>
    ({ j with lnk := { j.lnk with qps := j.lnk.qps.filter fun x => x.num != qpn } } : Jenjor).refuse c .deliveryFailed

/-- The REP arrives: RTU, and the delivery queue of the route. -/
def routeAccepted (j : Jenjor) (qpn : Nat) : Jenjor :=
  match (j.qp? qpn).bind fun p => p.connector.map fun c => (p, c) with
  | none => j
  | some (p, c, n) =>
    if j.routeBad n then
      (({ j with lnk := { j.lnk with qps := j.lnk.qps.filter fun x => x.num != qpn } } : Jenjor).emit
        (.cmMessage p.port 5 qpn)).refuse c .queueInvalid
    else
      let up := fun (p : Qp) => { p with state := .established, bound := [n], connector := none, rtuAt := j.time }
      let j := (j.mapQp qpn up).emit (.cmMessage p.port 4 qpn)
      let j : Jenjor := { j with qs := { j.qs with queues := j.qs.queues ++ [routeQueue n qpn] } }
      j.complete c .success (BitVec.ofNat 64 qpn) 0 none

/-- Where an address lies in a list's merge area: ticket, shard, whether at a slot's start. -/
def slotAt (l : ShardList) (addr : Nat) : Nat × Nat × Bool :=
  let o := addr - (Config.poolBase + l.base)
  let i := o / l.slot
  (i / l.count, i % l.count, o % l.slot == 0)

/-- A write lies within a list's merge area. -/
def inArea (l : ShardList) (addr n : Nat) : Bool :=
  Config.poolBase + l.base ≤ addr && addr + n ≤ Config.poolBase + l.base + l.tickets * l.count * l.slot

/-- A record that lands in a list's area (R365). -/
def landRecord (j : Jenjor) (l : ShardList) (addr : Nat) (data : List Byte) (tag : BitVec 16) : Jenjor :=
  let (t, i, start) := slotAt l addr
  if !start || !recordValid l data then j.count blkCPN 0x130
  else
    let j := j.mapList l.num fun l =>
      { l with slots := (t, i, tag, data) :: l.slots.filter fun s => !(s.1 == t && s.2.1 == i) }
    match j.cpn.merges.find? fun m => m.list == l.num && m.ticket == t with
    | none => j
    | some m => if m.tag = tag then j.checkMerge l.num t else j.count blkCPN 0x128

end Jenjor

/-! ### Commands and events -/

/-- ROUTE_CONNECT (R363). -/
def execRouteConnect (q : Nat) (s : State) : Host.Outcome State Fault Refusal :=
  onBlocks (fun j =>
    match j.takeFetched q 0x60 with
    | none => j
    | some (f, j) => j.routeConnect f) s

/-- SHARD_LIST_DEFINE (R363, R364). -/
def execShardListDefine (q : Nat) (s : State) : Host.Outcome State Fault Refusal :=
  onBlocks (fun j =>
    match j.takeFetched q 0x61 with
    | none => j
    | some (f, j) => j.defineList f j.time) s

/-- SHARD_LIST_DELETE (R363): it waits for the list's merge queries. -/
def execShardListDelete (q : Nat) (s : State) : Host.Outcome State Fault Refusal :=
  onBlocks (fun j =>
    match j.takeFetched q 0x62 with
    | none => j
    | some (f, j) =>
      match j.openList (dField f.d 8 1) with
      | none => j.refuse f.ref .parameterInvalid
      | some l => (j.mapList l.num fun l => { l with deleting := true, deleters := l.deleters ++ [f.ref] }).settleList l.num) s

/-- MERGE_QUERY (R363, R366). -/
def execMergeQuery (q : Nat) (s : State) : Host.Outcome State Fault Refusal :=
  onBlocks (fun j =>
    match j.takeFetched q 0x63 with
    | none => j
    | some (f, j) => j.mergeQuery f) s

/-- CM_REP_REJ (R363). -/
def execCmRepRej (qpn : Nat) (rep : Bool) (s : State) : Host.Outcome State Fault Refusal :=
  onBlocks (fun j => if rep then j.routeAccepted qpn else j.routeFails qpn) s

/-- CM_REP_TIMEOUT (R363): no REP within 10 ms. -/
def execCmRepTimeout (qpn : Nat) (s : State) : Host.Outcome State Fault Refusal :=
  onBlocks (fun j => j.routeFails qpn) s

/-- MERGE_RECORD_ARRIVAL (R364, R365): a route accepts writes into merge areas alone. -/
def execMergeRecordArrival (qpn : Nat) (rkey : BitVec 32) (addr : Nat) (data : List Byte) (imm : BitVec 32) (s : State) :
    Host.Outcome State Fault Refusal :=
  onBlocks (fun j =>
    if !((j.qp? qpn).any fun p => p.mergeIn && p.state == .established) then j
    else
      match j.cpn.lists.find? fun l => l.rkey == rkey with
      | none => j.refuseRequest qpn 2
      | some l =>
        if !inArea l addr data.length then j.refuseRequest qpn 2
        else if l.discarding then j
        else j.landRecord l addr data (imm.setWidth 16)) s

/-- MERGE_DEADLINE (R366). -/
def execMergeDeadline (list ticket : Nat) (s : State) : Host.Outcome State Fault Refusal :=
  onBlocks (fun j =>
    match j.list? list, j.cpn.merges.find? fun m => m.list == list && m.ticket == ticket with
    | some l, some m => j.finishMerge l m
    | _, _ => j) s

/-- SHARD_LIST_RELEASE (R363): one second after the deleted list's merges completed. -/
def execShardListRelease (list : Nat) (s : State) : Host.Outcome State Fault Refusal :=
  onBlocks (fun j =>
    if (j.list? list).any fun l => l.discarding then
      { j with cpn := { j.cpn with lists := j.cpn.lists.filter fun l => l.num != list } }
    else j) s

end Sys2Proof.Machine
end

