-- ==== Sys2Proof/Machine/Companion.lean ====
section
/-! DEFINITION. Sys2Proof/Machine/Companion.lean: the companion link and the pair (R348 to R353), the write lease (R354 to
R358), cross-check (R359 to R361) and the restoring of a replaced module (R362). -/

namespace Sys2Proof.Machine
open Jenjor

namespace Jenjor

def mapPair (j : Jenjor) (f : PairData → PairData) : Jenjor := { j with cpn := { j.cpn with pair := f j.cpn.pair } }

/-! ### The link and the pair -/

/-- Cross-checks whose digests the link will not carry: the origin's queries go on unchecked and are counted, the
companion's copies end (R359). -/
def dropChecks (j : Jenjor) : Jenjor :=
  let mine := j.sw.ctxs.filter fun c => c.xtag.any (fun t => t.2) && c.xpeer.isNone
  let theirs := j.sw.ctxs.filter fun c => c.xtag.any fun t => !t.2
  let j := mine.foldl (fun j c => (j.mapCtx c.id fun c => { c with xtag := none }).count blkCPN 0x120) j
  theirs.foldl (fun j c => j.dropCtx c.id) j

/-- The module has been in a pair, or is joining one. -/
def inPair (j : Jenjor) : Bool :=
  let p := j.cpn.pair
  p.pairState == .paired || p.pairState == .restoringSource || p.pairState == .restoringTarget || p.catchingUp

/-- The pair separates (R350, R356): the holder goes on alone, the other module is read-only. -/
def separate (j : Jenjor) (st : PairState) : Jenjor :=
  if !j.inPair then j.mapPair fun p => { p with pairState := if p.mode = 0 then .unpaired else st, peerChecked := false }
  else
    let e := j.wr.epoch
    (j.mapPair fun p =>
      { p with pairState := st, peerChecked := false, catchingUp := false, solo := p.holder, splitEpoch := e,
               readOnly := p.readOnly || !p.holder,
               staleEpoch := if p.readOnly then p.staleEpoch else if p.holder then 0 else e }).dropChecks

/-- The link is lost or retrains (R348, R356). -/
def linkLost (j : Jenjor) : Jenjor := (j.mapPair fun p => { p with linkUp := false }).separate .split

/-- A retraining (R348). -/
def retrain (j : Jenjor) : Jenjor :=
  ((j.mapPair fun p => { p with retraining := true }).count blkCPN 0x108).linkLost

/-- The peer's report agrees with the Almanac and the arithmetic revision (R350). -/
def peerAgrees (j : Jenjor) (i : PeerInfo) : Bool :=
  i.pairId == j.cpn.pair.pairId && i.serial == j.cpn.pair.companion && i.companion == j.dom.serial && i.arith.toNat == j.arithRev

/-- The pair check of Dome is done (R350): the same tenant on both. -/
def pairChecked (j : Jenjor) (digest : BitVec 384) (rev : BitVec 16) : Jenjor :=
  if j.cpn.pair.pairState = .unpaired then j
  else if digest == j.dom.digest && j.dom.tenant == .bound && rev.toNat == j.arithRev then j.mapPair fun p => { p with peerChecked := true }
  else j.separate .mismatch

/-! ### The lease (R354 to R357) -/

/-- A renewal counts: the lease runs from its sending, and a lapsed holder takes writes again. -/
def renewalCounts (j : Jenjor) : Jenjor :=
  j.mapPair fun p =>
    { p with countedAt := p.sentAt, readOnly := p.behind, staleEpoch := if p.behind then p.staleEpoch else 0 }

/-- The ceiling that a renewal carries (R356). -/
def renewalCeiling (j : Jenjor) : Nat := if j.cpn.pair.solo then j.wr.epoch + 16384 else j.wr.epoch

/-- The holder becomes primary: it continues from the commits it holds and accepts writes (R357). -/
def becomePrimary (j : Jenjor) : Jenjor :=
  let last := j.wr.commits.foldl (fun e c => max e c.epoch) j.wr.epoch
  let j := j.mapPair fun p => { p with behind := false, readOnly := false, staleEpoch := 0, solo := true }
  ({ j with wr := { j.wr with formed := last } } : Jenjor).ackReady

/-- Take the lease with the next number (R357). -/
def takeLease (j : Jenjor) (n : Nat) : Jenjor :=
  let t := j.time
  (j.mapPair fun p => { p with lease := n, holder := true, sentAt := t, countedAt := t }).count blkCPN 0x100

/-- Give up what is journaled above an epoch, and answer its commands (R358 step 3). -/
def discardAbove (j : Jenjor) (e : Nat) : Jenjor :=
  let above := fun (x : JEntry) => !x.discarded && x.epoch.all fun n => e < n
  let gone := j.wr.journal.filter above
  let acked := (gone.filter fun x => x.acked).length
  let j := j.mapJournal above fun x => { x with discarded := true, completed := true, published := false }
  let j : Jenjor := { j with wr := { j.wr with commits := j.wr.commits.filter (fun c => c.epoch ≤ e), formed := e,
                                               epoch := min j.wr.epoch e } }
  let j := (gone.filter fun x => !x.completed).foldl (fun j x => j.refuse x.ref .aborted) j
  if acked = 0 then j else j.info blkCPN 0 0xFFFF acked

/-- A plate without what was done to it above an epoch, its summaries those of the records it keeps (R56, R60). -/
def rollPlate (c : Coll) (e : Nat) (p : Plate) : Plate :=
  let keep := p.recs.filter fun r => p.epochBase + r.delta ≤ e
  let undone := (p.dlog.filter fun d => e < p.epochBase + d.1).map fun d => d.2
  if keep.length = p.recs.length ∧ undone = [] then p
  else
    let base := { emptyPlate p.pid p.coll p.num p.gridGen p.epochBase p.keyGen c.sidecar with
                  pred := p.pred, source := p.source, quarantined := p.quarantined, lost := p.lost, present := p.present,
                  retiring := p.retiring }
    buildPlate base c.sidecar c.plateN keep (p.tomb.filter fun s => !undone.contains s && s < keep.length)
      (p.settled.filter (· < keep.length)) (p.dlog.filter fun d => p.epochBase + d.1 ≤ e && d.2 < keep.length)

/-- A key directory from its collection's plates. -/
def directoryOf (ps : List Plate) : List (BitVec 64 × Nat × Nat) :=
  ps.flatMap fun p => (List.range p.recs.length).filterMap fun s =>
    if p.liveSlot s then (p.recs[s]?).map fun r => (r.key, p.pid, s) else none

/-- Undo the epochs above `e` that were published here alone (R357 item 3, R358 step 3). -/
def rollBack (j : Jenjor) (e : Nat) : Jenjor :=
  let j := j.discardAbove e
  let j := j.mapPlates (fun _ => true) fun p => ((j.coll? p.coll).map fun c => rollPlate c e p).getD p
  let fix := fun (c : Coll) =>
    let d := directoryOf (j.collPlates c.num)
    { c with dir := d, accepted := d.map fun x => x.1 }
  { j with cat := { j.cat with colls := j.cat.colls.map fix } }

/-! ### Rejoining (R358) -/

/-- Send the journal tail and the commits above an epoch. -/
def sendTail (j : Jenjor) (e : Nat) : Jenjor :=
  let tail := j.wr.journal.filter fun x => !x.discarded && x.epoch.all fun n => e < n
  let epochs := (tail.filterMap fun x => x.epoch).eraseDups
  let j := tail.foldl (fun j x => j.sendCpn 0x03 x.jr.seq x.jr.coll x.jr.key.toNat []) j
  epochs.foldl (fun j n =>
    j.sendCpn 0x05 n 0 0 ((tail.filter fun x => x.epoch == some n).flatMap fun x => leBytes 8 x.jr.seq)) j

/-- Send the catalogue, the plates with their locator blocks and every other object to a module that is restored (R362
steps 3 to 6). -/
def sendAll (mem : List Host.Cell) (j : Jenjor) : Jenjor :=
  let j := j.sendCpn 0x0B 0 j.wr.epoch (j.wr.nextSeq - 1) (leBytes 8 j.cat.seq)
  let j := j.cat.colls.foldl (fun j c =>
    j.sendCpn 0x0B 1 c.num c.gridGen ((c.gridA ++ c.gridB).flatMap fun w => leBytes 4 w.toNat)) j
  let j := (j.cat.plates.filter fun p => !p.retiring && !p.lost).foldl (fun j p =>
    match j.coll? p.coll with
    | none => j
    | some c =>
      j.sendCpn 0x0B 3 p.coll p.num
        (p.headerBytes c.format c.dim c.sidecar ++ p.dataBytes c.format c.dim c.sidecar ++ p.locatorBlock)) j
  (j.cat.objs.filter fun o => o.kind != 1 && o.kind != 6).foldl
    (fun j o => j.sendCpn 0x0B 2 o.base o.bytes (Memory.readBytes mem o.base o.bytes)) j

/-- The module holds nothing: it is new in its pair (R362). -/
def blank (j : Jenjor) : Bool := j.cat.colls.isEmpty && j.wr.journal.isEmpty && j.wr.epoch == 0 && j.cpn.pair.lease == 0

/-- This module is to be secondary: the lower lease, or the non-holder of an equal one. With no lease taken yet, the module
of the lower serial number holds it. -/
def toSecondary (j : Jenjor) (peerLease : Nat) : Bool :=
  let p := j.cpn.pair
  if p.lease = peerLease then
    if p.lease = 0 && !p.holder then p.peer.all fun i => i.serial.toNat < j.dom.serial.toNat else !p.holder
  else p.lease < peerLease

/-- Rejoin as secondary. -/
def rejoinSecondary (j : Jenjor) (peerLease peerEpoch : Nat) : Jenjor :=
  if j.blank && peerEpoch ≠ 0 then
    j.mapPair fun p => { p with lease := peerLease, holder := false, pairState := .restoringTarget, readOnly := true }
  else
    let alone := j.cpn.pair.splitEpoch < j.wr.epoch
    let j := if alone && peerEpoch < j.wr.epoch then j.sendTail peerEpoch else j
    let j := if alone && j.wr.epoch ≤ peerEpoch then j.rollBack j.cpn.pair.splitEpoch else j.discardAbove j.wr.epoch
    let e := j.wr.epoch
    j.mapPair fun p =>
      { p with lease := peerLease, holder := false, solo := false, behind := false, readOnly := true, catchingUp := true,
               staleEpoch := if p.readOnly then p.staleEpoch else e }

/-- Rejoin as primary: behind the ceiling, the other module's commits come first. -/
def rejoinPrimary (mem : List Host.Cell) (j : Jenjor) (peerEpoch : Nat) (fresh : Bool) : Jenjor :=
  let t := j.time
  let j := j.mapPair fun p =>
    if p.holder then p else { p with holder := true, sentAt := t, countedAt := t, readOnly := false, staleEpoch := 0 }
  if j.cpn.pair.behind then j.mapPair fun p => { p with catchingUp := true }
  else if fresh then sendAll mem (j.mapPair fun p => { p with pairState := .restoringSource })
  else (j.mapPair fun p => { p with catchingUp := true }).sendTail peerEpoch

/-- The companion's messages of the journal are taken: as secondary, or behind the ceiling (R358 step 1). -/
def takesJournal (j : Jenjor) : Bool := j.mirrored || (j.cpn.pair.holder && j.cpn.pair.behind && j.cpn.pair.linkUp)

/-- A command of the companion's, as the queue-less number shows. -/
def peerRef (j : Jenjor) (q : Nat) (tag : Option Nat) : CmdRef :=
  { q := q, cid := 0, noIrq := true, t0 := j.time, gen := j.lnk.resets, tag := tag }

/-- Take a journal record of the companion's (R353). -/
def takeRecord (j : Jenjor) (r : JRec) : Jenjor :=
  if j.wr.journal.any fun e => e.jr.seq == r.seq then j else j.journalAppend r (j.peerRef replicaQueue none) false

/-- Insert a commit in epoch order. -/
def insertCommit (c : Commit) : List Commit → List Commit
  | [] => [c]
  | x :: xs => if c.epoch < x.epoch then c :: x :: xs else x :: insertCommit c xs

/-- Take a commit of the primary's, to be published in its turn (R353). -/
def takeCommit (j : Jenjor) (epoch : Nat) (seqs : List Nat) : Jenjor :=
  let j := if epoch ≤ j.wr.epoch || j.wr.commits.any fun c => c.epoch == epoch then j
    else
      let c : Commit := { epoch := epoch, seqs := seqs, waited := false, peerAck := true }
      let j := j.mapJournal (fun x => seqs.contains x.jr.seq) fun x => { x with epoch := some epoch }
      { j with wr := { j.wr with commits := insertCommit c j.wr.commits, formed := max j.wr.formed epoch } }
  j.sendCpn 0x06 epoch 0 0 []

/-! ### Forwarding (R352) -/

def isWrite (op : Nat) : Bool := [0x20, 0x21, 0x22, 0x23, 0x24].contains op

/-- A forwarded command reaches the primary: a write is accepted at once, unless acceptance waits for it or for one ahead of
it (R214), and a catalogue command takes its turn. The primary's own catalogue command reaches the secondary the same way,
to be repeated. -/
def takeForward (j : Jenjor) (tag : Nat) (d : Desc) (op : List Byte) : Jenjor :=
  let f : Fetched := { ref := j.peerRef forwardQueue (some tag), d := d }
  let code := dField d 0 1
  let later := { j with qs := { j.qs with fetched := j.qs.fetched ++ [f] } }
  if j.mirroring then
    if isWrite code then
      if j.acceptWaits f op || j.qs.fetched.any (fun x => x.ref.q == forwardQueue && isWrite (dField x.d 0 1)) then later
      else j.acceptWrite f op
    else if code = 0x25 then j.fence f
    else later
  else if j.mirrored then
    { j with qs := { j.qs with fetched := j.qs.fetched ++ [{ ref := j.peerRef replicaQueue none, d := d }] } }
  else j

/-- The primary's outcome of a forwarded command: its completion is written here. -/
def forwardedDone (j : Jenjor) (tag : Nat) (st : BitVec 8) (v0 v1 : BitVec 64) : Jenjor :=
  match j.cpn.pair.forwards.find? (fun x => x.1 == tag), Status.ofCode st with
  | some (_, f), some st =>
    let j := j.mapPair fun p => { p with forwards := p.forwards.filter fun x => x.1 != tag }
    if dField f.d 0 1 = 0x40 && st = .success then j.answerCreate f.ref f.d v0.toNat else j.complete f.ref st v0 v1 none
  | _, _ => j

/-! ### Cross-check (R359) -/

/-- Run the companion's query, pinned as it says. A query that cannot run here has no digest: not a token query without four
cores (R178). -/
def takeQuery (j : Jenjor) (tag : Nat) (d : Desc) (op : List Byte) (epoch frame : Nat) : Jenjor :=
  let f : Fetched := { ref := j.peerRef forwardQueue none, d := d }
  match j.liveColl? (dField d 4 2) with
  | none => j
  | some c =>
    let bad := firstStatus (queryChecks j d op ++ (if qTokens d then j.tokenChecks d op else []))
    if bad.isSome || 16384 ≤ j.contextsUsed || (qTokens d && j.activeCores < 4) then j
    else
      let (id, j) := makeCtx j f op (some (tag, false)) epoch frame
      if qTokens d then j.setTokens id c d op else enterVector j id c d op

/-! ### Restoring (R362) -/

/-- A plate of the survivor's: in place of the one of its number, with its keys in the directory and its bytes under this
module's key. One that fails its validation is lost (R59, R423) until it comes again. -/
def restorePlate (j : Jenjor) (coll num : Nat) (image loc : List Byte) : Jenjor :=
  match j.coll? coll with
  | none => j
  | some c =>
    let old := j.cat.plates.find? fun p => p.coll == coll && p.num == num && !p.retiring
    let pid := (old.map fun p => p.pid).getD j.cat.nextPid
    let good := validImage c num image
    let p : Plate :=
      if good then { plateOfImage c pid image loc with dirtyHdr := true, dirtyData := true, keyGen := j.genBit }
      else emptyPlate pid coll num c.gridGen j.wr.epoch j.genBit c.sidecar
    let j := if old.isNone then
        (j.mapCat fun k => { k with plates := k.plates ++ [p], nextPid := pid + 1 }).listPlate coll pid
      else if good then j.mapPlate pid fun _ => p
      else j
    let d := directoryOf (j.collPlates coll)
    let pays := p.recs.map fun r => r.payOff + r.payLen
    let j := j.mapColl coll fun c =>
      { c with dir := d, accepted := d.map fun x => x.1, payEnd := pays.foldl max c.payEnd,
               storeEnd := (p.recs.map fun r => r.recOff + r.recLen).foldl max c.storeEnd }
    if good then j else j.plateLoss pid

def restoreItem (mem : List Host.Cell) (j : Jenjor) : RestoreItem → List Host.Cell × Jenjor
  | .position epoch seq catSeq =>
    (mem, { j with wr := { j.wr with epoch := epoch, formed := epoch, nextSeq := seq + 1, ackSeq := seq },
                   cat := { j.cat with seq := catSeq } })
  | .collection d grid gen =>
    (mem, if (j.coll? (dField d 4 2)).isSome then j
          else (j.addCollection d grid).mapColl (dField d 4 2) fun c => { c with gridGen := gen })
  | .object kind size =>
    let (n, j) := j.addObj kind 0 size (roundMib2 size) (if kind = 4 then .vault else .sweep) (if kind = 4 then 0 else pagesOf size)
    (mem, ((j.obj? n).map j.homeObject).getD j)
  | .objectBytes addr data =>
    match j.objAt addr with
    | none => (mem, j)
    | some o => (Memory.writeBytes mem addr data, j.noteWrite o.num (addr - o.base) data.length)
  | .plate coll num image loc => (mem, j.restorePlate coll num image loc)
  | .journalTail recs => (mem, recs.foldl takeRecord j)

end Jenjor

/-! ### Events of the link -/

/-- COMPANION_LINK_TRAINED (R348, R350): which of the nine lanes meet their margin, and what the other module reports. -/
def execCompanionLinkTrained (lanes : List Bool) (peer : PeerInfo) (s : State) : Host.Outcome State Fault Refusal :=
  onUnit (lanes.length == 9) (onBlocks (fun j =>
    let usable := (lanes.filter fun l => l).length
    let j := j.mapPair fun p => { p with lanes := usable, retraining := false }
    if usable < 8 then j
    else
      let j := j.mapPair fun p => { p with linkUp := true, spareLane := !((lanes.take 8).all fun l => l), peer := some peer,
                                           peerChecked := false }
      if j.cpn.pair.mode = 0 then j
      else if j.peerAgrees peer then j.mapPair fun p => { p with pairState := .checking }
      else j.separate .mismatch) s)

/-- COMPANION_LINK_ERRORS (R348): corrected FEC symbols over a millisecond, or an uncorrectable frame. -/
def execCompanionLinkErrors (corrected : Nat) (uncorr : Bool) (s : State) : Host.Outcome State Fault Refusal :=
  onBlocks (fun j => j.injecting 5 32 0 fun j =>
    if (1000 < corrected || uncorr) && j.cpn.pair.linkUp then (j.fault 1 blkCPN 32 0x108 0 0 0).retrain else j) s

/-- COMPANION_LINK_DOWN (R356). -/
def execCompanionLinkDown (s : State) : Host.Outcome State Fault Refusal :=
  onBlocks (fun j => if j.cpn.pair.linkUp then j.linkLost else j) s

/-- CPN_REPLAY_TIMEOUT (R349). -/
def execCpnReplayTimeout (seq : Nat) (s : State) : Host.Outcome State Fault Refusal :=
  onBlocks (fun j =>
    match j.cpn.pair.replay.find? fun m => m.seq == seq with
    | none => j
    | some m => if j.cpn.pair.linkUp then (j.emit m.msg).count blkCPN 0x110 else j) s

/-- CPN_RESERVED_MESSAGE (R349): a type of the table is not reserved. -/
def execCpnReservedMessage (ty : Nat) (s : State) : Host.Outcome State Fault Refusal :=
  onBlocks (fun j => if (1 ≤ ty && ty ≤ 0xE) || !j.cpn.pair.linkUp then j else j.retrain) s

/-! ### Messages -/

/-- RENEW (R354, R360): acknowledged when its number is the highest known here. -/
def execRenew (lease : Nat) (holder : BitVec 96) (epoch ceiling floor : Nat) (s : State) : Host.Outcome State Fault Refusal :=
  onBlocks (fun j =>
    let p := j.cpn.pair
    if !j.inPair || holder == j.dom.serial || lease < p.lease || (p.holder && lease = p.lease) then j
    else
      let t := j.time
      let j := j.mapPair fun p => { p with lease := lease, holder := false, ackedAt := t, peerEpoch := epoch, peerFloor := some floor }
      j.sendCpn 0x02 lease j.wr.epoch ceiling (leBytes 8 j.ownFloor)) s

/-- RENEW_ACK (R354, R360): it arrives within 8 ms of the renewal's sending. -/
def execRenewAck (lease : Nat) (holder : BitVec 96) (epoch _ceiling floor : Nat) (s : State) : Host.Outcome State Fault Refusal :=
  onBlocks (fun j =>
    if !j.cpn.pair.holder || lease != j.cpn.pair.lease || holder != j.dom.serial || !j.inPair then j
    else (j.mapPair fun p => { p with peerEpoch := epoch, peerFloor := some floor }).renewalCounts) s

/-- JOURNAL (R353): its durability is the journal buffer's to report. -/
def execJournal (rec : JRec) (s : State) : Host.Outcome State Fault Refusal :=
  onBlocks (fun j => if j.takesJournal then j.takeRecord rec else j) s

/-- DURABLE (R353): stage 4 of every record up to `seq`. -/
def execDurable (seq : Nat) (s : State) : Host.Outcome State Fault Refusal :=
  onBlocks (fun j =>
    if !j.mirroring then j
    else
      let j := j.mapPair fun p => { p with peerDurable := max p.peerDurable seq }
      (j.mapJournal (fun e => e.jr.seq ≤ seq) fun e => { e with peerDurable := true }).ackReady) s

/-- COMMIT (R353). -/
def execCommit (epoch : Nat) (seqs : List Nat) (s : State) : Host.Outcome State Fault Refusal :=
  onBlocks (fun j => if j.takesJournal then j.takeCommit epoch seqs else j) s

/-- COMMIT_ACK (R353). -/
def execCommitAck (epoch : Nat) (s : State) : Host.Outcome State Fault Refusal :=
  onBlocks (fun j =>
    if !j.mirroring then j
    else { j with wr := { j.wr with commits := j.wr.commits.map fun c => if c.epoch ≤ epoch then { c with peerAck := true } else c } }) s

/-- FORWARD (R352). -/
def execForward (tag : Nat) (d : Desc) (op : List Byte) (s : State) : Host.Outcome State Fault Refusal :=
  onBlocks (fun j => j.takeForward tag d op) s

/-- FORWARD_DONE (R352). -/
def execForwardDone (tag : Nat) (status : BitVec 8) (v0 v1 : BitVec 64) (s : State) : Host.Outcome State Fault Refusal :=
  onBlocks (fun j => j.forwardedDone tag status v0 v1) s

/-- XQUERY (R359). -/
def execXquery (tag : Nat) (d : Desc) (op : List Byte) (epoch frame : Nat) (s : State) : Host.Outcome State Fault Refusal :=
  onBlocks (fun j => if j.pairedIn 3 then j.takeQuery tag d op epoch frame else j) s

/-- XDIGEST (R359). -/
def execXdigest (tag : Nat) (final coarse : BitVec 256) (tookCoarse : Bool) (s : State) : Host.Outcome State Fault Refusal :=
  onBlocks (fun j =>
    j.mapCtxs (fun c => c.xtag == some (tag, true)) fun c => { c with xpeer := some (final, coarse, tookCoarse) }) s

/-- RESTORE (R362). -/
def execRestore (item : RestoreItem) (s : State) : Host.Outcome State Fault Refusal :=
  onMemory (fun mem _ j => if j.cpn.pair.pairState = .restoringTarget then restoreItem mem j item else (mem, j)) s

/-- RELINQUISH (R357): the lease passes with the next number. -/
def execRelinquish (lease epoch : Nat) (s : State) : Host.Outcome State Fault Refusal :=
  onBlocks (fun j =>
    if j.cpn.pair.holder || !j.inPair || lease != j.cpn.pair.lease then j
    else ((j.mapPair fun p => { p with peerEpoch := epoch }).separate .split |>.takeLease (lease + 1)).becomePrimary) s

/-- FRAME_DONE (R361): of the frame before the published one, which drains. -/
def execFrameDone (coll frame : Nat) (s : State) : Host.Outcome State Fault Refusal :=
  onBlocks (fun j => j.mapColl coll fun c =>
    { c with bias := c.bias.map fun b => if frame + 1 = b.frame then { b with peerDone := true } else b }) s

/-! ### Times, the witness and rejoining -/

/-- LEASE_RENEW_TIMER (R354, R356). -/
def execLeaseRenewTimer (s : State) : Host.Outcome State Fault Refusal :=
  onBlocks (fun j =>
    let p := j.cpn.pair
    if !p.holder || j.isl.whole then j
    else
      let t := j.time
      let c := j.renewalCeiling
      let j := j.mapPair fun p => { p with sentAt := t }
      let j := j.sendCpn 0x01 p.lease j.wr.epoch c (leBytes 8 j.ownFloor)
      if j.alm.net.witness then j.emit (.witness false p.lease c) else j) s

/-- LEASE_LAPSE (R354): 64 ms after the last renewal that counted. -/
def execLeaseLapse (s : State) : Host.Outcome State Fault Refusal :=
  onBlocks (fun j =>
    let e := j.wr.epoch
    if !j.cpn.pair.holder || j.cpn.pair.readOnly then j
    else j.mapPair fun p => { p with readOnly := true, staleEpoch := e, witnessOk := false }) s

/-- TAKE_WAIT_ELAPSED (R354): 80 ms after its last acknowledgement the other module may send TAKE. -/
def execTakeWaitElapsed (s : State) : Host.Outcome State Fault Refusal :=
  onBlocks (fun j =>
    let p := j.cpn.pair
    if p.holder || p.mode = 0 || !j.alm.net.witness || j.isl.whole then j else j.emit (.witness true p.lease 0)) s

/-- WITNESS_REPLY (R355 to R357). -/
def execWitnessReply (r : WitnessReply) (s : State) : Host.Outcome State Fault Refusal :=
  onBlocks (fun j =>
    match r with
    | .refused => j.mapPair fun p => { p with witnessOk := false }
    | .renewGranted n c =>
      if j.cpn.pair.holder && n = j.cpn.pair.lease then
        (j.mapPair fun p => { p with witnessOk := true, ceiling := c }).renewalCounts
      else j
    | .takeGranted n c =>
      if j.cpn.pair.holder || n ≠ j.cpn.pair.lease + 1 then j
      else
        let j := (j.mapPair fun p => { p with witnessOk := true, ceiling := c }).takeLease n
        if c ≤ j.wr.epoch then j.becomePrimary else j.mapPair fun p => { p with behind := true }) s

/-- LEASE_FORCE (R357): an operator ends BEHIND; epochs go on from the ceiling plus 1. -/
def execLeaseForce (role : Role) (s : State) : Host.Outcome State Fault Refusal :=
  onBlocks (fun j =>
    if role != .operator || !j.cpn.pair.behind then j.emit (.mgmt false 0)
    else
      let c := j.cpn.pair.ceiling
      let j := j.mapJournal (fun e => !e.published) fun e => { e with epoch := none }
      let j := ({ j with wr := { j.wr with commits := [] } } : Jenjor).becomePrimary
      ({ j with wr := { j.wr with formed := c } } : Jenjor).emit (.mgmt true 0)) s

/-- PAIR_REJOIN (R358, R362): once the pair is checked. -/
def execPairRejoin (peerLease peerEpoch : Nat) (s : State) : Host.Outcome State Fault Refusal :=
  onReading (fun mem _ j =>
    let p := j.cpn.pair
    if !p.linkUp || !p.peerChecked || p.pairState != .checking then j
    else if j.toSecondary peerLease then
      (j.mapPair fun p => { p with pairState := .split }).rejoinSecondary peerLease peerEpoch
    else
      rejoinPrimary mem (j.mapPair fun p => { p with pairState := .split }) peerEpoch
        (peerEpoch == 0 && j.wr.epoch != 0 && peerLease == 0)) s

/-- CATCH_UP_COMPLETE (R358 step 4, R362 step 6): synchronous pairing resumes. -/
def execCatchUpComplete (s : State) : Host.Outcome State Fault Refusal :=
  onBlocks (fun j =>
    let p := j.cpn.pair
    if !p.linkUp || p.behind || !(p.catchingUp || p.pairState == .restoringSource || p.pairState == .restoringTarget) then j
    else
      (j.mapPair fun p =>
        { p with pairState := .paired, catchingUp := false, solo := false, readOnly := false, staleEpoch := 0 }).ackReady) s

end Sys2Proof.Machine
end

