-- ==== Sys2Proof/Machine/Dome.lean ====
section
/-! DEFINITION. Sys2Proof/Machine/Dome.lean: SPDM messages and sessions (R377 to R381), key slots (R382 to R386) and live
rekey (R388, R389). -/

namespace Sys2Proof.Machine
open Jenjor

/-- Life-cycle codes (R371). -/
def LifeCycle.code : LifeCycle → Nat
  | .test => 1 | .service => 2 | .rma => 3 | .scrapped => 4

/-- Tenancy codes (R369). -/
def Tenancy.code : Tenancy → Nat
  | .unbound => 0 | .binding => 1 | .bound => 2 | .scrubbing => 3 | .suspended => 4

/-- DOM_SLOT.STATE (R393). -/
def SlotState.code : SlotState → Nat
  | .empty => 0 | .loaded => 1 | .draining => 2

namespace Jenjor

def mapDom (j : Jenjor) (f : DomState → DomState) : Jenjor := { j with dom := f j.dom }

def slot? (j : Jenjor) (s : Nat) : Option KeySlot := j.dom.slots[s]?

def mapSlot (j : Jenjor) (s : Nat) (f : KeySlot → KeySlot) : Jenjor :=
  j.mapDom fun d => { d with slots := d.slots.modify s f }

/-! ### Answers (R339, R379) -/

/-- Send an SPDM response; through DOE it waits in the mailbox. -/
def spdmReply (j : Jenjor) (mb : Mailbox) (code : Nat) (data : List Byte) : Jenjor :=
  let j : Jenjor := if mb = .doe then { j with lnk := { j.lnk with doePending := true } } else j
  j.emit (.spdm mb code data)

/-- An SPDM ERROR with its code. -/
def spdmError (j : Jenjor) (mb : Mailbox) (e : Nat) : Jenjor := j.spdmReply mb 0x7F (leBytes 1 e)

/-- A vendor-defined response: standards body, vendor, then the result byte and what follows it (R381). -/
def vendorReply (j : Jenjor) (mb : Mailbox) (res : Nat) (data : List Byte) : Jenjor :=
  j.spdmReply mb 0x7E (leBytes 2 0x0003 ++ leBytes 2 0x1D9E ++ leBytes 1 res ++ data)

/-- Words that the module draws or signs, fresh each time (DESIGN CHOICE, log entry 10). -/
def drawn (j : Jenjor) (n : Nat) : List Byte × Jenjor :=
  let (i, j) := j.free
  ((Config.freeBytes i n).take n, j)

/-- The identity key cannot be derived, or its root is unknown (R373, R377): fuse words 6 to 29. -/
def identityLost (j : Jenjor) : Bool := j.dom.seedErased || j.dom.unsettled.any fun w => 6 ≤ w && w < 30

/-- F, the fuse count of the security version (R375). -/
def frozen (j : Jenjor) : Bool := j.dom.secverFuses == 128

/-- Unsettled words outside the repair group (R374). -/
def unsettledSec (j : Jenjor) : Nat := (j.dom.unsettled.filter fun w => w < 30).length

/-! ### The measurement report (R378) -/

/-- A block of the DMTF measurement format: index, specification, size, value type, value size, value. -/
def measBlock (i ty : Nat) (v : List Byte) : List Byte :=
  leBytes 1 i ++ leBytes 1 1 ++ leBytes 2 (v.length + 3) ++ leBytes 1 ty ++ leBytes 2 v.length ++ v

def flagByte (b : Bool) : List Byte := leBytes 1 (if b then 1 else 0)

/-- The record of the running image, and of the other. -/
def fwRunning (j : Jenjor) : FwRecord := if j.alm.running then j.alm.fwB else j.alm.fwA

def fwOther (j : Jenjor) : FwRecord := if j.alm.running then j.alm.fwA else j.alm.fwB

def fwBlock (i : Nat) (isB : Bool) (secver : Nat) (r : FwRecord) : List Byte :=
  measBlock i 0x81 (flagByte isB ++ leBytes 2 secver ++ bytesAt r.header 0x20 48)

/-- Measurement block of a model slot: zeros while it is empty. -/
def modelBlock (m : Nat) (x : Model) : List Byte :=
  let e := x.phase == .empty || x.phase == .loading
  measBlock (8 + m) 0x81 (leBytes 48 (if e then 0 else x.digests.1.toNat) ++ leBytes 48 (if e then 0 else x.digests.2.toNat)
    ++ leBytes 8 (if e then 0 else x.loadSeq))

/-- The report's blocks. `image` is the digest of the whole signed image. -/
def measurements (j : Jenjor) (image : BitVec 384) : List Byte :=
  let d := j.dom
  measBlock 1 0x00 (leBytes 48 (Config.freeDigest 1).toNat)
    ++ fwBlock 2 j.alm.running j.alm.runSecver j.fwRunning
    ++ fwBlock 3 (!j.alm.running) (fwSecver j.fwOther) j.fwOther
    ++ measBlock 4 0x83 (leBytes 4 j.alm.generation ++ leBytes 48 image.toNat)
    ++ measBlock 5 0x82 (leBytes 1 d.life.code ++ leBytes 1 d.secverFuses ++ flagByte j.frozen ++ flagByte d.debug
        ++ leBytes 1 j.unsettledSec)
    ++ measBlock 6 0x82 (leBytes 16 d.order.toNat ++ leBytes 1 d.stepping.toNat ++ leBytes 12 d.serial.toNat
        ++ leBytes 6 d.mac.toNat ++ leBytes 2 j.arithRev)
    ++ measBlock 7 0x83 (leBytes 1 d.tenant.code ++ leBytes 48 (if d.tenant = .unbound then 0 else d.digest.toNat))
    ++ ((List.range 8).zip j.coe.models).flatMap fun x => modelBlock x.1 x.2

/-- The identity chain of certificate slot 0 (R377): its bytes are the module's own (DESIGN CHOICE, log entry 10). -/
def certChain : List Byte := Config.freeBytes 0 0

/-! ### Messages and sessions (R379, R380) -/

/-- Dome handles whole messages one at a time: one that arrives during another mailbox's receives Busy. -/
def spdm (mb : Mailbox) (busy : Bool) (f : Jenjor → Jenjor) (s : State) : Host.Outcome State Fault Refusal :=
  onBlocks (fun j => if busy then (j.count blkDOM 0x808).spdmError mb 0x03 else f j) s

def session? (j : Jenjor) (mb : Mailbox) (sid : Nat) : Option Session :=
  j.dom.sessions.find? fun x => x.id == sid && x.mb == mb

def dropSession (j : Jenjor) (sid : Nat) : Jenjor :=
  j.mapDom fun d => { d with sessions := d.sessions.filter fun x => x.id != sid }

/-- A message in a secured session; one of no session cannot be decrypted. -/
def inSession (mb : Mailbox) (busy : Bool) (sid : Nat) (f : Session → Jenjor → Jenjor) (s : State) :
    Host.Outcome State Fault Refusal :=
  spdm mb busy (fun j =>
    match j.session? mb sid with
    | none => j.spdmError mb 0x06
    | some x => if x.finished then f x j else j.spdmError mb 0x06) s

/-- The requester's chain ends in the tenant root (R381). -/
def ofTenant (j : Jenjor) (x : Session) : Bool := x.root == .root j.dom.digest

/-- Requester and tenancy state of a request on the key slots (R381). -/
def slotPermitted (j : Jenjor) (x : Session) (states : List Tenancy) : Bool := j.ofTenant x && states.contains j.dom.tenant

/-! ### Sealing (R386) -/

/-- A slot that the sealed record keeps. -/
def sealedSlot (n : Nat) (k : KeySlot) : Bool := k.state == .loaded && (n < 2 || k.persist)

/-- Rewrite the sealed record. -/
def sealKeys (j : Jenjor) : Jenjor :=
  j.mapDom fun d =>
    { d with sealedRec := some { tenant := d.digest, life := d.life,
                                 slots := ((List.range 64).zip d.slots).filter fun x => sealedSlot x.1 x.2 } }

/-! ### Uses of a previous generation (R383, R388) -/

/-- Uses of the previous generation of slot 0: plates and objects in sweep memory, and pinned lines. -/
def oldSweepUse (j : Jenjor) : Bool :=
  j.cat.plates.any (fun p => j.inSweepMemory p && p.keyGen != j.genBit)
    || j.cat.objs.any (fun o => o.kind != 1 && o.kind != 7 && o.tier == .sweep && o.keyGen != j.sweepGen)
    || j.spg.lines.any fun l => l.stale

/-- A use of slot `s` in the generation before the current one. -/
def oldUse (j : Jenjor) (s : Nat) : Bool :=
  if s = 0 then j.oldSweepUse
  else if s = 1 then j.dom.rekeyVault
  else j.coe.models.any fun m => m.phase != .empty && m.keySlot == s && ((j.slot? s).any fun k => m.keyGen != k.generation)

/-- Start the rekey of slot 0 (R388 items 5 and 6): unpinned lines go, every object slews within sweep memory. -/
def startSweepRekey (j : Jenjor) : Jenjor :=
  let lines := (j.spg.lines.filter fun l => j.pinnedPages.contains l.page).map fun l => { l with stale := true }
  let j : Jenjor := { j with spg := { j.spg with lines := lines } }
  let j := j.mapDom fun d => { d with rekeySweep := true }
  let sets := j.cat.objs.filter fun o => o.kind == 1
  let rest := j.cat.objs.filter fun o => o.kind != 1 && o.kind != 7 && o.tier == .sweep
  (sortBy (fun a b => a.coll ≤ b.coll) sets ++ sortBy (fun a b => a.num ≤ b.num) rest).foldl
    (fun j o => j.addSlew o.num o.tier 0 .rekey) j

/-- A new generation became current: its rekey starts (R388, R389). -/
def startRekey (j : Jenjor) (s : Nat) : Jenjor :=
  if s = 0 then j.startSweepRekey
  else if s = 1 then j.mapDom fun d => { d with rekeyVault := true }
  else j

/-- The previous generation's last use has ended (R383): it is zeroised, and a staged generation becomes current. -/
def retireGen (j : Jenjor) (s : Nat) : Jenjor :=
  match j.slot? s with
  | none => j
  | some k =>
    if k.prev.isNone || j.oldUse s then j
    else
      match k.staged with
      | none =>
        let j := j.mapSlot s fun k => { k with prev := none }
        let j := if s = 0 then j.mapDom fun d => { d with rekeySweep := false } else j
        if sealedSlot s k then j.sealKeys else j
      | some (key, p) =>
        (j.mapSlot s fun k => { k with generation := k.generation + 1, prev := some k.current, current := key,
                                       staged := none, persist := p }).sealKeys.startRekey s

/-! ### SLOT_WRITE (R382, R383) -/

/-- Material that R382 refuses. -/
def keyBad (s : Nat) (key : List Byte) : Bool :=
  if s < 2 then key.length != 64 || key.take 32 == key.drop 32 else key.length != 32

/-- Tile regions are written with zeros before a tile command is served again (R384). -/
def zeroTiles (mem : List Host.Cell) (j : Jenjor) : List Host.Cell :=
  (j.cat.objs.filter fun o => o.kind == 8).foldl (fun m o => Memory.clear m o.base o.bytes) mem

/-- The tenancy state that a loaded slot leads to (R369, R384). -/
def boundBy (j : Jenjor) (s : Nat) : Jenjor :=
  let loaded := fun (n : Nat) => (j.slot? n).any fun k => k.state == .loaded
  if (j.dom.tenant = .binding ∧ loaded 0 ∧ loaded 1) ∨ (j.dom.tenant = .suspended ∧ s = 0) then
    j.mapDom fun d => { d with tenant := .bound }
  else j

/-- Write key material to a slot: the table of R383. The result byte is that of R381. -/
def writeSlot (mem : List Host.Cell) (j : Jenjor) (s : Nat) (key : List Byte) (persist : Bool) :
    List Host.Cell × Nat × Jenjor :=
  match j.slot? s with
  | none => (mem, 2, j)
  | some k =>
    if keyBad s key then (mem, 2, j)
    else
      match k.state with
      | .draining => (mem, 1, j)
      | .empty =>
        let mem := if j.dom.tenant = .suspended ∧ s = 0 then zeroTiles mem j else mem
        let j := (j.mapSlot s fun k => { k with state := .loaded, generation := 1, current := key, persist := persist }).boundBy s
        let j := if s = 0 then (j.mapPlates (fun _ => true) fun p => { p with keyGen := true }).mapObjs (fun _ => true)
            fun o => { o with keyGen := 1 } else j
        (mem, 0, if s < 2 || persist then j.sealKeys else j)
      | .loaded =>
        if k.staged.isSome then (mem, 1, j)
        else if k.generation = 65535 then (mem, 3, j)
        else if k.prev.isSome then (mem, 5, j.mapSlot s fun k => { k with staged := some (key, persist) })
        else
          let j := j.mapSlot s fun k => { k with generation := k.generation + 1, prev := some k.current, current := key,
                                                 persist := persist }
          (mem, 0, ((if s < 2 || persist || k.persist then j.sealKeys else j).startRekey s).retireGen s)

/-! ### SLOT_ERASE (R384) -/

/-- Models of a slot drain: no new request, those begun go on (R171). -/
def drainModels (j : Jenjor) (p : Model → Bool) : Jenjor :=
  let f := fun (m : Model) => if m.phase = .resident ∧ p m then { m with phase := .draining } else m
  ({ j with coe := { j.coe with models := j.coe.models.map f } } : Jenjor).settleModels

/-- Answer an allocation that waits for pool pages, which are a new use of slot 0. -/
def refuseAllocs (j : Jenjor) : Jenjor :=
  let as := j.cat.allocs
  let j : Jenjor := { j with cat := { j.cat with allocs := [] } }
  as.foldl (fun j a =>
    match a.what with
    | .modelLoad f => j.refuse f.ref .keySlotInvalid
    | .slewStart o =>
      match j.cat.slews.find? fun s => s.obj == o && !s.started with
      | none => j
      | some s => j.failSlew s .keyWithdrawn
    | w => (AllocFor.ref w).foldl (fun j r => j.refuse r .keyWithdrawn) j) j

/-- Every ring comes to its stop: queries that have not boarded, and RING_STARTs that wait, are refused. -/
def stopRings (j : Jenjor) : Jenjor :=
  let j := j.abortAll ((j.sw.ctxs.filter beforeBoarding).map fun c => c.id) .keyWithdrawn
  (List.range 64).foldl (fun j n =>
    match j.ring? n with
    | none => j
    | some r =>
      if r.phase = .waiting then
        let j := j.mapRing n fun r => { r with phase := .stopped, starter := none }
        r.starter.toList.foldl (fun j c => j.refuse c .keyWithdrawn) j
      else if r.phase = .running then j.beginStop n none
      else j) j

/-- The slot drains from this cycle. -/
def eraseSlot (j : Jenjor) (s : Nat) : Jenjor :=
  let j := j.mapSlot s fun k => { k with state := .draining, staged := none }
  if s = 0 then (j.drainModels fun _ => true).refuseAllocs.stopRings
  else j.drainModels fun m => m.keySlot == s

/-- Abort what still uses the key of a model (R171, R384). -/
def withdrawModels (j : Jenjor) (p : Model → Bool) : Jenjor :=
  (List.range 8).foldl (fun j m =>
    match j.model? m with
    | none => j
    | some x =>
      if x.phase = .empty || !p x then j
      else
        let ids := (j.coe.pass.toList.flatMap fun q => if q.model = m then q.reqs else [])
          ++ j.coe.rerun.toList.flatMap fun q => if q.1 = m then q.2 else []
        let j : Jenjor := { j with coe := { j.coe with pass := j.coe.pass.filter fun q => q.model != m,
                                                       rerun := j.coe.rerun.filter fun q => q.1 != m } }
        let j := j.failRequests m ids .keyWithdrawn
        let j := x.loader.toList.foldl (fun j c => j.refuse c .keyWithdrawn) j
        j.freeModel m) j

/-- Staged work and copies that use slot 0 are aborted: calibration, recalibration, replating, slews. -/
def withdrawStaged (j : Jenjor) : Jenjor :=
  let k := j.cat
  let refs := (k.calib.toList.map fun c => c.ref) ++ (k.calibQueue.map fun x => x.1.ref) ++ k.recals.map fun r => r.ref
  let j : Jenjor := { j with cat := { k with calib := none, calibQueue := [], recals := [], replatings := [] } }
  let j := j.mapPlates (fun p => p.source) fun p => { p with source := false }
  let j := j.mapRings fun r => { r with switches := r.switches.filter fun w =>
    match w with
    | .replate _ => false
    | .recal _ => false
    | _ => true }
  let j := refs.foldl (fun j r => j.refuse r .keyWithdrawn) j
  j.cat.slews.foldl (fun j s => j.failSlew s .keyWithdrawn) j

/-- Merge areas lie in sweep memory: what stands in them is lost, and the merge queries that wait on it are aborted. -/
def withdrawMerges (j : Jenjor) : Jenjor :=
  let ms := j.cpn.merges
  let bare := fun (l : ShardList) => { l with slots := [] }
  let j : Jenjor := { j with cpn := { j.cpn with merges := [], lists := j.cpn.lists.map bare } }
  let j := ms.foldl (fun j m => j.refuse m.ref .keyWithdrawn) j
  j.cpn.lists.foldl (fun j l => j.settleList l.num) j

/-- The zeroisation of slot 0 (R384): sweep memory can no longer be read. -/
def suspend (j : Jenjor) : Jenjor :=
  let j := (j.abortAll (j.sw.ctxs.map fun c => c.id) .keyWithdrawn).withdrawStaged.withdrawMerges
  let j := (List.range 64).foldl (fun j n => if (j.ring? n).any holdsClusters then j.stopRing n else j) j
  let j := j.withdrawModels fun _ => true
  let j := j.mapObjs (fun o => o.kind == 1 || o.kind == 2 || o.kind == 4) fun o => { o with tier := .vault, pages := 0, dirty := [] }
  let j : Jenjor := { j with spg := { j.spg with lines := [], reads := [] }, mem := { j.mem with poison := [] } }
  let j := (j.qs.queues.filter fun q => q.roce && q.kind != 4).foldl (fun j q => j.queueFault q.num 7) j
  j.mapDom fun d => { d with tenant := .suspended, rekeySweep := false }

/-- The 100 ms have passed, or no use remains: what is left is aborted, and every generation is zeroised. -/
def endErase (j : Jenjor) (s : Nat) : Jenjor :=
  match j.slot? s with
  | none => j
  | some k =>
    if k.state ≠ .draining then j
    else
      let j := if s = 0 then j.suspend else j.withdrawModels fun m => m.keySlot == s
      let j := j.mapSlot s fun _ => emptySlot
      if s < 2 || k.persist then j.sealKeys else j

/-! ### REKEY_BATCH (R388) -/

/-- Sealed plates of a collection that a batch may take: of the old generation, and in no batch. -/
def oldPlates (j : Jenjor) (coll : Nat) : List Plate :=
  (j.collPlates coll).filter fun p =>
    p.keyGen != j.genBit && p.sealed_ && j.inSweepMemory p && sourceable p

/-- The collection whose batches come next: those of a ring that sweeps, in ascending number; any other is rekeyed by a
slew. -/
def rekeyNext (j : Jenjor) : Option Nat :=
  argmin id ((j.cat.colls.filter fun c =>
    (j.ringOf c.num).any sweeping && !(j.oldPlates c.num).isEmpty && !(j.cat.recals.any fun r => r.coll == c.num)).map
      fun c => c.num)

/-- Stage a batch of twins: at most two batches of a ring's collections stand at once. -/
def stageBatch (j : Jenjor) (coll : Nat) (pids : List Nat) : Jenjor :=
  let ps := pids.filterMap fun n => (j.oldPlates coll).find? fun p => p.pid == n
  let mates := ((j.ringOf coll).bind fun r => r.defn).toList.flatMap fun d => d.colls
  let staged := (j.cat.replatings.filter fun r => r.cause == .rekey && mates.contains r.coll).length
  if !j.dom.rekeySweep || j.rekeyNext != some coll || ps.length != pids.length || ps.isEmpty || 8192 < ps.length
      || !pids.Nodup || 2 ≤ staged then j
  else
    match j.allocate (ceilDiv ps.length 8) [] with
    | .limit => j
    | .wait _ j => j
    | .granted j =>
      let b := j.genBit
      let k := j.cat
      let twins := ((List.range ps.length).zip ps).map fun x => { x.2 with pid := k.nextPid + x.1, keyGen := b }
      let job : Replating := { id := k.nextId, coll := coll, cause := .rekey, sources := ps.map fun p => p.pid, repl := twins,
                               base := 0, ready := true }
      let j : Jenjor := { j with cat := { k with replatings := k.replatings ++ [job], nextId := k.nextId + 1,
                                                 nextPid := k.nextPid + ps.length } }
      (j.mapPlates (fun p => pids.contains p.pid) fun p => { p with source := true }).enterForColl coll (.replate job.id)

end Jenjor

/-! ### SPDM requests -/

/-- GET_VERSION (R379): version 1.2 alone. -/
def execGetVersion (mb : Mailbox) (busy : Bool) (s : State) : Host.Outcome State Fault Refusal :=
  spdm mb busy (fun j => j.spdmReply mb 0x04 (leBytes 2 0x1200)) s

/-- GET_CAPABILITIES (R379): certificates, challenge, signed measurements, encryption, mutual authentication, key exchange,
heartbeat and key update. -/
def execGetCapabilities (mb : Mailbox) (busy : Bool) (s : State) : Host.Outcome State Fault Refusal :=
  spdm mb busy (fun j => j.spdmReply mb 0x61 (leBytes 4 0x63D6)) s

/-- NEGOTIATE_ALGORITHMS (R379): ECDSA P-384, SHA-384, secp384r1, AES-256-GCM, the SPDM key schedule. -/
def execNegotiateAlgorithms (mb : Mailbox) (busy : Bool) (s : State) : Host.Outcome State Fault Refusal :=
  spdm mb busy (fun j => j.spdmReply mb 0x63 (leBytes 4 0x80 ++ leBytes 4 0x2 ++ leBytes 2 0x10 ++ leBytes 2 0x2 ++ leBytes 2 0x1)) s

/-- GET_DIGESTS (R379): the digest of the chain in certificate slot 0. -/
def execGetDigests (mb : Mailbox) (busy : Bool) (s : State) : Host.Outcome State Fault Refusal :=
  spdm mb busy (fun j => j.spdmReply mb 0x01 (leBytes 48 (Config.freeDigest 0).toNat)) s

/-- GET_CERTIFICATE (R377): a portion of the chain, its length and what remains. Any other slot is an invalid request. -/
def execGetCertificate (mb : Mailbox) (busy : Bool) (slot off len : Nat) (s : State) : Host.Outcome State Fault Refusal :=
  spdm mb busy (fun j =>
    if slot ≠ 0 ∨ certChain.length < off then j.spdmError mb 0x01
    else
      let part := (certChain.drop off).take len
      j.spdmReply mb 0x02 (leBytes 2 part.length ++ leBytes 2 (certChain.length - off - part.length) ++ part)) s

/-- CHALLENGE (R377): the chain's digest, a nonce, the requester's nonce as signed, and the signature. -/
def execChallenge (mb : Mailbox) (busy : Bool) (nonce : BitVec 256) (s : State) : Host.Outcome State Fault Refusal :=
  spdm mb busy (fun j =>
    if j.identityLost then j.spdmError mb 0x05
    else
      let (own, j) := j.drawn 32
      let (sig, j) := j.drawn 96
      j.spdmReply mb 0x03 (leBytes 48 (Config.freeDigest 0).toNat ++ own ++ leBytes 32 nonce.toNat ++ sig)) s

/-- GET_MEASUREMENTS (R378): every block, and the signature over the transcript, which holds the requester's nonce. -/
def execGetMeasurements (mb : Mailbox) (busy : Bool) (nonce : BitVec 256) (s : State) : Host.Outcome State Fault Refusal :=
  spdm mb busy (fun j =>
    if j.identityLost then j.spdmError mb 0x05
    else
      let (i, j) := j.free
      let blocks := j.measurements (Config.freeDigest (2 + i))
      let (sig, j) := j.drawn 96
      j.spdmReply mb 0x60 (leBytes 1 15 ++ leBytes 3 blocks.length ++ blocks ++ leBytes 32 nonce.toNat ++ sig)) s

/-- KEY_EXCHANGE (R379): a session more, at most 8; its response is signed with the identity key. -/
def execKeyExchange (mb : Mailbox) (busy : Bool) (chain : ChainRoot) (s : State) : Host.Outcome State Fault Refusal :=
  spdm mb busy (fun j =>
    if 8 ≤ j.dom.sessions.length then j.spdmError mb 0x0A
    else if j.identityLost then j.spdmError mb 0x05
    else
      let n := j.dom.nextSession
      let (key, j) := j.drawn 96
      let (sig, j) := j.drawn 96
      let x : Session := { id := n, mb := mb, root := chain, finished := false }
      (j.mapDom fun d => { d with sessions := d.sessions ++ [x], nextSession := n + 1 }).spdmReply mb 0x64
        (leBytes 4 n ++ key ++ sig)) s

/-- FINISH (R379): the handshake ends, or fails and ends the session. -/
def execFinish (mb : Mailbox) (busy : Bool) (sid : Nat) (ok : Bool) (s : State) : Host.Outcome State Fault Refusal :=
  spdm mb busy (fun j =>
    match j.session? mb sid with
    | none => j.spdmError mb 0x06
    | some _ =>
      if ok then
        let done := fun (x : Session) => if x.id = sid then { x with finished := true } else x
        (j.mapDom fun d => { d with sessions := d.sessions.map done }).spdmReply mb 0x65 []
      else (j.dropSession sid).spdmError mb 0x06) s

/-- HEARTBEAT (R379). -/
def execHeartbeat (mb : Mailbox) (busy : Bool) (sid : Nat) (s : State) : Host.Outcome State Fault Refusal :=
  inSession mb busy sid (fun _ j => j.spdmReply mb 0x68 []) s

/-- KEY_UPDATE (R379). -/
def execKeyUpdate (mb : Mailbox) (busy : Bool) (sid : Nat) (s : State) : Host.Outcome State Fault Refusal :=
  inSession mb busy sid (fun _ j => j.spdmReply mb 0x69 []) s

/-- END_SESSION (R379). -/
def execEndSession (mb : Mailbox) (busy : Bool) (sid : Nat) (s : State) : Host.Outcome State Fault Refusal :=
  inSession mb busy sid (fun _ j => (j.spdmReply mb 0x6C []).dropSession sid) s

/-- SPDM_SESSION_TIMEOUT (R379): 60 s with no message. -/
def execSpdmSessionTimeout (sid : Nat) (s : State) : Host.Outcome State Fault Refusal :=
  onBlocks (fun j => j.dropSession sid) s

/-! ### Vendor-defined requests (R381) -/

/-- SLOT_WRITE (R382, R383): while suspended, to slot 0 alone. -/
def execSlotWrite (mb : Mailbox) (busy : Bool) (sid slot : Nat) (key : List Byte) (persist : Bool) (s : State) :
    Host.Outcome State Fault Refusal :=
  onMemory (fun mem _ j =>
    if busy then (mem, (j.count blkDOM 0x808).spdmError mb 0x03)
    else
      match j.session? mb sid with
      | none => (mem, j.spdmError mb 0x06)
      | some x =>
        if !x.finished then (mem, j.spdmError mb 0x06)
        else if !j.slotPermitted x [.binding, .bound, .suspended] || (j.dom.tenant == .suspended && slot != 0) then
          (mem, j.vendorReply mb 4 [])
        else
          let r := writeSlot mem j slot key persist
          (r.1, r.2.2.vendorReply mb r.2.1 [])) s

/-- SLOT_ERASE (R382, R384): never of slot 1. -/
def execSlotErase (mb : Mailbox) (busy : Bool) (sid slot : Nat) (s : State) : Host.Outcome State Fault Refusal :=
  inSession mb busy sid (fun x j =>
    match j.slot? slot with
    | none => j.vendorReply mb (if j.slotPermitted x [.bound, .suspended] then 2 else 4) []
    | some k =>
      if !j.slotPermitted x [.bound, .suspended] || slot == 1 then j.vendorReply mb 4 []
      else (if k.state = .loaded then j.eraseSlot slot else j).vendorReply mb 0 []) s

/-- SLOT_STATUS (R381): the slot's DOM_SLOT word follows the result byte. -/
def execSlotStatus (mb : Mailbox) (busy : Bool) (sid slot : Nat) (s : State) : Host.Outcome State Fault Refusal :=
  inSession mb busy sid (fun x j =>
    if !j.slotPermitted x [.binding, .bound, .suspended] then j.vendorReply mb 4 []
    else
      match j.slot? slot with
      | none => j.vendorReply mb 2 []
      | some k =>
        j.vendorReply mb 0 (leBytes 4 (k.state.code * 2 ^ 29 + (if k.prev.isSome then 2 ^ 28 else 0)
          + (if k.staged.isSome then 2 ^ 27 else 0) + (if sealedSlot slot k then 2 ^ 26 else 0) + k.generation))) s

/-- DEBUG_UNLOCK (R391): the token covers the serial number and the session's nonce; the debug-disable fuse forbids it
(R373). -/
def execDebugUnlock (mb : Mailbox) (busy : Bool) (sid : Nat) (token : List Byte) (s : State) :
    Host.Outcome State Fault Refusal :=
  inSession mb busy sid (fun x j =>
    if x.root != .orowick || j.dom.tenant != .unbound || j.dom.life != .service || (j.dom.latched.getD 5 0) != 0
        || j.dom.unsettled.contains 5 then
      j.vendorReply mb 4 []
    else if Config.tokenVerifies j.dom.serial sid token then (j.mapDom fun d => { d with debug := true }).vendorReply mb 0 []
    else j.vendorReply mb 2 []) s

/-- PAIR_CHECK (R381, R350): from the companion that the Almanac names. -/
def execPairCheck (mb : Mailbox) (busy : Bool) (sid : Nat) (digest : BitVec 384) (rev : BitVec 16) (s : State) :
    Host.Outcome State Fault Refusal :=
  inSession mb busy sid (fun x j =>
    if mb != .companion || x.root != .companionModule j.cpn.pair.companion then j.vendorReply mb 4 []
    else (j.pairChecked digest rev).vendorReply mb 0 (leBytes 48 j.dom.digest.toNat ++ leBytes 2 j.arithRev)) s

/-! ### Key slots over time -/

/-- SLOT_ERASE_TIMEOUT (R384). -/
def execSlotEraseTimeout (slot : Nat) (s : State) : Host.Outcome State Fault Refusal :=
  onUnit (slot < 64) (onBlocks (fun j => j.endErase slot) s)

/-- KEY_GENERATION_RETIRE (R383). -/
def execKeyGenerationRetire (slot : Nat) (s : State) : Host.Outcome State Fault Refusal :=
  onUnit (slot < 64) (onBlocks (fun j => j.retireGen slot) s)

/-- REKEY_BATCH (R388). -/
def execRekeyBatch (coll : Nat) (pids : List Nat) (s : State) : Host.Outcome State Fault Refusal :=
  onBlocks (fun j => j.stageBatch coll pids) s

/-- VAULT_REKEY (R389): every vault object, master and sealed record stands in the new generation; how many pages that
programs, the manual does not say (DESIGN CHOICE, log entry 16). -/
def execVaultRekey (s : State) : Host.Outcome State Fault Refusal :=
  onBlocks (fun j =>
    if !j.dom.rekeyVault then j
    else
      let j := j.mapDom fun d => { d with rekeyVault := false }
      ((List.range 4).foldl (fun j b => j.programFree b) j).retireGen 1) s

end Sys2Proof.Machine
end

