-- ==== Sys2Proof/Machine/Tenancy.lean ====
section
/-! DEFINITION. Sys2Proof/Machine/Tenancy.lean: binding, unbinding and the scrub (R390), life-cycle changes up to their erase
(R372), the runtime fuse check (R374), the security version (R376) and management sessions (R392). -/

namespace Sys2Proof.Machine
open Jenjor

namespace Jenjor

/-- A management command that is refused, and the Logbook's record of it. -/
def refuseMgmt (j : Jenjor) (unit : Nat) : Jenjor := (j.discard unit 0).emit (.mgmt false 0)

def acceptMgmt (j : Jenjor) (v : BitVec 64) : Jenjor := j.emit (.mgmt true v)

/-! ### The scrub (R390) -/

/-- Writes past their acknowledgement point are published and complete with SUCCESS, a VISIBLE write with its epoch. -/
def publishAcked (j : Jenjor) : Jenjor :=
  let left := j.wr.journal.filter fun e => e.acked && e.visible && !e.completed && !e.discarded
  let j := j.mapJournal (fun e => e.acked && !e.discarded) fun e => { e with completed := true, published := true }
  left.foldl (fun j e =>
    j.complete e.ref .success (BitVec.ofNat 64 e.jr.seq) (BitVec.ofNat 64 (e.epoch.getD (j.wr.formed + 1))) none) j

/-- Steps 1 to 3: the state becomes scrubbing, commands in flight are answered, every key is destroyed. -/
def beginScrub (j : Jenjor) (t : ScrubThen) : Jenjor :=
  let j := j.mapDom fun d => { d with tenant := .scrubbing, scrub := some t }
  let j := j.publishAcked.endCommands .aborted
  let j : Jenjor := { j with coe := { j.coe with pass := none, rerun := none } }
  j.mapDom fun d => { d with sealedRec := none, slots := List.replicate 64 emptySlot, rekeySweep := false, rekeyVault := false }

/-- The record cache, which Jenjor creates whenever the catalogue is empty (R37): object 1, empty lines. -/
def makeCache (j : Jenjor) : Jenjor :=
  let n := j.spg.cacheSize
  let j : Jenjor := { j with spg := { j.spg with cachePages := (List.range n).map fun i => (i, 0), lines := [], reads := [] } }
  if j.cat.objs.any fun o => o.kind == 7 then j else (j.addObj 7 0 (n * mib2) 0 .sweep 0).2

/-- A cluster out of every ring, in service or spare as it was. -/
def freshCluster (c : Cluster) : Cluster :=
  { offCluster c.num with spare := c.spare, active := c.active && !c.retiring, failed := c.failed }

/-- The pair as it stands with nothing of its own: the link and the Almanac's settings alone. -/
def freshPair (p : PairData) : PairData :=
  { unpaired with mode := p.mode, pairId := p.pairId, companion := p.companion, lanes := p.lanes, spareLane := p.spareLane,
                  linkUp := p.linkUp, retraining := p.retraining, witnessOk := p.witnessOk, sendSeq := p.sendSeq,
                  peer := p.peer, readOnly := p.mode != 0,
                  pairState := if p.mode = 0 then .unpaired else if p.linkUp then .mismatch else .split }

/-- A reset that clears the catalogue (R37, R212, R216): no collection, object, plate, ring, query, write or list is left. -/
def clearCatalogue (j : Jenjor) : Jenjor :=
  let reset := fun (c : CoeCore) => { c with fault := none, faultValid := false }
  ({ j with
      cat := resetCat,
      sw := { resetSweep with clusters := j.sw.clusters.map freshCluster, dfReserve := j.sw.dfReserve },
      spg := { resetSpg with vaultShare := j.spg.vaultShare, cacheSize := j.spg.cacheSize, cacheMax := j.spg.cacheMax },
      coe := { resetCoe with cores := j.coe.cores.map reset },
      wr := { resetWrite with replatePct := j.wr.replatePct },
      mem := { j.mem with poison := [] },
      vlt := { j.vlt with extents := [] },
      cpn := { pair := freshPair j.cpn.pair, lists := [], merges := [] } } : Jenjor).makeCache

/-- The counters that a carrier keeps (R324, R330). -/
def carrierCounters (j : Jenjor) : List (Nat × Ctr) :=
  j.ctrs.filter fun c => [0, 1, 2, 3].any fun b => c.1 == blkBase blkVLT + 0x118 + b * 0x40

/-- Step 4 (R434): every register at its reset value, but those that show what the hardware stands at. Step 6: queue 0
alone is left, reset. -/
def clearRegisters (j : Jenjor) : Jenjor :=
  let j := j.resetRW
  { j with ctrs := j.carrierCounters, log := resetLog,
           qs := { resetQueues with msix := j.qs.msix },
           lnk := { j.lnk with qps := [], doePending := false } }

/-- TENANT_SCRUB_COMPLETE's new state (R390 step 6, R372 step 2). -/
def afterScrub (j : Jenjor) (t : ScrubThen) (us : Nat) : Jenjor :=
  let j := j.clearCatalogue.clearRegisters
  let j : Jenjor := { j with vlt := { j.vlt with erasing := true, flushMark := false } }
  j.mapDom fun d =>
    let d := { d with scrub := none, scrubLast := us % 2 ^ 32, transientKeys := d.transientKeys + 1 }
    match t with
    | .binding g => { d with tenant := .binding, digest := g }
    | .unbound => { d with tenant := .unbound, digest := 0 }
    | .lifeCycle next => { d with tenant := .unbound, digest := 0, lifeErase := some next }

/-- Tenancies that UNBIND and END_TENANCY end. -/
def tenanted (j : Jenjor) : Bool :=
  j.dom.tenant == .binding || j.dom.tenant == .bound || j.dom.tenant == .suspended

/-- A life-cycle change: only ever an advance, only while unbound, with Orowick's token for this serial (R371, R372). -/
def advanceLife (j : Jenjor) (role : Role) (next : LifeCycle) (token : List Byte) : Jenjor :=
  if role != .operator || j.dom.tenant != .unbound || j.dom.lifeErase.isSome || next.code ≤ j.dom.life.code
      || !(j.alm.step == 7 || j.alm.step == 8) || !Config.tokenVerifies j.dom.serial (2 ^ 32 + next.code) token then
    j.refuseMgmt next.code
  else (j.beginScrub (.lifeCycle next)).acceptMgmt 0

/-! ### Fuses (R373 to R376) -/

def popcount (w : BitVec 32) : Nat := ((List.range 32).filter fun i => w.getLsbD i).length

/-- The nine corrected reads of a word agree. -/
def settledReads (rs : List (BitVec 32)) : Bool := rs.length == 9 && rs.all fun r => r == rs.headD 0

/-- Thermometer words of the security version. -/
def secverWord (f i : Nat) : BitVec 32 := BitVec.ofNat 32 (2 ^ (min 32 (f - 32 * i)) - 1)

/-- Raise F, with its fuse words (R376). -/
def raiseSecver (j : Jenjor) : Jenjor :=
  let f := max j.dom.secverFuses (min 128 j.alm.runSecver)
  j.mapDom fun d =>
    { d with secverFuses := f,
             latched := ((List.range d.latched.length).zip d.latched).map fun x =>
               if 1 ≤ x.1 ∧ x.1 ≤ 4 then secverWord f (x.1 - 1) else x.2 }

end Jenjor

/-! ### Binding (R390) -/

/-- BIND (R390, R377): while unbound, in SERVICE, without debug authorisation, with an identity to attest; the tenancy is
known from start-up step 6 (R386). -/
def execBind (role : Role) (digest : BitVec 384) (s : State) : Host.Outcome State Fault Refusal :=
  onBlocks (fun j =>
    if role != .operator || j.dom.tenant != .unbound || j.dom.life != .service || j.dom.debug || j.identityLost
        || j.dom.lifeErase.isSome || !(j.alm.step == 7 || j.alm.step == 8) then j.refuseMgmt 0
    else (j.beginScrub (.binding digest)).acceptMgmt 0) s

/-- UNBIND (R390). -/
def execUnbind (role : Role) (s : State) : Host.Outcome State Fault Refusal :=
  onBlocks (fun j =>
    if role != .operator || !j.tenanted then j.refuseMgmt 0 else (j.beginScrub .unbound).acceptMgmt 0) s

/-- END_TENANCY (R381, R390). -/
def execEndTenancy (mb : Mailbox) (busy : Bool) (sid : Nat) (s : State) : Host.Outcome State Fault Refusal :=
  inSession mb busy sid (fun x j =>
    if !j.ofTenant x || !j.tenanted then (j.discard 0 0).vendorReply mb 4 []
    else (j.beginScrub .unbound).vendorReply mb 0 []) s

/-- TENANT_SCRUB_COMPLETE (R390 steps 4 to 6). -/
def execTenantScrubComplete (us : Nat) (s : State) : Host.Outcome State Fault Refusal :=
  match if s.j.live then s.j.dom.scrub else none with
  | none => .next s
  | some t => .next { s with mem := [], rmem := [], j := s.j.afterScrub t us }

/-- VAULT_BACKGROUND_ERASE (R390 step 7): the pass over every block has ended. -/
def execVaultBackgroundErase (s : State) : Host.Outcome State Fault Refusal :=
  onBlocks (fun j => if j.dom.lifeErase.isSome then j else { j with vlt := { j.vlt with erasing := false } }) s

/-! ### Life cycle, fuses and the security version -/

/-- LIFECYCLE_RMA (R371, R372). -/
def execLifecycleRma (role : Role) (token : List Byte) (s : State) : Host.Outcome State Fault Refusal :=
  onBlocks (fun j => j.advanceLife role .rma token) s

/-- LIFECYCLE_SCRAP (R371, R372). -/
def execLifecycleScrap (role : Role) (token : List Byte) (s : State) : Host.Outcome State Fault Refusal :=
  onBlocks (fun j => j.advanceLife role .scrapped token) s

/-- FUSE_RECHECK (R374): a word that disagrees with its latched value, or is settled no more, is counted; no latched value
changes. -/
def execFuseRecheck (reads : List (List (BitVec 32))) (s : State) : Host.Outcome State Fault Refusal :=
  onBlocks (fun j =>
    ((List.range j.dom.latched.length).zip (j.dom.latched.zip reads)).foldl (fun j x =>
      let bad := x.2.2.any (fun r => r != x.2.1) || (!j.dom.unsettled.contains x.1 && !settledReads x.2.2)
      if bad then (j.count blkDOM 0x818).info blkDOM x.1 0x818 0 else j) j) s

/-- FIRMWARE_COMMIT (R376). -/
def execFirmwareCommit (role : Role) (s : State) : Host.Outcome State Fault Refusal :=
  onBlocks (fun j => if role != .operator then j.refuseMgmt 0 else j.raiseSecver.acceptMgmt 0) s

/-! ### Management sessions (R392, R405) -/

/-- MGMT_TLS_HANDSHAKE (R392, R405): at most 10 a second from one source. With no security section in the recovery state,
the Orowick root alone is accepted. -/
def execMgmtTlsHandshake (_src : Nat) (ca : Option Nat) (inSecond : Nat) (s : State) : Host.Outcome State Fault Refusal :=
  onBlocks (fun j =>
    let role := ca.bind fun n =>
      if n = 8 then (if j.alm.step = 9 ∧ j.alm.cas = [] then some Role.operator else none) else j.alm.cas.lookup n
    match role with
    | none => (j.count blkDOM 0x820).emit (.mgmt false 0)
    | some r =>
      if 10 ≤ inSecond then (j.count blkDOM 0x820).emit (.mgmt false 0)
      else (j.mapDom fun d => { d with tls := d.tls ++ [(ca.getD 0, r)] }).acceptMgmt 0) s

end Sys2Proof.Machine
end

