-- ==== Sys2Proof/Machine/Almanac.lean ====
section
/-! DEFINITION. Sys2Proof/Machine/Almanac.lean: the configuration image (R394 to R402), live section reload (R408 to
R410), whole-image and firmware writes (R411, R412), the firmware switch (R413), and the ring boundary, where reloads take
effect (R89, R409). -/

namespace Sys2Proof.Machine
open Jenjor

/-! ### Validity (R396 to R401) -/

/-- Section type of a body (R400); none of a body of any other type, which is reserved. -/
def bodyType : SectionBody → Option Nat
  | .other _ => none
  | .identity .. => some 1
  | .islandPlan .. => some 2
  | .seeds .. => some 3
  | .catalogue .. => some 4
  | .rings .. => some 5
  | .queuePlan .. => some 6
  | .placement .. => some 7
  | .network .. => some 8
  | .security .. => some 9
  | .firmware .. => some 10

/-- Fields of a section's header (R397). -/
def secType (s : Section) : Nat := fieldAt s.header 0x04 1
def secGeneration (s : Section) : Nat := fieldAt s.header 0x08 4
def secOwner (s : Section) : BitVec 64 := BitVec.ofNat 64 (fieldAt s.header 0x10 8)
def secSerial (s : Section) : BitVec 96 := BitVec.ofNat 96 (fieldAt s.header 0x50 12)

/-- Every byte of a range is zero. -/
def zeroAt (bs : List Byte) (o n : Nat) : Bool := (bytesAt bs o n).all (· == 0)

/-- Mark, version and reserved bytes of a section header (R397). -/
def secHeaderOk (s : Section) : Bool :=
  let h := s.header
  h.length == 256 && fieldAt h 0x00 4 == 0x54434553 && fieldAt h 0x06 2 == 1 && zeroAt h 0x05 1 && zeroAt h 0x0C 4
    && zeroAt h 0x5C 4 && zeroAt h 0xC0 64

/-- Mark, record and reserved bytes of a firmware record's header (R402). -/
def fwHeaderOk (r : FwRecord) : Bool :=
  let h := r.header
  h.length == 256 && fwMark r == 0x57464C41 && fwWhich r ≤ 1 && fwLength r ≤ 16777216 && zeroAt h 0x05 1 && zeroAt h 0x0A 6
    && zeroAt h 0x14 12 && zeroAt h 0xB0 80

/-- A firmware record breaks a rule of its place, A or B (R402). -/
def fwRecordBad (isB : Bool) (r : FwRecord) : Bool := r.present && (!fwHeaderOk r || fwWhich r != (if isB then 1 else 0))

def round8 (n : Nat) : Nat := (n + 7) / 8 * 8

/-- Bytes of a body, where the manual gives its layout (R400, R402). -/
def bodyLength : SectionBody → Option Nat
  | .seeds rs => some (natSum (rs.map fun r => r.length))
  | .catalogue es => some (natSum (es.map fun e => round8 (60 + e.2.length)))
  | .rings es => some (natSum (es.map fun e => round8 (13 + 2 * e.colls.length)))
  | .queuePlan es => some (8 * es.length)
  | .firmware a b => some (512 + fwLength a + fwLength b)
  | _ => none

/-- The ring number of a ring entry. -/
def entryRing (e : RingEntry) : Nat := dField e.d 0x14 1

/-- A ring entry breaks a rule of R71 that needs no collection. -/
def ringEntryBad (e : RingEntry) : Bool :=
  let d := e.d ||| 0x48
  let win := dField d 0x1C 2
  reservedNonzero d || reservedCode d || 64 ≤ entryRing e || dField d 0x16 1 == 0 || dField d 0x17 1 < dField d 0x16 1
    || 16 < dField d 0x17 1 || (dField d 0x15 1 == 1 && dField d 0x17 1 != 1) || 7 < dField d 0x18 1
    || dField d 0x19 1 == 0 || (win != 0 && (win < 16 || 4096 < win))
    || (dField d 0x1A 1 / 128 == 1 && dField d 0x1A 1 % 64 == entryRing e)
    || e.colls.isEmpty || e.colls.eraseDups.length != e.colls.length

/-- A catalogue entry breaks a rule of R38, R39 or R67 that needs no other collection. -/
def entryBad (j : Jenjor) (d : Desc) (grid : List Byte) : Bool :=
  let j : Jenjor := { j with place := { j.place with photometric := true } }
  reservedNonzero (d ||| 0x40) || reservedCode (d ||| 0x40)
    || (j.collectionChecks d grid).any fun c => c.1 && (c.2 == .parameterInvalid || c.2 == .gridInvalid)

def planBad (e : PlanEntry) : Bool :=
  e.reserved != 0 || e.last < e.first || 4095 < e.last || e.kind == 0 || 5 < e.kind || 7 < e.maxPriority
    || 4 ≤ e.transports.toNat

/-- A network section breaks R341, R345 or R347. -/
def netBad (n : NetCfg) : Bool :=
  n.portOption.length != 2 || n.portOption.any (fun o => 1 < o) || n.mtu.length != 2
    || n.mtu.any (fun m => m < 1500 || 9216 < m) || 64 < n.prefixes.length || n.vectors == 0 || 2048 < n.vectors

/-- A value of a section's body breaks the rule of what it sets (R400, R401). -/
def bodyBad (j : Jenjor) : SectionBody → Bool
  | .identity _ _ mode => 3 < mode
  | .islandPlan ceil repair =>
    ceil.length != 29 || ((List.range 29).zip ceil).any (fun x => maxClock x.1 < x.2) || 16 < repair.length
      || repair.any fun r => 2 < r.1 || (if r.1 = 0 then 18 else if r.1 = 1 then 84 else 9) ≤ r.2
  | .seeds rs => rs.length != 84 || rs.any fun r => r.length != 256
  | .catalogue es => es.any fun e => entryBad j e.1 e.2
  | .rings es => es.any ringEntryBad || (es.map entryRing).eraseDups.length != es.length
  | .queuePlan es => 256 < es.length || es.any planBad
  | .placement mode promoteMin cacheMax cacheSize vaultShare dfReserve replatePct hours =>
    1 < mode || 65535 < promoteMin || (cacheSize != 0 && cacheSize < 128)
      || (mode == 1 && cacheMax != 0 && cacheMax < (if cacheSize = 0 then 128 else cacheSize))
      || (vaultShare != 0 && (vaultShare < 10 || 90 < vaultShare)) || 90 < dfReserve
      || (replatePct != 0 && (replatePct < 5 || 90 < replatePct)) || 168 < hours
  | .network n => netBad n
  | .security cas _ => 8 < cas.length || cas.any (fun c => 8 ≤ c.1) || (cas.map Prod.fst).eraseDups.length != cas.length
  | .firmware a b => fwRecordBad false a || fwRecordBad true b
  | .other _ => true

/-- A section is valid (R397, R398, R400, R401): `leaf` is the key of its chain's leaf. The firmware section carries no
signature. -/
def sectionOk (j : Jenjor) (owner : BitVec 64) (leaf : Nat) (s : Section) : Bool :=
  secHeaderOk s && bodyType s.body == some (secType s) && s.digestOk
    && (bodyLength s.body).all (fun n => n == fieldAt s.header 0x18 8)
    && 1 ≤ secGeneration s && secOwner s == owner && (secSerial s == 0 || secSerial s == j.dom.serial)
    && (if secType s = 10 then s.signer.isNone && zeroAt s.header 0x60 96 else s.signer == some leaf) && !bodyBad j s.body

def imageSection? (img : Image) (ty : Nat) : Option Section := img.sections.find? fun s => secType s == ty

/-- The image generation (R399). -/
def imageGeneration (img : Image) : Nat := img.sections.foldl (fun g s => max g (secGeneration s)) 0

/-- Directed placement is what a body selects. -/
def selectsDirected : SectionBody → Bool
  | .placement mode .. => mode == 0
  | _ => false

/-- Deep-field entries of a catalogue section. -/
def deepEntries : SectionBody → Bool
  | .catalogue es => es.any fun e => dField e.1 0x19 1 == 1
  | _ => false

namespace Jenjor

/-- The owner rule of R398. -/
def ownerOk (j : Jenjor) (owner : BitVec 64) : Bool := j.alm.owner == 0 || owner == j.alm.owner

def deepExists (j : Jenjor) : Bool := j.cat.colls.any fun c => c.deep

/-- An image is valid (R396 to R401, R239). -/
def imageOk (j : Jenjor) (img : Image) : Bool :=
  let types := img.sections.map fun s => secType s
  let directed := !types.contains 7 || img.sections.any fun s => selectsDirected s.body
  img.headerOk && 4096 ≤ img.length && img.length ≤ 67108864 && j.ownerOk img.owner
    && 6 ≤ types.length && types.length ≤ 10 && types.eraseDups.length == types.length
    && [1, 2, 3, 8, 9, 10].all types.contains && img.sections.all (sectionOk j img.owner img.leaf)
    && !(directed && (j.deepExists || img.sections.any fun s => deepEntries s.body))

/-- A firmware record is runnable (R402, R375). -/
def runnable (j : Jenjor) (r : FwRecord) : Bool :=
  r.present && fwHeaderOk r && r.sigOk && r.digestOk && j.dom.secverFuses ≤ fwSecver r

/-- The runnable records of an image. -/
def imageRunnable (j : Jenjor) (img : Image) : List Bool :=
  match imageSection? img 10 with
  | none => []
  | some s =>
    match s.body with
    | .firmware a b => (if j.runnable a then [false] else []) ++ (if j.runnable b then [true] else [])
    | _ => []

/-! ### Applying sections (R403, R409) -/

/-- Check a pair again (R350). -/
def recheckPair (j : Jenjor) : Jenjor :=
  let p := j.cpn.pair
  if p.mode = 0 then j.mapPair fun p => { p with pairState := .unpaired, readOnly := false, solo := false, behind := false }
  else
    j.mapPair fun q =>
      { q with readOnly := q.readOnly || !q.holder,
               pairState := if !q.linkUp then .split else if q.peer.any j.peerAgrees then .checking else .mismatch }

/-- The identity section: a change separates the pair, which is checked again. -/
def applyIdentity (j : Jenjor) (pairId : BitVec 64) (companion : BitVec 96) (mode : Nat) : Jenjor :=
  let p := j.cpn.pair
  if p.pairId = pairId ∧ p.companion = companion ∧ p.mode = mode then j
  else
    ((j.separate .mismatch).mapPair fun p =>
      { p with pairId := pairId, companion := companion, mode := mode }).recheckPair

/-- Set an island's ceiling: its clock follows where nothing else holds it. -/
def setCeil (j : Jenjor) (i c : Nat) : Jenjor :=
  let old := j.fullClock i
  let j := j.mapIsland i fun x => { x with ceil := c, ceilNext := none }
  let x := j.island i
  if x.clk = 0 then j
  else if j.fullClock i < x.clk || (x.clk = old && (!transit i || coolEnough x)) then j.setClock i (j.fullClock i)
  else j

/-- A ceiling waits for a ring boundary while any ring sweeps (R10, R409). -/
def ceilWaits (j : Jenjor) : Bool := j.sw.rings.any sweeping

/-- The ceilings of the island and clock plan. -/
def applyCeilings (j : Jenjor) (ceil : List Nat) : Jenjor :=
  (((List.range 29).zip ceil).foldl (fun j x =>
    if j.ceilWaits then j.mapIsland x.1 fun k => { k with ceilNext := some x.2 } else j.setCeil x.1 x.2) j).stretchAll

/-- Ceilings that waited for a boundary of a ring (R409). -/
def dueCeilings (j : Jenjor) (ring : Nat) : Jenjor :=
  let due := (List.range 29).filter fun i => ceilDue j ring i || (!j.ceilWaits && (j.island i).ceilNext.isSome)
  if due.isEmpty then j
  else (due.foldl (fun j i => j.setCeil i ((j.island i).ceilNext.getD 0)) j).stretchAll

/-- A live collection has the attributes that an entry names. -/
def sameColl (j : Jenjor) (c : Coll) (d : Desc) (grid : List Byte) : Bool :=
  let f := Format.ofCode (dField d 0x14 1)
  let ws := wordsOf grid
  let pay := ((j.obj? c.objPayload).map fun o => o.bytes).getD 0
  let sto := ((j.obj? c.objStore).map fun o => o.bytes).getD 0
  c.format == f && c.sidecar == Sidecar.ofCode (dField d 0x15 1) && c.dim == dField d 0x16 2
    && c.metric == Metric.ofCode (dField d 0x18 1) && c.deep == (dField d 0x19 1 == 1) && c.payloadMax == dField d 0x1A 2
    && c.store == (if dField d 0x1C 1 = 0 then .none else if dField d 0x1C 1 = 1 then .single else .multi)
    && (c.store == .none || c.storeFmt == (if dField d 0x1D 1 = 7 then .bf16 else .fp16))
    && c.bias.isSome == (dField d 0x1E 1 == 1) && pay == dField d 0x30 8 && sto == dField d 0x28 8
    && (!f.isInteger || (c.gridA == ws.take c.dim && c.gridB == ws.drop c.dim))

/-- A catalogue entry, applied as a COLLECTION_CREATE that is no command: it takes no catalogue sequence number, and the
lease does not hold it. One that fails is recorded. -/
def applyEntryColl (j : Jenjor) (e : Desc × List Byte) : Jenjor :=
  let n := dField e.1 0x04 2
  let bad := fun (j : Jenjor) (st : Status) => j.record 0 blkDEV n 0xFFFF 0 st.code 0
  match j.cat.colls.find? fun c => c.num == n with
  | some c => if !c.deleting && j.sameColl c e.1 e.2 then j else bad j .idInUse
  | none =>
    match firstStatus ((j.collectionChecks e.1 e.2).filter fun c => c.2 != .readOnly) with
    | some st => bad j st
    | none =>
      match j.allocate (1 + dField e.1 0x1E 1) [] with
      | .granted j => j.addCollection e.1 e.2
      | .limit => bad j .limitReached
      | .wait _ j => bad j .poolBusy

/-- A ring entry, applied as a RING_DEFINE that is no command: a started ring takes its parameters and list at its next
boundary. -/
def applyEntryRing (j : Jenjor) (e : RingEntry) : Jenjor :=
  let n := entryRing e
  let stopped := (j.ring? n).all fun r => r.phase == .stopped
  match ringDefBad (j.mapRing n fun r => { r with phase := .stopped }) n e.d e.colls with
  | some st => j.record 0 blkMER n 0xFFFF 0 st.code 0
  | none => if stopped then defineRing j n e.d e.colls else j.enterSwitch n (.redefine e)

/-- The ring numbers of a ring section. -/
def ringNumbers : SectionBody → List Nat
  | .rings es => es.map entryRing
  | _ => []

/-- The ring section: a stopped ring that the section no longer names loses the definition that the Almanac gave it; the
entries of the rings `entered` wait for those rings' own boundaries. Clusters are assigned anew (R74). -/
def applyRings (j : Jenjor) (old entered : List Nat) (es : List RingEntry) : Jenjor :=
  let gone := old.filter fun n => !(es.map entryRing).contains n
  let j := j.mapRings fun r =>
    if gone.contains r.num && r.phase == .stopped then { r with defn := none, view := [], marks := [] } else r
  ((es.filter fun e => !entered.contains (entryRing e)).foldl applyEntryRing j).reassign

/-- The placement and upkeep section: zero selects a default. -/
def applyPlacement (j : Jenjor) (mode promoteMin cacheMax cacheSize vaultShare dfReserve replatePct hours : Nat) : Jenjor :=
  let dflt := fun (v d : Nat) => if v = 0 then d else v
  let size := dflt cacheSize 128
  { j with place := { photometric := mode == 1, promoteMin := dflt promoteMin 64 },
           spg := { j.spg with vaultShare := dflt vaultShare 80, cacheSize := size, cacheMax := dflt cacheMax size },
           sw := { j.sw with dfReserve := dflt dfReserve 25 },
           wr := { j.wr with replatePct := dflt replatePct 25 },
           mem := { j.mem with hours := dflt hours 24 } }

/-- The network section: a port whose options change retrains, queue pairs on a port whose address changes fail. -/
def applyNetwork (j : Jenjor) (n : NetCfg) : Jenjor :=
  let old := j.alm.net
  let j : Jenjor := { j with alm := { j.alm with net := n }, lnk := { j.lnk with vectors := n.vectors } }
  (List.range 2).foldl (fun j p =>
    let moved := old.portIpv4.getD p [] != n.portIpv4.getD p [] || old.portIpv6.getD p [] != n.portIpv6.getD p []
    let j : Jenjor := if old.portOption.getD p 0 = n.portOption.getD p 0 then j
      else { j with lnk := { j.lnk with ports := j.lnk.ports.set p { up := false, speed := 0 } } }
    if moved then ((j.lnk.qps.filter fun q => q.port == p).map fun q => q.num).foldl qpError j else j) j

/-- The security section: sessions under a removed CA close. -/
def applySecurity (j : Jenjor) (cas : List (Nat × Role)) (witnessCa : Bool) : Jenjor :=
  ({ j with alm := { j.alm with cas := cas, witnessCa := witnessCa } } : Jenjor).mapDom fun d =>
    { d with tls := d.tls.filter cas.contains }

/-- Give a section's body effect. `old` are the ring numbers of the section that it replaces, `entered` those of the rings
whose entries wait. Where directed placement begins, the moves that heat asked for end (R239). -/
def applyBody (j : Jenjor) (old entered : List Nat) : SectionBody → Jenjor
  | .other _ => j
  | .identity pairId companion mode => j.applyIdentity pairId companion mode
  | .islandPlan ceil _ => j.applyCeilings ceil
  | .seeds _ => j
  | .catalogue es => es.foldl applyEntryColl j
  | .rings es => j.applyRings old entered es
  | .queuePlan es => { j with alm := { j.alm with plan := es, planSet := true } }
  | .placement mode promoteMin cacheMax cacheSize vaultShare dfReserve replatePct hours =>
    let j := j.applyPlacement mode promoteMin cacheMax cacheSize vaultShare dfReserve replatePct hours
    let j := if j.place.photometric then j else j.dropHeatSlews
    (j.fitCache.cutGrants).regrant
  | .network n => j.applyNetwork n
  | .security cas witnessCa => j.applySecurity cas witnessCa
  | .firmware a b => { j with alm := { j.alm with fwA := a, fwB := b } }

/-! ### Section reload (R408 to R410) -/

/-- A running ring that a ring section leaves out or gives another kind, format or dimension. -/
def ringsClash (j : Jenjor) : SectionBody → Bool
  | .rings es =>
    j.sw.rings.any fun r => r.phase != .stopped && r.defn.any fun d =>
      match es.find? fun e => entryRing e == r.num with
      | none => true
      | some e => (dField e.d 0x15 1 == 1) != d.deep || (e.colls.filterMap j.liveColl?).any fun c =>
          c.format != d.format || c.dim != d.dim
  | _ => false

def changesVectors (j : Jenjor) : SectionBody → Bool
  | .network n => n.vectors != j.lnk.vectors
  | _ => false

/-- Why a reload is refused (R408). -/
def reloadStatus (j : Jenjor) (s : Section) : Option Status :=
  let owner := ((j.alm.image).map fun i => i.owner).getD 0
  firstStatus
    [ (!sectionOk j owner j.alm.leaf s || secType s == 10, .parameterInvalid),
      (selectsDirected s.body && j.deepExists, .parameterInvalid),
      (deepEntries s.body && !j.place.photometric, .parameterInvalid),
      (secGeneration s ≤ j.alm.generation, .parameterInvalid),
      (j.alm.pending, .parameterInvalid),
      (j.alm.generation == 0xFFFFFFFF, .limitReached),
      (j.ringsClash s.body, .ringBusy),
      (j.changesVectors s.body && !j.pcieQueues.isEmpty, .parameterInvalid) ]

/-- A reload that nothing holds is refused, or accepted with its place in the catalogue order. -/
def acceptReload (j : Jenjor) (src : Option CmdRef) (s : Section) : Jenjor :=
  match j.reloadStatus s with
  | some st =>
    let j := (j.record 0 blkDEV (secType s) 0x628 0 st.code 0).count blkDEV 0x628
    match src with
    | some c => j.refuse c st
    | none => j.emit (.mgmt false (st.code.setWidth 64))
  | none =>
    let j := j.nextSeq.2
    { j with alm := { j.alm with
        reloads := j.alm.reloads ++ [{ src := src, mgmt := src.isNone, seq := j.cat.seq, sec := s, persisted := false,
                                        replaced := [], entered := [] }] } }

/-- Put a section in the place of the one of its type. -/
def putSection (s : Section) (img : Image) : Image :=
  { img with sections := img.sections.filter (fun x => secType x != secType s) ++ [s] }

/-- Both devices, and the image in force, hold a section from here (R410 steps 1 and 2). -/
def storeSection (j : Jenjor) (s : Section) : Jenjor :=
  let put := fun (d : Device) => { d with image := d.image.map (putSection s) }
  { j with alm := { j.alm with primary := put j.alm.primary, alternate := put j.alm.alternate,
                               image := j.alm.image.map (putSection s), runtimeSeq := j.alm.runtimeSeq + 1 } }

/-- Ring numbers of the ring section in force. -/
def almanacRings (j : Jenjor) : List Nat :=
  ((j.alm.image.bind fun i => imageSection? i 5).map fun s => ringNumbers s.body).getD []

/-- Sections that take effect at the boundary of R409; the others take effect at once, or each part at a time of its
own. -/
def waitsBoundary (s : Section) : Bool := [1, 5, 7, 8].contains (secType s)

/-- A reload takes effect and completes (R410 steps 3 and 4). -/
def finishReload (j : Jenjor) (r : Reload) : Jenjor :=
  let j := (j.applyBody r.replaced r.entered r.sec.body).count blkDEV 0x620
  let j : Jenjor := { j with alm := { j.alm with reloads := j.alm.reloads.filter fun x => x.seq != r.seq } }
  let g := BitVec.ofNat 64 (secGeneration r.sec)
  match r.src with
  | some c => j.complete c .success (BitVec.ofNat 64 r.seq) g none
  | none => j.emit (.mgmt true g)

/-- A firmware record whose arithmetic no ring may run through (R121). -/
def arithBars (j : Jenjor) (r : FwRecord) : Bool := fwArith r != j.arithRev && j.sw.rings.any holdsClusters

/-- The command of R413 that nothing holds. -/
def beginSwitch (j : Jenjor) (b : Bool) (c : CmdRef) : Jenjor :=
  let r := j.fwRec b
  if b = j.alm.running then j.complete c .success 0 (BitVec.ofNat 64 j.alm.runSecver) none
  else if !j.runnable r then j.refuse c .parameterInvalid
  else if j.arithBars r then (j.discard 0 0x54).refuse c .parameterInvalid
  else { j with alm := { j.alm with switchTo := some (b, some c) } }

/-- A write of an image, a reload that is not persisted, or a switch is under way. -/
def almanacBusy (j : Jenjor) : Bool :=
  j.alm.writing.isSome || j.alm.switchTo.isSome || j.alm.reloads.any fun r => !r.persisted

/-- Let what waits proceed, as far as it may: reloads, then image writes, then switches. -/
def almanacProceed : Nat → Jenjor → Jenjor
  | 0, j => j
  | fuel + 1, j =>
    if j.almanacBusy then j
    else
      match j.alm.reloadsWaiting, j.alm.writesWaiting, j.alm.switchesWaiting with
      | x :: xs, _, _ => almanacProceed fuel ((({ j with alm := { j.alm with reloadsWaiting := xs } }) : Jenjor).acceptReload x.1 x.2)
      | [], i :: is, _ => { j with alm := { j.alm with writing := some i, writesWaiting := is } }
      | [], [], x :: xs =>
        if j.alm.reloads.isEmpty then
          almanacProceed fuel ((({ j with alm := { j.alm with switchesWaiting := xs } }) : Jenjor).beginSwitch x.1 x.2)
        else j
      | [], [], [] => j

def proceed (j : Jenjor) : Jenjor :=
  j.almanacProceed (j.alm.reloadsWaiting.length + j.alm.writesWaiting.length + j.alm.switchesWaiting.length)

/-- The reload under way is persisted (R410): generation and floor rise; it takes effect at once, or at the boundary. A
sweeping ring enters its new definition for its next boundary. -/
def persistReload (j : Jenjor) (r : Reload) : Jenjor :=
  let later := waitsBoundary r.sec && j.sw.rings.any sweeping
  let mine := match r.sec.body with
    | .rings es => if later then es.filter fun e => (j.ring? (entryRing e)).any sweeping else []
    | _ => []
  let r := { r with persisted := true, replaced := j.almanacRings, entered := mine.map entryRing }
  let mark := fun (x : Reload) => if x.seq = r.seq then r else x
  let g := secGeneration r.sec
  let j := (({ j with alm := { j.alm with generation := g, floor := g,
                                          reloads := j.alm.reloads.map mark } }) : Jenjor).storeSection r.sec
  let j := if later then mine.foldl applyEntryRing j else j.finishReload r
  j.proceed

/-- What follows a ring boundary: reloads that waited for it, and the ceilings of the ring's clusters (R409). -/
def afterBoundary (j : Jenjor) (n : Nat) : Jenjor :=
  let due := j.alm.reloads.filter fun r => r.persisted
  let j := due.foldl finishReload j
  let j := if due.isEmpty then j else j.proceed
  j.dueCeilings n

/-! ### Image and firmware writes (R411, R412) -/

/-- Why an image is not written. -/
def imageRefused (j : Jenjor) (img : Image) : Bool :=
  !j.imageOk img || imageGeneration img ≤ j.alm.floor || (j.imageRunnable img).isEmpty

/-- An accepted image is written once nothing holds it. -/
def acceptImage (j : Jenjor) (img : Image) : Jenjor :=
  ({ j with alm := { j.alm with writesWaiting := j.alm.writesWaiting ++ [img] } } : Jenjor).proceed

/-- Both devices hold the image from here: it takes effect at the next start; the floor rises, and the first owner is
bound (R398, R399). -/
def imageWritten (j : Jenjor) (img : Image) : Jenjor :=
  let put := fun (d : Device) => { d with pendingImage := some img }
  { j with alm := { j.alm with primary := put j.alm.primary, alternate := put j.alm.alternate, writing := none,
                               pending := true, floor := imageGeneration img, owner := img.owner,
                               runtimeSeq := j.alm.runtimeSeq + 1 } }

/-- A firmware section with one record replaced. -/
def putRecord (isB : Bool) (r : FwRecord) (s : Section) : Section :=
  { s with body := match s.body with
      | .firmware a b => if isB then .firmware a r else .firmware r b
      | x => x }

/-- Store a firmware record in both devices and the image in force. -/
def storeRecord (j : Jenjor) (isB : Bool) (r : FwRecord) : Jenjor :=
  let img := fun (i : Image) => { i with sections := i.sections.map (putRecord isB r) }
  let put := fun (d : Device) => { image := d.image.map img, pendingImage := d.pendingImage.map img : Device }
  { j with alm := { j.alm with primary := put j.alm.primary, alternate := put j.alm.alternate,
                               image := j.alm.image.map img, runtimeSeq := j.alm.runtimeSeq + 1,
                               fwA := if isB then j.alm.fwA else r, fwB := if isB then r else j.alm.fwB } }

/-! ### The switch (R413) -/

/-- The new image runs: sessions end, the selection is recorded, and other arithmetic separates the pair (R350). -/
def switchImage (j : Jenjor) (b : Bool) (c : Option CmdRef) : Jenjor :=
  let before := j.arithRev
  let v := fwSecver (j.fwRec b)
  let j : Jenjor := { j with alm := { j.alm with running := b, runSecver := v, selected := some b, switchTo := none,
                                                 runtimeSeq := j.alm.runtimeSeq + 1 } }
  let j := j.mapDom fun d => { d with sessions := [], tls := [] }
  let j := if j.arithRev = before then j else (j.separate .mismatch).recheckPair
  match c with
  | some c => j.complete c .success 0 (BitVec.ofNat 64 v) none
  | none => j

/-- The switch under way ends without the new image. -/
def dropSwitch (j : Jenjor) (c : Option CmdRef) (st : Status) : Jenjor :=
  let j : Jenjor := { j with alm := { j.alm with switchTo := none } }
  match c with
  | some c => j.refuse c st
  | none => j

end Jenjor

/-- SECTION_RELOAD (R408, R410), from a queue or the management port. -/
def execSectionReload (src : Option Nat) (sec : Section) (s : State) : Host.Outcome State Fault Refusal :=
  onBlocks (fun j =>
    let go := fun (j : Jenjor) (c : Option CmdRef) =>
      if j.almanacBusy || !j.alm.reloadsWaiting.isEmpty then
        { j with alm := { j.alm with reloadsWaiting := j.alm.reloadsWaiting ++ [(c, sec)] } }
      else j.acceptReload c sec
    match src with
    | none => if j.alm.step == 7 || j.alm.step == 8 then go j none else j.refuseMgmt 0x53
    | some q =>
      match j.takeCatalogue q 0x53 with
      | none => j
      | some (f, j) => go j (some f.ref)) s

/-- SECTION_PERSISTED (R410). -/
def execSectionPersisted (s : State) : Host.Outcome State Fault Refusal :=
  onBlocks (fun j =>
    match j.alm.reloads.find? fun r => !r.persisted with
    | none => j
    | some r => j.persistReload r) s

/-- FIRMWARE_SWITCH (R413): one that comes while a reload or an image write runs waits for it. -/
def execFirmwareSwitch (q : Nat) (s : State) : Host.Outcome State Fault Refusal :=
  onBlocks (fun j =>
    match j.takeFetched q 0x54 with
    | none => j
    | some (f, j) =>
      let b := dField f.d 0x08 1 == 1
      if j.almanacBusy || !j.alm.reloads.isEmpty || !j.alm.reloadsWaiting.isEmpty || !j.alm.switchesWaiting.isEmpty then
        { j with alm := { j.alm with switchesWaiting := j.alm.switchesWaiting ++ [(b, f.ref)] } }
      else j.beginSwitch b f.ref) s

/-- FIRMWARE_SWITCH_APPLY (R413): a ring may have started, or the record changed, since the switch was accepted (R121). -/
def execFirmwareSwitchApply (s : State) : Host.Outcome State Fault Refusal :=
  onBlocks (fun j =>
    match j.alm.switchTo with
    | none => j
    | some (b, c) =>
      if j.arithBars (j.fwRec b) then ((j.discard 0 0x54).dropSwitch c .parameterInvalid).proceed
      else (j.switchImage b c).proceed) s

/-- FIRMWARE_SWITCH_WATCHDOG (R413): the old image goes on. -/
def execFirmwareSwitchWatchdog (s : State) : Host.Outcome State Fault Refusal :=
  onBlocks (fun j =>
    match j.alm.switchTo with
    | none => j
    | some (_, c) => (j.dropSwitch c .internalError).proceed) s

/-- A stopping ring whose list is empty passes no boundary: its stop completes once no rider is left (R73). -/
def stopSettles (j : Jenjor) (r : Ring) : Bool := r.phase == .stopping && r.view.isEmpty && (j.ridersOf r.num).isEmpty

/-- RING_BOUNDARY (R89), and the reloads that take effect there (R409); for a stopping ring whose list is empty, the
completion of its stop. -/
def execRingBoundary (ring : Nat) (s : State) : Host.Outcome State Fault Refusal :=
  onUnit (decide (ring < 64)) (onBlocks (fun j =>
    match j.ring? ring with
    | none => j
    | some r =>
      if stopSettles j r then
        let j := (j.stopRing ring).reassign
        if j.sw.rings.any sweeping then j else j.afterBoundary ring
      else if holdsClusters r && !r.passList.isEmpty && passFinished j r then (j.boundary ring).afterBoundary ring
      else j) s)

end Sys2Proof.Machine
end

