-- ==== Sys2Proof/Machine/Start.lean ====
section
/-! DEFINITION. Sys2Proof/Machine/Start.lean: power and reset (R319, R455 to R457), the start-up sequence (R403 to R407,
R219, R307, R373, R386), the end of a life-cycle change (R372), the writes that end in a reset (R405, R411, R412), and the
board's low-speed interfaces (R464 to R466). -/

namespace Sys2Proof.Machine
open Jenjor

namespace Jenjor

/-! ### What outlives a reset -/

/-- Journal entries that the vault holds: those in the journal region, or in the buffer when it was flushed. No completion
is owed any more (R219). -/
def keptEntries (j : Jenjor) (flushed : Bool) : List JEntry :=
  (j.wr.journal.filter fun e =>
      !e.discarded && (e.published || e.programmed || (flushed && (e.localDurable || j.wr.buffer.contains e.jr.seq)))).map
    fun e => { e with acked := true, completed := true, localDurable := true, programmed := true, waiting := false }

/-- The keys live after every write of a list, in journal order (R212). -/
def acceptedKeys (dir : List (BitVec 64)) (es : List JEntry) : List (BitVec 64) :=
  es.foldl (fun ks e =>
    if e.jr.op = .insert then e.jr.key :: ks.filter (· != e.jr.key)
    else if e.jr.op = .delete then ks.filter (· != e.jr.key) else ks) dir

/-- A collection as its vault copy and the journal restore it. -/
def keptColl (es : List JEntry) (c : Coll) : Coll :=
  let mine := es.filter fun e => e.jr.coll == c.num && !e.published
  { c with hdrLog := [], accepted := acceptedKeys (c.dir.map fun d => d.1) mine,
           bias := c.bias.map fun b => { b with inStore := false, peerDone := false, doneSent := false } }

/-- An object after a reset: packages lie in the vault, what was in SRAM is in sweep memory. -/
def keptObj (o : Obj) : Obj :=
  let o := { o with lastUse := 0, heat := 0 }
  if o.kind = 4 then { o with tier := .vault, pages := 0 }
  else if o.kind = 5 then { o with tier := .sweep, pages := 1 }
  else if o.tier = .sram then { o with tier := .sweep, pages := pagesOf o.bytes }
  else o

/-- A plate after a reset. -/
def keptPlate (p : Plate) : Plate := { p with source := false, quarantined := false, lost := false, present := true }

/-- A device after a reset: a stored image is in force. -/
def keptDevice (d : Device) : Device := { image := d.pendingImage.or d.image, pendingImage := none }

/-- The module without power or in reset: what its vault, flashes and fuses hold, and the level of its pins; every other
register at its reset value (R434). Tile regions and program images have no vault home: their bytes are gone (log entry
33). `flushed`: the journal buffer reached the journal region. -/
def shutDown (flushed : Bool) (mem : List Host.Cell) (j : Jenjor) : List Host.Cell × Jenjor :=
  let es := j.keptEntries flushed
  let pids := (j.cat.plates.filter fun p => !p.retiring).map fun p => p.pid
  let es := es.map fun e => { e with touched := e.touched.filter pids.contains }
  let seqs := es.map fun e => e.jr.seq
  let top := seqs.foldl max j.wr.ackSeq
  let p := j.cpn.pair
  let r := Jenjor.reset
  let k : Jenjor :=
    { r with
        freeIdx := j.freeIdx, out := j.out,
        cat := { resetCat with colls := j.cat.colls.map (keptColl es), objs := j.cat.objs.map keptObj,
                               plates := (j.cat.plates.filter fun p => !p.retiring).map keptPlate,
                               nextPid := j.cat.nextPid, seq := j.cat.seq, nextId := j.cat.nextId },
        wr := { resetWrite with epoch := j.wr.epoch, formed := j.wr.formed, nextSeq := top + 1, ackSeq := top, journal := es,
                                commits := j.wr.commits.map fun c => { c with seqs := c.seqs.filter seqs.contains,
                                                                              waited := false },
                                region := natSum (es.map fun e => e.jr.bytes) },
        vlt := { resetVault with extents := j.vlt.extents, holdupLast := j.vlt.holdupLast, flushMark := j.vlt.flushMark, erasing := j.vlt.erasing },
        lnk := { resetLink with perstHigh := j.lnk.perstHigh },
        cpn := { r.cpn with pair := { unpaired with
                   lease := p.lease, holder := p.holder, ceiling := p.ceiling, peerEpoch := p.peerEpoch,
                   splitEpoch := if j.inPair then j.wr.epoch else p.splitEpoch } },
        dom := { resetDome with life := j.dom.life, secverFuses := j.dom.secverFuses, seedErased := j.dom.seedErased,
                                lifeErase := j.dom.lifeErase, sealedRec := j.dom.sealedRec,
                                transientKeys := j.dom.transientKeys + 1 },
        alm := { resetAlmanac with floor := j.alm.floor, owner := j.alm.owner, primary := keptDevice j.alm.primary,
                                   alternate := keptDevice j.alm.alternate, selected := j.alm.selected,
                                   runtimeSeq := j.alm.runtimeSeq, training := j.alm.training },
        isl := { resetIslands with straps := j.isl.straps, resetLow := j.isl.resetLow } }
  (clearExtents mem (j.cat.objs.filter fun o => o.kind == 8 || o.kind == 9), k)

/-- Start step 1 (R403). The hold-up bank is weak until a measurement passes (R320, R455). -/
def beginStart (j : Jenjor) : Jenjor :=
  { j with alm := { j.alm with step := 1 }, vlt := { j.vlt with holdupWeak := true },
           isl := { j.isl with power := .starting } }

/-- A reset that leads to a new start at once. -/
def restart (mem : List Host.Cell) (j : Jenjor) : List Host.Cell × Jenjor :=
  let (mem, j) := shutDown true mem j
  (mem, j.beginStart)

/-! ### Step 1: fuses (R373, R371) -/

/-- The nine reads of a fuse word. -/
def wordReads (reads : List (List (BitVec 32))) (w : Nat) : List (BitVec 32) := reads.getD w []

/-- The resolved value of a word: what all nine reads agree on, otherwise what its group resolves to. -/
def resolveWord (reads : List (List (BitVec 32))) (w : Nat) : BitVec 32 :=
  let rs := wordReads reads w
  if settledReads rs then rs.headD 0 else if w < 5 then rs.foldl (· ||| ·) 0 else 0

/-- The life-cycle state of a thermometer word: one bit for each state. -/
def lifeOf (w : BitVec 32) : LifeCycle :=
  if w.getLsbD 3 then .scrapped else if w.getLsbD 2 then .rma else if w.getLsbD 1 then .service else .test

/-- The later of two life-cycle states: a state only advances. -/
def laterLife (a b : LifeCycle) : LifeCycle := if a.code < b.code then b else a

/-- The highest count that any read of the security version shows. -/
def secverOf (reads : List (List (BitVec 32))) : Nat :=
  ((List.range 9).map fun i =>
    natSum ((List.range 4).map fun w => popcount ((wordReads reads (w + 1)).getD i 0))).foldl max 0

/-- The ordering code "AZ-8400-B0" (R437). -/
def orderCode : BitVec 128 := 0x30422D303034382D5A41#128

def readFuses (j : Jenjor) (reads : List (List (BitVec 32))) : Jenjor :=
  let life := laterLife j.dom.life (lifeOf (resolveWord reads 0))
  let j := j.mapDom fun d =>
    { d with life := life, secverFuses := max d.secverFuses (min 128 (secverOf reads)),
             latched := (List.range 46).map (resolveWord reads),
             unsettled := (List.range 46).filter fun w => !settledReads (wordReads reads w),
             seedErased := d.seedErased || life == .scrapped,
             serial := Config.serial, mac := Config.mac, order := orderCode, stepping := 0xB0 }
  { j with alm := { j.alm with step := 2 } }

/-! ### Steps 2 and 3: firmware and image (R402 to R405) -/

/-- The recovery state. Its management clients come from the last valid security section on either device. -/
def recover (j : Jenjor) : Jenjor :=
  let cas := (j.alm.primary.image.toList ++ j.alm.alternate.image.toList).findSome? fun i =>
    (imageSection? i 9).bind fun s => if sectionOk j i.owner i.leaf s then some s.body else none
  let j : Jenjor := { j with alm := { j.alm with step := 9, cas := [] } }
  let j := match cas with
    | some (.security cas w) => j.applySecurity cas w
    | _ => j
  j.raiseEndpoint

/-- The firmware records that the boot ROM finds: of the primary's image, or else of the alternate's. -/
def bootRecords (j : Jenjor) : Option (Image × List Bool) :=
  (j.alm.primary.image.toList ++ j.alm.alternate.image.toList).findSome? fun i =>
    if (j.imageRunnable i).isEmpty then none else some (i, j.imageRunnable i)

def bootFirmware (j : Jenjor) : Jenjor :=
  match j.bootRecords with
  | none => j.recover
  | some (i, ok) =>
    let want := j.alm.selected.getD false
    let run := if ok.contains want then want else !want
    let j := match (imageSection? i 10).map fun s => s.body with
      | some (SectionBody.firmware a b) => { j with alm := { j.alm with fwA := a, fwB := b } }
      | _ => j
    { j with alm := { j.alm with running := run, runSecver := fwSecver (j.fwRec run), step := 3 } }

/-- An image that a start accepts (R399, R404). -/
def startImage (j : Jenjor) (d : Device) : Option Image :=
  d.image.filter fun i => j.imageOk i && j.alm.floor ≤ imageGeneration i

/-- The sections that step 3 puts in force; catalogue and ring entries follow in step 6. -/
def applyEarly (j : Jenjor) : SectionBody → Jenjor
  | .identity pairId companion mode =>
    j.mapPair fun p => { p with pairId := pairId, companion := companion, mode := mode, readOnly := mode != 0,
                                pairState := if mode = 0 then .unpaired else .split }
  | .islandPlan ceil _ => ((List.range 29).zip ceil).foldl (fun j x => j.mapIsland x.1 fun k => { k with ceil := x.2 }) j
  | .queuePlan es => { j with alm := { j.alm with plan := es, planSet := true } }
  | .placement mode promoteMin cacheMax cacheSize vaultShare dfReserve replatePct hours =>
    j.applyPlacement mode promoteMin cacheMax cacheSize vaultShare dfReserve replatePct hours
  | .network n => { j with alm := { j.alm with net := n }, lnk := { j.lnk with vectors := n.vectors } }
  | .security cas w => j.applySecurity cas w
  | _ => j

def readImage (j : Jenjor) : Jenjor :=
  let p := j.startImage j.alm.primary
  let a := j.startImage j.alm.alternate
  match p.or a with
  | none => j.recover
  | some i =>
    let alt := p.isNone
    let differ := j.alm.primary.image != j.alm.alternate.image
    let j : Jenjor := { j with alm := { j.alm with
      image := some i, generation := imageGeneration i, leaf := i.leaf, source := alt,
      otherBad := if alt then true else a.isNone, pending := false, repairing := alt || differ,
      owner := if j.alm.owner = 0 then i.owner else j.alm.owner, step := 4 } }
    (i.sections.map fun s => s.body).foldl applyEarly (j.applyPlacement 0 0 0 0 0 0 0 0)

/-! ### Step 4: spares and clocks (R373, R403, R15) -/

/-- The spares that the repair fuses assign, or the soft-repair table where a word is unsettled or unprogrammed. -/
def repairs (j : Jenjor) : List (Nat × Nat) :=
  let soft := ((j.alm.image.bind fun i => imageSection? i 2).map fun s =>
    match s.body with
    | .islandPlan _ r => r
    | _ => []).getD []
  (List.range 16).filterMap fun i =>
    let w := j.dom.latched.getD (30 + i) 0
    if w = 0 ∨ j.dom.unsettled.contains (30 + i) then soft[i]? else some (Config.repairUnit w)

/-- The spare of a transit die, and of the encoder: as assigned, otherwise the highest-numbered. -/
def spareUnit (j : Jenjor) (kind lo hi : Nat) : Nat :=
  (((j.repairs.filter fun r => r.1 == kind && lo ≤ r.2 && r.2 ≤ hi).head?).map fun r => r.2).getD hi

def assignSpares (j : Jenjor) : Jenjor :=
  let a := j.spareUnit 0 0 8
  let b := j.spareUnit 0 9 17
  let c := j.spareUnit 2 0 8
  let core := fun (x : Nat × CoeCore) => { x.2 with spare := x.1 == c, active := x.1 != c }
  { j with
      sw := { j.sw with clusters := j.sw.clusters.map fun x =>
                let s := x.num == a || x.num == b
                { x with spare := s, active := !s } },
      coe := { j.coe with cores := ((List.range 9).zip j.coe.cores).map core } }

/-- A clock that does not lock: a transit cluster leaves its place to the spare of its die; anything else is a fault of the
whole module. -/
def unlock (j : Jenjor) (i : Nat) : Jenjor :=
  if transit i then
    let j := j.mapCluster (i - 7) fun c => { c with active := false, failed := true }
    (j.fault 3 blkISL i 0xFFFF 0 0 0).bringSpare (i - 7) none
  else j.wholeFault blkISL i 0xFFFF

def startClocks (j : Jenjor) (unlocked : List Nat) : Jenjor :=
  let j := j.assignSpares
  let j := (List.range 29).foldl (fun j i => if unlocked.contains i then j else j.setClock i (j.fullClock i)) j
  let j := (unlocked.filter fun i => i < 29).foldl unlock j
  (({ j with alm := { j.alm with step := 5 } }) : Jenjor).raiseEndpoint

/-! ### Step 5: training (R307) -/

/-- The physical channels of a rim that serve, in the order of their logical indices: those that passed, the spare only in
the place of one that failed. -/
def rimServing (passed : Nat → Bool) (rim : Nat) : List Nat :=
  let own := ((List.range 20).map fun k => rim * 21 + k).filter passed
  if own.length < 20 && passed (rim * 21 + 20) then own ++ [rim * 21 + 20] else own

def train (j : Jenjor) (res : List (Bool × Nat)) : Jenjor :=
  let passed := fun (p : Nat) => (res[p]?).any fun r => r.1 && 64 ≤ r.2
  let rims := (List.range 4).map (rimServing passed)
  let logical := fun (p : Nat) =>
    let rim := p / 21
    let s := rims.getD rim []
    if s.contains p then some (rim * 20 + s.idxOf p) else none
  let chan := fun (x : Nat × Chan) =>
    let l := logical x.1
    { x.2 with margin := min 255 ((res[x.1]?).map fun r => r.2).getD 0, logical := l,
               state := if l.isSome then .serving else if passed x.1 then .standby else .retired,
               back := if l.isSome then .serving else .standby, busy := false, marked := false, markAt := none, again := false }
  let rim := fun (r : Nat) =>
    let s := rims.getD r []
    let used := s.contains (r * 21 + 20)
    { freshRim with spareUsed := used, spareFailed := !passed (r * 21 + 20), spareFor := if used then s.length - 1 else 0 }
  let ok := rims.all fun s => s.length == 20
  let j : Jenjor :=
    { j with mem := { j.mem with chans := ((List.range 84).zip j.mem.chans).map chan, rims := (List.range 4).map rim,
                                 online := ok },
             alm := { j.alm with step := 6, training := (List.range 84).map fun p => ((res[p]?).map fun r => r.2).getD 0 } }
  if ok then j else j.wholeFault blkMEM 0 0xFFFF

/-! ### Step 6: the vault, the journal and the catalogue (R219, R326, R329, R386, R403) -/

/-- One bay as the vault step identifies it: an absent or unreadable carrier is treated as failed. -/
def findCarrier (j : Jenjor) (b : Nat) (id : Option CarrierId) : Jenjor :=
  match id with
  | none => j.mapCarrier b fun c => { c with state := .failed }
  | some i =>
    if i.vc16 then (j.mapCarrier b fun _ => carrierOf .serving i).setProgrammed b i.programmed
    else
      let j := j.mapCarrier b fun c => { c with state := .failed, refuse := 3 }
      { j with isl := { j.isl with refusedPart := j.isl.refusedPart.set b true } }

/-- The carriers are found; with two of them missing the vault has failed (R326). -/
def findCarriers (j : Jenjor) (cars : List (Option CarrierId)) : Jenjor :=
  let j := (List.range 4).foldl (fun j b => j.findCarrier b (cars.getD b none)) j
  let down := (j.vlt.carriers.filter fun c => c.state != .serving).length
  if 2 ≤ down then ({ j with vlt := { j.vlt with online := true, failed := true } } : Jenjor).wholeFault blkVLT 0 0xFFFF
  else { j with vlt := { j.vlt with online := true } }

/-- The sealed record opens: its keys are loaded. Nothing in sweep memory is of a previous generation. -/
def openSealed (j : Jenjor) (r : SealedRec) : Jenjor :=
  let slot := fun (s : Nat) =>
    match r.slots.lookup s with
    | none => emptySlot
    | some k => if s = 1 then k else { k with prev := none }
  let bound := (r.slots.lookup 0).isSome
  let j := j.mapDom fun d =>
    { d with tenant := if bound then .bound else .suspended, digest := r.tenant, slots := (List.range 64).map slot,
             rekeyVault := (slot 1).prev.isSome }
  let j := j.mapPlates (fun _ => true) fun p => { p with keyGen := j.genBit }
  let j := j.mapObjs (fun _ => true) fun o => { o with keyGen := j.sweepGen }
  (List.range 64).foldl retireGen j

/-- Without a record that opens, the module starts unbound and scrubs (R386, R390). -/
def startUnbound (j : Jenjor) : Jenjor :=
  let j := j.clearCatalogue
  let (i, j) := j.free
  let j : Jenjor := { j with vlt := { j.vlt with erasing := true, flushMark := false } }
  j.mapDom fun d => { d with tenant := .unbound, digest := 0, sealedRec := none, slots := List.replicate 64 emptySlot,
                             scrubLast := Config.freeCount i % 2 ^ 32 }

/-- Frozen bias frames are published, and the other buffers accumulate again: no query has boarded. -/
def settleFrames (j : Jenjor) : Jenjor :=
  ((j.cat.colls.filter fun c => c.bias.any fun b => b.phase != .accumulating).map fun c => c.num).foldl
    (fun j n => (j.switchFrame n).refillBias n) j

/-- Form and publish, and let what waits go on as its cause clears, until every write is published (R219). -/
def replay : Nat → List Host.Cell × Jenjor → List Host.Cell × Jenjor
  | 0, a => a
  | n + 1, (mem, j) =>
    let j := if j.formsCommits then j.formCommit else j
    let waiting := (j.wr.journal.filter fun e => e.waiting).map fun e => e.jr.seq
    if j.wr.commits.isEmpty && waiting.isEmpty then (mem, j)
    else
      let (mem, j) := publishOldest mem j
      replay n (mem, waiting.foldl releaseWrite j.settleFrames)

/-- Deletes that were to take effect at a boundary take effect now, and bias frames. -/
def settleCatalogue (j : Jenjor) : Jenjor :=
  (((j.cat.colls.filter fun c => c.deleting && !c.draining).map fun c => c.num).foldl deleteTakesEffect j).settleFrames

/-- Journal replay (R219). -/
def replayJournal (mem : List Host.Cell) (j : Jenjor) : List Host.Cell × Jenjor :=
  let j := j.settleCatalogue
  let (mem, j) := replay (2 * j.wr.journal.length + j.wr.commits.length) (mem, j)
  (mem, j.settleCatalogue)

/-- The catalogue and ring sections, the START rings, and what step 7 has to restore. -/
def applyLate (j : Jenjor) : Jenjor :=
  let old := (j.cat.plates.filter j.inSweepMemory).map fun p => p.pid
  let bodies := ((j.alm.image.map fun i => i.sections).getD []).map fun s => s.body
  let j := bodies.foldl (fun j b =>
    match b with
    | .catalogue es => es.foldl applyEntryColl j
    | _ => j) j
  let j := bodies.foldl (fun j b =>
    match b with
    | .rings es =>
      let j := es.foldl applyEntryRing j
      let starts := (es.filter fun e => e.start).map entryRing
      j.mapRings fun r => { r with almanacStart := r.defn.isSome && starts.contains r.num }
    | _ => j) j
  j.mapPlates (fun p => old.contains p.pid) fun p => { p with present := false }

/-- The end of step 6: fetching starts, and doorbells that were held act (R406). -/
def endVaultStep (j : Jenjor) : Jenjor :=
  let held := j.qs.heldDoorbells
  let j := j.mapPair fun p => { p with solo := p.holder && p.mode != 0 }
  let j : Jenjor := { j with alm := { j.alm with step := 7 }, vlt := { j.vlt with flushMark := false },
                             qs := { j.qs with heldDoorbells := [] } }
  held.foldl (fun j d => ring j d.1 d.2.1 d.2.2) j

def startVault (mem rmem : List Host.Cell) (j : Jenjor) (cars : List (Option CarrierId)) (opens : Bool) :
    List Host.Cell × List Host.Cell × Jenjor :=
  let j := j.findCarriers cars
  match j.dom.sealedRec with
  | some r =>
    if opens && r.life == j.dom.life then
      let j := (j.openSealed r).makeCache
      let (mem, j) := j.replayJournal mem
      (mem, rmem, j.applyLate.endVaultStep)
    else ([], [], j.startUnbound.applyLate.endVaultStep)
  | none => ([], [], j.startUnbound.applyLate.endVaultStep)

/-! ### Step 7: restoring plates (R407) -/

/-- Plates are in place; one that fails R59 is lost to its ring. -/
def restorePlates (j : Jenjor) (pids bad : List Nat) : Jenjor :=
  let j := j.mapPlates (fun p => pids.contains p.pid) fun p => { p with present := true }
  (bad.filter pids.contains).foldl plateLoss j

/-- The module is in full service. -/
def fullService (j : Jenjor) : Jenjor :=
  { j with alm := { j.alm with step := 8, startTime := j.time }, isl := { j.isl with power := .on } }

/-- Everything that a start still owes is restored, and with no Almanac ring waiting step 7 ends. -/
def restoreRest (j : Jenjor) (bad : List Nat) : Jenjor :=
  let j := j.restorePlates ((j.cat.plates.filter fun p => !p.present && !p.quarantined).map fun p => p.pid) bad
  let j := j.reassign
  if j.alm.step = 7 then j.fullService else j

/-- The Almanac ring whose plates come next: by priority, then by number. -/
def nextStart (j : Jenjor) : Option Nat :=
  (argmin (fun r => (7 - ((r.defn.map fun d => d.prio).getD 0)) * 64 + r.num)
    (j.sw.rings.filter fun r => r.almanacStart)).map fun r => r.num

/-- A START ring's last plate is restored, plates that fail R59 as lost: the ring starts, and the Logbook records its
readiness. -/
def ringRestored (j : Jenjor) (n : Nat) (bad : List Nat) : Jenjor :=
  let owed := ((j.ring? n).map fun r => r.view).getD []
  let j := j.restorePlates owed bad
  let j := (ringStartCmd j n none).reassign
  let j := (j.mapRing n fun r => { r with almanacStart := false }).info blkMER n 0xFFFF 0
  if (j.sw.rings.any fun r => r.almanacStart) || j.alm.step ≠ 7 then j else (j.fullService).reassign

/-! ### Power (R319, R455 to R457) -/

/-- A power loss, or MOD_RST#: fetching stops, and the journal buffer is programmed. -/
def beginFlush (j : Jenjor) (loss : Bool) : Jenjor :=
  { j with vlt := { j.vlt with flushMark := false },
           isl := { j.isl with power := .flushing, pwrLossLow := j.isl.pwrLossLow || loss } }

/-- The flush has ended: the buffer is in the journal region, under a flush mark. -/
def endFlush (j : Jenjor) (us : Nat) : Jenjor :=
  let j := j.programStripes (stripesOf j.bufferBytes)
  { j with vlt := { j.vlt with flushMark := true, holdupLast := us % 2 ^ 32 } }

end Jenjor

/-- An event of power or reset, at any time. -/
def onPower (f : List Host.Cell → Jenjor → List Host.Cell × Jenjor) (s : State) : Host.Outcome State Fault Refusal :=
  .next { s with mem := (f s.mem s.j).1, rmem := [], j := (f s.mem s.j).2 }

/-- POWER_GOOD (R456, R463): the straps are sampled. With MOD_RST# low the module holds itself in reset. -/
def execPowerGood (straps : BitVec 3) (s : State) : Host.Outcome State Fault Refusal :=
  if s.j.isl.power = .off ∨ (s.j.isl.power = .flushing ∧ s.j.vlt.flushMark) then
    onPower (fun mem j =>
      let (mem, j) := if j.isl.power = .off then (mem, j) else shutDown true mem j
      let j : Jenjor := { j with isl := { j.isl with straps := straps, pwrLossLow := false } }
      (mem, if j.isl.resetLow then { j with isl := { j.isl with power := .resetHeld } } else j.beginStart)) s
  else .next s

/-- POWER_LOSS (R319, R456). -/
def execPowerLoss (s : State) : Host.Outcome State Fault Refusal :=
  .next (match s.j.isl.power with
    | .starting => { s with j := s.j.beginFlush true }
    | .on => { s with j := s.j.beginFlush true }
    | .resetHeld => { s with j := { s.j with isl := { s.j.isl with power := .off, pwrLossLow := true } } }
    | _ => s)

/-- HOLDUP_FLUSH_COMPLETE (R319, R456, R457): `us` is its duration; `inputBack`, that input power is good again. A module
that MOD_RST# holds stays in reset; otherwise it waits for power-good. -/
def execHoldupFlushComplete (us : Nat) (inputBack : Bool) (s : State) : Host.Outcome State Fault Refusal :=
  if s.j.isl.power = .flushing ∧ !s.j.vlt.flushMark then
    if inputBack then
      onPower (fun mem j =>
        let held := j.isl.resetLow
        let (mem, j) := shutDown true mem (j.endFlush us)
        (mem, { j with isl := { j.isl with power := if held then .resetHeld else .off } })) s
    else .next { s with j := s.j.endFlush us }
  else .next s

/-- POWER_OFF (R456): all rails go off. -/
def execPowerOff (s : State) : Host.Outcome State Fault Refusal :=
  if s.j.isl.power = .off then .next s
  else onPower (fun mem j => shutDown (j.isl.power == .flushing && j.vlt.flushMark) mem j) s

/-- MOD_RST_TIMEOUT (R457): 10 ms low. A start that is under way is abandoned. -/
def execModRstTimeout (s : State) : Host.Outcome State Fault Refusal :=
  let low := fun (j : Jenjor) => ({ j with isl := { j.isl with resetLow := true } } : Jenjor)
  match s.j.isl.power with
  | .starting =>
    if s.j.alm.step < 7 || s.j.alm.step = 9 then
      onPower (fun mem j =>
        let (mem, j) := shutDown true mem (low j)
        (mem, { j with isl := { j.isl with power := .resetHeld } })) s
    else .next { s with j := (low s.j).beginFlush false }
  | .on => .next { s with j := (low s.j).beginFlush false }
  | _ => .next { s with j := low s.j }

/-- MOD_RST_RISE (R457): `lowNs` is how long it was low. A shorter pulse than 10 ms is recorded and ignored, one below 50 ns
is not seen (R462). -/
def execModRstRise (lowNs : Nat) (s : State) : Host.Outcome State Fault Refusal :=
  let high := { s with j := { s.j with isl := { s.j.isl with resetLow := false } } }
  match s.j.isl.power with
  | .resetHeld => .next { high with j := high.j.beginStart }
  | _ =>
    if s.j.isl.resetLow then .next high
    else if 50 ≤ lowNs && lowNs < 10000000 && s.j.live then .next { s with j := s.j.info blkISL 0 0xFFFF lowNs }
    else .next s

/-! ### The start-up steps -/

/-- START_STEP_COMPLETE (R403): the report of the step that is under way. -/
def execStartStepComplete (rep : StartReport) (s : State) : Host.Outcome State Fault Refusal :=
  match s.j.live, s.j.alm.step, rep with
  | true, 1, .fuses reads => onBlocks (fun j => j.readFuses reads) s
  | true, 2, .firmware => onBlocks (fun j => j.bootFirmware) s
  | true, 3, .image => onBlocks (fun j => j.readImage) s
  | true, 4, .clocks unlocked => onBlocks (fun j => j.startClocks unlocked) s
  | true, 5, .training res => onBlocks (fun j => j.train res) s
  | true, 6, .vault cars opens =>
    let r := s.j.startVault s.mem s.rmem cars opens
    .next { s with mem := r.1, rmem := r.2.1, j := r.2.2 }
  | true, 7, .restore bad => onBlocks (fun j => if j.sw.rings.any fun r => r.almanacStart then j else j.restoreRest bad) s
  | true, 8, .restore bad => onBlocks (fun j => j.restoreRest bad) s
  | _, _, _ => .next s

/-- RING_RESTORE_COMPLETE (R407). -/
def execRingRestoreComplete (x : RestoredRing) (s : State) : Host.Outcome State Fault Refusal :=
  onUnit (decide (x.num < 64)) (onBlocks (fun j =>
    if j.alm.step = 7 ∧ j.nextStart = some x.num then j.ringRestored x.num x.bad else j) s)

/-- ALMANAC_REPAIR_COMPLETE (R404): the other device holds the image in force. -/
def execAlmanacRepairComplete (s : State) : Host.Outcome State Fault Refusal :=
  onBlocks (fun j =>
    if j.alm.step = 8 && j.alm.repairing then
      let put := fun (d : Device) => { d with image := j.alm.image }
      { j with alm := { j.alm with repairing := false,
                                   primary := if j.alm.source then put j.alm.primary else j.alm.primary,
                                   alternate := if j.alm.source then j.alm.alternate else put j.alm.alternate } }
    else j) s

/-- LIFECYCLE_ERASE_COMPLETE (R372 steps 2 to 5): the vault is erased; the runtime state is overwritten, the new state is
programmed, and the module resets. -/
def execLifecycleEraseComplete (s : State) : Host.Outcome State Fault Refusal :=
  match if s.j.live then s.j.dom.lifeErase else none with
  | none => .next s
  | some next =>
    onPower (fun mem j =>
      let j : Jenjor :=
        { j with vlt := { j.vlt with erasing := false },
                 alm := { j.alm with floor := 0, owner := 0, selected := none, runtimeSeq := 0, training := [] } }
      let j := j.mapDom fun d => { d with life := laterLife d.life next, lifeErase := none,
                                          seedErased := d.seedErased || next == .scrapped }
      restart mem j) s

/-! ### Image and firmware writes (R405, R411, R412) -/

/-- ALMANAC_WRITE (R411): accepted in service and in recovery; it waits while another write or a reload runs. -/
def execAlmanacWrite (role : Role) (img : Image) (s : State) : Host.Outcome State Fault Refusal :=
  onBlocks (fun j =>
    if role != .operator || !(7 ≤ j.alm.step && j.alm.step ≤ 9) || j.imageRefused img then j.refuseMgmt 0x411
    else j.acceptImage img) s

/-- ALMANAC_WRITE_COMPLETE (R411, R405): both devices hold the image. In recovery the module then resets. -/
def execAlmanacWriteComplete (s : State) : Host.Outcome State Fault Refusal :=
  match if s.j.live then s.j.alm.writing else none with
  | none => .next s
  | some img =>
    let j := (s.j.imageWritten img).acceptMgmt 0
    if s.j.alm.step = 9 then onPower (fun mem _ => restart mem j) s else .next { s with j := j.proceed }

/-- FIRMWARE_WRITE (R412, R405): into the record that is not running, in recovery into the one named (`named`: B), after
which the module resets. A record whose header names the other place would leave the section invalid, and is refused. -/
def execFirmwareWrite (role : Role) (named : Bool) (rec : FwRecord) (s : State) : Host.Outcome State Fault Refusal :=
  let rest := s.j.alm.step = 9
  let isB := if rest then named else !s.j.alm.running
  let ok := s.j.live && role == .operator && 7 ≤ s.j.alm.step && s.j.alm.step ≤ 9 && s.j.runnable rec && !fwRecordBad isB rec
  if ok && rest then onPower (fun mem j => restart mem ((j.storeRecord isB rec).acceptMgmt 0)) s
  else onBlocks (fun j => if ok then (j.storeRecord isB rec).acceptMgmt 0 else j.refuseMgmt 0x412) s

/-! ### Board interfaces (R464 to R466) -/

/-- The reading of a PLDM sensor: voltage, current, coolant temperatures and flow are the world's (PRESUMED, log entry 34). -/
def sensorValue (j : Jenjor) (n : Nat) : Nat × Jenjor :=
  let carrier := fun (f : Carrier → Nat) => ((j.carrier? ((n - 8) / 3)).map f).getD 0
  if n = 2 then (j.isl.avgW, j)
  else if n = 6 then (j.isl.islands.foldl (fun t x => max t x.temp) 0, j)
  else if n = 7 then (j.hottest, j)
  else if n < 8 then (Config.freeCount j.freeIdx, j.free.2)
  else if (n - 8) % 3 = 0 then (carrier fun c => c.temp, j)
  else if (n - 8) % 3 = 1 then (j.wearOf ((n - 8) / 3), j)
  else (carrier fun c => c.spare, j)

/-- PLDM_SENSOR_REQUEST (R464): 20 sensors. -/
def execPldmSensorRequest (sensor : Nat) (s : State) : Host.Outcome State Fault Refusal :=
  onUnit (decide (sensor < 20)) (onBlocks (fun j =>
    let (v, j) := sensorValue j sensor
    j.emit (.pldmReading sensor v)) s)

/-- PLDM_EVENT_READ (R464): SMB_ALERT# is released. -/
def execPldmEventRead (s : State) : Host.Outcome State Fault Refusal :=
  onBlocks (fun j => { j with isl := { j.isl with alertLow := false } }) s

/-- SMBUS_CLOCK_LOW_TIMEOUT (R464): the port releases the bus. -/
def execSmbusClockLowTimeout (s : State) : Host.Outcome State Fault Refusal :=
  onBlocks (fun j => { j with isl := { j.isl with smbReleased := true } }) s

/-- Debug is open (R371, R391). -/
def debugOpen (d : DomState) : Bool := d.debug || d.life == .test || d.life == .rma

/-- JTAG_INSTRUCTION (R466): each entry to a scan instruction is recorded; anything beyond boundary scan needs debug
authorisation. The TAP answers in every life-cycle state while the module has power. -/
def execJtagInstruction (ins : JtagInstr) (s : State) : Host.Outcome State Fault Refusal :=
  if s.j.isl.power = .off then .next s
  else
    .next { s with j :=
      match ins with
      | .idcode => (s.j.info blkISL 0 0xFFFF 1).emit (.jtag 0xB8400C9F)
      | .bypass => s.j.info blkISL 0 0xFFFF 0
      | .extest => s.j.info blkISL 0 0xFFFF 2
      | .sample => s.j.info blkISL 0 0xFFFF 3
      | .preload => s.j.info blkISL 0 0xFFFF 4
      | .clamp => s.j.info blkISL 0 0xFFFF 5
      | .extestPulse => s.j.info blkISL 0 0xFFFF 6
      | .extestTrain => s.j.info blkISL 0 0xFFFF 7
      | .other code =>
        if debugOpen s.j.dom then s.j.info blkISL 0 0xFFFF (256 + code) else s.j.discard 0x466 code }

/-- The management port is up from the end of start-up step 4 (R403). -/
def mgmtPortUp (j : Jenjor) : Bool := 5 ≤ j.alm.step

/-- MGMT_LINK_UP (R465): 1000 Mb/s full duplex. -/
def execMgmtLinkUp (s : State) : Host.Outcome State Fault Refusal :=
  onBlocks (fun j => if mgmtPortUp j then { j with isl := { j.isl with ledLinkLow := true } } else j) s

/-- MGMT_LINK_DOWN (R465). -/
def execMgmtLinkDown (s : State) : Host.Outcome State Fault Refusal :=
  onBlocks (fun j => { j with isl := { j.isl with ledLinkLow := false } }) s

end Sys2Proof.Machine
end

