-- ==== Sys2Proof/Machine/Allocation.lean ====
section
/-! DEFINITION. Sys2Proof/Machine/Allocation.lean: the start and the switch of a slew (R236 to R238), and the retry of an
allocation that returned POOL_BUSY (R245). -/

namespace Sys2Proof.Machine
open Jenjor

namespace Jenjor

/-! ### The slew engine -/

/-- At most 8 slews are in flight (R238). -/
def slewRoom (j : Jenjor) : Bool := j.slewsInFlight < 8

/-- The slew that moves an object. -/
def movingSlew (j : Jenjor) (obj : Nat) : Option Slew := j.cat.slews.find? fun w => w.obj == obj && w.started

/-- The copy has converged, `copied` granules having been copied again: with 16 or fewer left, writes are held from here
(R237). -/
def holdSlew (j : Jenjor) (s : Slew) (copied : List Nat) : Jenjor :=
  let left := s.pendingGranules.filter fun g => !copied.contains g
  let f := fun (x : Slew) =>
    if x = s then { x with pendingGranules := left, held := x.held || decide (left.length ≤ 16) } else x
  { j with cat := { j.cat with slews := j.cat.slews.map f } }

/-- A plate of the set that is moved waits to be restored: the copy waits for it (R423). -/
def slewBlocked (j : Jenjor) (o : Obj) : Bool :=
  o.kind == 1 && j.cat.plates.any fun p => p.coll == o.coll && p.quarantined && !p.lost

/-- A slew reaches its switch (R236 steps 3 and 4): a plate that fails validation is a plate loss, any other page abandons
the slew. -/
def trySwitch (j : Jenjor) (s : Slew) (o : Obj) (pageOk : Bool) (bad : List Nat) : Jenjor :=
  if 16 < s.pendingGranules.length && !s.held then j
  else if !pageOk then j.abandonSlew s
  else
    let mine := fun (pid : Nat) => o.kind == 1 && (j.plate? pid).any fun p => p.coll == o.coll && !p.quarantined
    let j := (bad.filter mine).foldl plateLoss j
    if j.slewBlocked o then j else j.switchSlew s o

/-! ### Retries -/

/-- One more attempt of a command or slew whose allocation waited since `since`; with `expired`, its allocation has failed
for a second and it is answered with POOL_BUSY. -/
def retry (mem : List Host.Cell) (j : Jenjor) (what : AllocFor) (since : Nat) (expired : Bool) :
    List Host.Cell × Jenjor :=
  match what with
  | .queueCreate f => (mem, if expired then j.refuse f.ref .poolBusy else createQueue j f since)
  | .shardList f => (mem, if expired then j.refuse f.ref .poolBusy else j.defineList f since)
  | .collectionCreate f op => (mem, if expired then j.refuse f.ref .poolBusy else j.createCollection f op since)
  | .objectCreate f op => if expired then (mem, j.refuse f.ref .poolBusy) else j.createObject mem f op since
  | .modelLoad f => (mem, if expired then j.refuse f.ref .poolBusy else j.loadModel mem f since)
  | .recalibrate f op => (mem, if expired then j.refuse f.ref .poolBusy else j.recalibrate mem f op since)
  | .slewStart obj =>
    (mem, match j.cat.slews.find? fun s => s.obj == obj && !s.started with
      | none => j
      | some s => if expired || j.slewRoom then j.beginSlew s since expired else j.park what since false)

end Jenjor

/-- SLEW_START (R236, R238). -/
def execSlewStart (obj : Nat) (s : State) : Host.Outcome State Fault Refusal :=
  onBlocks (fun j =>
    match j.nextSlew with
    | none => j
    | some w => if w.obj = obj && j.slewRoom then j.beginSlew w j.time false else j) s

/-- SLEW_SWITCH (R236, R237). -/
def execSlewSwitch (obj : Nat) (step : SlewStep) (s : State) : Host.Outcome State Fault Refusal :=
  onBlocks (fun j =>
    match j.movingSlew obj, j.obj? obj with
    | some w, some o =>
      match step with
      | .hold copied => j.holdSlew w copied
      | .switch pageOk bad => j.trySwitch w o pageOk bad
    | _, _ => j) s

/-- ALLOCATION_RETRY (R245): the waiting allocation `alloc` tries again. One that waits for a victim's switch has not
failed, and does not expire. -/
def execAllocationRetry (alloc : Nat) (expired : Bool) (s : State) : Host.Outcome State Fault Refusal :=
  onMemory (fun mem _ j =>
    match j.cat.allocs.find? fun a => a.id == alloc with
    | none => (mem, j)
    | some a =>
      let j := j.mapCat fun c => { c with allocs := c.allocs.filter fun x => x.id != alloc }
      j.retry mem a.what a.since (expired && a.failed)) s

end Sys2Proof.Machine
end

