-- ==== Sys2Proof/Machine/Registers.lean ====
section
/-! DEFINITION. Sys2Proof/Machine/Registers.lean: the registers of BAR0 (R5 to R11, R335, R336, R431 to R446) and the
catalogue window (R35, R440): REGISTER_WRITE, REGISTER_READ_CLEAR, REGISTER_LOW_HALF_READ, MER_RING_OVF_WRITE,
MGMT_REGISTER_WRITE, UNMAPPED_REQUEST, WINDOW_BASE_WRITE, CATALOGUE_WINDOW_READ, CATALOGUE_WINDOW_WRITE, SEE_ARM,
LOG_WINDOW_WRITE. -/

namespace Sys2Proof.Machine
open Jenjor

/-- What occupies a register's first address: 32 bits, 64 bits, or a 48-bit counter with its overflow bit in bit 63. -/
inductive Reg where
  | word (v : Nat)
  | quad (v : Nat)
  | ctr
  deriving DecidableEq, Repr

/-- Fields laid out as (first bit, width, value); what no field covers is reserved and reads zero (R5). -/
def pack (fs : List (Nat × Nat × Nat)) : Nat := natSum (fs.map fun f => f.2.2 % 2 ^ f.2.1 * 2 ^ f.1)

/-- One-bit field. -/
def flag (lo : Nat) (b : Bool) : Nat × Nat × Nat := (lo, 1, b.toNat)

/-- Unit number and offset in its registers, for `n` units at a stride. -/
def unitAt (base stride n off : Nat) : Option (Nat × Nat) :=
  if base ≤ off ∧ off < base + stride * n then some ((off - base) / stride, (off - base) % stride) else none

/-- A quotient as a register shows it; the manual does not say which way it rounds (DESIGN CHOICE, log entry 35). -/
def shown (addr n d : Nat) : Nat := if n % d = 0 then n / d else n / d + (Config.roundsUp addr).toNat

def ChanState.code : ChanState → Nat
  | .untrained => 0 | .serving => 1 | .standby => 2 | .retraining => 3 | .retired => 4 | .testing => 5

def CarState.code : CarState → Nat
  | .empty => 0 | .identifying => 1 | .serving => 2 | .releasing => 3 | .safeToRemove => 4 | .rebuilding => 5 | .failed => 6

def PairState.code : PairState → Nat
  | .unpaired => 0 | .training => 1 | .checking => 2 | .paired => 3 | .split => 4 | .restoringSource => 5
  | .restoringTarget => 6 | .mismatch => 7

def ModelPhase.code : ModelPhase → Nat
  | .empty => 0 | .loading => 1 | .resident => 2 | .draining => 3

def ProgFault.code : ProgFault → Nat
  | .order => 1 | .address => 2 | .pairing => 3 | .collective => 4 | .loopZero => 5 | .output => 6 | .seqSplit => 7
  | .watchdog => 8

/-- The record that a sequence number selects, in the layout of R427; zeros when it is not held (R445). -/
def recordBits (log : LogState) (seq : Nat) : BitVec 512 :=
  match log.trace.find? fun r => r.seq == seq with
  | none => 0
  | some r => BitVec.ofNat 512 (pack [(0, 64, r.seq), (64, 64, r.time), (128, 8, r.cls), flag 136 r.injected, (144, 8, r.blk),
      (152, 8, r.status.toNat), (160, 16, r.unit), (176, 16, r.cause), (192, 64, r.addr), (256, 256, r.detail.toNat)])

namespace Jenjor

/-! ### The registers of each block, by offset -/

/-- DEV_ registers of queue `q` (R441, R442). -/
def queueReg (j : Jenjor) (q r : Nat) : Option Reg :=
  match j.queue? q with
  | none => if r % 4 = 0 then some (.word 0) else none
  | some x =>
    let d := x.kind == 4
    [ (0x0, Reg.word (pack [flag 31 true, flag 30 (!d && x.fault != 0), (24, 4, if d then 0 else x.fault), (16, 4, x.kind),
        flag 11 x.roce, (8, 3, if d then 0 else x.priority)])),
      (0x4, Reg.word (if d then 0 else pack [(16, 16, x.cqTail), (0, 16, x.sqHead)])),
      (0x8, Reg.word (if d then 0 else x.inflight.length)), (0xC, Reg.word 0) ].lookup r

/-- Plates with a dirty bit set (R232). -/
def dirtyPlates (j : Jenjor) : Nat := (j.cat.plates.filter fun p => p.dirtyHdr || p.dirtyData).length

/-- Security version of the image that does not run; zero when it is not runnable (R414). -/
def otherSecver (j : Jenjor) : Nat :=
  if j.runnable (j.fwRec !j.alm.running) then fwSecver (j.fwRec !j.alm.running) else 0

/-- A value that the journal restores at start-up step 6 (R434). -/
def journaled (j : Jenjor) (v : Nat) : Nat := if j.alm.step < 7 then 0 else v

def devReg (j : Jenjor) (off : Nat) : Option Reg :=
  match unitAt 0x10000 0x10 4096 off with
  | some (q, r) => j.queueReg q r
  | none =>
    [ (0x0000, Reg.word 0x84001D9E), (0x0004, .word j.dom.stepping.toNat),
      (0x0008, .quad (j.dom.order.toNat % 2 ^ 64)), (0x0010, .quad (j.dom.order.toNat / 2 ^ 64)),
      (0x0018, .quad (j.dom.serial.toNat % 2 ^ 64)), (0x0020, .quad (j.dom.serial.toNat / 2 ^ 64)),
      (0x0028, .quad j.dom.mac.toNat), (0x0030, .word j.arithRev), (0x0038, .quad (j.time % 2 ^ 64)),
      (0x0040, .quad (j.journaled j.cat.seq)),
      (0x0100, .quad j.qs.aqSqBase.toNat), (0x0108, .quad j.qs.aqCqBase.toNat),
      (0x0110, .word (pack [(16, 16, j.qs.aqCqDepth.toNat), (0, 16, j.qs.aqSqDepth.toNat)])),
      (0x0114, .word j.qs.aqVector.toNat),
      (0x0118, .word (pack [flag 2 j.qs.aqError, flag 1 j.qs.aqReady, flag 0 j.qs.aqEnable])),
      (0x0140, .quad j.qs.windowBase.toNat),
      (0x0400, .quad (j.journaled j.wr.epoch)), (0x0408, .quad j.oldestRider), (0x0410, .quad (j.journaled j.wr.ackSeq)),
      (0x0418, .word j.wr.replatePct),
      (0x041C, .word (pack [flag 7 j.wr.stopped, (0, 7, shown 0x41C (j.wr.region * 100) journalRegion)])),
      (0x0420, .ctr), (0x0428, .ctr), (0x0430, .ctr), (0x0438, .ctr), (0x0440, .ctr), (0x0448, .ctr),
      (0x0450, .word j.dirtyPlates), (0x0458, .ctr),
      (0x0500, .word (pack [flag 16 j.place.photometric, (0, 16, j.place.promoteMin)])), (0x0504, .word j.spg.cacheMax),
      (0x0508, .word (if j.mem.online then j.poolFree else 0)), (0x050C, .word j.spg.cachePages.length), (0x0510, .word (128 - j.biasPlaces)),
      (0x0514, .word j.slewsInFlight), (0x0518, .ctr), (0x0520, .ctr), (0x0528, .ctr), (0x0530, .ctr),
      (0x0600, .word j.alm.step), (0x0608, .quad j.alm.startTime), (0x0610, .word j.alm.generation),
      (0x0614, .word (pack [flag 3 j.alm.pending, flag 2 j.alm.repairing, flag 1 j.alm.otherBad, flag 0 j.alm.source])),
      (0x0618, .word j.alm.floor),
      (0x061C, .word (pack [flag 17 j.alm.switchTo.isSome, flag 16 j.alm.running, (0, 16, j.otherSecver)])),
      (0x0620, .ctr), (0x0628, .ctr), (0x0700, .word (pack [flag 0 j.isl.whole])) ].lookup off

/-- The ring's boarding bound in ns (R84): its plate-group time at one group's share of its present rate, and at least
4 µs. -/
def boardBound (r : Ring) (d : RingDef) : Nat :=
  let groups := groupsPerCluster d.format
  let bytes := r.pgSize * 262144 * 1000
  let a := blkBase blkMER + 0x1034 + r.num * 0x40
  let t :=
    if d.deep then if r.grant = 0 then 0xFFFFFFFF else shown a (bytes * (groups * r.clusters.length)) r.grant
    else if r.stretched && r.period != 0 then shown a (bytes * groups * r.derated) (588800 * r.period)
    else shown a (bytes * groups) 588800
  min (max 4000 t) 0xFFFFFFFF

/-- A deep-field ring's period, published or derated, exceeds 990 s (R20). -/
def overlong (r : Ring) : Bool :=
  (r.defn.any fun d => d.deep) && (decide (990000000000 < r.period) || (r.stretched && decide (990000000000 < r.derated)))

def ringReg (j : Jenjor) (n r : Nat) : Option Reg :=
  match j.ring? n with
  | none => none
  | some x =>
    let held := holdsClusters x
    let base := blkBase blkMER + 0x1000 + n * 0x40
    let cfg := match x.defn with
      | none => 0
      | some d => pack [flag 31 held, flag 30 d.deep, (24, 6, d.alt.getD 0), flag 23 d.alt.isSome, (20, 3, d.prio),
                        (12, 8, d.share), (4, 4, d.maxC - 1), (0, 4, d.minC - 1)]
    [ (0x00, Reg.word cfg), (0x04, .word ((x.defn.map fun d => d.window).getD 0)), (0x08, .quad x.period),
      (0x10, .quad x.derated),
      (0x18, .word (pack [(16, 5, x.clusters.length), (12, 4, x.pgSize),
        flag 11 (overlong x), flag 10 (x.phase == .waiting),
        flag 9 x.stretched, (0, 9, x.rows.length)])),
      (0x20, .ctr), (0x28, .ctr), (0x30, .word x.grant),
      (0x34, .word (if held then (x.defn.map (boardBound x)).getD 0 else 0)),
      (0x38, .word (pack [flag 1 (j.counter (base + 0x28)).ovf, flag 0 (j.counter (base + 0x20)).ovf])),
      (0x3C, .word (min x.expired 0xFFFFFFFF)) ].lookup r

/-- The ring that a cluster serves beside its home (R99). -/
def altServed (c : Cluster) : Option Nat :=
  (c.groups.flatMap fun g => (g.queue ++ g.fill.toList ++ g.compute.toList).map fun p => p.ring).find? fun r => c.home != some r

/-- A cluster's measured rate in MB/s (R85, R99). -/
def clusterMbps (j : Jenjor) (c : Cluster) : Nat :=
  match c.home.bind j.ring? with
  | none => 0
  | some r =>
    (r.defn.map fun d =>
      let m := clusterMeasured j r d c
      shown (blkBase blkMER + 0x3008 + c.num * 0x10) (m.num * 1000) m.den).getD 0

def merReg (j : Jenjor) (off : Nat) : Option Reg :=
  match unitAt 0x1000 0x40 64 off, unitAt 0x3000 0x10 18 off, unitAt 0x4000 0x40 18 off with
  | some (n, r), _, _ => j.ringReg n r
  | _, some (c, r), _ =>
    (j.cluster? c).bind fun x =>
      [ (0x0, Reg.word (pack [flag 19 x.spare, flag 18 x.active, (12, 6, x.home.getD 0), flag 11 (altServed x).isSome,
          (5, 6, (altServed x).getD 0)])),
        (0x8, .word (j.clusterMbps x)) ].lookup r
  | _, _, some (_, r) => if r % 8 = 0 ∧ r < 0x38 then some .ctr else none
  | _, _, _ => [ (0x0000, Reg.word j.sw.dfReserve), (0x0008, .word j.mem.band) ].lookup off

/-- Format of the ring that a cluster serves. -/
def clusterFormat (j : Jenjor) (c : Nat) : Option Format :=
  (((j.cluster? c).bind fun x => x.home).bind j.ring?).bind fun r => r.defn.map fun d => d.format

def trnReg (j : Jenjor) (off : Nat) : Option Reg :=
  match unitAt 0 0x100 18 off with
  | some (c, r) =>
    let f := j.clusterFormat c
    [ (0x00, Reg.word (pack [(9, 11, j.clockOf (c + 7)), (1, 4, (f.map Format.code).getD 0), flag 0 (f.any (· != .s4))])),
      (0x08, .ctr), (0x10, .ctr), (0x18, .ctr), (0x20, .ctr) ].lookup r
  | none => [ (0x2000, Reg.word j.arithRev), (0x2008, .ctr), (0x2010, .ctr), (0x2018, .ctr) ].lookup off

def cmpReg (j : Jenjor) (off : Nat) : Option Reg :=
  match unitAt 0 0x40 18 off with
  | some (c, r) => [ (0x00, Reg.ctr), (0x08, .word (((j.cluster? c).map fun x => x.admHigh).getD 0)) ].lookup r
  | none => if [0x2000, 0x2008, 0x2010, 0x2018].contains off then some .ctr else none

def fltReg (_ : Jenjor) (off : Nat) : Option Reg :=
  match unitAt 0 0x40 18 off with
  | some (_, r) => if [0x00, 0x08, 0x10, 0x18].contains r then some .ctr else none
  | none => none

def spgReg (j : Jenjor) (off : Nat) : Option Reg :=
  match unitAt 0x1000 8 18 off with
  | some (c, r) => if r = 0 then some (.word (((j.cluster? c).map fun x => x.specHigh).getD 0)) else none
  | none =>
    if off % 8 = 0 ∧ 0x100 ≤ off ∧ off ≤ 0x148 then some .ctr
    else [ (0x0000, Reg.word j.spg.vaultShare),
           (0x0008, .word (pack [flag 5 (j.vlt.online && j.degraded),
             (0, 3, if j.alm.step < 7 ∨ j.alm.step = 9 then 0 else if 2 ≤ j.isl.shedStep then 2 else 4)])),
           (0x0010, .word j.spg.cacheSize) ].lookup off

/-- Instructions and constant units that loaded models hold (R206). -/
def storeUsed (j : Jenjor) : Nat := natSum (j.coe.models.map fun m => m.instrs.length)

def constUsed (j : Jenjor) : Nat := natSum (j.coe.models.map fun m => m.constUnits)

def coeReg (j : Jenjor) (off : Nat) : Option Reg :=
  match unitAt 0x100 8 9 off, unitAt 0x200 8 9 off, unitAt 0x1000 0x40 8 off with
  | some (c, r), _, _ =>
    if r = 0 then (j.coe.cores[c]?).map fun x => .word (pack [flag 2 x.failed, flag 1 x.spare, flag 0 x.active]) else none
  | _, some (c, r), _ =>
    if r = 0 then (j.coe.cores[c]?).map fun x =>
      .word (pack (flag 31 x.faultValid :: match x.fault with
        | none => []
        | some f => [(28, 3, f.rank), (24, 4, f.code.code), (0, 20, f.index)]))
    else none
  | _, _, some (m, r) =>
    (j.coe.models[m]?).bind fun x =>
      [ (0x00, Reg.word x.phase.code), (0x04, .word x.obj), (0x08, .word x.maxSeq), (0x0C, .word x.maxTokens),
        (0x10, .quad (if x.phase = .resident then j.pmax x else 0)), (0x18, .ctr), (0x20, .ctr), (0x28, .word x.waitHigh),
        (0x30, .word x.prog), (0x34, .word x.instrs.length), (0x38, .word x.constUnits) ].lookup r
  | _, _, _ =>
    [ (0x0000, Reg.word (pack [flag 16 (decide (1 ≤ j.isl.shedStep)), flag 15 j.coe.pass.isSome,
        (12, 3, (j.coe.pass.map fun p => p.model).getD 0), (0, 11, j.clockOf 6)])),
      (0x0004, .word (j.coe.cores.filter fun c => c.active && !c.failed).length), (0x0008, .word (weightRate j)),
      (0x2000, .ctr), (0x2008, .ctr), (0x2010, .ctr), (0x2018, .ctr), (0x2020, .word (2097152 - j.storeUsed)),
      (0x2024, .word (196608 - j.constUsed)) ].lookup off

def memReg (j : Jenjor) (off : Nat) : Option Reg :=
  match unitAt 0x100 0x10 4 off, unitAt 0x1000 0x40 84 off with
  | some (r, o), _ =>
    if o = 0 then (j.mem.rims[r]?).map fun x => .word (pack [flag 7 x.spareUsed, flag 6 x.spareFailed, (0, 5, x.spareFor)])
    else none
  | _, some (p, o) =>
    (j.chan? p).bind fun c =>
      [ (0x00, Reg.word (pack [(24, 8, c.temp), (16, 8, c.margin), (13, 3, c.state.code), (0, 7, c.logical.getD 0x7F)])),
        (0x08, .ctr), (0x10, .ctr), (0x18, .ctr), (0x20, .word (pack [(8, 4, c.pattern.toNat), flag 2 c.loop])),
        (0x24, .word (pack [flag 1 c.done, flag 0 c.busy])), (0x28, .ctr), (0x30, .word c.errPins.toNat) ].lookup o
  | _, _ =>
    [ (0x0000, Reg.word (pack [flag 16 j.mem.online, (8, 8, j.hottest), (0, 2, j.mem.band)])), (0x0008, .word j.mem.hours),
      (0x0010, .ctr), (0x0018, .ctr), (0x0020, .ctr) ].lookup off

def vltReg (j : Jenjor) (off : Nat) : Option Reg :=
  match unitAt 0x100 0x40 4 off with
  | some (b, r) =>
    (j.carrier? b).bind fun c =>
      [ (0x00, Reg.word (pack [(24, 8, min 255 (j.wearOf b)), (16, 8, c.spare), (8, 3, c.refuse), (0, 4, c.state.code)])),
        (0x04, .word 0), (0x08, .quad c.serial.toNat), (0x10, .word c.permille), (0x14, .word c.retired), (0x18, .ctr),
        (0x20, .ctr), (0x28, .ctr) ].lookup r
  | none =>
    let serving := natSum ((List.range 4).map fun b => if (j.carrier? b).any fun c => c.state == .serving then 2 ^ b else 0)
    [ (0x0000, Reg.word (pack [flag 7 j.vlt.holdupWeak, flag 6 j.vlt.failed,
        flag 5 (j.vlt.carriers.any fun c => c.state == .rebuilding), flag 4 (j.vlt.online && j.degraded), (0, 4, serving)])),
      (0x0004, .word j.vaultRate),
      (0x0008, .word (pack [(8, 6, shown 0x90008 j.wr.bufHigh 1048576), (0, 6, shown 0x90008 j.bufferBytes 1048576)])),
      (0x000C, .word j.vlt.holdupLast), (0x0010, .ctr) ].lookup off

def lnkReg (j : Jenjor) (off : Nat) : Option Reg :=
  match unitAt 0x100 0x80 2 off with
  | some (p, r) =>
    (j.lnk.ports[p]?).bind fun x =>
      let n := (j.lnk.qps.filter fun q => q.port == p && q.state == .established).length
      [ (0x00, Reg.word (pack [(3, 13, n), (1, 2, x.speed), flag 0 x.up])), (0x08, .ctr), (0x10, .ctr), (0x18, .ctr),
        (0x20, .ctr), (0x28, .ctr) ].lookup r
  | none =>
    [ (0x0000, Reg.word (pack [flag 14 j.lnk.degraded, (8, 6, j.lnk.width), flag 4 j.lnk.flit, (0, 4, j.lnk.speed)])),
      (0x0004, .word j.lnk.vectors), (0x0008, .ctr), (0x0010, .ctr) ].lookup off

def cpnReg (j : Jenjor) (off : Nat) : Option Reg :=
  let p := j.cpn.pair
  [ (0x0000, Reg.word (pack [(20, 4, p.lanes), flag 19 p.spareLane, flag 18 p.linkUp, flag 17 p.witnessOk,
      flag 16 p.catchingUp, flag 15 p.readOnly, flag 14 p.solo, flag 13 p.holder, flag 12 p.behind, (8, 2, p.mode),
      (0, 4, p.pairState.code)])),
    (0x0008, .quad p.lease), (0x0010, .quad (if p.readOnly then p.staleEpoch else 0)), (0x0018, .quad p.peerEpoch),
    (0x0020, .quad p.ceiling), (0x0100, .ctr), (0x0108, .ctr), (0x0110, .ctr), (0x0118, .ctr), (0x0120, .ctr),
    (0x0128, .ctr), (0x0130, .ctr) ].lookup off

/-- Uses of a slot's current generation (R383, R393): for slot 0 the plates and objects in sweep memory, for slot 1 the
objects in the vault and the journal's stripes, for a package slot the models loaded under it. -/
def slotUses (j : Jenjor) (s : Nat) (k : KeySlot) : Nat :=
  if k.state = .empty then 0
  else if s = 0 then
    (j.cat.plates.filter fun p => j.inSweepMemory p && p.keyGen == j.genBit).length
      + (j.cat.objs.filter fun o => o.kind != 1 && o.tier == .sweep && o.keyGen == j.sweepGen).length
  else if s = 1 then
    if j.dom.rekeyVault then Config.freeCount j.freeIdx
    else (j.cat.objs.filter fun o => o.tier == .vault).length + stripesOf j.wr.region
  else (j.coe.models.filter fun m => m.phase != .empty && m.keySlot == s && m.keyGen == k.generation).length

def domReg (j : Jenjor) (off : Nat) : Option Reg :=
  match unitAt 0x20 8 6 off, unitAt 0x100 0x10 64 off with
  | some (i, r), _ => if r = 0 then some (.quad (j.dom.digest.toNat / 2 ^ (64 * i) % 2 ^ 64)) else none
  | _, some (s, r) =>
    (j.slot? s).bind fun k =>
      [ (0x0, Reg.word (pack [(29, 3, k.state.code), flag 28 k.prev.isSome, flag 27 k.staged.isSome, flag 26 (sealedSlot s k),
          (0, 16, if k.state = .empty then 0 else k.generation)])),
        (0x8, .word (min (j.slotUses s k) 0xFFFFFFFF)) ].lookup r
  | _, _ =>
    let repair := (j.dom.unsettled.filter fun w => 30 ≤ w).length
    [ (0x0000, Reg.word (pack [(8, 4, if j.alm.step < 2 then 0 else j.dom.life.code), (4, 3, j.dom.tenant.code), flag 0 j.dom.debug])),
      (0x0008, .word (pack [flag 24 j.frozen, (16, 8, j.dom.secverFuses), (0, 16, j.alm.runSecver)])),
      (0x0010, .word (pack [(8, 8, j.dom.unsettled.length - repair), (0, 8, repair)])), (0x0080, .word j.dom.scrubLast),
      (0x0800, .ctr), (0x0808, .ctr), (0x0810, .ctr), (0x0818, .ctr), (0x0820, .ctr) ].lookup off

def islReg (j : Jenjor) (off : Nat) : Option Reg :=
  match unitAt 0 0x20 29 off, unitAt 0x1000 0x10 22 off with
  | some (i, r), _ =>
    let x := island j i
    [ (0x00, Reg.word (pack [(8, 12, x.clk), (0, 8, x.temp)])),
      (0x04, .word (pack [(12, 12, if x.clk = 0 then 0 else Config.supplyMv x.clk), (0, 12, x.ceil)])), (0x08, .ctr), (0x10, .word 0) ].lookup r
  | _, some (b, r) => [ (0x0, Reg.word (pack [(0, 2, j.isl.d2d.getD b 0)])), (0x8, .ctr) ].lookup r
  | _, _ =>
    [ (0x0800, Reg.word (pack [(16, 3, j.isl.shedStep), (0, 16, j.isl.avgW)])), (0x0808, .ctr) ].lookup off

def seeReg (j : Jenjor) (off : Nat) : Option Reg :=
  [ (0x0000, Reg.word (pack [flag 8 j.see.arm, (0, 4, j.see.kind.toNat)])), (0x0004, .word j.see.target.toNat),
    (0x0008, .word j.see.param.toNat), (0x0010, .quad j.see.addr.toNat), (0x0018, .ctr) ].lookup off

def logReg (j : Jenjor) (off : Nat) : Option Reg :=
  match unitAt 0x100 8 8 off with
  | some (i, r) => if r = 0 then some (.quad (j.log.record.toNat / 2 ^ (64 * i) % 2 ^ 64)) else none
  | none =>
    [ (0x0000, Reg.quad j.log.head), (0x0008, .quad j.log.window.toNat), (0x0010, .word (pack [(2, 3, j.log.errClass.toNat)])),
      (0x0014, .word (pack [flag 11 j.log.errEn, (0, 11, j.log.errVector.toNat)])), (0x0018, .ctr), (0x0020, .ctr) ].lookup off

/-- The block of a BAR0 address, and the offset in it (R431). -/
def blockOf (a : Nat) : Nat × Nat := if a < 0x20000 then (blkDEV, a) else (a / 0x10000, a % 0x10000)

/-- The registers of the MSI-X table and Pending Bit Array (R443). -/
def msixReg (j : Jenjor) (a : Nat) : Option Reg :=
  match unitAt 0xF00000 0x10 2048 a, unitAt 0xF08000 4 64 a with
  | some (v, r), _ =>
    let e := if v < j.lnk.vectors then j.msixEntry v else { addr := 0, data := 0, masked := false, pending := false }
    [ (0x0, Reg.word (e.addr.toNat % 2 ^ 32)), (0x4, .word (e.addr.toNat / 2 ^ 32)), (0x8, .word e.data.toNat),
      (0xC, .word e.masked.toNat) ].lookup r
  | _, some (w, r) =>
    if r = 0 then some (.word (natSum ((List.range 32).map fun b =>
      if 32 * w + b < j.lnk.vectors ∧ (j.msixEntry (32 * w + b)).pending then 2 ^ b else 0)))
    else none
  | _, _ => none

/-- The register at a BAR0 address, if one begins there. -/
def regAt (j : Jenjor) (a : Nat) : Option Reg :=
  if 0xF00000 ≤ a then j.msixReg a
  else if 0x100000 ≤ a then none
  else
    let (b, off) := blockOf a
    match b with
    | 0x1 => j.devReg off
    | 0x2 => j.merReg off
    | 0x3 => j.trnReg off
    | 0x4 => j.cmpReg off
    | 0x5 => j.fltReg off
    | 0x6 => j.spgReg off
    | 0x7 => j.coeReg off
    | 0x8 => j.memReg off
    | 0x9 => j.vltReg off
    | 0xA => j.lnkReg off
    | 0xB => j.cpnReg off
    | 0xC => j.domReg off
    | 0xD => j.islReg off
    | 0xE => j.seeReg off
    | 0xF => j.logReg off
    | _ => none

/-! ### Reads (R5 to R7, R9, R336, R446) -/

def isWide : Reg → Bool
  | .word _ => false
  | _ => true

/-- A register's whole value. -/
def regValue (j : Jenjor) (a : Nat) : Reg → Nat
  | .word v => v
  | .quad v => v
  | .ctr => (j.counter a).count.toNat + (j.counter a).ovf.toNat * 2 ^ 63

/-- In the recovery state BAR0 serves the identity registers, DEV_START and DEV_FAULT, and the MSI-X structures (R446). -/
def servedInRecovery (a : Nat) : Bool := a < 0x48 || a = 0x600 || a = 0x700 || 0xF00000 ≤ a

/-- The 4-byte value at an aligned address, latch and read effects apart; an unoccupied address reads zero (R6). -/
def peek (j : Jenjor) (a : Nat) : Nat :=
  if j.alm.step = 9 ∧ !servedInRecovery a then 0
  else
    match j.regAt a with
    | some r => j.regValue a r % 2 ^ 32
    | none =>
      match if 4 ≤ a then j.regAt (a - 4) else none with
      | some r => if isWide r then j.regValue (a - 4) r / 2 ^ 32 % 2 ^ 32 else 0
      | none => 0

/-- The low half of a 64-bit register lies at the address. -/
def lowHalf (j : Jenjor) (a : Nat) : Bool :=
  !(j.alm.step = 9 && !servedInRecovery a) && (j.regAt a).any isWide

/-- Read-to-clear fields take what coincides with the read (R7, R9): a high-water mark the present fill, which is measured
in every cycle (R139), any other field `during`. -/
def readClear (j : Jenjor) (a during : Nat) : Jenjor :=
  let (b, off) := blockOf a
  if b = blkCMP then
    match unitAt 0 0x40 18 off with
    | some (c, r) => if r = 8 then j.mapCluster c fun x => { x with admHigh := x.admq.length } else j
    | none => j
  else if b = blkSPG then
    match unitAt 0x1000 8 18 off with
    | some (c, r) => if r = 0 then j.mapCluster c fun x => { x with specHigh := x.specq.length } else j
    | none => j
  else if b = blkCOE then
    match unitAt 0x1000 0x40 8 off with
    | some (m, r) => if r = 0x28 then j.mapModel m fun x => { x with waitHigh := during % 2 ^ 32 } else j
    | none => j
  else if b = blkMEM then
    match unitAt 0x1000 0x40 84 off with
    | some (p, r) => if r = 0x30 then j.mapChan p fun c => { c with errPins := BitVec.ofNat 32 during } else j
    | none => j
  else if b = blkVLT ∧ off = 8 then { j with wr := { j.wr with bufHigh := j.bufferBytes } }
  else j

/-- A BAR0 read of the 4-byte register that holds an address: the high half that the preceding read latched, the latch of
this read, and its effect on a read-to-clear field. A read of fewer bytes returns the bytes from the address on (R335). -/
def readWord (j : Jenjor) (a during : Nat) : Jenjor :=
  if !j.lnk.endpointUp || j.lnk.pcieDown then j
  else if j.alm.step < 5 then j.emit .configRetry
  else if 0x1000000 ≤ a then j.emit (.unsupportedRequest a)
  else
    let w := a / 4 * 4
    let v := match j.qs.latch with
      | some (h, x) => if h = w then x.toNat else j.peek w
      | none => j.peek w
    let latch := if j.lowHalf w then some (w + 4, BitVec.ofNat 32 (j.peek (w + 4))) else none
    let j := if j.alm.step = 9 then j else j.readClear w during
    ({ j with qs := { j.qs with latch := latch } }).emit (.readResponse a (BitVec.ofNat 64 (v / 2 ^ (8 * (a % 4)))))

/-! ### Writes -/

/-- Clear a counter's overflow bit. -/
def clearOvf (j : Jenjor) (a : Nat) : Jenjor :=
  let c := j.counter a
  let rest := j.ctrs.filter fun x => x.1 != a
  { j with ctrs := if c.count = 0 then rest else (a, { c with ovf := false }) :: rest }

/-- A write of DEV_WINDOW_BASE (R440): discarded and recorded while a tenant is bound. -/
def setWindowBase (j : Jenjor) (v : BitVec 64) : Jenjor :=
  if j.dom.tenant = .bound ∨ j.dom.tenant = .suspended then j.discard 0 0x140
  else { j with qs := { j.qs with windowBase := v >>> 26 <<< 26 } }

/-- A write of LOG_WINDOW (R445). -/
def setLogWindow (j : Jenjor) (v : BitVec 64) : Jenjor :=
  { j with log := { j.log with window := v, record := recordBits j.log v.toNat } }

/-- A write of SEE_CTL (R429): ARM is discarded and logged unless no tenant is bound or debug is open, and with a
reserved kind. -/
def setSeeCtl (j : Jenjor) (v : BitVec 32) : Jenjor :=
  let arm := v.getLsbD 8
  let kind := v.extractLsb' 0 4
  if arm && !((j.dom.tenant == .unbound || j.dom.debug) && kind.toNat ≤ 6) then j.discard 0 (blkBase blkSEE)
  else { j with see := { j.see with arm := arm, kind := kind, spent := false } }

/-- Write an admin queue base, depth or vector: discarded and recorded while READY is 1 (R439). -/
def setAdmin (j : Jenjor) (off : Nat) (f : QueueState → QueueState) : Jenjor :=
  if j.qs.aqReady then j.discard 0 off else { j with qs := f j.qs }

/-- A whole write of a 64-bit RW register, or a high-half write with its low half. -/
def writeQuad (j : Jenjor) (a : Nat) (v : BitVec 64) : Jenjor :=
  let page := v >>> 12 <<< 12
  if a = 0x100 then j.setAdmin a fun q => { q with aqSqBase := page }
  else if a = 0x108 then j.setAdmin a fun q => { q with aqCqBase := page }
  else if a = 0x140 then j.setWindowBase v
  else if a = blkBase blkSEE + 0x10 then { j with see := { j.see with addr := v } }
  else if a = blkBase blkLOG + 8 then j.setLogWindow v
  else j

/-- The 64-bit RW registers. -/
def quadRW (a : Nat) : Bool := [0x100, 0x108, 0x140, blkBase blkSEE + 0x10, blkBase blkLOG + 8].contains a

/-- Present value of a 64-bit RW register. -/
def quadValue (j : Jenjor) (a : Nat) : BitVec 64 :=
  match j.regAt a with
  | some (.quad v) => BitVec.ofNat 64 v
  | _ => 0

/-- A 4-byte write to half of a 64-bit RW register (R432): the low half is stored, the high half takes effect with it. -/
def writeHalf (j : Jenjor) (a : Nat) (high : Bool) (v : BitVec 32) : Jenjor :=
  let rest := j.qs.halves.filter fun h => h.1 != a
  if high then
    let low := (j.qs.halves.lookup a).getD ((j.quadValue a).setWidth 32)
    ({ j with qs := { j.qs with halves := rest } }).writeQuad a (v ++ low)
  else { j with qs := { j.qs with halves := (a, v) :: rest } }

/-- Write one 4-byte part of an MSI-X table entry (R443). -/
def writeMsix (j : Jenjor) (a : Nat) (v : BitVec 32) : Jenjor :=
  match unitAt 0xF00000 0x10 2048 a with
  | none => if 0xF08000 ≤ a ∧ a < 0xF08100 then j else j.discard 0 a
  | some (n, r) =>
    if j.lnk.vectors ≤ n then j.discard 0 a
    else
      let e := j.msixEntry n
      if r = 0 then j.setMsix n { e with addr := e.addr.extractLsb' 32 32 ++ (v >>> 2 <<< 2) }
      else if r = 4 then j.setMsix n { e with addr := v ++ e.addr.extractLsb' 0 32 }
      else if r = 8 then j.setMsix n { e with data := v }
      else if v.getLsbD 0 then j.setMsix n { e with masked := true }
      else j.unmask n

/-- A write of 1 to a bit of MER_RING_OVF clears it in the counter that it copies (R99). -/
def clearRingOvf (j : Jenjor) (n : Nat) (v : BitVec 32) : Jenjor :=
  let base := blkBase blkMER + 0x1000 + n * 0x40
  let j := if v.getLsbD 0 then j.clearOvf (base + 0x20) else j
  if v.getLsbD 1 then j.clearOvf (base + 0x28) else j

/-- A write of MEM_TG_CTL (R308, R309): PATTERN and LOOP are ignored while a run is in progress. -/
def writeTg (j : Jenjor) (p : Nat) (v : BitVec 32) : Jenjor :=
  let j := j.mapChan p fun c => if c.busy then c else { c with pattern := v.extractLsb' 8 4, loop := v.getLsbD 2 }
  let j := if v.getLsbD 1 then j.stopTg p else j
  if v.getLsbD 0 then j.startTg p else j

/-- A write of a 32-bit register that has RW, W1C or WO fields; any other field ignores it (R7). W1C bits in `set`, which
events set in the same cycle, stay set (R8). -/
def writeField (j : Jenjor) (a : Nat) (v set : BitVec 32) : Jenjor :=
  let (b, off) := blockOf a
  let clear := v &&& ~~~set
  match unitAt 0x1000 0x40 64 off, unitAt 0x200 8 9 off, unitAt 0x1000 0x40 84 off, unitAt 0x100 0x40 4 off,
      unitAt 0 0x20 29 off with
  | ring, core, chan, bay, isl =>
    if b = blkDEV then
      if off = 0x110 then j.setAdmin off fun q => { q with aqCqDepth := v.extractLsb' 16 16, aqSqDepth := v.extractLsb' 0 16 }
      else if off = 0x114 then j.setAdmin off fun q => { q with aqVector := v.extractLsb' 0 11 }
      else if off = 0x118 then if v.getLsbD 0 then j.enableAdmin else j.disableAdmin
      else j
    else if b = blkMER then
      match ring with
      | some (n, r) => if r = 0x38 then j.clearRingOvf n clear else j
      | none => j
    else if b = blkCOE then
      match core with
      | some (c, r) =>
        if r = 0 ∧ clear.getLsbD 31 then
          { j with coe := { j.coe with cores := j.coe.cores.modify c fun x => { x with faultValid := false } } }
        else j
      | none => j
    else if b = blkMEM then
      match chan with
      | some (p, r) =>
        if r = 0x20 then j.writeTg p v
        else if r = 0x24 ∧ clear.getLsbD 1 then j.mapChan p fun c => { c with done := false }
        else j
      | none => j
    else if b = blkVLT then
      match bay with
      | some (c, r) => if r = 4 ∧ v.getLsbD 0 then j.requestRelease c else j
      | none => j
    else if b = blkISL then
      match isl with
      | some (i, r) => if r = 0x10 ∧ v.getLsbD 0 then j.retireIsland i else j
      | none => j
    else if b = blkSEE then
      if off = 0 then j.setSeeCtl v
      else if off = 4 then { j with see := { j.see with target := v } }
      else if off = 8 then { j with see := { j.see with param := v } }
      else j
    else if b = blkLOG then
      if off = 0x10 then { j with log := { j.log with errClass := j.log.errClass &&& ~~~(clear.extractLsb' 2 3) } }
      else if off = 0x14 then { j with log := { j.log with errEn := v.getLsbD 11, errVector := v.extractLsb' 0 11 } }
      else j
    else j

/-- A 4-byte write at an aligned BAR0 address (R6, R7, R432); `set` are the bits that events set in the same cycle (R8). -/
def writeWord (j : Jenjor) (a : Nat) (v set : BitVec 32) : Jenjor :=
  if 0xF00000 ≤ a then j.writeMsix a v
  else if j.alm.step = 9 then if servedInRecovery a then j else j.discard 0 a
  else
    match j.regAt a with
    | some (.word _) => j.writeField a v set
    | some .ctr => j
    | some (.quad _) => if quadRW a then j.writeHalf a false v else j
    | none =>
      match if 4 ≤ a then j.regAt (a - 4) else none with
      | some .ctr => if (v &&& ~~~set).getLsbD 31 then j.clearOvf (a - 4) else j
      | some (.quad _) => if quadRW (a - 4) then j.writeHalf (a - 4) true v else j
      | _ => j.discard 0 a

/-- An 8-byte write: one 64-bit register at once, or two 4-byte writes, the lower address first (R432). -/
def writeEight (j : Jenjor) (a : Nat) (v set : BitVec 64) : Jenjor :=
  if quadRW a ∧ j.alm.step ≠ 9 then
    ({ j with qs := { j.qs with halves := j.qs.halves.filter fun h => h.1 != a } }).writeQuad a v
  else
    (j.writeWord a (v.extractLsb' 0 32) (set.extractLsb' 0 32)).writeWord (a + 4) (v.extractLsb' 32 32) (set.extractLsb' 32 32)

/-- Alignment and size of a BAR0 write (R335): one narrower than 4 bytes is discarded, one that crosses its size alignment
is a Completer Abort. -/
def barWrite (j : Jenjor) (a width : Nat) (v set : BitVec 64) : Jenjor :=
  if 0x1000000 ≤ a then j.emit (.unsupportedRequest a)
  else if width < 4 then j.discard 0 a
  else if (width = 4 ∨ width = 8) ∧ a % width = 0 then
    if width = 8 then j.writeEight a v set else j.writeWord a (v.setWidth 32) (set.setWidth 32)
  else ((j.emit (.completerAbort a)).emit (.aer 0)).info blkLNK 0 0xFFFF a

/-- Registers an OPERATOR may write at a 4-byte address (R433): W1C bits of any block, RW and WO fields of the SEE_ and LOG_
blocks, ISL_CTL, VLT_CAR_CTL, MEM_TG_CTL. -/
def operatorMay (j : Jenjor) (a : Nat) : Bool :=
  let (b, off) := blockOf a
  let fixed :=
    (b == blkMER && (unitAt 0x1000 0x40 64 off).any fun x => x.2 == 0x38)
      || (b == blkCOE && (unitAt 0x200 8 9 off).any fun x => x.2 == 0)
      || (b == blkMEM && (unitAt 0x1000 0x40 84 off).any fun x => x.2 == 0x20 || x.2 == 0x24)
      || (b == blkVLT && (unitAt 0x100 0x40 4 off).any fun x => x.2 == 4)
      || (b == blkISL && (unitAt 0 0x20 29 off).any fun x => x.2 == 0x10)
      || (b == blkSEE && [0, 4, 8, 0x10, 0x14].contains off)
      || (b == blkLOG && [0x8, 0xC, 0x10, 0x14].contains off)
  a < 0x100000 && (fixed || (decide (4 ≤ a) && j.regAt (a - 4) == some .ctr))

/-- A management client's write (R433): each 4-byte part that it may write takes effect, any other is refused and
recorded. -/
def mgmtWrite (j : Jenjor) (role : Role) (a width : Nat) (v set : BitVec 64) : Jenjor :=
  let ok := role == .operator && j.alm.step != 9 && (width == 4 || width == 8) && a % width == 0
    && (j.operatorMay a || (width == 8 && j.operatorMay (a + 4)))
  if !ok then (j.discard 0 a).emit (.mgmt false 0)
  else if width = 4 then (j.writeWord a (v.setWidth 32) (set.setWidth 32)).emit (.mgmt true 0)
  else if quadRW a then (j.writeEight a v set).emit (.mgmt true 0)
  else
    let part := fun (j : Jenjor) (a : Nat) (v set : BitVec 32) =>
      if j.operatorMay a then j.writeWord a v set else if j.regAt a = some .ctr then j else j.discard 0 a
    (part (part j a (v.extractLsb' 0 32) (set.extractLsb' 0 32)) (a + 4) (v.extractLsb' 32 32)
      (set.extractLsb' 32 32)).emit (.mgmt true 0)

/-- A write of a 64-bit register by its row's operands: `v` holds the written bytes (R432). -/
def writePart (j : Jenjor) (a : Nat) (half : WriteHalf) (v : BitVec 64) : Jenjor :=
  match half with
  | .low => j.writeWord a (v.setWidth 32) 0
  | .high => j.writeWord (a + 4) (v.setWidth 32) 0
  | .full => j.writeEight a v 0

/-! ### The catalogue window (R35, R440) -/

/-- A BAR4 access of 1 to 64 bytes that does not cross a 64-byte boundary (R335). -/
def windowOk (off len : Nat) : Bool := off < 67108864 && 1 ≤ len && off % 64 + len ≤ 64

/-- The window is open only while no tenant is bound (R35). -/
def windowOpen (j : Jenjor) : Bool := j.dom.tenant == .unbound

/-- One catalogue byte; an address that R33 rejects reads zero. -/
def catalogueByte (mem : List Host.Cell) (j : Jenjor) (a : Nat) : Byte :=
  match j.resolve a with
  | .invalid => 0
  | .objByte _ off => Memory.read mem off
  | .plateByte p off =>
    match j.coll? p.coll with
    | none => 0
    | some c => p.byteAt c.format c.dim c.sidecar off

def windowRead (mem : List Host.Cell) (j : Jenjor) (off len : Nat) : Jenjor :=
  if !j.barsOpen then j
  else if !windowOk off len then (j.emit (.completerAbort off)).emit (.aer 0)
  else if !j.windowOpen then j.emit (.windowData (List.replicate len 0))
  else j.emit (.windowData ((List.range len).map fun i => catalogueByte mem j (j.qs.windowBase.toNat + off + i)))

/-- Objects that the window may write (R440). -/
def windowWritable (j : Jenjor) (o : Obj) : Bool :=
  o.kind == 2 || o.kind == 8 || o.kind == 9 || (o.kind == 4 && !j.usedByModel o.num)

def windowWrite (mem : List Host.Cell) (j : Jenjor) (off : Nat) (data : List Byte) : List Host.Cell × Jenjor :=
  let a := j.qs.windowBase.toNat + off
  if !j.barsOpen then (mem, if j.alm.step = 9 && j.lnk.endpointUp then j.discard 0 off else j)
  else if !windowOk off data.length then (mem, (j.emit (.completerAbort off)).emit (.aer 0))
  else if !j.windowOpen then (mem, j.discard 0 a)
  else
    match j.resolve a with
    | .objByte o r =>
      if j.windowWritable o && !(j.mem.stopped && o.tier == .sweep) then
        let j := j.noteWrite o.num (r - o.base) data.length
        (Memory.writeBytes mem r data, if o.kind = 8 then j.clearTilePoison o.num (r - o.base) data.length else j)
      else (mem, j.discard 0 a)
    | _ => (mem, j.discard 0 a)

end Jenjor

/-- REGISTER_WRITE (R7, R8): a host write of `width` bytes at a BAR0 offset. -/
def execRegisterWrite (off width : Nat) (x : Written 64) (s : State) : Host.Outcome State Fault Refusal :=
  onBlocks (fun j => if j.lnk.endpointUp && !j.lnk.pcieDown && 5 ≤ j.alm.step then j.barWrite off width x.v x.set else j) s

/-- REGISTER_READ_CLEAR (R7, R9): `during` is what coincides with the read. -/
def execRegisterReadClear (off during : Nat) (s : State) : Host.Outcome State Fault Refusal :=
  onBlocks (fun j => j.readWord off during) s

/-- REGISTER_LOW_HALF_READ (R336). -/
def execRegisterLowHalfRead (off : Nat) (s : State) : Host.Outcome State Fault Refusal :=
  onBlocks (fun j => j.readWord off 0) s

/-- MER_RING_OVF_WRITE (R8, R99). -/
def execMerRingOvfWrite (ring : Nat) (x : Written 32) (s : State) : Host.Outcome State Fault Refusal :=
  onUnit (decide (ring < 64)) (onBlocks (fun j =>
    j.onBar0 (blkBase blkMER + 0x1038 + ring * 0x40) fun j => j.clearRingOvf ring (x.v &&& ~~~x.set)) s)

/-- MGMT_REGISTER_WRITE (R8, R433). -/
def execMgmtRegisterWrite (role : Role) (off width : Nat) (x : Written 64) (s : State) :
    Host.Outcome State Fault Refusal :=
  onBlocks (fun j => if mgmtPortUp j then j.mgmtWrite role off width x.v x.set else j) s

/-- UNMAPPED_REQUEST (R335, R338). -/
def execUnmappedRequest (_ addr : Nat) (s : State) : Host.Outcome State Fault Refusal :=
  onBlocks (fun j => if j.lnk.endpointUp && !j.lnk.pcieDown then (j.emit (.unsupportedRequest addr)).emit (.aer 0) else j) s

/-- WINDOW_BASE_WRITE (R440). -/
def execWindowBaseWrite (half : WriteHalf) (v : BitVec 64) (s : State) : Host.Outcome State Fault Refusal :=
  onBlocks (fun j => j.onBar0 0x140 fun j => j.writePart 0x140 half v) s

/-- CATALOGUE_WINDOW_READ (R440). -/
def execCatalogueWindowRead (off len : Nat) (s : State) : Host.Outcome State Fault Refusal :=
  onReading (fun mem _ j => j.windowRead mem off len) s

/-- CATALOGUE_WINDOW_WRITE (R440). -/
def execCatalogueWindowWrite (off : Nat) (data : List Byte) (s : State) : Host.Outcome State Fault Refusal :=
  onMemory (fun mem _ j => j.windowWrite mem off data) s

/-- SEE_ARM (R429): `v` is what is written to SEE_CTL. -/
def execSeeArm (v : BitVec 32) (s : State) : Host.Outcome State Fault Refusal :=
  onBlocks (fun j => j.onBar0 (blkBase blkSEE) fun j => j.setSeeCtl v) s

/-- LOG_WINDOW_WRITE (R445). -/
def execLogWindowWrite (half : WriteHalf) (v : BitVec 64) (s : State) : Host.Outcome State Fault Refusal :=
  onBlocks (fun j => j.onBar0 (blkBase blkLOG + 8) fun j => j.writePart (blkBase blkLOG + 8) half v) s

end Sys2Proof.Machine
end

