-- ==== Sys2Proof/Machine/Dispatch.lean ====
section
/-! DEFINITION. Sys2Proof/Machine/Dispatch.lean: one arm per command or event. -/

namespace Sys2Proof.Machine

def exec (i : Instr) (s : State) : Host.Outcome State Fault Refusal :=
  match i with
  | .queryVector q op => Sys2Proof.Machine.execQueryVector q op s
  | .queryTokens q op => Sys2Proof.Machine.execQueryTokens q op s
  | .insert q op => Sys2Proof.Machine.execInsert q op s
  | .update q op => Sys2Proof.Machine.execUpdate q op s
  | .delete q => Sys2Proof.Machine.execDelete q s
  | .biasWrite q op => Sys2Proof.Machine.execBiasWrite q op s
  | .biasFrame q => Sys2Proof.Machine.execBiasFrame q s
  | .writeFence q => Sys2Proof.Machine.execWriteFence q s
  | .collectionCreate q op => Sys2Proof.Machine.execCollectionCreate q op s
  | .collectionDelete q => Sys2Proof.Machine.execCollectionDelete q s
  | .objectCreate q op => Sys2Proof.Machine.execObjectCreate q op s
  | .objectDelete q => Sys2Proof.Machine.execObjectDelete q s
  | .objectWrite q op => Sys2Proof.Machine.execObjectWrite q op s
  | .objectStatus q => Sys2Proof.Machine.execObjectStatus q s
  | .place q => Sys2Proof.Machine.execPlace q s
  | .setResidence q => Sys2Proof.Machine.execSetResidence q s
  | .ringDefine q op => Sys2Proof.Machine.execRingDefine q op s
  | .ringEdit q op => Sys2Proof.Machine.execRingEdit q op s
  | .ringStart q => Sys2Proof.Machine.execRingStart q s
  | .ringStop q => Sys2Proof.Machine.execRingStop q s
  | .modelLoad q => Sys2Proof.Machine.execModelLoad q s
  | .modelUnload q => Sys2Proof.Machine.execModelUnload q s
  | .calibrate q op => Sys2Proof.Machine.execCalibrate q op s
  | .recalibrate q op => Sys2Proof.Machine.execRecalibrate q op s
  | .atomic q op => Sys2Proof.Machine.execAtomic q op s
  | .queueCreate q => Sys2Proof.Machine.execQueueCreate q s
  | .queueDelete q => Sys2Proof.Machine.execQueueDelete q s
  | .sectionReload src sec => Sys2Proof.Machine.execSectionReload src sec s
  | .firmwareSwitch q => Sys2Proof.Machine.execFirmwareSwitch q s
  | .tileWrite q data => Sys2Proof.Machine.execTileWrite q data s
  | .tileRead q => Sys2Proof.Machine.execTileRead q s
  | .tilePrefetch q => Sys2Proof.Machine.execTilePrefetch q s
  | .tileEvict q => Sys2Proof.Machine.execTileEvict q s
  | .routeConnect q => Sys2Proof.Machine.execRouteConnect q s
  | .shardListDefine q => Sys2Proof.Machine.execShardListDefine q s
  | .shardListDelete q => Sys2Proof.Machine.execShardListDelete q s
  | .mergeQuery q => Sys2Proof.Machine.execMergeQuery q s
  | .descriptorFetch descs => Sys2Proof.Machine.execDescriptorFetch descs s
  | .sqTailDoorbell q a => Sys2Proof.Machine.execSqTailDoorbell q a s
  | .cqHeadDoorbell q a => Sys2Proof.Machine.execCqHeadDoorbell q a s
  | .roceDoorbell q imm => Sys2Proof.Machine.execRoceDoorbell q imm s
  | .aqEnable => Sys2Proof.Machine.execAqEnable s
  | .aqDisable => Sys2Proof.Machine.execAqDisable s
  | .windowBaseWrite half v => Sys2Proof.Machine.execWindowBaseWrite half v s
  | .catalogueWindowRead off len => Sys2Proof.Machine.execCatalogueWindowRead off len s
  | .catalogueWindowWrite off data => Sys2Proof.Machine.execCatalogueWindowWrite off data s
  | .registerWrite off width v => Sys2Proof.Machine.execRegisterWrite off width v s
  | .registerReadClear off during => Sys2Proof.Machine.execRegisterReadClear off during s
  | .registerLowHalfRead off => Sys2Proof.Machine.execRegisterLowHalfRead off s
  | .merRingOvfWrite ring v => Sys2Proof.Machine.execMerRingOvfWrite ring v s
  | .mgmtRegisterWrite role off width v => Sys2Proof.Machine.execMgmtRegisterWrite role off width v s
  | .unmappedRequest bar addr => Sys2Proof.Machine.execUnmappedRequest bar addr s
  | .msixVectorUnmask vec => Sys2Proof.Machine.execMsixVectorUnmask vec s
  | .tgStart ch => Sys2Proof.Machine.execTgStart ch s
  | .tgStop ch => Sys2Proof.Machine.execTgStop ch s
  | .tgPassComplete ch diffs pins => Sys2Proof.Machine.execTgPassComplete ch diffs pins s
  | .carrierRelease bay => Sys2Proof.Machine.execCarrierRelease bay s
  | .islRetire isl => Sys2Proof.Machine.execIslRetire isl s
  | .seeArm v => Sys2Proof.Machine.execSeeArm v s
  | .logWindowWrite half v => Sys2Proof.Machine.execLogWindowWrite half v s
  | .rowLoadComplete ctx => Sys2Proof.Machine.execRowLoadComplete ctx s
  | .plateGroupDeal ring altFor => Sys2Proof.Machine.execPlateGroupDeal ring altFor s
  | .plateFillComplete c g checks => Sys2Proof.Machine.execPlateFillComplete c g checks s
  | .plateRecheckComplete c g pid ok words => Sys2Proof.Machine.execPlateRecheckComplete c g pid ok words s
  | .flip c g => Sys2Proof.Machine.execFlip c g s
  | .ringBoundary ring => Sys2Proof.Machine.execRingBoundary ring s
  | .batchAccumulateEnd c g => Sys2Proof.Machine.execBatchAccumulateEnd c g s
  | .admissionArrival c => Sys2Proof.Machine.execAdmissionArrival c s
  | .overflowSelectionComplete ctx => Sys2Proof.Machine.execOverflowSelectionComplete ctx s
  | .boundaryInstall ctx c => Sys2Proof.Machine.execBoundaryInstall ctx c s
  | .mergeStart ctx => Sys2Proof.Machine.execMergeStart ctx s
  | .mergeComplete ctx => Sys2Proof.Machine.execMergeComplete ctx s
  | .specRequestIssue c => Sys2Proof.Machine.execSpecRequestIssue c s
  | .rerankStart core => Sys2Proof.Machine.execRerankStart core s
  | .recordPageReadComplete page ok => Sys2Proof.Machine.execRecordPageReadComplete page ok s
  | .rerankComplete core => Sys2Proof.Machine.execRerankComplete core s
  | .rerankDeadline ctx => Sys2Proof.Machine.execRerankDeadline ctx s
  | .resultDelivery ctx => Sys2Proof.Machine.execResultDelivery ctx s
  | .flushReadComplete ctx => Sys2Proof.Machine.execFlushReadComplete ctx s
  | .flushReadFailed ctx => Sys2Proof.Machine.execFlushReadFailed ctx s
  | .coalescingTimeout q => Sys2Proof.Machine.execCoalescingTimeout q s
  | .queryLifetimeExpiry ctx => Sys2Proof.Machine.execQueryLifetimeExpiry ctx s
  | .ringStretch ring => Sys2Proof.Machine.execRingStretch ring s
  | .passStart => Sys2Proof.Machine.execPassStart s
  | .passComplete => Sys2Proof.Machine.execPassComplete s
  | .passWatchdog => Sys2Proof.Machine.execPassWatchdog s
  | .encoderCoreFailure core => Sys2Proof.Machine.execEncoderCoreFailure core s
  | .nop r => Sys2Proof.Machine.execNop r s
  | .endStream r => Sys2Proof.Machine.execEndStream r s
  | .seti r => Sys2Proof.Machine.execSeti r s
  | .addi r => Sys2Proof.Machine.execAddi r s
  | .muli r => Sys2Proof.Machine.execMuli r s
  | .andi r => Sys2Proof.Machine.execAndi r s
  | .loop r => Sys2Proof.Machine.execLoop r s
  | .skipz r => Sys2Proof.Machine.execSkipz r s
  | .fence r => Sys2Proof.Machine.execFence r s
  | .bar r => Sys2Proof.Machine.execBar r s
  | .wld r => Sys2Proof.Machine.execWld r s
  | .wrcv r => Sys2Proof.Machine.execWrcv r s
  | .wfwd r => Sys2Proof.Machine.execWfwd r s
  | .flipStage r => Sys2Proof.Machine.execFlipStage r s
  | .aclr r => Sys2Proof.Machine.execAclr r s
  | .mma r => Sys2Proof.Machine.execMma r s
  | .mout r => Sys2Proof.Machine.execMout r s
  | .qrow r => Sys2Proof.Machine.execQrow r s
  | .gath r => Sys2Proof.Machine.execGath r s
  | .norm r => Sys2Proof.Machine.execNorm r s
  | .gelu r => Sys2Proof.Machine.execGelu r s
  | .addv r => Sys2Proof.Machine.execAddv r s
  | .mulv r => Sys2Proof.Machine.execMulv r s
  | .rope r => Sys2Proof.Machine.execRope r s
  | .attn r => Sys2Proof.Machine.execAttn r s
  | .pool r => Sys2Proof.Machine.execPool r s
  | .xall r => Sys2Proof.Machine.execXall r s
  | .emit r => Sys2Proof.Machine.execEmit r s
  | .journalBufferDurable seq => Sys2Proof.Machine.execJournalBufferDurable seq s
  | .journalStripeProgrammed seq => Sys2Proof.Machine.execJournalStripeProgrammed seq s
  | .commitTick => Sys2Proof.Machine.execCommitTick s
  | .commitPublish => Sys2Proof.Machine.execCommitPublish s
  | .plateSettleVisit pid => Sys2Proof.Machine.execPlateSettleVisit pid s
  | .writeWaitRelease seq => Sys2Proof.Machine.execWriteWaitRelease seq s
  | .writeBack tgt => Sys2Proof.Machine.execWriteBack tgt s
  | .headerLogStripeTimeout coll => Sys2Proof.Machine.execHeaderLogStripeTimeout coll s
  | .replatingStart pids => Sys2Proof.Machine.execReplatingStart pids s
  | .replatingReady job => Sys2Proof.Machine.execReplatingReady job s
  | .plateRetire pid => Sys2Proof.Machine.execPlateRetire pid s
  | .biasBufferDrained coll => Sys2Proof.Machine.execBiasBufferDrained coll s
  | .objectRelease what => Sys2Proof.Machine.execObjectRelease what s
  | .slewStart obj => Sys2Proof.Machine.execSlewStart obj s
  | .slewSwitch obj step => Sys2Proof.Machine.execSlewSwitch obj step s
  | .allocationRetry alloc expired => Sys2Proof.Machine.execAllocationRetry alloc expired s
  | .photometerInterval => Sys2Proof.Machine.execPhotometerInterval s
  | .calibrationComplete => Sys2Proof.Machine.execCalibrationComplete s
  | .modelLoadDecryptComplete => Sys2Proof.Machine.execModelLoadDecryptComplete s
  | .stepPlateLoss pid => Sys2Proof.Machine.execStepPlateLoss pid s
  | .plateRestoreComplete pid ok => Sys2Proof.Machine.execPlateRestoreComplete pid ok s
  | .plateMasterLost pid => Sys2Proof.Machine.execPlateMasterLost pid s
  | .clusterHardFault c => Sys2Proof.Machine.execClusterHardFault c s
  | .clusterPlannedRetire c => Sys2Proof.Machine.execClusterPlannedRetire c s
  | .wholeModuleFault blk unit => Sys2Proof.Machine.execWholeModuleFault blk unit s
  | .channelAccessRetry ch fail overRate => Sys2Proof.Machine.execChannelAccessRetry ch fail overRate s
  | .channelRetrain ch margin trained => Sys2Proof.Machine.execChannelRetrain ch margin trained s
  | .channelSubstitutionStart ch => Sys2Proof.Machine.execChannelSubstitutionStart ch s
  | .channelSubstitutionComplete rim => Sys2Proof.Machine.execChannelSubstitutionComplete rim s
  | .channelLost ch => Sys2Proof.Machine.execChannelLost ch s
  | .uncorrectableCodeWord addr word what => Sys2Proof.Machine.execUncorrectableCodeWord addr word what s
  | .refresh ch drift waitCycles waiter => Sys2Proof.Machine.execRefresh ch drift waitCycles waiter s
  | .patrolScrubRead ch burst words bad passDone => Sys2Proof.Machine.execPatrolScrubRead ch burst words bad passDone s
  | .d2dFlitReplay b overRate => Sys2Proof.Machine.execD2dFlitReplay b overRate s
  | .memoryTempRead temps => Sys2Proof.Machine.execMemoryTempRead temps s
  | .bandFallTimeout => Sys2Proof.Machine.execBandFallTimeout s
  | .islandTempRead isl temp => Sys2Proof.Machine.execIslandTempRead isl temp s
  | .clockStepDownTimer isl => Sys2Proof.Machine.execClockStepDownTimer isl s
  | .clockStepUpTimer isl => Sys2Proof.Machine.execClockStepUpTimer isl s
  | .neighbourTempCheck isl j => Sys2Proof.Machine.execNeighbourTempCheck isl j s
  | .islandFloorTimeout isl => Sys2Proof.Machine.execIslandFloorTimeout isl s
  | .hubOvertempTimeout isl => Sys2Proof.Machine.execHubOvertempTimeout isl s
  | .coolantWarning inletHot flowLow => Sys2Proof.Machine.execCoolantWarning inletHot flowLow s
  | .powerSample watts avg => Sys2Proof.Machine.execPowerSample watts avg s
  | .loadShedStep => Sys2Proof.Machine.execLoadShedStep s
  | .loadRestoreStep => Sys2Proof.Machine.execLoadRestoreStep s
  | .powerGood straps => Sys2Proof.Machine.execPowerGood straps s
  | .startStepComplete rep => Sys2Proof.Machine.execStartStepComplete rep s
  | .ringRestoreComplete ring => Sys2Proof.Machine.execRingRestoreComplete ring s
  | .almanacRepairComplete => Sys2Proof.Machine.execAlmanacRepairComplete s
  | .powerLoss => Sys2Proof.Machine.execPowerLoss s
  | .holdupFlushComplete us inputBack => Sys2Proof.Machine.execHoldupFlushComplete us inputBack s
  | .powerOff => Sys2Proof.Machine.execPowerOff s
  | .modRstTimeout => Sys2Proof.Machine.execModRstTimeout s
  | .modRstRise lowNs => Sys2Proof.Machine.execModRstRise lowNs s
  | .holdupMeasure enough => Sys2Proof.Machine.execHoldupMeasure enough s
  | .fuseRecheck reads => Sys2Proof.Machine.execFuseRecheck reads s
  | .pcieReset kind => Sys2Proof.Machine.execPcieReset kind s
  | .perstRelease => Sys2Proof.Machine.execPerstRelease s
  | .pcieLinkTrained width speed flit => Sys2Proof.Machine.execPcieLinkTrained width speed flit s
  | .pcieCompletionTimeout q cid => Sys2Proof.Machine.execPcieCompletionTimeout q cid s
  | .pciePoisonedTlp q => Sys2Proof.Machine.execPciePoisonedTlp q s
  | .pcieErrorTlp kind => Sys2Proof.Machine.execPcieErrorTlp kind s
  | .pcieCorrectableError => Sys2Proof.Machine.execPcieCorrectableError s
  | .doeDiscovery idx => Sys2Proof.Machine.execDoeDiscovery idx s
  | .doeAbort => Sys2Proof.Machine.execDoeAbort s
  | .doeOtherProtocol vendor ty => Sys2Proof.Machine.execDoeOtherProtocol vendor ty s
  | .getVersion mb busy => Sys2Proof.Machine.execGetVersion mb busy s
  | .getCapabilities mb busy => Sys2Proof.Machine.execGetCapabilities mb busy s
  | .negotiateAlgorithms mb busy => Sys2Proof.Machine.execNegotiateAlgorithms mb busy s
  | .getDigests mb busy => Sys2Proof.Machine.execGetDigests mb busy s
  | .getCertificate mb busy slot off len => Sys2Proof.Machine.execGetCertificate mb busy slot off len s
  | .challenge mb busy nonce => Sys2Proof.Machine.execChallenge mb busy nonce s
  | .getMeasurements mb busy nonce => Sys2Proof.Machine.execGetMeasurements mb busy nonce s
  | .keyExchange mb busy chain => Sys2Proof.Machine.execKeyExchange mb busy chain s
  | .finish mb busy sid ok => Sys2Proof.Machine.execFinish mb busy sid ok s
  | .heartbeat mb busy sid => Sys2Proof.Machine.execHeartbeat mb busy sid s
  | .keyUpdate mb busy sid => Sys2Proof.Machine.execKeyUpdate mb busy sid s
  | .endSession mb busy sid => Sys2Proof.Machine.execEndSession mb busy sid s
  | .spdmSessionTimeout sid => Sys2Proof.Machine.execSpdmSessionTimeout sid s
  | .slotWrite mb busy sid slot key persist => Sys2Proof.Machine.execSlotWrite mb busy sid slot key persist s
  | .slotErase mb busy sid slot => Sys2Proof.Machine.execSlotErase mb busy sid slot s
  | .slotStatus mb busy sid slot => Sys2Proof.Machine.execSlotStatus mb busy sid slot s
  | .endTenancy mb busy sid => Sys2Proof.Machine.execEndTenancy mb busy sid s
  | .debugUnlock mb busy sid token => Sys2Proof.Machine.execDebugUnlock mb busy sid token s
  | .pairCheck mb busy sid digest rev => Sys2Proof.Machine.execPairCheck mb busy sid digest rev s
  | .slotEraseTimeout slot => Sys2Proof.Machine.execSlotEraseTimeout slot s
  | .keyGenerationRetire slot => Sys2Proof.Machine.execKeyGenerationRetire slot s
  | .rekeyBatch coll pids => Sys2Proof.Machine.execRekeyBatch coll pids s
  | .vaultRekey => Sys2Proof.Machine.execVaultRekey s
  | .bind role digest => Sys2Proof.Machine.execBind role digest s
  | .unbind role => Sys2Proof.Machine.execUnbind role s
  | .tenantScrubComplete us => Sys2Proof.Machine.execTenantScrubComplete us s
  | .vaultBackgroundErase => Sys2Proof.Machine.execVaultBackgroundErase s
  | .firmwareCommit role => Sys2Proof.Machine.execFirmwareCommit role s
  | .lifecycleRma role token => Sys2Proof.Machine.execLifecycleRma role token s
  | .lifecycleScrap role token => Sys2Proof.Machine.execLifecycleScrap role token s
  | .leaseForce role => Sys2Proof.Machine.execLeaseForce role s
  | .almanacWrite role img => Sys2Proof.Machine.execAlmanacWrite role img s
  | .firmwareWrite role named rec => Sys2Proof.Machine.execFirmwareWrite role named rec s
  | .mgmtCarrierRelease role bay => Sys2Proof.Machine.execMgmtCarrierRelease role bay s
  | .mgmtTlsHandshake src ca inSecond => Sys2Proof.Machine.execMgmtTlsHandshake src ca inSecond s
  | .sectionPersisted => Sys2Proof.Machine.execSectionPersisted s
  | .firmwareSwitchApply => Sys2Proof.Machine.execFirmwareSwitchApply s
  | .firmwareSwitchWatchdog => Sys2Proof.Machine.execFirmwareSwitchWatchdog s
  | .attentionButton bay heldMs => Sys2Proof.Machine.execAttentionButton bay heldMs s
  | .carrierSafeToRemove bay => Sys2Proof.Machine.execCarrierSafeToRemove bay s
  | .carrierRemoval bay => Sys2Proof.Machine.execCarrierRemoval bay s
  | .carrierInsertion bay id => Sys2Proof.Machine.execCarrierInsertion bay id s
  | .carrierFailure bay => Sys2Proof.Machine.execCarrierFailure bay s
  | .carrierRebuildComplete bay => Sys2Proof.Machine.execCarrierRebuildComplete bay s
  | .vaultPageRead page level others by_ => Sys2Proof.Machine.execVaultPageRead page level others by_ s
  | .blockRetire bay sparePct => Sys2Proof.Machine.execBlockRetire bay sparePct s
  | .onfiChannelRetrain bay chan fixed space => Sys2Proof.Machine.execOnfiChannelRetrain bay chan fixed space s
  | .carrierOvertemp bay temp => Sys2Proof.Machine.execCarrierOvertemp bay temp s
  | .arpRequest port ip => Sys2Proof.Machine.execArpRequest port ip s
  | .neighbourSolicitation port ip => Sys2Proof.Machine.execNeighbourSolicitation port ip s
  | .icmpEcho port ip data => Sys2Proof.Machine.execIcmpEcho port ip data s
  | .ethFrameDropped port => Sys2Proof.Machine.execEthFrameDropped port s
  | .ethLinkDown port => Sys2Proof.Machine.execEthLinkDown port s
  | .ethLinkUp port speed => Sys2Proof.Machine.execEthLinkUp port speed s
  | .rdmaWrite qpn rkey addr data => Sys2Proof.Machine.execRdmaWrite qpn rkey addr data s
  | .roceRefusedRequest qpn kind => Sys2Proof.Machine.execRoceRefusedRequest qpn kind s
  | .roceAck qpn psn => Sys2Proof.Machine.execRoceAck qpn psn s
  | .roceNak qpn => Sys2Proof.Machine.execRoceNak qpn s
  | .roceAckTimeout qpn => Sys2Proof.Machine.execRoceAckTimeout qpn s
  | .ecnMarkedPacket qpn => Sys2Proof.Machine.execEcnMarkedPacket qpn s
  | .cnpReceived qpn => Sys2Proof.Machine.execCnpReceived qpn s
  | .rateIncreaseTimer qpn => Sys2Proof.Machine.execRateIncreaseTimer qpn s
  | .cmReq port src rc mtu mergeSvc => Sys2Proof.Machine.execCmReq port src rc mtu mergeSvc s
  | .cmRtu qpn => Sys2Proof.Machine.execCmRtu qpn s
  | .cmDreq qpn => Sys2Proof.Machine.execCmDreq qpn s
  | .cmRepRej qpn rep => Sys2Proof.Machine.execCmRepRej qpn rep s
  | .cmRepTimeout qpn => Sys2Proof.Machine.execCmRepTimeout qpn s
  | .qpBindTimeout qpn => Sys2Proof.Machine.execQpBindTimeout qpn s
  | .mergeRecordArrival qpn rkey addr data imm => Sys2Proof.Machine.execMergeRecordArrival qpn rkey addr data imm s
  | .mergeDeadline list ticket => Sys2Proof.Machine.execMergeDeadline list ticket s
  | .companionLinkTrained lanes peer => Sys2Proof.Machine.execCompanionLinkTrained lanes peer s
  | .companionLinkErrors corrected uncorr => Sys2Proof.Machine.execCompanionLinkErrors corrected uncorr s
  | .companionLinkDown => Sys2Proof.Machine.execCompanionLinkDown s
  | .cpnReplayTimeout seq => Sys2Proof.Machine.execCpnReplayTimeout seq s
  | .cpnReservedMessage ty => Sys2Proof.Machine.execCpnReservedMessage ty s
  | .renew lease holder epoch ceiling floor => Sys2Proof.Machine.execRenew lease holder epoch ceiling floor s
  | .renewAck lease holder epoch ceiling floor => Sys2Proof.Machine.execRenewAck lease holder epoch ceiling floor s
  | .journal rec => Sys2Proof.Machine.execJournal rec s
  | .durable seq => Sys2Proof.Machine.execDurable seq s
  | .commit epoch seqs => Sys2Proof.Machine.execCommit epoch seqs s
  | .commitAck epoch => Sys2Proof.Machine.execCommitAck epoch s
  | .forward tag d op => Sys2Proof.Machine.execForward tag d op s
  | .forwardDone tag status v0 v1 => Sys2Proof.Machine.execForwardDone tag status v0 v1 s
  | .xquery tag d op epoch frame => Sys2Proof.Machine.execXquery tag d op epoch frame s
  | .xdigest tag final coarse tookCoarse => Sys2Proof.Machine.execXdigest tag final coarse tookCoarse s
  | .restore item => Sys2Proof.Machine.execRestore item s
  | .relinquish lease epoch => Sys2Proof.Machine.execRelinquish lease epoch s
  | .frameDone coll frame => Sys2Proof.Machine.execFrameDone coll frame s
  | .leaseRenewTimer => Sys2Proof.Machine.execLeaseRenewTimer s
  | .leaseLapse => Sys2Proof.Machine.execLeaseLapse s
  | .takeWaitElapsed => Sys2Proof.Machine.execTakeWaitElapsed s
  | .witnessReply r => Sys2Proof.Machine.execWitnessReply r s
  | .pairRejoin peerLease peerEpoch => Sys2Proof.Machine.execPairRejoin peerLease peerEpoch s
  | .catchUpComplete => Sys2Proof.Machine.execCatchUpComplete s
  | .pldmSensorRequest sensor => Sys2Proof.Machine.execPldmSensorRequest sensor s
  | .pldmEventRead => Sys2Proof.Machine.execPldmEventRead s
  | .smbusClockLowTimeout => Sys2Proof.Machine.execSmbusClockLowTimeout s
  | .jtagInstruction ins => Sys2Proof.Machine.execJtagInstruction ins s
  | .recalibrationStaged coll => Sys2Proof.Machine.execRecalibrationStaged coll s
  | .shardListRelease list => Sys2Proof.Machine.execShardListRelease list s
  | .lifecycleEraseComplete => Sys2Proof.Machine.execLifecycleEraseComplete s
  | .almanacWriteComplete => Sys2Proof.Machine.execAlmanacWriteComplete s
  | .powerConverterOvertemp => Sys2Proof.Machine.execPowerConverterOvertemp s
  | .mgmtLinkUp => Sys2Proof.Machine.execMgmtLinkUp s
  | .mgmtLinkDown => Sys2Proof.Machine.execMgmtLinkDown s

end Sys2Proof.Machine
end

