-- ==== Sys2Proof/Safety.lean ====
section
/-! DEFINITION. Sys2Proof/Safety.lean: what every state that the module reaches keeps, and when a descriptor command is
carried out: the words that the statements use. -/

namespace Sys2Proof.Machine

/-- Both byte memories are in canonical form. -/
def State.Canonical (s : State) : Prop := Memory.wf s.mem = true ∧ Memory.wf s.rmem = true

/-- The module carries out `f`, the oldest fetched descriptor of queue `q`, whose opcode is `op`; `j` is the rest. -/
def State.takes (s : State) (q op : Nat) (f : Fetched) (j : Jenjor) : Prop :=
  s.j.live = true ∧ s.j.takeFetched q op = some (f, j)

/-- The same of a query or a write, behind no delete of its collection (R46). -/
def State.takesData (s : State) (q op : Nat) (f : Fetched) (j : Jenjor) : Prop :=
  s.j.live = true ∧ s.j.takeData q op = some (f, j)

/-- The same of a command that waits its turn in catalogue order (R45) and is the module's own. -/
def State.takesTurn (s : State) (q op : Nat) (f : Fetched) (j : Jenjor) : Prop :=
  s.j.live = true ∧ s.j.takeCatalogue q op = some (f, j)

/-- The same of a catalogue command in its turn (R45) that this module carries out itself, repeated to a companion that
mirrors it (R352). -/
def State.takesCat (s : State) (q op : Nat) (operand : List Byte) (f : Fetched) (j : Jenjor) : Prop :=
  s.j.live = true ∧ (s.j.takeCatalogue q op).map (fun x => (x.1, x.2.repeatCmd x.1 operand)) = some (f, j) ∧
    (j.secondary = false ∨ f.ref.q = Jenjor.replicaQueue)

end Sys2Proof.Machine
end

