-- ==== Sys2Proof/Certificates/Slice0/Obligations.lean ====
section
/-! DEFINITION. Sys2Proof/Certificates/Slice0/Obligations.lean: the statements about the module, family by family, and the
words they are written in. -/

namespace Sys2Proof.Machine
open Jenjor

/-- The definition that a RING_DEFINE descriptor and its collection list state (R71, R277). -/
def statedRing (d : Desc) (colls : List Nat) (fm : Format) (dim : Nat) : RingDef :=
  { deep := dField d 0x15 1 == 1, alt := if dField d 0x1A 1 / 128 = 1 then some (dField d 0x1A 1 % 64) else none,
    minC := dField d 0x16 1, maxC := dField d 0x17 1, prio := dField d 0x18 1, share := dField d 0x19 1,
    window := if dField d 0x1C 2 = 0 then 256 else dField d 0x1C 2, colls := colls, format := fm, dim := dim }

/-- The result record and status with which a query leaves once its payloads are read (R280, R290). -/
def leaves (j : Jenjor) (c : Coll) (x : Ctx) : List Byte × Status :=
  (resultRecord (fpKeys c) x j.readOnlyNow x.tookCoarse true,
   resultStatus x.stretched x.tookCoarse false (qRange x.d && decide (4096 < x.qualCount)) j.readOnlyNow)

/-- Coarse results and truncated range results are counted (R136, R156). -/
def countLeaving (j : Jenjor) (x : Ctx) : Jenjor :=
  let j := if x.tookCoarse then j.count blkSPG 0x108 else j
  if qRange x.d && decide (4096 < x.qualCount) then j.count blkCMP 0x2008 else j

/-- A write that this module accepts now: nothing of R208 refuses it, acceptance has not stopped, the buckets hold what it
takes (R214), and the journal buffer has room for its record (R318). -/
def acceptable (s : State) (q code : Nat) (f : Fetched) (j : Jenjor) (op : List Byte) (c : Coll) : Prop :=
  s.takesData q code f j ∧ j.secondary = false ∧ j.writeRefused f.d op = none ∧
    j.liveColl? (dField f.d 4 2) = some c ∧ j.coll? (dField f.d 4 2) = some c ∧ j.wr.stopped = false ∧ 1 ≤ j.wr.tokens ∧
    recordBytes c f.d op ≤ j.wr.byteTokens ∧ j.bufferBytes + recordBytes c f.d op ≤ 33554432

/-- The blocks `k` after an acceptance (R208 to R210, R212, R214): the write's record joins the journal under the next
sequence number, neither durable nor acknowledged; its key outcome stands in `keys`; the buckets give what it takes. A
module that mirrors sends it to its companion, any other leaves the link alone. -/
def acceptedAs (j : Jenjor) (f : Fetched) (op : List Byte) (c : Coll) (keys : List (BitVec 64)) (k : Jenjor) : Prop :=
  let r := journalRecord c f.d op j.wr.nextSeq
  let e : JEntry :=
    { jr := r, ref := f.ref, visible := dField f.d 0x1D 1 % 2 == 1, localDurable := false, peerDurable := false, acked := false,
      completed := false, waiting := false, programmed := false, epoch := none, published := false, discarded := false,
      touched := [], touchedBias := false }
  k.wr = { j.wr with journal := j.wr.journal ++ [e], nextSeq := j.wr.nextSeq + 1, tokens := j.wr.tokens - 1,
                     byteTokens := j.wr.byteTokens - recordBytes c f.d op } ∧
    k.coll? (dField f.d 4 2) = some { c with accepted := keys } ∧
    (∀ n, n ≠ dField f.d 4 2 → k.coll? n = j.coll? n) ∧ (j.mirroring = false → k.cpn = j.cpn ∧ k.out = j.out) ∧
    k = { j with wr := k.wr, cat := { j.cat with colls := k.cat.colls }, cpn := k.cpn, out := k.out }

/-- Rank `h.r` of the pass in flight stands at instruction `h.i` of opcode `op`, and is free to step (R193, R194). -/
def standsAt (s : State) (op : Nat) (h : Here) : Prop :=
  s.j.live = true ∧ h.r < 8 ∧ s.j.coe.pass = some h.p ∧ h.p.ranks[h.r]? = some h.k ∧ s.j.model? h.p.model = some h.m ∧
    h.k.ended = false ∧ h.k.coll = none ∧ h.i = atIns h.m h.k ∧ insOp h.i = op ∧ h.free = s.j.freeIdx

/-- The pass in flight becomes `p`, `used` free values having been drawn. -/
def passGoes (s : State) (p : Pass) (used : Nat) : State :=
  { s with j := { s.j with coe := { s.j.coe with pass := some p }, freeIdx := s.j.freeIdx + used } }

/-- Rank `h.r` goes on with state `k`. -/
def rankGoes (s : State) (h : Here) (k : Rank) (used : Nat) : State :=
  passGoes s { h.p with ranks := h.p.ranks.set h.r k } used

/-- The pair's data changes, and nothing else. -/
def withPair (s : State) (f : PairData → PairData) : State :=
  { s with j := { s.j with cpn := { s.j.cpn with pair := f s.j.cpn.pair } } }

/-- The module has sent an SPDM response, and nothing else has changed. -/
def replied (s : State) (mb : Mailbox) (code : Nat) (data : List Byte) : State :=
  let l := { s.j.lnk with doePending := s.j.lnk.doePending || decide (mb = .doe) }
  { s with j := { s.j with lnk := l, out := .spdm mb code data :: s.j.out } }

/-- A vendor-defined response: standards body PCI-SIG, vendor 1D9EH, the result byte, what follows (R381). -/
def vendor (res : Nat) (more : List Byte) : List Byte := [0x03, 0x00, 0x9E, 0x1D, BitVec.ofNat 8 res] ++ more

/-- A management request is refused: answered so, counted and recorded in the Logbook, and nothing else changes. -/
def turnedAway (s t : State) : Prop :=
  t.j.out = .mgmt false 0 :: s.j.out ∧ (t.j.counter 0xF0020).count = (s.j.counter 0xF0020).count + 1 ∧
    t.j.log.head = s.j.log.head + 1 ∧ t = { s with j := { s.j with out := t.j.out, ctrs := t.j.ctrs, log := t.j.log } }

/-- The scrub has begun: steps 1 to 3 of R390. -/
def scrubBegun (s t : State) (next : ScrubThen) : Prop :=
  t.j.dom.tenant = .scrubbing ∧ t.j.dom.scrub = some next ∧ t.j.dom.slots = List.replicate 64 emptySlot ∧ t.j.dom.sealedRec = none ∧
    t.j.dom.rekeySweep = false ∧ t.j.dom.rekeyVault = false ∧ t.j.coe.pass = none ∧ t.j.dom.life = s.j.dom.life ∧ t.mem = s.mem ∧
    t.rmem = s.rmem

/-- The image in force has no catalogue and no ring section. -/
def noEntries (j : Jenjor) : Prop := ∀ i, j.alm.image = some i → ∀ x ∈ i.sections, bodyType x.body ≠ some 4 ∧ bodyType x.body ≠ some 5

/-- What a module in reset or without power keeps: the catalogue and the plates' records, the sealed record, the fuses and
the Almanac; every queue, ring, counter and Logbook record is as after reset (R219, R434, R457). -/
def keptThroughReset (s t : State) : Prop :=
  t.rmem = [] ∧ t.pending = s.pending ∧ t.j.qs = resetQueues ∧ t.j.sw = resetSweep ∧ t.j.ctrs = [] ∧ t.j.log = resetLog ∧
    t.j.coe = Jenjor.reset.coe ∧ t.j.spg = Jenjor.reset.spg ∧ t.j.mem = resetMem ∧ t.j.see = resetSeeing ∧
    t.j.cat.colls.map (fun c => (c.num, c.dir)) = s.j.cat.colls.map (fun c => (c.num, c.dir)) ∧
    t.j.cat.plates.map (fun p => (p.pid, p.recs, p.dlog, p.tomb))
      = (s.j.cat.plates.filter fun p => !p.retiring).map (fun p => (p.pid, p.recs, p.dlog, p.tomb)) ∧
    t.j.cat.seq = s.j.cat.seq ∧ t.j.wr.epoch = s.j.wr.epoch ∧ t.j.dom.sealedRec = s.j.dom.sealedRec ∧ t.j.dom.life = s.j.dom.life ∧
    t.j.dom.secverFuses = s.j.dom.secverFuses ∧ t.j.dom.sessions = [] ∧ t.j.alm.floor = s.j.alm.floor ∧
    t.j.alm.primary = keptDevice s.j.alm.primary ∧ t.j.alm.alternate = keptDevice s.j.alm.alternate

/-- The module serves its registers over PCIe (R406, R446). -/
def serving (s : State) : Prop := s.j.live = true ∧ s.j.barsOpen = true

/-- A write with no effect but its record (R6, R427). -/
def discarded (s t : State) : Prop :=
  (t.j.counter 0xF0020).count = (s.j.counter 0xF0020).count + 1 ∧ t.j.log.head = s.j.log.head + 1 ∧
    t = { s with j := { s.j with ctrs := t.j.ctrs, log := t.j.log } }

/-- The commands and events that may write catalogue memory: object, payload, tile, window and restored bytes, and what a
start, a power loss, an erase or a scrub wipes. -/
def storesInCatalogue : Instr → Bool
  | .objectCreate .. | .objectWrite .. | .objectRelease .. | .allocationRetry .. | .commitPublish .. | .atomic ..
  | .tileWrite .. | .tileRead .. | .tilePrefetch .. | .tileEvict .. | .catalogueWindowWrite .. | .slotWrite .. | .restore ..
  | .startStepComplete .. | .powerGood .. | .powerOff .. | .holdupFlushComplete .. | .modRstTimeout ..
  | .lifecycleEraseComplete .. | .almanacWriteComplete .. | .firmwareWrite .. | .tenantScrubComplete .. => true
  | _ => false

/-- The commands and events that may write the module-side pool memory. -/
def storesInPool : Instr → Bool
  | .rdmaWrite .. | .startStepComplete .. | .powerGood .. | .powerOff .. | .holdupFlushComplete .. | .modRstTimeout ..
  | .lifecycleEraseComplete .. | .almanacWriteComplete .. | .firmwareWrite .. | .tenantScrubComplete .. => true
  | _ => false

/-- The events that act on a module that carries out nothing: power, reset, PERST# and JTAG. -/
def actsWhileNotLive : Instr → Bool
  | .powerGood .. | .powerLoss | .powerOff | .holdupFlushComplete .. | .modRstTimeout | .modRstRise .. | .pcieReset ..
  | .perstRelease | .jtagInstruction .. => true
  | _ => false

/-- The fields of a completion (R278). -/
def completionHolds (b : BitVec 256) (v0 v1 : BitVec 64) (r : CmdRef) (q : Queue) (st : Status) (len : Option Nat) (us : Nat) :
    Prop :=
  b.extractLsb' 0 64 = v0 ∧ b.extractLsb' 64 64 = v1 ∧ b.extractLsb' 128 16 = r.cid ∧
  b.extractLsb' 144 16 = BitVec.ofNat 16 q.sqHead ∧ b.extractLsb' 160 12 = BitVec.ofNat 12 q.num ∧ b.extractLsb' 172 4 = 0 ∧
  b.extractLsb' 176 8 = st.code ∧ b.getLsbD 184 = q.phase ∧ b.getLsbD 185 = len.isSome ∧ b.extractLsb' 186 6 = 0 ∧
  b.extractLsb' 192 32 = BitVec.ofNat 32 (len.getD 0) ∧ b.extractLsb' 224 32 = BitVec.ofNat 32 (min us 0xFFFFFFFF)

/-- A record of a plate is visible to a query that captured epoch `q`, in the words of R62. -/
def visibleByRule (p : Plate) (slot q : Nat) : Prop :=
  ∃ r : Rec, p.recs[slot]? = some r ∧ (∀ sc : Sidecar, ((r.sidecarBytes sc).getD 12 0).getLsbD 0 = true) ∧
    (slot ∈ p.settled ∨ p.epochBase + r.delta ≤ q) ∧
    ¬ (slot ∈ p.tomb ∧ ((∀ e ∈ p.dlog, e.2 ≠ slot) ∨ ∃ e ∈ p.dlog, e.2 = slot ∧ p.epochBase + e.1 ≤ q))

/-- No register occupies the 4 bytes at a BAR0 address, as its low half or as its high half. -/
def unoccupied (j : Jenjor) (w : Nat) : Prop :=
  j.regAt w = none ∧ ∀ r, 4 ≤ w → j.regAt (w - 4) = some r → isWide r = false

end Sys2Proof.Machine

section
open Sys2Proof Sys2Proof.Machine Sys2Proof.Machine.Jenjor

/-- R29, R95, R302, R417, R420, R460, R461: a reading of the memory devices sets their temperatures and raises the band
that their hottest calls for, and a device above 105 °C is a whole-module fault; the band falls after 100 ms; an
island's reading sets its temperature, and of one at or below 95 °C or no transit island nothing else changes; a transit
island's clock falls by 100 MHz, no lower than its band's floor, and rises by 100 MHz; a running pair within its limit
releases both islands, and one with a gated island changes nothing; a coolant warning is held. And: an average above
1,500 W starts load shedding, which goes on until it is at or below 1,480 W; each step of it is counted, the first with
pass start deferred; below 1,400 W the first two steps are undone one at a time, and of the third the transit clocks
rise; a hot converter is held and counted; a hub island above 110 °C, or a hub or Rim island at its floor and 30 °C
above a neighbour, is a whole-module fault, which class 4 reports and which ends the pass in flight. -/
def Obligations.ClocksPowerAndWholeModuleFaults : Prop :=
  (∀ (s : State) (temps : List Nat), s.j.live = true →
    ∃ t, exec (.memoryTempRead temps) s = .next t ∧
      t.j.mem.chans = ((List.range s.j.mem.chans.length).zip s.j.mem.chans).map
        (fun x => { x.2 with temp := min 255 (temps.getD x.1 x.2.temp) }) ∧
      t.j.mem.band = max s.j.mem.band (if 95 < t.j.hottest then 2 else if 85 < t.j.hottest then 1 else 0) ∧
      (t.j.hottest ≤ 105 → t = { s with j := { s.j with sw := t.j.sw, mem := t.j.mem } }) ∧
      (105 < t.j.hottest → t.j.isl.whole = true ∧ t.j.mem.stopped = true)) ∧
  (∀ s : State, s.j.live = true → s.j.mem.band = 2 ∧ s.j.hottest ≤ 92 ∨ s.j.mem.band = 1 ∧ s.j.hottest ≤ 82 →
    ∃ t, exec .bandFallTimeout s = .next t ∧
      t = { s with j := { s.j with sw := t.j.sw, mem := { s.j.mem with band := s.j.mem.band - 1 } } }) ∧
  (∀ (s : State) (isl temp : Nat) (x : Island), s.j.live = true → isl < 29 → transit isl = false ∨ temp ≤ 95 →
    s.j.isl.islands[isl]? = some x →
    exec (.islandTempRead isl temp) s = .next { s with j := { s.j with isl := { s.j.isl with
      islands := s.j.isl.islands.set isl { x with temp := min 255 temp } } } }) ∧
  (∀ (s : State) (isl temp : Nat) (x : Island), s.j.live = true → transit isl = true → 95 < temp → temp ≤ 105 →
    s.j.isl.islands[isl]? = some x →
    ∃ t y, exec (.islandTempRead isl temp) s = .next t ∧ t.j.isl.islands[isl]? = some y ∧ y.temp = temp ∧
      t = { s with j := { s.j with sw := t.j.sw, ctrs := t.j.ctrs, isl := { s.j.isl with islands := t.j.isl.islands } } }) ∧
  (∀ (s : State) (isl floor : Nat) (x : Island), s.j.live = true → transit isl = true → s.j.isl.islands[isl]? = some x →
    95 < x.temp → floor = (if 100 < x.temp then 800 else 1200) → floor < x.clk →
    s.j.clockFits isl (max floor (x.clk - 100)) = true →
    ∃ t, exec (.clockStepDownTimer isl) s = .next t ∧
      t = { s with j := { s.j with sw := t.j.sw, isl := { s.j.isl with
        islands := s.j.isl.islands.set isl { x with clk := max floor (x.clk - 100) } } } }) ∧
  (∀ (s : State) (isl : Nat) (x : Island), s.j.live = true → isl < 29 → s.j.isl.islands[isl]? = some x →
    x.neighbourHeld = false → x.clk ≠ 0 → x.clk + 100 ≤ maxClock isl → x.ceil = maxClock isl →
    x.temp ≤ (if x.clk < 1200 then 97 else 92) → s.j.isl.shedStep < 3 → s.j.isl.converterHot = false →
    s.j.clockFits isl (x.clk + 100) = true →
    exec (.clockStepUpTimer isl) s = .next { s with j := { s.j with isl := { s.j.isl with
      islands := s.j.isl.islands.set isl { x with clk := x.clk + 100 } } } }) ∧
  (∀ (s : State) (i k : Nat) (x y : Island), s.j.live = true → neighbours i k = true → s.j.isl.islands[i]? = some x →
    s.j.isl.islands[k]? = some y → y.temp ≤ x.temp → x.temp ≤ y.temp + 27 →
    exec (.neighbourTempCheck i k) s = .next (if x.clk = 0 ∨ y.clk = 0 then s else { s with j := { s.j with isl := { s.j.isl with
      islands := (s.j.isl.islands.set i { x with neighbourHeld := false }).set k { y with neighbourHeld := false } } } })) ∧
  (∀ (s : State) (inletHot flowLow : Bool), s.j.live = true →
    ∃ t, exec (.coolantWarning inletHot flowLow) s = .next t ∧
      t = { s with j := { s.j with log := t.j.log, ctrs := t.j.ctrs,
                                   isl := { s.j.isl with inletHot := inletHot, flowLow := flowLow } } } ∧
      t.j.log.head = s.j.log.head + (if inletHot || flowLow then 1 else 0)) ∧
  (∀ (s : State) (watts avg : Nat), s.j.live = true →
    exec (.powerSample watts avg) s = .next { s with j := { s.j with isl := { s.j.isl with
      nowW := watts, avgW := avg, shedding := decide (1500 < avg) || (s.j.isl.shedding && decide (1480 < avg)) } } }) ∧
  (∀ s : State, s.j.live = true → s.j.isl.shedding = false → exec .loadShedStep s = .next s) ∧
  (∀ s : State, s.j.live = true → s.j.isl.shedding = true → s.j.isl.shedStep = 0 →
    ∃ t, exec .loadShedStep s = .next t ∧ t.mem = s.mem ∧ t.rmem = s.rmem ∧ t.j.cat = s.j.cat ∧
      t.j.isl = { s.j.isl with shedStep := 1 } ∧
      (t.j.counter 0xD0808).count = (s.j.counter 0xD0808).count + 1 ∧
      (t.j.counter 0x72008).count = (s.j.counter 0x72008).count + 1) ∧
  (∀ s : State, s.j.live = true → s.j.isl.shedding = true → 1 ≤ s.j.isl.shedStep →
    ∃ t, exec .loadShedStep s = .next t ∧ t.j.isl.shedStep = min 3 (s.j.isl.shedStep + 1) ∧
      (t.j.counter 0xD0808).count = (s.j.counter 0xD0808).count + 1 ∧
      (s.j.isl.shedStep = 1 → t.j.isl = { s.j.isl with shedStep := 2 }) ∧
      t = { s with j := { s.j with isl := t.j.isl, sw := t.j.sw, ctrs := t.j.ctrs, log := t.j.log } }) ∧
  (∀ s : State, s.j.live = true → s.j.isl.avgW < 1400 → s.j.isl.shedStep = 1 ∨ s.j.isl.shedStep = 2 →
    s.j.isl.converterHot = false →
    exec .loadRestoreStep s
      = .next { s with j := { s.j with isl := { s.j.isl with shedStep := s.j.isl.shedStep - 1 } } }) ∧
  (∀ s : State, s.j.live = true → s.j.isl.avgW < 1400 → s.j.isl.shedStep = 3 →
    ∃ t, exec .loadRestoreStep s = .next t ∧ t.j.isl.islands = s.j.raiseTransit.isl.islands ∧
      (t.j.isl.shedStep = 2 ↔ s.j.raiseTransit.raiseTransit.isl.islands = s.j.raiseTransit.isl.islands) ∧
      t = { s with j := { s.j with isl := t.j.isl, ctrs := t.j.ctrs } }) ∧
  (∀ s : State, s.j.live = true →
    ∃ t, exec .powerConverterOvertemp s = .next t ∧ t.mem = s.mem ∧ t.j.cat = s.j.cat ∧ t.j.isl.converterHot = true ∧
      (t.j.counter 0xD0808).count = (s.j.counter 0xD0808).count + 1) ∧
  (∀ (s : State) (isl : Nat) (x : Island), s.j.live = true → s.j.isl.whole = false → s.j.isl.islands[isl]? = some x →
    isl < 7 → 110 < x.temp →
    ∃ t, exec (.hubOvertempTimeout isl) s = .next t ∧ t.j.isl.whole = true ∧ t.j.coe.pass = none ∧
      t.j.log.errClass.getLsbD 2 = true ∧ t.mem = s.mem) ∧
  (∀ (s : State) (isl k : Nat) (x y : Island), s.j.live = true → s.j.isl.whole = false → s.j.isl.islands[isl]? = some x →
    s.j.isl.islands[k]? = some y → isl < 7 ∨ 25 ≤ isl → neighbours isl k = true → y.temp + 30 < x.temp →
    x.clk ≤ floorClock isl →
    ∃ t, exec (.islandFloorTimeout isl) s = .next t ∧ t.j.isl.whole = true ∧ t.j.coe.pass = none ∧
      t.j.log.errClass.getLsbD 2 = true ∧ t.mem = s.mem) ∧
  (∀ (s : State) (blk unit : Nat), s.j.live = true → s.j.isl.whole = false →
    ∃ t, exec (.wholeModuleFault blk unit) s = .next t ∧ t.j.isl.whole = true ∧ t.j.coe.pass = none ∧
      t.j.log.errClass.getLsbD 2 = true ∧ t.mem = s.mem)

/-- R38, R46, R277: COLLECTION_CREATE that passes its checks, with pool pages and a plate number free, adds the collection
that its descriptor states and its objects, opens its first plate and completes with the next sequence number, behind its
info block where one is asked for. COLLECTION_DELETE of a collection that no ring sweeps drains it, with its plates and its
unpublished writes discarded; of one that a ring sweeps it waits for that ring's next boundary. Either completes with the
next sequence number. A check that fails answers its status and changes nothing else. -/
def Obligations.CollectionCommands : Prop :=
  (∀ (s : State) (q num : Nat) (op : List Byte) (f : Fetched) (j : Jenjor), s.takesCat q 0x40 op f j →
    firstStatus (j.collectionChecks f.d op) = none → 1 + dField f.d 0x1E 1 ≤ j.poolFree →
    j.newPlateNum (dField f.d 4 2) = some num →
    ∃ (k : Jenjor) (c : Coll) (p : Plate) (os : List Obj),
      exec (.collectionCreate q op) s = .next
        { s with j := if dField f.d 0x38 8 = 0 then k.complete f.ref .success (BitVec.ofNat 64 (j.cat.seq + 1)) 0 none
                      else k.newId.2.deliverThen k.newId.1 f.ref 0 (dField f.d 0x38 8) (((k.queue? f.ref.q).map fun x => x.cqRkey).getD 0)
                      (infoBlock c (j.cat.seq + 1)) .success (BitVec.ofNat 64 (j.cat.seq + 1)) 0 (some 32) } ∧
      k.cat.colls = j.cat.colls ++ [c] ∧ c.num = dField f.d 4 2 ∧ c.format = Format.ofCode (dField f.d 0x14 1) ∧
      c.dim = dField f.d 0x16 2 ∧ c.metric = Metric.ofCode (dField f.d 0x18 1) ∧ c.deep = (dField f.d 0x19 1 == 1) ∧
      c.payloadMax = dField f.d 0x1A 2 ∧ c.accepted = [] ∧ c.dir = [] ∧ c.deleting = false ∧
      c.gridGen = (if c.format.isInteger then 1 else 0) ∧
      k.cat.objs = j.cat.objs ++ os ∧ (∀ o ∈ os, o.coll = c.num ∧ o.num ≠ 0 ∧ ∀ x ∈ j.cat.objs, x.num ≠ o.num) ∧
      os.map (fun o => o.kind) = [1, 6] ++ (if dField f.d 0x1A 2 = 0 then [] else [2])
        ++ (if dField f.d 0x1C 1 = 0 then [] else [3]) ++ (if dField f.d 0x1E 1 = 0 then [] else [5]) ∧
      k.cat.plates = j.cat.plates ++ [p] ∧ p.coll = c.num ∧ p.num = num ∧ p.recs = [] ∧ p.sealed_ = false ∧
      k.cat.seq = j.cat.seq + 1 ∧ k = { j with cat := k.cat, sw := k.sw, vlt := k.vlt }) ∧
  (∀ (s : State) (q : Nat) (op : List Byte) (f : Fetched) (j : Jenjor) (st : Status), s.takesCat q 0x40 op f j →
    firstStatus (j.collectionChecks f.d op) = some st →
    exec (.collectionCreate q op) s = .next { s with j := j.refuse f.ref st }) ∧
  (∀ (s : State) (q : Nat) (f : Fetched) (j : Jenjor) (c : Coll), s.takesCat q 0x41 [] f j →
    j.liveColl? (dField f.d 4 2) = some c → j.readOnlyNow = false →
    (∀ r, j.ringOf (dField f.d 4 2) = some r → j.ring? r.num = some r ∧ sweeping r = false) →
    ∃ k : Jenjor, exec (.collectionDelete q) s = .next { s with j := k.completeCatalogue f.ref 0 } ∧
      (∀ x ∈ k.cat.colls, x.num = dField f.d 4 2 → x.deleting = true ∧ x.draining = true) ∧
      (∀ p ∈ k.cat.plates, p.coll = dField f.d 4 2 → p.retiring = true) ∧
      (∀ e ∈ k.wr.journal, e.jr.coll = dField f.d 4 2 → e.published = true ∨ e.discarded = true) ∧
      k.cat.colls.length = j.cat.colls.length ∧ k.cat.seq = j.cat.seq ∧
      k = { j with cat := k.cat, sw := k.sw, wr := k.wr, out := k.out, ctrs := k.ctrs, log := k.log, qs := k.qs,
                   lnk := k.lnk, cpn := k.cpn }) ∧
  (∀ (s : State) (q : Nat) (f : Fetched) (j : Jenjor) (c : Coll) (r : Ring), s.takesCat q 0x41 [] f j →
    j.liveColl? (dField f.d 4 2) = some c → j.readOnlyNow = false → j.ringOf (dField f.d 4 2) = some r →
    j.ring? r.num = some r → sweeping r = true →
    exec (.collectionDelete q) s = .next
      { s with j := ((j.mapColl (dField f.d 4 2) fun c => { c with deleting := true }).mapRing r.num
                    fun r => { r with switches := r.switches ++ [.delete (dField f.d 4 2)] }).completeCatalogue f.ref 0 }) ∧
  (∀ (s : State) (q : Nat) (f : Fetched) (j : Jenjor), s.takesCat q 0x41 [] f j →
    j.liveColl? (dField f.d 4 2) = none ∨ j.readOnlyNow = true →
    exec (.collectionDelete q) s = .next
      { s with j := j.refuse f.ref (if j.liveColl? (dField f.d 4 2) = none then .addressInvalid else .readOnly) })

/-- R34, R46, R235, R277: OBJECT_CREATE that passes its checks adds an object of the stated kind and size in the lowest free
extent and writes its operand there; OBJECT_DELETE makes it drain; OBJECT_WRITE stores its bytes at the object's address,
and nowhere else; OBJECT_STATUS reports and changes nothing else; a check that fails answers its status and changes nothing
else; OBJECT_RELEASE gives a drained object's or collection's number, extents and vault addresses back and makes an
object's bytes read zero. -/
def Obligations.ObjectCommands : Prop :=
  (∀ (s : State) (q : Nat) (op : List Byte) (f : Fetched) (j : Jenjor), s.takesCat q 0x42 op f j →
    firstStatus (j.objectChecks f.d op) = none → objectPages f.d ≤ j.poolFree →
    ∃ (k : Jenjor) (o : Obj),
      exec (.objectCreate q op) s = .next { s with mem := Memory.writeBytes s.mem o.base op,
                                                   j := k.completeCatalogue f.ref (BitVec.ofNat 64 o.num) } ∧
      k = { j with cat := { j.cat with objs := j.cat.objs ++ [o] }, vlt := k.vlt } ∧ (∀ x ∈ j.cat.objs, x.num ≠ o.num) ∧
      o.num ≠ 0 ∧ o.kind = dField f.d 0x14 1 ∧ o.bytes = dField f.d 0x18 8 ∧ o.extent = roundMib2 o.bytes ∧
      j.freeBase o.extent = some o.base ∧ o.tier = (if o.kind = 4 then .vault else .sweep) ∧ o.draining = false ∧
      (o.kind ≠ 4 → k.vlt = j.vlt)) ∧
  (∀ (s : State) (q : Nat) (op : List Byte) (f : Fetched) (j : Jenjor) (st : Status), s.takesCat q 0x42 op f j →
    firstStatus (j.objectChecks f.d op) = some st →
    exec (.objectCreate q op) s = .next { s with j := j.refuse f.ref st }) ∧
  (∀ (s : State) (q : Nat) (f : Fetched) (j : Jenjor) (o : Obj), s.takesCat q 0x43 [] f j → j.liveObj? (dField f.d 8 4) = some o →
    o.kind = 4 ∨ o.kind = 8 ∨ o.kind = 9 → j.readOnlyNow = false →
    exec (.objectDelete q) s
      = .next { s with j := (j.mapObj (dField f.d 8 4) fun o => { o with draining := true }).completeCatalogue f.ref 0 }) ∧
  (∀ (s : State) (q : Nat) (f : Fetched) (j : Jenjor), s.takesCat q 0x43 [] f j →
    j.readOnlyNow = true ∨ (∀ o, j.liveObj? (dField f.d 8 4) = some o → o.kind ≠ 4 ∧ o.kind ≠ 8 ∧ o.kind ≠ 9) →
    exec (.objectDelete q) s = .next { s with j := j.refuse f.ref (if j.readOnlyNow then .readOnly else .unknownObject) }) ∧
  (∀ (s : State) (q : Nat) (op : List Byte) (f : Fetched) (j : Jenjor) (o : Obj), s.takes q 0x44 f j →
    j.liveObj? (dField f.d 0x14 4) = some o → o.kind = 4 ∨ o.kind = 9 → j.usedByModel (dField f.d 0x14 4) = false →
    op.length = dField f.d 0x10 4 → dField f.d 0x18 8 + op.length ≤ o.extent → o.tier = .vault ∨ j.keyGone = false →
    ∃ k : Jenjor, exec (.objectWrite q op) s
      = .next { s with mem := Memory.writeBytes s.mem (o.base + dField f.d 0x18 8) op,
                       j := k.complete f.ref .success 0 0 none } ∧
      (∀ a, (a < o.base + dField f.d 0x18 8 ∨ o.base + dField f.d 0x18 8 + op.length ≤ a) →
        Memory.read (Memory.writeBytes s.mem (o.base + dField f.d 0x18 8) op) a = Memory.read s.mem a) ∧
      k = { j with cat := { j.cat with objs := k.cat.objs, slews := k.cat.slews } }) ∧
  (∀ (s : State) (q : Nat) (op : List Byte) (f : Fetched) (j : Jenjor), s.takes q 0x44 f j →
    (j.liveObj? (dField f.d 0x14 4) = none →
      exec (.objectWrite q op) s = .next { s with j := j.refuse f.ref .unknownObject }) ∧
    ∀ o, j.liveObj? (dField f.d 0x14 4) = some o →
      let bad := op.length ≠ dField f.d 0x10 4 ∨ o.extent < dField f.d 0x18 8 + op.length
      (bad → exec (.objectWrite q op) s = .next { s with j := j.refuse f.ref .addressInvalid }) ∧
      (¬bad → o.kind ≠ 4 ∧ o.kind ≠ 9 ∨ j.usedByModel (dField f.d 0x14 4) = true →
        exec (.objectWrite q op) s = .next { s with j := j.refuse f.ref .parameterInvalid })) ∧
  (∀ (s : State) (q : Nat) (f : Fetched) (j : Jenjor) (o : Obj), s.takes q 0x45 f j → j.obj? (dField f.d 8 4) = some o →
    let v1 := o.heat + tierCode o.tier * 2 ^ 32 + (if j.pinned [] o then 2 ^ 36 else 0) + (if o.draining then 2 ^ 37 else 0)
      + (if j.cat.slews.any fun x => x.obj == o.num && x.started then 2 ^ 38 else 0)
    exec (.objectStatus q) s
      = .next { s with j := j.complete f.ref .success (BitVec.ofNat 64 o.lastUse) (BitVec.ofNat 64 v1) none }) ∧
  (∀ (s : State) (q : Nat) (f : Fetched) (j : Jenjor), s.takes q 0x45 f j → j.obj? (dField f.d 8 4) = none →
    exec (.objectStatus q) s = .next { s with j := j.refuse f.ref .unknownObject }) ∧
  (∀ (s : State) (n : Nat) (o : Obj), s.j.live = true → s.j.obj? n = some o → o.draining = true → o.coll = 0 →
    s.j.objBusy n = false →
    ∃ t, exec (.objectRelease (.object n)) s = .next t ∧
      t = { s with mem := if o.extent = 0 then s.mem else Memory.clear s.mem o.base o.extent,
                   j := { s.j with cat := { s.j.cat with objs := s.j.cat.objs.filter fun x => x.num != n },
                                   vlt := { s.j.vlt with extents := s.j.vlt.extents.filter fun e => !(e.what == .object n) },
                                   mem := { s.j.mem with poison := t.j.mem.poison } } }) ∧
  (∀ (s : State) (n : Nat) (c : Coll), s.j.live = true → s.j.coll? n = some c → c.draining = true → s.j.collBusy n = false →
    ∃ t, exec (.objectRelease (.collection n)) s = .next t ∧
      t = { s with mem := t.mem, j := { s.j with cat := t.j.cat, vlt := { s.j.vlt with extents := t.j.vlt.extents } } } ∧
      t.j.cat.colls = (s.j.cat.colls.filter fun x => x.num != n) ∧ t.j.cat.plates = (s.j.cat.plates.filter fun p => p.coll != n) ∧
      ∀ a, (∀ o ∈ s.j.cat.objs, o.coll = n → a < o.base ∨ o.base + o.extent ≤ a) → Memory.read t.mem a = Memory.read s.mem a)

/-- R71, R73, R88, R246, R277: RING_DEFINE gives a stopped ring its definition and list view; RING_EDIT changes the list at
once, or at the next boundary of a ring that sweeps; RING_START of a stopped ring sets it waiting for clusters under its
starter and queues the promotion of the plate sets that sweep memory lacks, of a running ring answers its period; RING_STOP
answers at once on a stopped ring, takes a waiting ring back, and brings a running ring to its stop, at once where it has
no plates and no riders. A ring that is not defined, and a check that fails, answers its status and changes nothing else. -/
def Obligations.RingCommands : Prop :=
  (∀ (s : State) (q : Nat) (op : List Byte) (f : Fetched) (j : Jenjor) (fm : Format) (dim : Nat), s.takesCat q 0x48 op f j →
    op.length % 2 = 0 → ringDefBad j (dField f.d 0x14 1) f.d ((halvesOf op).map BitVec.toNat) = none → j.readOnlyNow = false →
    j.shapeOf ((halvesOf op).map BitVec.toNat) = some (fm, dim) →
    let colls := (halvesOf op).map BitVec.toNat
    let defined := fun (r : Ring) =>
      { r with defn := some (statedRing f.d colls fm dim), view := colls.flatMap j.viewOf, marks := [] }
    ∃ k : Jenjor, exec (.ringDefine q op) s = .next { s with j := k.completeCatalogue f.ref 0 } ∧
      k = { j.mapRing (dField f.d 0x14 1) defined with log := k.log, ctrs := k.ctrs }) ∧
  (∀ (s : State) (q : Nat) (op : List Byte) (f : Fetched) (j : Jenjor) (st : Status), s.takesCat q 0x48 op f j →
    (if op.length % 2 = 1 then some .ringInvalid else ringDefBad j (dField f.d 0x14 1) f.d ((halvesOf op).map BitVec.toNat))
      = some st →
    exec (.ringDefine q op) s = .next { s with j := j.refuse f.ref st }) ∧
  (∀ (s : State) (q : Nat) (op : List Byte) (f : Fetched) (j : Jenjor) (r : Ring) (d : RingDef), s.takesCat q 0x49 op f j →
    j.ring? (dField f.d 0x14 1) = some r → r.defn = some d → op.length % 8 = 0 → 8 ≤ op.length → op.length ≤ 2048 →
    let es := (editEntries op).map fun e => (e.2.1 == 0, e.2.2.2, e.1)
    let check := firstStatus ((j.readOnlyNow, .readOnly) :: editCheck j (dField f.d 0x14 1) d (editEntries op) (pendingColls r))
    (check = none → sweeping r = true → exec (.ringEdit q op) s = .next
      { s with j := (j.mapRing (dField f.d 0x14 1) fun r => { r with switches := r.switches ++ [.edit es] }).completeCatalogue f.ref 0 }) ∧
    (check = none → sweeping r = false → exec (.ringEdit q op) s = .next
      { s with j := ((es.foldl (fun k e => k.mapRing (dField f.d 0x14 1) fun r => k.applyEntry r e) j).republish
                    (dField f.d 0x14 1)).completeCatalogue f.ref 0 }) ∧
    (∀ st, check = some st → exec (.ringEdit q op) s = .next { s with j := j.refuse f.ref st })) ∧
  (∀ (s : State) (q : Nat) (f : Fetched) (j : Jenjor) (r : Ring) (d : RingDef), s.takesTurn q 0x4A f j →
    j.ring? (dField f.d 0x14 1) = some r → r.defn = some d → r.phase = .stopped → j.keyGone = false →
    (r.view.any fun p => (j.plate? p).any fun p => p.lost) = false →
    let waits := fun (r : Ring) => { r with phase := .waiting, starter := some f.ref }
    let away := (d.colls.filterMap j.coll?).filter fun c =>
      !d.deep && (j.plateSetTier c != .sweep || j.leavesSweep c.objPlates)
    ∃ (k : Jenjor) (xs : List Slew), exec (.ringStart q) s = .next { s with j := k.reassign } ∧
      k = { j.mapRing (dField f.d 0x14 1) waits with cat := { j.cat with slews := j.cat.slews ++ xs, nextId := k.cat.nextId } } ∧
      xs.map (fun x => x.obj) = away.map (fun c => c.objPlates) ∧ ∀ x ∈ xs, x.dest = .sweep ∧ x.started = false) ∧
  (∀ (s : State) (q : Nat) (f : Fetched) (j : Jenjor) (r : Ring) (d : RingDef), s.takesTurn q 0x4A f j →
    j.ring? (dField f.d 0x14 1) = some r → r.defn = some d →
    (r.phase = .running →
      exec (.ringStart q) s = .next { s with j := j.complete f.ref .success 0 (BitVec.ofNat 64 r.period) none }) ∧
    (r.phase = .waiting ∨ r.phase = .stopping → exec (.ringStart q) s = .next { s with j := j.refuse f.ref .ringBusy }) ∧
    (r.phase = .stopped → j.keyGone = true → exec (.ringStart q) s = .next { s with j := j.refuse f.ref .keyWithdrawn }) ∧
    (r.phase = .stopped → j.keyGone = false → (r.view.any fun p => (j.plate? p).any fun p => p.lost) = true →
      exec (.ringStart q) s = .next { s with j := j.refuse f.ref .plateLost })) ∧
  (∀ (s : State) (q : Nat) (f : Fetched) (j : Jenjor) (r : Ring) (d : RingDef), s.takesTurn q 0x4B f j →
    j.ring? (dField f.d 0x14 1) = some r → r.defn = some d →
    (r.phase = .stopped → exec (.ringStop q) s = .next { s with j := j.complete f.ref .success 0 0 none }) ∧
    (r.phase = .waiting →
      let stops := fun (r : Ring) => { r with phase := .stopped, starter := none }
      let k := (r.starter.toList.foldl (fun j c => j.refuse c .ringStopped) j).mapRing (dField f.d 0x14 1) stops
      exec (.ringStop q) s = .next
        { s with j := (k.abortAll (k.waitersOf (dField f.d 0x14 1)) .ringStopped).complete f.ref .success 0 0 none }) ∧
    (r.phase = .stopping → exec (.ringStop q) s = .next
      { s with j := j.mapRing (dField f.d 0x14 1) fun r => { r with stoppers := r.stoppers ++ [f.ref] } }) ∧
    (r.phase = .running →
      let stops := fun (r : Ring) => { r with phase := .stopping, stoppers := r.stoppers ++ [f.ref] }
      let k := (j.mapRing (dField f.d 0x14 1) stops).abortAll (j.waitersOf (dField f.d 0x14 1)) .ringStopped
      exec (.ringStop q) s = .next
        { s with j := if r.view.isEmpty && (k.ridersOf (dField f.d 0x14 1)).isEmpty then (k.stopRing (dField f.d 0x14 1)).reassign
                      else k })) ∧
  (∀ (s : State) (q : Nat) (f : Fetched) (j : Jenjor), (∀ r, j.ring? (dField f.d 0x14 1) = some r → r.defn = none) →
    (s.takesTurn q 0x4A f j → exec (.ringStart q) s = .next { s with j := j.refuse f.ref .ringInvalid }) ∧
    (s.takesTurn q 0x4B f j → exec (.ringStop q) s = .next { s with j := j.refuse f.ref .ringInvalid }) ∧
    ∀ op, s.takesCat q 0x49 op f j → exec (.ringEdit q op) s = .next { s with j := j.refuse f.ref .ringInvalid })

/-- R81, R105, R270, R271, R359: QUERY_VECTOR that passes its checks enters a context of its own with its converted operands
and waits for a row of its running ring, or loads at once, and goes to the companion where results are cross-checked; a
vector that conversion refuses completes it with no context and is counted; a check that fails answers its status, a wrong
length counted as well; ROW_LOAD_COMPLETE ends the load of that context alone. -/
def Obligations.VectorQueries : Prop :=
  (∀ (s : State) (q : Nat) (op : List Byte) (f : Fetched) (j : Jenjor) (st : Status), s.takesData q 0x10 f j →
    firstStatus (queryChecks j f.d op) = some st →
    exec (.queryVector q op) s = .next
      { s with j := (if st = .vectorInvalid && !qTokens f.d && wrongLength j f.d op then j.count blkTRN 0x2010 else j).refuse f.ref st }) ∧
  (∀ (s : State) (q : Nat) (op : List Byte) (f : Fetched) (j : Jenjor) (c : Coll), s.takesData q 0x10 f j →
    firstStatus (queryChecks j f.d op) = none → j.liveColl? (dField f.d 4 2) = some c → j.coll? (dField f.d 4 2) = some c →
    (∀ y ∈ j.sw.ctxs, y.id ≠ j.sw.arrivals) →
    let p := partsOf c f.d
    let bad := (vectorsAt op p.tok (dField f.d 0x3A 1) c.dim).any (rerankVecBad (c.metric == .cosine))
      || rerankVecBad (c.metric == .cosine) (wordsOf (bytesAt op p.rr p.rrLen)) && !(wordsOf (bytesAt op p.rr p.rrLen)).isEmpty
    let conv := if c.format = .b1 then some operandB1 else convert c (widen (dField f.d 0x3B 1) (bytesAt op p.vec p.vecLen))
    (∀ o, bad = false → conv = some o →
      ∃ (t : State) (x : Ctx), exec (.queryVector q op) s = .next t ∧ t.j.ctx? j.sw.arrivals = some x ∧ x.ref = f.ref ∧ x.d = f.d ∧
        x.coll = c.num ∧ (x.phase = .waiting ∨ x.phase = .loading) ∧ x.words = o.words ∧ x.floats = o.floats ∧
        x.gridGen = c.gridGen ∧ x.pinned = j.pairedIn 3 ∧ t.j.sw.arrivals = j.sw.arrivals + 1 ∧
        (j.pairedIn 3 = false → t.j.cpn = j.cpn ∧ t.j.out = j.out) ∧
        t = { s with j := { j with sw := t.j.sw, ctrs := t.j.ctrs, cpn := t.j.cpn, out := t.j.out } }) ∧
    (bad = true ∨ conv = none →
      ∃ t, exec (.queryVector q op) s = .next t ∧ t.j.sw.ctxs = j.sw.ctxs ∧ t.mem = s.mem ∧ t.rmem = s.rmem ∧
        (t.j.counter (blkBase blkTRN + 0x2010)).count = (j.counter (blkBase blkTRN + 0x2010)).count + 1)) ∧
  (∀ (s : State) (id : Nat) (x : Ctx), s.j.live = true → s.j.ctx? id = some x → x.phase = .loading ∨ x.phase = .reloading →
    ∃ t, exec (.rowLoadComplete id) s = .next t ∧ t.j.ctx? id = some { x with phase := .loaded } ∧
      (∀ k, k ≠ id → t.j.ctx? k = s.j.ctx? k) ∧
      t = { s with j := { s.j with sw := { s.j.sw with ctxs := t.j.sw.ctxs } } })

/-- R71, R85, R86, R92, R297, R298: a ring with entries to deal inside its window deals its next plate group to the group
least loaded, or as an alternate to the group that asks for it and may take it; a fill whose headers and data check has its
plate group ready; a re-read that validates takes the plate back in, counted where it is in sweep memory, and one that does
not loses the plate. -/
def Obligations.PlateGroupsDealtAndFilled : Prop :=
  (∀ (s : State) (n c g : Nat) (alt : Option (Nat × Nat)) (r : Ring) (d : RingDef), s.j.live = true → n < 64 →
    s.j.ring? n = some r → r.defn = some d → r.passList ≠ [] → holdsClusters r = true → s.j.isl.whole = false →
    takeGroup s.j r ≠ [] → inWindow s.j r d = true →
    (match alt with
      | none => leastLoaded (dealTargets s.j r d) = some (c, g)
      | some a => a = (c, g) ∧ mayServe s.j c g n = true) →
    let pids := takeGroup s.j r
    let pg : PlateGroup :=
      { ring := n, pos := r.passPos, pids := pids, skip := pids.filter fun p => (s.j.plate? p).any fun x => x.lost, snap := [],
        ready := false, recheck := [] }
    let dealt := fun (r : Ring) => { r with passPos := r.passPos + pids.length }
    exec (.plateGroupDeal n alt) s
      = .next { s with j := (s.j.mapGroup c g (enqueue alt.isSome pg)).mapRing n dealt }) ∧
  (∀ (s : State) (n : Nat) (r : Ring) (d : RingDef), s.j.live = true → n < 64 → s.j.ring? n = some r → r.defn = some d →
    r.passList ≠ [] → takeGroup s.j r = [] → exec (.plateGroupDeal n none) s = .next s) ∧
  (∀ (s : State) (c g : Nat) (checks : List FillCheck) (pg : PlateGroup), s.j.live = true → c < 18 →
    ((s.j.group? c g).bind fun x => x.fill) = some pg → pg.ready = false → pg.recheck = [] →
    (∀ k ∈ checks, k.hdrOk = true ∧ k.dataOk = true ∧ k.corrected = [] ∧ k.uncorr = []) →
    let ready := fun (x : Group) => { x with fill := x.fill.map fun pg => { pg with ready := pg.recheck.isEmpty } }
    exec (.plateFillComplete c g checks) s = .next { s with j := s.j.mapGroup c g ready }) ∧
  (∀ (s : State) (c g pid : Nat) (pg : PlateGroup), s.j.live = true → c < 18 →
    ((s.j.group? c g).bind fun x => x.fill) = some pg → pid ∈ pg.recheck →
    let back := fun (ok : Bool) (x : Group) => { x with fill := x.fill.map fun pg =>
      { pg with recheck := pg.recheck.erase pid, ready := (pg.recheck.erase pid).isEmpty,
                skip := if ok then pg.skip else pid :: pg.skip } }
    ((s.j.plate? pid).any s.j.inSweepMemory = true →
      ∃ t, exec (.plateRecheckComplete c g pid true ⟨[], []⟩) s = .next t ∧
        t.j.sw = (s.j.mapGroup c g (back true)).sw ∧
        (t.j.counter 0x80010).count = (s.j.counter 0x80010).count + 1 ∧ t.j.log.head = s.j.log.head + 1 ∧
        t = { s with j := { s.j with sw := t.j.sw, ctrs := t.j.ctrs, log := t.j.log } }) ∧
    ((s.j.plate? pid).any s.j.inSweepMemory = false →
      exec (.plateRecheckComplete c g pid true ⟨[], []⟩) s = .next { s with j := s.j.mapGroup c g (back true) }) ∧
    exec (.plateRecheckComplete c g pid false ⟨[], []⟩) s
      = .next { s with j := (s.j.mapGroup c g (back false)).plateLoss pid })

/-- R61, R89, R101: FLIP puts the ready plate group of a drained group into its compute half; one whose next plate group
belongs to the next pass is held at the barrier; the end of a batch puts it in a free bank and counts its accumulating
cycles, while with both banks undrained it waits; with every pair of its records gated its bank drains and
admits nothing. -/
def Obligations.GroupsFlipAndDrain : Prop :=
  (∀ (s : State) (c g : Nat) (y : Cluster) (x : Group) (pg : PlateGroup), s.j.live = true → c < 18 →
    s.j.cluster? c = some y → y.retiring = false → y.home ≠ none → s.j.group? c g = some x →
    x.fill = some pg → x.drained = true → pg.ready = true → inPass s.j pg = true →
    ∃ (t : State) (pg' : PlateGroup), exec (.flip c g) s = .next t ∧ ((t.j.group? c g).bind fun x => x.compute) = some pg' ∧
      pg'.ring = pg.ring ∧ pg'.pos = pg.pos ∧ pg'.pids = pg.pids ∧ ((t.j.group? c g).bind fun x => x.fill) = x.queue.head? ∧
      t.j.cat.plates = s.j.cat.plates ∧ t.mem = s.mem ∧ t.rmem = s.rmem) ∧
  (∀ (s : State) (c g : Nat) (x : Group) (pg : PlateGroup), s.j.live = true → c < 18 → s.j.group? c g = some x →
    x.fill = some pg → x.drained = true → pg.ready = true → inPass s.j pg = false →
    let held := fun (x : Group) => { x with held := true }
    exec (.flip c g) s = .next { s with j := s.j.mapGroup c g held }) ∧
  (∀ (s : State) (c g : Nat) (y : Cluster) (x : Group) (pg : PlateGroup) (r : Ring) (d : RingDef), s.j.live = true → c < 18 →
    s.j.cluster? c = some y → y.retiring = false → y.home ≠ none → y.groups[g]? = some x → x.compute = some pg →
    x.drained = false → s.j.ring? pg.ring = some r → r.defn = some d →
    let begins := decide (x.banks.length < 2) && decide (x.batch < pg.batches)
    (∃ (t : State) (x' : Group), exec (.batchAccumulateEnd c g) s = .next t ∧ t.j.group? c g = some x' ∧
      x'.compute = some pg ∧ x'.batch = x.batch + (if begins then 1 else 0) ∧
      (t.j.counter (blkBase blkTRN + c * 0x100 + 8)).count = (s.j.counter (blkBase blkTRN + c * 0x100 + 8)).count
        + (if begins then BitVec.ofNat 48 (accCycles d.format d.dim * (8 / groupsPerCluster d.format)) else 0) ∧
      t = { s with j := { s.j with sw := { s.j.sw with ctxs := t.j.sw.ctxs, clusters := t.j.sw.clusters }, ctrs := t.j.ctrs } }) ∧
    ((∀ p ∈ pg.snap, recordPairs s.j x p = []) → x.banks = [] → x.batch < pg.batches → y.admq.length ≤ 16384 →
      ∃ t, exec (.batchAccumulateEnd c g) s = .next t ∧ t.j.group? c g = some { x with batch := x.batch + 1 } ∧
        (t.j.cluster? c).map (fun z => z.admq) = some y.admq))

/-- R73, R89, R96, R423, R424: a ring that is not at its boundary passes none; a ring at its boundary whose switches are none
begins its next pass and is counted; a stopping ring stops at its boundary once no rider is left, and one whose list is
empty as soon as no rider is left; a ring whose capacity falls short stretches; a lost plate is quarantined and the riders
of its rings are aborted, its restore brings it back, and a plate whose master is lost is lost. -/
def Obligations.BoundariesAndPlateLoss : Prop :=
  (∀ (s : State) (n : Nat) (r : Ring), s.j.live = true → n < 64 → s.j.ring? n = some r →
    (holdsClusters r = false ∨ r.passList = [] ∨ passFinished s.j r = false) → stopSettles s.j r = false →
    exec (.ringBoundary n) s = .next s) ∧
  (∀ (s : State) (n : Nat) (r : Ring), s.j.live = true → n < 64 → s.j.ring? n = some r → r.phase = .stopping →
    s.j.ridersOf n = [] → r.view = [] ∨ r.passList ≠ [] ∧ passFinished s.j r = true →
    (∀ x ∈ s.j.alm.reloads, x.persisted = false) → (∀ x ∈ s.j.sw.rings, x.switches = []) →
    ∃ t, exec (.ringBoundary n) s = .next t ∧ ((t.j.ring? n).map fun r => r.phase) = some .stopped ∧
      t.mem = s.mem ∧ t.rmem = s.rmem ∧ t.j.cat.plates = s.j.cat.plates) ∧
  (∀ (s : State) (n : Nat) (r : Ring), s.j.live = true → n < 64 → s.j.ring? n = some r → r.phase = .running →
    r.passList ≠ [] → passFinished s.j r = true → (∀ x ∈ s.j.alm.reloads, x.persisted = false) →
    (∀ x ∈ s.j.sw.rings, x.switches = [] ∧ x.starter = none) → s.j.sw.ctxs = [] →
    ∃ t, exec (.ringBoundary n) s = .next t ∧
      (t.j.counter (0x21020 + n * 0x40)).count = (s.j.counter (0x21020 + n * 0x40)).count + 1 ∧ t.mem = s.mem ∧
      t.rmem = s.rmem ∧ t.j.cat.plates = s.j.cat.plates) ∧
  (∀ (s : State) (n : Nat) (r : Ring) (d : RingDef), s.j.live = true → n < 64 → s.j.ring? n = some r → r.defn = some d →
    holdsClusters r = true → r.view ≠ [] → s.j.covers r d = false → r.stretched = false →
    ∃ t, exec (.ringStretch n) s = .next t ∧
      t.j.ring? n = some { r with stretched := true, covered := false, derated := (s.j.capacity r d).time (ringBytes r) } ∧
      t = { s with j := { s.j with sw := { s.j.sw with rings := t.j.sw.rings, ctxs := t.j.sw.ctxs } } }) ∧
  (∀ (s : State) (pid : Nat) (p : Plate), s.j.live = true → s.j.plate? pid = some p →
    ∃ t, exec (.stepPlateLoss pid) s = .next t ∧ t.j.plate? pid = some { p with quarantined := true } ∧
      t.j.log.errClass.getLsbD 0 = true ∧ (∀ k, k ≠ pid → t.j.plate? k = s.j.plate? k) ∧
      (∀ c ∈ s.j.sw.ctxs, c.phase = .riding → (ringsHolding s.j pid).contains c.ring || c.view.contains pid →
        t.j.ctx? c.id = none) ∧
      t = { s with j := { s.j with out := t.j.out, ctrs := t.j.ctrs, log := t.j.log, qs := t.j.qs, lnk := t.j.lnk, cpn := t.j.cpn,
                                   sw := t.j.sw, spg := t.j.spg, cat := { s.j.cat with plates := t.j.cat.plates } } }) ∧
  (∀ (s : State) (pid : Nat) (p : Plate), s.j.live = true → s.j.plate? pid = some p → p.quarantined = true →
    let back := fun (p : Plate) => { p with quarantined := false, present := true }
    let k := s.j.mapPlate pid back
    exec (.plateRestoreComplete pid true) s
      = .next { s with j := { k with mem := { s.j.mem with poison := s.j.mem.poison.filter fun x => x.2 != .plate pid } } }) ∧
  (∀ (s : State) (pid : Nat) (p : Plate), s.j.live = true → s.j.plate? pid = some p → s.j.cpn.pair.pairState ≠ .paired →
    ringsHolding s.j pid = [] →
    ∃ t, exec (.plateMasterLost pid) s = .next t ∧ t.j.plate? pid = some { p with lost := true, quarantined := false } ∧
      t.j.log.errClass.getLsbD 0 = true ∧
      t = { s with j := { s.j with out := t.j.out, ctrs := t.j.ctrs, log := t.j.log, qs := t.j.qs,
                                   cat := { s.j.cat with plates := t.j.cat.plates } } })

/-- R133, R134, R137: an admission entry whose rider's list has room joins it in total order, and one that does not rank
before the rider's boundary is dropped and counted; the end of an overflow
selection keeps the first s and moves the boundary to the last kept; a boundary installs in one cluster's lanes; the merge
starts once nothing of the rider is queued, and ends with the tree's list. -/
def Obligations.SelectionAndMerge : Prop :=
  (∀ (s : State) (c : Nat) (y : Cluster) (e : Nat × Entry) (x : Ctx) (cl : Coll), s.j.live = true → c < 18 →
    s.j.cluster? c = some y → y.specq.length < 1024 →
    (y.admq.find? fun e => (s.j.ctx? e.1).all fun x => !x.selecting) = some e → s.j.ctx? e.1 = some x →
    s.j.coll? x.coll = some cl → x.boundary = none → x.list.length + 1 < 4096 → x.list.length + 1 ≠ selectDepth x.d →
    let taken := fun (y : Cluster) => { y with admq := y.admq.erase e }
    let joined := fun (x : Ctx) => { x with list := insertEntry (fpKeys cl) e.2 x.list }
    exec (.admissionArrival c) s = .next { s with j := (s.j.mapCluster c taken).mapCtx x.id joined }) ∧
  (∀ (s : State) (c : Nat) (y : Cluster) (e : Nat × Entry) (x : Ctx) (cl : Coll) (b : KeyWord × BitVec 64), s.j.live = true →
    c < 18 → s.j.cluster? c = some y → y.specq.length < 1024 →
    (y.admq.find? fun e => (s.j.ctx? e.1).all fun x => !x.selecting) = some e → s.j.ctx? e.1 = some x →
    s.j.coll? x.coll = some cl → x.boundary = some b → ranksBefore (fpKeys cl) e.2.rank b = false →
    let taken := fun (y : Cluster) => { y with admq := y.admq.erase e }
    exec (.admissionArrival c) s = .next { s with j := (s.j.mapCluster c taken).count blkCMP 0x2018 }) ∧
  (∀ (s : State) (id : Nat) (x : Ctx), s.j.live = true → s.j.ctx? id = some x → x.selecting = true →
    ∃ (t : State) (x' : Ctx), exec (.overflowSelectionComplete id) s = .next t ∧ t.j.ctx? id = some x' ∧
      x'.list = x.list.take (selectDepth x.d) ∧ x'.selecting = false ∧ x'.boundary = x'.list.getLast?.map Entry.rank ∧
      t = { s with j := { s.j with ctrs := t.j.ctrs, sw := { s.j.sw with ctxs := t.j.sw.ctxs, clusters := t.j.sw.clusters } } }) ∧
  (∀ (s : State) (id c : Nat) (x : Ctx) (b : KeyWord × BitVec 64), s.j.live = true → c < 18 → s.j.ctx? id = some x →
    x.boundary = some b →
    ∃ t, exec (.boundaryInstall id c) s = .next t ∧
      t.j.ctx? id = some { x with lanes := (c, b) :: x.lanes.filter fun l => l.1 != c } ∧
      (∀ k, k ≠ id → t.j.ctx? k = s.j.ctx? k) ∧
      t = { s with j := { s.j with sw := { s.j.sw with ctxs := t.j.sw.ctxs } } }) ∧
  (∀ (s : State) (id : Nat) (x : Ctx), s.j.live = true → s.j.ctx? id = some x → x.phase = .alighting → x.selecting = false →
    (∀ c ∈ s.j.sw.clusters, ∀ e ∈ c.admq, e.1 ≠ id) →
    let merging := fun (x : Ctx) => { x with phase := .merging }
    exec (.mergeStart id) s = .next { s with j := s.j.mapCtx id merging }) ∧
  (∀ (s : State) (id : Nat) (x : Ctx) (c : Coll), s.j.live = true → s.j.ctx? id = some x → x.phase = .merging →
    s.j.coll? x.coll = some c → qRerank x.d = 0 → qPayloads x.d = false ∨ payloadInVault s.j c = false →
    let out := mergeTree (fpKeys c) (selectDepth x.d) x.list
    ∃ t, exec (.mergeComplete id) s = .next t ∧
      (t.j.ctx? id).map (fun x => (x.coarse, x.final, x.phase)) = some (out, out, .delivering) ∧
      t = { s with j := { s.j with sw := { s.j.sw with ctxs := t.j.sw.ctxs } } }) ∧
  (∀ (s : State) (id : Nat) (x : Ctx) (c : Coll), s.j.live = true → s.j.ctx? id = some x → x.phase = .merging →
    s.j.coll? x.coll = some c → qRerank x.d ≠ 0 ∨ qPayloads x.d = true ∧ payloadInVault s.j c = true → s.j.degraded = false →
    ∃ t, exec (.mergeComplete id) s = .next t ∧
      (t.j.ctx? id).map (fun x => (x.coarse, x.phase)) = some (mergeTree (fpKeys c) (selectDepth x.d) x.list, .rerankWait) ∧
      t = { s with j := { s.j with sw := { s.j.sw with ctxs := t.j.sw.ctxs } } })

/-- R142, R147, R148, R149, R154, R155, R156: a speculative request reads the pages that no line holds and no read fetches,
unless the vault is degraded; a free core takes the next query; a page read fills a line, or fails, is counted and sends
the queries that need it on the coarse path; a rerank that has keyed every entry ends with the first k and goes on to its
vault payloads, or frees its core and goes to delivery; a rerank deadline takes the coarse path. -/
def Obligations.RerankAndRecordCache : Prop :=
  (∀ (s : State) (c : Nat) (y : Cluster) (r : Nat × Bool × Entry) (rest : List (Nat × Bool × Entry)) (x : Ctx) (cl : Coll),
    s.j.live = true → c < 18 → s.j.cluster? c = some y → y.specq = r :: rest → s.j.ctx? r.1 = some x →
    s.j.coll? x.coll = some cl → s.j.hasLine = true →
    let pages := if r.2.1 then payloadPages s.j cl r.2.2 else recordPages s.j cl r.2.2
    let new := pages.filter fun p => (s.j.line? p).isNone && !s.j.reading p
    let issued := if s.j.degraded then [] else new
    s.j.spg.reads.length + new.length ≤ 65536 →
    ∃ t, exec (.specRequestIssue c) s = .next t ∧
      t.j.spg = { s.j.spg with
        reads := s.j.spg.reads ++ issued.map fun p => { page := p, demand := false, waiters := [] }
        lines := t.j.spg.lines, cachePages := t.j.spg.cachePages } ∧
      t.j.spg.lines.map (fun l => l.page) = s.j.spg.lines.map (fun l => l.page) ∧
      t.j.out = (issued.map Output.vaultRead).reverse ++ s.j.out ∧
      ((∀ y ∈ s.j.sw.ctxs, y.specTodo = []) → (t.j.cluster? c).map (fun z => z.specq) = some rest) ∧
      t = { s with j := { s.j with sw := { s.j.sw with clusters := t.j.sw.clusters, ctxs := t.j.sw.ctxs }, spg := t.j.spg,
                                   out := t.j.out, ctrs := t.j.ctrs } }) ∧
  (∀ (s : State) (core : Nat) (x : Ctx), s.j.live = true → core < 4 → s.j.spg.cores.length = 4 →
    s.j.spg.cores.getD core none = none → core < s.j.coresStarting → s.j.isl.whole = false → s.j.nextRerank = some x →
    s.j.ctx? x.id = some x → s.j.degraded = false →
    ∃ t, exec (.rerankStart core) s = .next t ∧ t.j.qs = s.j.qs ∧ t.mem = s.mem ∧ t.rmem = s.rmem ∧
      (qRerank x.d ≠ 0 → t.j.spg.cores = s.j.spg.cores.set core (some x.id) ∧
        (t.j.ctx? x.id).map (fun y => y.phase) = some (.reranking core) ∧ t.j.cat = s.j.cat) ∧
      (qRerank x.d = 0 → ∃ y, t.j.ctx? x.id = some y ∧ (y.phase = .payloadFetch ∨ y.phase = .delivering))) ∧
  (∀ (s : State) (page : Nat) (r : PageRead), s.j.live = true → (s.j.spg.reads.find? fun r => r.page == page) = some r →
    s.j.hasLine = true →
    ∃ t, exec (.recordPageReadComplete page true) s = .next t ∧
      (∃ l ∈ t.j.spg.lines, l.page = page ∧ l.lastUse = s.j.time) ∧
      t = { s with j := { s.j with spg := t.j.spg, sw := { s.j.sw with ctxs := t.j.sw.ctxs }, ctrs := t.j.ctrs, out := t.j.out,
                                   cat := { s.j.cat with objs := t.j.cat.objs } } }) ∧
  (∀ (s : State) (page : Nat) (r : PageRead), s.j.live = true → (s.j.spg.reads.find? fun r => r.page == page) = some r →
    ∃ t, exec (.recordPageReadComplete page false) s = .next t ∧
      t.j.spg.reads.map (fun x => x.page) = (s.j.spg.reads.erase r).map (fun x => x.page) ∧
      (t.j.counter 0x60148).count = (s.j.counter 0x60148).count + 1 ∧ t.j.log.errClass.getLsbD 0 = true ∧
      (∀ w ∈ r.waiters, ∀ x, t.j.ctx? w = some x → x.phase = .delivering ∧ x.tookCoarse = true) ∧
      t.mem = s.mem ∧ t.j.cat = s.j.cat) ∧
  (∀ (s : State) (core id : Nat) (x : Ctx), s.j.live = true → core < 4 → s.j.spg.cores.getD core none = some id →
    s.j.ctx? id = some x → x.phase = .reranking core → x.coarse.length ≤ x.rpos →
    (x.vaultPay = false → ∃ t, exec (.rerankComplete core) s = .next t ∧
      (t.j.ctx? id).map (fun x => (x.final, x.reranked, x.phase)) = some (firstOf true (qK x.d) x.scored, true, .delivering) ∧
      t.j.spg.cores.getD core none = none ∧ (t.j.counter 0x60100).count = (s.j.counter 0x60100).count + 1 ∧
      t = { s with j := { s.j with sw := { s.j.sw with ctxs := t.j.sw.ctxs }, spg := t.j.spg, ctrs := t.j.ctrs } }) ∧
    (x.vaultPay = true → ∃ t y, exec (.rerankComplete core) s = .next t ∧ t.j.ctx? id = some y ∧
      y.final = firstOf true (qK x.d) x.scored ∧ y.reranked = true ∧ (y.phase = .payloadFetch ∨ y.phase = .delivering))) ∧
  (∀ (s : State) (id : Nat) (x : Ctx), s.j.live = true → s.j.ctx? id = some x →
    x.phase = .rerankWait ∨ x.phase = .payloadFetch ∨ (∃ k, x.phase = .reranking k) →
    ∃ t, exec (.rerankDeadline id) s = .next t ∧
      (t.j.ctx? id).map (fun x => (x.tookCoarse, x.phase)) = some (true, .delivering) ∧ (∀ o ∈ t.j.spg.cores, o ≠ some id) ∧
      t = { s with j := { s.j with sw := { s.j.sw with ctxs := t.j.sw.ctxs }, spg := t.j.spg } })

/-- R20, R280, R284 to R288: a result of a PCIe queue is written to its address and the completion follows at once when
every byte goes to the function of the completion queue, otherwise behind a flush read of the last byte that does not; a
RoCEv2 queue's goes by RDMA WRITE before its completion; one with a delivery queue goes over that queue's connection, and
its completion waits for the acknowledgement where it goes elsewhere; a flush read ends the wait with success or
DELIVERY_FAILED; the coalescing timer sends the message; a query past its lifetime is expired and counted, with DEV_TIME no
earlier than the limit. -/
def Obligations.ResultsDelivered : Prop :=
  (∀ (s : State) (id : Nat) (x : Ctx) (c : Coll) (q : Queue), s.j.live = true → s.j.ctx? id = some x → s.j.coll? x.coll = some c →
    x.phase = .delivering → x.xtag = none →
    qPayloads x.d = false ∨ x.tookCoarse = true ∨ x.vaultPay = true ∨ x.payloads ≠ [] → s.j.queue? x.ref.q = some q →
    let out := leaves s.j c x
    let addr := dField x.d 0x18 8
    let rkey := BitVec.ofNat 32 (dField x.d 0x20 4)
    let v0 := BitVec.ofNat 64 (if s.j.readOnlyNow then s.j.wr.epoch else x.epoch)
    let v1 := BitVec.ofNat 64 (if c.bias.isSome then x.frame else 0)
    let w : Waiting := { id := x.id, ref := x.ref, status := out.2, v0 := v0, v1 := v1, len := some out.1.length, flush := false,
                         qpn := 0, psn := 0 }
    (qDelivery x.d = 0 → q.roce = false → x.ref.gen = s.j.lnk.resets →
      let j := (countLeaving s.j x).emit (.pcieWrite addr out.1)
      let k := match foreignByte q addr out.1.length with
        | none => (j.dropCtx id).complete x.ref out.2 v0 v1 (some out.1.length)
        | some a => (j.emit (.flushRead a)).holdCompletion { w with flush := true }
      exec (.resultDelivery id) s = .next { s with j := k }) ∧
    (qDelivery x.d = 0 → q.roce = true → s.j.qpAlive q.qpn = true →
      let j := (countLeaving s.j x).sendRdma q.qpn addr rkey out.1
      exec (.resultDelivery id) s = .next { s with j := (j.dropCtx id).complete x.ref out.2 v0 v1 (some out.1.length) }) ∧
    ∀ d : Queue, qDelivery x.d ≠ 0 → s.j.queue? (qDelivery x.d) = some d → d.kind = 4 → s.j.qpAlive d.qpn = true →
      let j := (countLeaving s.j x).sendRdma d.qpn addr rkey out.1
      let k := if q.roce && q.qpn == d.qpn then (j.dropCtx id).complete x.ref out.2 v0 v1 (some out.1.length)
        else j.holdCompletion { w with qpn := d.qpn, psn := j.lastPsn d.qpn }
      exec (.resultDelivery id) s = .next { s with j := k }) ∧
  (∀ (s : State) (id : Nat) (w : Waiting), s.j.live = true → (s.j.qs.waits.find? fun w => w.id == id && w.flush) = some w →
    let j : Jenjor := { s.j with qs := { s.j.qs with waits := s.j.qs.waits.erase w } }
    exec (.flushReadComplete id) s = .next { s with j := (j.dropCtx w.id).complete w.ref w.status w.v0 w.v1 w.len }) ∧
  (∀ (s : State) (id : Nat) (w : Waiting), s.j.live = true → (s.j.qs.waits.find? fun w => w.id == id && w.flush) = some w →
    ∃ k : Jenjor, exec (.flushReadFailed id) s
        = .next { s with j := (k.dropCtx w.id).complete w.ref .deliveryFailed 0 0 none } ∧
      k.qs = { s.j.qs with waits := s.j.qs.waits.erase w } ∧ (k.counter 0xA0010).count = (s.j.counter 0xA0010).count + 1 ∧
      k.out = .aer 0 :: s.j.out ∧ k = { s.j with qs := k.qs, ctrs := k.ctrs, log := k.log, out := k.out }) ∧
  (∀ (s : State) (q : Nat) (x : Queue), s.j.live = true → s.j.queue? q = some x → x.irqCount ≠ 0 → x.vector < s.j.lnk.vectors →
    let cleared := fun (x : Queue) => { x with irqCount := 0, irqSince := 0 }
    let e := s.j.msixEntry x.vector
    (e.masked = false → e.addr ≠ 0 →
      exec (.coalescingTimeout q) s = .next { s with j := (s.j.mapQueue q cleared).emit (.msix x.vector e.addr e.data) }) ∧
    (e.masked = true → exec (.coalescingTimeout q) s
      = .next { s with j := (s.j.mapQueue q cleared).setMsix x.vector { e with pending := true } })) ∧
  (∀ (s : State) (id : Nat) (x : Ctx), s.j.live = true → s.j.ctx? id = some x → lifetimeApplies x = true →
    (x.xtag.any fun t => !t.2) = false →
    let expired := fun (r : Ring) => { r with expired := min (r.expired + 1) 0xFFFFFFFF }
    let deep := (s.j.ring? x.ring).any fun r => r.defn.any fun d => d.deep
    let j : Jenjor := { s.j with time := max s.j.time (x.boardTime + if deep then 1000000000000 else 60000000000) }
    exec (.queryLifetimeExpiry id) s
      = .next { s with j := ((j.mapRing x.ring expired).dropCtx id).refuse x.ref .queryExpired })

/-- R263, R264, R266, R245, R268, R270: a descriptor fetched from the queue whose turn it is joins the commands in flight and
waits its turn, or is answered with its first stage-1 status; a QUEUE_DELETE among them stops its queue from then on and
aborts that queue's queries that have not boarded; QUEUE_CREATE installs the queue it states; QUEUE_DELETE of an idle queue
removes it and completes; an allocation that waits is tried again with the command's own checks and, once it has failed for
a second, is answered POOL_BUSY. -/
def Obligations.QueuesCreatedFetchedDeleted : Prop :=
  (∀ (s : State) (q : Queue) (descs : List Desc) (d : Desc), s.j.live = true → s.j.arbitrate = some q →
    (if q.roce then ringDescs s.rmem q (s.j.fetchCount q) else descs.take (s.j.fetchCount q)) = [d] → s.j.queue? q.num = some q →
    (∀ x ∈ s.j.qs.queues, x.deleting = false) →
    let r : CmdRef := { q := q.num, cid := BitVec.ofNat 16 (dField d 2 2), noIrq := dField d 1 1 % 2 == 1, t0 := s.j.time,
                        gen := s.j.lnk.resets, tag := none }
    (stage1 q.kind q.inflight s.j.dom.tenant d = none → dField d 0 1 ≠ 0x52 →
      ∃ t, exec (.descriptorFetch descs) s = .next t ∧ t.j.qs.fetched = s.j.qs.fetched ++ [{ ref := r, d := d }] ∧
        t.j.queue? q.num = some { q with
          inflight := q.inflight ++ [r.cid],
          sqHead := if q.sqDepth ≤ q.sqHead + 1 then q.sqHead + 1 - q.sqDepth else q.sqHead + 1 } ∧
        t = { s with j := { s.j with qs := t.j.qs } }) ∧
    (stage1 q.kind q.inflight s.j.dom.tenant d = none → dField d 0 1 = 0x52 → dField d 8 2 ≠ 0 →
      ∃ t, exec (.descriptorFetch descs) s = .next t ∧ (∀ x ∈ t.j.qs.queues, x.num = dField d 8 2 → x.deleting = true) ∧
        ∀ c ∈ t.j.sw.ctxs, c.ref.q = dField d 8 2 → c.xtag.all (fun x => x.2) = true → beforeBoarding c = false) ∧
    ∀ st, stage1 q.kind q.inflight s.j.dom.tenant d = some st →
      ∃ k : Jenjor, exec (.descriptorFetch descs) s = .next { s with j := k.refuse r st } ∧ k.qs.fetched = s.j.qs.fetched ∧
        k = { s.j with qs := k.qs }) ∧
  (∀ s : State, s.j.arbitrate = none → ∀ descs, exec (.descriptorFetch descs) s = .next s) ∧
  (∀ (s : State) (q : Nat) (f : Fetched) (j : Jenjor), s.takes q 0x51 f j → firstStatus (queueChecks j f.d) = none →
    dField f.d 0x1B 1 = 0 ∨ dField f.d 0x1A 1 = 4 →
    ∃ (k : Jenjor) (x : Queue), exec (.queueCreate q) s = .next { s with j := k.complete f.ref .success 0 0 none } ∧
      k.qs = { j.qs with queues := j.qs.queues ++ [x] } ∧ x.num = dField f.d 0x18 2 ∧ x.kind = dField f.d 0x1A 1 ∧
      x.roce = (dField f.d 0x1B 1 == 1) ∧ x.sqBase = dField f.d 8 8 ∧ x.cqBase = dField f.d 0x10 8 ∧
      x.sqDepth = dField f.d 0x1C 2 ∧ x.cqDepth = dField f.d 0x1E 2 ∧ x.vector = dField f.d 0x20 2 ∧
      x.priority = dField f.d 0x22 1 ∧ x.qpn = dField f.d 0x28 4 ∧ x.phase = true ∧ x.sqHead = 0 ∧ x.cqTail = 0 ∧
      x.inflight = [] ∧ (dField f.d 0x1B 1 = 0 → k.lnk = j.lnk) ∧ k = { j with qs := k.qs, lnk := k.lnk }) ∧
  (∀ (s : State) (q : Nat) (f : Fetched) (j : Jenjor), s.takes q 0x51 f j → firstStatus (queueChecks j f.d) = none →
    dField f.d 0x1B 1 = 1 → ringPages f.d ≤ j.poolFree → dField f.d 0x1A 1 ≠ 4 →
    ∃ (k : Jenjor) (x : Queue) (v1 : BitVec 64),
      exec (.queueCreate q) s
        = .next { s with j := k.complete f.ref .success (BitVec.ofNat 64 (Config.poolBase + x.ringAddr)) v1 none } ∧
      k.qs.queues = j.qs.queues ++ [x] ∧ x.num = dField f.d 0x18 2 ∧ x.roce = true ∧ x.ringAddr = j.qs.nextRing ∧
      x.pages = ringPages f.d ∧ x.qpn = dField f.d 0x28 4 ∧ k = { j with qs := k.qs, lnk := k.lnk }) ∧
  (∀ (s : State) (q : Nat) (f : Fetched) (j : Jenjor) (st : Status), s.takes q 0x51 f j →
    firstStatus (queueChecks j f.d) = some st → exec (.queueCreate q) s = .next { s with j := j.refuse f.ref st }) ∧
  (∀ (s : State) (q : Nat) (f : Fetched) (j : Jenjor) (x a : Queue), s.takes q 0x52 f j → j.queue? (dField f.d 8 2) = some x →
    dField f.d 8 2 ≠ 0 → f.ref.q ≠ dField f.d 8 2 → x.inflight = [] → x.waiters = [] →
    (∀ y ∈ j.qs.queues, y.num = dField f.d 8 2 ∨ y.deleting = false) → (∀ g ∈ j.qs.fetched, g.ref.q ≠ dField f.d 8 2) →
    (∀ c ∈ j.sw.ctxs, c.ref.q ≠ dField f.d 8 2) → j.queue? f.ref.q = some a → a.roce = false → f.ref.tag = none →
    f.ref.gen = j.lnk.resets →
    ∃ t, exec (.queueDelete q) s = .next t ∧ t.j.queue? (dField f.d 8 2) = none ∧
      (∃ bytes, Output.completion a.num a.cqTail bytes ∈ t.j.out) ∧ t.mem = s.mem ∧ t.j.cat = s.j.cat) ∧
  (∀ (s : State) (q : Nat) (f : Fetched) (j : Jenjor), s.takes q 0x52 f j →
    dField f.d 8 2 = 0 ∨ j.queue? (dField f.d 8 2) = none →
    exec (.queueDelete q) s = .next { s with j := j.refuse f.ref .queueInvalid }) ∧
  (∀ (s : State) (id : Nat) (f : Fetched) (op : List Byte) (a : Alloc), s.j.live = true →
    (s.j.cat.allocs.find? fun a => a.id == id) = some a → a.failed = true →
    a.what = .queueCreate f ∨ a.what = .shardList f ∨ a.what = .collectionCreate f op ∨ a.what = .objectCreate f op
      ∨ a.what = .modelLoad f ∨ a.what = .recalibrate f op →
    let rest := fun (c : CatState) => { c with allocs := c.allocs.filter fun x => x.id != id }
    exec (.allocationRetry id true) s = .next { s with j := (s.j.mapCat rest).refuse f.ref .poolBusy }) ∧
  (∀ (s : State) (id : Nat) (expired : Bool) (f : Fetched) (a : Alloc), s.j.live = true →
    (s.j.cat.allocs.find? fun a => a.id == id) = some a → (expired && a.failed) = false → a.what = .queueCreate f →
    (∀ st, firstStatus (queueChecks s.j f.d) = some st →
      exec (.allocationRetry id expired) s
        = .next { s with j := (s.j.mapCat fun c => { c with allocs := c.allocs.filter fun x => x.id != id }).refuse f.ref st }) ∧
    (firstStatus (queueChecks s.j f.d) = none → dField f.d 0x1B 1 = 1 → ringPages f.d ≤ s.j.poolFree → dField f.d 0x1A 1 ≠ 4 →
      ∃ (k : Jenjor) (x : Queue) (v1 : BitVec 64),
        exec (.allocationRetry id expired) s
          = .next { s with j := k.complete f.ref .success (BitVec.ofNat 64 (Config.poolBase + x.ringAddr)) v1 none } ∧
        k.qs.queues = s.j.qs.queues ++ [x] ∧ x.num = dField f.d 0x18 2 ∧ x.pages = ringPages f.d ∧
        k.cat = { s.j.cat with allocs := s.j.cat.allocs.filter fun x => x.id != id }))

/-- R265, R266, R288, R335, R337, R439, R443, R444: a doorbell value inside the ring moves the tail or the head and nothing
else, one beyond it faults the queue; an 8-byte write acts on the credit and then on the tail; a doorbell page reads zero;
a write of any other form is discarded and counted, or aborted where it crosses its size alignment; a RoCEv2 doorbell moves
both; a well-placed admin queue becomes ready and a misplaced one shows ERROR; a disabled one is ready no more once idle; an
unmasked vector sends its pending message, and one beyond the table is counted and changes no entry. -/
def Obligations.DoorbellsAdminQueueVectors : Prop :=
  (∀ (s : State) (q : Nat) (v : BitVec 32) (x : Queue), s.j.live = true → s.j.barsOpen = true → 7 ≤ s.j.alm.step →
    s.j.queue? q = some x → x.kind ≠ 4 → q ≠ 0 ∨ s.j.qs.aqReady = true →
    (v.toNat % 65536 < x.sqDepth →
      let moved := fun (x : Queue) => { x with sqTail := v.toNat % 65536 }
      exec (.sqTailDoorbell q (.field v)) s = .next { s with j := s.j.mapQueue q moved }) ∧
    (x.sqDepth ≤ v.toNat % 65536 → x.fault = 0 →
      ∃ t, exec (.sqTailDoorbell q (.field v)) s = .next t ∧ t.j.queue? q = some { x with fault := 1 } ∧
        t = { s with j := { s.j with qs := t.j.qs, log := t.j.log, ctrs := t.j.ctrs } }) ∧
    (v.toNat % 65536 < x.cqDepth → (v.toNat % 65536 + x.cqDepth - x.cqHead) % x.cqDepth ≤ unconsumed x →
      let moved := fun (x : Queue) => { x with cqHead := v.toNat % 65536 }
      exec (.cqHeadDoorbell q (.field v)) s = .next { s with j := s.j.mapQueue q moved }) ∧
    ∀ w : BitVec 32, v.toNat % 65536 < x.sqDepth → w.toNat % 65536 < x.cqDepth →
      (w.toNat % 65536 + x.cqDepth - x.cqHead) % x.cqDepth ≤ unconsumed x →
      let moved := fun (x : Queue) => { x with cqHead := w.toNat % 65536, sqTail := v.toNat % 65536 }
      exec (.sqTailDoorbell q (.both v w)) s = .next { s with j := s.j.mapQueue q moved } ∧
      exec (.cqHeadDoorbell q (.both v w)) s = .next { s with j := s.j.mapQueue q moved }) ∧
  (∀ (s : State) (q width : Nat), s.j.live = true → s.j.barsOpen = true →
    let k := s.j.emit (.windowData (List.replicate width 0))
    exec (.sqTailDoorbell q (.read width)) s = .next { s with j := k } ∧
    exec (.cqHeadDoorbell q (.read width)) s = .next { s with j := k }) ∧
  (∀ (s : State) (q off width : Nat), s.j.live = true → s.j.barsOpen = true → pageForm (.other off width) = true →
    (off % width = 0 → ∃ t, exec (.sqTailDoorbell q (.other off width)) s = .next t ∧
      exec (.cqHeadDoorbell q (.other off width)) s = .next t ∧
      (t.j.counter 0xF0020).count = (s.j.counter 0xF0020).count + 1 ∧
      t = { s with j := { s.j with ctrs := t.j.ctrs, log := t.j.log } }) ∧
    (off % width ≠ 0 → ∃ t, exec (.sqTailDoorbell q (.other off width)) s = .next t ∧
      exec (.cqHeadDoorbell q (.other off width)) s = .next t ∧
      t.j.out = .aer 0 :: .completerAbort (q * 0x40 + off) :: s.j.out ∧
      t = { s with j := { s.j with ctrs := t.j.ctrs, log := t.j.log, out := t.j.out } })) ∧
  (∀ (s : State) (q : Nat) (v : BitVec 32) (x : Queue), s.j.live = true → s.j.queue? q = some x → x.roce = true → x.kind ≠ 4 →
    s.j.qpAlive x.qpn = true → q ≠ 0 ∨ s.j.qs.aqReady = true → v.toNat / 65536 < x.cqDepth → v.toNat % 65536 < x.sqDepth →
    (v.toNat / 65536 + x.cqDepth - x.cqHead) % x.cqDepth ≤ unconsumed x →
    let moved := fun (x : Queue) => { x with cqHead := v.toNat / 65536, sqTail := v.toNat % 65536 }
    exec (.roceDoorbell q v) s = .next { s with j := s.j.mapQueue q moved }) ∧
  (∀ (s : State), s.j.live = true → s.j.lnk.endpointUp = true → s.j.lnk.pcieDown = false → 5 ≤ s.j.alm.step →
    s.j.alm.step ≠ 9 → s.j.qs.aqEnable = false →
    let placed := s.j.qs.aqSqBase ≠ 0 ∧ s.j.qs.aqCqBase ≠ 0 ∧ depthOk s.j.qs.aqSqDepth.toNat = true ∧
      depthOk s.j.qs.aqCqDepth.toNat = true ∧ s.j.qs.aqVector.toNat < s.j.lnk.vectors
    (placed → ∃ t, exec .aqEnable s = .next t ∧ t.j.qs.aqEnable = true ∧ t.j.qs.aqReady = true ∧ t.j.qs.aqError = false ∧
      (∀ x, s.j.queue? 0 = some x → (t.j.queue? 0).map (fun y => (y.sqBase, y.cqBase, y.sqDepth, y.cqDepth)) =
        some (s.j.qs.aqSqBase.toNat, s.j.qs.aqCqBase.toNat, s.j.qs.aqSqDepth.toNat, s.j.qs.aqCqDepth.toNat)) ∧
      t = { s with j := { s.j with qs := t.j.qs } }) ∧
    (¬placed → ∃ t, exec .aqEnable s = .next t ∧ t.j.qs.aqEnable = true ∧ t.j.qs.aqError = true ∧
      t.j.qs.aqReady = s.j.qs.aqReady ∧ t.j.qs.queues = s.j.qs.queues)) ∧
  (∀ (s : State) (x : Queue), s.j.live = true → s.j.lnk.endpointUp = true → s.j.lnk.pcieDown = false → 5 ≤ s.j.alm.step →
    s.j.alm.step ≠ 9 → s.j.qs.aqEnable = true → s.j.queue? 0 = some x →
    ∃ t, exec .aqDisable s = .next t ∧ t.j.qs.aqEnable = false ∧ t.j.qs.aqReady = (s.j.qs.aqReady && !x.inflight.isEmpty) ∧
      t.j.qs.aqError = false ∧ (t.j.queue? 0).map (fun y => y.fault) = some 0 ∧
      t = { s with j := { s.j with qs := t.j.qs } }) ∧
  (∀ (s : State) (v : Nat), s.j.live = true → v < 2048 → v < s.j.lnk.vectors →
    ((s.j.msixEntry v).pending = true → (s.j.msixEntry v).addr ≠ 0 → ∃ t, exec (.msixVectorUnmask v) s = .next t ∧
      t.j.msixEntry v = { s.j.msixEntry v with masked := false, pending := false } ∧
      t.j.out = .msix v (s.j.msixEntry v).addr (s.j.msixEntry v).data :: s.j.out ∧
      (∀ k, k ≠ v → t.j.msixEntry k = s.j.msixEntry k) ∧
      t = { s with j := { s.j with out := t.j.out, qs := { s.j.qs with msix := t.j.qs.msix } } }) ∧
    ((s.j.msixEntry v).pending = false →
      exec (.msixVectorUnmask v) s = .next { s with j := s.j.setMsix v { s.j.msixEntry v with masked := false } })) ∧
  (∀ (s : State) (v : Nat), s.j.live = true → v < 2048 → s.j.lnk.vectors ≤ v →
    ∃ t, exec (.msixVectorUnmask v) s = .next t ∧ (t.j.counter 0xF0020).count = (s.j.counter 0xF0020).count + 1 ∧
      t = { s with j := { s.j with ctrs := t.j.ctrs, log := t.j.log } }) ∧
  (∀ (s : State) (v : Nat), 2048 ≤ v → exec (.msixVectorUnmask v) s = .fault .noSuchUnit)

/-- R207 to R210, R212 to R214, R318, R352: INSERT, UPDATE, DELETE, BIAS_WRITE and BIAS_FRAME are accepted into the journal,
answered with the first of R208 that refuses them and counted, or, refused by nothing, stay where they are until acceptance
has room; a fence completes at once when it covers no unpublished write of its queue, and otherwise waits for those that it
covers; a secondary forwards each. -/
def Obligations.WritesAccepted : Prop :=
  (∀ (s : State) (q : Nat) (op : List Byte) (f : Fetched) (j : Jenjor) (c : Coll), acceptable s q 0x20 f j op c →
    ∃ k, exec (.insert q op) s = .next { s with j := k } ∧
      acceptedAs j f op c (BitVec.ofNat 64 (dField f.d 8 8) :: c.accepted) k) ∧
  (∀ (s : State) (q : Nat) (op : List Byte) (f : Fetched) (j : Jenjor) (c : Coll), acceptable s q 0x21 f j op c →
    ∃ k, exec (.update q op) s = .next { s with j := k } ∧ acceptedAs j f op c c.accepted k) ∧
  (∀ (s : State) (q : Nat) (f : Fetched) (j : Jenjor) (c : Coll), acceptable s q 0x22 f j [] c →
    ∃ k, exec (.delete q) s = .next { s with j := k } ∧
      acceptedAs j f [] c (c.accepted.erase (BitVec.ofNat 64 (dField f.d 8 8))) k) ∧
  (∀ (s : State) (q : Nat) (op : List Byte) (f : Fetched) (j : Jenjor) (c : Coll), acceptable s q 0x23 f j op c →
    ∃ k, exec (.biasWrite q op) s = .next { s with j := k } ∧ acceptedAs j f op c c.accepted k) ∧
  (∀ (s : State) (q : Nat) (f : Fetched) (j : Jenjor) (c : Coll), acceptable s q 0x24 f j [] c →
    ∃ k, exec (.biasFrame q) s = .next { s with j := k } ∧ acceptedAs j f [] c c.accepted k) ∧
  (∀ (s : State) (q : Nat) (op : List Byte) (f : Fetched) (j : Jenjor), j.secondary = false →
    (∀ st, j.writeRefused f.d op = some st → let t := { s with j := (j.count blkDEV 0x430).refuse f.ref st }
      (s.takesData q 0x20 f j → exec (.insert q op) s = .next t) ∧ (s.takesData q 0x21 f j → exec (.update q op) s = .next t) ∧
      (s.takesData q 0x22 f j → op = [] → exec (.delete q) s = .next t) ∧
      (s.takesData q 0x23 f j → exec (.biasWrite q op) s = .next t) ∧
      (s.takesData q 0x24 f j → op = [] → exec (.biasFrame q) s = .next t)) ∧
    (s.j.acceptWaits f op = true →
      (s.takesData q 0x20 f j → exec (.insert q op) s = .next s) ∧ (s.takesData q 0x21 f j → exec (.update q op) s = .next s) ∧
      (s.takesData q 0x22 f j → op = [] → exec (.delete q) s = .next s) ∧
      (s.takesData q 0x23 f j → exec (.biasWrite q op) s = .next s) ∧
      (s.takesData q 0x24 f j → op = [] → exec (.biasFrame q) s = .next s))) ∧
  (∀ (s : State) (q : Nat) (op : List Byte) (f : Fetched) (j : Jenjor), j.secondary = true →
    let t := { s with j := j.forwardCmd f op }
    (s.takesData q 0x20 f j → exec (.insert q op) s = .next t) ∧ (s.takesData q 0x21 f j → exec (.update q op) s = .next t) ∧
    (s.takesData q 0x22 f j → op = [] → exec (.delete q) s = .next t) ∧
    (s.takesData q 0x23 f j → exec (.biasWrite q op) s = .next t) ∧
    (s.takesData q 0x24 f j → op = [] → exec (.biasFrame q) s = .next t) ∧
    (s.takesData q 0x25 f j → op = [] → exec (.writeFence q) s = .next t)) ∧
  (∀ (s : State) (q : Nat) (f : Fetched) (j : Jenjor), s.takesData q 0x25 f j → j.secondary = false → f.ref.tag = none →
    j.wr.fences = [] →
    let mine := j.wr.journal.filter fun e => e.ref.tag.isNone && e.ref.q == f.ref.q && !e.published && !e.discarded
    (mine = [] → exec (.writeFence q) s
      = .next { s with j := j.complete f.ref .success 0 (BitVec.ofNat 64 j.wr.epoch) none }) ∧
    (mine ≠ [] → (j.wr.journal.map fun e => e.jr.seq).Nodup → exec (.writeFence q) s
      = .next { s with j := { j with wr := { j.wr with
          fences := [{ ref := f.ref, covered := mine.map fun e => e.jr.seq, best := none }] } } }))

/-- R210, R211, R214 to R218, R318, R320: a record in the journal buffer is durable and acknowledged, unless the hold-up
bank is weak; its programmed stripe takes it out of the buffer; a tick refills the buckets and forms a commit of what may
be formed; the oldest commit publishes its epoch with its record in place; a wait whose cause has cleared ends. -/
def Obligations.JournalAndCommits : Prop :=
  (∀ (s : State) (seq : Nat) (e : JEntry), s.j.live = true → (s.j.wr.journal.find? fun e => e.jr.seq == seq) = some e →
    e.programmed = false → seq ∉ s.j.wr.buffer → s.j.bufferBytes + e.jr.bytes ≤ 33554432 → s.j.vlt.holdupWeak = false →
    s.j.mirrored = false → s.j.cpn.pair.solo = false → s.j.syncPaired = false → e.discarded = false →
    ∃ (t : State) (e' : JEntry), exec (.journalBufferDurable seq) s = .next t ∧
      (t.j.wr.journal.find? fun e => e.jr.seq == seq) = some e' ∧ e'.jr = e.jr ∧ e'.localDurable = true ∧ e'.acked = true ∧
      t.j.wr.buffer = s.j.wr.buffer ++ [seq] ∧ t.j.cat = s.j.cat ∧ t.mem = s.mem) ∧
  (∀ (s : State) (seq : Nat) (e : JEntry), s.j.live = true → (s.j.wr.journal.find? fun e => e.jr.seq == seq) = some e →
    e.programmed = false → seq ∉ s.j.wr.buffer → s.j.bufferBytes + e.jr.bytes ≤ 33554432 → s.j.vlt.holdupWeak = true →
    ∃ t, exec (.journalBufferDurable seq) s = .next t ∧ t.j.wr.buffer = s.j.wr.buffer ++ [seq] ∧
      t = { s with j := { s.j with wr := { s.j.wr with buffer := t.j.wr.buffer, bufHigh := t.j.wr.bufHigh } } }) ∧
  (∀ (s : State) (seq : Nat) (e : JEntry), s.j.live = true → (s.j.wr.journal.find? fun e => e.jr.seq == seq) = some e →
    seq ∈ s.j.wr.buffer →
    ∃ t, exec (.journalStripeProgrammed seq) s = .next t ∧ t.j.wr.buffer = s.j.wr.buffer.filter (· != seq) ∧
      (∀ x ∈ t.j.wr.journal, x.jr.seq = seq → x.programmed = true ∧ x.localDurable = true) ∧
      t.j.cat = s.j.cat ∧ t.mem = s.mem ∧ t.rmem = s.rmem) ∧
  (∀ s : State, s.j.live = true → s.j.wr.journal = [] →
    exec .commitTick s = .next { s with j := { s.j with wr := { s.j.wr with
      tokens := min 16384 (s.j.wr.tokens + 1), byteTokens := min 16777216 (s.j.wr.byteTokens + 4000) } } }) ∧
  (∀ (s : State) (e : JEntry), s.j.live = true → s.j.formsCommits = true → s.j.mirroring = false → s.j.wr.journal = [e] →
    e.epoch = none → e.published = false → e.discarded = false → e.waiting = false → s.j.durable e = true →
    (deletes e = true → ∀ x p, s.j.placeOf e.jr.coll e.jr.key = some x → s.j.plate? x.1 = some p → p.dlog.length < 351) →
    s.j.mustWait Forming.empty e = false →
    exec .commitTick s = .next { s with j := { s.j with wr := { s.j.wr with
      tokens := min 16384 (s.j.wr.tokens + 1), byteTokens := min 16777216 (s.j.wr.byteTokens + 4000),
      formed := s.j.wr.formed + 1, journal := [{ e with epoch := some (s.j.wr.formed + 1) }],
      commits := s.j.wr.commits ++ [{ epoch := s.j.wr.formed + 1, seqs := [e.jr.seq], waited := false, peerAck := false }] } } }) ∧
  (∀ (s : State) (cm : Commit) (rest : List Commit) (e : JEntry) (c : Coll) (p : Plate), s.j.live = true →
    s.j.wr.commits = cm :: rest → s.j.mayPublish cm = true → s.j.liveEntries cm = [e] → e.jr.op = .insert →
    s.j.coll? e.jr.coll = some c → 1 ≤ s.j.freeSlots c → s.j.appendsReady [e] [e.jr.coll] = true → s.j.slewHeld e = false →
    s.j.cat.recals = [] → s.j.targetPlate c = some p → s.j.plate? p.pid = some p →
    ∃ (t : State) (p' : Plate) (r : Rec), exec .commitPublish s = .next t ∧ t.j.wr.epoch = cm.epoch ∧
      t.j.plate? p.pid = some p' ∧ p'.recs = p.recs ++ [r] ∧ r.occupied = true ∧ r.key = e.jr.key ∧
      r.delta = cm.epoch - p.epochBase ∧ r.tags = e.jr.tags ∧ p'.tomb = p.tomb ∧
      (e.jr.stored = [] → e.jr.payload = [] → t.mem = s.mem) ∧ t.rmem = s.rmem) ∧
  (∀ s : State, s.j.live = true → s.j.wr.commits = [] → exec .commitPublish s = .next s) ∧
  (∀ (s : State) (seq : Nat) (e : JEntry), s.j.live = true → (s.j.wr.journal.find? fun e => e.jr.seq == seq) = some e →
    e.waiting = true → (∀ x ∈ s.j.wr.journal, x.waiting = true → seq ≤ x.jr.seq) →
    (deletes e = true → ∀ x p, s.j.placeOf e.jr.coll e.jr.key = some x → s.j.plate? x.1 = some p → p.dlog.length < 351) →
    s.j.mustWait Forming.empty e = false →
    let free := fun (x : JEntry) => { x with waiting := false }
    exec (.writeWaitRelease seq) s = .next { s with j := s.j.mapJournal (fun x => x.jr.seq == seq) free })

/-- R65, R223, R224, R225, R227, R228, R231, R312, R361: a settling visit settles a plate at the oldest rider epoch and leaves
its records; a write-back cleans what it writes and is counted; a padded header log is emptied; a replating for space or for
a re-base marks its sources and stages their replacements; a ready one enters its swap at the ring's next boundary; a plate
that nothing holds retires; a drained bias buffer takes the published values, the hold list applied, and accumulates again,
in the mode that pairs frames only once the companion's has drained too. -/
def Obligations.PlateAndBiasUpkeep : Prop :=
  (∀ (s : State) (pid : Nat) (p : Plate), s.j.live = true → s.j.plate? pid = some p → p.present = true → p.lost = false →
    ∃ (t : State) (p' : Plate), exec (.plateSettleVisit pid) s = .next t ∧ t.j.plate? pid = some p' ∧
      p'.settled = (p.settle s.j.oldestRider).settled ∧ p'.dlog = (p.settle s.j.oldestRider).dlog ∧ p'.recs = p.recs ∧
      p'.tomb = p.tomb ∧
      t = { s with j := { s.j with cat := { s.j.cat with
        plates := t.j.cat.plates, recals := t.j.cat.recals, slews := t.j.cat.slews } } }) ∧
  (∀ (s : State) (pid : Nat) (p : Plate), s.j.live = true → s.j.plate? pid = some p → p.present = true → p.lost = false →
    p.dirtyData = true →
    ∃ t, exec (.writeBack (.plate pid)) s = .next t ∧
      t.j.plate? pid = some { p with dirtyHdr := false, dirtyData := false } ∧
      (t.j.counter 0x458).count = (s.j.counter 0x458).count + 1 ∧
      (∀ e ∈ t.j.wr.journal, pid ∉ e.touched) ∧ (∀ c ∈ t.j.cat.colls, c.num = p.coll → ∀ x ∈ c.hdrAt, x.1 ≠ pid) ∧
      t.mem = s.mem) ∧
  (∀ (s : State) (n : Nat) (c : Coll) (b : BiasPlane), s.j.live = true → s.j.coll? n = some c → c.bias = some b →
    b.dirty = true →
    ∃ t, exec (.writeBack (.bias n)) s = .next t ∧ t.j.coll? n = some { c with bias := some { b with dirty := false } } ∧
      (t.j.counter 0x458).count = (s.j.counter 0x458).count + 1 ∧ t.mem = s.mem) ∧
  (∀ (s : State) (n : Nat) (c : Coll), s.j.live = true → s.j.coll? n = some c → c.hdrLog ≠ [] →
    ∃ (t : State) (c' : Coll), exec (.headerLogStripeTimeout n) s = .next t ∧ t.j.coll? n = some c' ∧
      c' = { c with hdrLog := [], hdrAt := c'.hdrAt } ∧
      (∀ pid ∈ c.hdrLog, ∀ p, s.j.plate? pid = some p → p.dirtyData = false →
        t.j.plate? pid = some { p with dirtyHdr := false }) ∧ t.mem = s.mem) ∧
  (∀ (s : State) (pids : List Nat) (c : Coll), s.j.live = true →
    let ps := pids.filterMap s.j.plate?
    let repl := s.j.replacements c ps
    let reclaim := (∀ p ∈ ps, s.j.needsReclaim c p = true) ∧ s.j.cat.recals.any (fun r => r.coll == c.num) = false
    ps.length = pids.length → ps.length ≤ 8 → (ps.head?).bind (fun p => s.j.liveColl? p.coll) = some c →
    ((ps.zip (ps.drop 1)).all fun x => decide (x.1.num < x.2.num)) = true →
    (∀ p ∈ ps, p.coll = c.num ∧ sourceable p = true) → reclaim ∨ (∀ p ∈ ps, s.j.needsRebase p = true) →
    s.j.inFlightPlates + repl.length ≤ 64 → ceilDiv (s.j.plateBytes c repl) 2097152 ≤ s.j.poolFree →
    ∃ (t : State) (job : Replating), exec (.replatingStart pids) s = .next t ∧
      t.j.cat.replatings = s.j.cat.replatings ++ [job] ∧ job.sources = pids ∧ job.repl = repl ∧
      (job.cause = .reclaim ↔ reclaim) ∧ job.ready = false ∧
      job.base = s.j.oldestRider ∧ (∀ pid ∈ pids, (t.j.plate? pid).any (fun p => p.source) = true) ∧ t.mem = s.mem) ∧
  (∀ (s : State) (job : Nat) (rp : Replating) (r : Ring), s.j.live = true →
    (s.j.cat.replatings.find? fun r => r.id == job && !r.ready) = some rp → s.j.ringOf rp.coll = some r →
    s.j.ring? r.num = some r → sweeping r = true →
    ∃ t, exec (.replatingReady job) s = .next t ∧ t.j.ring? r.num = some { r with switches := r.switches ++ [.replate job] } ∧
      (∀ x ∈ t.j.cat.replatings, x.id = job →
        x.ready = true ∧ ∀ p ∈ x.repl, p.dirtyHdr = false ∧ p.dirtyData = false) ∧ t.j.cat.plates = s.j.cat.plates ∧
      t = { s with j := { s.j with
        sw := { s.j.sw with rings := t.j.sw.rings }, vlt := { s.j.vlt with extents := t.j.vlt.extents }, ctrs := t.j.ctrs,
        cat := { s.j.cat with replatings := t.j.cat.replatings, colls := t.j.cat.colls } } }) ∧
  (∀ (s : State) (pid : Nat) (p : Plate), s.j.live = true → s.j.plate? pid = some p → p.retiring = true →
    s.j.plateHeld pid = false →
    ∃ t, exec (.plateRetire pid) s = .next t ∧ t.j.cat.plates = s.j.cat.plates.filter (fun p => p.pid != pid) ∧
      (∀ e ∈ t.j.wr.journal, pid ∉ e.touched) ∧ (∀ e ∈ t.j.vlt.extents, e.what ≠ .plate pid) ∧
      t = { s with j := { s.j with
        cat := { s.j.cat with plates := t.j.cat.plates, colls := t.j.cat.colls }, wr := t.j.wr, ctrs := t.j.ctrs,
        vlt := { s.j.vlt with extents := t.j.vlt.extents } } }) ∧
  (∀ (s : State) (n : Nat) (c : Coll) (b : BiasPlane), s.j.live = true → s.j.coll? n = some c → c.bias = some b →
    b.phase = .draining → s.j.holdsOldFrame n b.frame = false →
    (s.j.pairedIn 3 = false ∨ (b.doneSent = true ∧ b.peerDone = true) →
      ∃ t, exec (.biasBufferDrained n) s = .next t ∧
        t.j.coll? n = some { c with bias := some { b with
          other := b.hold.foldl (fun o h => applyPair o h.1 h.2.1 h.2.2) b.published, hold := [], phase := .accumulating,
          dirty := true } } ∧
        t = { s with j := { s.j with cat := { s.j.cat with colls := t.j.cat.colls } } }) ∧
    (s.j.pairedIn 3 = true → b.peerDone = false →
      ∃ t, exec (.biasBufferDrained n) s = .next t ∧ t.j.coll? n = some { c with bias := some { b with doneSent := true } } ∧
        t.mem = s.mem))

/-- R236, R237, R238, R240, R242, R248: PLACE of an object already in its tier completes at once and touches it; otherwise a slew
to that tier waits, and the command with it; SET_RESIDENCE of a collection that has the residence completes, of another
waits on the move of its plate set. A slew starts only as the next in order with fewer than 8 in flight, holding the pages
its destination takes; the copy has converged once 16 or fewer granules are left, writes held from then on; its switch then
moves the object and is counted, and a page that fails leaves the object where it was. Each interval of the photometer
halves every heat. -/
def Obligations.PlacementAndSlews : Prop :=
  (∀ (s : State) (q : Nat) (f : Fetched) (j : Jenjor) (o : Obj), s.takesCat q 0x46 [] f j → firstStatus (j.placeChecks f.d) = none →
    j.obj? (dField f.d 8 4) = some o → o.tier = tierOf (dField f.d 0xC 1) →
    exec (.place q) s
      = .next { s with j := (j.mapObj (dField f.d 8 4) fun o => { o with lastUse := j.time }).completeCatalogue f.ref 0 }) ∧
  (∀ (s : State) (q : Nat) (f : Fetched) (j : Jenjor) (o : Obj), s.takesCat q 0x46 [] f j → firstStatus (j.placeChecks f.d) = none →
    j.obj? (dField f.d 8 4) = some o → o.tier ≠ tierOf (dField f.d 0xC 1) →
    ∃ (t : State) (w : Slew), exec (.place q) s = .next t ∧ t.j.cat.slews = j.cat.slews ++ [w] ∧ w.obj = dField f.d 8 4 ∧
      w.dest = tierOf (dField f.d 0xC 1) ∧ w.started = false ∧ w.cause = .place f.ref ∧ t.j.cat.objs = j.cat.objs ∧
      t.j.out = j.out ∧ t = { s with j := { j with cat := t.j.cat } }) ∧
  (∀ (s : State) (q : Nat) (f : Fetched) (j : Jenjor) (st : Status), s.takesCat q 0x46 [] f j →
    firstStatus (j.placeChecks f.d) = some st → exec (.place q) s = .next { s with j := j.refuse f.ref st }) ∧
  (∀ (s : State) (q : Nat) (f : Fetched) (j : Jenjor) (c : Coll), s.takesCat q 0x47 [] f j →
    j.liveColl? (dField f.d 4 2) = some c → (∀ r ∈ j.sw.rings, ∀ d, r.defn = some d → c.num ∉ d.colls) →
    j.readOnlyNow = false → j.keyGone = false →
    let deep := dField f.d 8 1 == 1
    (deep = true → j.place.photometric = true ∧ j.vaultFits (j.uncopied c.num * stripesOf 262144) = true) →
    (c.deep = deep → exec (.setResidence q) s = .next { s with j := j.completeCatalogue f.ref 0 }) ∧
    (c.deep ≠ deep → j.plateSetTier c ≠ (if deep then Tier.vault else .sweep) →
      ∃ (t : State) (w : Slew), exec (.setResidence q) s = .next t ∧ t.j.cat.slews = j.cat.slews ++ [w] ∧
        w.obj = c.objPlates ∧ w.dest = (if deep then Tier.vault else .sweep) ∧ w.cause = .residence f.ref c.num ∧
        t.j.cat.colls = j.cat.colls ∧ t = { s with j := { j with cat := t.j.cat } }) ∧
    (c.deep ≠ deep → j.plateSetTier c = (if deep then Tier.vault else .sweep) →
      ∃ t, exec (.setResidence q) s = .next t ∧ (∀ x ∈ t.j.cat.colls, x.num = c.num → x.deep = deep) ∧ t.mem = s.mem)) ∧
  (∀ (s : State) (obj : Nat) (w : Slew) (o : Obj), s.j.live = true → s.j.nextSlew = some w → w.obj = obj →
    s.j.slewsInFlight < 8 → s.j.obj? obj = some o → s.j.promotePages o w.dest ≤ s.j.poolFree →
    exec (.slewStart obj) s = .next { s with j := { s.j with cat := { s.j.cat with slews := s.j.cat.slews.map fun x =>
      if x = w then { x with started := true, pages := s.j.promotePages o w.dest } else x } } }) ∧
  (∀ (s : State) (obj : Nat) (w : Slew), s.j.live = true → s.j.nextSlew = some w → 8 ≤ s.j.slewsInFlight →
    exec (.slewStart obj) s = .next s) ∧
  (∀ (s : State) (obj : Nat) (w : Slew) (o : Obj), s.j.live = true → s.j.movingSlew obj = some w → s.j.obj? obj = some o →
    (∀ copied : List Nat,
      let left := w.pendingGranules.filter fun g => !copied.contains g
      exec (.slewSwitch obj (.hold copied)) s = .next { s with j := { s.j with cat := { s.j.cat with
        slews := s.j.cat.slews.map fun x =>
          if x = w then { x with pendingGranules := left, held := x.held || decide (left.length ≤ 16) } else x } } }) ∧
    (16 < w.pendingGranules.length → w.held = false → ∀ ok bad, exec (.slewSwitch obj (.switch ok bad)) s = .next s) ∧
    (w.pendingGranules.length ≤ 16 ∨ w.held = true → w.cause = .photometric →
      (w.dest ≠ o.tier → w.dest ≠ .vault → o.kind = 2 → s.j.wr.journal = [] → s.j.wr.stopped = false → s.j.wr.region = 0 →
        ∃ t, exec (.slewSwitch obj (.switch true [])) s = .next t ∧ t.j.obj? obj = some { o with tier := w.dest, pages := w.pages } ∧
          t.j.cat.slews = s.j.cat.slews.erase w ∧ (t.j.counter 0x518).count = (s.j.counter 0x518).count + 1 ∧
          t = { s with j := { s.j with cat := { s.j.cat with objs := t.j.cat.objs, slews := t.j.cat.slews }, ctrs := t.j.ctrs } }) ∧
      ∀ bad, ∃ t, exec (.slewSwitch obj (.switch false bad)) s = .next t ∧ t.j.cat.objs = s.j.cat.objs ∧
        t.j.cat.slews = s.j.cat.slews.erase w ∧ (t.j.counter 0x530).count = (s.j.counter 0x530).count + 1 ∧
        s.j.log.head < t.j.log.head ∧ t.j.log.errClass.getLsbD 0 = true)) ∧
  (∀ s : State, s.j.live = true → s.j.place.photometric = false →
    ∃ t, exec .photometerInterval s = .next t ∧ (t.j.cat.objs.map fun o => o.heat) = (s.j.cat.objs.map fun o => o.heat / 2) ∧
      t.j.cat.slews = s.j.cat.slews ∧ t.mem = s.mem)

/-- R237, R249, R250, R257: ATOMIC applies its pairs in list order at their elements and returns what each held; a tile write
stores the tiles named and nothing else, a tile read returns them; prefetch and evict complete with no effect; a write to a
region that a slew holds stays where it is. -/
def Obligations.TileRegions : Prop :=
  (∀ (s : State) (q : Nat) (op : List Byte) (f : Fetched) (j : Jenjor) (o : Obj), s.takes q 0x50 f j →
    j.region? (dField f.d 0x14 4) = some o → firstStatus (j.atomicChecks f.d op) = none → j.mem.poison = [] →
    j.heldBySlew (dField f.d 0x14 4) = false →
    dField f.d 0x20 8 = 0 →
    ∃ k : Jenjor, exec (.atomic q op) s
        = .next { s with mem := (applyAtomics (dField f.d 0x18 1) (dField f.d 0x19 1) o.base (atomicPairs op) s.mem).1,
                         j := k.complete f.ref .success 0 0 none } ∧
      (∀ a, (∀ p ∈ atomicPairs op, a < o.base + p.1 ∨ o.base + p.1 + adderBytes (dField f.d 0x18 1) ≤ a) →
        Memory.read (applyAtomics (dField f.d 0x18 1) (dField f.d 0x19 1) o.base (atomicPairs op) s.mem).1 a
          = Memory.read s.mem a) ∧
      k = { j with cat := { j.cat with objs := k.cat.objs, slews := k.cat.slews } }) ∧
  (∀ (m : List Host.Cell) (w : Nat) (base off x : Nat) (op : Nat), Memory.wf m = true → w = 4 ∨ w = 8 → 1 ≤ op → op ≤ 3 → x < 2 ^ (8 * w) →
    let old := leNat (Memory.readBytes m (base + off) w)
    let r := applyAtomics (if w = 4 then 1 else 2) op base [(off, x)] m
    r.2 = [old] ∧
      leNat (Memory.readBytes r.1 (base + off) w)
        = (if op = 1 then (old + x) % 2 ^ (8 * w)
           else if op = 2 then (if (BitVec.ofNat (8 * w) x).slt (BitVec.ofNat (8 * w) old) then x else old)
           else if (BitVec.ofNat (8 * w) old).slt (BitVec.ofNat (8 * w) x) then x else old)) ∧
  (∀ (s : State) (q : Nat) (data : List Byte) (f : Fetched) (j : Jenjor) (o : Obj), s.takes q 0x30 f j → Memory.wf s.mem = true →
    j.region? (dField f.d 0x10 4) = some o → firstStatus (j.tileChecks f.d) = none → j.heldBySlew (dField f.d 0x10 4) = false →
    let a0 := o.base + dField f.d 0x14 4 % 2 ^ 28 * 65536
    let n := dField f.d 0x18 1 * 65536
    ∃ (k : Jenjor) (m : List Host.Cell), exec (.tileWrite q data) s = .next { s with mem := m, j := k.complete f.ref .success 0 0 none } ∧
      (∀ i, i < n → Memory.read m (a0 + i) = data.getD i 0) ∧
      (∀ a, a < a0 ∨ a0 + n ≤ a → Memory.read m a = Memory.read s.mem a) ∧
      k = { j with cat := { j.cat with objs := k.cat.objs, slews := k.cat.slews },
                   mem := { j.mem with poison := k.mem.poison } }) ∧
  (∀ (s : State) (q : Nat) (f : Fetched) (j : Jenjor) (o : Obj), s.takes q 0x31 f j → j.region? (dField f.d 0x10 4) = some o →
    firstStatus (j.tileChecks f.d) = none → j.mem.poison = [] →
    exec (.tileRead q) s
      = .next { s with j := j.returnBytes f.ref (dField f.d 8 8) (BitVec.ofNat 32 (dField f.d 0x20 4))
                              (Memory.readBytes s.mem (o.base + dField f.d 0x14 4 % 2 ^ 28 * 65536) (dField f.d 0x18 1 * 65536)) }) ∧
  (∀ (s : State) (q : Nat) (f : Fetched) (j : Jenjor) (o : Obj), j.region? (dField f.d 0x10 4) = some o →
    firstStatus (j.tileChecks f.d) = none →
    (s.takes q 0x32 f j → exec (.tilePrefetch q) s = .next { s with j := j.complete f.ref .success 0 0 none }) ∧
    (s.takes q 0x33 f j → exec (.tileEvict q) s = .next { s with j := j.complete f.ref .success 0 0 none })) ∧
  (∀ (s : State) (q : Nat) (data : List Byte) (f : Fetched) (j : Jenjor),
    (s.takes q 0x30 f j → j.heldBySlew (dField f.d 0x10 4) = true → exec (.tileWrite q data) s = .next s) ∧
    (s.takes q 0x50 f j → j.heldBySlew (dField f.d 0x14 4) = true → exec (.atomic q data) s = .next s)) ∧
  (∀ (s : State) (q : Nat) (f : Fetched) (j : Jenjor) (st : Status), firstStatus (j.tileChecks f.d) = some st →
    (s.takes q 0x30 f j → j.heldBySlew (dField f.d 0x10 4) = false → ∀ data, exec (.tileWrite q data) s = .next { s with j := j.refuse f.ref st }) ∧
    (s.takes q 0x31 f j → exec (.tileRead q) s = .next { s with j := j.refuse f.ref st }) ∧
    (s.takes q 0x32 f j → exec (.tilePrefetch q) s = .next { s with j := j.refuse f.ref st }) ∧
    (s.takes q 0x33 f j → exec (.tileEvict q) s = .next { s with j := j.refuse f.ref st }))

/-- R251, R252, R254, R255: CALIBRATE starts a sweep over the collection's view, or waits for the one under way; its end
delivers a block of 64 bytes and 2,128 a dimension; RECALIBRATE takes its sequence number and stages a twin of every plate
on the collection's list with the next grid generation, the plates unchanged; a staged recalibration of a collection on a
sweeping ring is entered at that ring's next boundary. -/
def Obligations.CalibrationAndRecalibration : Prop :=
  (∀ (s : State) (q : Nat) (op : List Byte) (f : Fetched) (j : Jenjor) (c : Coll), s.takes q 0x4E f j →
    firstStatus (j.calibChecks f.d op) = none → j.liveColl? (dField f.d 4 2) = some c →
    (j.cat.calib = none → j.cat.calibQueue = [] → ∃ (t : State) (k : Calib), exec (.calibrate q op) s = .next t ∧ t.j.cat.calib = some k ∧
      k.ref = f.ref ∧ k.coll = c.num ∧ k.stride = dField f.d 0x18 4 ∧ k.view = j.listView c.num ∧ k.epochStart = j.wr.epoch ∧
      k.gridGen = c.gridGen ∧ t = { s with j := { j with cat := { j.cat with calib := some k } } }) ∧
    (j.cat.calib.isSome = true ∨ j.cat.calibQueue ≠ [] → exec (.calibrate q op) s
      = .next { s with j := { j with cat := { j.cat with calibQueue := j.cat.calibQueue ++ [(f, op)] } } })) ∧
  (∀ (s : State) (k : Calib) (c : Coll), s.j.live = true → s.j.cat.calib = some k → s.j.coll? k.coll = some c →
    s.j.cat.calibQueue = [] →
    let j : Jenjor := { s.j with cat := { s.j.cat with calib := none } }
    exec .calibrationComplete s
      = .next { s with j := j.returnBytes k.ref k.addr k.rkey (calibBlock s.mem s.j c k) } ∧
      (calibBlock s.mem s.j c k).length = 64 + 2128 * c.dim) ∧
  (∀ (s : State) (q : Nat) (op : List Byte) (f : Fetched) (j : Jenjor) (c : Coll), s.takesCat q 0x4F op f j →
    firstStatus (j.recalChecks f.d op) = none → j.liveColl? (dField f.d 4 2) = some c → j.cat.recals = [] →
    j.cat.replatings = [] → s.j.cat.recals = [] → s.j.cat.replatings = [] → ceilDiv (j.plateBytes c (j.collPlates c.num)) 2097152 ≤ j.poolFree →
    ∃ (t : State) (rc : Recal), exec (.recalibrate q op) s = .next t ∧ t.j.cat.recals = [rc] ∧ rc.ref = f.ref ∧
      rc.coll = c.num ∧ rc.seq = j.cat.seq + 1 ∧ rc.staged = false ∧ rc.gridA = (wordsOf op).take c.dim ∧
      rc.gridB = (wordsOf op).drop c.dim ∧ rc.twins.length = (j.collPlates c.num).length ∧
      (∀ x ∈ rc.twins, x.gridGen = c.gridGen + 1 ∧ ∃ p ∈ j.collPlates c.num, x.num = p.num ∧ x.tomb = p.tomb ∧
        x.recs.length = p.recs.length) ∧
      t = { s with j := { j with cat := { j.cat with seq := j.cat.seq + 1, recals := [rc], nextPid := t.j.cat.nextPid } } }) ∧
  (∀ (s : State) (n : Nat) (rc : Recal) (r : Ring), s.j.live = true →
    (s.j.cat.recals.find? fun r => r.coll == n && !r.staged) = some rc → s.j.ringOf n = some r → s.j.ring? r.num = some r →
    sweeping r = true →
    ∃ t, exec (.recalibrationStaged n) s = .next t ∧ t.j.ring? r.num = some { r with switches := r.switches ++ [.recal n] } ∧
      (∀ x ∈ t.j.cat.recals, x.coll = n →
        x.staged = true ∧ ∀ p ∈ x.twins, p.dirtyHdr = false ∧ p.dirtyData = false) ∧ t.j.cat.plates = s.j.cat.plates ∧
      t.mem = s.mem)

/-- R170, R171, R205, R387: MODEL_LOAD that passes its checks brings its package to sweep memory and fills the lowest empty
slot as loading, with the key captured; its decryption ends in a resident model with the next sequence number, its digests
and its lowest free extents, or in an empty slot and the status that applies, both digests logged in two records each
and an authentication failure counted;
MODEL_UNLOAD of an idle resident model frees its slot. -/
def Obligations.EncoderModels : Prop :=
  (∀ (s : State) (q : Nat) (f : Fetched) (j : Jenjor) (m : Nat) (o : Obj), s.takesCat q 0x4C [] f j →
    firstStatus (loadChecks s.mem j f.d) = none →
    ((List.range 8).find? fun m => (j.model? m).any fun x => x.phase == .empty) = some m →
    j.liveObj? (dField f.d 8 4) = some o → pagesOf o.bytes ≤ j.poolFree →
    ∃ (t : State) (x : Model), exec (.modelLoad q) s = .next t ∧ t.j.model? m = some x ∧ x.phase = .loading ∧ x.obj = o.num ∧
      x.prog = dField f.d 0xC 4 ∧ x.keySlot = dField f.d 0x10 1 % 64 ∧ x.maxSeq = dField f.d 0x12 2 ∧
      x.maxTokens = dField f.d 0x14 4 ∧ x.loader = some f.ref ∧ (∀ n, n ≠ m → t.j.model? n = j.model? n) ∧
      t.j.liveObj? (dField f.d 8 4) = some { o with tier := .sweep, pages := pagesOf o.bytes } ∧
      t = { s with j := { j with cat := { j.cat with objs := t.j.cat.objs }, coe := { j.coe with models := t.j.coe.models } } }) ∧
  (∀ (s : State) (q : Nat) (f : Fetched) (j : Jenjor) (st : Status), s.takesCat q 0x4C [] f j →
    firstStatus (loadChecks s.mem j f.d) = some st → exec (.modelLoad q) s = .next { s with j := j.refuse f.ref st }) ∧
  (∀ (s : State) (m : Nat) (x : Model) (o : Obj) (c : CmdRef), s.j.live = true →
    ((List.range 8).find? fun m => (s.j.model? m).any fun x => x.phase == .loading) = some m → s.j.model? m = some x →
    s.j.obj? x.obj = some o → x.loader = some c → x.unloader = none →
    let env := Memory.readBytes s.mem o.base o.bytes
    let image := match s.j.obj? x.prog with
      | none => []
      | some o => Memory.readBytes s.mem o.base o.bytes
    (Config.openPackage (s.j.loadKey x) env = none →
      ∃ k : Jenjor, exec .modelLoadDecryptComplete s = .next { s with j := k.refuse c .authenticationFailed } ∧
        k.model? m = some emptyModel ∧ (k.counter 0xC0810).count = (s.j.counter 0xC0810).count + 1 ∧
        k.log.head = s.j.log.head + 4 ∧
        k = { s.j with ctrs := k.ctrs, log := k.log, freeIdx := s.j.freeIdx + 1, cat := { s.j.cat with objs := k.cat.objs },
                       coe := { s.j.coe with models := k.coe.models } }) ∧
    (∀ pack : List Byte, Config.openPackage (s.j.loadKey x) env = some pack → pack.length = fieldAt env 0x18 8 →
      headerBad pack = true →
      ∃ k : Jenjor, exec .modelLoadDecryptComplete s = .next { s with j := k.refuse c .modelInvalid } ∧
        k.model? m = some emptyModel ∧ k.log.head = s.j.log.head + 4 ∧
        k = { s.j with ctrs := k.ctrs, log := k.log, cat := { s.j.cat with objs := k.cat.objs },
                       coe := { s.j.coe with models := k.coe.models } }) ∧
    (∀ (pack : List Byte) (sb cb : Nat), Config.openPackage (s.j.loadKey x) env = some pack → pack.length = fieldAt env 0x18 8 →
      headerBad pack = false → x.maxSeq ≤ (headerOf pack).maxSeq → x.maxTokens ≤ 2 ^ 26 / (headerOf pack).width →
      imageBad image s.j.arithRev (headerOf pack) (constUnitsOf (headerOf pack)) x.maxTokens (sha384 pack) = false →
      (let used := s.j.coe.models.filter fun y => y.phase == .resident || y.phase == .draining
       lowestExtent (used.map fun y => (y.storeBase, y.instrs.length)) 2097152 (parseImage image).count = some sb ∧
       lowestExtent (used.map fun y => (y.constBase, y.constUnits)) 196608 (constUnitsOf (headerOf pack)) = some cb) →
      ∃ (k : Jenjor) (y : Model), exec .modelLoadDecryptComplete s
          = .next { s with j := k.complete c .success (BitVec.ofNat 64 (s.j.cat.seq + 1)) (BitVec.ofNat 64 m) none } ∧
        k.model? m = some y ∧ y.phase = .resident ∧ y.hdr = headerOf pack ∧ y.package = pack ∧ y.storeBase = sb ∧
        y.constBase = cb ∧ y.digests = (BitVec.ofNat 384 (leNat (sha384 pack)), BitVec.ofNat 384 (leNat (sha384 image))) ∧
        y.keySlot = x.keySlot ∧ y.loadSeq = s.j.cat.seq + 1 ∧
        k = { s.j with cat := { s.j.cat with seq := s.j.cat.seq + 1, objs := k.cat.objs },
                       coe := { s.j.coe with models := k.coe.models } })) ∧
  (∀ (s : State) (q : Nat) (f : Fetched) (j : Jenjor) (x : Model), s.takesCat q 0x4D [] f j → j.readOnlyNow = false →
    j.model? (dField f.d 8 1 % 8) = some x → x.phase = .resident → (∀ m ∈ j.coe.models, m.phase ≠ .draining) →
    j.modelIdle (dField f.d 8 1 % 8) = true →
    ∃ k : Jenjor, exec (.modelUnload q) s
        = .next { s with j := k.complete f.ref .success (BitVec.ofNat 64 (j.cat.seq + 1)) 0 none } ∧
      k.model? (dField f.d 8 1 % 8) = some emptyModel ∧ k.cat.seq = j.cat.seq + 1 ∧
      (∀ n, n ≠ dField f.d 8 1 % 8 → k.model? n = j.model? n) ∧
      k = { j with cat := k.cat, coe := { j.coe with models := k.coe.models } }) ∧
  (∀ (s : State) (q : Nat) (f : Fetched) (j : Jenjor) (x : Model), s.takesCat q 0x4D [] f j →
    j.model? (dField f.d 8 1 % 8) = some x → x.phase ≠ .resident →
    exec (.modelUnload q) s = .next { s with j := j.refuse f.ref .modelNotResident })

/-- R172, R173, R174, R178, R180, R181, R200, R201: a token query that passes its checks waits in a context; the next pass
takes the batch in order, builds its row table and starts its eight ranks; a pass whose ranks have all ended with every
output hands each request over and is counted; the watchdog abandons a pass, its model draining and its requests failed; a
core that fails gives its place to the spare. -/
def Obligations.EncoderPasses : Prop :=
  (∀ (s : State) (q : Nat) (op : List Byte) (f : Fetched) (j : Jenjor) (c : Coll), s.takesData q 0x11 f j →
    firstStatus (queryChecks j f.d op ++ j.tokenChecks f.d op) = none → j.liveColl? (dField f.d 4 2) = some c →
    4 ≤ j.activeCores → j.pairedIn 3 = false → (∀ x ∈ j.sw.ctxs, x.id ≠ j.sw.arrivals) →
    ∃ (t : State) (x : Ctx), exec (.queryTokens q op) s = .next t ∧ t.j.sw.ctxs = j.sw.ctxs ++ [x] ∧ x.id = j.sw.arrivals ∧
      x.ref = f.ref ∧ x.coll = dField f.d 4 2 ∧ x.phase = .encoding ∧ x.model = dField f.d 0x36 1 % 8 ∧ x.t0 = j.time ∧
      x.tokens = ((List.range (dField f.d 0x38 2)).map fun i => fieldAt op ((partsOf c f.d).vec + 4 * i) 4) ∧
      t = { s with j := { j with sw := { j.sw with ctxs := t.j.sw.ctxs, arrivals := j.sw.arrivals + 1 } } }) ∧
  (∀ (s : State) (q : Nat) (op : List Byte) (f : Fetched) (j : Jenjor) (st : Status), s.takesData q 0x11 f j →
    firstStatus (queryChecks j f.d op ++ j.tokenChecks f.d op) = some st →
    exec (.queryTokens q op) s
      = .next { s with j := (if st = .sequenceInvalid then j.count blkCOE 0x2000 else j).refuse f.ref st }) ∧
  (∀ (s : State) (m : Nat) (cs : List Ctx), s.j.live = true → s.j.coe.pass = none → s.j.isl.shedStep = 0 →
    4 ≤ s.j.activeCores → s.j.isl.whole = false → s.j.nextBatch = some (m, cs) →
    ∃ (t : State) (p : Pass), exec .passStart s = .next t ∧ t.j.coe.pass = some p ∧ p.model = m ∧
      p.reqs = (cs.map fun c => c.id) ∧ p.rows = rowTable cs ∧ p.padded = ceilDiv (rowTable cs).length 512 * 512 ∧
      p.ranks = ((List.range 8).map (startRank (rowTable cs) p.padded cs.length)) ∧ p.startTime = s.j.time ∧
      t.j.coe.rerun = none ∧ (∀ c ∈ t.j.sw.ctxs, c.id ∈ p.reqs → c.phase = .inPass) ∧
      t = { s with j := { s.j with coe := { s.j.coe with pass := some p, rerun := none, models := t.j.coe.models },
                                   sw := { s.j.sw with ctxs := t.j.sw.ctxs } } }) ∧
  (∀ (m : Nat) (cs : List Ctx), ∃ n, takeRequests m 0 0 cs = cs.take n ∧ n ≤ 1024 ∧
    natSum ((cs.take n).map fun c => c.tokens.length) ≤ m) ∧
  (∀ s : State, s.j.live = true → s.j.coe.pass.isSome = true ∨ s.j.isl.shedStep ≠ 0 ∨ s.j.activeCores < 4 →
    exec .passStart s = .next s) ∧
  (∀ (s : State) (p : Pass) (m : Model), s.j.live = true → s.j.coe.pass = some p → (∀ k ∈ p.ranks, k.ended = true) →
    missingOutputs p = [] → s.j.model? p.model = some m → p.model < 8 →
    ∃ k : Jenjor, exec .passComplete s
        = .next { s with j := (((List.range p.reqs.length).zip p.reqs).foldl (fun j x => j.handOver m p x.1 x.2) k).settleModels } ∧
      k.coe.pass = none ∧ (k.counter (0x71018 + p.model * 0x40)).count = (s.j.counter (0x71018 + p.model * 0x40)).count + 1 ∧
      (k.counter (0x71020 + p.model * 0x40)).count
        = (s.j.counter (0x71020 + p.model * 0x40)).count + BitVec.ofNat 48 p.reqs.length ∧
      k = { s.j with coe := { s.j.coe with pass := none }, ctrs := k.ctrs }) ∧
  (∀ (s : State) (p : Pass) (k : Rank), s.j.live = true → s.j.coe.pass = some p → k ∈ p.ranks → k.ended = false →
    exec .passComplete s = .next s) ∧
  (∀ (s : State) (p : Pass), s.j.live = true → s.j.coe.pass = some p →
    ∃ k : Jenjor, exec .passWatchdog s = .next { s with j := (k.failRequests p.model p.reqs .programFault).settleModels } ∧
      k.coe.pass = none ∧ (k.model? p.model).all (fun m => m.phase == .draining) = true ∧
      (k.counter 0x72018).count = (s.j.counter 0x72018).count + 1 ∧ k.log.head = s.j.log.head + 1 ∧
      (∀ (r : Nat) (x : Rank) (c : CoeCore), r < 8 → p.ranks[r]? = some x → x.ended = false →
        k.coe.cores[s.j.coreOfRank r]? = some c → c.faultValid = true) ∧
      k = { s.j with coe := k.coe, ctrs := k.ctrs, log := k.log }) ∧
  (∀ (s : State) (core sp : Nat) (c : CoeCore), s.j.live = true → core < 9 → s.j.coe.cores[core]? = some c → c.failed = false →
    c.active = true → s.j.coe.pass = none → sp ≠ core →
    ((List.range 9).find? fun k => k != core && (s.j.coe.cores[k]?).any fun x => x.spare && !x.failed) = some sp →
    5 ≤ s.j.activeCores →
    ∃ t, exec (.encoderCoreFailure core) s = .next t ∧
      t.j.coe.cores[core]? = some { c with failed := true, active := false, spare := false } ∧
      t.j.coe.cores[sp]? = (s.j.coe.cores[sp]?).map (fun x => { x with spare := false, active := true }) ∧
      t.j.log.errClass.getLsbD 1 = true ∧ s.j.log.head < t.j.log.head ∧ t.j.sw = s.j.sw ∧
      t.j.coe = { s.j.coe with cores := t.j.coe.cores }) ∧
  (∀ (s : State) (core : Nat), 9 ≤ core → exec (.encoderCoreFailure core) s = .fault .noSuchUnit)

/-- R187, R188, R195, R196, R197, R200: control instructions write only the scalar they name and the instruction
pointer: SETI loads OPC, ADDI, MULI and ANDI compute modulo 2^32, LOOP counts down and goes back, SKIPZ skips on zero,
FENCE goes on and logs its mark, END ends a stream whose forwards and receives have paired; LOOP on zero faults. And:
WLD brings COUNT panels of the package into the fill half; WRCV reserves fill panels for the forward from the rank
before, WFWD sends compute panels to the rank after, and the two pair by count; FLIP makes the fill half the compute
half once nothing of this rank is under way. -/
def Obligations.ProgramControlAndWeightPanels : Prop :=
  (∀ (s : State) (h : Here), standsAt s 0x00 h →
    exec (.nop h.r) s = .next (rankGoes s h { h.k with pc := h.k.pc + 1 } 0)) ∧
  (∀ (s : State) (h : Here), standsAt s 0x01 h → h.k.sends = [] → h.k.recvs = [] →
    exec (.endStream h.r) s = .next (rankGoes s h { h.k with ended := true } 0)) ∧
  (∀ (s : State) (h : Here), standsAt s 0x02 h →
    exec (.seti h.r) s = .next (rankGoes s h
      { h.k with pc := h.k.pc + 1, scalars := h.k.scalars.set (insD h.i) (BitVec.ofNat 32 (insC h.i)) } 0)) ∧
  (∀ (s : State) (h : Here),
    let v := h.k.scalars.getD (insS h.i) 0
    let c := BitVec.ofNat 32 (insC h.i)
    let goes := fun x => rankGoes s h { h.k with pc := h.k.pc + 1, scalars := h.k.scalars.set (insD h.i) x } 0
    (standsAt s 0x03 h → exec (.addi h.r) s = .next (goes (v + c))) ∧
    (standsAt s 0x04 h → exec (.muli h.r) s = .next (goes (v * c))) ∧
    (standsAt s 0x05 h → exec (.andi h.r) s = .next (goes (v &&& c)))) ∧
  (∀ (s : State) (h : Here), standsAt s 0x06 h →
    let v := h.k.scalars.getD (insD h.i) 0
    (v = 0 → exec (.loop h.r) s = .next { s with j := s.j.progFault [h.r] .loopZero }) ∧
    (v ≠ 0 → exec (.loop h.r) s = .next (rankGoes s h
      { h.k with pc := if v = 1 then h.k.pc + 1 else insC h.i, scalars := h.k.scalars.set (insD h.i) (v - 1) } 0))) ∧
  (∀ (s : State) (h : Here), standsAt s 0x07 h →
    exec (.skipz h.r) s = .next (rankGoes s h
      { h.k with pc := h.k.pc + (if h.k.scalars.getD (insD h.i) 0 = 0 then insC h.i else 0) + 1 } 0)) ∧
  (∀ (s : State) (h : Here), standsAt s 0x08 h →
    ∃ t, exec (.fence h.r) s = .next t ∧ t.j.coe = (rankGoes s h { h.k with pc := h.k.pc + 1 } 0).j.coe ∧
      t.j.log.head = s.j.log.head + 1 ∧ (t.j.log.trace.head?).map (fun r => (r.cls, r.blk, r.unit, r.addr)) = some (0, blkCOE, h.r, insCount h.i) ∧
      t = { s with j := { s.j with coe := t.j.coe, log := t.j.log, ctrs := t.j.ctrs } }) ∧
  (∀ (s : State) (r : Nat), s.j.live = true → s.j.coe.pass = none → r < 8 → exec (.nop r) s = .next s) ∧
  (∀ (s : State) (r : Nat), 8 ≤ r → exec (.nop r) s = .fault .noSuchUnit) ∧
  (∀ (s : State) (h : Here), standsAt s 0x10 h →
    let off := (insC h.i + h.scalar (insD h.i)) * 256
    let awaited := ∃ x ∈ h.k.recvs, insB h.i % 128 < x.2 + x.1 ∧ x.2 < insB h.i % 128 + insCount h.i
    (off + insCount h.i * 16384 ≤ h.m.package.length → insB h.i % 128 + insCount h.i ≤ 128 → ¬ awaited →
      ∃ k : Rank, exec (.wld h.r) s = .next (rankGoes s h k 0) ∧ k = { h.k with pc := h.k.pc + 1, fill := k.fill } ∧
        (∀ i, i < insCount h.i → k.fill.getD (insB h.i % 128 + i) none = some (bytesAt h.m.package (off + i * 16384) 16384)) ∧
        (∀ i, i < 128 → i < insB h.i % 128 ∨ insB h.i % 128 + insCount h.i ≤ i → k.fill.getD i none = h.k.fill.getD i none)) ∧
    (off + insCount h.i * 16384 ≤ h.m.package.length → insB h.i % 128 + insCount h.i ≤ 128 → awaited →
      exec (.wld h.r) s = .next s) ∧
    (h.m.package.length < off + insCount h.i * 16384 →
      exec (.wld h.r) s = .next { s with j := s.j.progFault [h.r] .address })) ∧
  (∀ (s : State) (h : Here), standsAt s 0x11 h → insB h.i % 128 + insCount h.i ≤ 128 →
    (h.p.ranks[(h.r + 7) % 8]?).all (fun a => a.sends.isEmpty) = true → h.p.ranks.length = 8 →
    ∃ k : Rank, exec (.wrcv h.r) s = .next (rankGoes s h k 0) ∧ k.recvs = h.k.recvs ++ [(insCount h.i, insB h.i % 128)] ∧
      (∀ i, i < insCount h.i → k.fill.getD (insB h.i % 128 + i) none = none) ∧
      k = { h.k with pc := h.k.pc + 1, fill := k.fill, recvs := k.recvs }) ∧
  (∀ (s : State) (h : Here) (b : Rank), standsAt s 0x12 h → h.p.ranks.length = 8 → h.k.sends = [] →
    h.p.ranks[(h.r + 1) % 8]? = some b →
    let ps := (List.range (insCount h.i)).filterMap fun i => h.k.compute.getD (insA h.i % 128 + i) none
    ps.length = insCount h.i →
    (b.recvs = [] → exec (.wfwd h.r) s = .next (rankGoes s h { h.k with pc := h.k.pc + 1, sends := [ps] } 0)) ∧
    (∀ (first : Nat), b.recvs = [(insCount h.i, first)] →
      exec (.wfwd h.r) s = .next (passGoes s { h.p with
        ranks := (h.p.ranks.set h.r { h.k with pc := h.k.pc + 1 }).set ((h.r + 1) % 8)
          { b with recvs := [], fill := (List.range 128).map fun i =>
              if first ≤ i ∧ i < first + insCount h.i then ps[i - first]? else b.fill.getD i none } } 0)) ∧
    (∀ (n first : Nat), b.recvs = [(n, first)] → n ≠ insCount h.i →
      exec (.wfwd h.r) s = .next { s with j := s.j.progFault [h.r, (h.r + 1) % 8] .pairing })) ∧
  (∀ (s : State) (h : Here), standsAt s 0x13 h →
    (h.k.sends = [] → h.k.recvs = [] → exec (.flipStage h.r) s = .next (rankGoes s h
      { h.k with pc := h.k.pc + 1, compute := h.k.fill, fill := List.replicate 128 none } 0)) ∧
    (h.k.sends ≠ [] ∨ h.k.recvs ≠ [] → exec (.flipStage h.r) s = .next s))

/-- R189, R190: ACLR clears its tiles to +0 and their slice indices; MMA adds to each accumulator of its tiles the slice sum
of its activation row and weight column and raises their slice indices, in slice order only; MOUT scales a tile, adds the
bias and rounds into the destination; QROW writes the rows' E4M3 codes under the least exponents and keeps those. -/
def Obligations.MatrixInstructions : Prop :=
  (∀ (s : State) (h : Here), standsAt s 0x20 h →
    ∃ k : Rank, exec (.aclr h.r) s = .next (rankGoes s h k 0) ∧ k = { h.k with pc := h.k.pc + 1, acc := k.acc, slices := k.slices } ∧
      (∀ t i, i < 16384 → k.acc.lookup (t * 16384 + i)
        = if insTile h.i ≤ t ∧ t < insTile h.i + insCount h.i then none else h.k.acc.lookup (t * 16384 + i)) ∧
      (∀ t, t < 32 → k.slices.getD t 0
        = if insTile h.i ≤ t ∧ t < insTile h.i + insCount h.i then 0 else h.k.slices.getD t 0)) ∧
  (∀ (s : State) (h : Here), standsAt s 0x21 h →
    let w := insMod h.i % 4 + 1
    let a8 := insMod h.i / 16 % 2 == 1
    let o := h.operand (insA h.i)
    let panel := fun i => h.k.compute.getD (insB h.i % 128 + i * (insB h.i / 256 % 128)) none
    h.fits o (if a8 then 0x400 else 0x800) = true → (∀ i, i < w → (panel i).isSome = true) →
    insTile h.i + w ≤ 32 →
    ((∀ i, i < w → h.k.slices.getD (insTile h.i + i) 0 = insCount h.i) →
      ∃ k : Rank, exec (.mma h.r) s = .next (rankGoes s h k 0) ∧ k = { h.k with pc := h.k.pc + 1, acc := k.acc, slices := k.slices } ∧
        (∀ i r c, i < w → r < 64 * (insMod h.i / 4 % 4 + 1) → c < 64 →
          accAt k (insTile h.i + i) r c
            = Fp.ofF32 (add32 (accAt h.k (insTile h.i + i) r c)
                (sliceSum (mmaRow h a8 o r) (panelColumn h.m.hdr.weight ((panel i).getD []) c))).toF32) ∧
        (∀ t r c, r < 256 → c < 64 → t < insTile h.i ∨ insTile h.i + w ≤ t ∨ 64 * (insMod h.i / 4 % 4 + 1) ≤ r →
          accAt k t r c = accAt h.k t r c) ∧
        (∀ i, i < w → k.slices.getD (insTile h.i + i) 0 = insCount h.i + 1)) ∧
    ((∃ i, i < w ∧ h.k.slices.getD (insTile h.i + i) 0 ≠ insCount h.i) →
      exec (.mma h.r) s = .next { s with j := s.j.progFault [h.r] .order })) ∧
  (∀ (s : State) (h : Here), standsAt s 0x22 h →
    let dst := h.operand (insB h.i)
    let scale := h.operand (insA h.i)
    let bias := h.operand (insC h.i)
    let nobias := insMod h.i / 4 % 2 == 1
    h.fits scale 1 = true → h.fits dst 0x200 = true → (nobias = false → h.fits bias 2 = true) →
    exec (.mout h.r) s = .next (rankGoes s h { h.putRows dst.2 1 ((List.range (insRows h.i)).map fun r =>
      (r, (List.range 64).map fun c =>
        (fma32 ((accAt h.k (insTile h.i) r c).scale (if insMod h.i / 8 % 2 == 1 then expAt h.k (insS h.i) r else 0))
          (h.f32Of scale 0) (if nobias then Fp.zero else h.actAt bias (2 * c))).round h.act)) with pc := h.k.pc + 1 } 0)) ∧
  (∀ (s : State) (h : Here), standsAt s 0x23 h → Memory.wf h.k.mem = true →
    let n := insCount h.i
    let src := h.operand (insA h.i)
    let dst := h.operand (insB h.i)
    h.fits src (n * 0x800) = true → h.fits dst (n * 0x400) = true →
    ∃ k : Rank, exec (.qrow h.r) s = .next (rankGoes s h k 0) ∧ k = { h.k with pc := h.k.pc + 1, mem := k.mem, exps := k.exps } ∧
      (∀ r, r < 256 →
        let xs := h.row src (4 * n) r (256 * n)
        expAt k (insS h.i) r = (a8Exponent xs).getD (Config.rowExponent (xs.map Fp.toF32))) ∧
      (∀ r c, r < 256 → c < 256 * n →
        Memory.read k.mem (dst.2 * 64 + Here.off8 (4 * n) r c)
          = BitVec.ofNat 8 (((h.actAt src (Here.off16 (4 * n) r c)).scale (-(expAt k (insS h.i) r))).toBits fmtE4M3)) ∧
      (∀ a, a < dst.2 * 64 ∨ dst.2 * 64 + n * 65536 ≤ a → Memory.read k.mem a = Memory.read h.k.mem a))

/-- R183, R186, R191, R192: GATH gathers token rows, NORM normalises, GELU, ADDV and MULV work element by element, ROPE
rotates, ATTN attends within each sequence and clears its four tiles: each writes only the rows of its destination (and
ATTN its tiles) once every operand lies in its region, and faults with ADDRESS otherwise. And: a row that is put into a
rank's data region reads back element by element, and no byte outside the column quarters of those rows changes. -/
def Obligations.RowInstructions : Prop :=
  (∀ (s : State) (h : Here), standsAt s 0x30 h →
    let n := 64 * insCount h.i
    let q := h.m.hdr.width / 64
    let dst := h.operand (insA h.i)
    let rows := (List.range n).map fun i => (i, gathRow h (h.info (h.r * h.rankRows + h.scalar (insS h.i) + i)))
    h.fits dst (h.m.hdr.rowUnits n) = true →
    ((∀ x ∈ rows, x.2.isSome = true) → exec (.gath h.r) s
      = .next (rankGoes s h { h.putRows dst.2 q (rows.map fun x => (x.1, x.2.getD [])) with pc := h.k.pc + 1 } 0)) ∧
    ((∃ x ∈ rows, x.2 = none) → exec (.gath h.r) s = .next { s with j := s.j.progFault [h.r] .address })) ∧
  (∀ (s : State) (h : Here),
    let n := insCount h.i
    let a := h.operand (insA h.i)
    let b := h.operand (insB h.i)
    let c := h.operand (insC h.i)
    let goes := fun (k : Rank) => rankGoes s h { k with pc := h.k.pc + 1 } 0
    h.fits a (n * 0x800) = true → h.fits b (n * 0x800) = true →
    (standsAt s 0x31 h → h.fits c (n * 16) = true → exec (.norm h.r) s = .next (goes
      (rowWise h (insRows h.i) a b (layerNorm h.act (Fp.ofF32 h.m.hdr.eps) ((List.range (256 * n)).map fun i => h.actAt c (2 * i))
        ((List.range (256 * n)).map fun i => h.actAt c (512 * n + 2 * i)))))) ∧
    (standsAt s 0x32 h → exec (.gelu h.r) s = .next (goes (rowWise h (insRows h.i) a b fun xs => xs.map (gelu h.act)))) ∧
    (standsAt s 0x33 h → h.fits c (n * 0x800) = true → exec (.addv h.r) s
      = .next (goes (rowWise2 h (insRows h.i) a b c fun x y => (add32 x y).round h.act))) ∧
    (standsAt s 0x34 h → h.fits c (n * 0x800) = true → exec (.mulv h.r) s
      = .next (goes (rowWise2 h (insRows h.i) a b c fun x y => (mul32 x y).round h.act)))) ∧
  (∀ (s : State) (h : Here), standsAt s 0x35 h →
    let n := insCount h.i
    let a := h.operand (insA h.i)
    let b := h.operand (insB h.i)
    let t := h.operand (insC h.i)
    h.fits a (n * 0x800) = true → h.fits b (n * 0x800) = true →
    h.fits t (2 * h.m.hdr.rotaryUnits) = true →
    ∃ rows : List (Nat × List Fp), exec (.rope h.r) s
        = .next (rankGoes s h { h.putRows b.2 (4 * n) rows with pc := h.k.pc + 1 } (2 * 65536 * n)) ∧
      rows.map (fun x => x.1) = List.range 256 ∧
      ∀ r x, r < 256 → h.info (h.scalar (insS h.i) + r) = some x →
        rows[r]? = some (r, ropeRow h t x.pos (h.row a (4 * n) r (256 * n)))) ∧
  (∀ (s : State) (h : Here), standsAt s 0x38 h →
    let hd := h.m.hdr.headDim
    let b := h.scalar (insD h.i)
    let n := 256 * insCount h.i
    let oq := h.operand (insA h.i)
    let ok := h.operand (insB h.i)
    let ov := h.operand (insC h.i)
    let len := fun (x : RowInfo) => (h.p.rows.filter fun y => y.seq == x.seq).length
    h.fits oq (insCount h.i * (hd * 8)) = true → h.fits ok (insCount h.i * (hd * 8)) = true →
    h.fits ov (insCount h.i * (hd * 8)) = true →
    ((∀ i x, i < n → h.info (b + i) = some x → b ≤ b + i - x.pos ∧ b + i - x.pos + len x ≤ b + n) →
      exec (.attn h.r) s = .next (rankGoes s h { clearTiles (h.putRows oq.2 (hd / 64) ((List.range n).map fun i =>
        match h.info (b + i) with
        | none => (i, List.replicate hd Fp.zero)
        | some x => (i, attnRow h b (hd / 64) (len x) (ok, ov) (h.row oq (hd / 64) i hd) (b + i - x.pos))))
        (insTile h.i) 4 with pc := h.k.pc + 1 } 0)) ∧
    ((∃ i x, i < n ∧ h.info (b + i) = some x ∧ (b + i - x.pos < b ∨ b + n < b + i - x.pos + len x)) →
      exec (.attn h.r) s = .next { s with j := s.j.progFault [h.r] .seqSplit })) ∧
  (∀ (s : State) (h : Here), h.fits (h.operand (insA h.i)) (insCount h.i * 0x800) = false →
    let fault := { s with j := s.j.progFault [h.r] .address }
    (standsAt s 0x31 h → exec (.norm h.r) s = .next fault) ∧ (standsAt s 0x32 h → exec (.gelu h.r) s = .next fault) ∧
    (standsAt s 0x33 h → exec (.addv h.r) s = .next fault) ∧ (standsAt s 0x34 h → exec (.mulv h.r) s = .next fault) ∧
    (standsAt s 0x35 h → exec (.rope h.r) s = .next fault) ∧ (standsAt s 0x23 h → exec (.qrow h.r) s = .next fault)) ∧
  (∀ (h : Here) (u q n w : Nat) (f : Nat → Nat → Fp), Memory.wf h.k.mem = true → w ≤ 64 * q →
    let k := h.putRows u q ((List.range n).map fun r => (r, (List.range w).map (f r)))
    (∀ r c, r < n → c < w → Memory.readBytes k.mem (u * 64 + Here.off16 q r c) 2 = leBytes 2 ((f r c).toWord16 h.act).toNat) ∧
    (∀ a, (∀ r c, r < n → c < w → a ≠ u * 64 + Here.off16 q r c ∧ a ≠ u * 64 + Here.off16 q r c + 1) →
      Memory.read k.mem a = Memory.read h.k.mem a) ∧
    k = { h.k with mem := k.mem })

/-- R198, R199, R200: a rank reaches a collective once its forwards and receives have paired, and before the others waits in it; the last to arrive releases all eight,
after XALL has exchanged the blocks and POOL has pooled each sequence where it ends; collectives that differ fault every
rank; EMIT hands the pass its rank's outputs, once of each kind. -/
def Obligations.CollectivesAndOutput : Prop :=
  (∀ (s : State) (h : Here) (op : Nat) (c : Instr), standsAt s op h → h.p.ranks.length = 8 →
    h.k.sends = [] → h.k.recvs = [] →
    (op = 0x09 ∧ c = .bar h.r ∨ op = 0x39 ∧ c = .pool h.r ∨ op = 0x3A ∧ c = .xall h.r) →
    (∃ (r : Nat) (k : Rank), r ≠ h.r ∧ h.p.ranks[r]? = some k ∧ k.coll = none) →
    exec c s = .next (rankGoes s h { h.k with coll := some (collectiveOf h) } 0)) ∧
  (∀ (s : State) (h : Here), standsAt s 0x09 h → h.p.ranks.length = 8 → h.k.sends = [] → h.k.recvs = [] →
    (∀ (r : Nat) (k : Rank), r ≠ h.r → h.p.ranks[r]? = some k → k.coll.any (alike (collectiveOf h)) = true) →
    ∃ p : Pass, exec (.bar h.r) s = .next (passGoes s p 0) ∧ p = { h.p with ranks := p.ranks } ∧ p.ranks.length = 8 ∧
      ∀ (r : Nat) (k : Rank), h.p.ranks[r]? = some k → p.ranks[r]? = some { k with pc := k.pc + 1, coll := none }) ∧
  (∀ (s : State) (h : Here) (op : Nat) (c : Instr), standsAt s op h → h.k.sends ≠ [] ∨ h.k.recvs ≠ [] →
    (op = 0x09 ∧ c = .bar h.r ∨ op = 0x39 ∧ c = .pool h.r ∨ op = 0x3A ∧ c = .xall h.r) → exec c s = .next s) ∧
  (∀ (s : State) (h : Here) (op r : Nat) (c : Instr) (k : Rank), standsAt s op h → h.p.ranks.length = 8 →
    h.k.sends = [] → h.k.recvs = [] →
    (op = 0x09 ∧ c = .bar h.r ∨ op = 0x39 ∧ c = .pool h.r ∨ op = 0x3A ∧ c = .xall h.r) →
    (∀ (n : Nat) (x : Rank), n ≠ h.r → h.p.ranks[n]? = some x → x.coll.isSome = true) → r ≠ h.r → h.p.ranks[r]? = some k →
    k.coll.any (alike (collectiveOf h)) = false →
    exec c s = .next { s with j := s.j.progFault (List.range 8) .collective }) ∧
  (∀ (s : State) (h : Here), h.p.ranks.length = 8 → h.k.sends = [] → h.k.recvs = [] →
    (∀ (r : Nat) (k : Rank), r ≠ h.r → h.p.ranks[r]? = some k → k.coll.any (alike (collectiveOf h)) = true) →
    let p := { h.p with ranks := h.p.ranks.set h.r { h.k with coll := some (collectiveOf h) } }
    let at_ := fun r => h.at_ p r
    (standsAt s 0x3A h →
      (∀ r, r < 8 → (at_ r).fits ((at_ r).operand (insA (at_ r).i)) (8 * insC h.i) = true ∧
        (at_ r).fits ((at_ r).operand (insB (at_ r).i)) (8 * insC h.i) = true) → (∀ k ∈ h.p.ranks, Memory.wf k.mem = true) →
      ∃ p' : Pass, exec (.xall h.r) s = .next (passGoes s p' 0) ∧ p' = { h.p with ranks := p'.ranks } ∧ p'.ranks.length = 8 ∧
        ∀ (d : Nat) (k : Rank), h.p.ranks[d]? = some k → ∃ k' : Rank, p'.ranks[d]? = some k' ∧ k' = { k with pc := k.pc + 1, coll := none, mem := k'.mem } ∧
          (∀ src b, src < 8 → b < insC h.i * 64 →
            Memory.read k'.mem (((at_ d).operand (insB (at_ d).i)).2 * 64 + src * insC h.i * 64 + b)
              = (at_ src).byteOf ((at_ src).operand (insA (at_ src).i)) (d * insC h.i * 64 + b)) ∧
          (∀ a, a < ((at_ d).operand (insB (at_ d).i)).2 * 64 ∨ ((at_ d).operand (insB (at_ d).i)).2 * 64 + 8 * insC h.i * 64 ≤ a →
            Memory.read k'.mem a = Memory.read k.mem a)) ∧
    (standsAt s 0x39 h →
      (∀ r, r < 8 → (at_ r).fits ((at_ r).operand (insA (at_ r).i)) (ceilDiv (at_ r).rankRows 256 * (insCount h.i * 0x800)) = true ∧
        (at_ r).fits ((at_ r).operand (insB (at_ r).i)) (ceilDiv (seqsEnding (at_ r)).length 256 * (insCount h.i * 0x800)) = true) →
      ∃ p' : Pass, exec (.pool h.r) s = .next (passGoes s p' 0) ∧ p' = { h.p with ranks := p'.ranks } ∧ p'.ranks.length = 8 ∧
        ∀ d, d < 8 →
          let rows := ((List.range (seqsEnding (at_ d)).length).zip (seqsEnding (at_ d))).map fun y =>
            (y.1, (List.range (256 * insCount h.i)).map fun c => poolElement h.act h.m.hdr.pooling (y.2.2.map fun t =>
              let x := at_ (t / h.rankRows)
              (x.row (x.operand (insA x.i)) (4 * insCount h.i) (t % h.rankRows) (256 * insCount h.i)).getD c Fp.zero))
          p'.ranks[d]? = some { (at_ d).putRows ((at_ d).operand (insB (at_ d).i)).2 (4 * insCount h.i) rows with
            pc := (at_ d).k.pc + 1, coll := none })) ∧
  (∀ (s : State) (h : Here), standsAt s 0x3B h → insMod h.i % 2 = 0 → h.k.emittedPooled = false →
    h.fits (h.operand (insA h.i)) (ceilDiv (seqsEnding h).length 256 * (insCount h.i * 0x800)) = true →
    let vs := ((List.range (seqsEnding h).length).zip (seqsEnding h)).map fun y =>
      (y.2.1, outRow h (h.operand (insA h.i)) (insCount h.i) y.1)
    exec (.emit h.r) s = .next (passGoes s
      { h.p with ranks := h.p.ranks.set h.r { h.k with pc := h.k.pc + 1, emittedPooled := true }, pooled := h.p.pooled ++ vs }
      0)) ∧
  (∀ (s : State) (h : Here), standsAt s 0x3B h → insMod h.i % 2 = 1 → h.k.emittedTokens = false →
    h.fits (h.operand (insA h.i)) (ceilDiv h.rankRows 256 * (insCount h.i * 0x800)) = true →
    let vs := (List.range h.rankRows).filterMap fun i => (h.info (h.r * h.rankRows + i)).bind fun x =>
      if x.wantTokens then some (x.seq, x.pos, outRow h (h.operand (insA h.i)) (insCount h.i) i) else none
    exec (.emit h.r) s = .next (passGoes s
      { h.p with ranks := h.p.ranks.set h.r { h.k with pc := h.k.pc + 1, emittedTokens := true }, tokvecs := h.p.tokvecs ++ vs }
      0)) ∧
  (∀ (s : State) (h : Here), standsAt s 0x3B h → (if insMod h.i % 2 = 1 then h.k.emittedTokens else h.k.emittedPooled) = true →
    exec (.emit h.r) s = .next { s with j := s.j.progFault [h.r] .output })

/-- R14, R75, R421: a cluster planned out of service, by event or by ISL_CTL.RETIRE of its transit island, leaves at the next
boundary of the ring that sweeps on it, or at once, and its spare takes its place; a cluster that fails leaves at once,
logged in classes 2 and 3; a spare or idle cluster that fails is only marked; ISL_CTL.RETIRE of another island does
nothing. -/
def Obligations.ClustersOutOfService : Prop :=
  (∀ (s : State) (c : Nat) (x : Cluster), s.j.live = true → c < 18 → s.j.cluster? c = some x → x.active = true →
    x.failed = false → x.retiring = false → x.spare = false → s.j.ringHolding c = none →
    ∃ k : Jenjor,
      exec (.clusterPlannedRetire c) s = .next { s with j := (k.fault 3 blkMER c 0xFFFF 0 0 0).gateRetired.reassign } ∧
      exec (.islRetire (c + 7)) s = .next { s with j := (k.fault 3 blkMER c 0xFFFF 0 0 0).gateRetired.reassign } ∧
      k.cluster? c = some { x with retiring := true } ∧
      (∀ n, s.j.spareFor c = some n → (k.cluster? n).all (fun y => y.active && !y.spare) = true) ∧
      k = { s.j with sw := { s.j.sw with clusters := k.sw.clusters, rings := k.sw.rings } }) ∧
  (∀ (s : State) (c : Nat) (x : Cluster) (r : Ring), s.j.live = true → c < 18 → s.j.cluster? c = some x → x.active = true →
    x.failed = false → x.retiring = false → x.spare = false → s.j.ringHolding c = some r → s.j.ring? r.num = some r →
    sweeping r = true → c ∈ r.clusters → c ∉ r.leaving →
    ∃ (k : Jenjor) (r' : Ring),
      exec (.clusterPlannedRetire c) s = .next { s with j := (k.fault 3 blkMER c 0xFFFF 0 0 0).gateRetired.reassign } ∧
      exec (.islRetire (c + 7)) s = .next { s with j := (k.fault 3 blkMER c 0xFFFF 0 0 0).gateRetired.reassign } ∧
      k.cluster? c = some { x with retiring := true } ∧ k.ring? r.num = some r' ∧
      r' = { r with joining := r.joining.filter (· != c) ++ (s.j.spareFor c).toList, leaving := r.leaving ++ [c],
                    period := r'.period } ∧
      k = { s.j with sw := { s.j.sw with clusters := k.sw.clusters, rings := k.sw.rings } }) ∧
  (∀ (s : State) (c : Nat) (x : Cluster), s.j.live = true → c < 18 → s.j.cluster? c = some x → x.active = false →
    exec (.clusterHardFault c) s = .next { s with j := s.j.mapCluster c fun x => { x with failed := true, spare := false } }) ∧
  (∀ (s : State) (c : Nat) (x : Cluster), s.j.live = true → c < 18 → s.j.cluster? c = some x → x.active = true →
    x.failed = false → x.home = none → ringsServed x = [] → x.admq = [] → s.j.ringHolding c = none →
    ∃ k : Jenjor, exec (.clusterHardFault c) s = .next { s with j := (k.bringSpare c none).reassign } ∧
      k.cluster? c = some { x with failed := true, active := false, retiring := false, home := none, groups := [],
                                   admq := [], specq := [] } ∧
      k.log.errClass.getLsbD 0 = true ∧ k.log.errClass.getLsbD 1 = true ∧ s.j.log.head + 2 ≤ k.log.head ∧
      k.sw = { s.j.sw with clusters := k.sw.clusters, rings := k.sw.rings } ∧ k.cat = s.j.cat) ∧
  (∀ (s : State) (c : Nat), 18 ≤ c → exec (.clusterHardFault c) s = .fault .noSuchUnit ∧
    exec (.clusterPlannedRetire c) s = .fault .noSuchUnit) ∧
  (∀ (s : State) (isl : Nat), (isl < 7 ∨ 25 ≤ isl ∧ isl < 29 → exec (.islRetire isl) s = .next s) ∧
    (29 ≤ isl → exec (.islRetire isl) s = .fault .noSuchUnit))

/-- R298, R304, R305, R308, R309, R422, R425: the traffic generator takes a channel that may be tested out of its state and
gives it back, counting the differences it saw, and any other START is discarded and counted; a retried access is counted
and logged, and marks the channel past its rate, and one that fails all its retries loses its plate or poisons its burst; a
marked channel retrains, and one whose margin is below 0.25 UI or that was marked twice in a second begins a planned
substitution; a substitution gives the spare the channel's logical index and retires the channel; a channel that is lost
quarantines the plates of sweep memory, or with no spare fails the module. -/
def Obligations.MemoryChannels : Prop :=
  (∀ (s : State) (ch : Nat) (c : Chan), s.j.live = true → ch < 84 → s.j.chan? ch = some c →
    (c.busy = false → c.pattern.toNat ≤ 5 → s.j.tgAllowed ch c = true →
      exec (.tgStart ch) s
        = .next { s with j := s.j.mapChan ch fun c => { c with busy := true, back := c.state, state := .testing } }) ∧
    (c.busy = true ∨ 5 < c.pattern.toNat ∨ s.j.tgAllowed ch c = false → ∃ t, exec (.tgStart ch) s = .next t ∧
      (t.j.counter 0xF0020).count = (s.j.counter 0xF0020).count + 1 ∧
      t = { s with j := { s.j with ctrs := t.j.ctrs, log := t.j.log } }) ∧
    (c.busy = true → exec (.tgStop ch) s
      = .next { s with j := s.j.mapChan ch fun c => if c.busy then { c with busy := false, done := true, state := c.back } else c }) ∧
    (c.busy = true → ∀ (diffs : Nat) (pins : BitVec 32), ∃ t, exec (.tgPassComplete ch diffs pins) s = .next t ∧
      t.j.chan? ch = some (if c.loop then { c with errPins := c.errPins ||| pins }
        else { c with errPins := c.errPins ||| pins, busy := false, done := true, state := c.back }) ∧
      (t.j.counter (0x81028 + ch * 0x40)).count = (s.j.counter (0x81028 + ch * 0x40)).count + BitVec.ofNat 48 diffs ∧
      (∀ r, s.j.mem.rims[ch / 21]? = some r →
        t.j.mem.rims[ch / 21]? = some { r with spareFailed := r.spareFailed || (diffs != 0 && ch % 21 == 20) }) ∧
      t = { s with j := { s.j with mem := { s.j.mem with chans := t.j.mem.chans, rims := t.j.mem.rims }, ctrs := t.j.ctrs } })) ∧
  (∀ (s : State) (ch : Nat) (overRate : Bool), s.j.live = true → ch < 84 →
    let mark := fun (c : Chan) =>
      { c with marked := true, again := c.markAt.any fun t => s.j.time ≤ t + 1000000000, markAt := some s.j.time }
    (∃ t, exec (.channelAccessRetry ch none overRate) s = .next t ∧
      (t.j.counter (0x81018 + ch * 0x40)).count = (s.j.counter (0x81018 + ch * 0x40)).count + 1 ∧
      t.j.log.head = s.j.log.head + 1 ∧ t.j.mem.chans = (if overRate then s.j.mem.chans.modify ch mark else s.j.mem.chans) ∧
      t = { s with j := { s.j with ctrs := t.j.ctrs, log := t.j.log, mem := { s.j.mem with chans := t.j.mem.chans } } }) ∧
    (∀ (burst pid l : Nat) (c : Chan), burst < 2097152 → s.j.chan? ch = some c → c.logical = some l →
      ∃ k : Jenjor, exec (.channelAccessRetry ch (some (burst, .plate pid)) overRate) s = .next { s with j := k.plateLoss pid } ∧
        (k.counter (0x81018 + ch * 0x40)).count = (s.j.counter (0x81018 + ch * 0x40)).count + 1 ∧
        k.mem.chans = s.j.mem.chans.modify ch mark ∧
        k = { s.j with ctrs := k.ctrs, log := k.log, mem := { s.j.mem with chans := k.mem.chans } }) ∧
    (∀ (burst l o off w a : Nat) (c : Chan), burst < 2097152 → s.j.chan? ch = some c → c.logical = some l → w < 32 →
      codeWordAt l burst w = some a → (s.j.physChannel (poolChannel a)).isSome = true →
      ∃ t, exec (.channelAccessRetry ch (some (burst, .tile o off none)) overRate) s = .next t ∧
        (∃ x ∈ t.j.mem.poison, x.1 = a / 64) ∧ t.j.cat = s.j.cat ∧ t.mem = s.mem)) ∧
  (∀ (s : State) (ch margin : Nat) (c : Chan), s.j.live = true → ch < 84 → s.j.chan? ch = some c →
    (c.marked = true → c.state = .serving → 64 ≤ margin → c.again = false →
      ∃ t, exec (.channelRetrain ch margin true) s = .next t ∧ t.j.chan? ch = some { c with marked := false, margin := margin } ∧
        t = { s with j := { s.j with ctrs := t.j.ctrs, log := t.j.log, mem := { s.j.mem with chans := t.j.mem.chans } } }) ∧
    (c.marked = false ∨ c.state ≠ .serving → ∀ trained, exec (.channelRetrain ch margin trained) s = .next s) ∧
    (c.marked = true → c.state = .serving → margin < 64 ∨ c.again = true → c.logical.isSome = true → ch % 21 ≠ 20 →
      s.j.spareReady (ch / 21) = true → ∀ r, s.j.mem.rims[ch / 21]? = some r → r.shadow = none →
      ∃ t, exec (.channelRetrain ch margin true) s = .next t ∧ t.j.mem.rims[ch / 21]? = some { r with shadow := some ch } ∧
        t.j.chan? ch = some { c with marked := false, again := false, margin := margin })) ∧
  (∀ (s : State) (ch : Nat) (c x : Chan) (r : Rim), s.j.live = true → ch < 84 → s.j.chan? ch = some c →
    s.j.mem.rims[ch / 21]? = some r → s.j.chan? (spareOf (ch / 21)) = some x →
    (c.logical.isSome = true → r.shadow = none → s.j.spareReady (ch / 21) = true →
      ∃ t, exec (.channelSubstitutionStart ch) s = .next t ∧ t.j.mem.rims[ch / 21]? = some { r with shadow := some ch } ∧
        t.j.chan? (spareOf (ch / 21)) = some (if x.busy then { x with busy := false, done := true, state := x.back } else x) ∧
        (∀ n, n ≠ spareOf (ch / 21) → t.j.chan? n = s.j.chan? n) ∧
        t = { s with j := { s.j with ctrs := t.j.ctrs, log := t.j.log,
                                     mem := { s.j.mem with chans := t.j.mem.chans, rims := t.j.mem.rims } } }) ∧
    (c.logical = none ∨ r.shadow.isSome = true ∨ s.j.spareReady (ch / 21) = false →
      exec (.channelSubstitutionStart ch) s = .next s)) ∧
  (∀ (s : State) (rim ch : Nat) (c x : Chan) (r : Rim), s.j.live = true → rim < 4 → s.j.mem.rims[rim]? = some r →
    r.shadow = some ch → ch / 21 = rim → ch % 21 ≠ 20 → s.j.chan? ch = some c → s.j.chan? (spareOf rim) = some x →
    ∃ t, exec (.channelSubstitutionComplete rim) s = .next t ∧
      t.j.chan? ch = some { c with state := .retired, logical := none, marked := false } ∧
      t.j.chan? (spareOf rim) = some { x with state := .serving, logical := c.logical, busy := false } ∧
      t.j.mem.rims[rim]? = some { r with spareUsed := true, spareFor := c.logical.getD 0 % 20, shadow := none } ∧
      t.j.log.errClass.getLsbD 1 = true ∧ t.j.cat = s.j.cat ∧ t.mem = s.mem) ∧
  (∀ (s : State) (ch : Nat) (c x : Chan), s.j.live = true → ch < 84 → ch % 21 ≠ 20 → s.j.chan? ch = some c →
    c.logical.isSome = true → (∀ r ∈ s.j.sw.rings, r.defn = none) → s.j.chan? (spareOf (ch / 21)) = some x →
    s.j.spareReady (ch / 21) = true →
    ∃ t, exec (.channelLost ch) s = .next t ∧
      t.j.chan? ch = some { c with state := .retired, logical := none, marked := false } ∧
      t.j.chan? (spareOf (ch / 21)) = some { x with state := .serving, logical := c.logical, busy := false } ∧
      t.j.cat.plates = (s.j.cat.plates.map fun p => if s.j.inSweepMemory p then { p with quarantined := true } else p) ∧
      t.j.log.errClass.getLsbD 0 = true ∧ t.j.log.errClass.getLsbD 1 = true ∧ t.j.isl.whole = s.j.isl.whole) ∧
  (∀ (s : State) (ch : Nat) (c : Chan), s.j.live = true → ch < 84 → s.j.chan? ch = some c → c.logical.isSome = true →
    s.j.spareReady (ch / 21) = false → s.j.isl.whole = false → (∀ r ∈ s.j.sw.rings, r.defn = none) →
    ∃ k : Jenjor, exec (.channelLost ch) s = .next { s with j := k.wholeFault blkMEM ch 0xFFFF } ∧
      k.chan? ch = some { c with state := .retired, logical := none, marked := false } ∧ k.log.errClass.getLsbD 0 = true)

/-- R293, R295, R303, R305, R306, R418, R422: a code word read with its check bytes is counted on the channel of its pool
address, corrected or uncorrectable; of the uncorrectable, one of the key directory is rebuilt from its master and one of a
plate loses that plate; a refresh counts the cycles a fill waited and marks a channel that drifts; the patrol scrub counts
what it corrects and its passes, and loses the plate that it cannot correct; a flit replay is counted, and a link over its
rate takes a spare lane. -/
def Obligations.CodeWordsAndReplays : Prop :=
  (∀ (s : State) (addr ch : Nat) (word : List Byte) (what : PoolObject), s.j.live = true → addr < 322122547200 → word.length = 68 →
    s.j.physChannel (addr / 2048 % 80) = some ch → s.j.see.arm = false → (∀ x ∈ s.j.mem.poison, x.1 ≠ addr / 64) →
    (decodeWord word = .clean → exec (.uncorrectableCodeWord addr word what) s = .next s) ∧
    (∀ w, decodeWord word = .corrected w → ∃ t, exec (.uncorrectableCodeWord addr word what) s = .next t ∧
      (t.j.counter (0x81008 + ch * 0x40)).count = (s.j.counter (0x81008 + ch * 0x40)).count + 1 ∧
      t.j.log.head = s.j.log.head + 1 ∧ t = { s with j := { s.j with ctrs := t.j.ctrs, log := t.j.log } }) ∧
    (∀ n, decodeWord word = .uncorrectable → what = .directory n → s.j.mem.poison = [] →
      ∃ t, exec (.uncorrectableCodeWord addr word what) s = .next t ∧
        (t.j.counter (0x81010 + ch * 0x40)).count = (s.j.counter (0x81010 + ch * 0x40)).count + 1 ∧
        t.j.log.head = s.j.log.head + 1 ∧ t = { s with j := { s.j with ctrs := t.j.ctrs, log := t.j.log } }) ∧
    (∀ pid, decodeWord word = .uncorrectable → what = .plate pid →
      ∃ k : Jenjor, exec (.uncorrectableCodeWord addr word what) s = .next { s with j := k.plateLoss pid } ∧
        (k.counter (0x81010 + ch * 0x40)).count = (s.j.counter (0x81010 + ch * 0x40)).count + 1 ∧
        k.mem = { s.j.mem with poison := (addr / 64, .plate pid) :: s.j.mem.poison } ∧ k.log.errClass.getLsbD 0 = true ∧
        k.cat = s.j.cat ∧ k.sw = s.j.sw)) ∧
  (∀ (s : State) (ch n : Nat) (drift : Bool), s.j.live = true → ch < 84 →
    let mark := fun (c : Chan) =>
      { c with marked := true, again := c.markAt.any fun t => s.j.time ≤ t + 1000000000, markAt := some s.j.time }
    exec (.refresh ch drift n none) s = .next { s with j := if drift then s.j.mapChan ch mark else s.j }) ∧
  (∀ (s : State) (ch cycles c g : Nat), s.j.live = true → ch < 84 → c < 18 → 0 < cycles →
    ∃ t, exec (.refresh ch false cycles (some (c, g))) s = .next t ∧
      (t.j.counter (0x24028 + c * 0x40)).count = (s.j.counter (0x24028 + c * 0x40)).count + BitVec.ofNat 48 cycles ∧
      (∀ a, a ≠ 0x24028 + c * 0x40 → t.j.counter a = s.j.counter a) ∧ t = { s with j := { s.j with ctrs := t.j.ctrs } }) ∧
  (∀ (s : State) (ch burst : Nat) (c : Chan) (passDone : Bool), s.j.live = true → ch < 84 → burst < 2097152 →
    s.j.chan? ch = some c →
    (c.logical = none → ∀ words bad, (∀ x ∈ words, x.1 < 32 ∧ x.2.1.length = 68) →
      exec (.patrolScrubRead ch burst words bad passDone) s = .next s) ∧
    (c.logical.isSome = true → ∃ t, exec (.patrolScrubRead ch burst [] [] passDone) s = .next t ∧
      (t.j.counter 0x80018).count = (s.j.counter 0x80018).count + (if passDone then 1 else 0) ∧
      t = { s with j := { s.j with ctrs := t.j.ctrs } }) ∧
    (∀ (l w a p : Nat) (word : List Byte) (what : PoolObject), w < 32 → word.length = 68 → c.logical = some l → codeWordAt l burst w = some a →
      s.j.physChannel (poolChannel a) = some p → (∀ x ∈ s.j.mem.poison, x.1 ≠ a / 64) →
      (∀ v, decodeWord word = .corrected v →
        ∃ t, exec (.patrolScrubRead ch burst [(w, word, what)] [] passDone) s = .next t ∧
          (t.j.counter (0x81008 + p * 0x40)).count = (s.j.counter (0x81008 + p * 0x40)).count + 1 ∧
          (t.j.counter 0x80018).count = (s.j.counter 0x80018).count + (if passDone then 1 else 0) ∧
          t = { s with j := { s.j with ctrs := t.j.ctrs, log := t.j.log } }) ∧
      (∀ pid, decodeWord word = .uncorrectable → what = .plate pid →
        ∃ k : Jenjor, exec (.patrolScrubRead ch burst [(w, word, what)] [] false) s = .next { s with j := k.plateLoss pid } ∧
          (k.counter (0x81010 + p * 0x40)).count = (s.j.counter (0x81010 + p * 0x40)).count + 1 ∧
          k.mem = { s.j.mem with poison := (a / 64, .plate pid) :: s.j.mem.poison } ∧ k.cat = s.j.cat))) ∧
  (∀ (s : State) (b : Nat) (overRate : Bool), s.j.live = true → b < 22 → s.j.see.arm = false → s.j.isl.d2d.getD b 0 < 2 →
    ∃ t, exec (.d2dFlitReplay b overRate) s = .next t ∧
      (t.j.counter (0xD1008 + b * 0x10)).count = (s.j.counter (0xD1008 + b * 0x10)).count + 1 ∧
      t.j.isl.d2d = (if overRate then s.j.isl.d2d.modify b (· + 1) else s.j.isl.d2d) ∧
      t = { s with j := { s.j with ctrs := t.j.ctrs, log := t.j.log, isl := { s.j.isl with d2d := t.j.isl.d2d } } }) ∧
  (∀ (s : State) (addr : Nat) (word : List Byte) (w : PoolObject), 322122547200 ≤ addr →
    exec (.uncorrectableCodeWord addr word w) s = .fault .noSuchUnit)

/-- R311, R314, R315, R320, R322, R323, R326, R327, R328, R330, R448, R461: a release that no other carrier's absence
forbids takes its carrier out of service, by command, by an operator or by the button held a second; a refused one
sets its reason; a released carrier becomes safe to remove, a removed one leaves its bay empty, a VC16 part put in
is rebuilt and then serves, any other part is refused. And: a page that decodes at the first level changes nothing;
a later level counts and logs a corrected page, and those of the stripe's other three pages rebuild it, each counted
for itself; a page is the exclusive-or of the other three; a retired block is counted and lowers the spare
percentage; an ONFI channel is retired after three retrainings that do not mend it; a carrier above 85 °C fails; a
hold-up measurement that fails sets HOLDUP_WEAK. -/
def Obligations.VaultCarriersReadsAndWear : Prop :=
  (∀ (s : State) (b : Nat) (c : Carrier), s.j.live = true → b < 4 → s.j.carrier? b = some c → s.j.vlt.online = true →
    s.j.othersDown b = 0 → c.state = .serving →
    ∃ k : Jenjor,
      (let out := k.carrierLost b
       exec (.carrierRelease b) s = .next { s with j := out } ∧
       exec (.mgmtCarrierRelease .operator b) s = .next { s with j := out.emit (.mgmt true 0) } ∧
       ∀ ms, 1000 ≤ ms → exec (.attentionButton b ms) s
         = .next { s with j := { out with isl := { out.isl with amberBlink := out.isl.amberBlink.set b false } } }) ∧
      k.carrier? b = some { c with state := .releasing, refuse := 0 } ∧ k.log.head = s.j.log.head + 1 ∧
      k = { s.j with vlt := { s.j.vlt with carriers := k.vlt.carriers }, log := k.log, ctrs := k.ctrs }) ∧
  (∀ (s : State) (b : Nat) (c : Carrier), s.j.live = true → b < 4 → s.j.carrier? b = some c →
    s.j.vlt.online = false ∨ 0 < s.j.othersDown b →
    let out := s.j.mapCarrier b fun c => { c with refuse := if s.j.vlt.online then 1 else 2 }
    exec (.carrierRelease b) s = .next { s with j := out } ∧
    exec (.mgmtCarrierRelease .operator b) s = .next { s with j := out.emit (.mgmt false 0) } ∧
    ∀ ms, 1000 ≤ ms → exec (.attentionButton b ms) s
      = .next { s with j := { out with isl := { out.isl with amberBlink := out.isl.amberBlink.set b true } } }) ∧
  (∀ (s : State) (b : Nat), s.j.live = true → b < 4 →
    (∀ r : Role, r ≠ .operator → exec (.mgmtCarrierRelease r b) s = .next { s with j := s.j.emit (.mgmt false 0) }) ∧
    (∀ ms, ms < 1000 → exec (.attentionButton b ms) s = .next s)) ∧
  (∀ (s : State) (b : Nat) (c : Carrier), s.j.live = true → b < 4 → s.j.carrier? b = some c →
    (c.state = .releasing → exec (.carrierSafeToRemove b) s
      = .next { s with j := s.j.mapCarrier b fun c => { c with state := .safeToRemove } }) ∧
    (c.state = .safeToRemove → ∃ t, exec (.carrierRemoval b) s = .next t ∧ t.j.carrier? b = some emptyCarrier ∧
      t.j.counter (0x90118 + b * 0x40) = { count := 0, ovf := false } ∧
      t = { s with j := { s.j with vlt := { s.j.vlt with carriers := t.j.vlt.carriers }, ctrs := t.j.ctrs,
                                   isl := { s.j.isl with refusedPart := s.j.isl.refusedPart.set b false } } }) ∧
    (c.state = .serving → ∃ k : Jenjor, exec (.carrierFailure b) s = .next { s with j := k.carrierLost b } ∧
      k.carrier? b = some { c with state := .failed, permille := 0 } ∧ k.log.errClass.getLsbD 1 = true) ∧
    (c.state = .rebuilding → ∃ t, exec (.carrierFailure b) s = .next t ∧
      t.j.carrier? b = some { c with state := .failed, permille := 0 } ∧ t.j.log.errClass.getLsbD 1 = true) ∧
    (c.state = .rebuilding → s.j.vlt.failed = false → ∃ t, exec (.carrierRebuildComplete b) s = .next t ∧
      t.j.carrier? b = some { c with state := .serving, permille := 1000 } ∧ t.j.freeIdx = s.j.freeIdx + 1 ∧
      t = { s with j := { s.j with vlt := { s.j.vlt with carriers := t.j.vlt.carriers }, ctrs := t.j.ctrs, freeIdx := t.j.freeIdx } })) ∧
  (∀ (s : State) (b : Nat) (id : CarrierId) (c : Carrier), s.j.live = true → b < 4 → s.j.vlt.online = true →
    s.j.carrier? b = some c → c.state = .empty →
    (id.vc16 = true → ∃ t, exec (.carrierInsertion b id) s = .next t ∧ t.j.carrier? b = some (carrierOf .rebuilding id) ∧
      (t.j.counter (0x90118 + b * 0x40)).count = BitVec.ofNat 48 id.programmed ∧ t.mem = s.mem) ∧
    (id.vc16 = false → ∃ t, exec (.carrierInsertion b id) s = .next t ∧
      t.j.carrier? b = some { emptyCarrier with refuse := 3 } ∧
      t.j.isl.refusedPart = s.j.isl.refusedPart.set b true)) ∧
  (∀ (s : State) (b : Nat), 4 ≤ b → exec (.carrierRelease b) s = .fault .noSuchUnit ∧ exec (.carrierFailure b) s = .fault .noSuchUnit) ∧
  (∀ (s : State) (page : Nat) (others : List (Option Nat)) (rd : VaultReader) (x : Carrier), s.j.live = true →
    page < 3221225472 → others.length = 3 → s.j.see.arm = false → s.j.carrier? (pageCarriers page).2 = some x → readable x = true →
    exec (.vaultPageRead page (some 0) others rd) s = .next s ∧
    (∀ lvl, 1 ≤ lvl → lvl ≤ 7 → ∃ t, exec (.vaultPageRead page (some lvl) others rd) s = .next t ∧
      (t.j.counter (0x90120 + (pageCarriers page).2 * 0x40)).count
        = (s.j.counter (0x90120 + (pageCarriers page).2 * 0x40)).count + 1 ∧
      t.j.log.head = s.j.log.head + 1 ∧ t = { s with j := { s.j with ctrs := t.j.ctrs, log := t.j.log } })) ∧
  (∀ (s : State) (page l0 l1 l2 : Nat) (rd : VaultReader), s.j.live = true → page < 3221225472 → s.j.see.arm = false →
    (∀ k, k < 4 → (s.j.carrier? k).any readable = true) → l0 ≤ 7 → l1 ≤ 7 → l2 ≤ 7 →
    let own := (pageCarriers page).2
    let cars := (List.range 4).filter fun k => k != own
    let up := fun l => if l = 0 then 0 else 1
    ∃ t, exec (.vaultPageRead page none [some l0, some l1, some l2] rd) s = .next t ∧
      (t.j.counter (0x90128 + own * 0x40)).count = (s.j.counter (0x90128 + own * 0x40)).count + 1 ∧
      (∀ i, i < 3 → (t.j.counter (0x90120 + cars.getD i 0 * 0x40)).count
        = (s.j.counter (0x90120 + cars.getD i 0 * 0x40)).count + BitVec.ofNat 48 (up ([l0, l1, l2].getD i 0))) ∧
      t.j.log.head = s.j.log.head + 1 + up l0 + up l1 + up l2 ∧
      t = { s with j := { s.j with ctrs := t.j.ctrs, log := t.j.log } }) ∧
  (∀ (s : State) (page : Nat) (others : List (Option Nat)) (rd : VaultReader), s.j.live = true → page < 3221225472 →
    others.length = 3 → s.j.see.arm = false → (∀ x ∈ others, x = none) →
    exec (.vaultPageRead page none others rd) s = .next { s with j := (s.j.count blkVLT 0x10).uncorrectablePage page rd }) ∧
  (∀ a b c : List Byte, a.length = b.length → b.length = c.length →
    let p := parityPage a b c
    parityPage p b c = a ∧ parityPage a p c = b ∧ parityPage a b p = c) ∧
  (∀ page, (pageCarriers page).1 < 4 ∧ (pageCarriers page).2 < 4 ∧ (pageCarriers page).1 ≠ (pageCarriers page).2) ∧
  (∀ (s : State) (b pct : Nat) (c : Carrier), s.j.live = true → b < 4 → s.j.carrier? b = some c → readable c = true → 10 < pct →
    ∃ t, exec (.blockRetire b pct) s = .next t ∧
      t.j.carrier? b = some { c with retired := (c.retired + 1) % 2 ^ 32, spare := min 100 pct } ∧
      t.j.log.errClass.getLsbD 1 = true ∧ t.j.vlt = { s.j.vlt with carriers := t.j.vlt.carriers } ∧ t.j.cat = s.j.cat) ∧
  (∀ (s : State) (b ch : Nat) (space : Bool) (c : Carrier), s.j.live = true → b < 4 → ch < 8 → s.j.carrier? b = some c →
    readable c = true → ch ∉ c.chansRetired →
    (∃ t, exec (.onfiChannelRetrain b ch true space) s = .next t ∧
      t.j.carrier? b = some { c with retrains := c.retrains.filter (· != ch) } ∧ t.j.log.head = s.j.log.head + 1) ∧
    (c.retrains.count ch < 2 → ∃ t, exec (.onfiChannelRetrain b ch false space) s = .next t ∧
      t.j.carrier? b = some { c with retrains := ch :: c.retrains } ∧ t.j.log.head = s.j.log.head + 1) ∧
    (2 ≤ c.retrains.count ch → ∃ t, exec (.onfiChannelRetrain b ch false true) s = .next t ∧
      t.j.carrier? b = some { c with retrains := c.retrains.filter (· != ch), chansRetired := ch :: c.chansRetired } ∧
      t.j.log.errClass.getLsbD 1 = true)) ∧
  (∀ (s : State) (b temp : Nat) (c : Carrier), s.j.live = true → b < 4 → s.j.carrier? b = some c →
    (temp ≤ 85 → exec (.carrierOvertemp b temp) s = .next { s with j := s.j.mapCarrier b fun c => { c with temp := temp } }) ∧
    (85 < temp → c.state = .releasing → ∃ t, exec (.carrierOvertemp b temp) s = .next t ∧
      t.j.carrier? b = some { c with temp := temp, state := .failed, permille := 0 })) ∧
  (∀ s : State, s.j.live = true → ∃ t, exec (.holdupMeasure false) s = .next t ∧ t.j.vlt = { s.j.vlt with holdupWeak := true } ∧
    t.j.log.head = s.j.log.head + 1 ∧ t.j.wr = s.j.wr) ∧
  (∀ s : State, s.j.live = true → s.j.wr.journal = [] → s.j.wr.fences = [] → s.j.mirrored = false →
    ∃ t, exec (.holdupMeasure true) s = .next t ∧ t.j.vlt = { s.j.vlt with holdupWeak := false } ∧ t.j.log = s.j.log)

/-- R287, R332, R334, R338, R339, R347, R434, R458: a PCIe reset event leaves queue 0 as after reset, every RW field at its reset
value and every RoCEv2 queue as it was, and is counted; the endpoint rises with PERST# and step 5; training sets the link's
state; an error of R338 faults its queue or is reported, and a completion whose CQ address faults is lost and its
identifier logged; DOE discovery lists its three protocols. -/
def Obligations.PcieEndpoint : Prop :=
  (∀ (s : State) (kind : PcieResetKind), s.j.live = true → (∀ q ∈ s.j.qs.queues, q.roce = true ∨ q.num = 0) →
    (∀ q ∈ s.j.qs.queues, q.deleting = false) →
    ∃ t, exec (.pcieReset kind) s = .next t ∧ t.j.lnk.resets = s.j.lnk.resets + 1 ∧
      (t.j.counter 0xA0008).count = (s.j.counter 0xA0008).count + 1 ∧
      t.j.qs.queues = updWhere (fun x => x.num == 0) (fun _ => queueZero) s.j.qs.queues ∧ t.j.qs.msix = [] ∧
      t.j.qs.aqEnable = false ∧ t.j.qs.aqReady = false ∧ t.j.qs.windowBase = 0 ∧ t.j.log.errEn = false ∧ t.j.see = resetSeeing ∧
      (kind = .perst → t.j.lnk.perstHigh = false ∧ t.j.lnk.endpointUp = false) ∧
      (kind = .linkDown → t.j.lnk.pcieDown = true ∧ t.j.lnk.width = 0) ∧
      t.j.cat = s.j.cat ∧ t.j.sw = s.j.sw ∧ t.j.wr = s.j.wr ∧ t.mem = s.mem ∧ t.rmem = s.rmem) ∧
  (∀ s : State, exec .perstRelease s = .next { s with j := { s.j with lnk := { s.j.lnk with
    perstHigh := true, endpointUp := decide (5 ≤ s.j.alm.step) } } }) ∧
  (∀ (s : State) (w sp : Nat) (flit : Bool), s.j.live = true → w = 1 ∨ w = 2 ∨ w = 4 ∨ w = 8 ∨ w = 16 → 1 ≤ sp → sp ≤ 6 →
    ∃ t, exec (.pcieLinkTrained w sp flit) s = .next t ∧
      t.j.lnk = { s.j.lnk with pcieDown := false, width := w, speed := sp, flit := flit, degraded := decide (w < 16) || decide (sp < 6) } ∧
      t.j.log.head = s.j.log.head + (if w = 16 ∧ sp = 6 then 0 else 1) ∧
      t = { s with j := { s.j with lnk := t.j.lnk, log := t.j.log, ctrs := t.j.ctrs } }) ∧
  (∀ (s : State) (sp : Nat) (flit : Bool), exec (.pcieLinkTrained 3 sp flit) s = .fault .noSuchUnit) ∧
  (∀ (s : State) (q : Nat) (x : Queue), s.j.live = true → s.j.queue? q = some x → x.roce = false →
    (∃ t, exec (.pcieCompletionTimeout q none) s = .next t ∧
      t.j.queue? q = some (if x.fault = 0 then { x with fault := 3 } else x) ∧ t.j.out = .aer 1 :: s.j.out ∧
      t.j.log.head = s.j.log.head + 1 ∧
      t = { s with j := { s.j with qs := { s.j.qs with queues := t.j.qs.queues }, log := t.j.log, ctrs := t.j.ctrs, out := t.j.out } }) ∧
    (∃ t, exec (.pciePoisonedTlp q) s = .next t ∧
      t.j.queue? q = some (if x.fault = 0 then { x with fault := 3 } else x) ∧ t.j.out = .aer 2 :: s.j.out ∧
      t = { s with j := { s.j with qs := { s.j.qs with queues := t.j.qs.queues }, log := t.j.log, ctrs := t.j.ctrs, out := t.j.out } }) ∧
    (∀ (c : BitVec 16) (f : Fetched),
      (s.j.qs.fetched.find? fun f => f.ref.q == q && f.ref.cid == c && f.ref.tag.isNone) = some f →
      ∃ k : Jenjor, exec (.pcieCompletionTimeout q (some c)) s = .next { s with j := k.refuse f.ref .deliveryFailed } ∧
        k.qs.fetched = s.j.qs.fetched.erase f)) ∧
  (∀ s : State, s.j.live = true →
    let reported := fun (o : Host.Outcome State Fault Refusal) (k : Nat) => ∃ t, o = .next t ∧ t.j.log.head = s.j.log.head + 1 ∧
      t.j.out = .aer k :: s.j.out ∧ t = { s with j := { s.j with log := t.j.log, ctrs := t.j.ctrs, out := t.j.out } }
    reported (exec (.pcieErrorTlp .malformed) s) 3 ∧ reported (exec (.pcieErrorTlp .unexpectedCompletion) s) 4 ∧
    reported (exec (.pcieErrorTlp .ecrc) s) 5 ∧
    ∀ (q : Nat) (cid : BitVec 16) (x : Queue), s.j.queue? q = some x → x.roce = false →
      ∃ t, exec (.pcieErrorTlp (.cqFault q cid)) s = .next t ∧
        t.j.queue? q = some (if x.fault = 0 then { x with fault := 5 } else x) ∧ t.j.out = .aer 7 :: s.j.out ∧
        (t.j.log.trace.head?).map (fun r => (r.cls, r.blk, r.unit, r.detail)) = some (5, blkLNK, q, cid.setWidth 256) ∧
        t = { s with j := { s.j with
          qs := { s.j.qs with queues := t.j.qs.queues }, log := t.j.log, ctrs := t.j.ctrs, out := t.j.out } }) ∧
  (∀ s : State, s.j.live = true →
    exec .pcieCorrectableError s = .next { s with j := { s.j with out := .aer 6 :: s.j.out } } ∧
    exec .doeAbort s = .next { s with j := { s.j with lnk := { s.j.lnk with doePending := false } } } ∧
    (∀ i, i < 3 →
      let o := Output.doe (leBytes 4 (1 + i * 2 ^ 16 + (if i < 2 then (i + 1) * 2 ^ 24 else 0)))
      exec (.doeDiscovery i) s
        = .next { s with j := { s.j with lnk := { s.j.lnk with doePending := true }, out := o :: s.j.out } }) ∧
    (∀ i, i < 3 → exec (.doeOtherProtocol 1 i) s = .next s) ∧
    (∀ v ty, ¬(v = 1 ∧ ty < 3) → ∃ t, exec (.doeOtherProtocol v ty) s = .next t ∧
      (t.j.counter 0xF0020).count = (s.j.counter 0xF0020).count + 1 ∧
      t = { s with j := { s.j with log := t.j.log, ctrs := t.j.ctrs } }))

/-- R263, R286, R302, R305, R343, R345, R346: an RDMA WRITE lands in the ring its key opens and nowhere else, clearing the
poison that it covers, unless sweep memory has stopped; one that the key does not
cover, a refused request and a NAK put the queue pair in error, which faults its queues; an acknowledgement releases what
waited for it; a timeout retransmits; CNPs are paced and set the send rate. -/
def Obligations.QueuePairTraffic : Prop :=
  (∀ (s : State) (n addr : Nat) (rkey : BitVec 32) (data : List Byte) (q : Queue), s.j.live = true → s.j.qpAlive n = true →
    data ≠ [] → s.j.keyedQueue n rkey = some q → inRing q addr data.length = true →
    let a0 := addr - Config.poolBase
    (s.j.mem.stopped = false →
      exec (.rdmaWrite n rkey addr data) s
        = .next { s with rmem := Memory.writeBytes s.rmem a0 data, j := s.j.clearRingPoison q.num a0 data.length }) ∧
    (s.j.mem.stopped = true → exec (.rdmaWrite n rkey addr data) s = .next s) ∧
    ∀ a, a < a0 ∨ a0 + data.length ≤ a → Memory.read (Memory.writeBytes s.rmem a0 data) a = Memory.read s.rmem a) ∧
  (∀ (s : State) (n addr : Nat) (rkey : BitVec 32) (data : List Byte), s.j.live = true → s.j.qpAlive n = true → data ≠ [] →
    (s.j.keyedQueue n rkey).all (fun q => !inRing q addr data.length) = true →
    exec (.rdmaWrite n rkey addr data) s = .next { s with j := s.j.refuseRequest n 2 }) ∧
  (∀ (s : State) (n : Nat) (kind : RefusedReq), s.j.live = true → s.j.qpAlive n = true →
    exec (.roceRefusedRequest n kind) s
      = .next { s with j := ({ s.j with out := .nak n (if kind = .outOfRange then 2 else 1) :: s.j.out } : Jenjor).qpError n }) ∧
  (∀ (s : State) (n : Nat) (p : Qp) (q : Queue), s.j.live = true → s.j.qp? n = some p → p.state = .established → p.bound ≠ [] →
    p.connector = none → s.j.qs.waits = [] → s.j.queue? q.num = some q → q.roce = true → q.qpn = n → q.fault = 0 →
    ∃ t, exec (.roceNak n) s = .next t ∧ t.j.qp? n = some { p with state := .error, connector := none } ∧
      t.j.queue? q.num = some { q with fault := 6 } ∧
      (t.j.counter (0xA0120 + p.port * 0x80)).count = (s.j.counter (0xA0120 + p.port * 0x80)).count + 1 ∧ t.j.sw = s.j.sw) ∧
  (∀ (s : State) (n psn : Nat) (p : Qp), s.j.live = true → s.j.qp? n = some p → p.state = .established →
    (∀ w ∈ s.j.qs.waits, w.qpn ≠ n) →
    exec (.roceAck n psn) s = .next { s with j := s.j.mapQp n fun p => { p with unacked := (psn + 1) % 2 ^ 24, retries := 0 } }) ∧
  (∀ (s : State) (n psn : Nat) (w : Waiting), s.j.live = true → s.j.qpAlive n = true → s.j.qs.waits = [w] → w.flush = false →
    w.qpn = n → (psn + 2 ^ 24 - w.psn) % 2 ^ 24 < 2 ^ 23 →
    exec (.roceAck n psn) s = .next { s with j :=
      (s.j.mapQp n fun p => { p with unacked := (psn + 1) % 2 ^ 24, retries := 0 }).releaseWaiting w true }) ∧
  (∀ (s : State) (n : Nat) (p : Qp), s.j.live = true → s.j.qp? n = some p → p.state = .established → p.unacked ≠ p.psn →
    p.retries < s.j.alm.net.retryCount →
    ∃ t, exec (.roceAckTimeout n) s = .next t ∧ t.j.qp? n = some { p with retries := p.retries + 1 } ∧
      t.j.out = .roceRetransmit n p.unacked :: s.j.out ∧
      (t.j.counter (0xA0118 + p.port * 0x80)).count = (s.j.counter (0xA0118 + p.port * 0x80)).count + 1) ∧
  (∀ (s : State) (n : Nat) (p : Qp), s.j.live = true → s.j.qp? n = some p →
    (p.lastCnp = none → ∃ t, exec (.ecnMarkedPacket n) s = .next t ∧ t.j.qp? n = some { p with lastCnp := some s.j.time } ∧
      t.j.out = .cnp n :: s.j.out ∧
      (t.j.counter (0xA0128 + p.port * 0x80)).count = (s.j.counter (0xA0128 + p.port * 0x80)).count + 1) ∧
    (∀ at_, p.lastCnp = some at_ → s.j.time < at_ + 50000 → exec (.ecnMarkedPacket n) s = .next s) ∧
    (∃ t, exec (.cnpReceived n) s = .next t ∧ t.j.qp? n = some { p with rateMbps := max 1000 (p.rateMbps / 2) } ∧
      t = { s with j := { s.j with lnk := { s.j.lnk with qps := t.j.lnk.qps } } }) ∧
    (∃ t, exec (.rateIncreaseTimer n) s = .next t ∧
      t.j.qp? n = some { p with rateMbps := min (s.j.lineRate p.port) (p.rateMbps + s.j.lineRate p.port / 20) } ∧
      t = { s with j := { s.j with lnk := { s.j.lnk with qps := t.j.lnk.qps } } }))

/-- R341, R342, R344, R346, R363: a frame for an address of its port is answered with that port's address, any other is
dropped and counted; a link that falls or rises changes its port's state alone; the module has two ports. And: a REQ
that no row of R344 rejects adds a queue pair of the lowest free number from 100H and is answered REP; another is
counted and answered REJ; RTU establishes it; DREQ and ten seconds bound to no queue end it. -/
def Obligations.EthernetPortsAndConnections : Prop :=
  (∀ (s : State) (p : Nat) (ip : List Byte), s.j.live = true → p < 2 →
    (s.j.ownAddress p ip true = true → exec (.arpRequest p ip) s
      = .next { s with j := { s.j with out := .ethFrame p 0 (ip ++ s.j.portMac p) :: s.j.out } }) ∧
    (s.j.ownAddress p ip false = true → exec (.neighbourSolicitation p ip) s
      = .next { s with j := { s.j with out := .ethFrame p 1 (ip ++ s.j.portMac p) :: s.j.out } }) ∧
    (s.j.ownAddress p ip true = true ∨ s.j.ownAddress p ip false = true → ∀ data, exec (.icmpEcho p ip data) s
      = .next { s with j := { s.j with out := .ethFrame p 2 (ip ++ data) :: s.j.out } }) ∧
    (s.j.ownAddress p ip true = false → s.j.ownAddress p ip false = false → ∀ data,
      exec (.arpRequest p ip) s = exec (.ethFrameDropped p) s ∧ exec (.neighbourSolicitation p ip) s = exec (.ethFrameDropped p) s ∧
      exec (.icmpEcho p ip data) s = exec (.ethFrameDropped p) s)) ∧
  (∀ (s : State) (p : Nat), s.j.live = true → p < 2 →
    (∃ t, exec (.ethFrameDropped p) s = .next t ∧
      (t.j.counter (0xA0108 + p * 0x80)).count = (s.j.counter (0xA0108 + p * 0x80)).count + 1 ∧
      t = { s with j := { s.j with ctrs := t.j.ctrs } }) ∧
    exec (.ethLinkDown p) s
      = .next { s with j := { s.j with lnk := { s.j.lnk with ports := s.j.lnk.ports.set p { up := false, speed := 0 } } } } ∧
    (∀ sp, sp = 1 ∨ sp = 2 → exec (.ethLinkUp p sp) s
      = .next { s with j := { s.j with lnk := { s.j.lnk with ports := s.j.lnk.ports.set p { up := true, speed := sp } } } })) ∧
  (∀ (s : State) (p : Nat), 2 ≤ p → exec (.ethLinkDown p) s = .fault .noSuchUnit ∧ exec (.ethFrameDropped p) s = .fault .noSuchUnit) ∧
  (∀ (s : State) (port mtu : Nat) (src : List Byte) (rc mergeSvc : Bool), s.j.live = true → port < 2 →
    (s.j.reqRejected port src rc mtu = none → ∃ (t : State) (p : Qp), exec (.cmReq port src rc mtu mergeSvc) s = .next t ∧
      t = { s with j := { s.j with lnk := { s.j.lnk with qps := s.j.lnk.qps ++ [p] }, out := .cmMessage port 2 p.num :: s.j.out } } ∧
      (∀ x ∈ s.j.lnk.qps, x.num ≠ p.num) ∧ 0x100 ≤ p.num ∧ p.port = port ∧ p.mtu = mtu ∧ p.state = .setup ∧ p.mergeIn = mergeSvc ∧
      p.bound = [] ∧ p.psn = 0 ∧ p.rateMbps = s.j.lineRate port) ∧
    (∀ why, s.j.reqRejected port src rc mtu = some why → ∃ t, exec (.cmReq port src rc mtu mergeSvc) s = .next t ∧
      t.j.out = .cmMessage port 3 why :: s.j.out ∧
      (t.j.counter (0xA0110 + port * 0x80)).count = (s.j.counter (0xA0110 + port * 0x80)).count + 1 ∧
      t = { s with j := { s.j with out := t.j.out, ctrs := t.j.ctrs } })) ∧
  (∀ (s : State) (n : Nat) (p : Qp), s.j.live = true → s.j.qp? n = some p →
    (p.state = .setup → p.connector = none → ∃ t, exec (.cmRtu n) s = .next t ∧
      t.j.qp? n = some { p with state := .established, rtuAt := s.j.time } ∧
      t = { s with j := { s.j with lnk := { s.j.lnk with qps := t.j.lnk.qps } } }) ∧
    (exec (.cmDreq n) s = .next { s with j := ({ s.j with out := .cmMessage p.port 6 n :: s.j.out } : Jenjor).qpError n }) ∧
    (p.state = .established → p.bound = [] → p.mergeIn = false → p.route = false →
      let rest := s.j.lnk.qps.filter fun x => x.num != n
      exec (.qpBindTimeout n) s
        = .next { s with j := { s.j with lnk := { s.j.lnk with qps := rest }, out := .cmMessage p.port 5 n :: s.j.out } }) ∧
    (p.bound ≠ [] → exec (.qpBindTimeout n) s = .next s))

/-- R344, R363, R364, R365, R366, R367: ROUTE_CONNECT sends a REQ on a new queue pair and waits for its answer: a REP
establishes the route with its delivery queue and completes the command, a rejection or silence fails it;
SHARD_LIST_DEFINE allocates the merge area it states; SHARD_LIST_DELETE completes at once on a list with no merge and is
held by one that is open; a deleted list is released a second later. And: MERGE_QUERY opens a merge, and ends at once
when every shard stands in its slot; a record that lands takes its slot and completes the merge of its ticket with the
last shard; the deadline merges what is present; a record outside the merge areas is refused. With integer keys the
merged entries stand in order, come from the present records, and are as many as those hold up to k. -/
def Obligations.RoutesListsAndShardMerge : Prop :=
  (∀ (s : State) (q : Nat) (f : Fetched) (j : Jenjor), s.takes q 0x60 f j → dField f.d 0xA 1 ≤ 1 → j.lnk.qps.length < 4096 →
    j.routeBad (dField f.d 8 2 % 4096) = false →
    ∃ (t : State) (p : Qp), exec (.routeConnect q) s = .next t ∧
      t = { s with j := { j with lnk := { j.lnk with qps := j.lnk.qps ++ [p] },
                                 out := .cmMessage (dField f.d 0xA 1) 1 p.num :: j.out } } ∧
      p.port = dField f.d 0xA 1 ∧ p.state = .setup ∧ p.route = true ∧ p.connector = some (f.ref, dField f.d 8 2 % 4096) ∧
      (∀ x ∈ j.lnk.qps, x.num ≠ p.num)) ∧
  (∀ (s : State) (q : Nat) (f : Fetched) (j : Jenjor), s.takes q 0x60 f j → 2 ≤ dField f.d 0xA 1 → j.lnk.qps.length < 4096 →
    exec (.routeConnect q) s = .next { s with j := j.refuse f.ref .parameterInvalid }) ∧
  (∀ (s : State) (n dq : Nat) (p : Qp) (c : CmdRef), s.j.live = true → s.j.qp? n = some p → p.connector = some (c, dq) →
    (s.j.routeBad dq = false → ∃ k : Jenjor, exec (.cmRepRej n true) s
        = .next { s with j := k.complete c .success (BitVec.ofNat 64 n) 0 none } ∧
      k.qp? n = some { p with state := .established, bound := [dq], connector := none, rtuAt := s.j.time } ∧
      k.qs.queues = s.j.qs.queues ++ [routeQueue dq n] ∧ k.out = .cmMessage p.port 4 n :: s.j.out ∧
      k = { s.j with lnk := { s.j.lnk with qps := k.lnk.qps }, qs := { s.j.qs with queues := k.qs.queues }, out := k.out }) ∧
    (let rest := s.j.lnk.qps.filter fun x => x.num != n
     let k : Jenjor := { s.j with lnk := { s.j.lnk with qps := rest } }
     exec (.cmRepRej n false) s = .next { s with j := k.refuse c .deliveryFailed } ∧
       exec (.cmRepTimeout n) s = .next { s with j := k.refuse c .deliveryFailed })) ∧
  (∀ (s : State) (q : Nat) (f : Fetched) (j : Jenjor), s.takes q 0x61 f j → firstStatus (j.listChecks f.d) = none →
    let slot := (32 + 16 * dField f.d 0xC 2 + 63) / 64 * 64
    let bytes := dField f.d 0xE 2 * dField f.d 0xA 2 * slot
    pagesOf bytes ≤ j.poolFree →
    ∃ (k : Jenjor) (l : ShardList),
      let v0 := BitVec.ofNat 64 (Config.poolBase + l.base)
      let v1 := BitVec.ofNat 64 (slot * 2 ^ 32 + l.rkey.toNat)
      exec (.shardListDefine q) s = .next { s with j := k.complete f.ref .success v0 v1 none } ∧
      k.cpn.lists = j.cpn.lists ++ [l] ∧ l.num = dField f.d 8 1 ∧ l.count = dField f.d 0xA 2 ∧ l.kMax = dField f.d 0xC 2 ∧
      l.tickets = dField f.d 0xE 2 ∧ l.slot = slot ∧ l.pages = pagesOf bytes ∧ l.base = j.qs.nextRing ∧ l.deleting = false ∧
      l.slots = [] ∧ k = { j with cpn := { j.cpn with lists := k.cpn.lists }, qs := { j.qs with
        nextRing := j.qs.nextRing + bytes, nextRkey := j.qs.nextRkey + 1 } }) ∧
  (∀ (s : State) (q : Nat) (f : Fetched) (j : Jenjor) (l : ShardList), s.takes q 0x62 f j → j.openList (dField f.d 8 1) = some l →
    l.deleters = [] → l.discarding = false →
    ((∀ m ∈ j.cpn.merges, m.list ≠ l.num) → ∃ k : Jenjor, exec (.shardListDelete q) s
        = .next { s with j := k.complete f.ref .success 0 0 none } ∧
      k.list? l.num = some { l with deleting := true, discarding := true, deleters := [], slots := [] } ∧
      k = { j with cpn := { j.cpn with lists := k.cpn.lists } }) ∧
    (∀ m ∈ j.cpn.merges, m.list = l.num → ∃ t, exec (.shardListDelete q) s = .next t ∧
      t.j.list? l.num = some { l with deleting := true, deleters := [f.ref] } ∧
      t = { s with j := { j with cpn := { j.cpn with lists := t.j.cpn.lists } } })) ∧
  (∀ (s : State) (n : Nat) (l : ShardList), s.j.live = true → s.j.list? n = some l → l.discarding = true →
    exec (.shardListRelease n) s
      = .next { s with j := { s.j with cpn := { s.j.cpn with lists := s.j.cpn.lists.filter (fun l => l.num != n) } } }) ∧
  (∀ (s : State) (n : Nat) (l : ShardList), s.j.live = true → s.j.list? n = some l → l.discarding = false →
    exec (.shardListRelease n) s = .next s) ∧
  (∀ (s : State) (q : Nat) (f : Fetched) (j : Jenjor) (l : ShardList), s.takes q 0x63 f j → firstStatus (j.mergeChecks f.d) = none →
    j.openList (dField f.d 8 1) = some l →
    (present l (dField f.d 9 1) (BitVec.ofNat 16 (dField f.d 0xA 2))).length ≠ l.count →
    ∃ (t : State) (m : MergeOpen), exec (.mergeQuery q) s = .next t ∧ m.list = l.num ∧ m.ticket = dField f.d 9 1 ∧
      m.tag = BitVec.ofNat 16 (dField f.d 0xA 2) ∧ m.k = dField f.d 0xC 2 ∧ m.ref = f.ref ∧ m.addr = dField f.d 0x10 8 ∧
      m.route = dField f.d 0x24 2 ∧ t = { s with j := { j with cpn := { j.cpn with merges := j.cpn.merges ++ [m] } } }) ∧
  (∀ (s : State) (q : Nat) (f : Fetched) (j : Jenjor) (st : Status), s.takes q 0x63 f j →
    firstStatus (j.mergeChecks f.d) = some st → exec (.mergeQuery q) s = .next { s with j := j.refuse f.ref st }) ∧
  (∀ (s : State) (n addr : Nat) (rkey imm : BitVec 32) (data : List Byte) (p : Qp) (l : ShardList), s.j.live = true →
    s.j.qp? n = some p → p.mergeIn = true → p.state = .established →
    (s.j.cpn.lists.find? fun l => l.rkey == rkey) = some l → s.j.list? l.num = some l → l.discarding = false →
    inArea l addr data.length = true → (slotAt l addr).2.2 = true → recordValid l data = true →
    let place := fun (x : ShardList) =>
      let others := x.slots.filter fun x => !(x.1 == (slotAt l addr).1 && x.2.1 == (slotAt l addr).2.1)
      { x with slots := ((slotAt l addr).1, (slotAt l addr).2.1, imm.setWidth 16, data) :: others }
    let l' := place l
    let k := s.j.mapList l.num place
    ((∀ m ∈ s.j.cpn.merges, m.list ≠ l.num) → exec (.mergeRecordArrival n rkey addr data imm) s = .next { s with j := k }) ∧
    (∀ m, s.j.cpn.merges = [m] → m.list = l.num → m.ticket = (slotAt l addr).1 → m.tag = imm.setWidth 16 →
      exec (.mergeRecordArrival n rkey addr data imm) s
        = .next { s with j := if (present l' m.ticket m.tag).length = l.count then k.finishMerge l' m else k })) ∧
  (∀ (s : State) (n addr : Nat) (rkey imm : BitVec 32) (data : List Byte) (p : Qp), s.j.live = true →
    s.j.qp? n = some p → p.mergeIn = true → p.state = .established → (∀ l ∈ s.j.cpn.lists, l.rkey ≠ rkey) →
    exec (.mergeRecordArrival n rkey addr data imm) s = .next { s with j := s.j.refuseRequest n 2 }) ∧
  (∀ (s : State) (n t : Nat) (l : ShardList) (m : MergeOpen), s.j.live = true → s.j.list? n = some l →
    (s.j.cpn.merges.find? fun m => m.list == n && m.ticket == t) = some m →
    exec (.mergeDeadline n t) s = .next { s with j := s.j.finishMerge l m }) ∧
  (∀ (k : Nat) (rs : List (Nat × List Byte)),
    let es := mergeEntries false k rs
    es.length = min k (natSum (rs.map fun r => recCount r.2)) ∧ es.Pairwise (fun a b => mergedBefore false b a = false) ∧
    (∀ e ∈ es, ∃ r ∈ rs, ∃ i, i < recCount r.2 ∧ e.shard = r.1 ∧ recEntry r.2 i = (e.key, e.user, e.flags))) ∧
  (∀ (l : ShardList) (k : Nat) (rs : List (Nat × List Byte)) (mu const : F32),
    (mergedRecord l k rs mu const).length = 32 + 16 * (mergeEntries l.fp32 k rs).length + 512)

/-- R348, R349, R350, R356, R358: eight usable lanes of nine bring the link up, and a peer that agrees is checked; errors
past their rate and a reserved message retrain it, counted; a link that falls separates the pair, the holder going on alone
and the other read-only; a replay sends its message again; a checked pair rejoins, and once caught up is paired. -/
def Obligations.CompanionLink : Prop :=
  (∀ (s : State) (lanes : List Bool) (i : PeerInfo), s.j.live = true → lanes.length = 9 →
    let n := (lanes.filter fun l => l).length
    (n < 8 → exec (.companionLinkTrained lanes i) s
      = .next (withPair s fun p => { p with lanes := n, retraining := false })) ∧
    (8 ≤ n → s.j.cpn.pair.mode ≠ 0 → s.j.peerAgrees i = true → exec (.companionLinkTrained lanes i) s
      = .next (withPair s fun p => { p with lanes := n, retraining := false, linkUp := true, peer := some i, peerChecked := false,
                                            spareLane := !((lanes.take 8).all fun l => l), pairState := .checking })) ∧
    (8 ≤ n → s.j.cpn.pair.mode = 0 → exec (.companionLinkTrained lanes i) s
      = .next (withPair s fun p => { p with lanes := n, retraining := false, linkUp := true, peer := some i, peerChecked := false,
                                            spareLane := !((lanes.take 8).all fun l => l) })) ∧
    (8 ≤ n → s.j.cpn.pair.mode ≠ 0 → s.j.peerAgrees i = false → s.j.inPair = false → ∃ t,
      exec (.companionLinkTrained lanes i) s = .next t ∧ t.j.cpn.pair.pairState = .mismatch ∧ t.j.cpn.pair.linkUp = true)) ∧
  (∀ (s : State) (lanes : List Bool) (i : PeerInfo), lanes.length ≠ 9 →
    exec (.companionLinkTrained lanes i) s = .fault .noSuchUnit) ∧
  (∀ s : State, s.j.live = true → s.j.cpn.pair.linkUp = true → s.j.inPair = true → (∀ c ∈ s.j.sw.ctxs, c.xtag = none) →
    let split := fun (p : PairData) => { p with linkUp := false, pairState := .split, peerChecked := false, catchingUp := false,
                                                solo := p.holder, splitEpoch := s.j.wr.epoch, readOnly := p.readOnly || !p.holder,
                                                staleEpoch := if p.readOnly then p.staleEpoch else if p.holder then 0 else s.j.wr.epoch }
    exec .companionLinkDown s = .next (withPair s split) ∧
    (∀ ty, ty = 0 ∨ 15 ≤ ty → ∃ t, exec (.cpnReservedMessage ty) s = .next t ∧
      t.j.cpn.pair = split { s.j.cpn.pair with retraining := true } ∧
      (t.j.counter 0xB0108).count = (s.j.counter 0xB0108).count + 1 ∧
      t = { s with j := { s.j with cpn := { s.j.cpn with pair := t.j.cpn.pair }, ctrs := t.j.ctrs } }) ∧
    (∀ n uncorr, s.j.see.arm = false → 1000 < n ∨ uncorr = true → ∃ t, exec (.companionLinkErrors n uncorr) s = .next t ∧
      t.j.cpn.pair = split { s.j.cpn.pair with retraining := true } ∧
      (t.j.counter 0xB0108).count = (s.j.counter 0xB0108).count + 1 ∧ t.j.log.head = s.j.log.head + 1) ∧
    (∀ n, s.j.see.arm = false → n ≤ 1000 → exec (.companionLinkErrors n false) s = .next s) ∧
    (∀ ty, 1 ≤ ty → ty ≤ 14 → exec (.cpnReservedMessage ty) s = .next s)) ∧
  (∀ (s : State) (seq : Nat) (m : Sent), s.j.live = true → s.j.cpn.pair.linkUp = true →
    (s.j.cpn.pair.replay.find? fun m => m.seq == seq) = some m →
    ∃ t, exec (.cpnReplayTimeout seq) s = .next t ∧ t.j.out = m.msg :: s.j.out ∧
      (t.j.counter 0xB0110).count = (s.j.counter 0xB0110).count + 1 ∧
      t = { s with j := { s.j with out := t.j.out, ctrs := t.j.ctrs } }) ∧
  (∀ (s : State) (lease epoch : Nat), s.j.live = true → s.j.cpn.pair.linkUp = true → s.j.cpn.pair.peerChecked = true →
    s.j.cpn.pair.pairState = .checking →
    (s.j.toSecondary lease = true → s.j.blank = false → s.j.wr.journal = [] → s.j.wr.commits = [] → s.j.wr.epoch ≤ s.j.cpn.pair.splitEpoch →
      ∃ t, exec (.pairRejoin lease epoch) s = .next t ∧ t.j.cpn.pair.lease = lease ∧ t.j.cpn.pair.holder = false ∧
        t.j.cpn.pair.readOnly = true ∧ t.j.cpn.pair.catchingUp = true ∧ t.j.wr.epoch = s.j.wr.epoch ∧ t.j.cat = s.j.cat) ∧
    (s.j.toSecondary lease = false → s.j.cpn.pair.behind = false → s.j.wr.journal = [] → epoch ≠ 0 →
      ∃ t, exec (.pairRejoin lease epoch) s = .next t ∧ t.j.cpn.pair.holder = true ∧ t.j.cpn.pair.catchingUp = true ∧
        t.j.cpn.pair.pairState = .split ∧ t.j.cat = s.j.cat)) ∧
  (∀ s : State, s.j.live = true → s.j.cpn.pair.linkUp = true → s.j.cpn.pair.behind = false → s.j.cpn.pair.catchingUp = true →
    s.j.wr.journal = [] →
    exec .catchUpComplete s = .next (withPair s fun p =>
      { p with pairState := .paired, catchingUp := false, solo := false, readOnly := false, staleEpoch := 0 }))

/-- R354 to R357, R360: a renewal of the highest number is acknowledged, an acknowledgement in time makes the lease run from
the renewal's sending; the holder renews to the companion and the witness; a lapse makes it read-only; a granted take makes
the other module primary with the next number, or BEHIND below the ceiling, which an operator alone may force; RELINQUISH
passes the lease with the next number. -/
def Obligations.LeaseAndWitness : Prop :=
  (∀ (s : State) (lease epoch ceiling floor : Nat) (h : BitVec 96), s.j.live = true → s.j.inPair = true → h ≠ s.j.dom.serial →
    (s.j.cpn.pair.lease < lease ∨ s.j.cpn.pair.holder = false ∧ s.j.cpn.pair.lease = lease →
      s.j.cpn.pair.linkUp = true → ∃ t, exec (.renew lease h epoch ceiling floor) s = .next t ∧
        t.j.cpn.pair.lease = lease ∧ t.j.cpn.pair.holder = false ∧ t.j.cpn.pair.ackedAt = s.j.time ∧
        t.j.cpn.pair.peerEpoch = epoch ∧ t.j.cpn.pair.peerFloor = some floor ∧
        t.j.out = .cpn 0x02 (s.j.cpn.pair.sendSeq + 1) lease s.j.wr.epoch ceiling (leBytes 8 s.j.ownFloor)
          (cpnHeader 0x02 (s.j.cpn.pair.sendSeq + 1) lease s.j.wr.epoch ceiling (leBytes 8 s.j.ownFloor)) :: s.j.out ∧
        t = { s with j := { s.j with cpn := { s.j.cpn with pair := t.j.cpn.pair }, out := t.j.out } }) ∧
    (lease < s.j.cpn.pair.lease → exec (.renew lease h epoch ceiling floor) s = .next s)) ∧
  (∀ (s : State) (lease epoch ceiling floor : Nat), s.j.live = true → s.j.inPair = true → s.j.cpn.pair.holder = true →
    lease = s.j.cpn.pair.lease →
    exec (.renewAck lease s.j.dom.serial epoch ceiling floor) s = .next (withPair s fun p =>
      { p with peerEpoch := epoch, peerFloor := some floor, countedAt := p.sentAt, readOnly := p.behind,
               staleEpoch := if p.behind then p.staleEpoch else 0 })) ∧
  (∀ s : State, s.j.live = true → s.j.cpn.pair.holder = true → s.j.isl.whole = false → s.j.cpn.pair.linkUp = true →
    s.j.alm.net.witness = true →
    ∃ t, exec .leaseRenewTimer s = .next t ∧ t.j.cpn.pair.sentAt = s.j.time ∧
      t.j.out = .witness false s.j.cpn.pair.lease s.j.renewalCeiling ::
        .cpn 0x01 (s.j.cpn.pair.sendSeq + 1) s.j.cpn.pair.lease s.j.wr.epoch s.j.renewalCeiling (leBytes 8 s.j.ownFloor)
          (cpnHeader 0x01 (s.j.cpn.pair.sendSeq + 1) s.j.cpn.pair.lease s.j.wr.epoch s.j.renewalCeiling (leBytes 8 s.j.ownFloor))
        :: s.j.out ∧
      t = { s with j := { s.j with cpn := { s.j.cpn with pair := t.j.cpn.pair }, out := t.j.out } }) ∧
  (∀ s : State, s.j.live = true → s.j.cpn.pair.holder = true → s.j.cpn.pair.readOnly = false →
    exec .leaseLapse s = .next (withPair s fun p => { p with readOnly := true, staleEpoch := s.j.wr.epoch, witnessOk := false })) ∧
  (∀ s : State, s.j.live = true → s.j.cpn.pair.holder = false → s.j.cpn.pair.mode ≠ 0 → s.j.alm.net.witness = true →
    s.j.isl.whole = false →
    exec .takeWaitElapsed s = .next { s with j := { s.j with out := .witness true s.j.cpn.pair.lease 0 :: s.j.out } }) ∧
  (∀ s : State, s.j.live = true →
    exec (.witnessReply .refused) s = .next (withPair s fun p => { p with witnessOk := false }) ∧
    (∀ c, s.j.cpn.pair.holder = true → exec (.witnessReply (.renewGranted s.j.cpn.pair.lease c)) s
      = .next (withPair s fun p => { p with witnessOk := true, ceiling := c, countedAt := p.sentAt, readOnly := p.behind,
                                            staleEpoch := if p.behind then p.staleEpoch else 0 })) ∧
    (∀ c, s.j.cpn.pair.holder = false → ∃ t, exec (.witnessReply (.takeGranted (s.j.cpn.pair.lease + 1) c)) s = .next t ∧
      t.j.cpn.pair.lease = s.j.cpn.pair.lease + 1 ∧ t.j.cpn.pair.holder = true ∧ t.j.cpn.pair.ceiling = c ∧
      t.j.cpn.pair.behind = (if c ≤ s.j.wr.epoch then false else true) ∧
      (c ≤ s.j.wr.epoch → t.j.cpn.pair.readOnly = false ∧ t.j.cpn.pair.solo = true) ∧
      (t.j.counter 0xB0100).count = (s.j.counter 0xB0100).count + 1 ∧ t.j.cat = s.j.cat ∧ t.j.wr.journal = s.j.wr.journal)) ∧
  (∀ s : State, s.j.live = true → s.j.cpn.pair.behind = true → s.j.wr.journal = [] →
    (∃ t, exec (.leaseForce .operator) s = .next t ∧ t.j.cpn.pair.behind = false ∧ t.j.cpn.pair.readOnly = false ∧
      t.j.cpn.pair.solo = true ∧ t.j.wr.formed = s.j.cpn.pair.ceiling ∧ t.j.out = .mgmt true 0 :: s.j.out) ∧
    (∀ r : Role, r ≠ .operator → exec (.leaseForce r) s = .next { s with j := { s.j with out := .mgmt false 0 :: s.j.out } })) ∧
  (∀ (s : State) (epoch : Nat), s.j.live = true → s.j.inPair = true → s.j.cpn.pair.holder = false →
    (∀ c ∈ s.j.sw.ctxs, c.xtag = none) →
    ∃ t, exec (.relinquish s.j.cpn.pair.lease epoch) s = .next t ∧ t.j.cpn.pair.lease = s.j.cpn.pair.lease + 1 ∧
      t.j.cpn.pair.holder = true ∧ t.j.cpn.pair.readOnly = false ∧ t.j.cpn.pair.pairState = .split ∧ t.j.cpn.pair.peerEpoch = epoch ∧
      (t.j.counter 0xB0100).count = (s.j.counter 0xB0100).count + 1 ∧ t.j.cat = s.j.cat)

/-- R352, R353, R359, R361, R362: the secondary appends a journal record and takes a commit in epoch order, the primary
notes what is durable and acknowledged there; at the primary a forwarded write is accepted, or waits its turn, and a fence
and any other command follow theirs, a command for the secondary waits there, and the outcome completes the command where it
was submitted; a cross-checked query runs pinned and its digests are kept; a restored object's bytes are written; FRAME_DONE
is noted for the frame that drains. -/
def Obligations.PairMessages : Prop :=
  (∀ (s : State) (r : JRec), s.j.live = true → s.j.takesJournal = true → (∀ e ∈ s.j.wr.journal, e.jr.seq ≠ r.seq) →
    ∃ (t : State) (e : JEntry), exec (.journal r) s = .next t ∧ t.j.wr.journal = s.j.wr.journal ++ [e] ∧ e.jr = r ∧
      e.acked = false ∧ e.published = false ∧ t.j.wr.nextSeq = r.seq + 1 ∧
      t = { s with j := { s.j with wr := t.j.wr, cat := { s.j.cat with colls := t.j.cat.colls } } }) ∧
  (∀ (s : State) (r : JRec), s.j.live = true → s.j.takesJournal = false → exec (.journal r) s = .next s) ∧
  (∀ (s : State) (epoch : Nat) (seqs : List Nat), s.j.live = true → s.j.takesJournal = true → s.j.cpn.pair.linkUp = true →
    s.j.wr.epoch < epoch → (∀ c ∈ s.j.wr.commits, c.epoch < epoch) →
    ∃ (t : State) (c : Commit), exec (.commit epoch seqs) s = .next t ∧ t.j.wr.commits = s.j.wr.commits ++ [c] ∧
      c.epoch = epoch ∧ c.seqs = seqs ∧ t.j.wr.formed = max s.j.wr.formed epoch ∧ t.j.wr.epoch = s.j.wr.epoch ∧
      (∀ e ∈ t.j.wr.journal, e.jr.seq ∈ seqs → e.epoch = some epoch) ∧
      t.j.out = .cpn 0x06 (s.j.cpn.pair.sendSeq + 1) epoch 0 0 [] (cpnHeader 0x06 (s.j.cpn.pair.sendSeq + 1) epoch 0 0 []) :: s.j.out) ∧
  (∀ (s : State) (seq : Nat), s.j.live = true → s.j.mirroring = true →
    (∃ k : Jenjor, exec (.durable seq) s = .next { s with j := k.ackReady } ∧
      k.cpn.pair.peerDurable = max s.j.cpn.pair.peerDurable seq ∧
      k.wr.journal = (s.j.wr.journal.map fun e => if e.jr.seq ≤ seq then { e with peerDurable := true } else e) ∧
      k.wr = { s.j.wr with journal := k.wr.journal } ∧ k.cat = s.j.cat) ∧
    (∃ t, exec (.commitAck seq) s = .next t ∧
      t.j.wr.commits = (s.j.wr.commits.map fun c => if c.epoch ≤ seq then { c with peerAck := true } else c) ∧
      t = { s with j := { s.j with wr := { s.j.wr with commits := t.j.wr.commits } } }) ∧
    (∀ (tag : Nat) (d : Desc) (op : List Byte),
      let f : Fetched := { ref := s.j.peerRef forwardQueue (some tag), d := d }
      let later : State := { s with j := { s.j with qs := { s.j.qs with fetched := s.j.qs.fetched ++ [f] } } }
      let waits := s.j.acceptWaits f op || s.j.qs.fetched.any fun x => x.ref.q == forwardQueue && isWrite (dField x.d 0 1)
      (isWrite (dField d 0 1) = true → waits = false → exec (.forward tag d op) s = .next { s with j := s.j.acceptWrite f op }) ∧
      (isWrite (dField d 0 1) = true → waits = true → exec (.forward tag d op) s = .next later) ∧
      (dField d 0 1 = 0x25 → exec (.forward tag d op) s = .next { s with j := s.j.fence f }) ∧
      (isWrite (dField d 0 1) = false → dField d 0 1 ≠ 0x25 → exec (.forward tag d op) s = .next later))) ∧
  (∀ (s : State) (tag : Nat) (d : Desc) (op : List Byte), s.j.live = true → s.j.mirroring = false → s.j.mirrored = true →
    exec (.forward tag d op) s = .next { s with j := { s.j with qs := { s.j.qs with
      fetched := s.j.qs.fetched ++ [{ ref := s.j.peerRef replicaQueue none, d := d }] } } }) ∧
  (∀ (s : State) (tag : Nat) (st : Status) (v0 v1 : BitVec 64) (f : Fetched) (n : Nat), s.j.live = true →
    (s.j.cpn.pair.forwards.find? fun x => x.1 == tag) = some (n, f) → dField f.d 0 1 ≠ 0x40 →
    ∃ k : Jenjor, exec (.forwardDone tag st.code v0 v1) s = .next { s with j := k.complete f.ref st v0 v1 none } ∧
      k = { s.j with cpn := { s.j.cpn with pair := { s.j.cpn.pair with
        forwards := s.j.cpn.pair.forwards.filter fun x => x.1 != tag } } }) ∧
  (∀ (s : State) (tag epoch frame : Nat) (d : Desc) (op : List Byte) (c : Coll), s.j.live = true → s.j.pairedIn 3 = true →
    s.j.liveColl? (dField d 4 2) = some c → qTokens d = false → firstStatus (queryChecks s.j d op) = none →
    s.j.contextsUsed < 16384 →
    ∃ (k : Jenjor) (x : Ctx), exec (.xquery tag d op epoch frame) s = .next { s with j := enterVector k x.id c d op } ∧
      k.sw.ctxs = s.j.sw.ctxs ++ [x] ∧ x.pinned = true ∧ x.epoch = epoch ∧ x.frame = frame ∧ x.xtag = some (tag, false) ∧ x.d = d ∧
      k = { s.j with sw := { s.j.sw with ctxs := k.sw.ctxs, arrivals := s.j.sw.arrivals + 1 } }) ∧
  (∀ (s : State) (tag : Nat) (final coarse : BitVec 256) (took : Bool), s.j.live = true →
    ∃ t, exec (.xdigest tag final coarse took) s = .next t ∧
      t.j.sw.ctxs = (s.j.sw.ctxs.map fun c => if c.xtag = some (tag, true) then { c with xpeer := some (final, coarse, took) } else c) ∧
      t = { s with j := { s.j with sw := { s.j.sw with ctxs := t.j.sw.ctxs } } }) ∧
  (∀ (s : State) (addr : Nat) (data : List Byte) (o : Obj), s.j.live = true → s.j.cpn.pair.pairState = .restoringTarget →
    s.j.objAt addr = some o →
    ∃ t, exec (.restore (.objectBytes addr data)) s = .next t ∧ t.mem = Memory.writeBytes s.mem addr data ∧
      (∀ a, a < addr ∨ addr + data.length ≤ a → Memory.read t.mem a = Memory.read s.mem a) ∧ t.rmem = s.rmem ∧
      t.j = { s.j with cat := { s.j.cat with objs := t.j.cat.objs, slews := t.j.cat.slews } }) ∧
  (∀ (s : State) (n : Nat) (c : Coll) (b : BiasPlane), s.j.live = true → s.j.coll? n = some c → c.bias = some b → 1 ≤ b.frame →
    ∃ t, exec (.frameDone n (b.frame - 1)) s = .next t ∧ t.j.coll? n = some { c with bias := some { b with peerDone := true } } ∧
      t = { s with j := { s.j with cat := { s.j.cat with colls := t.j.cat.colls } } })

/-- R350, R377, R378, R379, R380, R381, R391: each SPDM request outside a session is answered in its mailbox and changes
nothing else of the module but the words it draws; a message during another mailbox's is answered Busy and counted;
KEY_EXCHANGE adds a session up to eight. The response and error codes are the model's reading of the SPDM standard (log
entry 22). And: FINISH completes a session or ends it; a secured request is served only in a finished session of its
mailbox; END_SESSION and sixty silent seconds end it; DEBUG_UNLOCK opens debug only to Orowick, unbound and in SERVICE;
PAIR_CHECK is the companion's alone and checks the pair. -/
def Obligations.SpdmRequestsAndSessions : Prop :=
  (∀ (s : State) (mb : Mailbox), s.j.live = true →
    exec (.getVersion mb false) s = .next (replied s mb 0x04 [0x00, 0x12]) ∧
    (∃ d, exec (.getCapabilities mb false) s = .next (replied s mb 0x61 d)) ∧
    (∃ d, exec (.negotiateAlgorithms mb false) s = .next (replied s mb 0x63 d)) ∧
    (∃ d, d.length = 48 ∧ exec (.getDigests mb false) s = .next (replied s mb 0x01 d)) ∧
    (∀ slot off len, slot ≠ 0 → exec (.getCertificate mb false slot off len) s = .next (replied s mb 0x7F [0x01])) ∧
    (∀ off len, off ≤ certChain.length →
      let part := (certChain.drop off).take len
      exec (.getCertificate mb false 0 off len) s
        = .next (replied s mb 0x02 (leBytes 2 part.length ++ leBytes 2 (certChain.length - off - part.length) ++ part)))) ∧
  (∀ (s : State) (mb : Mailbox) (nonce : BitVec 256), s.j.live = true →
    (s.j.identityLost = true → exec (.challenge mb false nonce) s = .next (replied s mb 0x7F [0x05]) ∧
      exec (.getMeasurements mb false nonce) s = .next (replied s mb 0x7F [0x05])) ∧
    (s.j.identityLost = false →
      (∃ (n : Nat) (a sig : List Byte), exec (.challenge mb false nonce) s
        = .next (replied { s with j := { s.j with freeIdx := n } } mb 0x03 (a ++ leBytes 32 nonce.toNat ++ sig))) ∧
      (∃ (n : Nat) (image : BitVec 384) (sig : List Byte),
        let blocks := s.j.measurements image
        exec (.getMeasurements mb false nonce) s
          = .next (replied { s with j := { s.j with freeIdx := n } } mb 0x60
              ([15] ++ leBytes 3 blocks.length ++ blocks ++ leBytes 32 nonce.toNat ++ sig))))) ∧
  (∀ (s : State) (mb : Mailbox) (nonce : BitVec 256) (chain : ChainRoot) (slot off len sid : Nat) (ok : Bool), s.j.live = true →
    ∀ c ∈ [Instr.getVersion mb true, .getCapabilities mb true, .negotiateAlgorithms mb true, .getDigests mb true,
        .getCertificate mb true slot off len, .challenge mb true nonce, .getMeasurements mb true nonce, .keyExchange mb true chain,
        .finish mb true sid ok, .heartbeat mb true sid, .keyUpdate mb true sid, .endSession mb true sid],
      ∃ ctrs, exec c s = .next (replied { s with j := { s.j with ctrs := ctrs } } mb 0x7F [0x03]) ∧
        (({ s.j with ctrs := ctrs } : Jenjor).counter 0xC0808).count = (s.j.counter 0xC0808).count + 1) ∧
  (∀ (s : State) (mb : Mailbox) (chain : ChainRoot), s.j.live = true →
    (8 ≤ s.j.dom.sessions.length → exec (.keyExchange mb false chain) s = .next (replied s mb 0x7F [0x0A])) ∧
    (s.j.dom.sessions.length < 8 → s.j.identityLost = false → ∃ (n : Nat) (d : List Byte),
      let x : Session := { id := s.j.dom.nextSession, mb := mb, root := chain, finished := false }
      let dom := { s.j.dom with sessions := s.j.dom.sessions ++ [x], nextSession := s.j.dom.nextSession + 1 }
      exec (.keyExchange mb false chain) s = .next (replied { s with j := { s.j with freeIdx := n, dom := dom } } mb 0x64 d))) ∧
  (∀ (s : State) (mb : Mailbox) (sid : Nat) (x : Session), s.j.live = true → s.j.session? mb sid = some x →
    (let done := fun (y : Session) => if y.id = sid then { y with finished := true } else y
     let dom := { s.j.dom with sessions := s.j.dom.sessions.map done }
     exec (.finish mb false sid true) s = .next (replied { s with j := { s.j with dom := dom } } mb 0x65 [])) ∧
    (let dom := { s.j.dom with sessions := s.j.dom.sessions.filter fun y => y.id != sid }
     exec (.finish mb false sid false) s = .next (replied { s with j := { s.j with dom := dom } } mb 0x7F [0x06]) ∧
     (x.finished = true → exec (.endSession mb false sid) s = .next (replied { s with j := { s.j with dom := dom } } mb 0x6C []))) ∧
    (x.finished = true → exec (.heartbeat mb false sid) s = .next (replied s mb 0x68 []) ∧
      exec (.keyUpdate mb false sid) s = .next (replied s mb 0x69 []))) ∧
  (∀ (s : State) (mb : Mailbox) (sid slot : Nat) (key token : List Byte) (persist : Bool) (g : BitVec 384) (rev : BitVec 16),
    s.j.live = true → (∀ x, s.j.session? mb sid = some x → x.finished = false) →
    ∀ c ∈ [Instr.heartbeat mb false sid, .keyUpdate mb false sid, .endSession mb false sid, .slotWrite mb false sid slot key persist,
        .slotErase mb false sid slot, .slotStatus mb false sid slot, .debugUnlock mb false sid token, .pairCheck mb false sid g rev,
        .endTenancy mb false sid],
      exec c s = .next (replied s mb 0x7F [0x06])) ∧
  (∀ (s : State) (sid : Nat), s.j.live = true →
    let dom := { s.j.dom with sessions := s.j.dom.sessions.filter fun y => y.id != sid }
    exec (.spdmSessionTimeout sid) s = .next { s with j := { s.j with dom := dom } }) ∧
  (∀ (s : State) (mb : Mailbox) (sid : Nat) (token : List Byte) (x : Session), s.j.live = true →
    s.j.session? mb sid = some x → x.finished = true →
    (x.root = .orowick → s.j.dom.tenant = .unbound → s.j.dom.life = .service → s.j.dom.latched.getD 5 0 = 0 →
      ¬ 5 ∈ s.j.dom.unsettled → Config.tokenVerifies s.j.dom.serial sid token = true →
      let dom := { s.j.dom with debug := true }
      exec (.debugUnlock mb false sid token) s = .next (replied { s with j := { s.j with dom := dom } } mb 0x7E (vendor 0 []))) ∧
    (x.root ≠ .orowick ∨ s.j.dom.tenant ≠ .unbound ∨ s.j.dom.life ≠ .service →
      exec (.debugUnlock mb false sid token) s = .next (replied s mb 0x7E (vendor 4 [])))) ∧
  (∀ (s : State) (sid : Nat) (g : BitVec 384) (rev : BitVec 16) (x : Session), s.j.live = true →
    s.j.session? .companion sid = some x → x.finished = true →
    (x.root = .companionModule s.j.cpn.pair.companion →
      exec (.pairCheck .companion false sid g rev) s = .next (replied { s with j := s.j.pairChecked g rev } .companion 0x7E
        (vendor 0 (leBytes 48 s.j.dom.digest.toNat ++ leBytes 2 s.j.arithRev)))) ∧
    (x.root ≠ .companionModule s.j.cpn.pair.companion →
      exec (.pairCheck .companion false sid g rev) s = .next (replied s .companion 0x7E (vendor 4 [])))) ∧
  (∀ (j : Jenjor) (rev : BitVec 16), j.cpn.pair.pairState ≠ .unpaired → j.dom.tenant = .bound → rev.toNat = j.arithRev →
    j.pairChecked j.dom.digest rev = j.mapPair fun p => { p with peerChecked := true }) ∧
  (∀ (s : State) (mb : Mailbox) (sid : Nat) (g : BitVec 384) (rev : BitVec 16) (x : Session), s.j.live = true → mb ≠ .companion →
    s.j.session? mb sid = some x → x.finished = true →
    exec (.pairCheck mb false sid g rev) s = .next (replied s mb 0x7E (vendor 4 [])))

/-- R381, R382, R383, R384: the table of key slots for SLOT_WRITE, SLOT_ERASE and SLOT_STATUS: who may, what material, what
each slot state answers and becomes; two loaded slots bind the tenant, and slot 0 written again ends its suspension with
every tile region read as zeros. -/
def Obligations.SlotCommands : Prop :=
  (∀ (s : State) (mb : Mailbox) (sid n : Nat) (key : List Byte) (p : Bool) (x : Session), s.j.live = true →
    s.j.session? mb sid = some x → x.finished = true →
    (x.root ≠ .root s.j.dom.digest ∨ s.j.dom.tenant = .unbound ∨ s.j.dom.tenant = .scrubbing →
      exec (.slotWrite mb false sid n key p) s = .next (replied s mb 0x7E (vendor 4 [])) ∧
      exec (.slotErase mb false sid n) s = .next (replied s mb 0x7E (vendor 4 [])) ∧
      exec (.slotStatus mb false sid n) s = .next (replied s mb 0x7E (vendor 4 []))) ∧
    (s.j.dom.tenant = .suspended → n ≠ 0 → exec (.slotWrite mb false sid n key p) s = .next (replied s mb 0x7E (vendor 4 []))) ∧
    (n = 1 ∧ 1 < s.j.dom.slots.length ∨ s.j.dom.tenant = .binding ∧ n < s.j.dom.slots.length →
      exec (.slotErase mb false sid n) s = .next (replied s mb 0x7E (vendor 4 [])))) ∧
  (∀ (s : State) (mb : Mailbox) (sid n : Nat) (key : List Byte) (p : Bool) (x : Session) (k : KeySlot), s.j.live = true →
    s.j.session? mb sid = some x → x.finished = true → x.root = .root s.j.dom.digest →
    s.j.dom.tenant = .binding ∨ s.j.dom.tenant = .bound → s.j.slot? n = some k →
    (keyBad n key = true → exec (.slotWrite mb false sid n key p) s = .next (replied s mb 0x7E (vendor 2 []))) ∧
    (keyBad n key = false →
      (k.state = .draining → exec (.slotWrite mb false sid n key p) s = .next (replied s mb 0x7E (vendor 1 []))) ∧
      (k.state = .loaded → k.staged.isSome = true →
        exec (.slotWrite mb false sid n key p) s = .next (replied s mb 0x7E (vendor 1 []))) ∧
      (k.state = .loaded → k.staged = none → k.generation = 65535 →
        exec (.slotWrite mb false sid n key p) s = .next (replied s mb 0x7E (vendor 3 []))) ∧
      (k.state = .loaded → k.staged = none → k.generation ≠ 65535 → k.prev.isSome = true → ∃ t,
        exec (.slotWrite mb false sid n key p) s = .next t ∧ t.j.slot? n = some { k with staged := some (key, p) } ∧
        (∀ i, i ≠ n → t.j.slot? i = s.j.slot? i) ∧ t.j.out = .spdm mb 0x7E (vendor 5 []) :: s.j.out) ∧
      (k.state = .empty → ∃ t, exec (.slotWrite mb false sid n key p) s = .next t ∧
        t.j.slot? n = some { k with state := .loaded, generation := 1, current := key, persist := p } ∧
        (∀ i, i ≠ n → t.j.slot? i = s.j.slot? i) ∧ t.j.out = .spdm mb 0x7E (vendor 0 []) :: s.j.out ∧ t.mem = s.mem ∧
        t.rmem = s.rmem ∧ (n < 2 → (s.j.slot? (1 - n)).any (fun y => y.state == .loaded) = true → t.j.dom.tenant = .bound)) ∧
      (k.state = .loaded → k.staged = none → k.generation ≠ 65535 → k.prev = none →
        (n = 1 → ∃ t, exec (.slotWrite mb false sid n key p) s = .next t ∧ t.j.dom.rekeyVault = true ∧
          t.j.slot? n = some { k with generation := k.generation + 1, prev := some k.current, current := key, persist := p }) ∧
        (2 ≤ n → (∃ m ∈ s.j.coe.models, m.phase ≠ .empty ∧ m.keySlot = n ∧ m.keyGen ≠ k.generation + 1) → ∃ t,
          exec (.slotWrite mb false sid n key p) s = .next t ∧
          t.j.slot? n = some { k with generation := k.generation + 1, prev := some k.current, current := key, persist := p }) ∧
        (2 ≤ n → (∀ m ∈ s.j.coe.models, m.phase = .empty ∨ m.keySlot ≠ n) → ∃ t,
          exec (.slotWrite mb false sid n key p) s = .next t ∧
          t.j.slot? n = some { k with generation := k.generation + 1, prev := none, current := key, persist := p })))) ∧
  (∀ (s : State) (mb : Mailbox) (sid : Nat) (key : List Byte) (p : Bool) (x : Session) (k : KeySlot), s.j.live = true →
    s.j.session? mb sid = some x → x.finished = true → x.root = .root s.j.dom.digest → s.j.dom.tenant = .suspended →
    s.j.slot? 0 = some k → k.state = .empty → keyBad 0 key = false →
    ∃ t, exec (.slotWrite mb false sid 0 key p) s = .next t ∧ t.j.dom.tenant = .bound ∧
      (∀ o ∈ s.j.cat.objs, o.kind = 8 → ∀ a, o.base ≤ a → a < o.base + o.bytes → Memory.read t.mem a = 0) ∧ t.rmem = s.rmem) ∧
  (∀ (s : State) (mb : Mailbox) (sid n : Nat) (x : Session) (k : KeySlot), s.j.live = true →
    s.j.session? mb sid = some x → x.finished = true → x.root = .root s.j.dom.digest →
    s.j.dom.tenant = .bound ∨ s.j.dom.tenant = .suspended → s.j.slot? n = some k →
    (n ≠ 1 → k.state ≠ .loaded → exec (.slotErase mb false sid n) s = .next (replied s mb 0x7E (vendor 0 []))) ∧
    (n ≠ 1 → k.state = .loaded →
      exec (.slotErase mb false sid n) s = .next (replied { s with j := s.j.eraseSlot n } mb 0x7E (vendor 0 []))) ∧
    (2 ≤ n → (s.j.eraseSlot n).slot? n = some { k with state := .draining, staged := none }) ∧
    (∃ d, exec (.slotStatus mb false sid n) s = .next (replied s mb 0x7E (vendor 0 d)) ∧ d.length = 4))

/-- R383, R384, R388, R389: an erase ends with the slot empty, slot 0's with the tenancy suspended and every sweep-memory
copy given up; a previous generation is zeroised when its last use ends, and a staged one then becomes current; a rekey
batch stages twins of the other KEY_GEN; the vault's rekey ends its previous generation. -/
def Obligations.KeyGenerations : Prop :=
  (∀ (s : State) (n : Nat) (k : KeySlot), s.j.live = true → n < 64 → s.j.slot? n = some k →
    (k.state ≠ .draining → exec (.slotEraseTimeout n) s = .next s) ∧
    (k.state = .draining → 2 ≤ n → (∀ x ∈ s.j.coe.models, x.phase = .empty ∨ x.keySlot ≠ n) →
      ∃ t, exec (.slotEraseTimeout n) s = .next t ∧ t.j.slot? n = some emptySlot ∧ (∀ i, i ≠ n → t.j.slot? i = s.j.slot? i) ∧
        (let dom := { s.j.dom with slots := t.j.dom.slots, sealedRec := t.j.dom.sealedRec }
         t = { s with j := { s.j with dom := dom } })) ∧
    (k.state = .draining → n = 0 → ∃ t, exec (.slotEraseTimeout n) s = .next t ∧ t.mem = s.mem ∧ t.rmem = s.rmem ∧
      (∀ k, t.j.slot? 0 = some k → k = emptySlot) ∧ t.j.dom.tenant = .suspended ∧ t.j.dom.rekeySweep = false ∧ t.j.spg.lines = [] ∧
      (∀ o ∈ t.j.cat.objs, o.kind = 1 ∨ o.kind = 2 ∨ o.kind = 4 → o.tier = .vault))) ∧
  (∀ (s : State) (n : Nat) (k : KeySlot), s.j.live = true → n < 64 → s.j.slot? n = some k →
    (k.prev = none ∨ s.j.oldUse n = true → exec (.keyGenerationRetire n) s = .next s) ∧
    (k.prev.isSome = true → s.j.oldUse n = false → k.staged = none → ∃ t, exec (.keyGenerationRetire n) s = .next t ∧
      t.j.slot? n = some { k with prev := none } ∧ t.j.cat = s.j.cat ∧ t.mem = s.mem) ∧
    (∀ key p, k.prev.isSome = true → s.j.oldUse n = false → k.staged = some (key, p) → ∃ t,
      exec (.keyGenerationRetire n) s = .next t ∧ t.mem = s.mem ∧
      t.j.slot? n = some { k with generation := k.generation + 1, prev := some k.current, current := key, staged := none, persist := p })) ∧
  (∀ (s : State) (n : Nat), 64 ≤ n →
    exec (.slotEraseTimeout n) s = .fault .noSuchUnit ∧ exec (.keyGenerationRetire n) s = .fault .noSuchUnit) ∧
  (∀ (s : State) (coll : Nat) (ps : List Plate) (r : Ring), s.j.live = true → s.j.dom.rekeySweep = true →
    s.j.ringOf coll = some r → s.j.ring? r.num = some r → s.j.rekeyNext = some coll →
    ps ≠ [] → ps.length ≤ 8192 → (ps.map fun p => p.pid).Nodup → s.j.oldPlates coll = ps →
    (∀ r ∈ s.j.cat.replatings, r.cause ≠ .rekey) → ceilDiv ps.length 8 ≤ s.j.poolFree →
    ∃ (t : State) (job : Replating), exec (.rekeyBatch coll (ps.map fun p => p.pid)) s = .next t ∧
      t.j.cat.replatings = s.j.cat.replatings ++ [job] ∧ job.coll = coll ∧ job.cause = .rekey ∧
      job.sources = ps.map (fun p => p.pid) ∧ job.repl.length = ps.length ∧ (∀ q ∈ job.repl, q.keyGen = s.j.genBit) ∧
      job.repl.map (fun q => (q.num, q.recs, q.dlog, q.tomb)) = ps.map (fun q => (q.num, q.recs, q.dlog, q.tomb)) ∧ t.mem = s.mem) ∧
  (∀ (s : State) (coll : Nat) (pids : List Nat), s.j.live = true → s.j.dom.rekeySweep = false →
    exec (.rekeyBatch coll pids) s = .next s) ∧
  (∀ (s : State) (k : KeySlot), s.j.live = true → s.j.slot? 1 = some k →
    (s.j.dom.rekeyVault = false → exec .vaultRekey s = .next s) ∧
    (s.j.dom.rekeyVault = true → k.prev.isSome = true → k.staged = none → ∃ t, exec .vaultRekey s = .next t ∧
      t.j.slot? 1 = some { k with prev := none } ∧ t.j.dom.rekeyVault = false ∧ t.j.cat = s.j.cat ∧ t.mem = s.mem ∧ t.rmem = s.rmem))

/-- R369, R390: BIND, UNBIND and END_TENANCY begin the scrub, where they are accepted, and are refused and recorded
elsewhere; the scrub leaves no key, byte, collection, queue, query or record, and enters the new state; the vault's erase
goes on in the background. -/
def Obligations.TenancyAndScrub : Prop :=
  (∀ (s : State) (g : BitVec 384), s.j.live = true →
    (s.j.dom.tenant = .unbound → s.j.dom.life = .service → s.j.dom.debug = false → s.j.identityLost = false →
      s.j.dom.lifeErase = none → s.j.alm.step = 7 ∨ s.j.alm.step = 8 →
      ∃ t, exec (.bind .operator g) s = .next t ∧ scrubBegun s t (.binding g) ∧ t.j.out.head? = some (.mgmt true 0)) ∧
    (∀ r, r ≠ .operator ∨ s.j.dom.tenant ≠ .unbound ∨ s.j.dom.life ≠ .service ∨ s.j.dom.debug = true ∨ s.j.identityLost = true →
      ∃ t, exec (.bind r g) s = .next t ∧ turnedAway s t)) ∧
  (∀ s : State, s.j.live = true →
    (s.j.dom.tenant = .binding ∨ s.j.dom.tenant = .bound ∨ s.j.dom.tenant = .suspended →
      ∃ t, exec (.unbind .operator) s = .next t ∧ scrubBegun s t .unbound ∧ t.j.out.head? = some (.mgmt true 0)) ∧
    (∀ r, r ≠ .operator ∨ s.j.dom.tenant = .unbound ∨ s.j.dom.tenant = .scrubbing → ∃ t, exec (.unbind r) s = .next t ∧ turnedAway s t)) ∧
  (∀ (s : State) (mb : Mailbox) (sid : Nat) (x : Session), s.j.live = true → s.j.session? mb sid = some x → x.finished = true →
    (x.root = .root s.j.dom.digest → s.j.dom.tenant = .binding ∨ s.j.dom.tenant = .bound ∨ s.j.dom.tenant = .suspended →
      ∃ t, exec (.endTenancy mb false sid) s = .next t ∧ scrubBegun s t .unbound ∧ t.j.out.head? = some (.spdm mb 0x7E (vendor 0 []))) ∧
    (x.root ≠ .root s.j.dom.digest ∨ s.j.dom.tenant = .unbound →
      ∃ t, exec (.endTenancy mb false sid) s = .next t ∧ t.j.dom = s.j.dom ∧ t.j.out = .spdm mb 0x7E (vendor 4 []) :: s.j.out ∧
        t.j.log.head = s.j.log.head + 1 ∧ t.j.cat = s.j.cat ∧ t.mem = s.mem)) ∧
  (∀ (s : State) (us : Nat) (next : ScrubThen), s.j.live = true → s.j.dom.scrub = some next →
    ∃ t, exec (.tenantScrubComplete us) s = .next t ∧ t.mem = [] ∧ t.rmem = [] ∧ t.j.cat.colls = [] ∧ t.j.cat.plates = [] ∧
      t.j.sw.ctxs = [] ∧ t.j.wr.journal = [] ∧ t.j.wr.epoch = 0 ∧ t.j.qs.queues = [queueZero] ∧ t.j.qs.fetched = [] ∧ t.j.log.trace = [] ∧
      t.j.lnk.qps = [] ∧ t.j.cpn.lists = [] ∧ t.j.vlt.erasing = true ∧ t.j.dom.scrub = none ∧ t.j.dom.scrubLast = us % 2 ^ 32 ∧
      t.j.dom.slots = s.j.dom.slots ∧
      (∀ g, next = .binding g → t.j.dom.tenant = .binding ∧ t.j.dom.digest = g) ∧
      (next = .unbound → t.j.dom.tenant = .unbound ∧ t.j.dom.digest = 0) ∧
      (∀ l, next = .lifeCycle l → t.j.dom.tenant = .unbound ∧ t.j.dom.lifeErase = some l)) ∧
  (∀ (s : State) (us : Nat), s.j.dom.scrub = none → exec (.tenantScrubComplete us) s = .next s) ∧
  (∀ s : State, s.j.live = true →
    (s.j.dom.lifeErase = none → exec .vaultBackgroundErase s = .next { s with j := { s.j with vlt := { s.j.vlt with erasing := false } } }) ∧
    (s.j.dom.lifeErase.isSome = true → exec .vaultBackgroundErase s = .next s))

/-- R371, R372, R374, R376, R392, R405: a life-cycle change is accepted while unbound, with Orowick's token, and only ever
advances; FIRMWARE_COMMIT raises F to the running version or 128; a fuse recheck counts and records what disagrees and
changes no latched value; a management session needs a known CA and at most ten handshakes a second. -/
def Obligations.LifeCycleFusesAndSessions : Prop :=
  (∀ (s : State) (token : List Byte), s.j.live = true →
    (s.j.dom.tenant = .unbound → s.j.dom.lifeErase = none → s.j.alm.step = 7 ∨ s.j.alm.step = 8 →
      (s.j.dom.life = .test ∨ s.j.dom.life = .service → Config.tokenVerifies s.j.dom.serial (2 ^ 32 + 3) token = true →
        ∃ t, exec (.lifecycleRma .operator token) s = .next t ∧ scrubBegun s t (.lifeCycle .rma) ∧
          t.j.out.head? = some (.mgmt true 0)) ∧
      (s.j.dom.life ≠ .scrapped → Config.tokenVerifies s.j.dom.serial (2 ^ 32 + 4) token = true →
        ∃ t, exec (.lifecycleScrap .operator token) s = .next t ∧ scrubBegun s t (.lifeCycle .scrapped) ∧
          t.j.out.head? = some (.mgmt true 0))) ∧
    (∀ r, r ≠ .operator ∨ s.j.dom.tenant ≠ .unbound → (∃ t, exec (.lifecycleRma r token) s = .next t ∧ turnedAway s t) ∧
      ∃ t, exec (.lifecycleScrap r token) s = .next t ∧ turnedAway s t) ∧
    (∀ r, s.j.dom.life = .rma → ∃ t, exec (.lifecycleRma r token) s = .next t ∧ turnedAway s t)) ∧
  (∀ s : State, s.j.live = true →
    (∃ t, exec (.firmwareCommit .operator) s = .next t ∧ t.j.dom.secverFuses = max s.j.dom.secverFuses (min 128 s.j.alm.runSecver) ∧
      t.j.out = .mgmt true 0 :: s.j.out ∧ t.j.dom.latched.length = s.j.dom.latched.length ∧
      (∀ i, i = 0 ∨ 5 ≤ i → t.j.dom.latched[i]? = s.j.dom.latched[i]?) ∧
      (let dom := { s.j.dom with secverFuses := t.j.dom.secverFuses, latched := t.j.dom.latched }
       t = { s with j := { s.j with dom := dom, out := t.j.out } })) ∧
    (∀ r, r ≠ .operator → ∃ t, exec (.firmwareCommit r) s = .next t ∧ turnedAway s t)) ∧
  (∀ (s : State), s.j.live = true →
    (let reads := s.j.dom.latched.map fun w => List.replicate 9 w
     exec (.fuseRecheck reads) s = .next s ∧
     ∀ (n : Nat) (w r : BitVec 32) (rs : List (BitVec 32)), s.j.dom.latched[n]? = some w → r ∈ rs → r ≠ w → ∃ t,
       exec (.fuseRecheck (reads.set n rs)) s = .next t ∧ (t.j.counter 0xC0818).count = (s.j.counter 0xC0818).count + 1 ∧
       t.j.log.head = s.j.log.head + 1 ∧ t = { s with j := { s.j with ctrs := t.j.ctrs, log := t.j.log } })) ∧
  (∀ (s : State) (src n k : Nat) (r : Role), s.j.live = true → n ≠ 8 → s.j.alm.cas.lookup n = some r → k < 10 →
    let dom := { s.j.dom with tls := s.j.dom.tls ++ [(n, r)] }
    exec (.mgmtTlsHandshake src (some n) k) s = .next { s with j := { s.j with dom := dom, out := .mgmt true 0 :: s.j.out } }) ∧
  (∀ (s : State) (src k : Nat), s.j.live = true → s.j.alm.step = 9 → s.j.alm.cas = [] → k < 10 →
    let dom := { s.j.dom with tls := s.j.dom.tls ++ [(8, Role.operator)] }
    exec (.mgmtTlsHandshake src (some 8) k) s = .next { s with j := { s.j with dom := dom, out := .mgmt true 0 :: s.j.out } }) ∧
  (∀ (s : State) (src k : Nat) (ca : Option Nat), s.j.live = true →
    ca = none ∨ 10 ≤ k ∨ (∃ n, ca = some n ∧ n ≠ 8 ∧ s.j.alm.cas.lookup n = none) ∨ ca = some 8 ∧ s.j.alm.step ≠ 9 →
    ∃ t, exec (.mgmtTlsHandshake src ca k) s = .next t ∧ (t.j.counter 0xC0820).count = (s.j.counter 0xC0820).count + 1 ∧
      t.j.out = .mgmt false 0 :: s.j.out ∧ t = { s with j := { s.j with ctrs := t.j.ctrs, out := t.j.out } })

/-- R408, R410: a reload that R408 admits takes a catalogue sequence number and waits to be persisted; one that it does not
is refused with its status and counted; one that comes during a write, a switch or another reload waits for it. -/
def Obligations.SectionReloads : Prop :=
  (∀ (s : State) (sec : Section), s.j.live = true → s.j.alm.step = 7 ∨ s.j.alm.step = 8 →
    (s.j.almanacBusy = false → s.j.alm.reloadsWaiting = [] →
      (s.j.reloadStatus sec = none → ∃ (t : State) (r : Reload), exec (.sectionReload none sec) s = .next t ∧ r.src = none ∧
        r.seq = s.j.cat.seq + 1 ∧ r.sec = sec ∧ r.persisted = false ∧ r.entered = [] ∧
        (let cat := { s.j.cat with seq := s.j.cat.seq + 1 }
         let alm := { s.j.alm with reloads := s.j.alm.reloads ++ [r] }
         t = { s with j := { s.j with cat := cat, alm := alm } })) ∧
      (∀ st, s.j.reloadStatus sec = some st → ∃ t, exec (.sectionReload none sec) s = .next t ∧
        t.j.out = .mgmt false (st.code.setWidth 64) :: s.j.out ∧ t.j.log.head = s.j.log.head + 1 ∧
        (t.j.counter 0x628).count = (s.j.counter 0x628).count + 1 ∧
        t = { s with j := { s.j with out := t.j.out, log := t.j.log, ctrs := t.j.ctrs } })) ∧
    (s.j.almanacBusy = true ∨ s.j.alm.reloadsWaiting ≠ [] →
      let alm := { s.j.alm with reloadsWaiting := s.j.alm.reloadsWaiting ++ [(none, sec)] }
      exec (.sectionReload none sec) s = .next { s with j := { s.j with alm := alm } })) ∧
  (∀ (s : State) (sec : Section), s.j.live = true → s.j.alm.step < 7 ∨ s.j.alm.step = 9 →
    ∃ t, exec (.sectionReload none sec) s = .next t ∧ turnedAway s t) ∧
  (∀ (s : State) (q : Nat) (sec : Section) (f : Fetched) (j : Jenjor), s.j.live = true → s.j.takeCatalogue q 0x53 = some (f, j) →
    j.almanacBusy = false → j.alm.reloadsWaiting = [] →
    (j.reloadStatus sec = none → ∃ (t : State) (r : Reload), exec (.sectionReload (some q) sec) s = .next t ∧ r.src = some f.ref ∧
      r.seq = j.cat.seq + 1 ∧ r.sec = sec ∧ r.persisted = false ∧
      (let cat := { j.cat with seq := j.cat.seq + 1 }
       let alm := { j.alm with reloads := j.alm.reloads ++ [r] }
       t = { s with j := { j with cat := cat, alm := alm } })) ∧
    (∀ st, j.reloadStatus sec = some st → ∃ k : Jenjor, exec (.sectionReload (some q) sec) s = .next { s with j := k.refuse f.ref st } ∧
      (k.counter 0x628).count = (j.counter 0x628).count + 1 ∧ k.log.head = j.log.head + 1 ∧
      k = { j with log := k.log, ctrs := k.ctrs })) ∧
  (∀ (s : State) (r : Reload), s.j.live = true → s.j.alm.reloads = [r] → r.persisted = false → s.j.alm.reloadsWaiting = [] →
    s.j.alm.writesWaiting = [] → s.j.alm.switchesWaiting = [] →
    (waitsBoundary r.sec = true → s.j.sw.rings.any sweeping = true → (∀ es, r.sec.body ≠ .rings es) →
      ∃ t, exec .sectionPersisted s = .next t ∧ t.j.alm.generation = secGeneration r.sec ∧ t.j.alm.floor = secGeneration r.sec ∧
        t.j.alm.reloads = [{ r with persisted := true, replaced := s.j.almanacRings, entered := [] }] ∧
        t.j.alm.image = s.j.alm.image.map (putSection r.sec) ∧ t = { s with j := { s.j with alm := t.j.alm } }) ∧
    (∀ es, r.src = none → waitsBoundary r.sec = false → r.sec.body = .queuePlan es → ∃ t, exec .sectionPersisted s = .next t ∧
      t.j.alm.generation = secGeneration r.sec ∧ t.j.alm.floor = secGeneration r.sec ∧ t.j.alm.plan = es ∧ t.j.alm.planSet = true ∧
      t.j.alm.reloads = [] ∧ t.j.alm.image = s.j.alm.image.map (putSection r.sec) ∧
      t.j.out = .mgmt true (BitVec.ofNat 64 (secGeneration r.sec)) :: s.j.out ∧
      (t.j.counter 0x620).count = (s.j.counter 0x620).count + 1 ∧
      t = { s with j := { s.j with alm := t.j.alm, out := t.j.out, ctrs := t.j.ctrs } }) ∧
    (∀ cas w, r.src = none → waitsBoundary r.sec = false → r.sec.body = .security cas w → ∃ t, exec .sectionPersisted s = .next t ∧
      t.j.alm.cas = cas ∧ t.j.alm.witnessCa = w ∧ t.j.dom.tls = s.j.dom.tls.filter cas.contains ∧ t.j.alm.reloads = [])) ∧
  (∀ s : State, s.j.live = true → (∀ r ∈ s.j.alm.reloads, r.persisted = true) → exec .sectionPersisted s = .next s)

/-- R375, R405, R411, R412, R413: FIRMWARE_SWITCH to the running image succeeds at once, to an image that does not
verify or stands below F is refused, to other arithmetic is refused while a ring holds clusters; a switch that is begun
is applied, ending every session, refused where a ring has begun to hold clusters since, or given up by the watchdog with
the old image running. And: an image that R411 admits
is written to both devices and takes effect at the next start, its floor and owner at once; a firmware write replaces
the record that is not running; both are refused and recorded otherwise, and end in a reset in the recovery state. -/
def Obligations.FirmwareAndImageWrites : Prop :=
  (∀ (s : State) (q : Nat) (f : Fetched) (j : Jenjor), s.takes q 0x54 f j →
    let b := dField f.d 8 1 == 1
    let r := if b then j.alm.fwB else j.alm.fwA
    (j.almanacBusy = true →
      let alm := { j.alm with switchesWaiting := j.alm.switchesWaiting ++ [(b, f.ref)] }
      exec (.firmwareSwitch q) s = .next { s with j := { j with alm := alm } }) ∧
    (j.almanacBusy = false → j.alm.reloads = [] → j.alm.reloadsWaiting = [] → j.alm.switchesWaiting = [] →
      (b = j.alm.running → exec (.firmwareSwitch q) s
        = .next { s with j := j.complete f.ref .success 0 (BitVec.ofNat 64 j.alm.runSecver) none }) ∧
      (b ≠ j.alm.running → (fwSecver r < j.dom.secverFuses ∨ r.sigOk = false ∨ r.digestOk = false ∨ r.present = false ∨ fwHeaderOk r = false) →
        exec (.firmwareSwitch q) s = .next { s with j := j.refuse f.ref .parameterInvalid }) ∧
      (b ≠ j.alm.running → j.runnable r = true → fwArith r = j.arithRev →
        let alm := { j.alm with switchTo := some (b, some f.ref) }
        exec (.firmwareSwitch q) s = .next { s with j := { j with alm := alm } }) ∧
      (b ≠ j.alm.running → j.runnable r = true → fwArith r ≠ j.arithRev → j.sw.rings.any holdsClusters = true →
        ∃ k : Jenjor, exec (.firmwareSwitch q) s = .next { s with j := k.refuse f.ref .parameterInvalid } ∧
          k = { j with log := k.log, ctrs := k.ctrs }))) ∧
  (∀ (s : State) (b : Bool) (c : CmdRef), s.j.live = true → s.j.alm.switchTo = some (b, some c) → s.j.alm.reloadsWaiting = [] →
    s.j.alm.writesWaiting = [] → s.j.alm.switchesWaiting = [] →
    let r := if b then s.j.alm.fwB else s.j.alm.fwA
    (r.present = true → fwArith r = s.j.arithRev → ∃ k : Jenjor,
      exec .firmwareSwitchApply s = .next { s with j := k.complete c .success 0 (BitVec.ofNat 64 (fwSecver r)) none } ∧
      k.alm.running = b ∧ k.alm.runSecver = fwSecver r ∧ k.alm.selected = some b ∧ k.alm.switchTo = none ∧ k.dom.sessions = [] ∧
      k.dom.tls = [] ∧ k = { s.j with alm := k.alm, dom := k.dom }) ∧
    (fwArith r ≠ s.j.arithRev → s.j.sw.rings.any holdsClusters = true → ∃ k : Jenjor,
      exec .firmwareSwitchApply s = .next { s with j := k.refuse c .parameterInvalid } ∧ k.alm = { s.j.alm with switchTo := none } ∧
      k = { s.j with alm := k.alm, log := k.log, ctrs := k.ctrs }) ∧
    (let alm := { s.j.alm with switchTo := none }
     exec .firmwareSwitchWatchdog s
       = .next { s with j := ({ s.j with alm := alm } : Jenjor).refuse c .internalError })) ∧
  (∀ s : State, s.j.live = true → s.j.alm.switchTo = none →
    exec .firmwareSwitchApply s = .next s ∧ exec .firmwareSwitchWatchdog s = .next s) ∧
  (∀ (s : State) (img : Image), s.j.live = true →
    (7 ≤ s.j.alm.step → s.j.alm.step ≤ 9 → s.j.imageRefused img = false → s.j.almanacBusy = false → s.j.alm.reloadsWaiting = [] →
      s.j.alm.writesWaiting = [] →
      let alm := { s.j.alm with writing := some img }
      exec (.almanacWrite .operator img) s = .next { s with j := { s.j with alm := alm } }) ∧
    (7 ≤ s.j.alm.step → s.j.alm.step ≤ 9 → s.j.imageRefused img = false → s.j.alm.writing.isSome = true →
      let alm := { s.j.alm with writesWaiting := s.j.alm.writesWaiting ++ [img] }
      exec (.almanacWrite .operator img) s = .next { s with j := { s.j with alm := alm } }) ∧
    (∀ r, r ≠ .operator ∨ s.j.alm.step < 7 ∨ s.j.imageRefused img = true → ∃ t, exec (.almanacWrite r img) s = .next t ∧ turnedAway s t)) ∧
  (∀ (s : State) (img : Image), s.j.live = true → s.j.alm.writing = some img →
    (s.j.alm.step = 9 → ∃ t, exec .almanacWriteComplete s = .next t ∧ t.j.isl.power = .starting ∧ t.j.alm.step = 1 ∧
      t.j.alm.primary.image = some img ∧ t.j.alm.alternate.image = some img ∧ t.j.alm.floor = imageGeneration img ∧
      t.j.alm.owner = img.owner ∧ t.j.out = .mgmt true 0 :: s.j.out ∧ t.rmem = []) ∧
    (s.j.alm.step ≠ 9 → s.j.alm.reloadsWaiting = [] → s.j.alm.writesWaiting = [] → s.j.alm.switchesWaiting = [] →
      ∃ t, exec .almanacWriteComplete s = .next t ∧ t.j.alm.pending = true ∧ t.j.alm.writing = none ∧
        t.j.alm.floor = imageGeneration img ∧ t.j.alm.owner = img.owner ∧ t.j.alm.primary.pendingImage = some img ∧
        t.j.alm.alternate.pendingImage = some img ∧ t.j.alm.image = s.j.alm.image ∧ t.j.out = .mgmt true 0 :: s.j.out ∧
        t = { s with j := { s.j with alm := t.j.alm, out := t.j.out } })) ∧
  (∀ s : State, s.j.live = true → s.j.alm.writing = none → exec .almanacWriteComplete s = .next s) ∧
  (∀ (s : State) (named : Bool) (rec : FwRecord), s.j.live = true →
    (s.j.alm.step = 7 ∨ s.j.alm.step = 8 → s.j.runnable rec = true → fwRecordBad (!s.j.alm.running) rec = false →
      ∃ t, exec (.firmwareWrite .operator named rec) s = .next t ∧
      (if s.j.alm.running then t.j.alm.fwA = rec ∧ t.j.alm.fwB = s.j.alm.fwB else t.j.alm.fwB = rec ∧ t.j.alm.fwA = s.j.alm.fwA) ∧
      t.j.out = .mgmt true 0 :: s.j.out ∧ t = { s with j := { s.j with alm := t.j.alm, out := t.j.out } }) ∧
    (s.j.alm.step = 9 → s.j.runnable rec = true → fwRecordBad named rec = false → ∃ t, exec (.firmwareWrite .operator named rec) s = .next t ∧
      t.j.isl.power = .starting ∧ t.j.alm.step = 1) ∧
    (∀ r, r ≠ .operator ∨ s.j.alm.step < 7 ∨ s.j.runnable rec = false ∨ (s.j.alm.step ≠ 9 ∧ fwRecordBad (!s.j.alm.running) rec = true) ∨
        (s.j.alm.step = 9 ∧ fwRecordBad named rec = true) →
      ∃ t, exec (.firmwareWrite r named rec) s = .next t ∧ turnedAway s t))

/-- R371, R373, R386, R402 to R404, R307: each start-up step, once its report comes, leads to the next: the fuses are
latched where their nine reads agree; firmware and image are found, or the module recovers; every channel that passed
serves, the spare in no place; without a sealed record the module is unbound with no byte kept; with one its tenant is bound
again. A report of another step does nothing. -/
def Obligations.StartSteps : Prop :=
  (∀ (s : State) (reads : List (List (BitVec 32))), s.j.live = true → s.j.alm.step = 1 →
    ∃ t, exec (.startStepComplete (.fuses reads)) s = .next t ∧ t.j.alm.step = 2 ∧ t.j.dom.latched.length = 46 ∧
      t.j.dom.serial = Config.serial ∧ t.j.dom.mac = Config.mac ∧ t.j.dom.stepping = 0xB0 ∧
      s.j.dom.life.code ≤ t.j.dom.life.code ∧ s.j.dom.secverFuses ≤ t.j.dom.secverFuses ∧
      (∀ w, w < 46 → settledReads (reads.getD w []) = true →
        t.j.dom.latched[w]? = some ((reads.getD w []).headD 0) ∧ ¬ w ∈ t.j.dom.unsettled) ∧
      (∀ w, 5 ≤ w → w < 46 → settledReads (reads.getD w []) = false → t.j.dom.latched[w]? = some 0 ∧ w ∈ t.j.dom.unsettled) ∧
      (let alm := { s.j.alm with step := 2 }
       t = { s with j := { s.j with alm := alm, dom := t.j.dom } })) ∧
  (∀ s : State, s.j.live = true → s.j.alm.step = 2 →
    (s.j.bootRecords = none → ∃ t, exec (.startStepComplete .firmware) s = .next t ∧ t.j.alm.step = 9) ∧
    (∀ i ok, s.j.bootRecords = some (i, ok) → ∃ t, exec (.startStepComplete .firmware) s = .next t ∧ t.j.alm.step = 3 ∧
      (let want := s.j.alm.selected.getD false
       t.j.alm.running = if ok.contains want then want else !want) ∧ t = { s with j := { s.j with alm := t.j.alm } })) ∧
  (∀ s : State, s.j.live = true → s.j.alm.step = 3 →
    (∀ i, s.j.startImage s.j.alm.primary = some i → ∃ t, exec (.startStepComplete .image) s = .next t ∧ t.j.alm.step = 4 ∧
      t.j.alm.image = some i ∧ t.j.alm.generation = imageGeneration i ∧ t.j.alm.source = false) ∧
    (∀ i, s.j.startImage s.j.alm.primary = none → s.j.startImage s.j.alm.alternate = some i →
      ∃ t, exec (.startStepComplete .image) s = .next t ∧ t.j.alm.step = 4 ∧ t.j.alm.image = some i ∧ t.j.alm.source = true ∧
        t.j.alm.repairing = true) ∧
    (s.j.startImage s.j.alm.primary = none → s.j.startImage s.j.alm.alternate = none →
      ∃ t, exec (.startStepComplete .image) s = .next t ∧ t.j.alm.step = 9)) ∧
  (∀ s : State, s.j.live = true → s.j.alm.step = 4 →
    ∃ t, exec (.startStepComplete (.clocks [])) s = .next t ∧ t.j.alm.step = 5 ∧ t.j.lnk.endpointUp = s.j.lnk.perstHigh) ∧
  (∀ (s : State) (res : List (Bool × Nat)), s.j.live = true → s.j.alm.step = 5 → res.length = 84 → s.j.mem.chans.length = 84 →
    (∀ r ∈ res, r.1 = true ∧ 64 ≤ r.2) →
    ∃ t, exec (.startStepComplete (.training res)) s = .next t ∧ t.j.alm.step = 6 ∧ t.j.mem.online = true ∧
      t.j.alm.training = res.map (fun r => r.2) ∧
      (∀ p, p < 84 → p % 21 ≠ 20 → (t.j.mem.chans[p]?).map (fun c => (c.state, c.logical)) = some (.serving, some (p / 21 * 20 + p % 21))) ∧
      (∀ p, p < 84 → p % 21 = 20 → (t.j.mem.chans[p]?).map (fun c => (c.state, c.logical)) = some (.standby, none)) ∧
      t = { s with j := { s.j with mem := t.j.mem, alm := t.j.alm } }) ∧
  (∀ (s : State) (cars : List (Option CarrierId)) (opens : Bool), s.j.live = true → s.j.alm.step = 6 → s.j.qs.heldDoorbells = [] →
    noEntries s.j → cars.length = 4 → s.j.vlt.carriers.length = 4 → (∀ c ∈ cars, ∃ i : CarrierId, c = some i ∧ i.vc16 = true) →
    (s.j.dom.sealedRec = none → ∃ t, exec (.startStepComplete (.vault cars opens)) s = .next t ∧ t.mem = [] ∧ t.rmem = [] ∧
      t.j.alm.step = 7 ∧ t.j.dom.tenant = .unbound ∧ t.j.cat.colls = [] ∧ t.j.vlt.online = true) ∧
    (∀ r, s.j.dom.sealedRec = some r → r.life = s.j.dom.life → opens = true → s.j.cat.colls = [] → s.j.wr.journal = [] →
      s.j.wr.commits = [] → ∃ t, exec (.startStepComplete (.vault cars opens)) s = .next t ∧ t.mem = s.mem ∧ t.rmem = s.rmem ∧
        t.j.alm.step = 7 ∧ t.j.dom.tenant = (if (r.slots.lookup 0).isSome then Tenancy.bound else .suspended) ∧
        t.j.dom.digest = r.tenant)) ∧
  (∀ (s : State) (bad : List Nat), s.j.live = true →
    (s.j.alm.step = 7 → (∀ r ∈ s.j.sw.rings, r.almanacStart = false) → ∃ t, exec (.startStepComplete (.restore bad)) s = .next t ∧
      t.j.alm.step = 8 ∧ t.j.isl.power = .on) ∧
    (s.j.alm.step = 7 → s.j.sw.rings.any (fun r => r.almanacStart) = true → exec (.startStepComplete (.restore bad)) s = .next s) ∧
    (s.j.alm.step < 7 → exec (.startStepComplete (.restore bad)) s = .next s) ∧
    (s.j.alm.step ≠ 2 → exec (.startStepComplete .firmware) s = .next s))

/-- R372, R404, R407: the START rings start in their order, plates that fail R59 as lost, each recorded as ready, and the last ends step 7; the other
device takes the image in force; a life-cycle change ends with the new state programmed, the runtime state gone and a reset. -/
def Obligations.RestoreRepairLifeCycle : Prop :=
  (∀ (s : State) (n : Nat) (bad : List Nat), s.j.live = true → n < 64 →
    (s.j.alm.step = 7 → s.j.nextStart = some n →
      let owed := ((s.j.ring? n).map fun r => r.view).getD []
      let k := ((ringStartCmd (s.j.restorePlates owed bad) n none).reassign.mapRing n fun r => { r with almanacStart := false }).info
        blkMER n 0xFFFF 0
      (∀ r ∈ k.sw.rings, r.num = n → r.almanacStart = false) ∧
      exec (.ringRestoreComplete ⟨n, bad⟩) s = .next { s with j :=
        if (k.sw.rings.any fun r => r.almanacStart) || k.alm.step ≠ 7 then k else k.fullService.reassign }) ∧
    (s.j.alm.step ≠ 7 ∨ s.j.nextStart ≠ some n → exec (.ringRestoreComplete ⟨n, bad⟩) s = .next s)) ∧
  (∀ (s : State) (n : Nat) (bad : List Nat), 64 ≤ n → exec (.ringRestoreComplete ⟨n, bad⟩) s = .fault .noSuchUnit) ∧
  (∀ s : State, s.j.live = true →
    (s.j.alm.step = 8 → s.j.alm.repairing = true → ∃ t, exec .almanacRepairComplete s = .next t ∧ t.j.alm.repairing = false ∧
      (s.j.alm.source = true → t.j.alm.primary.image = s.j.alm.image ∧ t.j.alm.alternate = s.j.alm.alternate) ∧
      (s.j.alm.source = false → t.j.alm.alternate.image = s.j.alm.image ∧ t.j.alm.primary = s.j.alm.primary) ∧
      t = { s with j := { s.j with alm := t.j.alm } }) ∧
    (s.j.alm.repairing = false → exec .almanacRepairComplete s = .next s)) ∧
  (∀ (s : State) (l : LifeCycle), s.j.live = true → s.j.dom.lifeErase = some l →
    ∃ t, exec .lifecycleEraseComplete s = .next t ∧ t.j.dom.life = laterLife s.j.dom.life l ∧ t.j.dom.lifeErase = none ∧
      (l = .scrapped → t.j.dom.seedErased = true) ∧ t.j.alm.floor = 0 ∧ t.j.alm.owner = 0 ∧ t.j.alm.selected = none ∧
      t.j.vlt.erasing = false ∧ t.j.isl.power = .starting ∧ t.j.alm.step = 1 ∧ t.rmem = []) ∧
  (∀ s : State, s.j.dom.lifeErase = none → exec .lifecycleEraseComplete s = .next s)

/-- R319, R455 to R457, R462, R463: power-good samples the straps and starts the module, or holds it in reset; a power loss
begins the flush, whose end programs the journal buffer; power off, the flush's end with power back and a start abandoned in
reset leave what a reset keeps, journal records that reached the vault among it; MOD_RST# holds and releases. -/
def Obligations.PowerAndReset : Prop :=
  (∀ (s : State) (straps : BitVec 3),
    (s.j.isl.power = .off → s.j.isl.resetLow = false →
      let isl := { s.j.isl with power := .starting, straps := straps, pwrLossLow := false }
      let alm := { s.j.alm with step := 1 }
      let vlt := { s.j.vlt with holdupWeak := true }
      exec (.powerGood straps) s = .next { s with rmem := [], j := { s.j with isl := isl, alm := alm, vlt := vlt } }) ∧
    (s.j.isl.power = .off → s.j.isl.resetLow = true →
      let isl := { s.j.isl with power := .resetHeld, straps := straps, pwrLossLow := false }
      exec (.powerGood straps) s = .next { s with rmem := [], j := { s.j with isl := isl } }) ∧
    (s.j.isl.power = .on ∨ s.j.isl.power = .starting → exec (.powerGood straps) s = .next s)) ∧
  (∀ s : State,
    (s.j.isl.power = .on ∨ s.j.isl.power = .starting →
      let isl := { s.j.isl with power := .flushing, pwrLossLow := true }
      let vlt := { s.j.vlt with flushMark := false }
      exec .powerLoss s = .next { s with j := { s.j with isl := isl, vlt := vlt } }) ∧
    (s.j.isl.power = .off ∨ s.j.isl.power = .flushing → exec .powerLoss s = .next s)) ∧
  (∀ (s : State) (us : Nat), s.j.isl.power = .flushing → s.j.vlt.flushMark = false →
    (∃ t, exec (.holdupFlushComplete us false) s = .next t ∧ t.j.vlt.flushMark = true ∧ t.j.vlt.holdupLast = us % 2 ^ 32 ∧
      t.mem = s.mem ∧ t.rmem = s.rmem ∧ t.j.cat = s.j.cat ∧ t.j.wr = s.j.wr ∧ t.j.isl = s.j.isl) ∧
    (∃ t, exec (.holdupFlushComplete us true) s = .next t ∧ keptThroughReset s t ∧
      t.j.isl.power = (if s.j.isl.resetLow then .resetHeld else .off) ∧ t.j.vlt.flushMark = true ∧ t.j.vlt.holdupLast = us % 2 ^ 32 ∧
      (∀ e ∈ s.j.wr.journal, e.discarded = false → e.localDurable = true → ∃ x ∈ t.j.wr.journal, x.jr = e.jr))) ∧
  (∀ s : State,
    (s.j.isl.power = .on → ∃ t, exec .powerOff s = .next t ∧ keptThroughReset s t ∧ t.j.isl.power = .off ∧
      (∀ x ∈ t.j.wr.journal, ∃ e ∈ s.j.wr.journal, x.jr = e.jr ∧ (e.published = true ∨ e.programmed = true))) ∧
    (s.j.isl.power = .off → exec .powerOff s = .next s)) ∧
  (∀ s : State,
    (s.j.isl.power = .on →
      let isl := { s.j.isl with power := .flushing, resetLow := true }
      let vlt := { s.j.vlt with flushMark := false }
      exec .modRstTimeout s = .next { s with j := { s.j with isl := isl, vlt := vlt } }) ∧
    (s.j.isl.power = .starting → s.j.alm.step < 7 → ∃ t, exec .modRstTimeout s = .next t ∧ keptThroughReset s t ∧
      t.j.isl.power = .resetHeld ∧ t.j.isl.resetLow = true) ∧
    (s.j.isl.power = .off → exec .modRstTimeout s = .next { s with j := { s.j with isl := { s.j.isl with resetLow := true } } })) ∧
  (∀ (s : State) (ns : Nat),
    (s.j.isl.power = .resetHeld → ∃ t, exec (.modRstRise ns) s = .next t ∧ t.j.isl.power = .starting ∧ t.j.isl.resetLow = false ∧
      t.j.alm.step = 1 ∧ t.mem = s.mem) ∧
    (s.j.isl.power = .on → s.j.isl.resetLow = false → 50 ≤ ns → ns < 10000000 → s.j.live = true →
      ∃ t, exec (.modRstRise ns) s = .next t ∧ t.j.log.head = s.j.log.head + 1 ∧
        t = { s with j := { s.j with log := t.j.log, ctrs := t.j.ctrs } }) ∧
    (s.j.isl.power = .on → s.j.isl.resetLow = false → ns < 50 → exec (.modRstRise ns) s = .next s))

/-- R464 to R466: the twenty PLDM sensors are read; the alert, the bus and the link light follow their events; every scan
instruction is recorded, IDCODE answers, and beyond boundary scan the TAP needs debug authorisation. -/
def Obligations.BoardInterfaces : Prop :=
  (∀ (s : State) (n : Nat), s.j.live = true →
    (n < 20 → ∃ t v, exec (.pldmSensorRequest n) s = .next t ∧ t.j.out = .pldmReading n v :: s.j.out ∧
      (n = 2 → v = s.j.isl.avgW) ∧ (n = 7 → v = s.j.hottest) ∧
      t = { s with j := { s.j with out := t.j.out, freeIdx := t.j.freeIdx } }) ∧
    (20 ≤ n → exec (.pldmSensorRequest n) s = .fault .noSuchUnit)) ∧
  (∀ s : State, s.j.live = true →
    exec .pldmEventRead s = .next { s with j := { s.j with isl := { s.j.isl with alertLow := false } } } ∧
    exec .smbusClockLowTimeout s = .next { s with j := { s.j with isl := { s.j.isl with smbReleased := true } } } ∧
    exec .mgmtLinkDown s = .next { s with j := { s.j with isl := { s.j.isl with ledLinkLow := false } } } ∧
    (5 ≤ s.j.alm.step → exec .mgmtLinkUp s = .next { s with j := { s.j with isl := { s.j.isl with ledLinkLow := true } } }) ∧
    (s.j.alm.step < 5 → exec .mgmtLinkUp s = .next s)) ∧
  (∀ (s : State) (code : Nat), s.j.isl.power ≠ .off →
    (∃ t, exec (.jtagInstruction .idcode) s = .next t ∧ t.j.out = .jtag 0xB8400C9F :: s.j.out ∧ t.j.log.head = s.j.log.head + 1 ∧
      t = { s with j := { s.j with out := t.j.out, log := t.j.log, ctrs := t.j.ctrs } }) ∧
    (∀ i ∈ [JtagInstr.bypass, .extest, .sample, .preload, .clamp, .extestPulse, .extestTrain], ∃ t,
      exec (.jtagInstruction i) s = .next t ∧ t.j.log.head = s.j.log.head + 1 ∧
      t = { s with j := { s.j with log := t.j.log, ctrs := t.j.ctrs } }) ∧
    (s.j.dom.debug = true ∨ s.j.dom.life = .test ∨ s.j.dom.life = .rma → ∃ t, exec (.jtagInstruction (.other code)) s = .next t ∧
      t.j.log.head = s.j.log.head + 1 ∧ t.j.counter 0xF0020 = s.j.counter 0xF0020 ∧
      t = { s with j := { s.j with log := t.j.log, ctrs := t.j.ctrs } }) ∧
    (s.j.dom.debug = false → s.j.dom.life = .service ∨ s.j.dom.life = .scrapped → ∃ t, exec (.jtagInstruction (.other code)) s = .next t ∧
      (t.j.counter 0xF0020).count = (s.j.counter 0xF0020).count + 1 ∧ t.j.log.head = s.j.log.head + 1 ∧
      t = { s with j := { s.j with log := t.j.log, ctrs := t.j.ctrs } })) ∧
  (∀ (s : State) (i : JtagInstr), s.j.isl.power = .off → exec (.jtagInstruction i) s = .next s)

/-- R5 to R7, R9, R139, R335, R336, R338, R406, R446: a read returns the register, or zero where nothing is; a low half latches
its high half for the next read; a high-water mark read takes the present fill; requests outside BAR0, before
step 4 ends or in recovery are answered as R335, R406 and R446 say. -/
def Obligations.RegisterReads : Prop :=
  (∀ (s : State) (a d : Nat), exec (.registerLowHalfRead a) s = exec (.registerReadClear a 0) s ∧
    (serving s → a < 0x1000000 → a % 4 = 0 → s.j.qs.latch = none →
      (∀ v, s.j.regAt a = some (.word v) → ∃ t, exec (.registerReadClear a d) s = .next t ∧
        t.j.out = .readResponse a (BitVec.ofNat 64 (v % 2 ^ 32)) :: s.j.out ∧ t.j.qs.latch = none ∧ t.mem = s.mem) ∧
      (∀ r, s.j.regAt a = some r → isWide r = true → ∃ t, exec (.registerReadClear a d) s = .next t ∧
        t.j.out = .readResponse a (BitVec.ofNat 64 (s.j.regValue a r % 2 ^ 32)) :: s.j.out ∧
        t.j.qs.latch = some (a + 4, BitVec.ofNat 32 (s.j.peek (a + 4))) ∧ t.mem = s.mem) ∧
      (s.j.regAt a = none → (∀ r, 4 ≤ a → s.j.regAt (a - 4) = some r → isWide r = false) →
        ∃ t, exec (.registerReadClear a d) s = .next t ∧ t.j.out = .readResponse a 0 :: s.j.out ∧ t.mem = s.mem)) ∧
    (serving s → a < 0x1000000 → a % 4 = 0 → ∀ x, s.j.qs.latch = some (a, x) →
      ∃ t, exec (.registerReadClear a d) s = .next t ∧ t.j.out = .readResponse a (BitVec.ofNat 64 x.toNat) :: s.j.out)) ∧
  (∀ (s : State) (c d : Nat) (x : Cluster), serving s → s.j.qs.latch = none → c < 18 → s.j.cluster? c = some x →
    ∃ t, exec (.registerReadClear (0x40008 + c * 0x40) d) s = .next t ∧
      t.j.out = .readResponse (0x40008 + c * 0x40) (BitVec.ofNat 64 (x.admHigh % 2 ^ 32)) :: s.j.out ∧
      t.j.cluster? c = some { x with admHigh := x.admq.length } ∧
      t = { s with j := { s.j with sw := { s.j.sw with clusters := t.j.sw.clusters }, out := t.j.out } }) ∧
  (∀ (s : State) (a d : Nat), s.j.live = true → s.j.lnk.endpointUp = true → s.j.lnk.pcieDown = false →
    (s.j.alm.step < 5 → exec (.registerReadClear a d) s = .next { s with j := { s.j with out := .configRetry :: s.j.out } }) ∧
    (5 ≤ s.j.alm.step → 0x1000000 ≤ a →
      exec (.registerReadClear a d) s = .next { s with j := { s.j with out := .unsupportedRequest a :: s.j.out } }) ∧
    (s.j.alm.step = 9 → a < 0x1000000 → a % 4 = 0 → s.j.qs.latch = none → servedInRecovery a = false →
      exec (.registerReadClear a d) s = .next { s with j := { s.j with out := .readResponse a 0 :: s.j.out } }) ∧
    (∀ bar addr, exec (.unmappedRequest bar addr) s
      = .next { s with j := { s.j with out := .aer 0 :: .unsupportedRequest addr :: s.j.out } })) ∧
  (∀ (s : State) (a d : Nat), s.j.live = true → s.j.lnk.endpointUp = false → exec (.registerReadClear a d) s = .next s)

/-- R6, R7, R8, R11, R335, R429, R432, R439, R440, R443, R445, R446: a write that no register takes is discarded and recorded; a
64-bit register takes a whole write at once and two halves together; the admin queue's base moves only while the queue is
not ready; W1C bits, which an event in the same cycle leaves set, the Logbook's window, the catalogue window's base, an MSI-X entry and the injector take what R429 to
R445 let them. -/
def Obligations.RegisterWrites : Prop :=
  (∀ (s : State) (a w : Nat) (v set : BitVec 64), serving s →
    (a < 0x1000000 → w < 4 → ∃ t, exec (.registerWrite a w ⟨v, set⟩) s = .next t ∧ discarded s t) ∧
    (a < 0xF00000 → a % 4 = 0 → s.j.regAt a = none → (4 ≤ a → s.j.regAt (a - 4) = none) →
      ∃ t, exec (.registerWrite a 4 ⟨v, set⟩) s = .next t ∧ discarded s t) ∧
    (0x1000000 ≤ a → exec (.registerWrite a w ⟨v, set⟩) s
      = .next { s with j := { s.j with out := .unsupportedRequest a :: s.j.out } }) ∧
    (a < 0x1000000 → w = 4 ∨ w = 8 → a % w ≠ 0 → ∃ t, exec (.registerWrite a w ⟨v, set⟩) s = .next t ∧
      t.j.out = .aer 0 :: .completerAbort a :: s.j.out ∧ t = { s with j := { s.j with out := t.j.out, log := t.j.log, ctrs := t.j.ctrs } })) ∧
  (∀ (s : State) (v set : BitVec 64), serving s →
    (s.j.qs.aqReady = true → s.j.qs.halves = [] → ∃ t, exec (.registerWrite 0x100 8 ⟨v, set⟩) s = .next t ∧ discarded s t) ∧
    (s.j.qs.aqReady = false → s.j.qs.halves = [] →
      let qs := { s.j.qs with aqSqBase := v >>> 12 <<< 12 }
      exec (.registerWrite 0x100 8 ⟨v, set⟩) s = .next { s with j := { s.j with qs := qs } }) ∧
    (s.j.qs.halves = [] →
      let qs := { s.j.qs with halves := [(0x100, v.setWidth 32)] }
      exec (.registerWrite 0x100 4 ⟨v, set⟩) s = .next { s with j := { s.j with qs := qs } }) ∧
    (∀ lo : BitVec 32, s.j.qs.aqReady = false → s.j.qs.halves = [(0x100, lo)] →
      let qs := { s.j.qs with halves := [], aqSqBase := (v.setWidth 32 ++ lo) >>> 12 <<< 12 }
      exec (.registerWrite 0x104 4 ⟨v, set⟩) s = .next { s with j := { s.j with qs := qs } })) ∧
  (∀ (s : State) (v set : BitVec 64), serving s →
    (let log := { s.j.log with errClass := s.j.log.errClass &&& ~~~((v &&& ~~~set).extractLsb' 2 3) }
     exec (.registerWrite 0xF0010 4 ⟨v, set⟩) s = .next { s with j := { s.j with log := log } }) ∧
    (v.getLsbD 31 = true → set.getLsbD 31 = false → ∃ t, exec (.registerWrite 0xF0024 4 ⟨v, set⟩) s = .next t ∧
      t.j.counter 0xF0020 = { s.j.counter 0xF0020 with ovf := false } ∧ t = { s with j := { s.j with ctrs := t.j.ctrs } }) ∧
    (v.getLsbD 31 = false ∨ set.getLsbD 31 = true → exec (.registerWrite 0xF0024 4 ⟨v, set⟩) s = .next s) ∧
    exec (.registerWrite 0xF0020 4 ⟨v, set⟩) s = .next s) ∧
  (∀ (s : State) (v : BitVec 64), serving s → s.j.qs.halves = [] →
    (let log := { s.j.log with window := v, record := recordBits s.j.log v.toNat }
     exec (.logWindowWrite .full v) s = .next { s with j := { s.j with log := log } }) ∧
    (s.j.dom.tenant ≠ .bound → s.j.dom.tenant ≠ .suspended →
      let qs := { s.j.qs with windowBase := v >>> 26 <<< 26 }
      exec (.windowBaseWrite .full v) s = .next { s with j := { s.j with qs := qs } }) ∧
    (s.j.dom.tenant = .bound ∨ s.j.dom.tenant = .suspended → ∃ t, exec (.windowBaseWrite .full v) s = .next t ∧ discarded s t)) ∧
  (∀ (s : State) (v : BitVec 32), serving s →
    (v.getLsbD 8 = false ∨ (s.j.dom.tenant = .unbound ∨ s.j.dom.debug = true) ∧ (v.extractLsb' 0 4).toNat ≤ 6 →
      let see := { s.j.see with arm := v.getLsbD 8, kind := v.extractLsb' 0 4, spent := false }
      exec (.seeArm v) s = .next { s with j := { s.j with see := see } }) ∧
    (v.getLsbD 8 = true → s.j.dom.tenant ≠ .unbound → s.j.dom.debug = false → ∃ t, exec (.seeArm v) s = .next t ∧ discarded s t)) ∧
  (∀ (s : State) (n : Nat) (v set : BitVec 32), serving s → n < 64 →
    ∃ t, exec (.merRingOvfWrite n ⟨v, set⟩) s = .next t ∧
      (t.j.counter (0x21020 + n * 0x40)).count = (s.j.counter (0x21020 + n * 0x40)).count ∧
      (t.j.counter (0x21028 + n * 0x40)).count = (s.j.counter (0x21028 + n * 0x40)).count ∧
      (t.j.counter (0x21020 + n * 0x40)).ovf = (if v.getLsbD 0 && !set.getLsbD 0 then false else (s.j.counter (0x21020 + n * 0x40)).ovf) ∧
      (t.j.counter (0x21028 + n * 0x40)).ovf = (if v.getLsbD 1 && !set.getLsbD 1 then false else (s.j.counter (0x21028 + n * 0x40)).ovf) ∧ t = { s with j := { s.j with ctrs := t.j.ctrs } }) ∧
  (∀ (s : State) (n : Nat) (v set : BitVec 32), 64 ≤ n → exec (.merRingOvfWrite n ⟨v, set⟩) s = .fault .noSuchUnit) ∧
  (∀ (s : State) (n : Nat) (v set : BitVec 64), serving s → n < s.j.lnk.vectors → n < 2048 →
    ∃ t, exec (.registerWrite (0xF00000 + n * 0x10 + 8) 4 ⟨v, set⟩) s = .next t ∧
      t.j.msixEntry n = { s.j.msixEntry n with data := v.setWidth 32 } ∧
      t = { s with j := { s.j with qs := { s.j.qs with msix := t.j.qs.msix } } }) ∧
  (∀ (s : State) (n : Nat) (v set : BitVec 64), serving s → s.j.lnk.vectors ≤ n → n < 2048 →
    ∃ t, exec (.registerWrite (0xF00000 + n * 0x10 + 8) 4 ⟨v, set⟩) s = .next t ∧ discarded s t)

/-- R35, R335, R433, R440: a management client writes what R433 opens to an operator and nothing else; the catalogue window
reads and writes catalogue bytes while no tenant is bound, and reads zeros and discards writes otherwise. -/
def Obligations.ManagementWritesAndWindow : Prop :=
  (∀ (s : State) (a w : Nat) (v set : BitVec 64), s.j.live = true → 5 ≤ s.j.alm.step →
    (∀ r, r ≠ .operator ∨ s.j.alm.step = 9 ∨ (w ≠ 4 ∧ w ≠ 8) → ∃ t, exec (.mgmtRegisterWrite r a w ⟨v, set⟩) s = .next t ∧ turnedAway s t) ∧
    (s.j.alm.step ≠ 9 →
      let log := { s.j.log with errClass := s.j.log.errClass &&& ~~~((v &&& ~~~set).extractLsb' 2 3) }
      exec (.mgmtRegisterWrite .operator 0xF0010 4 ⟨v, set⟩) s
        = .next { s with j := { s.j with log := log, out := .mgmt true 0 :: s.j.out } }) ∧
    ∃ t, exec (.mgmtRegisterWrite .operator 0x110 4 ⟨v, set⟩) s = .next t ∧ turnedAway s t) ∧
  (∀ (s : State) (r : Role) (a w : Nat) (v set : BitVec 64), s.j.live = true → s.j.alm.step < 5 →
    exec (.mgmtRegisterWrite r a w ⟨v, set⟩) s = .next s) ∧
  (∀ (s : State) (off len : Nat), serving s →
    (windowOk off len = true → s.j.dom.tenant = .unbound → ∃ (t : State) (bs : List Byte),
      exec (.catalogueWindowRead off len) s = .next t ∧ t = { s with j := { s.j with out := .windowData bs :: s.j.out } } ∧
      bs.length = len ∧
      (∀ i, i < len → (∀ o r, s.j.resolve (s.j.qs.windowBase.toNat + off + i) = .objByte o r → bs[i]? = some (Memory.read s.mem r)) ∧
        (s.j.resolve (s.j.qs.windowBase.toNat + off + i) = .invalid → bs[i]? = some 0) ∧
        (∀ p r c, s.j.resolve (s.j.qs.windowBase.toNat + off + i) = .plateByte p r → s.j.coll? p.coll = some c →
          bs[i]? = some (p.byteAt c.format c.dim c.sidecar r)))) ∧
    (windowOk off len = true → s.j.dom.tenant ≠ .unbound → exec (.catalogueWindowRead off len) s
      = .next { s with j := { s.j with out := .windowData (List.replicate len 0) :: s.j.out } }) ∧
    (windowOk off len = false → exec (.catalogueWindowRead off len) s
      = .next { s with j := { s.j with out := .aer 0 :: .completerAbort off :: s.j.out } })) ∧
  (∀ (s : State) (off : Nat) (data : List Byte), serving s → windowOk off data.length = true →
    (s.j.dom.tenant ≠ .unbound → ∃ t, exec (.catalogueWindowWrite off data) s = .next t ∧ discarded s t) ∧
    (s.j.dom.tenant = .unbound → (∀ o r, s.j.resolve (s.j.qs.windowBase.toNat + off) ≠ .objByte o r) →
      ∃ t, exec (.catalogueWindowWrite off data) s = .next t ∧ discarded s t) ∧
    (∀ o r, s.j.dom.tenant = .unbound → s.j.resolve (s.j.qs.windowBase.toNat + off) = .objByte o r →
      (s.j.windowWritable o = false ∨ s.j.mem.stopped = true ∧ o.tier = .sweep → ∃ t, exec (.catalogueWindowWrite off data) s = .next t ∧ discarded s t) ∧
      (s.j.windowWritable o = true → ¬(s.j.mem.stopped = true ∧ o.tier = .sweep) → ∃ t, exec (.catalogueWindowWrite off data) s = .next t ∧ t.mem = Memory.writeBytes s.mem r data ∧
        (∀ a, a < r ∨ r + data.length ≤ a → Memory.read t.mem a = Memory.read s.mem a) ∧ t.rmem = s.rmem ∧ t.pending = s.pending ∧
        t.j.sw = s.j.sw ∧ t.j.qs = s.j.qs ∧ t.j.cat.plates = s.j.cat.plates ∧ t.j.out = s.j.out)))

/-- R29, R261, R369, R382, R403, R434, R443: right after reset nothing waits, no byte is listed, no counter has counted,
every MSI-X vector is masked, the registers hold their numbers of the Reset columns, queue 0 alone exists, no ring, model,
channel, carrier, island or key slot is in use, and no tenant is bound. Where the manual gives a field no value the model's
choices of log entry 36 stand; none is stated here. -/
def Obligations.ResetState : Prop :=
  State.reset.Canonical ∧ State.reset.pending = [] ∧ State.reset.mem = [] ∧ State.reset.rmem = [] ∧
  (∀ a, State.reset.j.counter a = { count := 0, ovf := false }) ∧
  (∀ v, (State.reset.j.msixEntry v).masked = true ∧ (State.reset.j.msixEntry v).pending = false) ∧
  (∀ x ∈ [(0x00000, 0x84001D9E), (0x00030, 1), (0x00118, 0), (0x00140, 0), (0x00400, 0), (0x00410, 0), (0x00418, 25), (0x00500, 64),
      (0x00600, 0), (0x00700, 0), (0x20000, 25), (0x20008, 0), (0x32000, 1), (0x60000, 80), (0x80000, 0), (0x80008, 24),
      (0x90000, 0), (0xA0000, 0), (0xA0004, 2048), (0xB0000, 0), (0xC0000, 0), (0xD0000, 0), (0xE0000, 0), (0xF0000, 0),
      (0xF0010, 0), (0xF0014, 0)], State.reset.j.peek x.1 = x.2) ∧
  State.reset.j.qs.queues.map (fun q => (q.num, q.kind, q.priority)) = [(0, 3, 7)] ∧
  State.reset.j.cat.colls = [] ∧ State.reset.j.cat.objs = [] ∧ State.reset.j.cat.plates = [] ∧ State.reset.j.lnk.qps = [] ∧
  State.reset.j.sw.rings.length = 64 ∧ (∀ r ∈ State.reset.j.sw.rings, r.phase = .stopped ∧ r.defn = none ∧ r.clusters = []) ∧
  State.reset.j.sw.clusters.length = 18 ∧ (∀ c ∈ State.reset.j.sw.clusters, c.active = false ∧ c.home = none) ∧
  State.reset.j.mem.chans.length = 84 ∧ (∀ c ∈ State.reset.j.mem.chans, c.state = .untrained ∧ c.logical = none) ∧
  State.reset.j.vlt.carriers.length = 4 ∧ (∀ c ∈ State.reset.j.vlt.carriers, c.state = .empty) ∧
  State.reset.j.coe.models.length = 8 ∧ (∀ m ∈ State.reset.j.coe.models, m.phase = .empty) ∧
  State.reset.j.isl.islands.length = 29 ∧ (∀ i ∈ State.reset.j.isl.islands, i.clk = 0) ∧
  State.reset.j.dom.slots.length = 64 ∧ (∀ k ∈ State.reset.j.dom.slots, k.state = .empty) ∧
  State.reset.j.dom.tenant = .unbound ∧ State.reset.j.dom.debug = false ∧ State.reset.j.see.arm = false

/-- Both byte memories keep their canonical form (addresses strictly rising, no zero byte listed) in every step, whatever
the command or event. -/
def Obligations.StepsKeepMemoriesCanonical : Prop :=
  ∀ s t : State, s.Canonical → step s = .next t → t.Canonical

/-- A step carries out the command at the front of the queue on the state with the queue's rest. On an empty queue the model
lets one nanosecond of DEV_TIME pass and changes nothing else (its own choice, log entry 1). -/
def Obligations.StepTakesTheFront : Prop :=
  (∀ (c : Instr) (s : State), step { s with pending := c :: s.pending } = exec c s) ∧
  (∀ (c : Instr) (rest : List Instr) (s : State), s.pending = c :: rest → step s = exec c { s with pending := rest }) ∧
  (∀ s : State, s.pending = [] → step s = .next { s with j := { s.j with time := s.j.time + 1 } })

/-- R14, R319, R371, R456, R457, R462: every well-formed command completes, in every state, and a command that names a unit
the module does not have faults; no command touches the queue of commands; only the commands that store there change a byte
of catalogue or pool memory; a module that is off, held in reset, flushing or scrapped does nothing on any event but power,
reset, PERST# and JTAG. -/
def Obligations.EveryCommandCompletesWithinItsFrame : Prop :=
  (∀ (c : Instr) (s : State), (wellFormed c = true → ∃ t, exec c s = .next t) ∧
    (wellFormed c = false → exec c s = .fault .noSuchUnit)) ∧
  (∀ (c : Instr) (s t : State), exec c s = .next t → t.pending = s.pending ∧
    (storesInCatalogue c = false → t.mem = s.mem) ∧ (storesInPool c = false → t.rmem = s.rmem)) ∧
  (∀ (c : Instr) (s t : State), s.j.live = false → actsWhileNotLive c = false → exec c s = .next t → t = s) ∧
  (∀ (q : Nat) (s t : State), exec (.tileRead q) s = .next t ∨ exec (.tilePrefetch q) s = .next t ∨ exec (.tileEvict q) s = .next t →
    t.mem = s.mem)

/-- R11, R288, R337, R427, R428, R430: a counter wraps at 2^48 and keeps its overflow bit once it has; a Logbook record is
the newest under the next sequence number, and overwriting the oldest of 262,144 raises LOG_LOST; a fault of class 2 to 4
sets its summary bit and, where that bit was clear and the interrupt is enabled, sends one MSI-X message; a fault of class 3
or 4 sends a PLDM event. -/
def Obligations.CountersLogbookAndFaults : Prop :=
  (∀ (j : Jenjor) (a n b : Nat), (j.bump a n).counter b = if b = a then
      { count := (j.counter a).count + BitVec.ofNat 48 n,
        ovf := (j.counter a).ovf || decide (2 ^ 48 ≤ (j.counter a).count.toNat + n) } else j.counter b) ∧
  (∀ (j : Jenjor) (cls blk unit cause addr : Nat) (st : BitVec 8) (d : BitVec 256),
    let r : LogRec := { seq := j.log.head + 1, time := j.time, cls := cls, injected := false, blk := blk, status := st,
                        unit := unit, cause := cause, addr := addr, detail := d }
    let k := j.record cls blk unit cause addr st d
    k.log = { j.log with head := j.log.head + 1, trace := (r :: j.log.trace).take 262144 } ∧
    (∀ b, k.counter b = if b = 0xF0018 ∧ 262144 ≤ j.log.trace.length then
      { count := (j.counter b).count + 1, ovf := (j.counter b).ovf || decide ((j.counter b).count = BitVec.allOnes 48) }
      else j.counter b) ∧
    k = { j with log := k.log, ctrs := k.ctrs }) ∧
  (∀ (j : Jenjor) (cls blk unit cause addr : Nat) (st : BitVec 8) (d : BitVec 256),
    let k := j.fault cls blk unit cause addr st d
    (cls < 2 ∨ 4 < cls → k = j.record cls blk unit cause addr st d) ∧
    (2 ≤ cls → cls ≤ 4 →
      let e := j.msixEntry j.log.errVector.toNat
      let asks := j.log.errEn = true ∧ j.log.errClass.getLsbD (cls - 2) = false
      let sends := asks ∧ j.log.errVector.toNat < j.lnk.vectors ∧ e.masked = false ∧ e.addr ≠ 0
      k.log.errClass = j.log.errClass ||| (1#3 <<< (cls - 2)) ∧
      k.out = (if 3 ≤ cls then [.pldmEvent cls] else [])
        ++ (if sends then [.msix j.log.errVector.toNat e.addr e.data] else []) ++ j.out ∧
      (asks → j.log.errVector.toNat < j.lnk.vectors → e.masked = true ∨ e.addr = 0 →
        k.msixEntry j.log.errVector.toNat = { e with pending := true }) ∧
      (¬ asks → k.qs = j.qs ∧ k.log.head = j.log.head + 1) ∧
      k.isl = { j.isl with alertLow := j.isl.alertLow || decide (3 ≤ cls) }))

/-- R278, R279, R287, R288, R334: a completion goes to the slot at CQ_TAIL with the fields of R278 and the phase of this
pass; the tail advances and the phase inverts at the ring's end; the command leaves the flight; its interrupt is sent at the
coalescing count, never when the command asked for none; a PCIe reset event drops it, and a failed queue pair loses it and
faults the queue. -/
def Obligations.CompletionsWritten : Prop :=
  ∀ (j : Jenjor) (r : CmdRef) (st : Status) (v0 v1 : BitVec 64) (len : Option Nat) (q : Queue),
    j.queue? r.q = some q → r.tag = none → st ≠ .keyWithdrawn →
    let k := j.writeCompletion r st v0 v1 len
    let last := q.cqDepth ≤ q.cqTail + 1
    let q' := { q with inflight := q.inflight.erase r.cid, cqTail := if last then 0 else q.cqTail + 1,
                       phase := if last then !q.phase else q.phase }
    (q.roce = false → r.gen = j.lnk.resets → ∃ b, completionHolds b v0 v1 r q st len ((j.time - r.t0) / 1000) ∧
      (r.noIrq = true → k.out = .completion q.num q.cqTail b :: j.out ∧ k.queue? r.q = some q' ∧
        k = { j with out := k.out, qs := { j.qs with queues := k.qs.queues } }) ∧
      (r.noIrq = false → q.irqCount + 1 < max 1 q.coalCount → k.out = .completion q.num q.cqTail b :: j.out ∧
        k.queue? r.q = some { q' with irqCount := q.irqCount + 1, irqSince := if q.irqCount = 0 then j.time else q.irqSince }) ∧
      (r.noIrq = false → max 1 q.coalCount ≤ q.irqCount + 1 → q.vector < j.lnk.vectors →
        k.queue? r.q = some { q' with irqCount := 0, irqSince := 0 } ∧
        (let e := j.msixEntry q.vector
         (e.masked = false → e.addr ≠ 0 → k.out = .msix q.vector e.addr e.data :: .completion q.num q.cqTail b :: j.out) ∧
         (e.masked = true → k.out = .completion q.num q.cqTail b :: j.out ∧ k.msixEntry q.vector = { e with pending := true })))) ∧
    (q.roce = false → r.gen ≠ j.lnk.resets → k.out = j.out ∧ k.log.head = j.log.head + 1) ∧
    (q.roce = true → j.qpAlive q.qpn = true → ∃ b, completionHolds b v0 v1 r q st len ((j.time - r.t0) / 1000) ∧
      k.out = .completion q.num q.cqTail b :: j.out ∧ k.queue? r.q = some q' ∧
      k.qp? q.qpn = (j.qp? q.qpn).map fun p => { p with psn := (p.psn + 1) % 2 ^ 24 }) ∧
    (q.roce = true → j.qpAlive q.qpn = false → k.out = j.out ∧
      k.queue? r.q = some { q' with fault := if q.fault = 0 then 5 else q.fault })

/-- R62: for a query that captured commit epoch Q, the record in slot s is visible when all of the rule's conditions hold:
the filter wheel's test, for every rider and every record of a plate whose delete log names a slot at most once (R63), lets
exactly the visible records through to the predicate. -/
def Obligations.VisibleRecords : Prop :=
  ∀ (p : Plate) (slot : Nat), (∀ e ∈ p.dlog, ∀ e' ∈ p.dlog, e.2 = slot → e'.2 = slot → e = e') →
    (∀ q, p.visible slot q = true ↔ visibleByRule p slot q) ∧
    (∀ (c : Coll) (cluster : Nat) (x : Ctx) (k : Cell),
      (testPair c cluster x p slot k = .gated ∨ testPair c cluster x p slot k = .notVisible) ↔ ¬ visibleByRule p slot x.epoch)

/-- R62, R65: settling a plate at the oldest rider's epoch sets the settled bits of the slots inserted by then, frees the
delete-log entries of deletes by then, and changes no record's visibility to any query of that epoch or a later one. -/
def Obligations.SettlingKeepsVisibility : Prop :=
  ∀ (p : Plate) (o : Nat), (∀ e ∈ p.dlog, ∀ e' ∈ p.dlog, e.2 = e'.2 → e = e') →
    (∀ slot q, o ≤ q → (p.settle o).visible slot q = p.visible slot q) ∧
    (∀ slot, slot ∈ (p.settle o).settled ↔ ∃ r : Rec, p.recs[slot]? = some r ∧ (slot ∈ p.settled ∨ p.epochBase + r.delta ≤ o)) ∧
    (∀ e, e ∈ (p.settle o).dlog ↔ e ∈ p.dlog ∧ o < p.epochBase + e.1) ∧
    p.settle o = { p with settled := (p.settle o).settled, dlog := (p.settle o).dlog }

/-- R131, R133, R137: entries with distinct user keys and no NaN key have one order, the sorted list holds the same entries
each ranking before the next, and the fixed merge tree over the 18 cluster bins keeps the first s of them all, whatever
order they came in and whichever clusters scored them. -/
def Obligations.MergeTreeKeepsTheFirst : Prop :=
  ∀ (fp : Bool) (s : Nat) (es : List Entry), (es.map fun e => e.user).Nodup → (∀ e ∈ es, e.cluster < 18) →
    (fp = true → ∀ e ∈ es, (keyFp e.key).isNaN = false) →
    (sortEntries fp es).Perm es ∧ (sortEntries fp es).Pairwise (fun a b => ranksBefore fp a.rank b.rank = true) ∧
    mergeTree fp s es = (sortEntries fp es).take s ∧
    (∀ es' : List Entry, es'.Perm es → mergeTree fp s es' = mergeTree fp s es)

/-- R6: a read of a BAR0 address that no register occupies returns zero, and a write to it is discarded and counted in the
Logbook: a 4-byte or narrower write once, an 8-byte write to two such addresses once for each. -/
def Obligations.UnoccupiedAddresses : Prop :=
  ∀ (s : State) (a : Nat), serving s → a < 0x1000000 → unoccupied s.j (a / 4 * 4) →
    ((∀ x, s.j.qs.latch ≠ some (a / 4 * 4, x)) → ∀ d,
      let j := { s.j with qs := { s.j.qs with latch := none }, out := .readResponse a 0 :: s.j.out }
      exec (.registerReadClear a d) s = .next { s with j := j } ∧ exec (.registerLowHalfRead a) s = .next { s with j := j }) ∧
    (∀ (w : Nat) (v set : BitVec 64), w < 4 ∨ (w = 4 ∧ a % 4 = 0) → ∃ t, exec (.registerWrite a w ⟨v, set⟩) s = .next t ∧ discarded s t) ∧
    (∀ v set : BitVec 64, a % 8 = 0 → unoccupied s.j (a + 4) → ∃ t, exec (.registerWrite a 8 ⟨v, set⟩) s = .next t ∧
      (t.j.counter 0xF0020).count = (s.j.counter 0xF0020).count + 2 ∧ t.j.log.head = s.j.log.head + 2 ∧
      t = { s with j := { s.j with ctrs := t.j.ctrs, log := t.j.log } })

end
end

