-- ==== Sys2Proof/Laws/State.lean ====
section
/-! SUPPORT. Sys2Proof/Laws/State.lean: what each shared operation leaves unchanged, field by field of Jenjor. -/

namespace Sys2Proof.Machine
namespace Jenjor

@[simp] theorem emit_time (j : Jenjor) (o : Output) : (j.emit o).time = j.time := rfl
@[simp] theorem emit_freeIdx (j : Jenjor) (o : Output) : (j.emit o).freeIdx = j.freeIdx := rfl
@[simp] theorem emit_ctrs (j : Jenjor) (o : Output) : (j.emit o).ctrs = j.ctrs := rfl
@[simp] theorem emit_log (j : Jenjor) (o : Output) : (j.emit o).log = j.log := rfl
@[simp] theorem emit_cat (j : Jenjor) (o : Output) : (j.emit o).cat = j.cat := rfl
@[simp] theorem emit_qs (j : Jenjor) (o : Output) : (j.emit o).qs = j.qs := rfl
@[simp] theorem emit_sw (j : Jenjor) (o : Output) : (j.emit o).sw = j.sw := rfl
@[simp] theorem emit_spg (j : Jenjor) (o : Output) : (j.emit o).spg = j.spg := rfl
@[simp] theorem emit_coe (j : Jenjor) (o : Output) : (j.emit o).coe = j.coe := rfl
@[simp] theorem emit_wr (j : Jenjor) (o : Output) : (j.emit o).wr = j.wr := rfl
@[simp] theorem emit_place (j : Jenjor) (o : Output) : (j.emit o).place = j.place := rfl
@[simp] theorem emit_mem (j : Jenjor) (o : Output) : (j.emit o).mem = j.mem := rfl
@[simp] theorem emit_vlt (j : Jenjor) (o : Output) : (j.emit o).vlt = j.vlt := rfl
@[simp] theorem emit_lnk (j : Jenjor) (o : Output) : (j.emit o).lnk = j.lnk := rfl
@[simp] theorem emit_cpn (j : Jenjor) (o : Output) : (j.emit o).cpn = j.cpn := rfl
@[simp] theorem emit_dom (j : Jenjor) (o : Output) : (j.emit o).dom = j.dom := rfl
@[simp] theorem emit_alm (j : Jenjor) (o : Output) : (j.emit o).alm = j.alm := rfl
@[simp] theorem emit_isl (j : Jenjor) (o : Output) : (j.emit o).isl = j.isl := rfl
@[simp] theorem emit_see (j : Jenjor) (o : Output) : (j.emit o).see = j.see := rfl

@[simp] theorem bump_time (j : Jenjor) (addr n : Nat) : (j.bump addr n).time = j.time := rfl
@[simp] theorem bump_freeIdx (j : Jenjor) (addr n : Nat) : (j.bump addr n).freeIdx = j.freeIdx := rfl
@[simp] theorem bump_out (j : Jenjor) (addr n : Nat) : (j.bump addr n).out = j.out := rfl
@[simp] theorem bump_log (j : Jenjor) (addr n : Nat) : (j.bump addr n).log = j.log := rfl
@[simp] theorem bump_cat (j : Jenjor) (addr n : Nat) : (j.bump addr n).cat = j.cat := rfl
@[simp] theorem bump_qs (j : Jenjor) (addr n : Nat) : (j.bump addr n).qs = j.qs := rfl
@[simp] theorem bump_sw (j : Jenjor) (addr n : Nat) : (j.bump addr n).sw = j.sw := rfl
@[simp] theorem bump_spg (j : Jenjor) (addr n : Nat) : (j.bump addr n).spg = j.spg := rfl
@[simp] theorem bump_coe (j : Jenjor) (addr n : Nat) : (j.bump addr n).coe = j.coe := rfl
@[simp] theorem bump_wr (j : Jenjor) (addr n : Nat) : (j.bump addr n).wr = j.wr := rfl
@[simp] theorem bump_place (j : Jenjor) (addr n : Nat) : (j.bump addr n).place = j.place := rfl
@[simp] theorem bump_mem (j : Jenjor) (addr n : Nat) : (j.bump addr n).mem = j.mem := rfl
@[simp] theorem bump_vlt (j : Jenjor) (addr n : Nat) : (j.bump addr n).vlt = j.vlt := rfl
@[simp] theorem bump_lnk (j : Jenjor) (addr n : Nat) : (j.bump addr n).lnk = j.lnk := rfl
@[simp] theorem bump_cpn (j : Jenjor) (addr n : Nat) : (j.bump addr n).cpn = j.cpn := rfl
@[simp] theorem bump_dom (j : Jenjor) (addr n : Nat) : (j.bump addr n).dom = j.dom := rfl
@[simp] theorem bump_alm (j : Jenjor) (addr n : Nat) : (j.bump addr n).alm = j.alm := rfl
@[simp] theorem bump_isl (j : Jenjor) (addr n : Nat) : (j.bump addr n).isl = j.isl := rfl
@[simp] theorem bump_see (j : Jenjor) (addr n : Nat) : (j.bump addr n).see = j.see := rfl

@[simp] theorem count_time (j : Jenjor) (blk off : Nat) : (j.count blk off).time = j.time := rfl
@[simp] theorem count_freeIdx (j : Jenjor) (blk off : Nat) : (j.count blk off).freeIdx = j.freeIdx := rfl
@[simp] theorem count_out (j : Jenjor) (blk off : Nat) : (j.count blk off).out = j.out := rfl
@[simp] theorem count_log (j : Jenjor) (blk off : Nat) : (j.count blk off).log = j.log := rfl
@[simp] theorem count_cat (j : Jenjor) (blk off : Nat) : (j.count blk off).cat = j.cat := rfl
@[simp] theorem count_qs (j : Jenjor) (blk off : Nat) : (j.count blk off).qs = j.qs := rfl
@[simp] theorem count_sw (j : Jenjor) (blk off : Nat) : (j.count blk off).sw = j.sw := rfl
@[simp] theorem count_spg (j : Jenjor) (blk off : Nat) : (j.count blk off).spg = j.spg := rfl
@[simp] theorem count_coe (j : Jenjor) (blk off : Nat) : (j.count blk off).coe = j.coe := rfl
@[simp] theorem count_wr (j : Jenjor) (blk off : Nat) : (j.count blk off).wr = j.wr := rfl
@[simp] theorem count_place (j : Jenjor) (blk off : Nat) : (j.count blk off).place = j.place := rfl
@[simp] theorem count_mem (j : Jenjor) (blk off : Nat) : (j.count blk off).mem = j.mem := rfl
@[simp] theorem count_vlt (j : Jenjor) (blk off : Nat) : (j.count blk off).vlt = j.vlt := rfl
@[simp] theorem count_lnk (j : Jenjor) (blk off : Nat) : (j.count blk off).lnk = j.lnk := rfl
@[simp] theorem count_cpn (j : Jenjor) (blk off : Nat) : (j.count blk off).cpn = j.cpn := rfl
@[simp] theorem count_dom (j : Jenjor) (blk off : Nat) : (j.count blk off).dom = j.dom := rfl
@[simp] theorem count_alm (j : Jenjor) (blk off : Nat) : (j.count blk off).alm = j.alm := rfl
@[simp] theorem count_isl (j : Jenjor) (blk off : Nat) : (j.count blk off).isl = j.isl := rfl
@[simp] theorem count_see (j : Jenjor) (blk off : Nat) : (j.count blk off).see = j.see := rfl

@[simp] theorem setMsix_time (j : Jenjor) (v : Nat) (e : MsixEntry) : (j.setMsix v e).time = j.time := rfl
@[simp] theorem setMsix_freeIdx (j : Jenjor) (v : Nat) (e : MsixEntry) : (j.setMsix v e).freeIdx = j.freeIdx := rfl
@[simp] theorem setMsix_out (j : Jenjor) (v : Nat) (e : MsixEntry) : (j.setMsix v e).out = j.out := rfl
@[simp] theorem setMsix_ctrs (j : Jenjor) (v : Nat) (e : MsixEntry) : (j.setMsix v e).ctrs = j.ctrs := rfl
@[simp] theorem setMsix_log (j : Jenjor) (v : Nat) (e : MsixEntry) : (j.setMsix v e).log = j.log := rfl
@[simp] theorem setMsix_cat (j : Jenjor) (v : Nat) (e : MsixEntry) : (j.setMsix v e).cat = j.cat := rfl
@[simp] theorem setMsix_sw (j : Jenjor) (v : Nat) (e : MsixEntry) : (j.setMsix v e).sw = j.sw := rfl
@[simp] theorem setMsix_spg (j : Jenjor) (v : Nat) (e : MsixEntry) : (j.setMsix v e).spg = j.spg := rfl
@[simp] theorem setMsix_coe (j : Jenjor) (v : Nat) (e : MsixEntry) : (j.setMsix v e).coe = j.coe := rfl
@[simp] theorem setMsix_wr (j : Jenjor) (v : Nat) (e : MsixEntry) : (j.setMsix v e).wr = j.wr := rfl
@[simp] theorem setMsix_place (j : Jenjor) (v : Nat) (e : MsixEntry) : (j.setMsix v e).place = j.place := rfl
@[simp] theorem setMsix_mem (j : Jenjor) (v : Nat) (e : MsixEntry) : (j.setMsix v e).mem = j.mem := rfl
@[simp] theorem setMsix_vlt (j : Jenjor) (v : Nat) (e : MsixEntry) : (j.setMsix v e).vlt = j.vlt := rfl
@[simp] theorem setMsix_lnk (j : Jenjor) (v : Nat) (e : MsixEntry) : (j.setMsix v e).lnk = j.lnk := rfl
@[simp] theorem setMsix_cpn (j : Jenjor) (v : Nat) (e : MsixEntry) : (j.setMsix v e).cpn = j.cpn := rfl
@[simp] theorem setMsix_dom (j : Jenjor) (v : Nat) (e : MsixEntry) : (j.setMsix v e).dom = j.dom := rfl
@[simp] theorem setMsix_alm (j : Jenjor) (v : Nat) (e : MsixEntry) : (j.setMsix v e).alm = j.alm := rfl
@[simp] theorem setMsix_isl (j : Jenjor) (v : Nat) (e : MsixEntry) : (j.setMsix v e).isl = j.isl := rfl
@[simp] theorem setMsix_see (j : Jenjor) (v : Nat) (e : MsixEntry) : (j.setMsix v e).see = j.see := rfl

@[simp] theorem record_time (j : Jenjor) (cls blk unit cause addr : Nat) (status : BitVec 8) (detail : BitVec 256) : (j.record cls blk unit cause addr status detail).time = j.time := by unfold record; dsimp only; split <;> rfl
@[simp] theorem record_freeIdx (j : Jenjor) (cls blk unit cause addr : Nat) (status : BitVec 8) (detail : BitVec 256) : (j.record cls blk unit cause addr status detail).freeIdx = j.freeIdx := by unfold record; dsimp only; split <;> rfl
@[simp] theorem record_out (j : Jenjor) (cls blk unit cause addr : Nat) (status : BitVec 8) (detail : BitVec 256) : (j.record cls blk unit cause addr status detail).out = j.out := by unfold record; dsimp only; split <;> rfl
@[simp] theorem record_cat (j : Jenjor) (cls blk unit cause addr : Nat) (status : BitVec 8) (detail : BitVec 256) : (j.record cls blk unit cause addr status detail).cat = j.cat := by unfold record; dsimp only; split <;> rfl
@[simp] theorem record_qs (j : Jenjor) (cls blk unit cause addr : Nat) (status : BitVec 8) (detail : BitVec 256) : (j.record cls blk unit cause addr status detail).qs = j.qs := by unfold record; dsimp only; split <;> rfl
@[simp] theorem record_sw (j : Jenjor) (cls blk unit cause addr : Nat) (status : BitVec 8) (detail : BitVec 256) : (j.record cls blk unit cause addr status detail).sw = j.sw := by unfold record; dsimp only; split <;> rfl
@[simp] theorem record_spg (j : Jenjor) (cls blk unit cause addr : Nat) (status : BitVec 8) (detail : BitVec 256) : (j.record cls blk unit cause addr status detail).spg = j.spg := by unfold record; dsimp only; split <;> rfl
@[simp] theorem record_coe (j : Jenjor) (cls blk unit cause addr : Nat) (status : BitVec 8) (detail : BitVec 256) : (j.record cls blk unit cause addr status detail).coe = j.coe := by unfold record; dsimp only; split <;> rfl
@[simp] theorem record_wr (j : Jenjor) (cls blk unit cause addr : Nat) (status : BitVec 8) (detail : BitVec 256) : (j.record cls blk unit cause addr status detail).wr = j.wr := by unfold record; dsimp only; split <;> rfl
@[simp] theorem record_place (j : Jenjor) (cls blk unit cause addr : Nat) (status : BitVec 8) (detail : BitVec 256) : (j.record cls blk unit cause addr status detail).place = j.place := by unfold record; dsimp only; split <;> rfl
@[simp] theorem record_mem (j : Jenjor) (cls blk unit cause addr : Nat) (status : BitVec 8) (detail : BitVec 256) : (j.record cls blk unit cause addr status detail).mem = j.mem := by unfold record; dsimp only; split <;> rfl
@[simp] theorem record_vlt (j : Jenjor) (cls blk unit cause addr : Nat) (status : BitVec 8) (detail : BitVec 256) : (j.record cls blk unit cause addr status detail).vlt = j.vlt := by unfold record; dsimp only; split <;> rfl
@[simp] theorem record_lnk (j : Jenjor) (cls blk unit cause addr : Nat) (status : BitVec 8) (detail : BitVec 256) : (j.record cls blk unit cause addr status detail).lnk = j.lnk := by unfold record; dsimp only; split <;> rfl
@[simp] theorem record_cpn (j : Jenjor) (cls blk unit cause addr : Nat) (status : BitVec 8) (detail : BitVec 256) : (j.record cls blk unit cause addr status detail).cpn = j.cpn := by unfold record; dsimp only; split <;> rfl
@[simp] theorem record_dom (j : Jenjor) (cls blk unit cause addr : Nat) (status : BitVec 8) (detail : BitVec 256) : (j.record cls blk unit cause addr status detail).dom = j.dom := by unfold record; dsimp only; split <;> rfl
@[simp] theorem record_alm (j : Jenjor) (cls blk unit cause addr : Nat) (status : BitVec 8) (detail : BitVec 256) : (j.record cls blk unit cause addr status detail).alm = j.alm := by unfold record; dsimp only; split <;> rfl
@[simp] theorem record_isl (j : Jenjor) (cls blk unit cause addr : Nat) (status : BitVec 8) (detail : BitVec 256) : (j.record cls blk unit cause addr status detail).isl = j.isl := by unfold record; dsimp only; split <;> rfl
@[simp] theorem record_see (j : Jenjor) (cls blk unit cause addr : Nat) (status : BitVec 8) (detail : BitVec 256) : (j.record cls blk unit cause addr status detail).see = j.see := by unfold record; dsimp only; split <;> rfl

@[simp] theorem info_time (j : Jenjor) (blk unit cause addr : Nat) : (j.info blk unit cause addr).time = j.time := by simp [info]
@[simp] theorem info_freeIdx (j : Jenjor) (blk unit cause addr : Nat) : (j.info blk unit cause addr).freeIdx = j.freeIdx := by simp [info]
@[simp] theorem info_out (j : Jenjor) (blk unit cause addr : Nat) : (j.info blk unit cause addr).out = j.out := by simp [info]
@[simp] theorem info_cat (j : Jenjor) (blk unit cause addr : Nat) : (j.info blk unit cause addr).cat = j.cat := by simp [info]
@[simp] theorem info_qs (j : Jenjor) (blk unit cause addr : Nat) : (j.info blk unit cause addr).qs = j.qs := by simp [info]
@[simp] theorem info_sw (j : Jenjor) (blk unit cause addr : Nat) : (j.info blk unit cause addr).sw = j.sw := by simp [info]
@[simp] theorem info_spg (j : Jenjor) (blk unit cause addr : Nat) : (j.info blk unit cause addr).spg = j.spg := by simp [info]
@[simp] theorem info_coe (j : Jenjor) (blk unit cause addr : Nat) : (j.info blk unit cause addr).coe = j.coe := by simp [info]
@[simp] theorem info_wr (j : Jenjor) (blk unit cause addr : Nat) : (j.info blk unit cause addr).wr = j.wr := by simp [info]
@[simp] theorem info_place (j : Jenjor) (blk unit cause addr : Nat) : (j.info blk unit cause addr).place = j.place := by simp [info]
@[simp] theorem info_mem (j : Jenjor) (blk unit cause addr : Nat) : (j.info blk unit cause addr).mem = j.mem := by simp [info]
@[simp] theorem info_vlt (j : Jenjor) (blk unit cause addr : Nat) : (j.info blk unit cause addr).vlt = j.vlt := by simp [info]
@[simp] theorem info_lnk (j : Jenjor) (blk unit cause addr : Nat) : (j.info blk unit cause addr).lnk = j.lnk := by simp [info]
@[simp] theorem info_cpn (j : Jenjor) (blk unit cause addr : Nat) : (j.info blk unit cause addr).cpn = j.cpn := by simp [info]
@[simp] theorem info_dom (j : Jenjor) (blk unit cause addr : Nat) : (j.info blk unit cause addr).dom = j.dom := by simp [info]
@[simp] theorem info_alm (j : Jenjor) (blk unit cause addr : Nat) : (j.info blk unit cause addr).alm = j.alm := by simp [info]
@[simp] theorem info_isl (j : Jenjor) (blk unit cause addr : Nat) : (j.info blk unit cause addr).isl = j.isl := by simp [info]
@[simp] theorem info_see (j : Jenjor) (blk unit cause addr : Nat) : (j.info blk unit cause addr).see = j.see := by simp [info]

@[simp] theorem discard_time (j : Jenjor) (unit addr : Nat) : (j.discard unit addr).time = j.time := by simp [discard]
@[simp] theorem discard_freeIdx (j : Jenjor) (unit addr : Nat) : (j.discard unit addr).freeIdx = j.freeIdx := by simp [discard]
@[simp] theorem discard_out (j : Jenjor) (unit addr : Nat) : (j.discard unit addr).out = j.out := by simp [discard]
@[simp] theorem discard_cat (j : Jenjor) (unit addr : Nat) : (j.discard unit addr).cat = j.cat := by simp [discard]
@[simp] theorem discard_qs (j : Jenjor) (unit addr : Nat) : (j.discard unit addr).qs = j.qs := by simp [discard]
@[simp] theorem discard_sw (j : Jenjor) (unit addr : Nat) : (j.discard unit addr).sw = j.sw := by simp [discard]
@[simp] theorem discard_spg (j : Jenjor) (unit addr : Nat) : (j.discard unit addr).spg = j.spg := by simp [discard]
@[simp] theorem discard_coe (j : Jenjor) (unit addr : Nat) : (j.discard unit addr).coe = j.coe := by simp [discard]
@[simp] theorem discard_wr (j : Jenjor) (unit addr : Nat) : (j.discard unit addr).wr = j.wr := by simp [discard]
@[simp] theorem discard_place (j : Jenjor) (unit addr : Nat) : (j.discard unit addr).place = j.place := by simp [discard]
@[simp] theorem discard_mem (j : Jenjor) (unit addr : Nat) : (j.discard unit addr).mem = j.mem := by simp [discard]
@[simp] theorem discard_vlt (j : Jenjor) (unit addr : Nat) : (j.discard unit addr).vlt = j.vlt := by simp [discard]
@[simp] theorem discard_lnk (j : Jenjor) (unit addr : Nat) : (j.discard unit addr).lnk = j.lnk := by simp [discard]
@[simp] theorem discard_cpn (j : Jenjor) (unit addr : Nat) : (j.discard unit addr).cpn = j.cpn := by simp [discard]
@[simp] theorem discard_dom (j : Jenjor) (unit addr : Nat) : (j.discard unit addr).dom = j.dom := by simp [discard]
@[simp] theorem discard_alm (j : Jenjor) (unit addr : Nat) : (j.discard unit addr).alm = j.alm := by simp [discard]
@[simp] theorem discard_isl (j : Jenjor) (unit addr : Nat) : (j.discard unit addr).isl = j.isl := by simp [discard]
@[simp] theorem discard_see (j : Jenjor) (unit addr : Nat) : (j.discard unit addr).see = j.see := by simp [discard]

@[simp] theorem sendVector_time (j : Jenjor) (v : Nat) : (j.sendVector v).time = j.time := by unfold sendVector; dsimp only; split <;> (try split) <;> (try split) <;> simp
@[simp] theorem sendVector_freeIdx (j : Jenjor) (v : Nat) : (j.sendVector v).freeIdx = j.freeIdx := by unfold sendVector; dsimp only; split <;> (try split) <;> (try split) <;> simp
@[simp] theorem sendVector_cat (j : Jenjor) (v : Nat) : (j.sendVector v).cat = j.cat := by unfold sendVector; dsimp only; split <;> (try split) <;> (try split) <;> simp
@[simp] theorem sendVector_sw (j : Jenjor) (v : Nat) : (j.sendVector v).sw = j.sw := by unfold sendVector; dsimp only; split <;> (try split) <;> (try split) <;> simp
@[simp] theorem sendVector_spg (j : Jenjor) (v : Nat) : (j.sendVector v).spg = j.spg := by unfold sendVector; dsimp only; split <;> (try split) <;> (try split) <;> simp
@[simp] theorem sendVector_coe (j : Jenjor) (v : Nat) : (j.sendVector v).coe = j.coe := by unfold sendVector; dsimp only; split <;> (try split) <;> (try split) <;> simp
@[simp] theorem sendVector_wr (j : Jenjor) (v : Nat) : (j.sendVector v).wr = j.wr := by unfold sendVector; dsimp only; split <;> (try split) <;> (try split) <;> simp
@[simp] theorem sendVector_place (j : Jenjor) (v : Nat) : (j.sendVector v).place = j.place := by unfold sendVector; dsimp only; split <;> (try split) <;> (try split) <;> simp
@[simp] theorem sendVector_mem (j : Jenjor) (v : Nat) : (j.sendVector v).mem = j.mem := by unfold sendVector; dsimp only; split <;> (try split) <;> (try split) <;> simp
@[simp] theorem sendVector_vlt (j : Jenjor) (v : Nat) : (j.sendVector v).vlt = j.vlt := by unfold sendVector; dsimp only; split <;> (try split) <;> (try split) <;> simp
@[simp] theorem sendVector_lnk (j : Jenjor) (v : Nat) : (j.sendVector v).lnk = j.lnk := by unfold sendVector; dsimp only; split <;> (try split) <;> (try split) <;> simp
@[simp] theorem sendVector_cpn (j : Jenjor) (v : Nat) : (j.sendVector v).cpn = j.cpn := by unfold sendVector; dsimp only; split <;> (try split) <;> (try split) <;> simp
@[simp] theorem sendVector_dom (j : Jenjor) (v : Nat) : (j.sendVector v).dom = j.dom := by unfold sendVector; dsimp only; split <;> (try split) <;> (try split) <;> simp
@[simp] theorem sendVector_alm (j : Jenjor) (v : Nat) : (j.sendVector v).alm = j.alm := by unfold sendVector; dsimp only; split <;> (try split) <;> (try split) <;> simp
@[simp] theorem sendVector_isl (j : Jenjor) (v : Nat) : (j.sendVector v).isl = j.isl := by unfold sendVector; dsimp only; split <;> (try split) <;> (try split) <;> simp
@[simp] theorem sendVector_see (j : Jenjor) (v : Nat) : (j.sendVector v).see = j.see := by unfold sendVector; dsimp only; split <;> (try split) <;> (try split) <;> simp

@[simp] theorem fault_time (j : Jenjor) (cls blk unit cause addr : Nat) (status : BitVec 8) (detail : BitVec 256) : (j.fault cls blk unit cause addr status detail).time = j.time := by unfold fault; dsimp only; split <;> (try split) <;> (try split) <;> simp
@[simp] theorem fault_freeIdx (j : Jenjor) (cls blk unit cause addr : Nat) (status : BitVec 8) (detail : BitVec 256) : (j.fault cls blk unit cause addr status detail).freeIdx = j.freeIdx := by unfold fault; dsimp only; split <;> (try split) <;> (try split) <;> simp
@[simp] theorem fault_cat (j : Jenjor) (cls blk unit cause addr : Nat) (status : BitVec 8) (detail : BitVec 256) : (j.fault cls blk unit cause addr status detail).cat = j.cat := by unfold fault; dsimp only; split <;> (try split) <;> (try split) <;> simp
@[simp] theorem fault_sw (j : Jenjor) (cls blk unit cause addr : Nat) (status : BitVec 8) (detail : BitVec 256) : (j.fault cls blk unit cause addr status detail).sw = j.sw := by unfold fault; dsimp only; split <;> (try split) <;> (try split) <;> simp
@[simp] theorem fault_spg (j : Jenjor) (cls blk unit cause addr : Nat) (status : BitVec 8) (detail : BitVec 256) : (j.fault cls blk unit cause addr status detail).spg = j.spg := by unfold fault; dsimp only; split <;> (try split) <;> (try split) <;> simp
@[simp] theorem fault_coe (j : Jenjor) (cls blk unit cause addr : Nat) (status : BitVec 8) (detail : BitVec 256) : (j.fault cls blk unit cause addr status detail).coe = j.coe := by unfold fault; dsimp only; split <;> (try split) <;> (try split) <;> simp
@[simp] theorem fault_wr (j : Jenjor) (cls blk unit cause addr : Nat) (status : BitVec 8) (detail : BitVec 256) : (j.fault cls blk unit cause addr status detail).wr = j.wr := by unfold fault; dsimp only; split <;> (try split) <;> (try split) <;> simp
@[simp] theorem fault_place (j : Jenjor) (cls blk unit cause addr : Nat) (status : BitVec 8) (detail : BitVec 256) : (j.fault cls blk unit cause addr status detail).place = j.place := by unfold fault; dsimp only; split <;> (try split) <;> (try split) <;> simp
@[simp] theorem fault_mem (j : Jenjor) (cls blk unit cause addr : Nat) (status : BitVec 8) (detail : BitVec 256) : (j.fault cls blk unit cause addr status detail).mem = j.mem := by unfold fault; dsimp only; split <;> (try split) <;> (try split) <;> simp
@[simp] theorem fault_vlt (j : Jenjor) (cls blk unit cause addr : Nat) (status : BitVec 8) (detail : BitVec 256) : (j.fault cls blk unit cause addr status detail).vlt = j.vlt := by unfold fault; dsimp only; split <;> (try split) <;> (try split) <;> simp
@[simp] theorem fault_lnk (j : Jenjor) (cls blk unit cause addr : Nat) (status : BitVec 8) (detail : BitVec 256) : (j.fault cls blk unit cause addr status detail).lnk = j.lnk := by unfold fault; dsimp only; split <;> (try split) <;> (try split) <;> simp
@[simp] theorem fault_cpn (j : Jenjor) (cls blk unit cause addr : Nat) (status : BitVec 8) (detail : BitVec 256) : (j.fault cls blk unit cause addr status detail).cpn = j.cpn := by unfold fault; dsimp only; split <;> (try split) <;> (try split) <;> simp
@[simp] theorem fault_dom (j : Jenjor) (cls blk unit cause addr : Nat) (status : BitVec 8) (detail : BitVec 256) : (j.fault cls blk unit cause addr status detail).dom = j.dom := by unfold fault; dsimp only; split <;> (try split) <;> (try split) <;> simp
@[simp] theorem fault_alm (j : Jenjor) (cls blk unit cause addr : Nat) (status : BitVec 8) (detail : BitVec 256) : (j.fault cls blk unit cause addr status detail).alm = j.alm := by unfold fault; dsimp only; split <;> (try split) <;> (try split) <;> simp
@[simp] theorem fault_see (j : Jenjor) (cls blk unit cause addr : Nat) (status : BitVec 8) (detail : BitVec 256) : (j.fault cls blk unit cause addr status detail).see = j.see := by unfold fault; dsimp only; split <;> (try split) <;> (try split) <;> simp

@[simp] theorem mapQueue_time (j : Jenjor) (q : Nat) (f : Queue → Queue) : (j.mapQueue q f).time = j.time := rfl
@[simp] theorem mapQueue_freeIdx (j : Jenjor) (q : Nat) (f : Queue → Queue) : (j.mapQueue q f).freeIdx = j.freeIdx := rfl
@[simp] theorem mapQueue_out (j : Jenjor) (q : Nat) (f : Queue → Queue) : (j.mapQueue q f).out = j.out := rfl
@[simp] theorem mapQueue_ctrs (j : Jenjor) (q : Nat) (f : Queue → Queue) : (j.mapQueue q f).ctrs = j.ctrs := rfl
@[simp] theorem mapQueue_log (j : Jenjor) (q : Nat) (f : Queue → Queue) : (j.mapQueue q f).log = j.log := rfl
@[simp] theorem mapQueue_cat (j : Jenjor) (q : Nat) (f : Queue → Queue) : (j.mapQueue q f).cat = j.cat := rfl
@[simp] theorem mapQueue_sw (j : Jenjor) (q : Nat) (f : Queue → Queue) : (j.mapQueue q f).sw = j.sw := rfl
@[simp] theorem mapQueue_spg (j : Jenjor) (q : Nat) (f : Queue → Queue) : (j.mapQueue q f).spg = j.spg := rfl
@[simp] theorem mapQueue_coe (j : Jenjor) (q : Nat) (f : Queue → Queue) : (j.mapQueue q f).coe = j.coe := rfl
@[simp] theorem mapQueue_wr (j : Jenjor) (q : Nat) (f : Queue → Queue) : (j.mapQueue q f).wr = j.wr := rfl
@[simp] theorem mapQueue_place (j : Jenjor) (q : Nat) (f : Queue → Queue) : (j.mapQueue q f).place = j.place := rfl
@[simp] theorem mapQueue_mem (j : Jenjor) (q : Nat) (f : Queue → Queue) : (j.mapQueue q f).mem = j.mem := rfl
@[simp] theorem mapQueue_vlt (j : Jenjor) (q : Nat) (f : Queue → Queue) : (j.mapQueue q f).vlt = j.vlt := rfl
@[simp] theorem mapQueue_lnk (j : Jenjor) (q : Nat) (f : Queue → Queue) : (j.mapQueue q f).lnk = j.lnk := rfl
@[simp] theorem mapQueue_cpn (j : Jenjor) (q : Nat) (f : Queue → Queue) : (j.mapQueue q f).cpn = j.cpn := rfl
@[simp] theorem mapQueue_dom (j : Jenjor) (q : Nat) (f : Queue → Queue) : (j.mapQueue q f).dom = j.dom := rfl
@[simp] theorem mapQueue_alm (j : Jenjor) (q : Nat) (f : Queue → Queue) : (j.mapQueue q f).alm = j.alm := rfl
@[simp] theorem mapQueue_isl (j : Jenjor) (q : Nat) (f : Queue → Queue) : (j.mapQueue q f).isl = j.isl := rfl
@[simp] theorem mapQueue_see (j : Jenjor) (q : Nat) (f : Queue → Queue) : (j.mapQueue q f).see = j.see := rfl

@[simp] theorem mapQp_time (j : Jenjor) (n : Nat) (f : Qp → Qp) : (j.mapQp n f).time = j.time := rfl
@[simp] theorem mapQp_freeIdx (j : Jenjor) (n : Nat) (f : Qp → Qp) : (j.mapQp n f).freeIdx = j.freeIdx := rfl
@[simp] theorem mapQp_out (j : Jenjor) (n : Nat) (f : Qp → Qp) : (j.mapQp n f).out = j.out := rfl
@[simp] theorem mapQp_ctrs (j : Jenjor) (n : Nat) (f : Qp → Qp) : (j.mapQp n f).ctrs = j.ctrs := rfl
@[simp] theorem mapQp_log (j : Jenjor) (n : Nat) (f : Qp → Qp) : (j.mapQp n f).log = j.log := rfl
@[simp] theorem mapQp_cat (j : Jenjor) (n : Nat) (f : Qp → Qp) : (j.mapQp n f).cat = j.cat := rfl
@[simp] theorem mapQp_qs (j : Jenjor) (n : Nat) (f : Qp → Qp) : (j.mapQp n f).qs = j.qs := rfl
@[simp] theorem mapQp_sw (j : Jenjor) (n : Nat) (f : Qp → Qp) : (j.mapQp n f).sw = j.sw := rfl
@[simp] theorem mapQp_spg (j : Jenjor) (n : Nat) (f : Qp → Qp) : (j.mapQp n f).spg = j.spg := rfl
@[simp] theorem mapQp_coe (j : Jenjor) (n : Nat) (f : Qp → Qp) : (j.mapQp n f).coe = j.coe := rfl
@[simp] theorem mapQp_wr (j : Jenjor) (n : Nat) (f : Qp → Qp) : (j.mapQp n f).wr = j.wr := rfl
@[simp] theorem mapQp_place (j : Jenjor) (n : Nat) (f : Qp → Qp) : (j.mapQp n f).place = j.place := rfl
@[simp] theorem mapQp_mem (j : Jenjor) (n : Nat) (f : Qp → Qp) : (j.mapQp n f).mem = j.mem := rfl
@[simp] theorem mapQp_vlt (j : Jenjor) (n : Nat) (f : Qp → Qp) : (j.mapQp n f).vlt = j.vlt := rfl
@[simp] theorem mapQp_cpn (j : Jenjor) (n : Nat) (f : Qp → Qp) : (j.mapQp n f).cpn = j.cpn := rfl
@[simp] theorem mapQp_dom (j : Jenjor) (n : Nat) (f : Qp → Qp) : (j.mapQp n f).dom = j.dom := rfl
@[simp] theorem mapQp_alm (j : Jenjor) (n : Nat) (f : Qp → Qp) : (j.mapQp n f).alm = j.alm := rfl
@[simp] theorem mapQp_isl (j : Jenjor) (n : Nat) (f : Qp → Qp) : (j.mapQp n f).isl = j.isl := rfl
@[simp] theorem mapQp_see (j : Jenjor) (n : Nat) (f : Qp → Qp) : (j.mapQp n f).see = j.see := rfl

@[simp] theorem queueFault_time (j : Jenjor) (q cause : Nat) : (j.queueFault q cause).time = j.time := by simp [queueFault]
@[simp] theorem queueFault_freeIdx (j : Jenjor) (q cause : Nat) : (j.queueFault q cause).freeIdx = j.freeIdx := by simp [queueFault]
@[simp] theorem queueFault_out (j : Jenjor) (q cause : Nat) : (j.queueFault q cause).out = j.out := by simp [queueFault]
@[simp] theorem queueFault_cat (j : Jenjor) (q cause : Nat) : (j.queueFault q cause).cat = j.cat := by simp [queueFault]
@[simp] theorem queueFault_sw (j : Jenjor) (q cause : Nat) : (j.queueFault q cause).sw = j.sw := by simp [queueFault]
@[simp] theorem queueFault_spg (j : Jenjor) (q cause : Nat) : (j.queueFault q cause).spg = j.spg := by simp [queueFault]
@[simp] theorem queueFault_coe (j : Jenjor) (q cause : Nat) : (j.queueFault q cause).coe = j.coe := by simp [queueFault]
@[simp] theorem queueFault_wr (j : Jenjor) (q cause : Nat) : (j.queueFault q cause).wr = j.wr := by simp [queueFault]
@[simp] theorem queueFault_place (j : Jenjor) (q cause : Nat) : (j.queueFault q cause).place = j.place := by simp [queueFault]
@[simp] theorem queueFault_mem (j : Jenjor) (q cause : Nat) : (j.queueFault q cause).mem = j.mem := by simp [queueFault]
@[simp] theorem queueFault_vlt (j : Jenjor) (q cause : Nat) : (j.queueFault q cause).vlt = j.vlt := by simp [queueFault]
@[simp] theorem queueFault_lnk (j : Jenjor) (q cause : Nat) : (j.queueFault q cause).lnk = j.lnk := by simp [queueFault]
@[simp] theorem queueFault_cpn (j : Jenjor) (q cause : Nat) : (j.queueFault q cause).cpn = j.cpn := by simp [queueFault]
@[simp] theorem queueFault_dom (j : Jenjor) (q cause : Nat) : (j.queueFault q cause).dom = j.dom := by simp [queueFault]
@[simp] theorem queueFault_alm (j : Jenjor) (q cause : Nat) : (j.queueFault q cause).alm = j.alm := by simp [queueFault]
@[simp] theorem queueFault_isl (j : Jenjor) (q cause : Nat) : (j.queueFault q cause).isl = j.isl := by simp [queueFault]
@[simp] theorem queueFault_see (j : Jenjor) (q cause : Nat) : (j.queueFault q cause).see = j.see := by simp [queueFault]

@[simp] theorem countInterrupt_time (j : Jenjor) (q : Queue) : (j.countInterrupt q).time = j.time := by unfold countInterrupt; dsimp only; split <;> simp
@[simp] theorem countInterrupt_freeIdx (j : Jenjor) (q : Queue) : (j.countInterrupt q).freeIdx = j.freeIdx := by unfold countInterrupt; dsimp only; split <;> simp
@[simp] theorem countInterrupt_cat (j : Jenjor) (q : Queue) : (j.countInterrupt q).cat = j.cat := by unfold countInterrupt; dsimp only; split <;> simp
@[simp] theorem countInterrupt_sw (j : Jenjor) (q : Queue) : (j.countInterrupt q).sw = j.sw := by unfold countInterrupt; dsimp only; split <;> simp
@[simp] theorem countInterrupt_spg (j : Jenjor) (q : Queue) : (j.countInterrupt q).spg = j.spg := by unfold countInterrupt; dsimp only; split <;> simp
@[simp] theorem countInterrupt_coe (j : Jenjor) (q : Queue) : (j.countInterrupt q).coe = j.coe := by unfold countInterrupt; dsimp only; split <;> simp
@[simp] theorem countInterrupt_wr (j : Jenjor) (q : Queue) : (j.countInterrupt q).wr = j.wr := by unfold countInterrupt; dsimp only; split <;> simp
@[simp] theorem countInterrupt_place (j : Jenjor) (q : Queue) : (j.countInterrupt q).place = j.place := by unfold countInterrupt; dsimp only; split <;> simp
@[simp] theorem countInterrupt_mem (j : Jenjor) (q : Queue) : (j.countInterrupt q).mem = j.mem := by unfold countInterrupt; dsimp only; split <;> simp
@[simp] theorem countInterrupt_vlt (j : Jenjor) (q : Queue) : (j.countInterrupt q).vlt = j.vlt := by unfold countInterrupt; dsimp only; split <;> simp
@[simp] theorem countInterrupt_lnk (j : Jenjor) (q : Queue) : (j.countInterrupt q).lnk = j.lnk := by unfold countInterrupt; dsimp only; split <;> simp
@[simp] theorem countInterrupt_cpn (j : Jenjor) (q : Queue) : (j.countInterrupt q).cpn = j.cpn := by unfold countInterrupt; dsimp only; split <;> simp
@[simp] theorem countInterrupt_dom (j : Jenjor) (q : Queue) : (j.countInterrupt q).dom = j.dom := by unfold countInterrupt; dsimp only; split <;> simp
@[simp] theorem countInterrupt_alm (j : Jenjor) (q : Queue) : (j.countInterrupt q).alm = j.alm := by unfold countInterrupt; dsimp only; split <;> simp
@[simp] theorem countInterrupt_isl (j : Jenjor) (q : Queue) : (j.countInterrupt q).isl = j.isl := by unfold countInterrupt; dsimp only; split <;> simp
@[simp] theorem countInterrupt_see (j : Jenjor) (q : Queue) : (j.countInterrupt q).see = j.see := by unfold countInterrupt; dsimp only; split <;> simp

@[simp] theorem sendRdma_time (j : Jenjor) (qpn addr : Nat) (rkey : BitVec 32) (data : List Byte) : (j.sendRdma qpn addr rkey data).time = j.time := rfl
@[simp] theorem sendRdma_freeIdx (j : Jenjor) (qpn addr : Nat) (rkey : BitVec 32) (data : List Byte) : (j.sendRdma qpn addr rkey data).freeIdx = j.freeIdx := rfl
@[simp] theorem sendRdma_ctrs (j : Jenjor) (qpn addr : Nat) (rkey : BitVec 32) (data : List Byte) : (j.sendRdma qpn addr rkey data).ctrs = j.ctrs := rfl
@[simp] theorem sendRdma_log (j : Jenjor) (qpn addr : Nat) (rkey : BitVec 32) (data : List Byte) : (j.sendRdma qpn addr rkey data).log = j.log := rfl
@[simp] theorem sendRdma_cat (j : Jenjor) (qpn addr : Nat) (rkey : BitVec 32) (data : List Byte) : (j.sendRdma qpn addr rkey data).cat = j.cat := rfl
@[simp] theorem sendRdma_qs (j : Jenjor) (qpn addr : Nat) (rkey : BitVec 32) (data : List Byte) : (j.sendRdma qpn addr rkey data).qs = j.qs := rfl
@[simp] theorem sendRdma_sw (j : Jenjor) (qpn addr : Nat) (rkey : BitVec 32) (data : List Byte) : (j.sendRdma qpn addr rkey data).sw = j.sw := rfl
@[simp] theorem sendRdma_spg (j : Jenjor) (qpn addr : Nat) (rkey : BitVec 32) (data : List Byte) : (j.sendRdma qpn addr rkey data).spg = j.spg := rfl
@[simp] theorem sendRdma_coe (j : Jenjor) (qpn addr : Nat) (rkey : BitVec 32) (data : List Byte) : (j.sendRdma qpn addr rkey data).coe = j.coe := rfl
@[simp] theorem sendRdma_wr (j : Jenjor) (qpn addr : Nat) (rkey : BitVec 32) (data : List Byte) : (j.sendRdma qpn addr rkey data).wr = j.wr := rfl
@[simp] theorem sendRdma_place (j : Jenjor) (qpn addr : Nat) (rkey : BitVec 32) (data : List Byte) : (j.sendRdma qpn addr rkey data).place = j.place := rfl
@[simp] theorem sendRdma_mem (j : Jenjor) (qpn addr : Nat) (rkey : BitVec 32) (data : List Byte) : (j.sendRdma qpn addr rkey data).mem = j.mem := rfl
@[simp] theorem sendRdma_vlt (j : Jenjor) (qpn addr : Nat) (rkey : BitVec 32) (data : List Byte) : (j.sendRdma qpn addr rkey data).vlt = j.vlt := rfl
@[simp] theorem sendRdma_cpn (j : Jenjor) (qpn addr : Nat) (rkey : BitVec 32) (data : List Byte) : (j.sendRdma qpn addr rkey data).cpn = j.cpn := rfl
@[simp] theorem sendRdma_dom (j : Jenjor) (qpn addr : Nat) (rkey : BitVec 32) (data : List Byte) : (j.sendRdma qpn addr rkey data).dom = j.dom := rfl
@[simp] theorem sendRdma_alm (j : Jenjor) (qpn addr : Nat) (rkey : BitVec 32) (data : List Byte) : (j.sendRdma qpn addr rkey data).alm = j.alm := rfl
@[simp] theorem sendRdma_isl (j : Jenjor) (qpn addr : Nat) (rkey : BitVec 32) (data : List Byte) : (j.sendRdma qpn addr rkey data).isl = j.isl := rfl
@[simp] theorem sendRdma_see (j : Jenjor) (qpn addr : Nat) (rkey : BitVec 32) (data : List Byte) : (j.sendRdma qpn addr rkey data).see = j.see := rfl

@[simp] theorem sendCpn_time (j : Jenjor) (ty a b c : Nat) (data : List Byte) : (j.sendCpn ty a b c data).time = j.time := by unfold sendCpn; dsimp only; split <;> rfl
@[simp] theorem sendCpn_freeIdx (j : Jenjor) (ty a b c : Nat) (data : List Byte) : (j.sendCpn ty a b c data).freeIdx = j.freeIdx := by unfold sendCpn; dsimp only; split <;> rfl
@[simp] theorem sendCpn_ctrs (j : Jenjor) (ty a b c : Nat) (data : List Byte) : (j.sendCpn ty a b c data).ctrs = j.ctrs := by unfold sendCpn; dsimp only; split <;> rfl
@[simp] theorem sendCpn_log (j : Jenjor) (ty a b c : Nat) (data : List Byte) : (j.sendCpn ty a b c data).log = j.log := by unfold sendCpn; dsimp only; split <;> rfl
@[simp] theorem sendCpn_cat (j : Jenjor) (ty a b c : Nat) (data : List Byte) : (j.sendCpn ty a b c data).cat = j.cat := by unfold sendCpn; dsimp only; split <;> rfl
@[simp] theorem sendCpn_qs (j : Jenjor) (ty a b c : Nat) (data : List Byte) : (j.sendCpn ty a b c data).qs = j.qs := by unfold sendCpn; dsimp only; split <;> rfl
@[simp] theorem sendCpn_sw (j : Jenjor) (ty a b c : Nat) (data : List Byte) : (j.sendCpn ty a b c data).sw = j.sw := by unfold sendCpn; dsimp only; split <;> rfl
@[simp] theorem sendCpn_spg (j : Jenjor) (ty a b c : Nat) (data : List Byte) : (j.sendCpn ty a b c data).spg = j.spg := by unfold sendCpn; dsimp only; split <;> rfl
@[simp] theorem sendCpn_coe (j : Jenjor) (ty a b c : Nat) (data : List Byte) : (j.sendCpn ty a b c data).coe = j.coe := by unfold sendCpn; dsimp only; split <;> rfl
@[simp] theorem sendCpn_wr (j : Jenjor) (ty a b c : Nat) (data : List Byte) : (j.sendCpn ty a b c data).wr = j.wr := by unfold sendCpn; dsimp only; split <;> rfl
@[simp] theorem sendCpn_place (j : Jenjor) (ty a b c : Nat) (data : List Byte) : (j.sendCpn ty a b c data).place = j.place := by unfold sendCpn; dsimp only; split <;> rfl
@[simp] theorem sendCpn_mem (j : Jenjor) (ty a b c : Nat) (data : List Byte) : (j.sendCpn ty a b c data).mem = j.mem := by unfold sendCpn; dsimp only; split <;> rfl
@[simp] theorem sendCpn_vlt (j : Jenjor) (ty a b c : Nat) (data : List Byte) : (j.sendCpn ty a b c data).vlt = j.vlt := by unfold sendCpn; dsimp only; split <;> rfl
@[simp] theorem sendCpn_lnk (j : Jenjor) (ty a b c : Nat) (data : List Byte) : (j.sendCpn ty a b c data).lnk = j.lnk := by unfold sendCpn; dsimp only; split <;> rfl
@[simp] theorem sendCpn_dom (j : Jenjor) (ty a b c : Nat) (data : List Byte) : (j.sendCpn ty a b c data).dom = j.dom := by unfold sendCpn; dsimp only; split <;> rfl
@[simp] theorem sendCpn_alm (j : Jenjor) (ty a b c : Nat) (data : List Byte) : (j.sendCpn ty a b c data).alm = j.alm := by unfold sendCpn; dsimp only; split <;> rfl
@[simp] theorem sendCpn_isl (j : Jenjor) (ty a b c : Nat) (data : List Byte) : (j.sendCpn ty a b c data).isl = j.isl := by unfold sendCpn; dsimp only; split <;> rfl
@[simp] theorem sendCpn_see (j : Jenjor) (ty a b c : Nat) (data : List Byte) : (j.sendCpn ty a b c data).see = j.see := by unfold sendCpn; dsimp only; split <;> rfl

@[simp] theorem writeCompletion_time (j : Jenjor) (r : CmdRef) (st : Status) (v0 v1 : BitVec 64) (len : Option Nat) : (j.writeCompletion r st v0 v1 len).time = j.time := by
  unfold writeCompletion
  dsimp only
  repeat' split
  all_goals simp
@[simp] theorem writeCompletion_freeIdx (j : Jenjor) (r : CmdRef) (st : Status) (v0 v1 : BitVec 64) (len : Option Nat) : (j.writeCompletion r st v0 v1 len).freeIdx = j.freeIdx := by
  unfold writeCompletion
  dsimp only
  repeat' split
  all_goals simp
@[simp] theorem writeCompletion_cat (j : Jenjor) (r : CmdRef) (st : Status) (v0 v1 : BitVec 64) (len : Option Nat) : (j.writeCompletion r st v0 v1 len).cat = j.cat := by
  unfold writeCompletion
  dsimp only
  repeat' split
  all_goals simp
@[simp] theorem writeCompletion_sw (j : Jenjor) (r : CmdRef) (st : Status) (v0 v1 : BitVec 64) (len : Option Nat) : (j.writeCompletion r st v0 v1 len).sw = j.sw := by
  unfold writeCompletion
  dsimp only
  repeat' split
  all_goals simp
@[simp] theorem writeCompletion_spg (j : Jenjor) (r : CmdRef) (st : Status) (v0 v1 : BitVec 64) (len : Option Nat) : (j.writeCompletion r st v0 v1 len).spg = j.spg := by
  unfold writeCompletion
  dsimp only
  repeat' split
  all_goals simp
@[simp] theorem writeCompletion_coe (j : Jenjor) (r : CmdRef) (st : Status) (v0 v1 : BitVec 64) (len : Option Nat) : (j.writeCompletion r st v0 v1 len).coe = j.coe := by
  unfold writeCompletion
  dsimp only
  repeat' split
  all_goals simp
@[simp] theorem writeCompletion_wr (j : Jenjor) (r : CmdRef) (st : Status) (v0 v1 : BitVec 64) (len : Option Nat) : (j.writeCompletion r st v0 v1 len).wr = j.wr := by
  unfold writeCompletion
  dsimp only
  repeat' split
  all_goals simp
@[simp] theorem writeCompletion_place (j : Jenjor) (r : CmdRef) (st : Status) (v0 v1 : BitVec 64) (len : Option Nat) : (j.writeCompletion r st v0 v1 len).place = j.place := by
  unfold writeCompletion
  dsimp only
  repeat' split
  all_goals simp
@[simp] theorem writeCompletion_mem (j : Jenjor) (r : CmdRef) (st : Status) (v0 v1 : BitVec 64) (len : Option Nat) : (j.writeCompletion r st v0 v1 len).mem = j.mem := by
  unfold writeCompletion
  dsimp only
  repeat' split
  all_goals simp
@[simp] theorem writeCompletion_vlt (j : Jenjor) (r : CmdRef) (st : Status) (v0 v1 : BitVec 64) (len : Option Nat) : (j.writeCompletion r st v0 v1 len).vlt = j.vlt := by
  unfold writeCompletion
  dsimp only
  repeat' split
  all_goals simp
@[simp] theorem writeCompletion_dom (j : Jenjor) (r : CmdRef) (st : Status) (v0 v1 : BitVec 64) (len : Option Nat) : (j.writeCompletion r st v0 v1 len).dom = j.dom := by
  unfold writeCompletion
  dsimp only
  repeat' split
  all_goals simp
@[simp] theorem writeCompletion_alm (j : Jenjor) (r : CmdRef) (st : Status) (v0 v1 : BitVec 64) (len : Option Nat) : (j.writeCompletion r st v0 v1 len).alm = j.alm := by
  unfold writeCompletion
  dsimp only
  repeat' split
  all_goals simp
@[simp] theorem writeCompletion_isl (j : Jenjor) (r : CmdRef) (st : Status) (v0 v1 : BitVec 64) (len : Option Nat) : (j.writeCompletion r st v0 v1 len).isl = j.isl := by
  unfold writeCompletion
  dsimp only
  repeat' split
  all_goals simp
@[simp] theorem writeCompletion_see (j : Jenjor) (r : CmdRef) (st : Status) (v0 v1 : BitVec 64) (len : Option Nat) : (j.writeCompletion r st v0 v1 len).see = j.see := by
  unfold writeCompletion
  dsimp only
  repeat' split
  all_goals simp

@[simp] theorem settleAdmin_time (j : Jenjor) : (j.settleAdmin).time = j.time := by unfold settleAdmin; split <;> rfl
@[simp] theorem settleAdmin_freeIdx (j : Jenjor) : (j.settleAdmin).freeIdx = j.freeIdx := by unfold settleAdmin; split <;> rfl
@[simp] theorem settleAdmin_out (j : Jenjor) : (j.settleAdmin).out = j.out := by unfold settleAdmin; split <;> rfl
@[simp] theorem settleAdmin_ctrs (j : Jenjor) : (j.settleAdmin).ctrs = j.ctrs := by unfold settleAdmin; split <;> rfl
@[simp] theorem settleAdmin_log (j : Jenjor) : (j.settleAdmin).log = j.log := by unfold settleAdmin; split <;> rfl
@[simp] theorem settleAdmin_cat (j : Jenjor) : (j.settleAdmin).cat = j.cat := by unfold settleAdmin; split <;> rfl
@[simp] theorem settleAdmin_sw (j : Jenjor) : (j.settleAdmin).sw = j.sw := by unfold settleAdmin; split <;> rfl
@[simp] theorem settleAdmin_spg (j : Jenjor) : (j.settleAdmin).spg = j.spg := by unfold settleAdmin; split <;> rfl
@[simp] theorem settleAdmin_coe (j : Jenjor) : (j.settleAdmin).coe = j.coe := by unfold settleAdmin; split <;> rfl
@[simp] theorem settleAdmin_wr (j : Jenjor) : (j.settleAdmin).wr = j.wr := by unfold settleAdmin; split <;> rfl
@[simp] theorem settleAdmin_place (j : Jenjor) : (j.settleAdmin).place = j.place := by unfold settleAdmin; split <;> rfl
@[simp] theorem settleAdmin_mem (j : Jenjor) : (j.settleAdmin).mem = j.mem := by unfold settleAdmin; split <;> rfl
@[simp] theorem settleAdmin_vlt (j : Jenjor) : (j.settleAdmin).vlt = j.vlt := by unfold settleAdmin; split <;> rfl
@[simp] theorem settleAdmin_lnk (j : Jenjor) : (j.settleAdmin).lnk = j.lnk := by unfold settleAdmin; split <;> rfl
@[simp] theorem settleAdmin_cpn (j : Jenjor) : (j.settleAdmin).cpn = j.cpn := by unfold settleAdmin; split <;> rfl
@[simp] theorem settleAdmin_dom (j : Jenjor) : (j.settleAdmin).dom = j.dom := by unfold settleAdmin; split <;> rfl
@[simp] theorem settleAdmin_alm (j : Jenjor) : (j.settleAdmin).alm = j.alm := by unfold settleAdmin; split <;> rfl
@[simp] theorem settleAdmin_isl (j : Jenjor) : (j.settleAdmin).isl = j.isl := by unfold settleAdmin; split <;> rfl
@[simp] theorem settleAdmin_see (j : Jenjor) : (j.settleAdmin).see = j.see := by unfold settleAdmin; split <;> rfl

theorem foldWrite_time (l : List CmdRef) (st : Status) (j : Jenjor) :
    (l.foldl (fun j w => j.writeCompletion w st 0 0 none) j).time = j.time := by
  induction l generalizing j with
  | nil => rfl
  | cons w l ih => exact (ih _).trans (by simp)
@[simp] theorem reapQueues_time (n : Nat) (j : Jenjor) : (reapQueues n j).time = j.time := by
  induction n generalizing j with
  | zero => rfl
  | succ n ih =>
    unfold reapQueues
    split
    · rfl
    · dsimp only
      rw [ih, foldWrite_time]
      split <;> exact foldWrite_time _ _ _
@[simp] theorem complete_time (j : Jenjor) (r : CmdRef) (st : Status) (v0 v1 : BitVec 64) (len : Option Nat) :
    (j.complete r st v0 v1 len).time = j.time := by simp [complete]
@[simp] theorem refuse_time (j : Jenjor) (r : CmdRef) (st : Status) : (j.refuse r st).time = j.time := by simp [refuse]

theorem foldWrite_freeIdx (l : List CmdRef) (st : Status) (j : Jenjor) :
    (l.foldl (fun j w => j.writeCompletion w st 0 0 none) j).freeIdx = j.freeIdx := by
  induction l generalizing j with
  | nil => rfl
  | cons w l ih => exact (ih _).trans (by simp)
@[simp] theorem reapQueues_freeIdx (n : Nat) (j : Jenjor) : (reapQueues n j).freeIdx = j.freeIdx := by
  induction n generalizing j with
  | zero => rfl
  | succ n ih =>
    unfold reapQueues
    split
    · rfl
    · dsimp only
      rw [ih, foldWrite_freeIdx]
      split <;> exact foldWrite_freeIdx _ _ _
@[simp] theorem complete_freeIdx (j : Jenjor) (r : CmdRef) (st : Status) (v0 v1 : BitVec 64) (len : Option Nat) :
    (j.complete r st v0 v1 len).freeIdx = j.freeIdx := by simp [complete]
@[simp] theorem refuse_freeIdx (j : Jenjor) (r : CmdRef) (st : Status) : (j.refuse r st).freeIdx = j.freeIdx := by simp [refuse]

theorem foldWrite_cat (l : List CmdRef) (st : Status) (j : Jenjor) :
    (l.foldl (fun j w => j.writeCompletion w st 0 0 none) j).cat = j.cat := by
  induction l generalizing j with
  | nil => rfl
  | cons w l ih => exact (ih _).trans (by simp)
@[simp] theorem reapQueues_cat (n : Nat) (j : Jenjor) : (reapQueues n j).cat = j.cat := by
  induction n generalizing j with
  | zero => rfl
  | succ n ih =>
    unfold reapQueues
    split
    · rfl
    · dsimp only
      rw [ih, foldWrite_cat]
      split <;> exact foldWrite_cat _ _ _
@[simp] theorem complete_cat (j : Jenjor) (r : CmdRef) (st : Status) (v0 v1 : BitVec 64) (len : Option Nat) :
    (j.complete r st v0 v1 len).cat = j.cat := by simp [complete]
@[simp] theorem refuse_cat (j : Jenjor) (r : CmdRef) (st : Status) : (j.refuse r st).cat = j.cat := by simp [refuse]

theorem foldWrite_sw (l : List CmdRef) (st : Status) (j : Jenjor) :
    (l.foldl (fun j w => j.writeCompletion w st 0 0 none) j).sw = j.sw := by
  induction l generalizing j with
  | nil => rfl
  | cons w l ih => exact (ih _).trans (by simp)
@[simp] theorem reapQueues_sw (n : Nat) (j : Jenjor) : (reapQueues n j).sw = j.sw := by
  induction n generalizing j with
  | zero => rfl
  | succ n ih =>
    unfold reapQueues
    split
    · rfl
    · dsimp only
      rw [ih, foldWrite_sw]
      split <;> exact foldWrite_sw _ _ _
@[simp] theorem complete_sw (j : Jenjor) (r : CmdRef) (st : Status) (v0 v1 : BitVec 64) (len : Option Nat) :
    (j.complete r st v0 v1 len).sw = j.sw := by simp [complete]
@[simp] theorem refuse_sw (j : Jenjor) (r : CmdRef) (st : Status) : (j.refuse r st).sw = j.sw := by simp [refuse]

theorem foldWrite_spg (l : List CmdRef) (st : Status) (j : Jenjor) :
    (l.foldl (fun j w => j.writeCompletion w st 0 0 none) j).spg = j.spg := by
  induction l generalizing j with
  | nil => rfl
  | cons w l ih => exact (ih _).trans (by simp)
@[simp] theorem reapQueues_spg (n : Nat) (j : Jenjor) : (reapQueues n j).spg = j.spg := by
  induction n generalizing j with
  | zero => rfl
  | succ n ih =>
    unfold reapQueues
    split
    · rfl
    · dsimp only
      rw [ih, foldWrite_spg]
      split <;> exact foldWrite_spg _ _ _
@[simp] theorem complete_spg (j : Jenjor) (r : CmdRef) (st : Status) (v0 v1 : BitVec 64) (len : Option Nat) :
    (j.complete r st v0 v1 len).spg = j.spg := by simp [complete]
@[simp] theorem refuse_spg (j : Jenjor) (r : CmdRef) (st : Status) : (j.refuse r st).spg = j.spg := by simp [refuse]

theorem foldWrite_coe (l : List CmdRef) (st : Status) (j : Jenjor) :
    (l.foldl (fun j w => j.writeCompletion w st 0 0 none) j).coe = j.coe := by
  induction l generalizing j with
  | nil => rfl
  | cons w l ih => exact (ih _).trans (by simp)
@[simp] theorem reapQueues_coe (n : Nat) (j : Jenjor) : (reapQueues n j).coe = j.coe := by
  induction n generalizing j with
  | zero => rfl
  | succ n ih =>
    unfold reapQueues
    split
    · rfl
    · dsimp only
      rw [ih, foldWrite_coe]
      split <;> exact foldWrite_coe _ _ _
@[simp] theorem complete_coe (j : Jenjor) (r : CmdRef) (st : Status) (v0 v1 : BitVec 64) (len : Option Nat) :
    (j.complete r st v0 v1 len).coe = j.coe := by simp [complete]
@[simp] theorem refuse_coe (j : Jenjor) (r : CmdRef) (st : Status) : (j.refuse r st).coe = j.coe := by simp [refuse]

theorem foldWrite_wr (l : List CmdRef) (st : Status) (j : Jenjor) :
    (l.foldl (fun j w => j.writeCompletion w st 0 0 none) j).wr = j.wr := by
  induction l generalizing j with
  | nil => rfl
  | cons w l ih => exact (ih _).trans (by simp)
@[simp] theorem reapQueues_wr (n : Nat) (j : Jenjor) : (reapQueues n j).wr = j.wr := by
  induction n generalizing j with
  | zero => rfl
  | succ n ih =>
    unfold reapQueues
    split
    · rfl
    · dsimp only
      rw [ih, foldWrite_wr]
      split <;> exact foldWrite_wr _ _ _
@[simp] theorem complete_wr (j : Jenjor) (r : CmdRef) (st : Status) (v0 v1 : BitVec 64) (len : Option Nat) :
    (j.complete r st v0 v1 len).wr = j.wr := by simp [complete]
@[simp] theorem refuse_wr (j : Jenjor) (r : CmdRef) (st : Status) : (j.refuse r st).wr = j.wr := by simp [refuse]

theorem foldWrite_place (l : List CmdRef) (st : Status) (j : Jenjor) :
    (l.foldl (fun j w => j.writeCompletion w st 0 0 none) j).place = j.place := by
  induction l generalizing j with
  | nil => rfl
  | cons w l ih => exact (ih _).trans (by simp)
@[simp] theorem reapQueues_place (n : Nat) (j : Jenjor) : (reapQueues n j).place = j.place := by
  induction n generalizing j with
  | zero => rfl
  | succ n ih =>
    unfold reapQueues
    split
    · rfl
    · dsimp only
      rw [ih, foldWrite_place]
      split <;> exact foldWrite_place _ _ _
@[simp] theorem complete_place (j : Jenjor) (r : CmdRef) (st : Status) (v0 v1 : BitVec 64) (len : Option Nat) :
    (j.complete r st v0 v1 len).place = j.place := by simp [complete]
@[simp] theorem refuse_place (j : Jenjor) (r : CmdRef) (st : Status) : (j.refuse r st).place = j.place := by simp [refuse]

theorem foldWrite_mem (l : List CmdRef) (st : Status) (j : Jenjor) :
    (l.foldl (fun j w => j.writeCompletion w st 0 0 none) j).mem = j.mem := by
  induction l generalizing j with
  | nil => rfl
  | cons w l ih => exact (ih _).trans (by simp)
@[simp] theorem reapQueues_mem (n : Nat) (j : Jenjor) : (reapQueues n j).mem = j.mem := by
  induction n generalizing j with
  | zero => rfl
  | succ n ih =>
    unfold reapQueues
    split
    · rfl
    · dsimp only
      rw [ih, foldWrite_mem]
      split <;> exact foldWrite_mem _ _ _
@[simp] theorem complete_mem (j : Jenjor) (r : CmdRef) (st : Status) (v0 v1 : BitVec 64) (len : Option Nat) :
    (j.complete r st v0 v1 len).mem = j.mem := by simp [complete]
@[simp] theorem refuse_mem (j : Jenjor) (r : CmdRef) (st : Status) : (j.refuse r st).mem = j.mem := by simp [refuse]

theorem foldWrite_vlt (l : List CmdRef) (st : Status) (j : Jenjor) :
    (l.foldl (fun j w => j.writeCompletion w st 0 0 none) j).vlt = j.vlt := by
  induction l generalizing j with
  | nil => rfl
  | cons w l ih => exact (ih _).trans (by simp)
@[simp] theorem reapQueues_vlt (n : Nat) (j : Jenjor) : (reapQueues n j).vlt = j.vlt := by
  induction n generalizing j with
  | zero => rfl
  | succ n ih =>
    unfold reapQueues
    split
    · rfl
    · dsimp only
      rw [ih, foldWrite_vlt]
      split <;> exact foldWrite_vlt _ _ _
@[simp] theorem complete_vlt (j : Jenjor) (r : CmdRef) (st : Status) (v0 v1 : BitVec 64) (len : Option Nat) :
    (j.complete r st v0 v1 len).vlt = j.vlt := by simp [complete]
@[simp] theorem refuse_vlt (j : Jenjor) (r : CmdRef) (st : Status) : (j.refuse r st).vlt = j.vlt := by simp [refuse]

theorem foldWrite_dom (l : List CmdRef) (st : Status) (j : Jenjor) :
    (l.foldl (fun j w => j.writeCompletion w st 0 0 none) j).dom = j.dom := by
  induction l generalizing j with
  | nil => rfl
  | cons w l ih => exact (ih _).trans (by simp)
@[simp] theorem reapQueues_dom (n : Nat) (j : Jenjor) : (reapQueues n j).dom = j.dom := by
  induction n generalizing j with
  | zero => rfl
  | succ n ih =>
    unfold reapQueues
    split
    · rfl
    · dsimp only
      rw [ih, foldWrite_dom]
      split <;> exact foldWrite_dom _ _ _
@[simp] theorem complete_dom (j : Jenjor) (r : CmdRef) (st : Status) (v0 v1 : BitVec 64) (len : Option Nat) :
    (j.complete r st v0 v1 len).dom = j.dom := by simp [complete]
@[simp] theorem refuse_dom (j : Jenjor) (r : CmdRef) (st : Status) : (j.refuse r st).dom = j.dom := by simp [refuse]

theorem foldWrite_alm (l : List CmdRef) (st : Status) (j : Jenjor) :
    (l.foldl (fun j w => j.writeCompletion w st 0 0 none) j).alm = j.alm := by
  induction l generalizing j with
  | nil => rfl
  | cons w l ih => exact (ih _).trans (by simp)
@[simp] theorem reapQueues_alm (n : Nat) (j : Jenjor) : (reapQueues n j).alm = j.alm := by
  induction n generalizing j with
  | zero => rfl
  | succ n ih =>
    unfold reapQueues
    split
    · rfl
    · dsimp only
      rw [ih, foldWrite_alm]
      split <;> exact foldWrite_alm _ _ _
@[simp] theorem complete_alm (j : Jenjor) (r : CmdRef) (st : Status) (v0 v1 : BitVec 64) (len : Option Nat) :
    (j.complete r st v0 v1 len).alm = j.alm := by simp [complete]
@[simp] theorem refuse_alm (j : Jenjor) (r : CmdRef) (st : Status) : (j.refuse r st).alm = j.alm := by simp [refuse]

theorem foldWrite_isl (l : List CmdRef) (st : Status) (j : Jenjor) :
    (l.foldl (fun j w => j.writeCompletion w st 0 0 none) j).isl = j.isl := by
  induction l generalizing j with
  | nil => rfl
  | cons w l ih => exact (ih _).trans (by simp)
@[simp] theorem reapQueues_isl (n : Nat) (j : Jenjor) : (reapQueues n j).isl = j.isl := by
  induction n generalizing j with
  | zero => rfl
  | succ n ih =>
    unfold reapQueues
    split
    · rfl
    · dsimp only
      rw [ih, foldWrite_isl]
      split <;> exact foldWrite_isl _ _ _
@[simp] theorem complete_isl (j : Jenjor) (r : CmdRef) (st : Status) (v0 v1 : BitVec 64) (len : Option Nat) :
    (j.complete r st v0 v1 len).isl = j.isl := by simp [complete]
@[simp] theorem refuse_isl (j : Jenjor) (r : CmdRef) (st : Status) : (j.refuse r st).isl = j.isl := by simp [refuse]

theorem foldWrite_see (l : List CmdRef) (st : Status) (j : Jenjor) :
    (l.foldl (fun j w => j.writeCompletion w st 0 0 none) j).see = j.see := by
  induction l generalizing j with
  | nil => rfl
  | cons w l ih => exact (ih _).trans (by simp)
@[simp] theorem reapQueues_see (n : Nat) (j : Jenjor) : (reapQueues n j).see = j.see := by
  induction n generalizing j with
  | zero => rfl
  | succ n ih =>
    unfold reapQueues
    split
    · rfl
    · dsimp only
      rw [ih, foldWrite_see]
      split <;> exact foldWrite_see _ _ _
@[simp] theorem complete_see (j : Jenjor) (r : CmdRef) (st : Status) (v0 v1 : BitVec 64) (len : Option Nat) :
    (j.complete r st v0 v1 len).see = j.see := by simp [complete]
@[simp] theorem refuse_see (j : Jenjor) (r : CmdRef) (st : Status) : (j.refuse r st).see = j.see := by simp [refuse]

@[simp] theorem mapCat_time (j : Jenjor) (f : CatState → CatState) : (j.mapCat f).time = j.time := rfl
@[simp] theorem mapCat_freeIdx (j : Jenjor) (f : CatState → CatState) : (j.mapCat f).freeIdx = j.freeIdx := rfl
@[simp] theorem mapCat_out (j : Jenjor) (f : CatState → CatState) : (j.mapCat f).out = j.out := rfl
@[simp] theorem mapCat_ctrs (j : Jenjor) (f : CatState → CatState) : (j.mapCat f).ctrs = j.ctrs := rfl
@[simp] theorem mapCat_log (j : Jenjor) (f : CatState → CatState) : (j.mapCat f).log = j.log := rfl
@[simp] theorem mapCat_qs (j : Jenjor) (f : CatState → CatState) : (j.mapCat f).qs = j.qs := rfl
@[simp] theorem mapCat_sw (j : Jenjor) (f : CatState → CatState) : (j.mapCat f).sw = j.sw := rfl
@[simp] theorem mapCat_spg (j : Jenjor) (f : CatState → CatState) : (j.mapCat f).spg = j.spg := rfl
@[simp] theorem mapCat_coe (j : Jenjor) (f : CatState → CatState) : (j.mapCat f).coe = j.coe := rfl
@[simp] theorem mapCat_wr (j : Jenjor) (f : CatState → CatState) : (j.mapCat f).wr = j.wr := rfl
@[simp] theorem mapCat_place (j : Jenjor) (f : CatState → CatState) : (j.mapCat f).place = j.place := rfl
@[simp] theorem mapCat_mem (j : Jenjor) (f : CatState → CatState) : (j.mapCat f).mem = j.mem := rfl
@[simp] theorem mapCat_vlt (j : Jenjor) (f : CatState → CatState) : (j.mapCat f).vlt = j.vlt := rfl
@[simp] theorem mapCat_lnk (j : Jenjor) (f : CatState → CatState) : (j.mapCat f).lnk = j.lnk := rfl
@[simp] theorem mapCat_cpn (j : Jenjor) (f : CatState → CatState) : (j.mapCat f).cpn = j.cpn := rfl
@[simp] theorem mapCat_dom (j : Jenjor) (f : CatState → CatState) : (j.mapCat f).dom = j.dom := rfl
@[simp] theorem mapCat_alm (j : Jenjor) (f : CatState → CatState) : (j.mapCat f).alm = j.alm := rfl
@[simp] theorem mapCat_isl (j : Jenjor) (f : CatState → CatState) : (j.mapCat f).isl = j.isl := rfl
@[simp] theorem mapCat_see (j : Jenjor) (f : CatState → CatState) : (j.mapCat f).see = j.see := rfl

@[simp] theorem mapColl_time (j : Jenjor) (n : Nat) (f : Coll → Coll) : (j.mapColl n f).time = j.time := rfl
@[simp] theorem mapColl_freeIdx (j : Jenjor) (n : Nat) (f : Coll → Coll) : (j.mapColl n f).freeIdx = j.freeIdx := rfl
@[simp] theorem mapColl_out (j : Jenjor) (n : Nat) (f : Coll → Coll) : (j.mapColl n f).out = j.out := rfl
@[simp] theorem mapColl_ctrs (j : Jenjor) (n : Nat) (f : Coll → Coll) : (j.mapColl n f).ctrs = j.ctrs := rfl
@[simp] theorem mapColl_log (j : Jenjor) (n : Nat) (f : Coll → Coll) : (j.mapColl n f).log = j.log := rfl
@[simp] theorem mapColl_qs (j : Jenjor) (n : Nat) (f : Coll → Coll) : (j.mapColl n f).qs = j.qs := rfl
@[simp] theorem mapColl_sw (j : Jenjor) (n : Nat) (f : Coll → Coll) : (j.mapColl n f).sw = j.sw := rfl
@[simp] theorem mapColl_spg (j : Jenjor) (n : Nat) (f : Coll → Coll) : (j.mapColl n f).spg = j.spg := rfl
@[simp] theorem mapColl_coe (j : Jenjor) (n : Nat) (f : Coll → Coll) : (j.mapColl n f).coe = j.coe := rfl
@[simp] theorem mapColl_wr (j : Jenjor) (n : Nat) (f : Coll → Coll) : (j.mapColl n f).wr = j.wr := rfl
@[simp] theorem mapColl_place (j : Jenjor) (n : Nat) (f : Coll → Coll) : (j.mapColl n f).place = j.place := rfl
@[simp] theorem mapColl_mem (j : Jenjor) (n : Nat) (f : Coll → Coll) : (j.mapColl n f).mem = j.mem := rfl
@[simp] theorem mapColl_vlt (j : Jenjor) (n : Nat) (f : Coll → Coll) : (j.mapColl n f).vlt = j.vlt := rfl
@[simp] theorem mapColl_lnk (j : Jenjor) (n : Nat) (f : Coll → Coll) : (j.mapColl n f).lnk = j.lnk := rfl
@[simp] theorem mapColl_cpn (j : Jenjor) (n : Nat) (f : Coll → Coll) : (j.mapColl n f).cpn = j.cpn := rfl
@[simp] theorem mapColl_dom (j : Jenjor) (n : Nat) (f : Coll → Coll) : (j.mapColl n f).dom = j.dom := rfl
@[simp] theorem mapColl_alm (j : Jenjor) (n : Nat) (f : Coll → Coll) : (j.mapColl n f).alm = j.alm := rfl
@[simp] theorem mapColl_isl (j : Jenjor) (n : Nat) (f : Coll → Coll) : (j.mapColl n f).isl = j.isl := rfl
@[simp] theorem mapColl_see (j : Jenjor) (n : Nat) (f : Coll → Coll) : (j.mapColl n f).see = j.see := rfl

@[simp] theorem mapPlate_time (j : Jenjor) (n : Nat) (f : Plate → Plate) : (j.mapPlate n f).time = j.time := rfl
@[simp] theorem mapPlate_freeIdx (j : Jenjor) (n : Nat) (f : Plate → Plate) : (j.mapPlate n f).freeIdx = j.freeIdx := rfl
@[simp] theorem mapPlate_out (j : Jenjor) (n : Nat) (f : Plate → Plate) : (j.mapPlate n f).out = j.out := rfl
@[simp] theorem mapPlate_ctrs (j : Jenjor) (n : Nat) (f : Plate → Plate) : (j.mapPlate n f).ctrs = j.ctrs := rfl
@[simp] theorem mapPlate_log (j : Jenjor) (n : Nat) (f : Plate → Plate) : (j.mapPlate n f).log = j.log := rfl
@[simp] theorem mapPlate_qs (j : Jenjor) (n : Nat) (f : Plate → Plate) : (j.mapPlate n f).qs = j.qs := rfl
@[simp] theorem mapPlate_sw (j : Jenjor) (n : Nat) (f : Plate → Plate) : (j.mapPlate n f).sw = j.sw := rfl
@[simp] theorem mapPlate_spg (j : Jenjor) (n : Nat) (f : Plate → Plate) : (j.mapPlate n f).spg = j.spg := rfl
@[simp] theorem mapPlate_coe (j : Jenjor) (n : Nat) (f : Plate → Plate) : (j.mapPlate n f).coe = j.coe := rfl
@[simp] theorem mapPlate_wr (j : Jenjor) (n : Nat) (f : Plate → Plate) : (j.mapPlate n f).wr = j.wr := rfl
@[simp] theorem mapPlate_place (j : Jenjor) (n : Nat) (f : Plate → Plate) : (j.mapPlate n f).place = j.place := rfl
@[simp] theorem mapPlate_mem (j : Jenjor) (n : Nat) (f : Plate → Plate) : (j.mapPlate n f).mem = j.mem := rfl
@[simp] theorem mapPlate_vlt (j : Jenjor) (n : Nat) (f : Plate → Plate) : (j.mapPlate n f).vlt = j.vlt := rfl
@[simp] theorem mapPlate_lnk (j : Jenjor) (n : Nat) (f : Plate → Plate) : (j.mapPlate n f).lnk = j.lnk := rfl
@[simp] theorem mapPlate_cpn (j : Jenjor) (n : Nat) (f : Plate → Plate) : (j.mapPlate n f).cpn = j.cpn := rfl
@[simp] theorem mapPlate_dom (j : Jenjor) (n : Nat) (f : Plate → Plate) : (j.mapPlate n f).dom = j.dom := rfl
@[simp] theorem mapPlate_alm (j : Jenjor) (n : Nat) (f : Plate → Plate) : (j.mapPlate n f).alm = j.alm := rfl
@[simp] theorem mapPlate_isl (j : Jenjor) (n : Nat) (f : Plate → Plate) : (j.mapPlate n f).isl = j.isl := rfl
@[simp] theorem mapPlate_see (j : Jenjor) (n : Nat) (f : Plate → Plate) : (j.mapPlate n f).see = j.see := rfl

@[simp] theorem mapPlates_time (j : Jenjor) (p : Plate → Bool) (f : Plate → Plate) : (j.mapPlates p f).time = j.time := rfl
@[simp] theorem mapPlates_freeIdx (j : Jenjor) (p : Plate → Bool) (f : Plate → Plate) : (j.mapPlates p f).freeIdx = j.freeIdx := rfl
@[simp] theorem mapPlates_out (j : Jenjor) (p : Plate → Bool) (f : Plate → Plate) : (j.mapPlates p f).out = j.out := rfl
@[simp] theorem mapPlates_ctrs (j : Jenjor) (p : Plate → Bool) (f : Plate → Plate) : (j.mapPlates p f).ctrs = j.ctrs := rfl
@[simp] theorem mapPlates_log (j : Jenjor) (p : Plate → Bool) (f : Plate → Plate) : (j.mapPlates p f).log = j.log := rfl
@[simp] theorem mapPlates_qs (j : Jenjor) (p : Plate → Bool) (f : Plate → Plate) : (j.mapPlates p f).qs = j.qs := rfl
@[simp] theorem mapPlates_sw (j : Jenjor) (p : Plate → Bool) (f : Plate → Plate) : (j.mapPlates p f).sw = j.sw := rfl
@[simp] theorem mapPlates_spg (j : Jenjor) (p : Plate → Bool) (f : Plate → Plate) : (j.mapPlates p f).spg = j.spg := rfl
@[simp] theorem mapPlates_coe (j : Jenjor) (p : Plate → Bool) (f : Plate → Plate) : (j.mapPlates p f).coe = j.coe := rfl
@[simp] theorem mapPlates_wr (j : Jenjor) (p : Plate → Bool) (f : Plate → Plate) : (j.mapPlates p f).wr = j.wr := rfl
@[simp] theorem mapPlates_place (j : Jenjor) (p : Plate → Bool) (f : Plate → Plate) : (j.mapPlates p f).place = j.place := rfl
@[simp] theorem mapPlates_mem (j : Jenjor) (p : Plate → Bool) (f : Plate → Plate) : (j.mapPlates p f).mem = j.mem := rfl
@[simp] theorem mapPlates_vlt (j : Jenjor) (p : Plate → Bool) (f : Plate → Plate) : (j.mapPlates p f).vlt = j.vlt := rfl
@[simp] theorem mapPlates_lnk (j : Jenjor) (p : Plate → Bool) (f : Plate → Plate) : (j.mapPlates p f).lnk = j.lnk := rfl
@[simp] theorem mapPlates_cpn (j : Jenjor) (p : Plate → Bool) (f : Plate → Plate) : (j.mapPlates p f).cpn = j.cpn := rfl
@[simp] theorem mapPlates_dom (j : Jenjor) (p : Plate → Bool) (f : Plate → Plate) : (j.mapPlates p f).dom = j.dom := rfl
@[simp] theorem mapPlates_alm (j : Jenjor) (p : Plate → Bool) (f : Plate → Plate) : (j.mapPlates p f).alm = j.alm := rfl
@[simp] theorem mapPlates_isl (j : Jenjor) (p : Plate → Bool) (f : Plate → Plate) : (j.mapPlates p f).isl = j.isl := rfl
@[simp] theorem mapPlates_see (j : Jenjor) (p : Plate → Bool) (f : Plate → Plate) : (j.mapPlates p f).see = j.see := rfl

@[simp] theorem mapObj_time (j : Jenjor) (n : Nat) (f : Obj → Obj) : (j.mapObj n f).time = j.time := rfl
@[simp] theorem mapObj_freeIdx (j : Jenjor) (n : Nat) (f : Obj → Obj) : (j.mapObj n f).freeIdx = j.freeIdx := rfl
@[simp] theorem mapObj_out (j : Jenjor) (n : Nat) (f : Obj → Obj) : (j.mapObj n f).out = j.out := rfl
@[simp] theorem mapObj_ctrs (j : Jenjor) (n : Nat) (f : Obj → Obj) : (j.mapObj n f).ctrs = j.ctrs := rfl
@[simp] theorem mapObj_log (j : Jenjor) (n : Nat) (f : Obj → Obj) : (j.mapObj n f).log = j.log := rfl
@[simp] theorem mapObj_qs (j : Jenjor) (n : Nat) (f : Obj → Obj) : (j.mapObj n f).qs = j.qs := rfl
@[simp] theorem mapObj_sw (j : Jenjor) (n : Nat) (f : Obj → Obj) : (j.mapObj n f).sw = j.sw := rfl
@[simp] theorem mapObj_spg (j : Jenjor) (n : Nat) (f : Obj → Obj) : (j.mapObj n f).spg = j.spg := rfl
@[simp] theorem mapObj_coe (j : Jenjor) (n : Nat) (f : Obj → Obj) : (j.mapObj n f).coe = j.coe := rfl
@[simp] theorem mapObj_wr (j : Jenjor) (n : Nat) (f : Obj → Obj) : (j.mapObj n f).wr = j.wr := rfl
@[simp] theorem mapObj_place (j : Jenjor) (n : Nat) (f : Obj → Obj) : (j.mapObj n f).place = j.place := rfl
@[simp] theorem mapObj_mem (j : Jenjor) (n : Nat) (f : Obj → Obj) : (j.mapObj n f).mem = j.mem := rfl
@[simp] theorem mapObj_vlt (j : Jenjor) (n : Nat) (f : Obj → Obj) : (j.mapObj n f).vlt = j.vlt := rfl
@[simp] theorem mapObj_lnk (j : Jenjor) (n : Nat) (f : Obj → Obj) : (j.mapObj n f).lnk = j.lnk := rfl
@[simp] theorem mapObj_cpn (j : Jenjor) (n : Nat) (f : Obj → Obj) : (j.mapObj n f).cpn = j.cpn := rfl
@[simp] theorem mapObj_dom (j : Jenjor) (n : Nat) (f : Obj → Obj) : (j.mapObj n f).dom = j.dom := rfl
@[simp] theorem mapObj_alm (j : Jenjor) (n : Nat) (f : Obj → Obj) : (j.mapObj n f).alm = j.alm := rfl
@[simp] theorem mapObj_isl (j : Jenjor) (n : Nat) (f : Obj → Obj) : (j.mapObj n f).isl = j.isl := rfl
@[simp] theorem mapObj_see (j : Jenjor) (n : Nat) (f : Obj → Obj) : (j.mapObj n f).see = j.see := rfl

@[simp] theorem mapObjs_time (j : Jenjor) (p : Obj → Bool) (f : Obj → Obj) : (j.mapObjs p f).time = j.time := rfl
@[simp] theorem mapObjs_freeIdx (j : Jenjor) (p : Obj → Bool) (f : Obj → Obj) : (j.mapObjs p f).freeIdx = j.freeIdx := rfl
@[simp] theorem mapObjs_out (j : Jenjor) (p : Obj → Bool) (f : Obj → Obj) : (j.mapObjs p f).out = j.out := rfl
@[simp] theorem mapObjs_ctrs (j : Jenjor) (p : Obj → Bool) (f : Obj → Obj) : (j.mapObjs p f).ctrs = j.ctrs := rfl
@[simp] theorem mapObjs_log (j : Jenjor) (p : Obj → Bool) (f : Obj → Obj) : (j.mapObjs p f).log = j.log := rfl
@[simp] theorem mapObjs_qs (j : Jenjor) (p : Obj → Bool) (f : Obj → Obj) : (j.mapObjs p f).qs = j.qs := rfl
@[simp] theorem mapObjs_sw (j : Jenjor) (p : Obj → Bool) (f : Obj → Obj) : (j.mapObjs p f).sw = j.sw := rfl
@[simp] theorem mapObjs_spg (j : Jenjor) (p : Obj → Bool) (f : Obj → Obj) : (j.mapObjs p f).spg = j.spg := rfl
@[simp] theorem mapObjs_coe (j : Jenjor) (p : Obj → Bool) (f : Obj → Obj) : (j.mapObjs p f).coe = j.coe := rfl
@[simp] theorem mapObjs_wr (j : Jenjor) (p : Obj → Bool) (f : Obj → Obj) : (j.mapObjs p f).wr = j.wr := rfl
@[simp] theorem mapObjs_place (j : Jenjor) (p : Obj → Bool) (f : Obj → Obj) : (j.mapObjs p f).place = j.place := rfl
@[simp] theorem mapObjs_mem (j : Jenjor) (p : Obj → Bool) (f : Obj → Obj) : (j.mapObjs p f).mem = j.mem := rfl
@[simp] theorem mapObjs_vlt (j : Jenjor) (p : Obj → Bool) (f : Obj → Obj) : (j.mapObjs p f).vlt = j.vlt := rfl
@[simp] theorem mapObjs_lnk (j : Jenjor) (p : Obj → Bool) (f : Obj → Obj) : (j.mapObjs p f).lnk = j.lnk := rfl
@[simp] theorem mapObjs_cpn (j : Jenjor) (p : Obj → Bool) (f : Obj → Obj) : (j.mapObjs p f).cpn = j.cpn := rfl
@[simp] theorem mapObjs_dom (j : Jenjor) (p : Obj → Bool) (f : Obj → Obj) : (j.mapObjs p f).dom = j.dom := rfl
@[simp] theorem mapObjs_alm (j : Jenjor) (p : Obj → Bool) (f : Obj → Obj) : (j.mapObjs p f).alm = j.alm := rfl
@[simp] theorem mapObjs_isl (j : Jenjor) (p : Obj → Bool) (f : Obj → Obj) : (j.mapObjs p f).isl = j.isl := rfl
@[simp] theorem mapObjs_see (j : Jenjor) (p : Obj → Bool) (f : Obj → Obj) : (j.mapObjs p f).see = j.see := rfl

@[simp] theorem mapRing_time (j : Jenjor) (n : Nat) (f : Ring → Ring) : (j.mapRing n f).time = j.time := rfl
@[simp] theorem mapRing_freeIdx (j : Jenjor) (n : Nat) (f : Ring → Ring) : (j.mapRing n f).freeIdx = j.freeIdx := rfl
@[simp] theorem mapRing_out (j : Jenjor) (n : Nat) (f : Ring → Ring) : (j.mapRing n f).out = j.out := rfl
@[simp] theorem mapRing_ctrs (j : Jenjor) (n : Nat) (f : Ring → Ring) : (j.mapRing n f).ctrs = j.ctrs := rfl
@[simp] theorem mapRing_log (j : Jenjor) (n : Nat) (f : Ring → Ring) : (j.mapRing n f).log = j.log := rfl
@[simp] theorem mapRing_cat (j : Jenjor) (n : Nat) (f : Ring → Ring) : (j.mapRing n f).cat = j.cat := rfl
@[simp] theorem mapRing_qs (j : Jenjor) (n : Nat) (f : Ring → Ring) : (j.mapRing n f).qs = j.qs := rfl
@[simp] theorem mapRing_spg (j : Jenjor) (n : Nat) (f : Ring → Ring) : (j.mapRing n f).spg = j.spg := rfl
@[simp] theorem mapRing_coe (j : Jenjor) (n : Nat) (f : Ring → Ring) : (j.mapRing n f).coe = j.coe := rfl
@[simp] theorem mapRing_wr (j : Jenjor) (n : Nat) (f : Ring → Ring) : (j.mapRing n f).wr = j.wr := rfl
@[simp] theorem mapRing_place (j : Jenjor) (n : Nat) (f : Ring → Ring) : (j.mapRing n f).place = j.place := rfl
@[simp] theorem mapRing_mem (j : Jenjor) (n : Nat) (f : Ring → Ring) : (j.mapRing n f).mem = j.mem := rfl
@[simp] theorem mapRing_vlt (j : Jenjor) (n : Nat) (f : Ring → Ring) : (j.mapRing n f).vlt = j.vlt := rfl
@[simp] theorem mapRing_lnk (j : Jenjor) (n : Nat) (f : Ring → Ring) : (j.mapRing n f).lnk = j.lnk := rfl
@[simp] theorem mapRing_cpn (j : Jenjor) (n : Nat) (f : Ring → Ring) : (j.mapRing n f).cpn = j.cpn := rfl
@[simp] theorem mapRing_dom (j : Jenjor) (n : Nat) (f : Ring → Ring) : (j.mapRing n f).dom = j.dom := rfl
@[simp] theorem mapRing_alm (j : Jenjor) (n : Nat) (f : Ring → Ring) : (j.mapRing n f).alm = j.alm := rfl
@[simp] theorem mapRing_isl (j : Jenjor) (n : Nat) (f : Ring → Ring) : (j.mapRing n f).isl = j.isl := rfl
@[simp] theorem mapRing_see (j : Jenjor) (n : Nat) (f : Ring → Ring) : (j.mapRing n f).see = j.see := rfl

@[simp] theorem mapRings_time (j : Jenjor) (f : Ring → Ring) : (j.mapRings f).time = j.time := rfl
@[simp] theorem mapRings_freeIdx (j : Jenjor) (f : Ring → Ring) : (j.mapRings f).freeIdx = j.freeIdx := rfl
@[simp] theorem mapRings_out (j : Jenjor) (f : Ring → Ring) : (j.mapRings f).out = j.out := rfl
@[simp] theorem mapRings_ctrs (j : Jenjor) (f : Ring → Ring) : (j.mapRings f).ctrs = j.ctrs := rfl
@[simp] theorem mapRings_log (j : Jenjor) (f : Ring → Ring) : (j.mapRings f).log = j.log := rfl
@[simp] theorem mapRings_cat (j : Jenjor) (f : Ring → Ring) : (j.mapRings f).cat = j.cat := rfl
@[simp] theorem mapRings_qs (j : Jenjor) (f : Ring → Ring) : (j.mapRings f).qs = j.qs := rfl
@[simp] theorem mapRings_spg (j : Jenjor) (f : Ring → Ring) : (j.mapRings f).spg = j.spg := rfl
@[simp] theorem mapRings_coe (j : Jenjor) (f : Ring → Ring) : (j.mapRings f).coe = j.coe := rfl
@[simp] theorem mapRings_wr (j : Jenjor) (f : Ring → Ring) : (j.mapRings f).wr = j.wr := rfl
@[simp] theorem mapRings_place (j : Jenjor) (f : Ring → Ring) : (j.mapRings f).place = j.place := rfl
@[simp] theorem mapRings_mem (j : Jenjor) (f : Ring → Ring) : (j.mapRings f).mem = j.mem := rfl
@[simp] theorem mapRings_vlt (j : Jenjor) (f : Ring → Ring) : (j.mapRings f).vlt = j.vlt := rfl
@[simp] theorem mapRings_lnk (j : Jenjor) (f : Ring → Ring) : (j.mapRings f).lnk = j.lnk := rfl
@[simp] theorem mapRings_cpn (j : Jenjor) (f : Ring → Ring) : (j.mapRings f).cpn = j.cpn := rfl
@[simp] theorem mapRings_dom (j : Jenjor) (f : Ring → Ring) : (j.mapRings f).dom = j.dom := rfl
@[simp] theorem mapRings_alm (j : Jenjor) (f : Ring → Ring) : (j.mapRings f).alm = j.alm := rfl
@[simp] theorem mapRings_isl (j : Jenjor) (f : Ring → Ring) : (j.mapRings f).isl = j.isl := rfl
@[simp] theorem mapRings_see (j : Jenjor) (f : Ring → Ring) : (j.mapRings f).see = j.see := rfl

@[simp] theorem mapCluster_time (j : Jenjor) (n : Nat) (f : Cluster → Cluster) : (j.mapCluster n f).time = j.time := rfl
@[simp] theorem mapCluster_freeIdx (j : Jenjor) (n : Nat) (f : Cluster → Cluster) : (j.mapCluster n f).freeIdx = j.freeIdx := rfl
@[simp] theorem mapCluster_out (j : Jenjor) (n : Nat) (f : Cluster → Cluster) : (j.mapCluster n f).out = j.out := rfl
@[simp] theorem mapCluster_ctrs (j : Jenjor) (n : Nat) (f : Cluster → Cluster) : (j.mapCluster n f).ctrs = j.ctrs := rfl
@[simp] theorem mapCluster_log (j : Jenjor) (n : Nat) (f : Cluster → Cluster) : (j.mapCluster n f).log = j.log := rfl
@[simp] theorem mapCluster_cat (j : Jenjor) (n : Nat) (f : Cluster → Cluster) : (j.mapCluster n f).cat = j.cat := rfl
@[simp] theorem mapCluster_qs (j : Jenjor) (n : Nat) (f : Cluster → Cluster) : (j.mapCluster n f).qs = j.qs := rfl
@[simp] theorem mapCluster_spg (j : Jenjor) (n : Nat) (f : Cluster → Cluster) : (j.mapCluster n f).spg = j.spg := rfl
@[simp] theorem mapCluster_coe (j : Jenjor) (n : Nat) (f : Cluster → Cluster) : (j.mapCluster n f).coe = j.coe := rfl
@[simp] theorem mapCluster_wr (j : Jenjor) (n : Nat) (f : Cluster → Cluster) : (j.mapCluster n f).wr = j.wr := rfl
@[simp] theorem mapCluster_place (j : Jenjor) (n : Nat) (f : Cluster → Cluster) : (j.mapCluster n f).place = j.place := rfl
@[simp] theorem mapCluster_mem (j : Jenjor) (n : Nat) (f : Cluster → Cluster) : (j.mapCluster n f).mem = j.mem := rfl
@[simp] theorem mapCluster_vlt (j : Jenjor) (n : Nat) (f : Cluster → Cluster) : (j.mapCluster n f).vlt = j.vlt := rfl
@[simp] theorem mapCluster_lnk (j : Jenjor) (n : Nat) (f : Cluster → Cluster) : (j.mapCluster n f).lnk = j.lnk := rfl
@[simp] theorem mapCluster_cpn (j : Jenjor) (n : Nat) (f : Cluster → Cluster) : (j.mapCluster n f).cpn = j.cpn := rfl
@[simp] theorem mapCluster_dom (j : Jenjor) (n : Nat) (f : Cluster → Cluster) : (j.mapCluster n f).dom = j.dom := rfl
@[simp] theorem mapCluster_alm (j : Jenjor) (n : Nat) (f : Cluster → Cluster) : (j.mapCluster n f).alm = j.alm := rfl
@[simp] theorem mapCluster_isl (j : Jenjor) (n : Nat) (f : Cluster → Cluster) : (j.mapCluster n f).isl = j.isl := rfl
@[simp] theorem mapCluster_see (j : Jenjor) (n : Nat) (f : Cluster → Cluster) : (j.mapCluster n f).see = j.see := rfl

@[simp] theorem mapClusters_time (j : Jenjor) (p : Cluster → Bool) (f : Cluster → Cluster) : (j.mapClusters p f).time = j.time := rfl
@[simp] theorem mapClusters_freeIdx (j : Jenjor) (p : Cluster → Bool) (f : Cluster → Cluster) : (j.mapClusters p f).freeIdx = j.freeIdx := rfl
@[simp] theorem mapClusters_out (j : Jenjor) (p : Cluster → Bool) (f : Cluster → Cluster) : (j.mapClusters p f).out = j.out := rfl
@[simp] theorem mapClusters_ctrs (j : Jenjor) (p : Cluster → Bool) (f : Cluster → Cluster) : (j.mapClusters p f).ctrs = j.ctrs := rfl
@[simp] theorem mapClusters_log (j : Jenjor) (p : Cluster → Bool) (f : Cluster → Cluster) : (j.mapClusters p f).log = j.log := rfl
@[simp] theorem mapClusters_cat (j : Jenjor) (p : Cluster → Bool) (f : Cluster → Cluster) : (j.mapClusters p f).cat = j.cat := rfl
@[simp] theorem mapClusters_qs (j : Jenjor) (p : Cluster → Bool) (f : Cluster → Cluster) : (j.mapClusters p f).qs = j.qs := rfl
@[simp] theorem mapClusters_spg (j : Jenjor) (p : Cluster → Bool) (f : Cluster → Cluster) : (j.mapClusters p f).spg = j.spg := rfl
@[simp] theorem mapClusters_coe (j : Jenjor) (p : Cluster → Bool) (f : Cluster → Cluster) : (j.mapClusters p f).coe = j.coe := rfl
@[simp] theorem mapClusters_wr (j : Jenjor) (p : Cluster → Bool) (f : Cluster → Cluster) : (j.mapClusters p f).wr = j.wr := rfl
@[simp] theorem mapClusters_place (j : Jenjor) (p : Cluster → Bool) (f : Cluster → Cluster) : (j.mapClusters p f).place = j.place := rfl
@[simp] theorem mapClusters_mem (j : Jenjor) (p : Cluster → Bool) (f : Cluster → Cluster) : (j.mapClusters p f).mem = j.mem := rfl
@[simp] theorem mapClusters_vlt (j : Jenjor) (p : Cluster → Bool) (f : Cluster → Cluster) : (j.mapClusters p f).vlt = j.vlt := rfl
@[simp] theorem mapClusters_lnk (j : Jenjor) (p : Cluster → Bool) (f : Cluster → Cluster) : (j.mapClusters p f).lnk = j.lnk := rfl
@[simp] theorem mapClusters_cpn (j : Jenjor) (p : Cluster → Bool) (f : Cluster → Cluster) : (j.mapClusters p f).cpn = j.cpn := rfl
@[simp] theorem mapClusters_dom (j : Jenjor) (p : Cluster → Bool) (f : Cluster → Cluster) : (j.mapClusters p f).dom = j.dom := rfl
@[simp] theorem mapClusters_alm (j : Jenjor) (p : Cluster → Bool) (f : Cluster → Cluster) : (j.mapClusters p f).alm = j.alm := rfl
@[simp] theorem mapClusters_isl (j : Jenjor) (p : Cluster → Bool) (f : Cluster → Cluster) : (j.mapClusters p f).isl = j.isl := rfl
@[simp] theorem mapClusters_see (j : Jenjor) (p : Cluster → Bool) (f : Cluster → Cluster) : (j.mapClusters p f).see = j.see := rfl

@[simp] theorem mapCtx_time (j : Jenjor) (n : Nat) (f : Ctx → Ctx) : (j.mapCtx n f).time = j.time := rfl
@[simp] theorem mapCtx_freeIdx (j : Jenjor) (n : Nat) (f : Ctx → Ctx) : (j.mapCtx n f).freeIdx = j.freeIdx := rfl
@[simp] theorem mapCtx_out (j : Jenjor) (n : Nat) (f : Ctx → Ctx) : (j.mapCtx n f).out = j.out := rfl
@[simp] theorem mapCtx_ctrs (j : Jenjor) (n : Nat) (f : Ctx → Ctx) : (j.mapCtx n f).ctrs = j.ctrs := rfl
@[simp] theorem mapCtx_log (j : Jenjor) (n : Nat) (f : Ctx → Ctx) : (j.mapCtx n f).log = j.log := rfl
@[simp] theorem mapCtx_cat (j : Jenjor) (n : Nat) (f : Ctx → Ctx) : (j.mapCtx n f).cat = j.cat := rfl
@[simp] theorem mapCtx_qs (j : Jenjor) (n : Nat) (f : Ctx → Ctx) : (j.mapCtx n f).qs = j.qs := rfl
@[simp] theorem mapCtx_spg (j : Jenjor) (n : Nat) (f : Ctx → Ctx) : (j.mapCtx n f).spg = j.spg := rfl
@[simp] theorem mapCtx_coe (j : Jenjor) (n : Nat) (f : Ctx → Ctx) : (j.mapCtx n f).coe = j.coe := rfl
@[simp] theorem mapCtx_wr (j : Jenjor) (n : Nat) (f : Ctx → Ctx) : (j.mapCtx n f).wr = j.wr := rfl
@[simp] theorem mapCtx_place (j : Jenjor) (n : Nat) (f : Ctx → Ctx) : (j.mapCtx n f).place = j.place := rfl
@[simp] theorem mapCtx_mem (j : Jenjor) (n : Nat) (f : Ctx → Ctx) : (j.mapCtx n f).mem = j.mem := rfl
@[simp] theorem mapCtx_vlt (j : Jenjor) (n : Nat) (f : Ctx → Ctx) : (j.mapCtx n f).vlt = j.vlt := rfl
@[simp] theorem mapCtx_lnk (j : Jenjor) (n : Nat) (f : Ctx → Ctx) : (j.mapCtx n f).lnk = j.lnk := rfl
@[simp] theorem mapCtx_cpn (j : Jenjor) (n : Nat) (f : Ctx → Ctx) : (j.mapCtx n f).cpn = j.cpn := rfl
@[simp] theorem mapCtx_dom (j : Jenjor) (n : Nat) (f : Ctx → Ctx) : (j.mapCtx n f).dom = j.dom := rfl
@[simp] theorem mapCtx_alm (j : Jenjor) (n : Nat) (f : Ctx → Ctx) : (j.mapCtx n f).alm = j.alm := rfl
@[simp] theorem mapCtx_isl (j : Jenjor) (n : Nat) (f : Ctx → Ctx) : (j.mapCtx n f).isl = j.isl := rfl
@[simp] theorem mapCtx_see (j : Jenjor) (n : Nat) (f : Ctx → Ctx) : (j.mapCtx n f).see = j.see := rfl

@[simp] theorem mapCtxs_time (j : Jenjor) (p : Ctx → Bool) (f : Ctx → Ctx) : (j.mapCtxs p f).time = j.time := rfl
@[simp] theorem mapCtxs_freeIdx (j : Jenjor) (p : Ctx → Bool) (f : Ctx → Ctx) : (j.mapCtxs p f).freeIdx = j.freeIdx := rfl
@[simp] theorem mapCtxs_out (j : Jenjor) (p : Ctx → Bool) (f : Ctx → Ctx) : (j.mapCtxs p f).out = j.out := rfl
@[simp] theorem mapCtxs_ctrs (j : Jenjor) (p : Ctx → Bool) (f : Ctx → Ctx) : (j.mapCtxs p f).ctrs = j.ctrs := rfl
@[simp] theorem mapCtxs_log (j : Jenjor) (p : Ctx → Bool) (f : Ctx → Ctx) : (j.mapCtxs p f).log = j.log := rfl
@[simp] theorem mapCtxs_cat (j : Jenjor) (p : Ctx → Bool) (f : Ctx → Ctx) : (j.mapCtxs p f).cat = j.cat := rfl
@[simp] theorem mapCtxs_qs (j : Jenjor) (p : Ctx → Bool) (f : Ctx → Ctx) : (j.mapCtxs p f).qs = j.qs := rfl
@[simp] theorem mapCtxs_spg (j : Jenjor) (p : Ctx → Bool) (f : Ctx → Ctx) : (j.mapCtxs p f).spg = j.spg := rfl
@[simp] theorem mapCtxs_coe (j : Jenjor) (p : Ctx → Bool) (f : Ctx → Ctx) : (j.mapCtxs p f).coe = j.coe := rfl
@[simp] theorem mapCtxs_wr (j : Jenjor) (p : Ctx → Bool) (f : Ctx → Ctx) : (j.mapCtxs p f).wr = j.wr := rfl
@[simp] theorem mapCtxs_place (j : Jenjor) (p : Ctx → Bool) (f : Ctx → Ctx) : (j.mapCtxs p f).place = j.place := rfl
@[simp] theorem mapCtxs_mem (j : Jenjor) (p : Ctx → Bool) (f : Ctx → Ctx) : (j.mapCtxs p f).mem = j.mem := rfl
@[simp] theorem mapCtxs_vlt (j : Jenjor) (p : Ctx → Bool) (f : Ctx → Ctx) : (j.mapCtxs p f).vlt = j.vlt := rfl
@[simp] theorem mapCtxs_lnk (j : Jenjor) (p : Ctx → Bool) (f : Ctx → Ctx) : (j.mapCtxs p f).lnk = j.lnk := rfl
@[simp] theorem mapCtxs_cpn (j : Jenjor) (p : Ctx → Bool) (f : Ctx → Ctx) : (j.mapCtxs p f).cpn = j.cpn := rfl
@[simp] theorem mapCtxs_dom (j : Jenjor) (p : Ctx → Bool) (f : Ctx → Ctx) : (j.mapCtxs p f).dom = j.dom := rfl
@[simp] theorem mapCtxs_alm (j : Jenjor) (p : Ctx → Bool) (f : Ctx → Ctx) : (j.mapCtxs p f).alm = j.alm := rfl
@[simp] theorem mapCtxs_isl (j : Jenjor) (p : Ctx → Bool) (f : Ctx → Ctx) : (j.mapCtxs p f).isl = j.isl := rfl
@[simp] theorem mapCtxs_see (j : Jenjor) (p : Ctx → Bool) (f : Ctx → Ctx) : (j.mapCtxs p f).see = j.see := rfl

@[simp] theorem mapJournal_time (j : Jenjor) (p : JEntry → Bool) (f : JEntry → JEntry) : (j.mapJournal p f).time = j.time := rfl
@[simp] theorem mapJournal_freeIdx (j : Jenjor) (p : JEntry → Bool) (f : JEntry → JEntry) : (j.mapJournal p f).freeIdx = j.freeIdx := rfl
@[simp] theorem mapJournal_out (j : Jenjor) (p : JEntry → Bool) (f : JEntry → JEntry) : (j.mapJournal p f).out = j.out := rfl
@[simp] theorem mapJournal_ctrs (j : Jenjor) (p : JEntry → Bool) (f : JEntry → JEntry) : (j.mapJournal p f).ctrs = j.ctrs := rfl
@[simp] theorem mapJournal_log (j : Jenjor) (p : JEntry → Bool) (f : JEntry → JEntry) : (j.mapJournal p f).log = j.log := rfl
@[simp] theorem mapJournal_cat (j : Jenjor) (p : JEntry → Bool) (f : JEntry → JEntry) : (j.mapJournal p f).cat = j.cat := rfl
@[simp] theorem mapJournal_qs (j : Jenjor) (p : JEntry → Bool) (f : JEntry → JEntry) : (j.mapJournal p f).qs = j.qs := rfl
@[simp] theorem mapJournal_sw (j : Jenjor) (p : JEntry → Bool) (f : JEntry → JEntry) : (j.mapJournal p f).sw = j.sw := rfl
@[simp] theorem mapJournal_spg (j : Jenjor) (p : JEntry → Bool) (f : JEntry → JEntry) : (j.mapJournal p f).spg = j.spg := rfl
@[simp] theorem mapJournal_coe (j : Jenjor) (p : JEntry → Bool) (f : JEntry → JEntry) : (j.mapJournal p f).coe = j.coe := rfl
@[simp] theorem mapJournal_place (j : Jenjor) (p : JEntry → Bool) (f : JEntry → JEntry) : (j.mapJournal p f).place = j.place := rfl
@[simp] theorem mapJournal_mem (j : Jenjor) (p : JEntry → Bool) (f : JEntry → JEntry) : (j.mapJournal p f).mem = j.mem := rfl
@[simp] theorem mapJournal_vlt (j : Jenjor) (p : JEntry → Bool) (f : JEntry → JEntry) : (j.mapJournal p f).vlt = j.vlt := rfl
@[simp] theorem mapJournal_lnk (j : Jenjor) (p : JEntry → Bool) (f : JEntry → JEntry) : (j.mapJournal p f).lnk = j.lnk := rfl
@[simp] theorem mapJournal_cpn (j : Jenjor) (p : JEntry → Bool) (f : JEntry → JEntry) : (j.mapJournal p f).cpn = j.cpn := rfl
@[simp] theorem mapJournal_dom (j : Jenjor) (p : JEntry → Bool) (f : JEntry → JEntry) : (j.mapJournal p f).dom = j.dom := rfl
@[simp] theorem mapJournal_alm (j : Jenjor) (p : JEntry → Bool) (f : JEntry → JEntry) : (j.mapJournal p f).alm = j.alm := rfl
@[simp] theorem mapJournal_isl (j : Jenjor) (p : JEntry → Bool) (f : JEntry → JEntry) : (j.mapJournal p f).isl = j.isl := rfl
@[simp] theorem mapJournal_see (j : Jenjor) (p : JEntry → Bool) (f : JEntry → JEntry) : (j.mapJournal p f).see = j.see := rfl

@[simp] theorem mapChan_time (j : Jenjor) (n : Nat) (f : Chan → Chan) : (j.mapChan n f).time = j.time := rfl
@[simp] theorem mapChan_freeIdx (j : Jenjor) (n : Nat) (f : Chan → Chan) : (j.mapChan n f).freeIdx = j.freeIdx := rfl
@[simp] theorem mapChan_out (j : Jenjor) (n : Nat) (f : Chan → Chan) : (j.mapChan n f).out = j.out := rfl
@[simp] theorem mapChan_ctrs (j : Jenjor) (n : Nat) (f : Chan → Chan) : (j.mapChan n f).ctrs = j.ctrs := rfl
@[simp] theorem mapChan_log (j : Jenjor) (n : Nat) (f : Chan → Chan) : (j.mapChan n f).log = j.log := rfl
@[simp] theorem mapChan_cat (j : Jenjor) (n : Nat) (f : Chan → Chan) : (j.mapChan n f).cat = j.cat := rfl
@[simp] theorem mapChan_qs (j : Jenjor) (n : Nat) (f : Chan → Chan) : (j.mapChan n f).qs = j.qs := rfl
@[simp] theorem mapChan_sw (j : Jenjor) (n : Nat) (f : Chan → Chan) : (j.mapChan n f).sw = j.sw := rfl
@[simp] theorem mapChan_spg (j : Jenjor) (n : Nat) (f : Chan → Chan) : (j.mapChan n f).spg = j.spg := rfl
@[simp] theorem mapChan_coe (j : Jenjor) (n : Nat) (f : Chan → Chan) : (j.mapChan n f).coe = j.coe := rfl
@[simp] theorem mapChan_wr (j : Jenjor) (n : Nat) (f : Chan → Chan) : (j.mapChan n f).wr = j.wr := rfl
@[simp] theorem mapChan_place (j : Jenjor) (n : Nat) (f : Chan → Chan) : (j.mapChan n f).place = j.place := rfl
@[simp] theorem mapChan_vlt (j : Jenjor) (n : Nat) (f : Chan → Chan) : (j.mapChan n f).vlt = j.vlt := rfl
@[simp] theorem mapChan_lnk (j : Jenjor) (n : Nat) (f : Chan → Chan) : (j.mapChan n f).lnk = j.lnk := rfl
@[simp] theorem mapChan_cpn (j : Jenjor) (n : Nat) (f : Chan → Chan) : (j.mapChan n f).cpn = j.cpn := rfl
@[simp] theorem mapChan_dom (j : Jenjor) (n : Nat) (f : Chan → Chan) : (j.mapChan n f).dom = j.dom := rfl
@[simp] theorem mapChan_alm (j : Jenjor) (n : Nat) (f : Chan → Chan) : (j.mapChan n f).alm = j.alm := rfl
@[simp] theorem mapChan_isl (j : Jenjor) (n : Nat) (f : Chan → Chan) : (j.mapChan n f).isl = j.isl := rfl
@[simp] theorem mapChan_see (j : Jenjor) (n : Nat) (f : Chan → Chan) : (j.mapChan n f).see = j.see := rfl

@[simp] theorem mapRim_time (j : Jenjor) (n : Nat) (f : Rim → Rim) : (j.mapRim n f).time = j.time := rfl
@[simp] theorem mapRim_freeIdx (j : Jenjor) (n : Nat) (f : Rim → Rim) : (j.mapRim n f).freeIdx = j.freeIdx := rfl
@[simp] theorem mapRim_out (j : Jenjor) (n : Nat) (f : Rim → Rim) : (j.mapRim n f).out = j.out := rfl
@[simp] theorem mapRim_ctrs (j : Jenjor) (n : Nat) (f : Rim → Rim) : (j.mapRim n f).ctrs = j.ctrs := rfl
@[simp] theorem mapRim_log (j : Jenjor) (n : Nat) (f : Rim → Rim) : (j.mapRim n f).log = j.log := rfl
@[simp] theorem mapRim_cat (j : Jenjor) (n : Nat) (f : Rim → Rim) : (j.mapRim n f).cat = j.cat := rfl
@[simp] theorem mapRim_qs (j : Jenjor) (n : Nat) (f : Rim → Rim) : (j.mapRim n f).qs = j.qs := rfl
@[simp] theorem mapRim_sw (j : Jenjor) (n : Nat) (f : Rim → Rim) : (j.mapRim n f).sw = j.sw := rfl
@[simp] theorem mapRim_spg (j : Jenjor) (n : Nat) (f : Rim → Rim) : (j.mapRim n f).spg = j.spg := rfl
@[simp] theorem mapRim_coe (j : Jenjor) (n : Nat) (f : Rim → Rim) : (j.mapRim n f).coe = j.coe := rfl
@[simp] theorem mapRim_wr (j : Jenjor) (n : Nat) (f : Rim → Rim) : (j.mapRim n f).wr = j.wr := rfl
@[simp] theorem mapRim_place (j : Jenjor) (n : Nat) (f : Rim → Rim) : (j.mapRim n f).place = j.place := rfl
@[simp] theorem mapRim_vlt (j : Jenjor) (n : Nat) (f : Rim → Rim) : (j.mapRim n f).vlt = j.vlt := rfl
@[simp] theorem mapRim_lnk (j : Jenjor) (n : Nat) (f : Rim → Rim) : (j.mapRim n f).lnk = j.lnk := rfl
@[simp] theorem mapRim_cpn (j : Jenjor) (n : Nat) (f : Rim → Rim) : (j.mapRim n f).cpn = j.cpn := rfl
@[simp] theorem mapRim_dom (j : Jenjor) (n : Nat) (f : Rim → Rim) : (j.mapRim n f).dom = j.dom := rfl
@[simp] theorem mapRim_alm (j : Jenjor) (n : Nat) (f : Rim → Rim) : (j.mapRim n f).alm = j.alm := rfl
@[simp] theorem mapRim_isl (j : Jenjor) (n : Nat) (f : Rim → Rim) : (j.mapRim n f).isl = j.isl := rfl
@[simp] theorem mapRim_see (j : Jenjor) (n : Nat) (f : Rim → Rim) : (j.mapRim n f).see = j.see := rfl

@[simp] theorem mapModel_time (j : Jenjor) (n : Nat) (f : Model → Model) : (j.mapModel n f).time = j.time := rfl
@[simp] theorem mapModel_freeIdx (j : Jenjor) (n : Nat) (f : Model → Model) : (j.mapModel n f).freeIdx = j.freeIdx := rfl
@[simp] theorem mapModel_out (j : Jenjor) (n : Nat) (f : Model → Model) : (j.mapModel n f).out = j.out := rfl
@[simp] theorem mapModel_ctrs (j : Jenjor) (n : Nat) (f : Model → Model) : (j.mapModel n f).ctrs = j.ctrs := rfl
@[simp] theorem mapModel_log (j : Jenjor) (n : Nat) (f : Model → Model) : (j.mapModel n f).log = j.log := rfl
@[simp] theorem mapModel_cat (j : Jenjor) (n : Nat) (f : Model → Model) : (j.mapModel n f).cat = j.cat := rfl
@[simp] theorem mapModel_qs (j : Jenjor) (n : Nat) (f : Model → Model) : (j.mapModel n f).qs = j.qs := rfl
@[simp] theorem mapModel_sw (j : Jenjor) (n : Nat) (f : Model → Model) : (j.mapModel n f).sw = j.sw := rfl
@[simp] theorem mapModel_spg (j : Jenjor) (n : Nat) (f : Model → Model) : (j.mapModel n f).spg = j.spg := rfl
@[simp] theorem mapModel_wr (j : Jenjor) (n : Nat) (f : Model → Model) : (j.mapModel n f).wr = j.wr := rfl
@[simp] theorem mapModel_place (j : Jenjor) (n : Nat) (f : Model → Model) : (j.mapModel n f).place = j.place := rfl
@[simp] theorem mapModel_mem (j : Jenjor) (n : Nat) (f : Model → Model) : (j.mapModel n f).mem = j.mem := rfl
@[simp] theorem mapModel_vlt (j : Jenjor) (n : Nat) (f : Model → Model) : (j.mapModel n f).vlt = j.vlt := rfl
@[simp] theorem mapModel_lnk (j : Jenjor) (n : Nat) (f : Model → Model) : (j.mapModel n f).lnk = j.lnk := rfl
@[simp] theorem mapModel_cpn (j : Jenjor) (n : Nat) (f : Model → Model) : (j.mapModel n f).cpn = j.cpn := rfl
@[simp] theorem mapModel_dom (j : Jenjor) (n : Nat) (f : Model → Model) : (j.mapModel n f).dom = j.dom := rfl
@[simp] theorem mapModel_alm (j : Jenjor) (n : Nat) (f : Model → Model) : (j.mapModel n f).alm = j.alm := rfl
@[simp] theorem mapModel_isl (j : Jenjor) (n : Nat) (f : Model → Model) : (j.mapModel n f).isl = j.isl := rfl
@[simp] theorem mapModel_see (j : Jenjor) (n : Nat) (f : Model → Model) : (j.mapModel n f).see = j.see := rfl

end Jenjor

end Sys2Proof.Machine
end

