-- ==== Sys2Proof/Laws/Counters.lean ====
section
/-! SUPPORT. Sys2Proof/Laws/Counters.lean: what an event of a counter changes (R11), which other operations leave the
counters alone, and what a Logbook record and a fault add (R427, R428). -/

namespace Sys2Proof.Machine
namespace Jenjor

theorem lookup_filter_ne (l : List (Nat × Ctr)) (a b : Nat) (h : b ≠ a) :
    (l.filter fun c => c.1 != a).lookup b = l.lookup b := by
  induction l with
  | nil => rfl
  | cons c l ih =>
    obtain ⟨x, v⟩ := c
    by_cases hx : x = a
    · subst hx
      simp only [List.filter_cons, bne_self_eq_false, Bool.false_eq_true, if_false, ih, List.lookup_cons]
      have : (b == x) = false := by simpa using h
      rw [this]
    · have hx' : (x != a) = true := by simpa using hx
      simp only [List.filter_cons, hx', if_true, List.lookup_cons, ih]

theorem lookup_filter_self (l : List (Nat × Ctr)) (a : Nat) : (l.filter fun c => c.1 != a).lookup a = none := by
  induction l with
  | nil => rfl
  | cons c l ih =>
    obtain ⟨x, v⟩ := c
    by_cases hx : x = a
    · subst hx
      simp only [List.filter_cons, bne_self_eq_false, Bool.false_eq_true, if_false, ih]
    · have hx' : (x != a) = true := by simpa using hx
      have : (a == x) = false := by simpa using fun h => hx h.symm
      simp only [List.filter_cons, hx', if_true, List.lookup_cons, this, ih]

theorem ofNat_add_count (c : BitVec 48) (n : Nat) : BitVec.ofNat 48 (c.toNat + n) = c + BitVec.ofNat 48 n := by
  apply BitVec.eq_of_toNat_eq
  simp [BitVec.toNat_add]

/-- An event of a counter adds to it, wraps at 2^48 and sets the overflow bit; every other counter stands. -/
theorem counter_bump (j : Jenjor) (a n b : Nat) :
    (j.bump a n).counter b = if b = a then
      { count := (j.counter a).count + BitVec.ofNat 48 n,
        ovf := (j.counter a).ovf || decide (2 ^ 48 ≤ (j.counter a).count.toNat + n) }
    else j.counter b := by
  by_cases h : b = a
  · subst h
    simp only [if_true, bump, counter]
    split
    · rename_i hz
      obtain ⟨h1, h2⟩ := hz
      rw [lookup_filter_self, Option.getD_none]
      exact (congr (congrArg Ctr.mk (h1.symm.trans (ofNat_add_count _ _))) h2.symm)
    · simp only [List.lookup_cons, beq_self_eq_true, Option.getD_some, Ctr.mk.injEq]
      exact ⟨ofNat_add_count _ _, rfl⟩
  · rw [if_neg h]
    simp only [bump, counter]
    split
    · rw [lookup_filter_ne _ _ _ h]
    · have : (b == a) = false := by simpa using h
      simp only [List.lookup_cons, this, lookup_filter_ne _ _ _ h]

theorem counter_bump_ne (j : Jenjor) (a n b : Nat) (h : b ≠ a) : (j.bump a n).counter b = j.counter b := by
  rw [counter_bump, if_neg h]

theorem counter_of_ctrs {j k : Jenjor} (h : j.ctrs = k.ctrs) (a : Nat) : j.counter a = k.counter a := by
  simp only [counter, h]

/-- A Logbook record counts in LOG_LOST alone. -/
theorem counter_record (j : Jenjor) (cls blk unit cause addr : Nat) (st : BitVec 8) (d : BitVec 256) (b : Nat)
    (h : b ≠ 0xF0018) : (j.record cls blk unit cause addr st d).counter b = j.counter b := by
  unfold record
  dsimp only
  split
  · exact (counter_bump_ne _ _ _ _ h).trans rfl
  · rfl

theorem counter_info (j : Jenjor) (blk unit cause addr : Nat) (b : Nat) (h : b ≠ 0xF0018) :
    (j.info blk unit cause addr).counter b = j.counter b := counter_record _ _ _ _ _ _ _ _ _ h

theorem counter_sendVector (j : Jenjor) (v : Nat) (b : Nat) (h : b ≠ 0xF0018) :
    (j.sendVector v).counter b = j.counter b := by
  unfold sendVector
  dsimp only
  split
  · exact counter_record _ _ _ _ _ _ _ _ _ h
  · split
    · rfl
    · split
      · exact (counter_record _ _ _ _ _ _ _ _ _ h).trans rfl
      · rfl

/-- A reported fault counts in LOG_LOST alone. -/
theorem counter_fault (j : Jenjor) (cls blk unit cause addr : Nat) (st : BitVec 8) (d : BitVec 256) (b : Nat)
    (h : b ≠ 0xF0018) : (j.fault cls blk unit cause addr st d).counter b = j.counter b := by
  have hl : ∀ (j : Jenjor) (l : LogState), ({ j with log := l } : Jenjor).counter b = j.counter b := fun _ _ => rfl
  have hi : ∀ (j : Jenjor) (l : IslState), ({ j with isl := l } : Jenjor).counter b = j.counter b := fun _ _ => rfl
  have he : ∀ (j : Jenjor) (l : Output), (j.emit l).counter b = j.counter b := fun _ _ => rfl
  unfold fault
  simp only
  split
  · split <;> split <;>
      first
      | exact (counter_sendVector _ _ _ h).trans (counter_record _ _ _ _ _ _ _ _ _ h)
      | exact counter_record _ _ _ _ _ _ _ _ _ h
  · exact counter_record _ _ _ _ _ _ _ _ _ h

/-- A record is the newest of the trace, under the next sequence number. -/
theorem record_head (j : Jenjor) (cls blk unit cause addr : Nat) (st : BitVec 8) (d : BitVec 256) :
    (j.record cls blk unit cause addr st d).log.head = j.log.head + 1 := by
  unfold record
  dsimp only
  split <;> simp

/-- A fault of class 2 to 4 sets its bit of LOG_ERR_SUMMARY (R428). -/
theorem fault_errClass (j : Jenjor) (cls blk unit cause addr : Nat) (st : BitVec 8) (d : BitVec 256)
    (h : 2 ≤ cls ∧ cls ≤ 4) :
    (j.fault cls blk unit cause addr st d).log.errClass = j.log.errClass ||| (1#3 <<< (cls - 2)) := by
  have hr : ∀ (j : Jenjor) (a b c d e : Nat) (x : BitVec 8) (y : BitVec 256),
      (j.record a b c d e x y).log.errClass = j.log.errClass := by
    intros
    unfold record
    dsimp only
    split <;> simp
  have hs : ∀ (j : Jenjor) (v : Nat), (j.sendVector v).log.errClass = j.log.errClass := by
    intro j v
    unfold sendVector
    dsimp only
    split
    · exact hr _ _ _ _ _ _ _ _
    · split
      · simp
      · split
        · rw [hr]; simp
        · simp
  unfold fault
  simp only [h, and_self, if_true]
  split <;> split <;> simp [hs, hr]

/-- A fault reports only on the trace, the counters, a message, the error summary and SMB_ALERT#. -/
theorem fault_isl (j : Jenjor) (cls blk unit cause addr : Nat) (st : BitVec 8) (d : BitVec 256) :
    (j.fault cls blk unit cause addr st d).isl
      = { j.isl with alertLow := j.isl.alertLow || decide (cls = 3 ∨ cls = 4) } := by
  have hf : ∀ (i : IslState) (b c : Bool), b = c → ({ i with alertLow := b } : IslState) = { i with alertLow := c } := by
    intro i b c h; rw [h]
  unfold fault
  dsimp only
  split
  · split <;> split <;> simp only [emit_isl, sendVector_isl, record_isl] <;> apply hf <;> simp <;> omega
  · have : ¬(cls = 3 ∨ cls = 4) := by omega
    simp [this]

end Jenjor

/-- A state of the blocks is its fields. -/
theorem Jenjor.eq_of_fields {a b : Jenjor} (h1 : a.time = b.time) (h2 : a.freeIdx = b.freeIdx) (h3 : a.out = b.out)
    (h4 : a.ctrs = b.ctrs) (h5 : a.log = b.log) (h6 : a.cat = b.cat) (h7 : a.qs = b.qs) (h8 : a.sw = b.sw)
    (h9 : a.spg = b.spg) (h10 : a.coe = b.coe) (h11 : a.wr = b.wr) (h12 : a.place = b.place) (h13 : a.mem = b.mem)
    (h14 : a.vlt = b.vlt) (h15 : a.lnk = b.lnk) (h16 : a.cpn = b.cpn) (h17 : a.dom = b.dom) (h18 : a.alm = b.alm)
    (h19 : a.isl = b.isl) (h20 : a.see = b.see) : a = b := by
  cases a
  cases b
  subst h1 h2 h3 h4 h5 h6 h7 h8 h9 h10 h11 h12 h13 h14 h15 h16 h17 h18 h19 h20
  rfl

end Sys2Proof.Machine
end

