-- ==== Sys2Proof/Laws/Frames.lean ====
section
/-! SUPPORT. Sys2Proof/Laws/Frames.lean: what the engines' larger operations leave unchanged, field by field. -/

set_option linter.all false

namespace Sys2Proof.Machine
namespace Jenjor

theorem foldl_time {α : Type} (g : Jenjor → α → Jenjor) (l : List α) (j : Jenjor)
    (h : ∀ j a, (g j a).time = j.time) : (l.foldl g j).time = j.time := by
  induction l generalizing j with
  | nil => rfl
  | cons a l ih => exact (ih _).trans (h _ _)

theorem foldl_freeIdx {α : Type} (g : Jenjor → α → Jenjor) (l : List α) (j : Jenjor)
    (h : ∀ j a, (g j a).freeIdx = j.freeIdx) : (l.foldl g j).freeIdx = j.freeIdx := by
  induction l generalizing j with
  | nil => rfl
  | cons a l ih => exact (ih _).trans (h _ _)

theorem foldl_out {α : Type} (g : Jenjor → α → Jenjor) (l : List α) (j : Jenjor)
    (h : ∀ j a, (g j a).out = j.out) : (l.foldl g j).out = j.out := by
  induction l generalizing j with
  | nil => rfl
  | cons a l ih => exact (ih _).trans (h _ _)

theorem foldl_ctrs {α : Type} (g : Jenjor → α → Jenjor) (l : List α) (j : Jenjor)
    (h : ∀ j a, (g j a).ctrs = j.ctrs) : (l.foldl g j).ctrs = j.ctrs := by
  induction l generalizing j with
  | nil => rfl
  | cons a l ih => exact (ih _).trans (h _ _)

theorem foldl_log {α : Type} (g : Jenjor → α → Jenjor) (l : List α) (j : Jenjor)
    (h : ∀ j a, (g j a).log = j.log) : (l.foldl g j).log = j.log := by
  induction l generalizing j with
  | nil => rfl
  | cons a l ih => exact (ih _).trans (h _ _)

theorem foldl_cat {α : Type} (g : Jenjor → α → Jenjor) (l : List α) (j : Jenjor)
    (h : ∀ j a, (g j a).cat = j.cat) : (l.foldl g j).cat = j.cat := by
  induction l generalizing j with
  | nil => rfl
  | cons a l ih => exact (ih _).trans (h _ _)

theorem foldl_qs {α : Type} (g : Jenjor → α → Jenjor) (l : List α) (j : Jenjor)
    (h : ∀ j a, (g j a).qs = j.qs) : (l.foldl g j).qs = j.qs := by
  induction l generalizing j with
  | nil => rfl
  | cons a l ih => exact (ih _).trans (h _ _)

theorem foldl_sw {α : Type} (g : Jenjor → α → Jenjor) (l : List α) (j : Jenjor)
    (h : ∀ j a, (g j a).sw = j.sw) : (l.foldl g j).sw = j.sw := by
  induction l generalizing j with
  | nil => rfl
  | cons a l ih => exact (ih _).trans (h _ _)

theorem foldl_spg {α : Type} (g : Jenjor → α → Jenjor) (l : List α) (j : Jenjor)
    (h : ∀ j a, (g j a).spg = j.spg) : (l.foldl g j).spg = j.spg := by
  induction l generalizing j with
  | nil => rfl
  | cons a l ih => exact (ih _).trans (h _ _)

theorem foldl_coe {α : Type} (g : Jenjor → α → Jenjor) (l : List α) (j : Jenjor)
    (h : ∀ j a, (g j a).coe = j.coe) : (l.foldl g j).coe = j.coe := by
  induction l generalizing j with
  | nil => rfl
  | cons a l ih => exact (ih _).trans (h _ _)

theorem foldl_wr {α : Type} (g : Jenjor → α → Jenjor) (l : List α) (j : Jenjor)
    (h : ∀ j a, (g j a).wr = j.wr) : (l.foldl g j).wr = j.wr := by
  induction l generalizing j with
  | nil => rfl
  | cons a l ih => exact (ih _).trans (h _ _)

theorem foldl_place {α : Type} (g : Jenjor → α → Jenjor) (l : List α) (j : Jenjor)
    (h : ∀ j a, (g j a).place = j.place) : (l.foldl g j).place = j.place := by
  induction l generalizing j with
  | nil => rfl
  | cons a l ih => exact (ih _).trans (h _ _)

theorem foldl_mem {α : Type} (g : Jenjor → α → Jenjor) (l : List α) (j : Jenjor)
    (h : ∀ j a, (g j a).mem = j.mem) : (l.foldl g j).mem = j.mem := by
  induction l generalizing j with
  | nil => rfl
  | cons a l ih => exact (ih _).trans (h _ _)

theorem foldl_vlt {α : Type} (g : Jenjor → α → Jenjor) (l : List α) (j : Jenjor)
    (h : ∀ j a, (g j a).vlt = j.vlt) : (l.foldl g j).vlt = j.vlt := by
  induction l generalizing j with
  | nil => rfl
  | cons a l ih => exact (ih _).trans (h _ _)

theorem foldl_lnk {α : Type} (g : Jenjor → α → Jenjor) (l : List α) (j : Jenjor)
    (h : ∀ j a, (g j a).lnk = j.lnk) : (l.foldl g j).lnk = j.lnk := by
  induction l generalizing j with
  | nil => rfl
  | cons a l ih => exact (ih _).trans (h _ _)

theorem foldl_cpn {α : Type} (g : Jenjor → α → Jenjor) (l : List α) (j : Jenjor)
    (h : ∀ j a, (g j a).cpn = j.cpn) : (l.foldl g j).cpn = j.cpn := by
  induction l generalizing j with
  | nil => rfl
  | cons a l ih => exact (ih _).trans (h _ _)

theorem foldl_dom {α : Type} (g : Jenjor → α → Jenjor) (l : List α) (j : Jenjor)
    (h : ∀ j a, (g j a).dom = j.dom) : (l.foldl g j).dom = j.dom := by
  induction l generalizing j with
  | nil => rfl
  | cons a l ih => exact (ih _).trans (h _ _)

theorem foldl_alm {α : Type} (g : Jenjor → α → Jenjor) (l : List α) (j : Jenjor)
    (h : ∀ j a, (g j a).alm = j.alm) : (l.foldl g j).alm = j.alm := by
  induction l generalizing j with
  | nil => rfl
  | cons a l ih => exact (ih _).trans (h _ _)

theorem foldl_isl {α : Type} (g : Jenjor → α → Jenjor) (l : List α) (j : Jenjor)
    (h : ∀ j a, (g j a).isl = j.isl) : (l.foldl g j).isl = j.isl := by
  induction l generalizing j with
  | nil => rfl
  | cons a l ih => exact (ih _).trans (h _ _)

theorem foldl_see {α : Type} (g : Jenjor → α → Jenjor) (l : List α) (j : Jenjor)
    (h : ∀ j a, (g j a).see = j.see) : (l.foldl g j).see = j.see := by
  induction l generalizing j with
  | nil => rfl
  | cons a l ih => exact (ih _).trans (h _ _)

@[simp] theorem mapIsland_time (j : Jenjor) (n : Nat) (f : Island → Island) : (j.mapIsland n f).time = j.time := rfl
@[simp] theorem mapIsland_freeIdx (j : Jenjor) (n : Nat) (f : Island → Island) : (j.mapIsland n f).freeIdx = j.freeIdx := rfl
@[simp] theorem mapIsland_out (j : Jenjor) (n : Nat) (f : Island → Island) : (j.mapIsland n f).out = j.out := rfl
@[simp] theorem mapIsland_ctrs (j : Jenjor) (n : Nat) (f : Island → Island) : (j.mapIsland n f).ctrs = j.ctrs := rfl
@[simp] theorem mapIsland_log (j : Jenjor) (n : Nat) (f : Island → Island) : (j.mapIsland n f).log = j.log := rfl
@[simp] theorem mapIsland_cat (j : Jenjor) (n : Nat) (f : Island → Island) : (j.mapIsland n f).cat = j.cat := rfl
@[simp] theorem mapIsland_qs (j : Jenjor) (n : Nat) (f : Island → Island) : (j.mapIsland n f).qs = j.qs := rfl
@[simp] theorem mapIsland_sw (j : Jenjor) (n : Nat) (f : Island → Island) : (j.mapIsland n f).sw = j.sw := rfl
@[simp] theorem mapIsland_spg (j : Jenjor) (n : Nat) (f : Island → Island) : (j.mapIsland n f).spg = j.spg := rfl
@[simp] theorem mapIsland_coe (j : Jenjor) (n : Nat) (f : Island → Island) : (j.mapIsland n f).coe = j.coe := rfl
@[simp] theorem mapIsland_wr (j : Jenjor) (n : Nat) (f : Island → Island) : (j.mapIsland n f).wr = j.wr := rfl
@[simp] theorem mapIsland_place (j : Jenjor) (n : Nat) (f : Island → Island) : (j.mapIsland n f).place = j.place := rfl
@[simp] theorem mapIsland_mem (j : Jenjor) (n : Nat) (f : Island → Island) : (j.mapIsland n f).mem = j.mem := rfl
@[simp] theorem mapIsland_vlt (j : Jenjor) (n : Nat) (f : Island → Island) : (j.mapIsland n f).vlt = j.vlt := rfl
@[simp] theorem mapIsland_lnk (j : Jenjor) (n : Nat) (f : Island → Island) : (j.mapIsland n f).lnk = j.lnk := rfl
@[simp] theorem mapIsland_cpn (j : Jenjor) (n : Nat) (f : Island → Island) : (j.mapIsland n f).cpn = j.cpn := rfl
@[simp] theorem mapIsland_dom (j : Jenjor) (n : Nat) (f : Island → Island) : (j.mapIsland n f).dom = j.dom := rfl
@[simp] theorem mapIsland_alm (j : Jenjor) (n : Nat) (f : Island → Island) : (j.mapIsland n f).alm = j.alm := rfl
@[simp] theorem mapIsland_see (j : Jenjor) (n : Nat) (f : Island → Island) : (j.mapIsland n f).see = j.see := rfl

@[simp] theorem dropStale_time (j : Jenjor) : (j.dropStale).time = j.time := by
  unfold dropStale
  dsimp only
  repeat' split
  all_goals simp [foldl_time]
@[simp] theorem dropStale_freeIdx (j : Jenjor) : (j.dropStale).freeIdx = j.freeIdx := by
  unfold dropStale
  dsimp only
  repeat' split
  all_goals simp [foldl_freeIdx]
@[simp] theorem dropStale_out (j : Jenjor) : (j.dropStale).out = j.out := by
  unfold dropStale
  dsimp only
  repeat' split
  all_goals simp [foldl_out]
@[simp] theorem dropStale_ctrs (j : Jenjor) : (j.dropStale).ctrs = j.ctrs := by
  unfold dropStale
  dsimp only
  repeat' split
  all_goals simp [foldl_ctrs]
@[simp] theorem dropStale_log (j : Jenjor) : (j.dropStale).log = j.log := by
  unfold dropStale
  dsimp only
  repeat' split
  all_goals simp [foldl_log]
@[simp] theorem dropStale_cat (j : Jenjor) : (j.dropStale).cat = j.cat := by
  unfold dropStale
  dsimp only
  repeat' split
  all_goals simp [foldl_cat]
@[simp] theorem dropStale_qs (j : Jenjor) : (j.dropStale).qs = j.qs := by
  unfold dropStale
  dsimp only
  repeat' split
  all_goals simp [foldl_qs]
@[simp] theorem dropStale_sw (j : Jenjor) : (j.dropStale).sw = j.sw := by
  unfold dropStale
  dsimp only
  repeat' split
  all_goals simp [foldl_sw]
@[simp] theorem dropStale_coe (j : Jenjor) : (j.dropStale).coe = j.coe := by
  unfold dropStale
  dsimp only
  repeat' split
  all_goals simp [foldl_coe]
@[simp] theorem dropStale_wr (j : Jenjor) : (j.dropStale).wr = j.wr := by
  unfold dropStale
  dsimp only
  repeat' split
  all_goals simp [foldl_wr]
@[simp] theorem dropStale_place (j : Jenjor) : (j.dropStale).place = j.place := by
  unfold dropStale
  dsimp only
  repeat' split
  all_goals simp [foldl_place]
@[simp] theorem dropStale_mem (j : Jenjor) : (j.dropStale).mem = j.mem := by
  unfold dropStale
  dsimp only
  repeat' split
  all_goals simp [foldl_mem]
@[simp] theorem dropStale_vlt (j : Jenjor) : (j.dropStale).vlt = j.vlt := by
  unfold dropStale
  dsimp only
  repeat' split
  all_goals simp [foldl_vlt]
@[simp] theorem dropStale_lnk (j : Jenjor) : (j.dropStale).lnk = j.lnk := by
  unfold dropStale
  dsimp only
  repeat' split
  all_goals simp [foldl_lnk]
@[simp] theorem dropStale_cpn (j : Jenjor) : (j.dropStale).cpn = j.cpn := by
  unfold dropStale
  dsimp only
  repeat' split
  all_goals simp [foldl_cpn]
@[simp] theorem dropStale_dom (j : Jenjor) : (j.dropStale).dom = j.dom := by
  unfold dropStale
  dsimp only
  repeat' split
  all_goals simp [foldl_dom]
@[simp] theorem dropStale_alm (j : Jenjor) : (j.dropStale).alm = j.alm := by
  unfold dropStale
  dsimp only
  repeat' split
  all_goals simp [foldl_alm]
@[simp] theorem dropStale_isl (j : Jenjor) : (j.dropStale).isl = j.isl := by
  unfold dropStale
  dsimp only
  repeat' split
  all_goals simp [foldl_isl]
@[simp] theorem dropStale_see (j : Jenjor) : (j.dropStale).see = j.see := by
  unfold dropStale
  dsimp only
  repeat' split
  all_goals simp [foldl_see]

@[simp] theorem dropCtx_time (j : Jenjor) (id : Nat) : (j.dropCtx id).time = j.time := by unfold dropCtx; simp
@[simp] theorem dropCtx_freeIdx (j : Jenjor) (id : Nat) : (j.dropCtx id).freeIdx = j.freeIdx := by unfold dropCtx; simp
@[simp] theorem dropCtx_out (j : Jenjor) (id : Nat) : (j.dropCtx id).out = j.out := by unfold dropCtx; simp
@[simp] theorem dropCtx_ctrs (j : Jenjor) (id : Nat) : (j.dropCtx id).ctrs = j.ctrs := by unfold dropCtx; simp
@[simp] theorem dropCtx_log (j : Jenjor) (id : Nat) : (j.dropCtx id).log = j.log := by unfold dropCtx; simp
@[simp] theorem dropCtx_cat (j : Jenjor) (id : Nat) : (j.dropCtx id).cat = j.cat := by unfold dropCtx; simp
@[simp] theorem dropCtx_coe (j : Jenjor) (id : Nat) : (j.dropCtx id).coe = j.coe := by unfold dropCtx; simp
@[simp] theorem dropCtx_wr (j : Jenjor) (id : Nat) : (j.dropCtx id).wr = j.wr := by unfold dropCtx; simp
@[simp] theorem dropCtx_place (j : Jenjor) (id : Nat) : (j.dropCtx id).place = j.place := by unfold dropCtx; simp
@[simp] theorem dropCtx_mem (j : Jenjor) (id : Nat) : (j.dropCtx id).mem = j.mem := by unfold dropCtx; simp
@[simp] theorem dropCtx_vlt (j : Jenjor) (id : Nat) : (j.dropCtx id).vlt = j.vlt := by unfold dropCtx; simp
@[simp] theorem dropCtx_lnk (j : Jenjor) (id : Nat) : (j.dropCtx id).lnk = j.lnk := by unfold dropCtx; simp
@[simp] theorem dropCtx_cpn (j : Jenjor) (id : Nat) : (j.dropCtx id).cpn = j.cpn := by unfold dropCtx; simp
@[simp] theorem dropCtx_dom (j : Jenjor) (id : Nat) : (j.dropCtx id).dom = j.dom := by unfold dropCtx; simp
@[simp] theorem dropCtx_alm (j : Jenjor) (id : Nat) : (j.dropCtx id).alm = j.alm := by unfold dropCtx; simp
@[simp] theorem dropCtx_isl (j : Jenjor) (id : Nat) : (j.dropCtx id).isl = j.isl := by unfold dropCtx; simp
@[simp] theorem dropCtx_see (j : Jenjor) (id : Nat) : (j.dropCtx id).see = j.see := by unfold dropCtx; simp

@[simp] theorem abortCtx_time (j : Jenjor) (id : Nat) (st : Status) : (j.abortCtx id st).time = j.time := by
  unfold abortCtx
  dsimp only
  repeat' split
  all_goals simp [foldl_time]
@[simp] theorem abortCtx_freeIdx (j : Jenjor) (id : Nat) (st : Status) : (j.abortCtx id st).freeIdx = j.freeIdx := by
  unfold abortCtx
  dsimp only
  repeat' split
  all_goals simp [foldl_freeIdx]
@[simp] theorem abortCtx_cat (j : Jenjor) (id : Nat) (st : Status) : (j.abortCtx id st).cat = j.cat := by
  unfold abortCtx
  dsimp only
  repeat' split
  all_goals simp [foldl_cat]
@[simp] theorem abortCtx_coe (j : Jenjor) (id : Nat) (st : Status) : (j.abortCtx id st).coe = j.coe := by
  unfold abortCtx
  dsimp only
  repeat' split
  all_goals simp [foldl_coe]
@[simp] theorem abortCtx_wr (j : Jenjor) (id : Nat) (st : Status) : (j.abortCtx id st).wr = j.wr := by
  unfold abortCtx
  dsimp only
  repeat' split
  all_goals simp [foldl_wr]
@[simp] theorem abortCtx_place (j : Jenjor) (id : Nat) (st : Status) : (j.abortCtx id st).place = j.place := by
  unfold abortCtx
  dsimp only
  repeat' split
  all_goals simp [foldl_place]
@[simp] theorem abortCtx_mem (j : Jenjor) (id : Nat) (st : Status) : (j.abortCtx id st).mem = j.mem := by
  unfold abortCtx
  dsimp only
  repeat' split
  all_goals simp [foldl_mem]
@[simp] theorem abortCtx_vlt (j : Jenjor) (id : Nat) (st : Status) : (j.abortCtx id st).vlt = j.vlt := by
  unfold abortCtx
  dsimp only
  repeat' split
  all_goals simp [foldl_vlt]
@[simp] theorem abortCtx_dom (j : Jenjor) (id : Nat) (st : Status) : (j.abortCtx id st).dom = j.dom := by
  unfold abortCtx
  dsimp only
  repeat' split
  all_goals simp [foldl_dom]
@[simp] theorem abortCtx_alm (j : Jenjor) (id : Nat) (st : Status) : (j.abortCtx id st).alm = j.alm := by
  unfold abortCtx
  dsimp only
  repeat' split
  all_goals simp [foldl_alm]
@[simp] theorem abortCtx_isl (j : Jenjor) (id : Nat) (st : Status) : (j.abortCtx id st).isl = j.isl := by
  unfold abortCtx
  dsimp only
  repeat' split
  all_goals simp [foldl_isl]
@[simp] theorem abortCtx_see (j : Jenjor) (id : Nat) (st : Status) : (j.abortCtx id st).see = j.see := by
  unfold abortCtx
  dsimp only
  repeat' split
  all_goals simp [foldl_see]

@[simp] theorem abortAll_time (j : Jenjor) (ids : List Nat) (st : Status) : (j.abortAll ids st).time = j.time := by unfold abortAll; exact foldl_time _ _ _ (by simp)
@[simp] theorem abortAll_freeIdx (j : Jenjor) (ids : List Nat) (st : Status) : (j.abortAll ids st).freeIdx = j.freeIdx := by unfold abortAll; exact foldl_freeIdx _ _ _ (by simp)
@[simp] theorem abortAll_cat (j : Jenjor) (ids : List Nat) (st : Status) : (j.abortAll ids st).cat = j.cat := by unfold abortAll; exact foldl_cat _ _ _ (by simp)
@[simp] theorem abortAll_coe (j : Jenjor) (ids : List Nat) (st : Status) : (j.abortAll ids st).coe = j.coe := by unfold abortAll; exact foldl_coe _ _ _ (by simp)
@[simp] theorem abortAll_wr (j : Jenjor) (ids : List Nat) (st : Status) : (j.abortAll ids st).wr = j.wr := by unfold abortAll; exact foldl_wr _ _ _ (by simp)
@[simp] theorem abortAll_place (j : Jenjor) (ids : List Nat) (st : Status) : (j.abortAll ids st).place = j.place := by unfold abortAll; exact foldl_place _ _ _ (by simp)
@[simp] theorem abortAll_mem (j : Jenjor) (ids : List Nat) (st : Status) : (j.abortAll ids st).mem = j.mem := by unfold abortAll; exact foldl_mem _ _ _ (by simp)
@[simp] theorem abortAll_vlt (j : Jenjor) (ids : List Nat) (st : Status) : (j.abortAll ids st).vlt = j.vlt := by unfold abortAll; exact foldl_vlt _ _ _ (by simp)
@[simp] theorem abortAll_dom (j : Jenjor) (ids : List Nat) (st : Status) : (j.abortAll ids st).dom = j.dom := by unfold abortAll; exact foldl_dom _ _ _ (by simp)
@[simp] theorem abortAll_alm (j : Jenjor) (ids : List Nat) (st : Status) : (j.abortAll ids st).alm = j.alm := by unfold abortAll; exact foldl_alm _ _ _ (by simp)
@[simp] theorem abortAll_isl (j : Jenjor) (ids : List Nat) (st : Status) : (j.abortAll ids st).isl = j.isl := by unfold abortAll; exact foldl_isl _ _ _ (by simp)
@[simp] theorem abortAll_see (j : Jenjor) (ids : List Nat) (st : Status) : (j.abortAll ids st).see = j.see := by unfold abortAll; exact foldl_see _ _ _ (by simp)

@[simp] theorem stretchTo_time (j : Jenjor) (n p : Nat) : (j.stretchTo n p).time = j.time := by unfold stretchTo; simp
@[simp] theorem stretchTo_freeIdx (j : Jenjor) (n p : Nat) : (j.stretchTo n p).freeIdx = j.freeIdx := by unfold stretchTo; simp
@[simp] theorem stretchTo_out (j : Jenjor) (n p : Nat) : (j.stretchTo n p).out = j.out := by unfold stretchTo; simp
@[simp] theorem stretchTo_ctrs (j : Jenjor) (n p : Nat) : (j.stretchTo n p).ctrs = j.ctrs := by unfold stretchTo; simp
@[simp] theorem stretchTo_log (j : Jenjor) (n p : Nat) : (j.stretchTo n p).log = j.log := by unfold stretchTo; simp
@[simp] theorem stretchTo_cat (j : Jenjor) (n p : Nat) : (j.stretchTo n p).cat = j.cat := by unfold stretchTo; simp
@[simp] theorem stretchTo_qs (j : Jenjor) (n p : Nat) : (j.stretchTo n p).qs = j.qs := by unfold stretchTo; simp
@[simp] theorem stretchTo_spg (j : Jenjor) (n p : Nat) : (j.stretchTo n p).spg = j.spg := by unfold stretchTo; simp
@[simp] theorem stretchTo_coe (j : Jenjor) (n p : Nat) : (j.stretchTo n p).coe = j.coe := by unfold stretchTo; simp
@[simp] theorem stretchTo_wr (j : Jenjor) (n p : Nat) : (j.stretchTo n p).wr = j.wr := by unfold stretchTo; simp
@[simp] theorem stretchTo_place (j : Jenjor) (n p : Nat) : (j.stretchTo n p).place = j.place := by unfold stretchTo; simp
@[simp] theorem stretchTo_mem (j : Jenjor) (n p : Nat) : (j.stretchTo n p).mem = j.mem := by unfold stretchTo; simp
@[simp] theorem stretchTo_vlt (j : Jenjor) (n p : Nat) : (j.stretchTo n p).vlt = j.vlt := by unfold stretchTo; simp
@[simp] theorem stretchTo_lnk (j : Jenjor) (n p : Nat) : (j.stretchTo n p).lnk = j.lnk := by unfold stretchTo; simp
@[simp] theorem stretchTo_cpn (j : Jenjor) (n p : Nat) : (j.stretchTo n p).cpn = j.cpn := by unfold stretchTo; simp
@[simp] theorem stretchTo_dom (j : Jenjor) (n p : Nat) : (j.stretchTo n p).dom = j.dom := by unfold stretchTo; simp
@[simp] theorem stretchTo_alm (j : Jenjor) (n p : Nat) : (j.stretchTo n p).alm = j.alm := by unfold stretchTo; simp
@[simp] theorem stretchTo_isl (j : Jenjor) (n p : Nat) : (j.stretchTo n p).isl = j.isl := by unfold stretchTo; simp
@[simp] theorem stretchTo_see (j : Jenjor) (n p : Nat) : (j.stretchTo n p).see = j.see := by unfold stretchTo; simp

@[simp] theorem stretchCheck_time (j : Jenjor) (n : Nat) : (j.stretchCheck n).time = j.time := by
  unfold stretchCheck
  dsimp only
  repeat' split
  all_goals simp [foldl_time]
@[simp] theorem stretchCheck_freeIdx (j : Jenjor) (n : Nat) : (j.stretchCheck n).freeIdx = j.freeIdx := by
  unfold stretchCheck
  dsimp only
  repeat' split
  all_goals simp [foldl_freeIdx]
@[simp] theorem stretchCheck_out (j : Jenjor) (n : Nat) : (j.stretchCheck n).out = j.out := by
  unfold stretchCheck
  dsimp only
  repeat' split
  all_goals simp [foldl_out]
@[simp] theorem stretchCheck_ctrs (j : Jenjor) (n : Nat) : (j.stretchCheck n).ctrs = j.ctrs := by
  unfold stretchCheck
  dsimp only
  repeat' split
  all_goals simp [foldl_ctrs]
@[simp] theorem stretchCheck_log (j : Jenjor) (n : Nat) : (j.stretchCheck n).log = j.log := by
  unfold stretchCheck
  dsimp only
  repeat' split
  all_goals simp [foldl_log]
@[simp] theorem stretchCheck_cat (j : Jenjor) (n : Nat) : (j.stretchCheck n).cat = j.cat := by
  unfold stretchCheck
  dsimp only
  repeat' split
  all_goals simp [foldl_cat]
@[simp] theorem stretchCheck_qs (j : Jenjor) (n : Nat) : (j.stretchCheck n).qs = j.qs := by
  unfold stretchCheck
  dsimp only
  repeat' split
  all_goals simp [foldl_qs]
@[simp] theorem stretchCheck_spg (j : Jenjor) (n : Nat) : (j.stretchCheck n).spg = j.spg := by
  unfold stretchCheck
  dsimp only
  repeat' split
  all_goals simp [foldl_spg]
@[simp] theorem stretchCheck_coe (j : Jenjor) (n : Nat) : (j.stretchCheck n).coe = j.coe := by
  unfold stretchCheck
  dsimp only
  repeat' split
  all_goals simp [foldl_coe]
@[simp] theorem stretchCheck_wr (j : Jenjor) (n : Nat) : (j.stretchCheck n).wr = j.wr := by
  unfold stretchCheck
  dsimp only
  repeat' split
  all_goals simp [foldl_wr]
@[simp] theorem stretchCheck_place (j : Jenjor) (n : Nat) : (j.stretchCheck n).place = j.place := by
  unfold stretchCheck
  dsimp only
  repeat' split
  all_goals simp [foldl_place]
@[simp] theorem stretchCheck_mem (j : Jenjor) (n : Nat) : (j.stretchCheck n).mem = j.mem := by
  unfold stretchCheck
  dsimp only
  repeat' split
  all_goals simp [foldl_mem]
@[simp] theorem stretchCheck_vlt (j : Jenjor) (n : Nat) : (j.stretchCheck n).vlt = j.vlt := by
  unfold stretchCheck
  dsimp only
  repeat' split
  all_goals simp [foldl_vlt]
@[simp] theorem stretchCheck_lnk (j : Jenjor) (n : Nat) : (j.stretchCheck n).lnk = j.lnk := by
  unfold stretchCheck
  dsimp only
  repeat' split
  all_goals simp [foldl_lnk]
@[simp] theorem stretchCheck_cpn (j : Jenjor) (n : Nat) : (j.stretchCheck n).cpn = j.cpn := by
  unfold stretchCheck
  dsimp only
  repeat' split
  all_goals simp [foldl_cpn]
@[simp] theorem stretchCheck_dom (j : Jenjor) (n : Nat) : (j.stretchCheck n).dom = j.dom := by
  unfold stretchCheck
  dsimp only
  repeat' split
  all_goals simp [foldl_dom]
@[simp] theorem stretchCheck_alm (j : Jenjor) (n : Nat) : (j.stretchCheck n).alm = j.alm := by
  unfold stretchCheck
  dsimp only
  repeat' split
  all_goals simp [foldl_alm]
@[simp] theorem stretchCheck_isl (j : Jenjor) (n : Nat) : (j.stretchCheck n).isl = j.isl := by
  unfold stretchCheck
  dsimp only
  repeat' split
  all_goals simp [foldl_isl]
@[simp] theorem stretchCheck_see (j : Jenjor) (n : Nat) : (j.stretchCheck n).see = j.see := by
  unfold stretchCheck
  dsimp only
  repeat' split
  all_goals simp [foldl_see]

@[simp] theorem stretchAll_time (j : Jenjor) : (j.stretchAll).time = j.time := by unfold stretchAll; exact foldl_time _ _ _ (by simp)
@[simp] theorem stretchAll_freeIdx (j : Jenjor) : (j.stretchAll).freeIdx = j.freeIdx := by unfold stretchAll; exact foldl_freeIdx _ _ _ (by simp)
@[simp] theorem stretchAll_out (j : Jenjor) : (j.stretchAll).out = j.out := by unfold stretchAll; exact foldl_out _ _ _ (by simp)
@[simp] theorem stretchAll_ctrs (j : Jenjor) : (j.stretchAll).ctrs = j.ctrs := by unfold stretchAll; exact foldl_ctrs _ _ _ (by simp)
@[simp] theorem stretchAll_log (j : Jenjor) : (j.stretchAll).log = j.log := by unfold stretchAll; exact foldl_log _ _ _ (by simp)
@[simp] theorem stretchAll_cat (j : Jenjor) : (j.stretchAll).cat = j.cat := by unfold stretchAll; exact foldl_cat _ _ _ (by simp)
@[simp] theorem stretchAll_qs (j : Jenjor) : (j.stretchAll).qs = j.qs := by unfold stretchAll; exact foldl_qs _ _ _ (by simp)
@[simp] theorem stretchAll_spg (j : Jenjor) : (j.stretchAll).spg = j.spg := by unfold stretchAll; exact foldl_spg _ _ _ (by simp)
@[simp] theorem stretchAll_coe (j : Jenjor) : (j.stretchAll).coe = j.coe := by unfold stretchAll; exact foldl_coe _ _ _ (by simp)
@[simp] theorem stretchAll_wr (j : Jenjor) : (j.stretchAll).wr = j.wr := by unfold stretchAll; exact foldl_wr _ _ _ (by simp)
@[simp] theorem stretchAll_place (j : Jenjor) : (j.stretchAll).place = j.place := by unfold stretchAll; exact foldl_place _ _ _ (by simp)
@[simp] theorem stretchAll_mem (j : Jenjor) : (j.stretchAll).mem = j.mem := by unfold stretchAll; exact foldl_mem _ _ _ (by simp)
@[simp] theorem stretchAll_vlt (j : Jenjor) : (j.stretchAll).vlt = j.vlt := by unfold stretchAll; exact foldl_vlt _ _ _ (by simp)
@[simp] theorem stretchAll_lnk (j : Jenjor) : (j.stretchAll).lnk = j.lnk := by unfold stretchAll; exact foldl_lnk _ _ _ (by simp)
@[simp] theorem stretchAll_cpn (j : Jenjor) : (j.stretchAll).cpn = j.cpn := by unfold stretchAll; exact foldl_cpn _ _ _ (by simp)
@[simp] theorem stretchAll_dom (j : Jenjor) : (j.stretchAll).dom = j.dom := by unfold stretchAll; exact foldl_dom _ _ _ (by simp)
@[simp] theorem stretchAll_alm (j : Jenjor) : (j.stretchAll).alm = j.alm := by unfold stretchAll; exact foldl_alm _ _ _ (by simp)
@[simp] theorem stretchAll_isl (j : Jenjor) : (j.stretchAll).isl = j.isl := by unfold stretchAll; exact foldl_isl _ _ _ (by simp)
@[simp] theorem stretchAll_see (j : Jenjor) : (j.stretchAll).see = j.see := by unfold stretchAll; exact foldl_see _ _ _ (by simp)

@[simp] theorem setClock_time (j : Jenjor) (i f : Nat) : (j.setClock i f).time = j.time := by
  unfold setClock
  dsimp only
  repeat' split
  all_goals simp [foldl_time]
@[simp] theorem setClock_freeIdx (j : Jenjor) (i f : Nat) : (j.setClock i f).freeIdx = j.freeIdx := by
  unfold setClock
  dsimp only
  repeat' split
  all_goals simp [foldl_freeIdx]
@[simp] theorem setClock_out (j : Jenjor) (i f : Nat) : (j.setClock i f).out = j.out := by
  unfold setClock
  dsimp only
  repeat' split
  all_goals simp [foldl_out]
@[simp] theorem setClock_log (j : Jenjor) (i f : Nat) : (j.setClock i f).log = j.log := by
  unfold setClock
  dsimp only
  repeat' split
  all_goals simp [foldl_log]
@[simp] theorem setClock_cat (j : Jenjor) (i f : Nat) : (j.setClock i f).cat = j.cat := by
  unfold setClock
  dsimp only
  repeat' split
  all_goals simp [foldl_cat]
@[simp] theorem setClock_qs (j : Jenjor) (i f : Nat) : (j.setClock i f).qs = j.qs := by
  unfold setClock
  dsimp only
  repeat' split
  all_goals simp [foldl_qs]
@[simp] theorem setClock_sw (j : Jenjor) (i f : Nat) : (j.setClock i f).sw = j.sw := by
  unfold setClock
  dsimp only
  repeat' split
  all_goals simp [foldl_sw]
@[simp] theorem setClock_spg (j : Jenjor) (i f : Nat) : (j.setClock i f).spg = j.spg := by
  unfold setClock
  dsimp only
  repeat' split
  all_goals simp [foldl_spg]
@[simp] theorem setClock_coe (j : Jenjor) (i f : Nat) : (j.setClock i f).coe = j.coe := by
  unfold setClock
  dsimp only
  repeat' split
  all_goals simp [foldl_coe]
@[simp] theorem setClock_wr (j : Jenjor) (i f : Nat) : (j.setClock i f).wr = j.wr := by
  unfold setClock
  dsimp only
  repeat' split
  all_goals simp [foldl_wr]
@[simp] theorem setClock_place (j : Jenjor) (i f : Nat) : (j.setClock i f).place = j.place := by
  unfold setClock
  dsimp only
  repeat' split
  all_goals simp [foldl_place]
@[simp] theorem setClock_mem (j : Jenjor) (i f : Nat) : (j.setClock i f).mem = j.mem := by
  unfold setClock
  dsimp only
  repeat' split
  all_goals simp [foldl_mem]
@[simp] theorem setClock_vlt (j : Jenjor) (i f : Nat) : (j.setClock i f).vlt = j.vlt := by
  unfold setClock
  dsimp only
  repeat' split
  all_goals simp [foldl_vlt]
@[simp] theorem setClock_lnk (j : Jenjor) (i f : Nat) : (j.setClock i f).lnk = j.lnk := by
  unfold setClock
  dsimp only
  repeat' split
  all_goals simp [foldl_lnk]
@[simp] theorem setClock_cpn (j : Jenjor) (i f : Nat) : (j.setClock i f).cpn = j.cpn := by
  unfold setClock
  dsimp only
  repeat' split
  all_goals simp [foldl_cpn]
@[simp] theorem setClock_dom (j : Jenjor) (i f : Nat) : (j.setClock i f).dom = j.dom := by
  unfold setClock
  dsimp only
  repeat' split
  all_goals simp [foldl_dom]
@[simp] theorem setClock_alm (j : Jenjor) (i f : Nat) : (j.setClock i f).alm = j.alm := by
  unfold setClock
  dsimp only
  repeat' split
  all_goals simp [foldl_alm]
@[simp] theorem setClock_see (j : Jenjor) (i f : Nat) : (j.setClock i f).see = j.see := by
  unfold setClock
  dsimp only
  repeat' split
  all_goals simp [foldl_see]

@[simp] theorem stepDown_time (j : Jenjor) (i f : Nat) : (j.stepDown i f).time = j.time := by
  unfold stepDown
  dsimp only
  repeat' split
  all_goals simp [foldl_time]
@[simp] theorem stepDown_freeIdx (j : Jenjor) (i f : Nat) : (j.stepDown i f).freeIdx = j.freeIdx := by
  unfold stepDown
  dsimp only
  repeat' split
  all_goals simp [foldl_freeIdx]
@[simp] theorem stepDown_out (j : Jenjor) (i f : Nat) : (j.stepDown i f).out = j.out := by
  unfold stepDown
  dsimp only
  repeat' split
  all_goals simp [foldl_out]
@[simp] theorem stepDown_log (j : Jenjor) (i f : Nat) : (j.stepDown i f).log = j.log := by
  unfold stepDown
  dsimp only
  repeat' split
  all_goals simp [foldl_log]
@[simp] theorem stepDown_cat (j : Jenjor) (i f : Nat) : (j.stepDown i f).cat = j.cat := by
  unfold stepDown
  dsimp only
  repeat' split
  all_goals simp [foldl_cat]
@[simp] theorem stepDown_qs (j : Jenjor) (i f : Nat) : (j.stepDown i f).qs = j.qs := by
  unfold stepDown
  dsimp only
  repeat' split
  all_goals simp [foldl_qs]
@[simp] theorem stepDown_sw (j : Jenjor) (i f : Nat) : (j.stepDown i f).sw = j.sw := by
  unfold stepDown
  dsimp only
  repeat' split
  all_goals simp [foldl_sw]
@[simp] theorem stepDown_spg (j : Jenjor) (i f : Nat) : (j.stepDown i f).spg = j.spg := by
  unfold stepDown
  dsimp only
  repeat' split
  all_goals simp [foldl_spg]
@[simp] theorem stepDown_coe (j : Jenjor) (i f : Nat) : (j.stepDown i f).coe = j.coe := by
  unfold stepDown
  dsimp only
  repeat' split
  all_goals simp [foldl_coe]
@[simp] theorem stepDown_wr (j : Jenjor) (i f : Nat) : (j.stepDown i f).wr = j.wr := by
  unfold stepDown
  dsimp only
  repeat' split
  all_goals simp [foldl_wr]
@[simp] theorem stepDown_place (j : Jenjor) (i f : Nat) : (j.stepDown i f).place = j.place := by
  unfold stepDown
  dsimp only
  repeat' split
  all_goals simp [foldl_place]
@[simp] theorem stepDown_mem (j : Jenjor) (i f : Nat) : (j.stepDown i f).mem = j.mem := by
  unfold stepDown
  dsimp only
  repeat' split
  all_goals simp [foldl_mem]
@[simp] theorem stepDown_vlt (j : Jenjor) (i f : Nat) : (j.stepDown i f).vlt = j.vlt := by
  unfold stepDown
  dsimp only
  repeat' split
  all_goals simp [foldl_vlt]
@[simp] theorem stepDown_lnk (j : Jenjor) (i f : Nat) : (j.stepDown i f).lnk = j.lnk := by
  unfold stepDown
  dsimp only
  repeat' split
  all_goals simp [foldl_lnk]
@[simp] theorem stepDown_cpn (j : Jenjor) (i f : Nat) : (j.stepDown i f).cpn = j.cpn := by
  unfold stepDown
  dsimp only
  repeat' split
  all_goals simp [foldl_cpn]
@[simp] theorem stepDown_dom (j : Jenjor) (i f : Nat) : (j.stepDown i f).dom = j.dom := by
  unfold stepDown
  dsimp only
  repeat' split
  all_goals simp [foldl_dom]
@[simp] theorem stepDown_alm (j : Jenjor) (i f : Nat) : (j.stepDown i f).alm = j.alm := by
  unfold stepDown
  dsimp only
  repeat' split
  all_goals simp [foldl_alm]
@[simp] theorem stepDown_see (j : Jenjor) (i f : Nat) : (j.stepDown i f).see = j.see := by
  unfold stepDown
  dsimp only
  repeat' split
  all_goals simp [foldl_see]

@[simp] theorem stepUp_time (j : Jenjor) (i : Nat) : (j.stepUp i).time = j.time := by
  unfold stepUp
  dsimp only
  repeat' split
  all_goals simp [foldl_time]
@[simp] theorem stepUp_freeIdx (j : Jenjor) (i : Nat) : (j.stepUp i).freeIdx = j.freeIdx := by
  unfold stepUp
  dsimp only
  repeat' split
  all_goals simp [foldl_freeIdx]
@[simp] theorem stepUp_out (j : Jenjor) (i : Nat) : (j.stepUp i).out = j.out := by
  unfold stepUp
  dsimp only
  repeat' split
  all_goals simp [foldl_out]
@[simp] theorem stepUp_log (j : Jenjor) (i : Nat) : (j.stepUp i).log = j.log := by
  unfold stepUp
  dsimp only
  repeat' split
  all_goals simp [foldl_log]
@[simp] theorem stepUp_cat (j : Jenjor) (i : Nat) : (j.stepUp i).cat = j.cat := by
  unfold stepUp
  dsimp only
  repeat' split
  all_goals simp [foldl_cat]
@[simp] theorem stepUp_qs (j : Jenjor) (i : Nat) : (j.stepUp i).qs = j.qs := by
  unfold stepUp
  dsimp only
  repeat' split
  all_goals simp [foldl_qs]
@[simp] theorem stepUp_sw (j : Jenjor) (i : Nat) : (j.stepUp i).sw = j.sw := by
  unfold stepUp
  dsimp only
  repeat' split
  all_goals simp [foldl_sw]
@[simp] theorem stepUp_spg (j : Jenjor) (i : Nat) : (j.stepUp i).spg = j.spg := by
  unfold stepUp
  dsimp only
  repeat' split
  all_goals simp [foldl_spg]
@[simp] theorem stepUp_coe (j : Jenjor) (i : Nat) : (j.stepUp i).coe = j.coe := by
  unfold stepUp
  dsimp only
  repeat' split
  all_goals simp [foldl_coe]
@[simp] theorem stepUp_wr (j : Jenjor) (i : Nat) : (j.stepUp i).wr = j.wr := by
  unfold stepUp
  dsimp only
  repeat' split
  all_goals simp [foldl_wr]
@[simp] theorem stepUp_place (j : Jenjor) (i : Nat) : (j.stepUp i).place = j.place := by
  unfold stepUp
  dsimp only
  repeat' split
  all_goals simp [foldl_place]
@[simp] theorem stepUp_mem (j : Jenjor) (i : Nat) : (j.stepUp i).mem = j.mem := by
  unfold stepUp
  dsimp only
  repeat' split
  all_goals simp [foldl_mem]
@[simp] theorem stepUp_vlt (j : Jenjor) (i : Nat) : (j.stepUp i).vlt = j.vlt := by
  unfold stepUp
  dsimp only
  repeat' split
  all_goals simp [foldl_vlt]
@[simp] theorem stepUp_lnk (j : Jenjor) (i : Nat) : (j.stepUp i).lnk = j.lnk := by
  unfold stepUp
  dsimp only
  repeat' split
  all_goals simp [foldl_lnk]
@[simp] theorem stepUp_cpn (j : Jenjor) (i : Nat) : (j.stepUp i).cpn = j.cpn := by
  unfold stepUp
  dsimp only
  repeat' split
  all_goals simp [foldl_cpn]
@[simp] theorem stepUp_dom (j : Jenjor) (i : Nat) : (j.stepUp i).dom = j.dom := by
  unfold stepUp
  dsimp only
  repeat' split
  all_goals simp [foldl_dom]
@[simp] theorem stepUp_alm (j : Jenjor) (i : Nat) : (j.stepUp i).alm = j.alm := by
  unfold stepUp
  dsimp only
  repeat' split
  all_goals simp [foldl_alm]
@[simp] theorem stepUp_see (j : Jenjor) (i : Nat) : (j.stepUp i).see = j.see := by
  unfold stepUp
  dsimp only
  repeat' split
  all_goals simp [foldl_see]

@[simp] theorem lowerTransit_time (j : Jenjor) : (j.lowerTransit).time = j.time := by unfold lowerTransit; exact foldl_time _ _ _ (by simp)
@[simp] theorem lowerTransit_freeIdx (j : Jenjor) : (j.lowerTransit).freeIdx = j.freeIdx := by unfold lowerTransit; exact foldl_freeIdx _ _ _ (by simp)
@[simp] theorem lowerTransit_out (j : Jenjor) : (j.lowerTransit).out = j.out := by unfold lowerTransit; exact foldl_out _ _ _ (by simp)
@[simp] theorem lowerTransit_log (j : Jenjor) : (j.lowerTransit).log = j.log := by unfold lowerTransit; exact foldl_log _ _ _ (by simp)
@[simp] theorem lowerTransit_cat (j : Jenjor) : (j.lowerTransit).cat = j.cat := by unfold lowerTransit; exact foldl_cat _ _ _ (by simp)
@[simp] theorem lowerTransit_qs (j : Jenjor) : (j.lowerTransit).qs = j.qs := by unfold lowerTransit; exact foldl_qs _ _ _ (by simp)
@[simp] theorem lowerTransit_sw (j : Jenjor) : (j.lowerTransit).sw = j.sw := by unfold lowerTransit; exact foldl_sw _ _ _ (by simp)
@[simp] theorem lowerTransit_spg (j : Jenjor) : (j.lowerTransit).spg = j.spg := by unfold lowerTransit; exact foldl_spg _ _ _ (by simp)
@[simp] theorem lowerTransit_coe (j : Jenjor) : (j.lowerTransit).coe = j.coe := by unfold lowerTransit; exact foldl_coe _ _ _ (by simp)
@[simp] theorem lowerTransit_wr (j : Jenjor) : (j.lowerTransit).wr = j.wr := by unfold lowerTransit; exact foldl_wr _ _ _ (by simp)
@[simp] theorem lowerTransit_place (j : Jenjor) : (j.lowerTransit).place = j.place := by unfold lowerTransit; exact foldl_place _ _ _ (by simp)
@[simp] theorem lowerTransit_mem (j : Jenjor) : (j.lowerTransit).mem = j.mem := by unfold lowerTransit; exact foldl_mem _ _ _ (by simp)
@[simp] theorem lowerTransit_vlt (j : Jenjor) : (j.lowerTransit).vlt = j.vlt := by unfold lowerTransit; exact foldl_vlt _ _ _ (by simp)
@[simp] theorem lowerTransit_lnk (j : Jenjor) : (j.lowerTransit).lnk = j.lnk := by unfold lowerTransit; exact foldl_lnk _ _ _ (by simp)
@[simp] theorem lowerTransit_cpn (j : Jenjor) : (j.lowerTransit).cpn = j.cpn := by unfold lowerTransit; exact foldl_cpn _ _ _ (by simp)
@[simp] theorem lowerTransit_dom (j : Jenjor) : (j.lowerTransit).dom = j.dom := by unfold lowerTransit; exact foldl_dom _ _ _ (by simp)
@[simp] theorem lowerTransit_alm (j : Jenjor) : (j.lowerTransit).alm = j.alm := by unfold lowerTransit; exact foldl_alm _ _ _ (by simp)
@[simp] theorem lowerTransit_see (j : Jenjor) : (j.lowerTransit).see = j.see := by unfold lowerTransit; exact foldl_see _ _ _ (by simp)

@[simp] theorem deferPasses_time (j : Jenjor) : (j.deferPasses).time = j.time := by unfold deferPasses; simp
@[simp] theorem deferPasses_freeIdx (j : Jenjor) : (j.deferPasses).freeIdx = j.freeIdx := by unfold deferPasses; simp
@[simp] theorem deferPasses_out (j : Jenjor) : (j.deferPasses).out = j.out := by unfold deferPasses; simp
@[simp] theorem deferPasses_log (j : Jenjor) : (j.deferPasses).log = j.log := by unfold deferPasses; simp
@[simp] theorem deferPasses_cat (j : Jenjor) : (j.deferPasses).cat = j.cat := by unfold deferPasses; simp
@[simp] theorem deferPasses_qs (j : Jenjor) : (j.deferPasses).qs = j.qs := by unfold deferPasses; simp
@[simp] theorem deferPasses_spg (j : Jenjor) : (j.deferPasses).spg = j.spg := by unfold deferPasses; simp
@[simp] theorem deferPasses_coe (j : Jenjor) : (j.deferPasses).coe = j.coe := by unfold deferPasses; simp
@[simp] theorem deferPasses_wr (j : Jenjor) : (j.deferPasses).wr = j.wr := by unfold deferPasses; simp
@[simp] theorem deferPasses_place (j : Jenjor) : (j.deferPasses).place = j.place := by unfold deferPasses; simp
@[simp] theorem deferPasses_mem (j : Jenjor) : (j.deferPasses).mem = j.mem := by unfold deferPasses; simp
@[simp] theorem deferPasses_vlt (j : Jenjor) : (j.deferPasses).vlt = j.vlt := by unfold deferPasses; simp
@[simp] theorem deferPasses_lnk (j : Jenjor) : (j.deferPasses).lnk = j.lnk := by unfold deferPasses; simp
@[simp] theorem deferPasses_cpn (j : Jenjor) : (j.deferPasses).cpn = j.cpn := by unfold deferPasses; simp
@[simp] theorem deferPasses_dom (j : Jenjor) : (j.deferPasses).dom = j.dom := by unfold deferPasses; simp
@[simp] theorem deferPasses_alm (j : Jenjor) : (j.deferPasses).alm = j.alm := by unfold deferPasses; simp
@[simp] theorem deferPasses_isl (j : Jenjor) : (j.deferPasses).isl = j.isl := by unfold deferPasses; simp
@[simp] theorem deferPasses_see (j : Jenjor) : (j.deferPasses).see = j.see := by unfold deferPasses; simp

end Jenjor

end Sys2Proof.Machine
end

