-- ==== Sys2Proof/Tests/Slice0.lean ====
section
/-! SUPPORT. Sys2Proof/Tests/Slice0.lean: small states that meet the hypotheses of every statement, a few tests against the
manual's own examples, and the commands that the check of unit numbers refuses. -/

namespace Sys2Proof.Tests
open Sys2Proof Sys2Proof.Machine Sys2Proof.Machine.Jenjor

set_option maxRecDepth 100000
set_option exponentiation.threshold 600

/-! ### Small states -/

/-- A descriptor from (offset, value) fields. -/
def desc (fs : List (Nat × Nat)) : Desc := fs.foldl (fun d f => d ||| BitVec.ofNat 512 (f.2 * 2 ^ (8 * f.1))) 0

def ref1 : CmdRef := { q := 1, cid := 7, noIrq := false, t0 := 0, gen := 0, tag := none }

def queue1 (kind : Nat) : Queue :=
  { queueZero with num := 1, kind := kind, priority := 3, sqDepth := 4, cqDepth := 4, inflight := [7] }

/-- Step 8 of start-up is over and every unit serves. -/
def liveJ : Jenjor :=
  { Jenjor.reset with
    isl := { resetIslands with
      power := .on,
      islands := (List.range 29).map fun i => { gatedIsland with clk := maxClock i, ceil := maxClock i, temp := 60 } },
    alm := { resetAlmanac with step := 8 },
    mem := { resetMem with
      online := true,
      chans := (List.range 84).map fun i =>
      { untrainedChan with state := .serving, logical := some i, temp := 60, margin := 100 } },
    vlt := { resetVault with
      online := true,
      carriers := List.replicate 4 { emptyCarrier with state := .serving, serial := 9, permille := 1000 } },
    sw := { resetSweep with clusters := (List.range 18).map fun c =>
      { offCluster c with active := c != 8 && c != 17, spare := c == 8 || c == 17 } } }

/-- One fetched descriptor of queue 1 waits. -/
def withCmd (kind op : Nat) (fs : List (Nat × Nat)) (j : Jenjor) : Jenjor :=
  { j with qs := { j.qs with queues := [queueZero, queue1 kind],
                             fetched := [{ ref := ref1, d := desc ((0, op) :: (2, 7) :: fs) }] } }

def on (j : Jenjor) : State := { State.reset with j := j }

def cmdAt (_kind op : Nat) (fs : List (Nat × Nat)) : Fetched := { ref := ref1, d := desc ((0, op) :: (2, 7) :: fs) }

/-- The blocks once the descriptor is taken. -/
def taken (j : Jenjor) : Jenjor := { j with qs := { j.qs with fetched := [] } }

/-! ### Temperatures and power -/

def withIsland (n : Nat) (f : Island → Island) (j : Jenjor) : Jenjor :=
  { j with isl := { j.isl with islands := j.isl.islands.modify n f } }

def warm (n clk temp : Nat) : Jenjor := withIsland n (fun x => { x with clk := clk, temp := temp }) liveJ

/-- Only island 7 runs. -/
def alone (clk temp : Nat) : Jenjor :=
  { liveJ with isl := { liveJ.isl with islands := (List.range 29).map fun i =>
      if i = 7 then { gatedIsland with clk := clk, ceil := maxClock 7, temp := temp } else gatedIsland } }

theorem wit_TemperaturesAndClocks :
    liveJ.live = true ∧
    (let j := { liveJ with mem := { liveJ.mem with band := 2 } }
     j.live = true ∧ j.mem.band = 2 ∧ j.hottest ≤ 92) ∧
    (let j := { liveJ with mem := { liveJ.mem with band := 1 } }
     j.live = true ∧ j.mem.band = 1 ∧ j.hottest ≤ 82) ∧
    ((liveJ.isl.islands[6]?).isSome = true ∧ (liveJ.isl.islands[28]?).isSome = true ∧ transit 28 = false ∧ transit 24 = true) ∧
    ((alone 1500 100).live = true ∧ ((alone 1500 100).isl.islands[7]?).any (fun x => 95 < x.temp && x.temp ≤ 100 && 1200 < x.clk) = true ∧
      (alone 1500 100).clockFits 7 1400 = true) ∧
    (((alone 850 101).isl.islands[7]?).any (fun x => 100 < x.temp && 800 < x.clk) = true ∧ (alone 850 101).clockFits 7 800 = true) ∧
    ((alone (maxClock 7 - 100) 92).live = true ∧ ((alone (maxClock 7 - 100) 92).isl.islands[7]?).any (fun x =>
        !x.neighbourHeld && x.clk != 0 && x.clk + 100 ≤ maxClock 7 && x.ceil == maxClock 7 && x.temp ≤ 92) = true ∧
      (alone (maxClock 7 - 100) 92).clockFits 7 (maxClock 7) = true ∧ (alone (maxClock 7 - 100) 92).isl.shedStep < 3 ∧
      (alone (maxClock 7 - 100) 92).isl.converterHot = false) ∧
    ((List.range 29).any fun k => neighbours 7 k && (((warm 7 1500 87).isl.islands[k]?).any fun y => y.temp ≤ 87 && 87 ≤ y.temp + 27)) = true := by
  decide

theorem wit_PowerAndWholeModuleFaults :
    (let j := { liveJ with isl := { liveJ.isl with shedding := true } }
     j.live = true ∧ j.isl.shedding = true ∧ j.isl.shedStep = 0 ∧ j.isl.whole = false) ∧
    (let j := { liveJ with isl := { liveJ.isl with shedding := true, shedStep := 1 } }
     j.live = true ∧ j.isl.shedding = true ∧ 1 ≤ j.isl.shedStep) ∧
    (let j := { liveJ with isl := { liveJ.isl with avgW := 1399, shedStep := 2 } }
     j.live = true ∧ j.isl.avgW < 1400 ∧ j.isl.shedStep = 2 ∧ j.isl.converterHot = false) ∧
    (let j := { liveJ with isl := { liveJ.isl with avgW := 1399, shedStep := 3 } }
     j.live = true ∧ j.isl.avgW < 1400 ∧ j.isl.shedStep = 3) ∧
    ((warm 6 1500 111).live = true ∧ ((warm 6 1500 111).isl.islands[6]?).any (fun x => 110 < x.temp) = true) ∧
    ((List.range 29).any fun i => (List.range 29).any fun k => (i < 7 || 25 ≤ i) && neighbours i k &&
      (((warm i (floorClock i) 91).isl.islands[i]?).any fun x => ((warm i (floorClock i) 91).isl.islands[k]?).any fun y =>
        y.temp + 30 < x.temp && x.clk ≤ floorClock i)) = true := by
  refine ⟨by decide, by decide, by decide, by decide, by decide, ?_⟩
  decide

/-! ### Collections and objects -/

/-- COLLECTION_CREATE of collection 3: S8, bare, dimension 8, inner product, sweep-resident, 4 plates. -/
def createFields : List (Nat × Nat) := [(4, 3), (0x10, 64), (0x14, 3), (0x15, 1), (0x16, 8), (0x18, 1), (0x20, 4)]

/-- A grid of eight scales and eight offsets, all one. -/
def unitGrid : List Byte := (List.range 16).flatMap fun _ => leBytes 4 0x3F800000

def objOf (n kind coll : Nat) : Obj :=
  { num := n, kind := kind, coll := coll, base := 0, bytes := 65536, extent := 2097152, tier := .sweep, lastUse := 0, heat := 0,
    keyGen := 0, draining := false, pages := 0, dirty := [] }

/-- A collection S8 of dimension 8, with no records. -/
def coll3 : Coll :=
  { num := 3, format := .s8, dim := 8, metric := .innerProduct, sidecar := .bare, deep := false, payloadMax := 0,
    store := .none, storeFmt := .bf16, gridA := List.replicate 8 0x3F800000, gridB := List.replicate 8 0, gridGen := 1,
    objPlates := 1, objDir := 2, objPayload := 0, objStore := 0, objBias := 0, bias := none, accepted := [], dir := [],
    storeEnd := 0, payEnd := 0, deleting := false, draining := false, hdrLog := [], hdrAt := [] }

def plate0 : Plate := emptyPlate 0 3 0 1 0 false .bare

/-- A module that holds collection 3 with 32 empty plates. -/
def heldJ : Jenjor :=
  { liveJ with cat := { resetCat with
      colls := [coll3],
      objs := [{ objOf 1 1 3 with extent := 0 }, { objOf 2 6 3 with tier := .vault }],
      plates := (List.range 32).map fun n => { plate0 with pid := n, num := n },
      nextPid := 32 } }

def withObj (o : Obj) (j : Jenjor) : Jenjor := j.mapCat fun c => { c with objs := c.objs ++ [o] }

def ringFields : List (Nat × Nat) := [(0x10, 2), (0x14, 4), (0x16, 1), (0x17, 1), (0x18, 3), (0x19, 10)]

def ringDef3 : RingDef := statedRing (cmdAt 3 0x48 ringFields).d [3] .s8 8

/-- Ring 4 lists collection 3, in a phase. -/
def ringed (p : RingPhase) (j : Jenjor) : Jenjor :=
  j.mapRing 4 fun r => { r with defn := some ringDef3, phase := p, view := List.range 32, passList := List.range 32, pgSize := 1,
                                clusters := if p = .running then [0] else [], period := if p = .running then 15 else 0 }

theorem wit_CollectionCommands :
    (let j := withCmd 3 0x40 createFields liveJ
     (on j).takesCat 1 0x40 unitGrid (cmdAt 3 0x40 createFields) (taken j) ∧
       firstStatus ((taken j).collectionChecks (cmdAt 3 0x40 createFields).d unitGrid) = none ∧
       1 ≤ (taken j).poolFree ∧ (taken j).newPlateNum 3 = some 0 ∧
       (on j).takesCat 1 0x40 [] (cmdAt 3 0x40 createFields) (taken j) ∧
       firstStatus ((taken j).collectionChecks (cmdAt 3 0x40 createFields).d []) = some .gridInvalid) ∧
    (let j := withCmd 3 0x41 [(4, 3)] heldJ
     (on j).takesCat 1 0x41 [] (cmdAt 3 0x41 [(4, 3)]) (taken j) ∧ (taken j).liveColl? 3 = some coll3 ∧
       (taken j).readOnlyNow = false ∧ (taken j).ringOf 3 = none) ∧
    (let j := withCmd 3 0x41 [(4, 3)] (ringed .running heldJ)
     (on j).takesCat 1 0x41 [] (cmdAt 3 0x41 [(4, 3)]) (taken j) ∧ (taken j).liveColl? 3 = some coll3 ∧
       (taken j).readOnlyNow = false ∧ (taken j).ringOf 3 = (taken j).ring? 4 ∧
       ((taken j).ring? 4).any fun r => sweeping r && r.num == 4) ∧
    (let j := withCmd 3 0x41 [(4, 5)] heldJ
     (on j).takesCat 1 0x41 [] (cmdAt 3 0x41 [(4, 5)]) (taken j) ∧ (taken j).liveColl? 5 = none) := by
  unfold State.takesCat; decide

theorem wit_ObjectCommands :
    (let fs := [(0x10, 2), (0x14, 9), (0x18, 64)]
     let j := withCmd 3 0x42 fs heldJ
     (on j).takesCat 1 0x42 [1, 2] (cmdAt 3 0x42 fs) (taken j) ∧ firstStatus ((taken j).objectChecks (cmdAt 3 0x42 fs).d [1, 2]) = none ∧
       objectPages (cmdAt 3 0x42 fs).d ≤ (taken j).poolFree ∧ (on j).takesCat 1 0x42 [1] (cmdAt 3 0x42 fs) (taken j) ∧
       firstStatus ((taken j).objectChecks (cmdAt 3 0x42 fs).d [1]) = some .parameterInvalid) ∧
    (let j := withCmd 3 0x43 [(8, 5)] (withObj (objOf 5 9 0) heldJ)
     (on j).takesCat 1 0x43 [] (cmdAt 3 0x43 [(8, 5)]) (taken j) ∧ (taken j).liveObj? 5 = some (objOf 5 9 0) ∧
       (taken j).readOnlyNow = false) ∧
    (let j := withCmd 3 0x43 [(8, 6)] heldJ
     (on j).takesCat 1 0x43 [] (cmdAt 3 0x43 [(8, 6)]) (taken j) ∧ (taken j).liveObj? 6 = none) ∧
    (let fs := [(0x10, 2), (0x14, 5), (0x18, 2097150)]
     let j := withCmd 3 0x44 fs (withObj (objOf 5 9 0) heldJ)
     (on j).takes 1 0x44 (cmdAt 3 0x44 fs) (taken j) ∧ (taken j).liveObj? 5 = some (objOf 5 9 0) ∧
       (taken j).usedByModel 5 = false ∧ (taken j).keyGone = false) ∧
    (let j := withCmd 3 0x45 [(8, 5)] (withObj { objOf 5 9 0 with draining := true } heldJ)
     (on j).takes 1 0x45 (cmdAt 3 0x45 [(8, 5)]) (taken j) ∧ (taken j).obj? 5 = some { objOf 5 9 0 with draining := true } ∧
       (on j).j.objBusy 5 = false) ∧
    (let j := withCmd 3 0x45 [(8, 6)] heldJ
     (on j).takes 1 0x45 (cmdAt 3 0x45 [(8, 6)]) (taken j) ∧ (taken j).obj? 6 = none) ∧
    (let c := { coll3 with draining := true }
     let j := { heldJ with cat := { heldJ.cat with colls := [c] } }
     (on j).j.live = true ∧ (on j).j.coll? 3 = some c ∧ (on j).j.collBusy 3 = false) := by
  unfold State.takesCat State.takes; decide

/-! ### Rings -/

theorem wit_RingCommands :
    (let j := withCmd 3 0x48 ringFields heldJ
     (on j).takesCat 1 0x48 [3, 0] (cmdAt 3 0x48 ringFields) (taken j) ∧
       ringDefBad (taken j) 4 (cmdAt 3 0x48 ringFields).d [3] = none ∧ (taken j).readOnlyNow = false ∧
       (taken j).shapeOf [3] = some (.s8, 8) ∧ (halvesOf [3, 0]).map BitVec.toNat = [3] ∧
       (on j).takesCat 1 0x48 [] (cmdAt 3 0x48 ringFields) (taken j) ∧
       ringDefBad (taken j) 4 (cmdAt 3 0x48 ringFields).d [] = some .ringInvalid) ∧
    (let fs := [(0x10, 8), (0x14, 4)]
     let j := withCmd 3 0x49 fs ((ringed .running heldJ).mapCat fun c => { c with colls := c.colls ++ [{ coll3 with num := 4 }] })
     let op := [4, 0, 0, 0, 0, 0, 0, 0]
     (on j).takesCat 1 0x49 op (cmdAt 3 0x49 fs) (taken j) ∧ (((taken j).ring? 4).bind fun r => r.defn) = some ringDef3 ∧
       (((taken j).ring? 4).any fun r => sweeping r && decide (firstStatus (((taken j).readOnlyNow, .readOnly)
         :: editCheck (taken j) 4 ringDef3 (editEntries op) (pendingColls r)) = none)) = true) ∧
    (let fs := [(0x10, 8), (0x14, 4)]
     let j := withCmd 3 0x49 fs (ringed .stopped heldJ)
     let op := [3, 0, 0, 0, 0, 0, 0, 0x20]
     (on j).takesCat 1 0x49 op (cmdAt 3 0x49 fs) (taken j) ∧ (((taken j).ring? 4).bind fun r => r.defn) = some ringDef3 ∧
       (((taken j).ring? 4).any fun r => !sweeping r && decide (firstStatus (((taken j).readOnlyNow, .readOnly)
         :: editCheck (taken j) 4 ringDef3 (editEntries op) (pendingColls r)) = none)) = true) ∧
    (let j := withCmd 3 0x4A [(0x14, 4)] (ringed .stopped heldJ)
     (on j).takesTurn 1 0x4A (cmdAt 3 0x4A [(0x14, 4)]) (taken j) ∧
       ((taken j).ring? 4).any (fun r => r.phase == .stopped && !r.view.any fun p => ((taken j).plate? p).any fun p => p.lost) ∧
       (taken j).keyGone = false ∧ (taken j).plateSetTier coll3 = .sweep) ∧
    (let j := withCmd 3 0x4A [(0x14, 4)] (ringed .running heldJ)
     (on j).takesTurn 1 0x4A (cmdAt 3 0x4A [(0x14, 4)]) (taken j) ∧
       ((taken j).ring? 4).any fun r => r.phase == .running && r.defn == some ringDef3) ∧
    (let j := withCmd 3 0x4B [(0x14, 4)] (ringed .stopped heldJ)
     (on j).takesTurn 1 0x4B (cmdAt 3 0x4B [(0x14, 4)]) (taken j) ∧
       ((taken j).ring? 4).any fun r => r.phase == .stopped && r.defn == some ringDef3) ∧
    (let j := withCmd 3 0x4B [(0x14, 4)] (ringed .stopping heldJ)
     (on j).takesTurn 1 0x4B (cmdAt 3 0x4B [(0x14, 4)]) (taken j) ∧
       ((taken j).ring? 4).any fun r => r.phase == .stopping && r.defn == some ringDef3) ∧
    (let j := withCmd 3 0x4B [(0x14, 4)] (ringed .running heldJ)
     (on j).takesTurn 1 0x4B (cmdAt 3 0x4B [(0x14, 4)]) (taken j) ∧
       ((taken j).ring? 4).any fun r => r.phase == .running && r.defn == some ringDef3) ∧
    (let j := withCmd 3 0x4B [(0x14, 4)] (ringed .waiting heldJ)
     (on j).takesTurn 1 0x4B (cmdAt 3 0x4B [(0x14, 4)]) (taken j) ∧
       ((taken j).ring? 4).any fun r => r.phase == .waiting && r.defn == some ringDef3) ∧
    (let j := withCmd 3 0x4A [(0x14, 64)] heldJ
     (on j).takesTurn 1 0x4A (cmdAt 3 0x4A [(0x14, 64)]) (taken j) ∧ (taken j).ring? 64 = none) := by
  unfold State.takesCat State.takesTurn; refine ⟨?_, ?_, ?_, ?_, ?_, ?_, ?_, ?_, ?_, ?_⟩ <;> decide

/-! ### Queries and the sweep -/

/-- QUERY_VECTOR on collection 3: one result, an FP32 vector of eight ones at operand offset 0. -/
def queryFields : List (Nat × Nat) := [(4, 3), (0x10, 32), (0x14, 64), (0x24, 1), (0x3B, 1)]

def ones : List Byte := (List.range 8).flatMap fun _ => leBytes 4 0x3F800000

/-- A context of that query in a phase, on ring 4. -/
def ctxAt (p : CtxPhase) : Ctx :=
  { id := 0, ref := ref1, d := (cmdAt 1 0x10 queryFields).d, coll := 3, ring := 4, priority := 3, arrival := 0, phase := p,
    pred := Predicate.empty, model := 0, tokens := [], q32 := [], qbits := [], qtok := [], rvec := [], words := [], floats := [],
    gsum := 0, mu := 0, const := 0, gridGen := 1, clamped := false, row := some 0, epoch := 0, frame := 0, view := [],
    pinned := false, owed := [], list := [], boundary := none, lanes := [], selecting := false, matchCount := 0,
    qualCount := 0, nanCount := 0, specIssued := 0, specTodo := [], alighted := 0, coarse := [], rpos := 0, scored := [],
    probed := 0, pins := [], final := [], reranked := false, payloads := [], vaultPay := false, deferred := false, stretched := false,
    tookCoarse := false, t0 := 0, boardTime := 0, mergeTime := 0, xtag := none, xpeer := none, psn := 0 }

def withCtx (x : Ctx) (j : Jenjor) : Jenjor := { j with sw := { j.sw with ctxs := [x], arrivals := 1 } }

def plateGroup0 : PlateGroup := { ring := 4, pos := 0, pids := [0], skip := [], snap := [], ready := false, recheck := [] }

/-- Cluster 0 serves ring 4; its first group is as given. -/
def grouped (g : Group) (j : Jenjor) : Jenjor :=
  j.mapCluster 0 fun x => { x with home := some 4, groups := [g, idleGroup, idleGroup, idleGroup] }

def running : Jenjor := ringed .running heldJ

/-- An open plate that holds one record. -/
def oneRec : Rec :=
  { occupied := true, key := 1, delta := 0, hasRecord := false, hasPayload := false, tags := 0, range0 := 0, range1 := 0, norm := 0, biasIndex := 0,
    codes := List.replicate 8 0, recOff := 0, recLen := 0, payOff := 0, payLen := 0 }

def entry1 : Entry := { key := 5, user := 1, handle := 0, cluster := 0, hasRecord := false, hasPayload := false, pid := 0, slot := 0 }

theorem wit_VectorQueries :
    (let j := withCmd 1 0x10 queryFields running
     let d := (cmdAt 1 0x10 queryFields).d
     (on j).takesData 1 0x10 (cmdAt 1 0x10 queryFields) (taken j) ∧ firstStatus (queryChecks (taken j) d ones) = none ∧
       firstStatus (queryChecks (taken j) d []) = some .vectorInvalid ∧
       (taken j).liveColl? 3 = some coll3 ∧ (taken j).coll? 3 = some coll3 ∧ (taken j).pairedIn 3 = false ∧
       (taken j).sw.ctxs = [] ∧ partsOf coll3 d = { vec := 0, vecLen := 32, tok := 32, tokLen := 0, rr := 32, rrLen := 0, total := 32 } ∧
       (convert coll3 (widen 1 (bytesAt ones 0 32))).isSome = true ∧
       convert coll3 (List.replicate 8 0x7FC00000) = none) ∧
    (on (withCtx (ctxAt .loading) running)).j.live = true ∧
    (withCtx (ctxAt .loading) running).ctx? 0 = some (ctxAt .loading) := by
  unfold State.takesData; decide

theorem wit_PlateGroupsDealtAndFilled :
    (let j := grouped idleGroup running
     (on j).j.live = true ∧ (j.ring? 4).any (fun r => holdsClusters r && r.passList != [] && takeGroup j r != []
        && inWindow j r ringDef3 && leastLoaded (dealTargets j r ringDef3) == some (0, 0)) = true ∧ j.isl.whole = false) ∧
    (let j := running.mapRing 4 fun r => { r with passPos := 32, view := [] }
     (on j).j.live = true ∧ (j.ring? 4).any (fun r => r.passList != [] && takeGroup j r == []) = true) ∧
    (let j := grouped { idleGroup with fill := some plateGroup0 } running
     (on j).j.live = true ∧ ((j.group? 0 0).bind fun x => x.fill) = some plateGroup0) ∧
    (let pg := { plateGroup0 with recheck := [0] }
     let j := grouped { idleGroup with fill := some pg } running
     (on j).j.live = true ∧ ((j.group? 0 0).bind fun x => x.fill) = some pg ∧ (j.plate? 0).any j.inSweepMemory = true) ∧
    (let pg := { plateGroup0 with recheck := [0] }
     let j := grouped { idleGroup with fill := some pg } (running.mapObj 1 fun o => { o with tier := .vault })
     let k := j.mapPlate 0 fun p => { p with sealed_ := true }
     (on k).j.live = true ∧ ((k.group? 0 0).bind fun x => x.fill) = some pg ∧ (k.plate? 0).any k.inSweepMemory = false) ∧
    (let j := grouped idleGroup running
     let k := (j.mapRing 4 fun r => { r with defn := some { ringDef3 with alt := some 5 } }).mapRing 5 fun r =>
       { r with defn := some ringDef3, phase := .running, view := List.range 32, passList := List.range 32, pgSize := 1 }
     (on k).j.live = true ∧ mayServe k 0 0 5 = true ∧ (k.ring? 5).any (fun r => holdsClusters r && takeGroup k r != []
        && inWindow k r ringDef3) = true) := by
  decide

theorem wit_GroupsFlipAndDrain :
    (let pg := { plateGroup0 with ready := true }
     let j := grouped { idleGroup with fill := some pg } running
     (on j).j.live = true ∧ (j.group? 0 0).any (fun x => x.fill == some pg && x.drained) = true ∧ inPass j pg = true ∧
       (j.cluster? 0).any (fun y => !y.retiring && y.home == some 4) = true) ∧
    (let pg := { plateGroup0 with ready := true, pos := 32 }
     let j := grouped { idleGroup with fill := some pg } running
     (on j).j.live = true ∧ (j.group? 0 0).any (fun x => x.fill == some pg && x.drained) = true ∧ inPass j pg = false) ∧
    (let pg := { plateGroup0 with ready := true, snap := [{ plate0 with recs := [oneRec] }] }
     let x := { idleGroup with compute := some pg, enabled := [9] }
     let j := grouped x running
     (on j).j.live = true ∧ j.group? 0 0 = some x ∧ x.drained = false ∧ (pg.snap.all fun p => (recordPairs j x p).isEmpty) = true ∧ x.banks = [] ∧ x.batch < pg.batches ∧
       (j.cluster? 0).any (fun y => y.admq.length ≤ 16384 && !y.retiring && y.home == some 4) = true ∧
       (j.ring? 4).any (fun r => r.defn == some ringDef3) = true) := by
  decide

theorem wit_BoundariesAndPlateLoss :
    (let j := ringed .stopped heldJ
     (on j).j.live = true ∧ (j.ring? 4).any (fun r => !holdsClusters r) = true) ∧
    (let j := (ringed .stopping heldJ).mapRing 4 fun r => { r with passList := [] }
     (on j).j.live = true ∧ (j.ring? 4).any (fun r => r.passList.isEmpty && !stopSettles j r) = true) ∧
    (let j := (ringed .stopping heldJ).mapRing 4 fun r => { r with view := [], passList := [] }
     (on j).j.live = true ∧ (j.ring? 4).any (fun r => r.num == 4 && r.phase == .stopping && r.view.isEmpty) = true ∧
       j.ridersOf 4 = [] ∧ j.alm.reloads = [] ∧ (j.sw.rings.all fun r => r.switches == []) = true) ∧
    (let j := (ringed .stopping heldJ).mapRing 4 fun r => { r with passPos := 32 }
     (on j).j.live = true ∧ (j.ring? 4).any (fun r => r.phase == .stopping && r.passList != [] && passFinished j r) = true
       ∧ j.ridersOf 4 = [] ∧ j.alm.reloads = []) ∧
    (let j := (ringed .running heldJ).mapRing 4 fun r => { r with passPos := 32 }
     (on j).j.live = true ∧ (j.ring? 4).any (fun r => r.phase == .running && r.passList != [] && passFinished j r) = true
       ∧ j.sw.ctxs = [] ∧ j.alm.reloads = [] ∧ (j.sw.rings.all fun r => r.starter == none && r.switches == []) = true) ∧
    (on running).j.live = true ∧
    (running.ring? 4).any (fun r => r.view != [] && !running.covers r ringDef3 && !r.stretched && r.defn == some ringDef3) = true ∧
    (running.plate? 0).isSome = true ∧ running.sw.ctxs = [] ∧
    (let j := running.mapPlate 0 fun p => { p with quarantined := true }
     (on j).j.live = true ∧ (j.plate? 0).any (fun p => p.quarantined) = true) ∧
    heldJ.live = true ∧ (heldJ.plate? 0).isSome = true ∧ heldJ.cpn.pair.pairState = .unpaired ∧ ringsHolding heldJ 0 = [] := by
  decide

theorem wit_SelectionAndMerge :
    (let j := (withCtx { ctxAt .riding with d := (cmdAt 1 0x10 [(0x24, 8)]).d } running).mapCluster 0 fun y => { y with admq := [(0, entry1)] }
     j.live = true ∧ (j.cluster? 0).any (fun y => y.specq.length < 1024
        && (y.admq.find? fun e => (j.ctx? e.1).all fun x => !x.selecting) == some (0, entry1)) = true ∧
       (j.ctx? 0).any (fun x => x.boundary == none && x.list.length + 1 < 4096 && x.list.length + 1 != selectDepth x.d
          && (j.coll? x.coll).isSome) = true) ∧
    (let j := (withCtx { ctxAt .riding with boundary := some (6, 1) } running).mapCluster 0 fun y => { y with admq := [(0, entry1)] }
     j.live = true ∧ (j.ctx? 0).any (fun x => x.boundary == some (6, 1)) = true ∧
       ranksBefore (fpKeys coll3) entry1.rank (6, 1) = false) ∧
    (let j := withCtx { ctxAt .riding with list := [entry1, entry1], selecting := true } running
     j.live = true ∧ (j.ctx? 0).any (fun x => x.selecting) = true) ∧
    (let j := withCtx { ctxAt .riding with boundary := some (5, 1) } running
     j.live = true ∧ (j.ctx? 0).any (fun x => x.boundary == some (5, 1)) = true) ∧
    (let j := withCtx (ctxAt .alighting) running
     j.live = true ∧ (j.ctx? 0).any (fun x => x.phase == .alighting && !x.selecting) = true ∧
       (j.sw.clusters.all fun c => c.admq == []) = true) ∧
    (let j := withCtx (ctxAt .merging) running
     j.live = true ∧ (j.ctx? 0).any (fun x => x.phase == .merging && qRerank x.d == 0 && !qPayloads x.d) = true ∧
       (j.coll? 3).isSome = true ∧ j.degraded = false) ∧
    (let j := withCtx { ctxAt .merging with d := (cmdAt 1 0x10 [(0x34, 4)]).d } running
     j.live = true ∧ (j.ctx? 0).any (fun x => x.phase == .merging && qRerank x.d != 0) = true ∧ j.degraded = false) := by
  decide

/-! ### Reranks, results, queues -/

def rerankD : Desc := (cmdAt 1 0x10 ((0x34, 4) :: queryFields)).d

def withCache (j : Jenjor) : Jenjor := { j with spg := { j.spg with cachePages := [(0, 0)] } }

def read7 : PageRead := { page := 7, demand := true, waiters := [] }

def qp5 : Qp :=
  { num := 5, port := 0, state := .established, bound := [1], mtu := 4096, route := false, mergeIn := false, rtuAt := 0, psn := 0,
    unacked := 0, retries := 0, rateMbps := 0, lastCnp := none, connector := none }

def wait0 : Waiting := { id := 0, ref := ref1, status := .success, v0 := 1, v1 := 2, len := some 48, flush := true, qpn := 0, psn := 0 }

def setQueue (q : Queue) (j : Jenjor) : Jenjor := { j with qs := { j.qs with queues := [queueZero, q] } }

theorem wit_RerankAndRecordCache :
    (let x := { ctxAt .riding with d := rerankD }
     let j := (withCache (withCtx x running)).mapCluster 0 fun y => { y with specq := [(0, false, entry1)] }
     j.live = true ∧ (j.cluster? 0).map (fun y => y.specq) = some [(0, false, entry1)] ∧ j.ctx? 0 = some x ∧ (j.sw.ctxs.all fun y => y.specTodo == []) = true ∧
       j.coll? x.coll = some coll3 ∧ j.degraded = false ∧ j.hasLine = true ∧ recordPages j coll3 entry1 = []) ∧
    (let x := { ctxAt .rerankWait with d := rerankD }
     let j := withCtx x running
     j.live = true ∧ j.spg.cores.length = 4 ∧ j.spg.cores.getD 3 none = none ∧ 3 < j.coresStarting ∧ j.isl.whole = false ∧
       j.nextRerank = some x ∧ j.ctx? x.id = some x ∧ j.degraded = false ∧ qRerank x.d = 1) ∧
    (let j : Jenjor := { withCache running with spg := { (withCache running).spg with reads := [read7] } }
     j.live = true ∧ (j.spg.reads.find? fun r => r.page == 7) = some read7 ∧ j.hasLine = true) ∧
    (let x := { ctxAt (.reranking 2) with d := rerankD }
     let j : Jenjor := { withCtx x running with spg := { running.spg with cores := [none, none, some 0, none] } }
     j.live = true ∧ j.spg.cores.getD 2 none = some 0 ∧ j.ctx? 0 = some x ∧ x.vaultPay = false ∧ x.coarse.length ≤ x.rpos) ∧
    (let x := { ctxAt (.reranking 2) with d := rerankD, vaultPay := true }
     let j : Jenjor := { withCtx x running with spg := { running.spg with cores := [none, none, some 0, none] } }
     j.live = true ∧ j.spg.cores.getD 2 none = some 0 ∧ j.ctx? 0 = some x ∧ x.coarse.length ≤ x.rpos) ∧
    (let x := { ctxAt .rerankWait with vaultPay := true }
     let j := withCtx x running
     j.live = true ∧ j.nextRerank = some x ∧ j.ctx? x.id = some x ∧ qRerank x.d = 0) ∧
    (let j := withCtx (ctxAt .rerankWait) running
     j.live = true ∧ j.ctx? 0 = some (ctxAt .rerankWait)) := by
  decide

theorem wit_ResultsDelivered :
    (let j := setQueue (queue1 1) (withCtx (ctxAt .delivering) running)
     let x := ctxAt .delivering
     j.live = true ∧ j.ctx? 0 = some x ∧ j.coll? 3 = some coll3 ∧ qPayloads x.d = false ∧ qRange x.d = false ∧
       j.queue? 1 = some (queue1 1) ∧ qDelivery x.d = 0 ∧ x.ref.gen = j.lnk.resets) ∧
    (let x := { ctxAt .delivering with d := (cmdAt 1 0x10 ((0x3C, 2) :: queryFields)).d }
     let d := { queueZero with num := 2, kind := 4, roce := true, qpn := 5 }
     let j0 := withCtx x running
     let j : Jenjor := { j0 with qs := { j0.qs with queues := [queueZero, queue1 1, d] }, lnk := { j0.lnk with qps := [qp5] } }
     j.live = true ∧ j.ctx? 0 = some x ∧ qPayloads x.d = false ∧ j.queue? 1 = some (queue1 1) ∧ qDelivery x.d = 2 ∧
       j.queue? 2 = some d ∧ j.qpAlive 5 = true) ∧
    (let q := { queue1 1 with roce := true, qpn := 5 }
     let j0 := setQueue q (withCtx (ctxAt .delivering) running)
     let j : Jenjor := { j0 with lnk := { j0.lnk with qps := [qp5] } }
     j.live = true ∧ j.ctx? 0 = some (ctxAt .delivering) ∧ j.queue? 1 = some q ∧ j.qpAlive 5 = true) ∧
    (let j := setQueue (queue1 1) (withCtx (ctxAt .flushing) running)
     let k : Jenjor := { j with qs := { j.qs with waits := [wait0] } }
     k.live = true ∧ (k.qs.waits.find? fun w => w.id == 0 && w.flush) = some wait0) ∧
    (let q := { queue1 1 with irqCount := 2, vector := 3 }
     let j := (setQueue q running).setMsix 3 { addr := 64, data := 1, masked := false, pending := false }
     j.live = true ∧ j.queue? 1 = some q ∧ 3 < j.lnk.vectors ∧ (j.msixEntry 3).masked = false ∧ (j.msixEntry 3).addr = 64 ∧
       ((setQueue q running).msixEntry 3).masked = true) ∧
    (let j := withCtx (ctxAt .riding) running
     j.live = true ∧ j.ctx? 0 = some (ctxAt .riding) ∧ lifetimeApplies (ctxAt .riding) = true ∧ (ctxAt .riding).xtag = none) := by
  decide

/-- Queue 1 announces one descriptor. -/
def announcing (kind : Nat) : Queue := { queue1 kind with sqTail := 1, inflight := [] }

/-- QUEUE_CREATE of query queue 9 on PCIe, 16 deep both ways, vector 2. -/
def queueFields : List (Nat × Nat) := [(8, 4096), (0x10, 8192), (0x18, 9), (0x1A, 1), (0x1C, 16), (0x1E, 16), (0x20, 2)]

/-- The same on RoCEv2, queue pair 5, with 64 KiB of staging. -/
def roceFields : List (Nat × Nat) := [(0x10, 8192), (0x18, 9), (0x1A, 1), (0x1B, 1), (0x1C, 16), (0x1E, 16), (0x26, 1), (0x28, 5)]

def linkUp (j : Jenjor) : Jenjor := { j with lnk := { j.lnk with endpointUp := true, qps := [{ qp5 with bound := [] }] } }

theorem wit_QueuesCreatedFetchedDeleted :
    (let j : Jenjor := setQueue (announcing 3) running
     j.live = true ∧ j.arbitrate = some (announcing 3) ∧ j.queue? 1 = some (announcing 3) ∧
       (j.qs.queues.all fun x => !x.deleting) = true ∧
       stage1 3 [] j.dom.tenant (desc [(0, 0x45), (2, 7)]) = none ∧
       stage1 3 [] j.dom.tenant (desc [(0, 0x77), (2, 7)]) = some .opcodeInvalid ∧
       stage1 3 [] j.dom.tenant (desc [(0, 0x52), (2, 7), (8, 9)]) = none ∧ j.fetchCount (announcing 3) = 1) ∧
    (let q := { announcing 3 with roce := true, qpn := 5, ringAddr := 4096 }
     let j := linkUp (setQueue q running)
     j.live = true ∧ j.arbitrate = some q ∧ j.queue? 1 = some q ∧
       ringDescs [(4096, 0x45)] q (j.fetchCount q) = [desc [(0, 0x45)]]) ∧
    running.arbitrate = none ∧
    (let j := withCmd 3 0x51 queueFields running
     (on j).takes 1 0x51 (cmdAt 3 0x51 queueFields) (taken j) ∧
       firstStatus (queueChecks (taken j) (cmdAt 3 0x51 queueFields).d) = none) ∧
    (let j := linkUp (withCmd 3 0x51 roceFields running)
     (on j).takes 1 0x51 (cmdAt 3 0x51 roceFields) (taken j) ∧
       firstStatus (queueChecks (taken j) (cmdAt 3 0x51 roceFields).d) = none ∧
       ringPages (cmdAt 3 0x51 roceFields).d ≤ (taken j).poolFree) ∧
    (let fs := [(0x18, 9), (0x1A, 4), (0x1B, 1), (0x28, 5)]
     let j := linkUp (withCmd 3 0x51 fs running)
     (on j).takes 1 0x51 (cmdAt 3 0x51 fs) (taken j) ∧
       firstStatus (queueChecks (taken j) (cmdAt 3 0x51 fs).d) = none) ∧
    (let j := withCmd 3 0x51 [(0x18, 0)] running
     (on j).takes 1 0x51 (cmdAt 3 0x51 [(0x18, 0)]) (taken j) ∧
       firstStatus (queueChecks (taken j) (cmdAt 3 0x51 [(0x18, 0)]).d) = some .parameterInvalid) ∧
    (let j0 := withCmd 3 0x52 [(8, 9)] running
     let x := { queue1 1 with num := 9, inflight := [] }
     let j : Jenjor := { j0 with qs := { j0.qs with queues := j0.qs.queues ++ [x] } }
     (on j).takes 1 0x52 (cmdAt 3 0x52 [(8, 9)]) (taken j) ∧ (taken j).queue? 9 = some x ∧
       ((taken j).qs.queues.all fun y => y.num == 9 || !y.deleting) = true ∧ (taken j).qs.fetched = [] ∧ (taken j).sw.ctxs = [] ∧
       (taken j).queue? 1 = some (queue1 3) ∧ ref1.gen = (taken j).lnk.resets) ∧
    (let j := withCmd 3 0x52 [(8, 0)] running
     (on j).takes 1 0x52 (cmdAt 3 0x52 [(8, 0)]) (taken j)) ∧
    (let a : Alloc := { id := 4, what := .queueCreate (cmdAt 3 0x51 roceFields), since := 0, failed := true }
     let j := (linkUp running).mapCat fun c => { c with allocs := [a] }
     j.live = true ∧ (j.cat.allocs.find? fun a => a.id == 4) = some a ∧
       firstStatus (queueChecks j (cmdAt 3 0x51 roceFields).d) = none ∧ ringPages (cmdAt 3 0x51 roceFields).d ≤ j.poolFree ∧
       firstStatus (queueChecks running (cmdAt 3 0x51 roceFields).d) = some .parameterInvalid) := by
  unfold State.takes; refine ⟨?_, ?_, ?_, ?_, ?_, ?_, ?_, ?_, ?_, ?_⟩ <;> decide

theorem wit_DoorbellsAdminQueueVectors :
    (let q := { queue1 1 with cqTail := 2 }
     let j := linkUp (setQueue q running)
     j.live = true ∧ j.barsOpen = true ∧ 7 ≤ j.alm.step ∧ j.queue? 1 = some q ∧ q.kind ≠ 4 ∧ 3 < q.sqDepth ∧ q.sqDepth ≤ 4 ∧
       q.fault = 0 ∧ (2 + q.cqDepth - q.cqHead) % q.cqDepth ≤ unconsumed q) ∧
    (let q := { queue1 1 with cqTail := 2, roce := true, qpn := 5 }
     let j := linkUp (setQueue q running)
     j.live = true ∧ j.queue? 1 = some q ∧ j.qpAlive 5 = true ∧ (2 + q.cqDepth - q.cqHead) % q.cqDepth ≤ unconsumed q) ∧
    (let j0 := linkUp running
     let j : Jenjor := { j0 with qs := { j0.qs with aqSqBase := 4096, aqCqBase := 8192, aqSqDepth := 16, aqCqDepth := 4096 } }
     j.live = true ∧ j.lnk.endpointUp = true ∧ j.lnk.pcieDown = false ∧ j.alm.step = 8 ∧ j.qs.aqEnable = false ∧
       depthOk j.qs.aqSqDepth.toNat = true ∧ depthOk j.qs.aqCqDepth.toNat = true ∧ j.qs.aqVector.toNat < j.lnk.vectors ∧
       j0.qs.aqSqBase = 0) ∧
    (let j0 := linkUp running
     let j : Jenjor := { j0 with qs := { j0.qs with aqEnable := true, aqReady := true } }
     j.live = true ∧ j.qs.aqEnable = true ∧ j.queue? 0 = some queueZero ∧ queueZero.inflight = []) ∧
    (let j := running.setMsix 5 { addr := 64, data := 1, masked := true, pending := true }
     j.live = true ∧ 5 < j.lnk.vectors ∧ (j.msixEntry 5).pending = true ∧ (j.msixEntry 5).addr = 64) ∧
    (let j : Jenjor := { running with lnk := { running.lnk with vectors := 64 } }
     j.live = true ∧ j.lnk.vectors ≤ 64) := by
  decide

/-! ### Writes, commits and upkeep -/

/-- INSERT of key 5 with an FP32 vector. -/
def insertFields : List (Nat × Nat) := [(4, 3), (8, 5), (0x18, 32), (0x1C, 1)]

def plane0 : BiasPlane :=
  { published := [], other := [], frame := 1, phase := .accumulating, hold := [], dirty := true, peerDone := false,
    doneSent := false, inStore := false }

/-- Collection 3 as given, with 32 plates. -/
def holding (c : Coll) : Jenjor := heldJ.mapCat fun k => { k with colls := [c] }

/-- The journal entry of that insert. -/
def entry0 : JEntry :=
  { jr := journalRecord coll3 (cmdAt 2 0x20 insertFields).d ones 1, ref := ref1, visible := false, localDurable := false,
    peerDurable := false, acked := false, completed := false, waiting := false, programmed := false, epoch := none,
    published := false, discarded := false, touched := [], touchedBias := false }

def journaled (e : JEntry) (j : Jenjor) : Jenjor := { j with wr := { j.wr with journal := [e], nextSeq := 2 } }

theorem wit_WritesAccepted :
    acceptable (on (withCmd 2 0x20 insertFields heldJ)) 1 0x20 (cmdAt 2 0x20 insertFields)
      (taken (withCmd 2 0x20 insertFields heldJ)) ones coll3 ∧
    (let c := { coll3 with accepted := [5] }
     acceptable (on (withCmd 2 0x21 insertFields (holding c))) 1 0x21 (cmdAt 2 0x21 insertFields)
       (taken (withCmd 2 0x21 insertFields (holding c))) ones c ∧
     acceptable (on (withCmd 2 0x22 [(4, 3), (8, 5)] (holding c))) 1 0x22 (cmdAt 2 0x22 [(4, 3), (8, 5)])
       (taken (withCmd 2 0x22 [(4, 3), (8, 5)] (holding c))) [] c) ∧
    (let c := { coll3 with bias := some plane0 }
     let fs := [(4, 3), (0x18, 8), (0x34, 1), (0x36, 1)]
     acceptable (on (withCmd 2 0x23 fs (holding c))) 1 0x23 (cmdAt 2 0x23 fs) (taken (withCmd 2 0x23 fs (holding c)))
       [0, 0, 0, 0, 0, 0, 0x80, 0x3F] c ∧
     acceptable (on (withCmd 2 0x24 [(4, 3)] (holding c))) 1 0x24 (cmdAt 2 0x24 [(4, 3)])
       (taken (withCmd 2 0x24 [(4, 3)] (holding c))) [] c) ∧
    ([0x20, 0x21, 0x22, 0x23, 0x24].all fun op =>
      let j := taken (withCmd 2 op [] heldJ)
      (on (withCmd 2 op [] heldJ)).j.live && decide ((withCmd 2 op [] heldJ).takeData 1 op = some (cmdAt 2 op [], j)) &&
        !j.secondary && decide (j.writeRefused (cmdAt 2 op []).d [] = some .unknownCollection)) = true ∧
    (let full := { heldJ with wr := { heldJ.wr with stopped := true } }
     let j := withCmd 2 0x20 insertFields full
     (on j).takesData 1 0x20 (cmdAt 2 0x20 insertFields) (taken j) ∧ (taken j).secondary = false ∧
       j.acceptWaits (cmdAt 2 0x20 insertFields) ones = true) ∧
    (let second := { heldJ with cpn := { heldJ.cpn with pair := { heldJ.cpn.pair with pairState := .paired } } }
     [0x20, 0x21, 0x22, 0x23, 0x24, 0x25].all (fun op =>
       let j := withCmd 2 op [] second
       j.live && decide (j.takeData 1 op = some (cmdAt 2 op [], taken j)) && (taken j).secondary) = true) ∧
    (let j := withCmd 2 0x25 [] heldJ
     (on j).takesData 1 0x25 (cmdAt 2 0x25 []) (taken j) ∧ (taken j).secondary = false ∧ (taken j).wr.fences = [] ∧
       (taken j).wr.journal = []) ∧
    (let j := withCmd 2 0x25 [] (journaled entry0 heldJ)
     (on j).takesData 1 0x25 (cmdAt 2 0x25 []) (taken j) ∧ (taken j).secondary = false ∧ (taken j).wr.fences = [] ∧
       (taken j).wr.journal = [entry0] ∧ entry0.ref.q = ref1.q ∧ entry0.ref.tag = none) := by
  unfold acceptable State.takesData
  refine ⟨?_, ?_, ?_, ?_, ?_, ?_, ?_, ?_⟩ <;> decide

theorem wit_JournalAndCommits :
    (let j := journaled entry0 heldJ
     j.live = true ∧ (j.wr.journal.find? fun e => e.jr.seq == 1) = some entry0 ∧ 1 ∉ j.wr.buffer ∧
       j.bufferBytes + entry0.jr.bytes ≤ 33554432 ∧ j.vlt.holdupWeak = false ∧ j.mirrored = false ∧ j.cpn.pair.solo = false ∧
       j.syncPaired = false) ∧
    (let j : Jenjor := { journaled entry0 heldJ with vlt := { heldJ.vlt with holdupWeak := true } }
     j.live = true ∧ j.bufferBytes + entry0.jr.bytes ≤ 33554432 ∧ j.vlt.holdupWeak = true) ∧
    (let j0 := journaled entry0 heldJ
     let j : Jenjor := { j0 with wr := { j0.wr with buffer := [1] } }
     j.live = true ∧ (j.wr.journal.find? fun e => e.jr.seq == 1) = some entry0 ∧ 1 ∈ j.wr.buffer) ∧
    (heldJ.live = true ∧ heldJ.wr.journal = [] ∧ heldJ.wr.commits = []) ∧
    (let e := { entry0 with localDurable := true }
     let j := journaled e heldJ
     j.live = true ∧ j.formsCommits = true ∧ j.mirroring = false ∧ j.durable e = true ∧ j.mustWait Forming.empty e = false) ∧
    (let e := { entry0 with localDurable := true, epoch := some 1 }
     let cm : Commit := { epoch := 1, seqs := [1], waited := false, peerAck := false }
     let j0 := journaled e heldJ
     let j : Jenjor := { j0 with wr := { j0.wr with commits := [cm] } }
     let p := { plate0 with pid := 0, num := 0 }
     j.live = true ∧ j.mayPublish cm = true ∧ j.liveEntries cm = [e] ∧ e.jr.op = .insert ∧ j.coll? e.jr.coll = some coll3 ∧
       1 ≤ j.freeSlots coll3 ∧ j.appendsReady [e] [e.jr.coll] = true ∧ j.slewHeld e = false ∧ j.cat.recals = [] ∧ j.targetPlate coll3 = some p ∧
       j.plate? p.pid = some p) ∧
    (let e := { entry0 with waiting := true }
     let j := journaled e heldJ
     j.live = true ∧ (j.wr.journal.find? fun e => e.jr.seq == 1) = some e ∧ (j.wr.journal.all fun x => 1 ≤ x.jr.seq) = true ∧
       j.mustWait Forming.empty e = false) := by
  decide

theorem wit_PlateAndBiasUpkeep :
    (heldJ.live = true ∧ (heldJ.plate? 0).any (fun p => p.present && !p.lost && p.dirtyData) = true) ∧
    (let c := { coll3 with bias := some plane0, hdrLog := [0] }
     let j := holding c
     j.live = true ∧ j.coll? 3 = some c) ∧
    (let p := { plate0 with recs := List.replicate 4 oneRec, sealed_ := true, tomb := [0, 1], settled := [0, 1, 2, 3] }
     let c := { coll3 with dim := 4096, sidecar := .full }
     let j0 := (holding c).mapCat fun k => { k with plates := [p] }
     let j : Jenjor := { j0 with wr := { j0.wr with replatePct := 1 } }
     let ps := [0].filterMap j.plate?
     j.live = true ∧ ps = [p] ∧ j.liveColl? 3 = some c ∧ sourceable p = true ∧ j.needsReclaim c p = true ∧ j.cat.recals = [] ∧
       (let repl := j.replacements c ps
        j.inFlightPlates + repl.length ≤ 64 ∧ ceilDiv (j.plateBytes c repl) 2097152 ≤ j.poolFree)) ∧
    (let rp : Replating := { id := 7, coll := 3, cause := .reclaim, sources := [0], repl := [], base := 0, ready := false }
     let j := running.mapCat fun k => { k with replatings := [rp] }
     j.live = true ∧ (j.cat.replatings.find? fun r => r.id == 7 && !r.ready) = some rp ∧
       (j.ringOf 3).map (fun r => r.num) = some 4 ∧ (j.ring? 4).any sweeping = true ∧ j.ring? 4 = j.ringOf 3) ∧
    (let j := heldJ.mapPlate 0 fun p => { p with retiring := true }
     j.live = true ∧ (j.plate? 0).any (fun p => p.retiring) = true ∧ j.plateHeld 0 = false) ∧
    (let c := { coll3 with bias := some { plane0 with phase := .draining } }
     let j := holding c
     j.live = true ∧ j.coll? 3 = some c ∧ j.holdsOldFrame 3 1 = false ∧ j.pairedIn 3 = false ∧
       (let k := { j with cpn := { j.cpn with pair := { j.cpn.pair with pairState := .paired, mode := 3 } } }
        k.pairedIn 3 = true ∧ k.holdsOldFrame 3 1 = false)) := by
  decide

/-! ### Tiers -/

def slew5 (started : Bool) (cause : SlewFor) : Slew :=
  { obj := 5, dest := .sweep, pages := 1, started := started, pendingGranules := [], held := false, cause := cause, order := 0 }

def withSlews (l : List Slew) (j : Jenjor) : Jenjor := j.mapCat fun c => { c with slews := l }

/-- Object 5, of the kind and tier given, of one page. -/
def obj5 (kind : Nat) (t : Tier) : Obj := { objOf 5 kind (if kind = 2 then 3 else 0) with tier := t, base := 2097152 }

def photoJ : Jenjor := { heldJ with place := { photometric := true, promoteMin := 64 } }

theorem wit_PlacementAndSlews :
    (let fs := [(8, 5), (0xC, 3)]
     let j := withCmd 3 0x46 fs (withObj (obj5 2 .vault) heldJ)
     (on j).takesCat 1 0x46 [] (cmdAt 3 0x46 fs) (taken j) ∧ firstStatus ((taken j).placeChecks (cmdAt 3 0x46 fs).d) = none ∧
       (taken j).obj? 5 = some (obj5 2 .vault)) ∧
    (let fs := [(8, 5), (0xC, 2)]
     let j := withCmd 3 0x46 fs (withObj (obj5 2 .vault) heldJ)
     (on j).takesCat 1 0x46 [] (cmdAt 3 0x46 fs) (taken j) ∧ firstStatus ((taken j).placeChecks (cmdAt 3 0x46 fs).d) = none ∧
       (taken j).obj? 5 = some (obj5 2 .vault)) ∧
    (let fs := [(8, 6), (0xC, 2)]
     let j := withCmd 3 0x46 fs heldJ
     (on j).takesCat 1 0x46 [] (cmdAt 3 0x46 fs) (taken j) ∧
       firstStatus ((taken j).placeChecks (cmdAt 3 0x46 fs).d) = some .unknownObject) ∧
    (let fs := [(4, 3), (8, 1)]
     let j := withCmd 3 0x47 fs photoJ
     (on j).takesCat 1 0x47 [] (cmdAt 3 0x47 fs) (taken j) ∧ (taken j).liveColl? 3 = some coll3 ∧
       ((taken j).sw.rings.all fun r => r.defn.isNone) = true ∧ (taken j).place.photometric = true ∧
       (taken j).readOnlyNow = false ∧ (taken j).keyGone = false ∧ (taken j).plateSetTier coll3 = .sweep ∧
       (taken j).vaultFits ((taken j).uncopied 3 * stripesOf 262144) = true) ∧
    (let c := { coll3 with deep := true }
     let fs := [(4, 3), (8, 1)]
     let j := withCmd 3 0x47 fs (photoJ.mapCat fun k => { k with colls := [c] })
     (on j).takesCat 1 0x47 [] (cmdAt 3 0x47 fs) (taken j) ∧ (taken j).liveColl? 3 = some c) ∧
    (let c := { coll3 with deep := true }
     let fs := [(4, 3)]
     let j := withCmd 3 0x47 fs (photoJ.mapCat fun k => { k with colls := [c] })
     (on j).takesCat 1 0x47 [] (cmdAt 3 0x47 fs) (taken j) ∧ (taken j).liveColl? 3 = some c ∧
       (taken j).plateSetTier c = .sweep) ∧
    (let w := slew5 false .photometric
     let j := withSlews [w] (withObj (obj5 2 .vault) heldJ)
     j.live = true ∧ j.nextSlew = some w ∧ j.slewsInFlight < 8 ∧ j.obj? 5 = some (obj5 2 .vault) ∧
       j.promotePages (obj5 2 .vault) w.dest ≤ j.poolFree) ∧
    (let w := slew5 false .photometric
     let j := withSlews (w :: (List.range 8).map fun n => { slew5 true .photometric with obj := 10 + n }) (withObj (obj5 2 .vault) heldJ)
     j.live = true ∧ j.nextSlew = some w ∧ 8 ≤ j.slewsInFlight) ∧
    (let w := slew5 true .photometric
     let j := withSlews [w] (withObj (obj5 2 .vault) heldJ)
     j.live = true ∧ j.movingSlew 5 = some w ∧ w.pendingGranules.length ≤ 16 ∧ j.obj? 5 = some (obj5 2 .vault) ∧
       w.dest ≠ .vault ∧ j.wr.journal = [] ∧ j.wr.stopped = false ∧ j.wr.region = 0) ∧
    (let w := { slew5 true .photometric with pendingGranules := List.range 17 }
     let j := withSlews [w] (withObj (obj5 2 .vault) heldJ)
     j.live = true ∧ j.movingSlew 5 = some w ∧ 16 < w.pendingGranules.length ∧ w.held = false) ∧
    (heldJ.live = true ∧ heldJ.place.photometric = false) := by
  unfold State.takesCat
  refine ⟨?_, ?_, ?_, ?_, ?_, ?_, ?_, ?_, ?_, ?_, ?_⟩ <;> decide

theorem wit_TileRegions :
    (let fs := [(0x10, 16), (0x14, 5), (0x18, 1), (0x19, 1), (0x1A, 1)]
     let j := withCmd 5 0x50 fs (withObj (obj5 8 .sweep) heldJ)
     (on j).takes 1 0x50 (cmdAt 5 0x50 fs) (taken j) ∧ (taken j).region? 5 = some (obj5 8 .sweep) ∧
       firstStatus ((taken j).atomicChecks (cmdAt 5 0x50 fs).d (leBytes 8 4 ++ leBytes 8 3)) = none ∧
       (taken j).mem.poison = [] ∧ (taken j).heldBySlew 5 = false ∧
       (withSlews [{ slew5 true .photometric with held := true }] j).heldBySlew 5 = true) ∧
    (Memory.wf [(5, 0xFF)] = true ∧ (3 : Nat) < 2 ^ (8 * 4) ∧ 2 ^ 64 - 1 < 2 ^ (8 * 8)) ∧
    (let fs := [(0x10, 5), (0x18, 1)]
     let j := fun op => withCmd 5 op fs (withObj (obj5 8 .sweep) heldJ)
     (on (j 0x30)).takes 1 0x30 (cmdAt 5 0x30 fs) (taken (j 0x30)) ∧ (on (j 0x31)).takes 1 0x31 (cmdAt 5 0x31 fs) (taken (j 0x31)) ∧
       (on (j 0x32)).takes 1 0x32 (cmdAt 5 0x32 fs) (taken (j 0x32)) ∧ (on (j 0x33)).takes 1 0x33 (cmdAt 5 0x33 fs) (taken (j 0x33)) ∧
       Memory.wf (on (j 0x30)).mem = true ∧ (taken (j 0x30)).region? 5 = some (obj5 8 .sweep) ∧
       firstStatus ((taken (j 0x30)).tileChecks (cmdAt 5 0x30 fs).d) = none ∧ (taken (j 0x30)).mem.poison = []) ∧
    (let fs := [(0x10, 5), (0x18, 1), (0x14, 1)]
     let j := fun op => withCmd 5 op fs (withObj (obj5 8 .sweep) heldJ)
     (on (j 0x30)).takes 1 0x30 (cmdAt 5 0x30 fs) (taken (j 0x30)) ∧
       firstStatus ((taken (j 0x30)).tileChecks (cmdAt 5 0x30 fs).d) = some .addressInvalid) := by
  unfold State.takes
  refine ⟨?_, ?_, ?_, ?_⟩ <;> decide

def calibFields : List (Nat × Nat) := [(4, 3), (0x10, 64), (0x14, 1), (0x18, 1)]

/-- Low 0 and width 1 of eight dimensions. -/
def calibOp : List Byte := (List.range 8).flatMap fun _ => leBytes 4 0 ++ leBytes 4 0x3F800000

def calib0 : Calib :=
  { ref := ref1, coll := 3, fromStore := false, stride := 1, params := calibPairs calibOp, addr := 0, rkey := 0, view := [],
    epochStart := 0, gridA := [], gridB := [], gridGen := 1 }

def recal0 : Recal :=
  { ref := ref1, seq := 1, coll := 3, fromStore := false, gridA := [], gridB := [], twins := [], fromCodes := 0, staged := false }

theorem wit_CalibrationAndRecalibration :
    (let j := withCmd 5 0x4E calibFields heldJ
     (on j).takes 1 0x4E (cmdAt 5 0x4E calibFields) (taken j) ∧ firstStatus ((taken j).calibChecks (cmdAt 5 0x4E calibFields).d calibOp) = none ∧
       (taken j).liveColl? 3 = some coll3 ∧ (taken j).cat.calib = none ∧ (taken j).cat.calibQueue = []) ∧
    (let j := heldJ.mapCat fun c => { c with calib := some calib0 }
     j.live = true ∧ j.cat.calib = some calib0 ∧ j.coll? 3 = some coll3 ∧ j.cat.calibQueue = []) ∧
    (let fs := [(4, 3), (0x10, 64), (0x14, 1)]
     let j := withCmd 3 0x4F fs heldJ
     (on j).takesCat 1 0x4F unitGrid (cmdAt 3 0x4F fs) (taken j) ∧ firstStatus ((taken j).recalChecks (cmdAt 3 0x4F fs).d unitGrid) = none ∧
       (taken j).liveColl? 3 = some coll3 ∧ (taken j).cat.recals = [] ∧ (taken j).cat.replatings = [] ∧
       ceilDiv ((taken j).plateBytes coll3 ((taken j).collPlates 3)) 2097152 ≤ (taken j).poolFree) ∧
    (let j := (ringed .running heldJ).mapCat fun c => { c with recals := [recal0] }
     j.live = true ∧ (j.cat.recals.find? fun r => r.coll == 3 && !r.staged) = some recal0 ∧
       (j.ringOf 3).isSome = true ∧ (j.ringOf 3).all (fun r => j.ring? r.num == some r && sweeping r) = true) := by
  unfold State.takes State.takesCat
  refine ⟨?_, ?_, ?_, ?_⟩ <;> decide

/-! ### Coelostat -/

/-- Eight cores at work and the spare. -/
def coreAt (n : Nat) : CoeCore := { failed := false, spare := n == 8, active := n != 8, fault := none, faultValid := false }

def coeJ : Jenjor := { heldJ with coe := { resetCoe with cores := (List.range 9).map coreAt } }

def withModel (m : Model) (j : Jenjor) : Jenjor := { j with coe := { j.coe with models := m :: List.replicate 7 emptyModel } }

def loadedSlot : KeySlot := { emptySlot with state := .loaded, generation := 1, current := [1] }

/-- A model of output dimension 8 with a vocabulary of 100. -/
def model0 : Model :=
  { emptyModel with phase := .resident, obj := 5, prog := 6, maxSeq := 16, maxTokens := 64, hdr := { zeroHeader with outDim := 8, vocab := 100 } }

/-- Key slot 2 holds a package key; object 5 is a weight package, object 6 a program image. -/
def packJ : Jenjor :=
  { withObj { objOf 6 9 0 with base := 4194304 } (withObj { objOf 5 4 0 with base := 2097152, bytes := 336, tier := .vault } coeJ) with
    dom := { resetDome with slots := [emptySlot, emptySlot, loadedSlot] ++ List.replicate 61 emptySlot } }

def envelope : List Host.Cell :=
  [(2097152, 0x57), (2097153, 0x4E), (2097154, 0x45), (2097155, 0x50), (2097156, 1), (2097177, 1)]

def loadFields : List (Nat × Nat) := [(8, 5), (0xC, 6), (0x10, 2), (0x12, 16), (0x14, 64)]

theorem wit_EncoderModels :
    (let j := withCmd 3 0x4C loadFields packJ
     let s := { on j with mem := envelope }
     s.takesCat 1 0x4C [] (cmdAt 3 0x4C loadFields) (taken j) ∧
       firstStatus (loadChecks s.mem (taken j) (cmdAt 3 0x4C loadFields).d) = none ∧
       ((List.range 8).find? fun m => ((taken j).model? m).any fun x => x.phase == .empty) = some 0 ∧
       ((taken j).liveObj? 5).any (fun o => decide (pagesOf o.bytes ≤ (taken j).poolFree)) = true) ∧
    (let j := withCmd 3 0x4C [] packJ
     (on j).takesCat 1 0x4C [] (cmdAt 3 0x4C []) (taken j) ∧
       firstStatus (loadChecks (on j).mem (taken j) (cmdAt 3 0x4C []).d) = some .parameterInvalid) ∧
    (let m := { model0 with phase := .loading, loader := some ref1 }
     let j := withModel m packJ
     j.live = true ∧ ((List.range 8).find? fun m => (j.model? m).any fun x => x.phase == .loading) = some 0 ∧
       j.model? 0 = some m ∧ (j.obj? m.obj).isSome = true ∧ m.unloader = none) ∧
    (let j := withCmd 3 0x4D [] (withModel model0 packJ)
     (on j).takesCat 1 0x4D [] (cmdAt 3 0x4D []) (taken j) ∧ (taken j).readOnlyNow = false ∧ (taken j).model? 0 = some model0 ∧
       (∀ m ∈ (taken j).coe.models, m.phase ≠ .draining) ∧ (taken j).modelIdle 0 = true) ∧
    (let j := withCmd 3 0x4D [] packJ
     (on j).takesCat 1 0x4D [] (cmdAt 3 0x4D []) (taken j) ∧ (taken j).model? 0 = some emptyModel) := by
  unfold State.takesCat
  refine ⟨?_, ?_, ?_, ?_, ?_⟩ <;> decide

/-- QUERY_TOKENS of two tokens, to model 0. -/
def tokenFields : List (Nat × Nat) := [(4, 3), (0x10, 8), (0x14, 64), (0x24, 1), (0x38, 2)]

def twoTokens : List Byte := leBytes 4 1 ++ leBytes 4 2

/-- A request of one token that waits for a pass. -/
def request0 : Ctx := { ctxAt .encoding with d := (cmdAt 1 0x11 tokenFields).d, tokens := [1], row := none }

def pass0 : Pass :=
  { model := 0, reqs := [0], rows := rowTable [request0], padded := 512, ranks := (List.range 8).map (startRank (rowTable [request0]) 512 1),
    pooled := [], tokvecs := [], startTime := 0 }

def passing (p : Pass) : Jenjor :=
  let j := withCtx request0 (withModel model0 (ringed .running coeJ))
  { j with coe := { j.coe with pass := some p } }

def endedPass : Pass :=
  { pass0 with ranks := pass0.ranks.map fun k => { k with ended := true }, pooled := [(0, List.replicate 8 0x3F80)] }

theorem wit_EncoderPasses :
    (let j := withCmd 1 0x11 tokenFields (withModel model0 (ringed .running coeJ))
     (on j).takesData 1 0x11 (cmdAt 1 0x11 tokenFields) (taken j) ∧
       firstStatus (queryChecks (taken j) (cmdAt 1 0x11 tokenFields).d twoTokens ++ (taken j).tokenChecks (cmdAt 1 0x11 tokenFields).d twoTokens) = none ∧
       (taken j).liveColl? 3 = some coll3 ∧ 4 ≤ (taken j).activeCores ∧ (taken j).pairedIn 3 = false ∧ (taken j).sw.ctxs = []) ∧
    (let j := withCmd 1 0x11 tokenFields (ringed .running coeJ)
     (on j).takesData 1 0x11 (cmdAt 1 0x11 tokenFields) (taken j) ∧
       firstStatus (queryChecks (taken j) (cmdAt 1 0x11 tokenFields).d twoTokens ++ (taken j).tokenChecks (cmdAt 1 0x11 tokenFields).d twoTokens)
         = some .modelNotResident) ∧
    (let j := withCtx request0 (withModel model0 coeJ)
     j.live = true ∧ j.coe.pass = none ∧ j.isl.shedStep = 0 ∧ 4 ≤ j.activeCores ∧ j.isl.whole = false ∧
       j.nextBatch = some (0, [request0])) ∧
    ((passing pass0).live = true ∧ (passing pass0).coe.pass.isSome = true) ∧
    (let j := passing endedPass
     j.live = true ∧ j.coe.pass = some endedPass ∧ (endedPass.ranks.all fun k => k.ended) = true ∧
       missingOutputs endedPass = [] ∧ j.model? 0 = some model0) ∧
    ((passing pass0).coe.pass = some pass0 ∧ (pass0.ranks.any fun k => !k.ended) = true) ∧
    (coeJ.live = true ∧ coeJ.coe.cores[0]? = some (coreAt 0) ∧ coeJ.coe.pass = none ∧
       ((List.range 9).find? fun k => k != 0 && (coeJ.coe.cores[k]?).any fun x => x.spare && !x.failed) = some 8 ∧
       5 ≤ coeJ.activeCores) := by
  unfold State.takesData
  refine ⟨?_, ?_, ?_, ?_, ?_, ?_, ?_⟩ <;> decide

/-! ### Programs -/

def ins (op mod tile count a b c : Nat) : Ins :=
  BitVec.ofNat 128 (op * 2 ^ 120 + mod * 2 ^ 112 + tile * 2 ^ 107 + count * 2 ^ 96 + a * 2 ^ 64 + b * 2 ^ 32 + c)

def rows2 : List RowInfo := [{ token := 1, seq := 0, pos := 0, wantTokens := false }, { token := 2, seq := 0, pos := 1, wantTokens := false }]

def rankAt (r : Nat) : Rank := startRank rows2 512 1 r

/-- Rank 0 at an instruction, the others at the start of the pass or in a collective. -/
def hereAt (i : Ins) (k : Rank) (coll : Option Collective) : Here :=
  { m := { model0 with instrs := [i], footprint := 8192, constUnits := 64, package := List.replicate 512 0,
                       hdr := { model0.hdr with width := 64, heads := 1, flags := 1 } },
    p := { pass0 with rows := rows2, ranks := k :: (List.range 7).map fun r => { rankAt (r + 1) with coll := coll } },
    r := 0, k := k, i := i, free := 0 }

def standing (h : Here) : State :=
  on { withModel h.m coeJ with coe := { (withModel h.m coeJ).coe with pass := some h.p } }

/-- Rank 0 stands at an instruction of one operand set. -/
def plain (op mod tile count a b c : Nat) : Here := hereAt (ins op mod tile count a b c) (rankAt 0) none

/-- A rank that `standing` sets up may step. -/
theorem stands (h : Here) (op : Nat) (hr : h.r < 8) (hp : h.p.model = 0) (hk : h.p.ranks[h.r]? = some h.k)
    (he : h.k.ended = false) (hc : h.k.coll = none) (hi : h.i = atIns h.m h.k) (ho : insOp h.i = op) (hf : h.free = 0) :
    standsAt (standing h) op h := by
  refine ⟨?_, hr, rfl, hk, ?_, he, hc, hi, ho, hf⟩
  · rfl
  · rw [hp]; rfl

theorem wit_ProgramControl :
    standsAt (standing (plain 0x00 0 0 0 0 0 0)) 0x00 (plain 0x00 0 0 0 0 0 0) ∧
    standsAt (standing (plain 0x01 0 0 0 0 0 0)) 0x01 (plain 0x01 0 0 0 0 0 0) ∧
    standsAt (standing (plain 0x02 9 0 0 0 0 0xFFFFFFFF)) 0x02 (plain 0x02 9 0 0 0 0 0xFFFFFFFF) ∧
    standsAt (standing (plain 0x03 0xC1 0 0 0 0 0xFFFFFFFF)) 0x03 (plain 0x03 0xC1 0 0 0 0 0xFFFFFFFF) ∧
    standsAt (standing (plain 0x04 0xC1 0 0 0 0 3)) 0x04 (plain 0x04 0xC1 0 0 0 0 3) ∧
    standsAt (standing (plain 0x05 0xC1 0 0 0 0 3)) 0x05 (plain 0x05 0xC1 0 0 0 0 3) ∧
    (standsAt (standing (plain 0x06 1 0 0 0 0 0)) 0x06 (plain 0x06 1 0 0 0 0 0) ∧ (rankAt 0).scalars.getD 1 0 = 0) ∧
    (standsAt (standing (plain 0x06 14 0 0 0 0 0)) 0x06 (plain 0x06 14 0 0 0 0 0) ∧ (rankAt 0).scalars.getD 14 0 ≠ 0) ∧
    standsAt (standing (plain 0x07 1 0 0 0 0 2)) 0x07 (plain 0x07 1 0 0 0 0 2) ∧
    standsAt (standing (plain 0x08 0 0 5 0 0 0)) 0x08 (plain 0x08 0 0 5 0 0 0) ∧
    coeJ.coe.pass = none := by
  refine ⟨?_, ?_, ?_, ?_, ?_, ?_, ⟨?_, by decide⟩, ⟨?_, by decide⟩, ?_, ?_, rfl⟩ <;> apply stands <;> decide

/-- WLD of one panel, its package just long enough. -/
def wldHere (len : Nat) : Here :=
  let h := plain 0x10 1 0 1 0 127 0
  { h with m := { h.m with package := List.replicate len 0 } }

/-- Rank 0 with what it has sent and what rank 1 awaits. -/
def fwdHere (recvs : List (Nat × Nat)) : Here :=
  let k := { rankAt 0 with compute := some [] :: List.replicate 127 none }
  let h := hereAt (ins 0x12 0 0 1 0 0 0) k none
  { h with p := { h.p with ranks := h.p.ranks.modify 1 fun r => { r with recvs := recvs } } }

theorem wit_WeightPanels :
    (standsAt (standing (wldHere 16384)) 0x10 (wldHere 16384) ∧
      ((insC (wldHere 16384).i + (wldHere 16384).scalar (insD (wldHere 16384).i)) * 256 + insCount (wldHere 16384).i * 16384
        ≤ (wldHere 16384).m.package.length) ∧
      insB (wldHere 16384).i % 128 + insCount (wldHere 16384).i ≤ 128 ∧ (wldHere 16384).k.recvs = []) ∧
    (standsAt (standing (wldHere 0)) 0x10 (wldHere 0) ∧ (wldHere 0).m.package.length < insCount (wldHere 0).i * 16384) ∧
    (let h := plain 0x11 0 0 1 0 127 0
     standsAt (standing h) 0x11 h ∧ insB h.i % 128 + insCount h.i ≤ 128 ∧
       (h.p.ranks[(h.r + 7) % 8]?).all (fun a => a.sends.isEmpty) = true ∧ h.p.ranks.length = 8) ∧
    (standsAt (standing (fwdHere [])) 0x12 (fwdHere []) ∧ (fwdHere []).p.ranks.length = 8 ∧ (fwdHere []).k.sends = [] ∧
      ((List.range (insCount (fwdHere []).i)).filterMap fun i => (fwdHere []).k.compute.getD (insA (fwdHere []).i % 128 + i) none).length = 1 ∧
      insCount (fwdHere []).i = 1 ∧ ((fwdHere []).p.ranks[1]?).any (fun b => b.recvs.isEmpty) = true) ∧
    (standsAt (standing (fwdHere [(1, 5)])) 0x12 (fwdHere [(1, 5)]) ∧
      ((fwdHere [(1, 5)]).p.ranks[1]?).any (fun b => b.recvs == [(1, 5)]) = true) ∧
    (standsAt (standing (fwdHere [(2, 5)])) 0x12 (fwdHere [(2, 5)]) ∧
      ((fwdHere [(2, 5)]).p.ranks[1]?).any (fun b => b.recvs == [(2, 5)]) = true) ∧
    (standsAt (standing (plain 0x13 0 0 0 0 0 0)) 0x13 (plain 0x13 0 0 0 0 0 0) ∧ (rankAt 0).sends = [] ∧ (rankAt 0).recvs = []) ∧
    (let h := hereAt (ins 0x13 0 0 0 0 0 0) { rankAt 0 with recvs := [(1, 0)] } none
     standsAt (standing h) 0x13 h ∧ h.k.recvs ≠ []) := by
  refine ⟨⟨?_, ?_, by decide⟩, ⟨?_, by decide⟩, ⟨?_, by decide⟩, ⟨?_, by decide⟩, ⟨?_, by decide⟩, ⟨?_, by decide⟩, ⟨?_, by decide⟩,
    ⟨?_, by decide⟩⟩
  case refine_2 =>
    show (insC (wldHere 16384).i + (wldHere 16384).scalar (insD (wldHere 16384).i)) * 256 + insCount (wldHere 16384).i * 16384
      ≤ (List.replicate 16384 (0 : Byte)).length
    rw [List.length_replicate]; decide
  all_goals apply stands <;> decide

/-- Rank 0 at an MMA of two tiles, rows 0 to 63, with its panels filled. -/
def mmaHere (slices : List Nat) : Here :=
  hereAt (ins 0x21 1 30 0 0 0x100 0)
    { rankAt 0 with compute := (List.range 128).map (fun i => if i < 2 then some [] else none), slices := slices } none

theorem wit_MatrixInstructions :
    standsAt (standing (plain 0x20 0 31 1 0 0 0)) 0x20 (plain 0x20 0 31 1 0 0 0) ∧
    (let h := mmaHere (List.replicate 32 0)
     standsAt (standing h) 0x21 h ∧ h.fits (h.operand (insA h.i)) 0x800 = true ∧
       (∀ i, i < 2 → (h.k.compute.getD (insB h.i % 128 + i * (insB h.i / 256 % 128)) none).isSome = true) ∧
       insMod h.i % 4 + 1 = 2 ∧ insTile h.i + 2 ≤ 32 ∧ (∀ i, i < 2 → h.k.slices.getD (insTile h.i + i) 0 = insCount h.i)) ∧
    (let h := mmaHere (List.replicate 31 0 ++ [1])
     standsAt (standing h) 0x21 h ∧ h.fits (h.operand (insA h.i)) 0x800 = true ∧ (∃ i, i < 2 ∧ h.k.slices.getD (insTile h.i + i) 0 ≠ insCount h.i)) ∧
    (let h := plain 0x22 0 0 0 0x08000000 64 0x08000001
     standsAt (standing h) 0x22 h ∧ h.fits (h.operand (insA h.i)) 1 = true ∧ h.fits (h.operand (insB h.i)) 0x200 = true ∧
       h.fits (h.operand (insC h.i)) 2 = true) ∧
    (let h := plain 0x23 0xF0 0 1 0 0x800 0
     standsAt (standing h) 0x23 h ∧ Memory.wf h.k.mem = true ∧ h.fits (h.operand (insA h.i)) 0x800 = true ∧
       h.fits (h.operand (insB h.i)) 0x400 = true) := by
  refine ⟨?_, ⟨?_, by decide⟩, ⟨?_, by decide⟩, ⟨?_, by decide⟩, ⟨?_, by decide⟩⟩ <;> apply stands <;> decide

theorem wit_RowInstructions :
    (let h := plain 0x30 0xA0 0 1 0 1 0
     standsAt (standing h) 0x30 h ∧ h.fits (h.operand (insA h.i)) (ceilDiv 64 256 * (64 / 64 * 0x200)) = true ∧
       ((List.range 64).all fun i => (gathRow h (h.info (h.r * h.rankRows + h.scalar (insS h.i) + i))).isSome) = true) ∧
    (let h := plain 0x30 0 0 1 0 0 0
     standsAt (standing h) 0x30 h ∧ (gathRow h (h.info (h.r * h.rankRows + h.scalar (insS h.i)))).isNone = true) ∧
    (let h := fun op => plain op 3 0 1 0 0x800 (if op = 0x31 then 0x08000000 else 0x1000)
     standsAt (standing (h 0x31)) 0x31 (h 0x31) ∧ standsAt (standing (h 0x32)) 0x32 (h 0x32) ∧
       standsAt (standing (h 0x33)) 0x33 (h 0x33) ∧ standsAt (standing (h 0x34)) 0x34 (h 0x34) ∧
       (h 0x31).fits ((h 0x31).operand (insA (h 0x31).i)) 0x800 = true ∧ (h 0x31).fits ((h 0x31).operand (insB (h 0x31).i)) 0x800 = true ∧
       (h 0x31).fits ((h 0x31).operand (insC (h 0x31).i)) 16 = true ∧ (h 0x33).fits ((h 0x33).operand (insC (h 0x33).i)) 0x800 = true) ∧
    (let h := plain 0x35 0 0 1 0 0x800 0x08000000
     standsAt (standing h) 0x35 h ∧ h.fits (h.operand (insA h.i)) 0x800 = true ∧ h.fits (h.operand (insB h.i)) 0x800 = true ∧
       h.fits (h.operand (insC h.i)) (2 * ceilDiv (h.m.hdr.maxSeq * (h.m.hdr.headDim / 2) * 4) 64) = true ∧
       (h.info (h.scalar (insS h.i) + 0)).isSome = true) ∧
    (let h := plain 0x38 0 0 1 0 0x800 0x1000
     standsAt (standing h) 0x38 h ∧ h.fits (h.operand (insA h.i)) 0x200 = true ∧ h.fits (h.operand (insB h.i)) 0x200 = true ∧
       h.fits (h.operand (insC h.i)) 0x200 = true ∧ h.m.hdr.headDim * 8 = 0x200 ∧
       ((List.range 256).all fun i => (h.info i).all fun x => decide (x.pos ≤ i ∧
         i - x.pos + (h.p.rows.filter fun y => y.seq == x.seq).length ≤ 256)) = true) ∧
    (let h := hereAt (ins 0x38 1 0 1 0 0x800 0x1000) ((rankAt 0).setScalar 1 1) none
     standsAt (standing h) 0x38 h ∧ h.scalar (insD h.i) = 1 ∧ (h.info 1).any (fun x => decide (1 - x.pos < 1)) = true) ∧
    (let h := fun op => plain op 0 0 1 0x1900 0 0
     standsAt (standing (h 0x31)) 0x31 (h 0x31) ∧ standsAt (standing (h 0x32)) 0x32 (h 0x32) ∧
       standsAt (standing (h 0x33)) 0x33 (h 0x33) ∧ standsAt (standing (h 0x34)) 0x34 (h 0x34) ∧
       standsAt (standing (h 0x35)) 0x35 (h 0x35) ∧ standsAt (standing (h 0x23)) 0x23 (h 0x23) ∧
       (h 0x31).fits ((h 0x31).operand (insA (h 0x31).i)) 0x800 = false) := by
  refine ⟨⟨?_, by decide⟩, ⟨?_, by decide⟩, ⟨?_, ?_, ?_, ?_, by decide⟩, ⟨?_, by decide⟩, ⟨?_, by decide⟩, ⟨?_, by decide⟩,
    ⟨?_, ?_, ?_, ?_, ?_, ?_, by decide⟩⟩ <;> apply stands <;> decide

theorem wit_RowsReadBack : Memory.wf (rankAt 0).mem = true ∧ (64 : Nat) ≤ 64 * 1 := by decide

/-- Rank 0 at a collective, the others waiting as `coll` says. -/
def barHere (i : Ins) (coll : Option Collective) : Here := hereAt i (rankAt 0) coll

theorem wit_CollectivesAndOutput :
    (let h := fun op => barHere (ins op 0 0 1 0 0 0) none
     standsAt (standing (h 0x09)) 0x09 (h 0x09) ∧ standsAt (standing (h 0x39)) 0x39 (h 0x39) ∧
       standsAt (standing (h 0x3A)) 0x3A (h 0x3A) ∧ (h 0x09).p.ranks.length = 8 ∧
       ((h 0x09).p.ranks[7]?).any (fun k => k.coll.isNone) = true) ∧
    (let i := ins 0x09 0 0 1 0 0 0
     let h := barHere i (some { opcode := 0x09, count := 1, opc := 0, opa := 0, opb := 0 })
     standsAt (standing h) 0x09 h ∧ h.p.ranks.length = 8 ∧
       ((h.p.ranks.drop 1).all fun k => k.coll.any (alike (collectiveOf h))) = true) ∧
    (let h := fun op => barHere (ins op 0 0 1 0 0 0) (some { opcode := 0x09, count := 2, opc := 0, opa := 0, opb := 0 })
     standsAt (standing (h 0x09)) 0x09 (h 0x09) ∧ standsAt (standing (h 0x39)) 0x39 (h 0x39) ∧
       standsAt (standing (h 0x3A)) 0x3A (h 0x3A) ∧
       (((h 0x09).p.ranks.drop 1).all fun k => k.coll.isSome && !(k.coll.any (alike (collectiveOf (h 0x09))))) = true) ∧
    (let i := ins 0x3A 0 0 0 0 64 2
     let h := barHere i (some { opcode := 0x3A, count := 0, opc := 2, opa := 0, opb := 64 })
     let p := { h.p with ranks := h.p.ranks.set h.r { h.k with coll := some (collectiveOf h) } }
     standsAt (standing h) 0x3A h ∧ ((h.p.ranks.drop 1).all fun k => k.coll.any (alike (collectiveOf h))) = true ∧
       ((List.range 8).all fun r => (h.at_ p r).fits ((h.at_ p r).operand (insA (h.at_ p r).i)) 16 &&
         (h.at_ p r).fits ((h.at_ p r).operand (insB (h.at_ p r).i)) 16) = true ∧ (h.p.ranks.all fun k => Memory.wf k.mem) = true) ∧
    (let i := ins 0x39 0 0 1 0 0x800 0
     let h := barHere i (some { opcode := 0x39, count := 1, opc := 0, opa := 0, opb := 0x800 })
     let p := { h.p with ranks := h.p.ranks.set h.r { h.k with coll := some (collectiveOf h) } }
     standsAt (standing h) 0x39 h ∧ ((h.p.ranks.drop 1).all fun k => k.coll.any (alike (collectiveOf h))) = true ∧
       ((List.range 8).all fun r => (h.at_ p r).fits ((h.at_ p r).operand (insA (h.at_ p r).i)) (ceilDiv (h.at_ p r).rankRows 256 * 0x800) &&
         (h.at_ p r).fits ((h.at_ p r).operand (insB (h.at_ p r).i)) (ceilDiv (seqsEnding (h.at_ p r)).length 256 * 0x800)) = true) ∧
    (let h := plain 0x3B 0 0 1 0 0 0
     standsAt (standing h) 0x3B h ∧ h.k.emittedPooled = false ∧
       h.fits (h.operand (insA h.i)) (ceilDiv (seqsEnding h).length 256 * (insCount h.i * 0x800)) = true) ∧
    (let h := plain 0x3B 1 0 1 0 0 0
     standsAt (standing h) 0x3B h ∧ h.k.emittedTokens = false ∧ insMod h.i % 2 = 1 ∧
       h.fits (h.operand (insA h.i)) (ceilDiv h.rankRows 256 * (insCount h.i * 0x800)) = true) ∧
    (let h := hereAt (ins 0x3B 0 0 1 0 0 0) { rankAt 0 with emittedPooled := true } none
     standsAt (standing h) 0x3B h ∧ h.k.emittedPooled = true) := by
  refine ⟨⟨?_, ?_, ?_, by decide⟩, ⟨?_, by decide⟩, ⟨?_, ?_, ?_, by decide⟩, ⟨?_, by decide⟩, ⟨?_, by decide⟩, ⟨?_, by decide⟩,
    ⟨?_, by decide⟩, ⟨?_, by decide⟩⟩ <;> apply stands <;> decide

/-! ### Faults -/

def withChan (n : Nat) (f : Chan → Chan) (j : Jenjor) : Jenjor := { j with mem := { j.mem with chans := j.mem.chans.modify n f } }

/-- The spare of rim 0 stands by. -/
def spareJ : Jenjor := withChan 20 (fun c => { c with state := .standby, logical := none }) heldJ

def shadowing : Jenjor := { spareJ with mem := { spareJ.mem with rims := spareJ.mem.rims.set 0 { freshRim with shadow := some 3 } } }

theorem wit_ClustersOutOfService :
    (heldJ.live = true ∧ (heldJ.cluster? 0).any (fun x => x.active && !x.failed && !x.retiring && !x.spare && x.home.isNone && (ringsServed x).isEmpty && x.admq.isEmpty) = true ∧
      heldJ.ringHolding 0 = none ∧ heldJ.spareFor 0 = some 8) ∧
    (let j := ringed .running heldJ
     j.live = true ∧ (j.cluster? 0).any (fun x => x.active && !x.failed && !x.retiring && !x.spare) = true ∧
       (j.ringHolding 0).any (fun r => sweeping r && j.ring? r.num == some r && !r.leaving.contains 0 && r.clusters.contains 0) = true) ∧
    (heldJ.cluster? 8).any (fun x => !x.active) = true := by
  refine ⟨?_, ?_, ?_⟩ <;> decide

theorem wit_MemoryChannels :
    (heldJ.live = true ∧ (spareJ.chan? 20).any (fun c => !c.busy && decide (c.pattern.toNat ≤ 5) && spareJ.tgAllowed 20 c) = true ∧
      (heldJ.chan? 0).any (fun c => !heldJ.tgAllowed 0 c && !c.marked && c.state == .serving && c.logical == some 0) = true ∧
      codeWordAt 0 0 31 = some 1984 ∧ (heldJ.physChannel (poolChannel 1984)).isSome = true) ∧
    ((withChan 20 (fun c => { c with busy := true, state := .testing, back := .standby }) spareJ).chan? 20).any (fun c => c.busy) = true ∧
    (let j := withChan 3 (fun c => { c with marked := true }) spareJ
     j.live = true ∧ (j.chan? 3).any (fun c => c.marked && c.state == .serving && c.logical.isSome && !c.again) = true ∧ j.spareReady 0 = true ∧
       j.mem.rims[0]? = some freshRim) ∧
    (spareJ.live = true ∧ (spareJ.chan? 3).any (fun c => c.logical.isSome) = true ∧ spareJ.mem.rims[0]? = some freshRim ∧
      spareJ.spareReady 0 = true) ∧
    (shadowing.live = true ∧ shadowing.mem.rims[0]? = some { freshRim with shadow := some 3 } ∧ (shadowing.chan? 3).isSome = true ∧
      (shadowing.chan? (spareOf 0)).isSome = true) ∧
    ((spareJ.sw.rings.all fun r => r.defn.isNone) = true ∧ (spareJ.chan? (spareOf 0)).isSome = true) ∧
    (heldJ.spareReady 0 = false ∧ heldJ.isl.whole = false ∧ (heldJ.sw.rings.all fun r => r.defn.isNone) = true) := by
  refine ⟨?_, ?_, ?_, ?_, ?_, ?_, ?_⟩ <;> decide

/-- Code words of 68 bytes: no error, an error in one byte, errors in two. -/
def word0 : List Byte := List.replicate 68 0

def word1 : List Byte := 1 :: List.replicate 67 0

def word2 : List Byte := 1 :: 1 :: List.replicate 66 0

theorem wit_CodeWordsAndReplays :
    (heldJ.live = true ∧ heldJ.see.arm = false ∧ heldJ.mem.poison = [] ∧ heldJ.isl.d2d.getD 21 0 < 2) ∧
    heldJ.physChannel (2048 / 2048 % 80) = some 1 ∧
    (decodeWord word0 = .clean ∧ decodeWord word1 = .corrected word0 ∧ decodeWord word2 = .uncorrectable) ∧
    ((heldJ.chan? 1).any (fun c => c.logical == some 1) = true ∧ codeWordAt 1 0 0 = some 2048 ∧
      heldJ.physChannel (poolChannel 2048) = some 1) ∧
    ((withChan 20 (fun c => { c with logical := none }) heldJ).chan? 20).any (fun c => c.logical.isNone) = true := by
  refine ⟨?_, ?_, ?_, ?_, ?_⟩ <;> decide

/-! ### The vault -/

def bay0 (st : CarState) : Jenjor :=
  { heldJ with vlt := { heldJ.vlt with carriers := heldJ.vlt.carriers.modify 0 fun c => { c with state := st } } }

theorem wit_CarriersInAndOut :
    (heldJ.live = true ∧ (heldJ.carrier? 0).any (fun c => c.state == .serving) = true ∧ heldJ.vlt.online = true ∧ heldJ.othersDown 0 = 0) ∧
    (0 < (bay0 .failed).othersDown 1 ∧ ((bay0 .failed).carrier? 1).isSome = true) ∧
    ((bay0 .releasing).live = true ∧ ((bay0 .releasing).carrier? 0).any (fun c => c.state == .releasing) = true ∧
      ((bay0 .safeToRemove).carrier? 0).any (fun c => c.state == .safeToRemove) = true ∧
      ((bay0 .rebuilding).carrier? 0).any (fun c => c.state == .rebuilding) = true ∧ (bay0 .rebuilding).vlt.failed = false) ∧
    ((bay0 .empty).vlt.online = true ∧ ((bay0 .empty).carrier? 0).any (fun c => c.state == .empty) = true) := by
  refine ⟨?_, ?_, ?_, ?_⟩ <;> decide

def retrained (l : List Nat) : Jenjor :=
  { heldJ with vlt := { heldJ.vlt with carriers := heldJ.vlt.carriers.modify 0 fun c => { c with retrains := l } } }

theorem wit_VaultReadsAndWear :
    (heldJ.live = true ∧ heldJ.see.arm = false ∧ (heldJ.carrier? (pageCarriers 3221225471).2).any readable = true ∧
      (∀ k, k < 4 → (heldJ.carrier? k).any readable = true)) ∧
    ((heldJ.carrier? 0).any (fun c => readable c && !c.chansRetired.contains 7 && decide (c.retrains.count 7 < 2)) = true ∧
      ((retrained [7, 7]).carrier? 0).any (fun c => readable c && !c.chansRetired.contains 7 && decide (2 ≤ c.retrains.count 7)) = true) ∧
    ((bay0 .releasing).carrier? 0).any (fun c => c.state == .releasing) = true ∧
    (heldJ.wr.journal = [] ∧ heldJ.wr.fences = [] ∧ heldJ.mirrored = false) := by
  decide

/-! ### Links -/

theorem wit_PcieEndpoint :
    (liveJ.live = true ∧ (liveJ.qs.queues.all fun q => q.roce || q.num == 0) = true ∧ (liveJ.qs.queues.all fun q => !q.deleting) = true) ∧
    (let j := withCmd 1 0x10 [] heldJ
     j.live = true ∧ j.queue? 1 = some (queue1 1) ∧ (queue1 1).roce = false ∧
       (j.qs.fetched.find? fun f => f.ref.q == 1 && f.ref.cid == 7 && f.ref.tag.isNone) = some (cmdAt 1 0x10 [])) := by
  decide

def netJ : Jenjor :=
  { heldJ with alm := { heldJ.alm with net := { zeroNet with
      portIpv4 := [[10, 0, 0, 1], [10, 0, 1, 1]], portIpv6 := [List.replicate 16 1, []], mtu := [4096, 4096], retryCount := 3,
      prefixes := [([10, 0, 0, 0], 24)] } } }

theorem wit_EthernetPorts :
    netJ.live = true ∧ netJ.ownAddress 1 [10, 0, 1, 1] true = true ∧ netJ.ownAddress 0 (List.replicate 16 1) false = true ∧
    netJ.ownAddress 0 [10, 0, 1, 1] true = false ∧ netJ.ownAddress 0 [10, 0, 1, 1] false = false := by decide

def roceQueue : Queue :=
  { queue1 1 with roce := true, qpn := 5, rkey := 0x77, ringAddr := 8192, sqDepth := 16, stagingBytes := 65536 }

def roceJ (p : Qp) (w : List Waiting) : Jenjor :=
  let j := setQueue roceQueue netJ
  { j with lnk := { j.lnk with qps := [p] }, qs := { j.qs with waits := w } }

theorem wit_QueuePairTraffic :
    ((roceJ qp5 []).live = true ∧ (roceJ qp5 []).mem.stopped = false ∧ (roceJ qp5 []).qpAlive 5 = true ∧ (roceJ qp5 []).keyedQueue 5 0x77 = some roceQueue ∧
      (roceJ qp5 []).keyedQueue 5 0x78 = none) ∧
    inRing roceQueue (Config.poolBase + 8192) 64 = true ∧
    ((roceJ qp5 []).qp? 5 = some qp5 ∧ qp5.state = .established ∧ qp5.bound ≠ [] ∧ qp5.connector = none ∧
      (roceJ qp5 []).qs.waits = [] ∧ (roceJ qp5 []).queue? 1 = some roceQueue ∧ roceQueue.fault = 0) ∧
    (let w := { wait0 with flush := false, qpn := 5, psn := 2 ^ 24 - 1 }
     (roceJ qp5 [w]).live = true ∧ (roceJ qp5 [w]).qpAlive 5 = true ∧ (0 + 2 ^ 24 - w.psn) % 2 ^ 24 < 2 ^ 23) ∧
    (let p := { qp5 with psn := 4, retries := 2 }
     (roceJ p []).qp? 5 = some p ∧ p.unacked ≠ p.psn ∧ p.retries < (roceJ p []).alm.net.retryCount) ∧
    (qp5.lastCnp = none ∧ (roceJ { qp5 with lastCnp := some 0 } []).time < 0 + 50000) := by
  refine ⟨by decide, ?_, by decide⟩
  simp only [inRing, Bool.and_eq_true, decide_eq_true_eq]
  refine ⟨Nat.le_refl _, ?_⟩
  show Config.poolBase + 8192 + 64 ≤ Config.poolBase + 8192 + stagingOffset 16 + 65536
  unfold stagingOffset
  omega

theorem wit_ConnectionManagement :
    (netJ.reqRejected 0 [10, 0, 0, 255] true 1024 = none ∧ netJ.reqRejected 0 [10, 0, 1, 0] true 1024 = some 1) ∧
    (let p := { qp5 with state := .setup, bound := [] }
     (roceJ p []).qp? 5 = some p ∧ p.connector = none) ∧
    (let p := { qp5 with bound := [] }
     (roceJ p []).qp? 5 = some p ∧ p.state = .established ∧ p.mergeIn = false ∧ p.route = false) ∧
    (roceJ qp5 []).qp? 5 = some qp5 := by
  decide

/-! ### Shard merge -/

def list4 : ShardList :=
  { num := 4, count := 2, kMax := 2, tickets := 2, fp32 := false, base := 0, slot := 64, rkey := 9, pages := 1, deleting := false,
    discarding := false, deleters := [], slots := [] }

/-- A shard's record of one entry. -/
def shardRec (user key : Nat) : List Byte := leBytes 4 1 ++ leBytes 4 48 ++ List.replicate 24 0 ++ leBytes 8 user ++ leBytes 8 key

def merge4 : MergeOpen := { list := 4, ticket := 0, tag := 6, k := 2, addr := 0, len := 0, rkey := 0, route := 0, ref := ref1 }

def listed (l : ShardList) (m : List MergeOpen) (j : Jenjor) : Jenjor := { j with cpn := { j.cpn with lists := [l], merges := m } }

def mergeIn5 : Qp := { qp5 with mergeIn := true }

def mergeJ (m : List MergeOpen) : Jenjor := listed list4 m { heldJ with lnk := { heldJ.lnk with qps := [mergeIn5] } }

def listFields : List (Nat × Nat) := [(8, 4), (0xA, 2), (0xC, 2), (0xE, 2), (0x10, 1)]

theorem wit_RoutesAndShardLists :
    (let j := withCmd 4 0x60 [(8, 9), (0xA, 1)] heldJ
     (on j).takes 1 0x60 (cmdAt 4 0x60 [(8, 9), (0xA, 1)]) (taken j) ∧ dField (cmdAt 4 0x60 [(8, 9), (0xA, 1)]).d 0xA 1 ≤ 1 ∧
       (taken j).lnk.qps.length < 4096 ∧ (taken j).routeBad (dField (cmdAt 4 0x60 [(8, 9), (0xA, 1)]).d 8 2 % 4096) = false) ∧
    (let j := withCmd 4 0x60 [(8, 9), (0xA, 2)] heldJ
     (on j).takes 1 0x60 (cmdAt 4 0x60 [(8, 9), (0xA, 2)]) (taken j) ∧ 2 ≤ dField (cmdAt 4 0x60 [(8, 9), (0xA, 2)]).d 0xA 1) ∧
    (let p := { qp5 with state := .setup, connector := some (ref1, 9) }
     let j := { heldJ with lnk := { heldJ.lnk with qps := [p] } }
     j.live = true ∧ j.qp? 5 = some p ∧ j.routeBad 9 = false) ∧
    (let j := withCmd 4 0x61 listFields heldJ
     (on j).takes 1 0x61 (cmdAt 4 0x61 listFields) (taken j) ∧ firstStatus ((taken j).listChecks (cmdAt 4 0x61 listFields).d) = none ∧
       pagesOf 256 ≤ (taken j).poolFree) ∧
    (let j := withCmd 4 0x62 [(8, 4)] (listed list4 [] heldJ)
     (on j).takes 1 0x62 (cmdAt 4 0x62 [(8, 4)]) (taken j) ∧ (taken j).openList 4 = some list4 ∧ (taken j).cpn.merges = []) ∧
    (let j := withCmd 4 0x62 [(8, 4)] (listed list4 [merge4] heldJ)
     (on j).takes 1 0x62 (cmdAt 4 0x62 [(8, 4)]) (taken j) ∧ (taken j).openList 4 = some list4 ∧ (taken j).cpn.merges = [merge4]) ∧
    ((listed { list4 with deleting := true, discarding := true } [] heldJ).list? 4 = some { list4 with deleting := true, discarding := true } ∧
      (listed list4 [] heldJ).list? 4 = some list4) := by
  unfold State.takes
  refine ⟨?_, ?_, ?_, ?_, ?_, ?_, ?_⟩ <;> decide

def mergeFields : List (Nat × Nat) := [(8, 4), (0xA, 6), (0xC, 2), (0x18, 576), (0x20, 1000)]

theorem wit_ShardMerge :
    (let j := withCmd 1 0x63 mergeFields (mergeJ [])
     (on j).takes 1 0x63 (cmdAt 1 0x63 mergeFields) (taken j) ∧
       firstStatus ((taken j).mergeChecks (cmdAt 1 0x63 mergeFields).d) = none ∧ (taken j).openList 4 = some list4 ∧
       (present list4 0 6).length ≠ list4.count) ∧
    (let j := withCmd 1 0x63 [(8, 5)] (mergeJ [])
     (on j).takes 1 0x63 (cmdAt 1 0x63 [(8, 5)]) (taken j) ∧
       firstStatus ((taken j).mergeChecks (cmdAt 1 0x63 [(8, 5)]).d) = some .parameterInvalid) ∧
    ((mergeJ [merge4]).live = true ∧ (mergeJ [merge4]).qp? 5 = some mergeIn5 ∧
      ((mergeJ [merge4]).cpn.lists.find? fun l => l.rkey == 9) = some list4 ∧ (mergeJ [merge4]).list? 4 = some list4 ∧
      recordValid list4 (shardRec 3 7) = true ∧ (mergeJ [merge4]).cpn.lists.all (fun l => l.rkey != 8) = true) ∧
    (inArea list4 (Config.poolBase + 64) (shardRec 3 7).length = true ∧ slotAt list4 (Config.poolBase + 64) = (0, 1, true)) ∧
    (merge4.list = list4.num ∧ merge4.ticket = 0 ∧ merge4.tag = (6 : BitVec 32).setWidth 16 ∧
      ((mergeJ [merge4]).cpn.merges.find? fun m => m.list == 4 && m.ticket == 0) = some merge4) := by
  refine ⟨by unfold State.takes; decide, by unfold State.takes; decide, by decide, ⟨?_, ?_⟩, by decide⟩
  · have h : (shardRec 3 7).length = 48 := by decide
    simp [inArea, list4, h]
  · simp [slotAt, list4]

/-- The order of R366: the higher key first, and the lower shard among equals. -/
theorem test_merge_order :
    (mergeEntries false 3 [(0, shardRec 3 7), (1, shardRec 4 9), (2, shardRec 3 7)]).map (fun e => (e.user.toNat, e.shard))
      = [(4, 1), (3, 0), (3, 2)] := by decide

/-! ### The companion -/

def peer7 : PeerInfo := { pairId := 77, serial := 8, companion := 0, arith := 0, tenant := 0 }

/-- A checked member of a pair. -/
def pairJ (f : PairData → PairData) : Jenjor :=
  heldJ.mapPair fun p => f { p with mode := 2, linkUp := true, pairState := .paired, peerChecked := true, lease := 3, pairId := 77,
                                    companion := 8, peer := some peer7 }

def holderJ : Jenjor := pairJ fun p => { p with holder := true }

def secondJ : Jenjor := pairJ id

def sent1 : Sent := { seq := 1, msg := .cpn 1 1 0 0 0 [] [] }

theorem wit_CompanionLink :
    (secondJ.live = true ∧ (heldJ.cpn.pair.mode = 0) ∧ secondJ.cpn.pair.mode ≠ 0 ∧ holderJ.cpn.pair.linkUp = true ∧
      holderJ.inPair = true ∧ holderJ.sw.ctxs = [] ∧ holderJ.see.arm = false) ∧
    (let j := pairJ fun p => { p with pairState := .training }
     j.inPair = false ∧ j.peerAgrees { peer7 with serial := 9 } = false) ∧
    (let j := { heldJ with dom := { heldJ.dom with serial := 5 } }.mapPair fun p => { p with pairId := 77, companion := 8, mode := 1 }
     j.live = true ∧ j.peerAgrees { peer7 with companion := 5, arith := BitVec.ofNat 16 j.arithRev } = true) ∧
    (let j := pairJ fun p => { p with replay := [sent1] }
     (j.cpn.pair.replay.find? fun m => m.seq == 1) = some sent1) ∧
    (let j := pairJ fun p => { p with pairState := .checking }
     j.toSecondary 4 = true ∧ j.blank = false ∧ j.wr.journal = [] ∧ j.wr.commits = [] ∧ j.wr.epoch ≤ j.cpn.pair.splitEpoch ∧
       j.toSecondary 2 = false ∧ j.cpn.pair.behind = false) ∧
    (pairJ fun p => { p with catchingUp := true }).cpn.pair.catchingUp = true := by
  refine ⟨by decide, ?_, by decide, by decide, by decide, by decide⟩
  exact ⟨by decide, by simp [peerAgrees, pairJ, mapPair, peer7]⟩

theorem wit_LeaseAndWitness :
    (secondJ.live = true ∧ secondJ.inPair = true ∧ secondJ.cpn.pair.holder = false ∧ secondJ.cpn.pair.lease < 4 ∧
      (∃ h : BitVec 96, h ≠ secondJ.dom.serial) ∧ secondJ.cpn.pair.linkUp = true ∧ 2 < secondJ.cpn.pair.lease) ∧
    (holderJ.inPair = true ∧ holderJ.cpn.pair.holder = true ∧ holderJ.cpn.pair.lease = 3 ∧ holderJ.isl.whole = false ∧
      holderJ.cpn.pair.readOnly = false) ∧
    (let j := { holderJ with alm := { holderJ.alm with net := { holderJ.alm.net with witness := true } } }
     j.live = true ∧ j.alm.net.witness = true) ∧
    (let j := { secondJ with alm := { secondJ.alm with net := { secondJ.alm.net with witness := true } } }
     j.cpn.pair.mode ≠ 0 ∧ j.cpn.pair.holder = false ∧ j.alm.net.witness = true) ∧
    (let j := pairJ fun p => { p with behind := true }
     j.live = true ∧ j.cpn.pair.behind = true ∧ j.wr.journal = []) ∧
    secondJ.sw.ctxs = [] := by
  have hs : secondJ.dom.serial = 0 := rfl
  exact ⟨⟨by decide, by decide, by decide, by decide, ⟨1, by rw [hs]; decide⟩, by decide, by decide⟩, by decide, by decide, by decide,
    by decide, by decide⟩

theorem wit_PairMessages :
    (secondJ.live = true ∧ secondJ.takesJournal = true ∧ secondJ.wr.journal = [] ∧ heldJ.takesJournal = false) ∧
    (secondJ.cpn.pair.linkUp = true ∧ secondJ.wr.epoch < 1 ∧ secondJ.wr.commits = []) ∧
    (holderJ.live = true ∧ holderJ.mirroring = true ∧ secondJ.mirroring = false ∧ secondJ.mirrored = true ∧
      isWrite (dField (cmdAt 3 0x41 []).d 0 1) = false ∧ isWrite (dField (cmdAt 3 0x20 []).d 0 1) = true ∧
      holderJ.acceptWaits (cmdAt 3 0x20 []) [] = false ∧ holderJ.qs.fetched = [] ∧
      (let j := { holderJ with qs := { holderJ.qs with fetched := [{ ref := holderJ.peerRef forwardQueue none, d := (cmdAt 3 0x20 []).d }] } }
       (j.qs.fetched.any fun x => x.ref.q == forwardQueue && isWrite (dField x.d 0 1)) = true)) ∧
    (let f := cmdAt 3 0x41 [(4, 3)]
     let j := pairJ fun p => { p with forwards := [(2, f)] }
     (j.cpn.pair.forwards.find? fun x => x.1 == 2) = some (2, f) ∧ dField f.d 0 1 ≠ 0x40) ∧
    (let j := ringed .running (secondJ.mapPair fun p => { p with mode := 3 })
     let d := (cmdAt 1 0x10 queryFields).d
     j.live = true ∧ j.pairedIn 3 = true ∧ j.liveColl? (dField d 4 2) = some coll3 ∧ qTokens d = false ∧
       firstStatus (queryChecks j d ones) = none ∧ j.contextsUsed < 16384) ∧
    (let j := (withObj { objOf 5 2 3 with base := 2097152 } heldJ).mapPair fun p => { p with pairState := .restoringTarget }
     j.live = true ∧ j.cpn.pair.pairState = .restoringTarget ∧ (j.objAt 2097152).isSome = true) ∧
    (let c := { coll3 with bias := some { plane0 with frame := 2 } }
     (holding c).live = true ∧ (holding c).coll? 3 = some c) := by
  refine ⟨?_, ?_, ?_, ?_, ?_, ?_, ?_⟩ <;> decide

/-! ### Dome -/

def sess (root : ChainRoot) (fin : Bool) : Session := { id := 1, mb := .doe, root := root, finished := fin }

/-- A module with one session, in a tenancy state, its slots as given. -/
def domeJ (t : Tenancy) (root : ChainRoot) (fin : Bool) (slots : List KeySlot) : Jenjor :=
  heldJ.mapDom fun d => { d with tenant := t, sessions := [sess root fin], nextSession := 2, latched := List.replicate 46 0,
                                 slots := slots ++ List.replicate (64 - slots.length) emptySlot }

theorem wit_SpdmRequests :
    heldJ.live = true ∧ heldJ.identityLost = false ∧ { heldJ with dom := { heldJ.dom with seedErased := true } }.identityLost = true ∧
    heldJ.dom.sessions.length < 8 ∧
    8 ≤ (heldJ.mapDom fun d => { d with sessions := List.replicate 8 (sess .unknown false) }).dom.sessions.length ∧
    0 ≤ certChain.length := by
  refine ⟨?_, ?_, ?_, ?_, ?_, Nat.zero_le _⟩ <;> decide

theorem wit_SpdmSessions :
    (let j := domeJ .unbound .orowick true []
     j.live = true ∧ j.session? .doe 1 = some (sess .orowick true) ∧ j.session? .mctp 1 = none ∧ j.dom.tenant = .unbound ∧
       j.dom.life = .service ∧ j.dom.latched.getD 5 0 = 0 ∧ ¬ 5 ∈ j.dom.unsettled) ∧
    (let j := domeJ .unbound .unknown false []
     j.session? .doe 1 = some (sess .unknown false)) ∧
    (let x : Session := { id := 1, mb := .companion, root := .companionModule 8, finished := true }
     let j := secondJ.mapDom fun d => { d with sessions := [x] }
     j.live = true ∧ j.session? .companion 1 = some x ∧ x.root = .companionModule j.cpn.pair.companion) ∧
    (let j := secondJ.mapDom fun d => { d with tenant := .bound }
     j.cpn.pair.pairState ≠ .unpaired ∧ j.dom.tenant = .bound ∧ (BitVec.ofNat 16 j.arithRev).toNat = j.arithRev) := by
  refine ⟨?_, ?_, ?_, ?_⟩ <;> decide

def prevSlot : KeySlot := { loadedSlot with generation := 2, prev := some [0] }

theorem wit_SlotCommands :
    (let j := domeJ .bound (.root 0) true [loadedSlot, loadedSlot, { loadedSlot with state := .draining }, prevSlot,
       { prevSlot with staged := some ([5], false) }, { loadedSlot with generation := 65535 }]
     j.live = true ∧ j.session? .doe 1 = some (sess (.root 0) true) ∧ ChainRoot.root 0 = .root j.dom.digest ∧ j.dom.tenant = .bound ∧
       (j.slot? 1).any (fun k => k.state == .loaded && k.staged == none && k.prev == none && k.generation != 65535) = true ∧
       (j.slot? 2).any (fun k => k.state == .draining) = true ∧
       (j.slot? 3).any (fun k => k.state == .loaded && k.staged == none && k.prev.isSome && k.generation != 65535) = true ∧
       (j.slot? 4).any (fun k => k.state == .loaded && k.staged.isSome) = true ∧
       (j.slot? 5).any (fun k => k.state == .loaded && k.staged == none && k.generation == 65535) = true ∧
       j.slot? 6 = some emptySlot ∧ 1 < j.dom.slots.length) ∧
    (keyBad 0 (List.replicate 63 0 ++ [1]) = false ∧ keyBad 0 (List.replicate 64 0) = true ∧ keyBad 2 (List.replicate 32 0) = false) ∧
    (let j := domeJ .binding (.root 0) true [loadedSlot]
     j.dom.tenant = .binding ∧ j.slot? 1 = some emptySlot ∧ (j.slot? (1 - 1)).any (fun y => y.state == .loaded) = true) ∧
    (let j := withModel { model0 with keySlot := 2, keyGen := 1 } (domeJ .bound (.root 0) true [loadedSlot, loadedSlot, loadedSlot])
     j.live = true ∧ ∃ m ∈ j.coe.models, m.phase ≠ .empty ∧ m.keySlot = 2 ∧ m.keyGen ≠ 1 + 1) ∧
    (let j := domeJ .suspended (.root 0) true [emptySlot, loadedSlot]
     j.live = true ∧ j.dom.tenant = .suspended ∧ j.slot? 0 = some emptySlot) := by
  refine ⟨?_, ?_, ?_, ?_, ?_⟩ <;> decide

/-- Two sealed plates of collection 3 in the old key generation, on a sweeping ring. -/
def rekeyJ : Jenjor :=
  let j := (ringed .running (heldJ.mapCat fun k =>
    { k with plates := k.plates.map fun p => { p with sealed_ := p.pid < 2, keyGen := p.pid < 2 } })).mapRing 4 fun r =>
      { r with view := [0, 1] }
  j.mapDom fun d => { d with rekeySweep := true, slots := { prevSlot with generation := 2 } :: List.replicate 63 emptySlot }

theorem wit_KeyGenerations :
    (let j := domeJ .bound .unknown true [{ loadedSlot with state := .draining }, loadedSlot, { loadedSlot with state := .draining }]
     j.live = true ∧ (j.slot? 0).any (fun k => k.state == .draining) = true ∧ (j.slot? 2).any (fun k => k.state == .draining) = true ∧
       (j.slot? 1).any (fun k => k.state != .draining) = true ∧ j.coe.models.all (fun x => x.phase == .empty || x.keySlot != 2) = true) ∧
    (let j := domeJ .bound .unknown true [loadedSlot, loadedSlot, prevSlot, { prevSlot with staged := some ([5], true) }]
     j.slot? 2 = some prevSlot ∧ j.oldUse 2 = false ∧ j.slot? 3 = some { prevSlot with staged := some ([5], true) } ∧ j.oldUse 3 = false) ∧
    (rekeyJ.live = true ∧ rekeyJ.dom.rekeySweep = true ∧ rekeyJ.rekeyNext = some 3 ∧ (rekeyJ.oldPlates 3).map (fun p => p.pid) = [0, 1] ∧
      (rekeyJ.ringOf 3).any (fun r => rekeyJ.ring? r.num == some r) = true ∧ rekeyJ.cat.replatings = [] ∧ 1 ≤ rekeyJ.poolFree) ∧
    (let j := (domeJ .bound .unknown true [loadedSlot, prevSlot]).mapDom fun d => { d with rekeyVault := true }
     j.live = true ∧ j.slot? 1 = some prevSlot ∧ j.dom.rekeyVault = true) := by
  refine ⟨?_, ?_, ?_, ?_⟩ <;> decide

theorem wit_TenancyAndScrub :
    (heldJ.live = true ∧ heldJ.dom.tenant = .unbound ∧ heldJ.dom.life = .service ∧ heldJ.dom.debug = false ∧
      heldJ.identityLost = false ∧ heldJ.dom.lifeErase = none ∧ heldJ.alm.step = 8 ∧ heldJ.dom.scrub = none) ∧
    (let j := domeJ .bound (.root 0) true []
     j.live = true ∧ j.session? .doe 1 = some (sess (.root 0) true) ∧ ChainRoot.root 0 = .root j.dom.digest ∧ j.dom.tenant = .bound) ∧
    (let j := domeJ .bound .orowick true []
     j.session? .doe 1 = some (sess .orowick true) ∧ ChainRoot.orowick ≠ .root j.dom.digest) ∧
    (let j := heldJ.mapDom fun d => { d with tenant := .scrubbing, scrub := some .unbound }
     j.live = true ∧ j.dom.scrub = some .unbound) ∧
    (heldJ.mapDom fun d => { d with lifeErase := some .rma }).dom.lifeErase.isSome = true := by
  refine ⟨?_, ?_, ?_, ?_, ?_⟩ <;> decide

theorem wit_LifeCycleFusesAndSessions :
    (heldJ.live = true ∧ heldJ.dom.tenant = .unbound ∧ heldJ.dom.lifeErase = none ∧ heldJ.dom.life.code < LifeCycle.rma.code ∧
      heldJ.alm.step = 8) ∧
    (let j := heldJ.mapDom fun d => { d with latched := [0, 1, 3] }
     j.live = true ∧ j.dom.latched[2]? = some 3 ∧ (4 : BitVec 32) ≠ 3) ∧
    (let j := { heldJ with alm := { heldJ.alm with cas := [(2, Role.operator)] } }
     j.live = true ∧ j.alm.cas.lookup 2 = some .operator ∧ j.alm.cas.lookup 3 = none ∧ j.alm.step ≠ 9) ∧
    (let j := { heldJ with alm := { heldJ.alm with step := 9 } }
     j.live = true ∧ j.alm.step = 9 ∧ j.alm.cas = []) := by
  refine ⟨?_, ?_, ?_, ?_⟩ <;> decide

/-! ### The Almanac -/

/-- A firmware record of one place with no code, in a security version and an arithmetic revision. -/
def fwOf (isB : Bool) (secver arith : Nat) : FwRecord :=
  { present := true, sigOk := true, digestOk := true,
    header := leBytes 4 0x57464C41 ++ leBytes 2 (if isB then 1 else 0) ++ leBytes 2 secver ++ leBytes 2 arith
      ++ List.replicate 246 0 }

def fw1 : FwRecord := fwOf false 0 1

def fwB1 : FwRecord := fwOf true 0 1

def secOf (gen : Nat) (body : SectionBody) : Section :=
  let ty := (bodyType body).getD 0
  { digestOk := true, signer := if ty = 10 then none else some 7, body := body,
    header := leBytes 4 0x54434553 ++ leBytes 2 ty ++ leBytes 2 1 ++ leBytes 8 gen ++ leBytes 8 1
      ++ leBytes 8 ((bodyLength body).getD 64) ++ List.replicate 224 0 }

/-- The smallest valid image: the six sections that every image has. -/
def image1 (gen : Nat) : Image :=
  { headerOk := true, owner := 1, leaf := 7, length := 65536,
    sections := [.identity 0 0 0, .islandPlan ((List.range 29).map maxClock) [], .seeds (List.replicate 84 (List.replicate 256 0)),
      .network { zeroNet with mtu := [1500, 1500] }, .security [] false, .firmware fw1 fwB1].map (secOf gen) }

def almJ (f : AlmState → AlmState) : Jenjor :=
  { heldJ with alm := f { heldJ.alm with image := some (image1 1), generation := 1, floor := 1, leaf := 7, fwA := fw1, fwB := fwB1 } }

def plan2 : Section := secOf 2 (.queuePlan [])

def reload2 (sec : Section) : Reload := { src := none, mgmt := true, seq := 1, sec := sec, persisted := false, replaced := [], entered := [] }

theorem wit_SectionReloads :
    ((almJ id).live = true ∧ (almJ id).alm.step = 8 ∧ (almJ id).almanacBusy = false ∧ (almJ id).alm.reloadsWaiting = [] ∧
      (almJ id).reloadStatus plan2 = none ∧ (almJ id).reloadStatus (secOf 1 (.queuePlan [])) = some .parameterInvalid) ∧
    (let j := withCmd 3 0x53 [] (almJ id)
     j.live = true ∧ j.takeCatalogue 1 0x53 = some (cmdAt 3 0x53 [], taken j) ∧ (taken j).almanacBusy = false ∧
       (taken j).reloadStatus plan2 = none ∧ (taken j).reloadStatus (secOf 1 (.queuePlan [])) = some .parameterInvalid) ∧
    (almJ fun a => { a with writing := some (image1 2) }).almanacBusy = true ∧
    ((almJ fun a => { a with step := 9 }).live = true ∧ (almJ fun a => { a with step := 9 }).alm.step = 9) ∧
    (let r := reload2 plan2
     let j := almJ fun a => { a with reloads := [r] }
     j.live = true ∧ j.alm.reloads = [r] ∧ r.persisted = false ∧ waitsBoundary r.sec = false ∧ j.alm.writesWaiting = [] ∧ j.alm.switchesWaiting = []) ∧
    (let r := reload2 (secOf 2 (.network zeroNet))
     let j := ringed .running (almJ fun a => { a with reloads := [r] })
     j.live = true ∧ waitsBoundary r.sec = true ∧ j.sw.rings.any sweeping = true) := by
  refine ⟨?_, ?_, ?_, ?_, ?_, ?_⟩ <;> decide

theorem wit_FirmwareSwitches :
    (let j := withCmd 3 0x54 [(8, 1)] (almJ id)
     (on j).takes 1 0x54 (cmdAt 3 0x54 [(8, 1)]) (taken j) ∧ (taken j).almanacBusy = false ∧ (taken j).alm.reloads = [] ∧
       (taken j).alm.switchesWaiting = [] ∧ (true ≠ (taken j).alm.running) ∧ (taken j).runnable fwB1 = true ∧
       fwArith fwB1 = (taken j).arithRev) ∧
    (let j := withCmd 3 0x54 [(8, 0)] (almJ fun a => { a with writing := some (image1 2) })
     (on j).takes 1 0x54 (cmdAt 3 0x54 [(8, 0)]) (taken j) ∧ (taken j).almanacBusy = true ∧ false = (taken j).alm.running) ∧
    (let j := withCmd 3 0x54 [(8, 1)] (ringed .running (almJ fun a => { a with fwB := fwOf true 0 2 }))
     (taken j).runnable (taken j).alm.fwB = true ∧ fwArith (taken j).alm.fwB ≠ (taken j).arithRev ∧
       (taken j).sw.rings.any holdsClusters = true) ∧
    (let j := withCmd 3 0x54 [(8, 1)] (almJ fun a => { a with fwB := { fwB1 with sigOk := false } })
     (taken j).alm.fwB.sigOk = false) ∧
    (let j := almJ fun a => { a with switchTo := some (true, some ref1) }
     j.live = true ∧ j.alm.switchTo = some (true, some ref1) ∧ j.alm.fwB.present = true ∧ fwArith j.alm.fwB = j.arithRev) ∧
    (let j := ringed .running (almJ fun a => { a with switchTo := some (true, some ref1), fwB := fwOf true 0 2 })
     j.live = true ∧ fwArith j.alm.fwB ≠ j.arithRev ∧ j.sw.rings.any holdsClusters = true) ∧
    (almJ id).alm.switchTo = none := by
  unfold State.takes
  refine ⟨?_, ?_, ?_, ?_, ?_, ?_, ?_⟩ <;> decide

theorem wit_ImageAndFirmwareWrites :
    ((almJ id).live = true ∧ (almJ id).alm.step = 8 ∧ (almJ id).imageRefused (image1 2) = false ∧
      (almJ id).imageRefused (image1 1) = true ∧ (almJ id).almanacBusy = false ∧ (almJ id).alm.writesWaiting = []) ∧
    (let j := almJ fun a => { a with writing := some (image1 3) }
     j.live = true ∧ j.imageRefused (image1 2) = false ∧ j.alm.writing.isSome = true ∧ j.alm.step ≠ 9) ∧
    (let j := almJ fun a => { a with writing := some (image1 3), step := 9 }
     j.live = true ∧ j.alm.step = 9 ∧ j.runnable fw1 = true ∧ fwRecordBad false fw1 = false ∧ fwRecordBad true fw1 = true) ∧
    ((almJ id).runnable fwB1 = true ∧ fwRecordBad (!(almJ id).alm.running) fwB1 = false ∧
      fwRecordBad (!(almJ id).alm.running) fw1 = true ∧ (almJ id).runnable zeroFw = false ∧ (almJ id).alm.writing = none) := by
  refine ⟨?_, ?_, ?_, ?_⟩ <;> decide

/-! ### Start-up, power and the board -/

def atStep (n : Nat) (f : Jenjor → Jenjor) : Jenjor :=
  f { Jenjor.reset with isl := { resetIslands with power := .starting }, alm := { resetAlmanac with step := n } }

def withDevices (p a : Option Image) (j : Jenjor) : Jenjor :=
  { j with alm := { j.alm with primary := { image := p, pendingImage := none }, alternate := { image := a, pendingImage := none } } }

def vc16 : Option CarrierId := some { vc16 := true, serial := 9, programmed := 0, wear := 0, spare := 100, retired := 0 }

theorem wit_StartSteps :
    ((atStep 1 id).live = true ∧ (atStep 1 id).alm.step = 1 ∧ settledReads (List.replicate 9 5) = true ∧ settledReads [1] = false) ∧
    ((atStep 2 id).live = true ∧ (atStep 2 id).bootRecords = none ∧
      ((atStep 2 (withDevices (some (image1 1)) none)).bootRecords).map (fun x => x.2) = some [false, true]) ∧
    ((atStep 3 (withDevices (some (image1 1)) none)).startImage (some (image1 1) |> fun i => { image := i, pendingImage := none })
        = some (image1 1) ∧
      (atStep 3 (withDevices none (some (image1 1)))).startImage { image := none, pendingImage := none } = none) ∧
    ((atStep 4 id).live = true ∧ (atStep 5 id).mem.chans.length = 84 ∧ (List.replicate 84 (true, 64)).length = 84) ∧
    ((atStep 6 id).live = true ∧ (atStep 6 id).qs.heldDoorbells = [] ∧ noEntries (atStep 6 id) ∧ [vc16, vc16, vc16, vc16].length = 4 ∧
      (atStep 6 id).vlt.carriers.length = 4 ∧ (∀ c ∈ [vc16, vc16, vc16, vc16], ∃ i : CarrierId, c = some i ∧ i.vc16 = true) ∧
      (atStep 6 id).dom.sealedRec = none) ∧
    (let r : SealedRec := { tenant := 3, life := .service, slots := [(0, loadedSlot), (1, loadedSlot)] }
     let j := (atStep 6 id).mapDom fun d => { d with sealedRec := some r }
     j.live = true ∧ j.dom.sealedRec = some r ∧ r.life = j.dom.life ∧ j.cat.colls = [] ∧ j.wr.journal = [] ∧ j.wr.commits = []) ∧
    ((atStep 7 id).live = true ∧ (atStep 7 id).sw.rings.all (fun r => !r.almanacStart) = true ∧
      ((atStep 7 id).mapRing 4 fun r => { r with almanacStart := true }).sw.rings.any (fun r => r.almanacStart) = true) := by
  refine ⟨by decide, by decide, by decide, by decide, ⟨by decide, by decide, ?_, by decide, by decide, ?_, by decide⟩, by decide,
    by decide⟩
  · intro i h; cases h
  · intro c h
    simp only [List.mem_cons, List.not_mem_nil, or_false, or_self] at h
    exact ⟨_, h, rfl⟩

theorem wit_RestoreRepairLifeCycle :
    (let j := (ringed .stopped heldJ).mapRing 4 fun r => { r with almanacStart := true }
     let j : Jenjor := { j with alm := { j.alm with step := 7 } }
     j.live = true ∧ j.nextStart = some 4) ∧
    ((almJ fun a => { a with repairing := true, source := true }).live = true ∧
      (almJ fun a => { a with repairing := true, source := true }).alm.step = 8) ∧
    (let j := heldJ.mapDom fun d => { d with lifeErase := some .scrapped }
     j.live = true ∧ j.dom.lifeErase = some .scrapped) := by
  decide

theorem wit_PowerAndReset :
    (Jenjor.reset.isl.power = .off ∧ Jenjor.reset.isl.resetLow = false ∧ heldJ.isl.power = .on ∧ (atStep 1 id).isl.power = .starting ∧
      (atStep 1 id).alm.step < 7 ∧ heldJ.isl.resetLow = false ∧ heldJ.live = true) ∧
    (let j := journaled { entry0 with localDurable := true } { heldJ with isl := { heldJ.isl with power := .flushing } }
     j.isl.power = .flushing ∧ j.vlt.flushMark = false ∧ j.wr.journal.any (fun e => !e.discarded && e.localDurable) = true) := by
  decide

theorem wit_BoardInterfaces :
    heldJ.live = true ∧ heldJ.isl.power ≠ .off ∧ 5 ≤ heldJ.alm.step ∧ (atStep 1 id).live = true ∧ (atStep 1 id).alm.step < 5 ∧
    heldJ.dom.debug = false ∧ heldJ.dom.life = .service ∧ (heldJ.mapDom fun d => { d with debug := true }).dom.debug = true ∧
    Jenjor.reset.isl.power = .off := by
  decide

/-! ### Registers and the catalogue window -/

/-- The endpoint is up. -/
def barJ : Jenjor := { heldJ with lnk := { heldJ.lnk with endpointUp := true, perstHigh := true } }

theorem wit_RegisterReads :
    serving (on barJ) ∧ barJ.qs.latch = none ∧ (∃ v, barJ.regAt 0x600 = some (.word v)) ∧
    (barJ.regAt 0xF0000 = some (.quad 0) ∧ isWide (.quad 0) = true) ∧
    (barJ.regAt 0x700000 = none ∧ barJ.regAt (0x700000 - 4) = none) ∧
    (let j := { barJ with qs := { barJ.qs with latch := some (0xF0004, 1) } }
     serving (on j) ∧ j.qs.latch = some (0xF0004, 1)) ∧
    (barJ.cluster? 17).isSome = true ∧
    (let j := { barJ with alm := { barJ.alm with step := 4 } }
     j.live = true ∧ j.lnk.endpointUp = true ∧ j.lnk.pcieDown = false ∧ j.alm.step < 5) ∧
    (let j := { barJ with alm := { barJ.alm with step := 9 } }
     j.live = true ∧ j.alm.step = 9 ∧ servedInRecovery 0x100 = false) ∧
    (heldJ.live = true ∧ heldJ.lnk.endpointUp = false) := by
  refine ⟨by unfold serving; decide, by decide, ⟨_, rfl⟩, by decide, by decide, by unfold serving; decide, by decide, by decide,
    by decide, by decide⟩

theorem wit_RegisterWrites :
    (serving (on barJ) ∧ barJ.regAt 0x700000 = none ∧ barJ.regAt (0x700000 - 4) = none ∧ barJ.qs.aqReady = false ∧ barJ.qs.halves = []) ∧
    (let j := { barJ with qs := { barJ.qs with aqReady := true } }
     serving (on j) ∧ j.qs.aqReady = true) ∧
    (let j := { barJ with qs := { barJ.qs with halves := [(0x100, 5)] } }
     serving (on j) ∧ j.qs.aqReady = false ∧ j.qs.halves = [(0x100, 5)]) ∧
    (barJ.dom.tenant = .unbound ∧ (barJ.mapDom fun d => { d with tenant := .bound, debug := false }).dom.tenant = .bound ∧
      serving (on (barJ.mapDom fun d => { d with tenant := .bound }))) ∧
    (2047 < barJ.lnk.vectors) ∧
    (let j := { barJ with lnk := { barJ.lnk with vectors := 16 } }
     serving (on j) ∧ j.lnk.vectors ≤ 16) := by
  unfold serving
  refine ⟨?_, ?_, ?_, ?_, ?_, ?_⟩ <;> decide

def payload5 (kind : Nat) : Obj := { objOf 5 kind 3 with base := 2097152, bytes := 4096, extent := 2097152 }

/-- The window lies on object 5. -/
def windowJ (kind : Nat) : Jenjor :=
  withObj (payload5 kind) { barJ with qs := { barJ.qs with windowBase := BitVec.ofNat 64 (2 ^ 54) } }

/-- The object byte that a resolved address names. -/
def names : Target → Option (Obj × Nat)
  | .objByte o r => some (o, r)
  | _ => none

theorem wit_ManagementWritesAndWindow :
    (barJ.live = true ∧ barJ.alm.step = 8 ∧ (heldJ.live = true)) ∧
    (serving (on (windowJ 2)) ∧ windowOk 2097152 64 = true ∧ windowOk 1 64 = false ∧ (windowJ 2).dom.tenant = .unbound ∧
      (windowJ 2).windowWritable (payload5 2) = true ∧ (windowJ 3).windowWritable (payload5 3) = false) ∧
    (names ((windowJ 2).resolve ((windowJ 2).qs.windowBase.toNat + 2097152)) = some (payload5 2, 2097152) ∧
      names ((windowJ 3).resolve ((windowJ 3).qs.windowBase.toNat + 2097152)) = some (payload5 3, 2097152) ∧
      names ((windowJ 2).resolve ((windowJ 2).qs.windowBase.toNat + 67108800)) = none) ∧
    serving (on ((windowJ 2).mapDom fun d => { d with tenant := .bound })) := by
  unfold serving
  refine ⟨?_, ?_, ?_, ?_⟩ <;> decide

/-! ### Every command, counters, completions, visibility, the order of results -/

theorem wit_StepsKeepMemoriesCanonical :
    State.reset.Canonical ∧ step { State.reset with pending := [.modRstTimeout] }
      = .next { State.reset with j := { Jenjor.reset with isl := { Jenjor.reset.isl with resetLow := true } } } :=
  ⟨⟨rfl, rfl⟩, rfl⟩

theorem wit_StepTakesTheFront :
    ({ State.reset with pending := [.modRstTimeout] } : State).pending = .modRstTimeout :: [] ∧ State.reset.pending = [] :=
  ⟨rfl, rfl⟩

theorem wit_EveryCommandCompletesWithinItsFrame :
    wellFormed (.nop 7) = true ∧ wellFormed (.nop 8) = false ∧
    exec (.nop 0) (on liveJ) = .next (on liveJ) ∧ storesInCatalogue (.nop 0) = false ∧ storesInPool (.nop 0) = false ∧
    (exec .aqEnable State.reset = .next State.reset ∧ State.reset.j.live = false ∧ actsWhileNotLive .aqEnable = false) ∧
    exec (.tileRead 1) (on liveJ) = .next (on liveJ) :=
  ⟨rfl, rfl, rfl, rfl, rfl, ⟨rfl, rfl, rfl⟩, rfl⟩

/-- Vector 5's table entry. -/
def entry5 (masked : Bool) (addr : BitVec 64) : MsixEntry := { addr := addr, data := 9, masked := masked, pending := false }

def alarmed (masked : Bool) (addr : BitVec 64) : Jenjor :=
  { liveJ with log := { liveJ.log with errEn := true, errVector := 5 },
               qs := { liveJ.qs with msix := [(5, entry5 masked addr)] } }

theorem wit_CountersLogbookAndFaults :
    ((alarmed false 64).log.errEn = true ∧ (alarmed false 64).log.errClass.getLsbD 1 = false ∧
      (alarmed false 64).log.errVector.toNat < (alarmed false 64).lnk.vectors ∧
      (alarmed false 64).msixEntry 5 = entry5 false 64 ∧ (alarmed true 64).msixEntry 5 = entry5 true 64 ∧
      (alarmed false 0).msixEntry 5 = entry5 false 0) ∧
    ((alarmed false 64).fault 3 0xD 0 0xFFFF 0 0 0).out = [.pldmEvent 3, .msix 5 64 9] ∧
    (liveJ.bump 0xF0020 (2 ^ 48)).counter 0xF0020 = { count := 0, ovf := true } := by
  decide

/-- Queue 1 with a completion vector, at the end of its ring of 4. -/
def answering (roce : Bool) (coal : Nat) (masked : Bool) : Jenjor :=
  { liveJ with qs := { liveJ.qs with
                         queues := [queueZero, { queue1 1 with roce := roce, qpn := 2, vector := 5, coalCount := coal, cqTail := 3 }],
                         msix := [(5, entry5 masked 64)] },
               lnk := { liveJ.lnk with qps := [{ num := 2, port := 0, state := .established, bound := [1], mtu := 1024, route := false,
                                                 mergeIn := false, rtuAt := 0, psn := 7, unacked := 7, retries := 0,
                                                 rateMbps := 100, lastCnp := none, connector := none }] } }

theorem wit_CompletionsWritten :
    (∀ roce, ((answering roce 2 true).queue? ref1.q).isSome = true) ∧ ref1.tag = none ∧ Status.success ≠ .keyWithdrawn ∧
    ref1.gen = (answering false 2 true).lnk.resets ∧ ref1.noIrq = false ∧ ({ ref1 with gen := 1 } : CmdRef).gen ≠ liveJ.lnk.resets ∧
    ((answering false 2 true).queue? 1).any (fun q => q.irqCount + 1 < max 1 q.coalCount && q.cqDepth ≤ q.cqTail + 1) = true ∧
    ((answering false 0 false).queue? 1).any (fun q => max 1 q.coalCount ≤ q.irqCount + 1 && q.vector < liveJ.lnk.vectors) = true ∧
    (answering true 2 true).qpAlive 2 = true ∧ liveJ.qpAlive 2 = false := by
  decide

/-- A plate of two records, the first inserted at epoch 10 and deleted at 12, the second inserted at 15. -/
def twoRecs : Plate :=
  { plate0 with epochBase := 10, recs := [oneRec, { oneRec with key := 2, delta := 5 }], tomb := [0], dlog := [(2, 0)], settled := [] }

/-- A query at epoch 11 sees the first record alone, one at 13 none, one at 15 the second alone (R62's four conditions). -/
theorem wit_VisibleRecords :
    (∀ e ∈ twoRecs.dlog, ∀ e' ∈ twoRecs.dlog, e.2 = 0 → e'.2 = 0 → e = e') ∧
    [(0, 9), (0, 11), (0, 12), (1, 14), (1, 15), (2, 20)].map (fun x => twoRecs.visible x.1 x.2)
      = [false, true, false, false, true, false] := by
  decide

theorem wit_SettlingKeepsVisibility :
    (∀ e ∈ twoRecs.dlog, ∀ e' ∈ twoRecs.dlog, e.2 = e'.2 → e = e') ∧ (12 : Nat) ≤ 13 ∧
    (twoRecs.settle 12).dlog = [] ∧ (twoRecs.settle 12).settled = [0] := by
  decide

/-- R131's example: keys and user keys (100, 9), (100, 4) and (97, 2). -/
def example131 : List Entry :=
  [{ entry1 with key := 100, user := 9, cluster := 17 }, { entry1 with key := 100, user := 4, cluster := 3 },
   { entry1 with key := 97, user := 2, cluster := 0 }]

theorem wit_MergeTreeKeepsTheFirst :
    (example131.map fun e => e.user).Nodup ∧ (∀ e ∈ example131, e.cluster < 18) ∧
    (mergeTree false 2 example131).map (fun e => (e.key.toNat, e.user.toNat)) = [(100, 4), (100, 9)] ∧
    (∀ e ∈ example131, (keyFp e.key).isNaN = false) := by
  decide

theorem wit_UnoccupiedAddresses :
    serving (on barJ) ∧ unoccupied barJ (0x48 / 4 * 4) ∧ unoccupied barJ 0x4C ∧ barJ.qs.latch = none := by
  refine ⟨by unfold serving; decide, ⟨by decide, fun r _ h => ?_⟩, ⟨by decide, fun r _ h => ?_⟩, by decide⟩
  · rw [show barJ.regAt (0x48 / 4 * 4 - 4) = none by decide] at h; cases h
  · rw [show barJ.regAt (0x4C - 4) = none by decide] at h; cases h

/-! ### The check of unit numbers -/

/-- The bytes of a code word. -/
def word68 : List Byte := List.replicate 68 0

/-- One command of each check that names a unit, or has a form, that the module does not have. -/
noncomputable def illFormed : List Instr :=
  [.plateGroupDeal 64 none, .plateFillComplete 18 0 [], .plateRecheckComplete 18 0 0 true ⟨[], []⟩, .flip 18 0,
   .ringBoundary 64, .ringStretch 64, .ringRestoreComplete ⟨64, []⟩, .merRingOvfWrite 64 ⟨0, 0⟩, .batchAccumulateEnd 18 0,
   .admissionArrival 18, .boundaryInstall 0 18, .specRequestIssue 18, .clusterHardFault 18, .clusterPlannedRetire 18,
   .rerankStart 4, .rerankComplete 4, .encoderCoreFailure 9, .tgStart 84, .tgStop 84, .tgPassComplete 84 0 0,
   .channelAccessRetry 84 none false, .channelAccessRetry 0 (some (2097152, .plate 0)) false,
   .channelRetrain 84 0 true, .channelSubstitutionStart 84, .channelSubstitutionComplete 4, .channelLost 84,
   .uncorrectableCodeWord 322122547200 word68 (.plate 0), .uncorrectableCodeWord 0 [] (.plate 0),
   .refresh 84 false 0 none, .patrolScrubRead 84 0 [] [] false,
   .patrolScrubRead 0 0 [(32, word68, .plate 0)] [] false, .patrolScrubRead 0 0 [(0, [], .plate 0)] [] false,
   .carrierRelease 4, .mgmtCarrierRelease .operator 4, .attentionButton 4 0, .carrierSafeToRemove 4,
   .carrierRemoval 4, .carrierFailure 4, .carrierRebuildComplete 4, .blockRetire 4 0,
   .onfiChannelRetrain 4 0 true false, .onfiChannelRetrain 0 8 true false, .carrierOvertemp 4 0, .islRetire 29,
   .islandTempRead 29 0, .clockStepDownTimer 29, .clockStepUpTimer 29, .neighbourTempCheck 29 0,
   .neighbourTempCheck 0 29, .islandFloorTimeout 29, .hubOvertempTimeout 29, .d2dFlitReplay 22 false,
   .slotEraseTimeout 64, .keyGenerationRetire 64, .arpRequest 2 [], .neighbourSolicitation 2 [], .icmpEcho 2 [] [],
   .ethFrameDropped 2, .ethLinkDown 2, .ethLinkUp 2 1, .ethLinkUp 0 3, .refresh 0 false 0 (some (18, 0)),
   .patrolScrubRead 0 2097152 [] [] false, .pldmSensorRequest 20,
   .vaultPageRead 3221225472 none [none, none, none] .journal, .vaultPageRead 0 none [] .journal,
   .sqTailDoorbell 0 (.other 4 4), .cqHeadDoorbell 0 (.other 0 9), .pcieLinkTrained 3 6 true,
   .pcieLinkTrained 16 7 true, .cmReq 2 [] true 0 false, .msixVectorUnmask 2048, .nop 8, .endStream 8, .seti 8,
   .addi 8, .muli 8, .andi 8, .loop 8, .skipz 8, .fence 8, .bar 8, .wld 8, .wrcv 8, .wfwd 8, .flipStage 8, .aclr 8,
   .mma 8, .mout 8, .qrow 8, .gath 8, .norm 8, .gelu 8, .addv 8, .mulv 8, .rope 8, .attn 8, .pool 8, .xall 8, .emit 8]

/-- The same commands at the last unit of each kind. -/
noncomputable def lastUnits : List Instr :=
  [.plateGroupDeal 63 none, .plateFillComplete 17 0 [], .plateRecheckComplete 17 0 0 true ⟨[], []⟩, .flip 17 0,
   .ringBoundary 63, .ringStretch 63, .ringRestoreComplete ⟨63, []⟩, .merRingOvfWrite 63 ⟨0, 0⟩, .batchAccumulateEnd 17 0,
   .admissionArrival 17, .boundaryInstall 0 17, .specRequestIssue 17, .clusterHardFault 17, .clusterPlannedRetire 17,
   .rerankStart 3, .rerankComplete 3, .encoderCoreFailure 8, .tgStart 83, .tgStop 83, .tgPassComplete 83 0 0,
   .channelAccessRetry 83 none false, .channelAccessRetry 0 (some (2097151, .plate 0)) false,
   .channelRetrain 83 0 true, .channelSubstitutionStart 83, .channelSubstitutionComplete 3, .channelLost 83,
   .uncorrectableCodeWord 322122547199 word68 (.plate 0), .uncorrectableCodeWord 0 word68 (.plate 0),
   .refresh 83 false 0 none, .patrolScrubRead 83 0 [] [] false,
   .patrolScrubRead 0 0 [(31, word68, .plate 0)] [] false, .patrolScrubRead 0 0 [(0, word68, .plate 0)] [] false,
   .carrierRelease 3, .mgmtCarrierRelease .operator 3, .attentionButton 3 0, .carrierSafeToRemove 3,
   .carrierRemoval 3, .carrierFailure 3, .carrierRebuildComplete 3, .blockRetire 3 0,
   .onfiChannelRetrain 3 0 true false, .onfiChannelRetrain 0 7 true false, .carrierOvertemp 3 0, .islRetire 28,
   .islandTempRead 28 0, .clockStepDownTimer 28, .clockStepUpTimer 28, .neighbourTempCheck 28 0,
   .neighbourTempCheck 0 28, .islandFloorTimeout 28, .hubOvertempTimeout 28, .d2dFlitReplay 21 false,
   .slotEraseTimeout 63, .keyGenerationRetire 63, .arpRequest 1 [], .neighbourSolicitation 1 [], .icmpEcho 1 [] [],
   .ethFrameDropped 1, .ethLinkDown 1, .ethLinkUp 1 1, .ethLinkUp 0 2, .refresh 0 false 0 (some (17, 0)),
   .patrolScrubRead 0 2097151 [] [] false, .pldmSensorRequest 19,
   .vaultPageRead 3221225471 none [none, none, none] .journal, .vaultPageRead 0 none [none, none, none] .journal,
   .sqTailDoorbell 0 (.other 8 4), .cqHeadDoorbell 0 (.other 0 2), .pcieLinkTrained 16 6 true,
   .pcieLinkTrained 16 1 true, .cmReq 1 [] true 0 false, .msixVectorUnmask 2047, .nop 7, .endStream 7, .seti 7,
   .addi 7, .muli 7, .andi 7, .loop 7, .skipz 7, .fence 7, .bar 7, .wld 7, .wrcv 7, .wfwd 7, .flipStage 7, .aclr 7,
   .mma 7, .mout 7, .qrow 7, .gath 7, .norm 7, .gelu 7, .addv 7, .mulv 7, .rope 7, .attn 7, .pool 7, .xall 7, .emit 7]

theorem test_illFormed_refused : illFormed.all (fun i => !wellFormed i) = true := by decide

theorem test_illFormed_carrierInsertion (c : CarrierId) : wellFormed (.carrierInsertion 4 c) = false ∧
    wellFormed (.carrierInsertion 3 c) = true := ⟨rfl, rfl⟩

theorem test_lastUnits_accepted : lastUnits.all (fun i => wellFormed i) = true := by decide

/-- The module faults on each of them and on nothing else of that list. -/
def faults (c : Instr) : Bool :=
  match exec c State.reset with
  | .fault .noSuchUnit => true
  | _ => false

theorem test_illFormed_faults : illFormed.all faults = true := by decide

theorem test_lastUnits_run : lastUnits.all (fun c => !faults c) = true := by decide

/-! ### The manual's own examples -/

/-- R70: records per plate. -/
theorem test_recordsPerPlate :
    [plateN .s4 128 .bare, plateN .b1 384 .bare, plateN .s8 768 .tagged, plateN .bf16 4096 .full, plateN .s4 64 .full]
      = [3225, 4032, 325, 31, 3584] := by decide

/-- R77, R80, R96: the example ring of 153,847 plates on 4 clusters. -/
theorem test_ringPeriods :
    (plateGroupSize 325, plateGroupSize 3225, periodOf 40330067968 2355200, periodOf 40330067968 2278400)
      = (3, 1, 17123840, 17701049) := by decide

/-- R107: the S8 inner-product example. -/
theorem test_gridConversion :
    (convertGrid [0x3D800000#32, 0x3E000000#32, 0x3D800000#32, 0x3E800000#32, 0x3D800000#32, 0x3E000000#32, 0x3D800000#32, 0x3D000000#32]
      [0x3F000000#32, 0x00000000#32, 0x00000000#32, 0x00000000#32, 0x00000000#32, 0x00000000#32, 0x00000000#32, 0xBE800000#32]
      [0x3FC00000#32, 0xC0000000#32, 0x3F400000#32, 0x3F800000#32, 0xBF000000#32, 0x40400000#32, 0x40100000#32, 0xC0800000#32]).map
        (fun o => (o.words, o.mu, o.const))
      = some ([6144, -16384, 3072, 16384, -2048, 24576, 9216, -8192], 0x37800000#32, 0x3FE00000#32) := by decide

/-- R112: its record scores 929,792. -/
theorem test_gridScore :
    dotInt .s8 [6144, -16384, 3072, 16384, -2048, 24576, 9216, -8192] [12, 0xF9, 100, 3, 0x80, 20, 0, 45] = 929792 := by decide

/-- R108, R114: the S4 L2 example. -/
theorem test_l2Example :
    (convertL2 0x3F000000#32 [0x00000000#32, 0x00000000#32, 0x3F800000#32, 0xBF800000#32, 0x00000000#32, 0x3F000000#32, 0x00000000#32, 0x00000000#32]
      [0x3FA00000#32, 0xC0000000#32, 0x00000000#32, 0x40400000#32, 0x3F000000#32, 0xBF400000#32, 0x40900000#32, 0x40000000#32]).map
        (fun o => (o.words, o.gsum, o.mu)) = some ([40, -64, -32, 128, 16, -40, 144, 64], 49792, 0x3A800000#32) ∧
    scoreL2 .s4 [40, -64, -32, 128, 16, -40, 144, 64] 49792 [2, 12, 15, 7, 1, 13, 7, 4] = -1664 := by decide

/-- R115: the BF16 example accumulates in order to +0. -/
theorem test_floatOrder :
    (scoreFloat false ([0x45800000#32, 0x3F800000#32, 0x3F800000#32, 0xC5800000#32].map Fp.ofF32)
      ([0x45800000#32, 0x3F800000#32, 0x3F800000#32, 0x45800000#32].map Fp.ofF32)).toF32 = 0 := by decide

/-- R130: the example plate cannot be excluded, and one whose union lacks a required bit can. -/
theorem test_summaryTest :
    let p := { twoRecs with tagUnion := 0x8000000000000070, tagInter := 0x10, min1 := 1690000000, max1 := 1720000000,
                            settled := [0] }
    let pr : Predicate := { ctl := 0x30D, masks := [0xF0, 0x8000000000000000, 0, 0], values := [0x30, 0, 0, 0],
                            lo := [1700000000, 0], hi := [1750000000, 0] }
    summaryExcludes p pr 20 = false ∧ summaryExcludes { p with tagUnion := 0x40 } pr 20 = true := by decide

/-- R280, R282: the result record of the example query. -/
theorem test_resultBytes :
    resultHeader 2 0 64 0 0x37800000#32 0x3FE00000#32 5 0 ++ resultEntry 8000 0xE3000#48 false false false 0
        ++ resultEntry 77 0x7D000#48 false false false 0
      = [2, 0, 0, 0, 0x40, 0, 0, 0, 0, 0, 0, 0, 0, 0, 0x80, 0x37, 0, 0, 0xE0, 0x3F, 5, 0, 0, 0, 0, 0, 0, 0, 0, 0, 0, 0,
         0x40, 0x1F, 0, 0, 0, 0, 0, 0, 0, 0x30, 0x0E, 0, 0, 0, 0, 0, 0x4D, 0, 0, 0, 0, 0, 0, 0, 0, 0xD0, 7, 0, 0, 0, 0, 0] := by
  decide

/-- R364: a slot of 100 entries is 1,664 bytes, and 4,096 shards of 16 merges take 109,051,904. -/
theorem test_shardSlot : slotBytes 100 = 1664 ∧ 4096 * 16 * slotBytes 100 = 109051904 := by decide

/-- R294: the example address: channel 31, its raw and check offsets, and bit 7 of byte 1,967 of the check burst. -/
theorem test_poolAddress :
    (poolChannel 2098200512, rawOffset 2098200512, checkOffset 2098200512, poisonBit 2098200512)
      = (31, 27975616, 27983356, (1967, 7)) ∧
    codeWordAt 31 (27975616 / 2048) (27975616 % 2048 / 64) = some 2098200512 := by decide

/-- R295: one wrong byte of a code word is corrected, two are not. -/
theorem test_codeWord :
    decodeWord word1 = .corrected word0 ∧ decodeWord word2 = .uncorrectable ∧
    decodeWord (word0.take 64 ++ rsCheck (word0.take 64)) = .clean := by decide

/-- R187: the example MMA. -/
theorem test_mmaFields :
    let i : Ins := 0x210D0002000050000000040200000000
    (insOp i, insMod i, insTile i, insCount i, insA i, mmaPanels i) = (0x21, 0x0D, 0, 2, 0x5000, (2, 4)) := by decide

/-- R278: the completion of the example query. -/
theorem test_completionBytes :
    (completionBytes 1000500 0 0x2A 0 5 0 true true 64 0).extractLsb' 176 16 = 0x0300#16 ∧
    (completionBytes 1000500 0 0x2A 0 5 0 true true 64 0).extractLsb' 0 64 = 0x000F4434#64 := by decide

end Sys2Proof.Tests
end

section
namespace Sys2Proof.Machine
namespace Jenjor

/-! ### Logbook records, discards and faults -/

theorem overflows_iff_allOnes (c : BitVec 48) : 2 ^ 48 ≤ c.toNat + 1 ↔ c = BitVec.allOnes 48 := by
  rw [← BitVec.toNat_inj, BitVec.toNat_allOnes]
  have := c.isLt
  omega

theorem record_log (j : Jenjor) (cls blk unit cause addr : Nat) (st : BitVec 8) (d : BitVec 256) :
    (j.record cls blk unit cause addr st d).log = { j.log with
      head := j.log.head + 1,
      trace := ({ seq := j.log.head + 1, time := j.time, cls := cls, injected := false, blk := blk, status := st,
                  unit := unit, cause := cause, addr := addr, detail := d } :: j.log.trace).take 262144 } := by
  unfold record
  dsimp only
  split <;> rfl

/-- LOG_LOST counts the record that a full Logbook overwrites (R427); no other counter moves. -/
theorem record_counter (j : Jenjor) (cls blk unit cause addr : Nat) (st : BitVec 8) (d : BitVec 256) (b : Nat) :
    (j.record cls blk unit cause addr st d).counter b = if b = 0xF0018 ∧ 262144 ≤ j.log.trace.length then
      { count := (j.counter b).count + 1, ovf := (j.counter b).ovf || decide ((j.counter b).count = BitVec.allOnes 48) }
    else j.counter b := by
  by_cases hb : b = 0xF0018
  · subst hb
    unfold record
    by_cases hfull : 262144 ≤ j.log.trace.length
    · have hbump := fun k : Jenjor => counter_bump k 0xF0018 1 0xF0018
      simp only [if_true, overflows_iff_allOnes] at hbump
      simp only [hfull, decide_true, and_self, if_true]
      exact hbump _
    · simp only [hfull, decide_false, and_false, if_false, Bool.false_eq_true]
      rfl
  · rw [counter_record _ _ _ _ _ _ _ _ _ hb, if_neg fun h => hb h.1]

/-- A record changes the Logbook and the counters alone. -/
theorem record_frame (j : Jenjor) (cls blk unit cause addr : Nat) (st : BitVec 8) (d : BitVec 256) :
    j.record cls blk unit cause addr st d
      = { j with log := (j.record cls blk unit cause addr st d).log, ctrs := (j.record cls blk unit cause addr st d).ctrs } := by
  unfold record
  dsimp only
  split <;> rfl

theorem setMsix_msixEntry_self (j : Jenjor) (v : Nat) (e : MsixEntry) : (j.setMsix v e).msixEntry v = e := by
  simp [setMsix, msixEntry]

theorem msixEntry_of_qs {j k : Jenjor} (h : j.qs = k.qs) (v : Nat) : j.msixEntry v = k.msixEntry v := by
  simp only [msixEntry, h]

/-- A vector sends its message when the table has it, it is not masked and its address is set (R288, R337, R430). -/
theorem sendVector_out (j : Jenjor) (v : Nat) :
    (j.sendVector v).out = (if v < j.lnk.vectors ∧ (j.msixEntry v).masked = false ∧ (j.msixEntry v).addr ≠ 0
      then [.msix v (j.msixEntry v).addr (j.msixEntry v).data] else []) ++ j.out := by
  unfold sendVector
  by_cases hv : j.lnk.vectors ≤ v
  · simp [hv]
  by_cases hm : (j.msixEntry v).masked = true
  · simp [hv, hm]
  by_cases ha : (j.msixEntry v).addr = 0
  · simp [hv, hm, ha]
  · have ha' : ¬(j.msixEntry v).addr = 0#64 := ha
    simp [hv, hm, ha', emit, Nat.lt_of_not_le hv]

/-- A masked vector, and one without an address, waits with its pending bit set (R288, R337). -/
theorem sendVector_pending (j : Jenjor) (v : Nat) (hv : v < j.lnk.vectors)
    (hwait : (j.msixEntry v).masked = true ∨ (j.msixEntry v).addr = 0) :
    (j.sendVector v).msixEntry v = { j.msixEntry v with pending := true } := by
  unfold sendVector
  rw [if_neg (Nat.not_le.mpr hv)]
  by_cases hm : (j.msixEntry v).masked = true
  · simp only [hm, if_true, setMsix_msixEntry_self]
  · simp only [hm, hwait.resolve_left hm, if_true, Bool.false_eq_true, if_false]
    exact (msixEntry_of_qs (record_qs ..) v).trans (setMsix_msixEntry_self ..)

/-- The error interrupt is asked for (R428): it is enabled and the class's summary bit was clear. -/
def asksInterrupt (j : Jenjor) (cls : Nat) : Bool := !j.log.errClass.getLsbD (cls - 2) && j.log.errEn

theorem asksInterrupt_iff (j : Jenjor) (cls : Nat) :
    j.asksInterrupt cls = true ↔ j.log.errEn = true ∧ j.log.errClass.getLsbD (cls - 2) = false := by
  simp [asksInterrupt, and_comm]

/-- The blocks once a fault of class 2 to 4 has its record and its summary bit. -/
def summarised (j : Jenjor) (cls blk unit cause addr : Nat) (st : BitVec 8) (d : BitVec 256) : Jenjor :=
  let k := j.record cls blk unit cause addr st d
  { k with log := { k.log with errClass := k.log.errClass ||| (1#3 <<< (cls - 2)) } }

section
variable (j : Jenjor) (cls blk unit cause addr : Nat) (st : BitVec 8) (d : BitVec 256)

theorem fault_eq_record (h : cls < 2 ∨ 4 < cls) :
    j.fault cls blk unit cause addr st d = j.record cls blk unit cause addr st d := by
  unfold fault
  exact if_neg (by omega)

/-- What a fault of class 2 to 4 does after its record and summary bit: the interrupt, then the PLDM event. -/
theorem fault_of_class (h : 2 ≤ cls ∧ cls ≤ 4) :
    j.fault cls blk unit cause addr st d =
      let m := j.summarised cls blk unit cause addr st d
      let n := if j.asksInterrupt cls then m.sendVector j.log.errVector.toNat else m
      if 3 ≤ cls then { n with isl := { n.isl with alertLow := true } }.emit (.pldmEvent cls) else n := by
  unfold fault summarised asksInterrupt
  simp only [h, and_self, if_true, record_log]

theorem summarised_out : (j.summarised cls blk unit cause addr st d).out = j.out := record_out ..

theorem summarised_qs : (j.summarised cls blk unit cause addr st d).qs = j.qs := record_qs ..

theorem summarised_lnk : (j.summarised cls blk unit cause addr st d).lnk = j.lnk := record_lnk ..

theorem summarised_msixEntry (v : Nat) :
    (j.summarised cls blk unit cause addr st d).msixEntry v = j.msixEntry v := msixEntry_of_qs (summarised_qs ..) v

theorem summarised_head : (j.summarised cls blk unit cause addr st d).log.head = j.log.head + 1 := record_head ..

/-- A fault of class 2 to 4 sends the error interrupt's message where it is asked for and its vector can send, and then,
of class 3 or 4, the PLDM event. -/
theorem fault_out (h : 2 ≤ cls ∧ cls ≤ 4) :
    (j.fault cls blk unit cause addr st d).out = (if 3 ≤ cls then [.pldmEvent cls] else [])
      ++ (if j.asksInterrupt cls ∧ j.log.errVector.toNat < j.lnk.vectors ∧
            (j.msixEntry j.log.errVector.toNat).masked = false ∧ (j.msixEntry j.log.errVector.toNat).addr ≠ 0
          then [.msix j.log.errVector.toNat (j.msixEntry j.log.errVector.toNat).addr
            (j.msixEntry j.log.errVector.toNat).data] else []) ++ j.out := by
  rw [fault_of_class (h := h)]
  by_cases hask : j.asksInterrupt cls = true
  · by_cases h3 : 3 ≤ cls <;>
      simp [hask, h3, emit, sendVector_out, summarised_msixEntry, summarised_lnk, summarised_out]
  · by_cases h3 : 3 ≤ cls <;> simp [hask, h3, emit, summarised_out]

theorem fault_pending (h : 2 ≤ cls ∧ cls ≤ 4) (hask : j.asksInterrupt cls) (hv : j.log.errVector.toNat < j.lnk.vectors)
    (hwait : (j.msixEntry j.log.errVector.toNat).masked = true ∨ (j.msixEntry j.log.errVector.toNat).addr = 0) :
    (j.fault cls blk unit cause addr st d).msixEntry j.log.errVector.toNat
      = { j.msixEntry j.log.errVector.toNat with pending := true } := by
  have hsend := sendVector_pending (j.summarised cls blk unit cause addr st d) j.log.errVector.toNat
    (by rwa [summarised_lnk]) (by rwa [summarised_msixEntry])
  rw [summarised_msixEntry] at hsend
  rw [fault_of_class (h := h), ← hsend]
  refine msixEntry_of_qs ?_ _
  by_cases h3 : 3 ≤ cls <;> simp [hask, h3]

theorem fault_quiet (h : 2 ≤ cls ∧ cls ≤ 4) (hask : ¬ j.asksInterrupt cls) :
    (j.fault cls blk unit cause addr st d).qs = j.qs ∧
      (j.fault cls blk unit cause addr st d).log.head = j.log.head + 1 := by
  rw [fault_of_class (h := h)]
  by_cases h3 : 3 ≤ cls <;> simp [hask, h3, summarised_qs, summarised_head]

end
end Jenjor

/-- Settles O55: a record, a count and a fault each by the lemma that says what it changes. -/
theorem countersLogbookAndFaults : Obligations.CountersLogbookAndFaults := by
  unfold Obligations.CountersLogbookAndFaults
  refine ⟨Jenjor.counter_bump, fun j cls blk unit cause addr st d => ?_, fun j cls blk unit cause addr st d => ?_⟩
  · exact ⟨Jenjor.record_log .., fun b => Jenjor.record_counter .., Jenjor.record_frame ..⟩
  refine ⟨fun h => Jenjor.fault_eq_record (h := h) .., fun h2 h4 => ?_⟩
  have h : 2 ≤ cls ∧ cls ≤ 4 := ⟨h2, h4⟩
  dsimp only
  simp only [← Jenjor.asksInterrupt_iff]
  refine ⟨Jenjor.fault_errClass (h := h) .., Jenjor.fault_out (h := h) .., fun hask hv hwait => ?_, fun hask => ?_, ?_⟩
  · exact Jenjor.fault_pending (h := h) (hask := hask) (hv := hv) (hwait := hwait) ..
  · exact Jenjor.fault_quiet (h := h) (hask := hask) ..
  · have h34 : (cls = 3 ∨ cls = 4) ↔ 3 ≤ cls := by omega
    simp only [Jenjor.fault_isl, h34]

end Sys2Proof.Machine
end

section
namespace Sys2Proof.Machine

/-! ### Commands of a module that serves its registers -/

theorem onBlocks_of_live {s : State} (f : Jenjor → Jenjor) (h : s.j.live = true) :
    onBlocks f s = .next { s with j := f s.j } := by
  rw [onBlocks, if_pos h]

theorem serving_facts {s : State} (h : serving s) :
    s.j.live = true ∧ s.j.lnk.endpointUp = true ∧ s.j.lnk.pcieDown = false ∧ 5 ≤ s.j.alm.step ∧ s.j.alm.step ≠ 9 := by
  obtain ⟨hlive, hopen⟩ := h
  simp only [Jenjor.barsOpen, Bool.and_eq_true, Bool.not_eq_true', decide_eq_true_eq, bne_iff_ne] at hopen
  obtain ⟨⟨⟨hup, hdown⟩, hstep⟩, h9⟩ := hopen
  exact ⟨hlive, hup, hdown, hstep, h9⟩

theorem exec_registerReadClear {s : State} (a d : Nat) (h : s.j.live = true) :
    exec (.registerReadClear a d) s = .next { s with j := s.j.readWord a d } :=
  onBlocks_of_live (fun j => j.readWord a d) h

theorem exec_registerLowHalfRead (s : State) (a : Nat) :
    exec (.registerLowHalfRead a) s = exec (.registerReadClear a 0) s := rfl

theorem exec_registerWrite {s : State} (a w : Nat) (v set : BitVec 64) (h : serving s) :
    exec (.registerWrite a w ⟨v, set⟩) s = .next { s with j := s.j.barWrite a w v set } := by
  obtain ⟨hlive, hup, hdown, hstep, -⟩ := serving_facts h
  refine (onBlocks_of_live _ hlive).trans ?_
  simp only [hup, hdown, hstep, decide_true, Bool.not_false, Bool.and_self, if_true]

theorem onBar0_of_serving {s : State} (a : Nat) (k : Jenjor → Jenjor) (h : serving s) : s.j.onBar0 a k = k s.j := by
  obtain ⟨-, hup, hdown, hstep, h9⟩ := serving_facts h
  simp [Jenjor.onBar0, hup, hdown, Nat.not_lt.mpr hstep, h9]

namespace Jenjor

/-! ### A discarded write (R6, R427) -/

theorem discard_counter (j : Jenjor) (unit addr b : Nat) (h : b ≠ 0xF0018) :
    (j.discard unit addr).counter b = (j.bump 0xF0020 1).counter b := counter_record _ _ _ _ _ _ _ _ b h

theorem discard_count (j : Jenjor) (unit addr : Nat) :
    ((j.discard unit addr).counter 0xF0020).count = (j.counter 0xF0020).count + 1 := by
  rw [discard_counter _ _ _ _ (by decide), counter_bump, if_pos rfl]
  rfl

theorem discard_head (j : Jenjor) (unit addr : Nat) : (j.discard unit addr).log.head = j.log.head + 1 := record_head ..

theorem discard_frame (j : Jenjor) (unit addr : Nat) :
    j.discard unit addr = { j with ctrs := (j.discard unit addr).ctrs, log := (j.discard unit addr).log } := by
  apply Jenjor.eq_of_fields <;> simp

end Jenjor

theorem discarded_discard (s : State) (unit addr : Nat) : discarded s { s with j := s.j.discard unit addr } :=
  ⟨Jenjor.discard_count .., Jenjor.discard_head .., congrArg (fun j => { s with j := j }) (Jenjor.discard_frame ..)⟩

namespace Jenjor

/-! ### Where a unit's registers lie -/

theorem unitAt_unit {n k r : Nat} (base stride : Nat) (hk : k < n) (hr : r < stride) :
    unitAt base stride n (base + stride * k + r) = some (k, r) := by
  have hlt : stride * k + r < stride * n := by
    calc stride * k + r < stride * k + stride := by omega
      _ = stride * (k + 1) := (Nat.mul_succ ..).symm
      _ ≤ stride * n := Nat.mul_le_mul_left _ hk
  have hsub : base + stride * k + r - base = r + stride * k := by omega
  unfold unitAt
  rw [if_pos (by omega), hsub, Nat.add_mul_div_left _ _ (by omega), Nat.add_mul_mod_self_left, Nat.div_eq_of_lt hr,
    Nat.mod_eq_of_lt hr, Nat.zero_add]

theorem unitAt_eq_none_of_lt {base stride n off : Nat} (h : off < base) : unitAt base stride n off = none := by
  unfold unitAt
  exact if_neg fun hu => absurd hu.1 (by omega)

theorem unitAt_eq_none_of_le {base stride n off : Nat} (h : base + stride * n ≤ off) : unitAt base stride n off = none := by
  unfold unitAt
  exact if_neg fun hu => absurd hu.2 (by omega)

theorem le_of_unitAt {base stride n off k r : Nat} (h : unitAt base stride n off = some (k, r)) : base ≤ off := by
  by_contra hlt
  rw [unitAt_eq_none_of_lt (by omega)] at h
  cases h

theorem regAt_aqSqBase (j : Jenjor) : j.regAt 0x100 = some (.quad j.qs.aqSqBase.toNat) := rfl
theorem regAt_aqSqBase_high (j : Jenjor) : j.regAt 0x104 = none := rfl
theorem regAt_errSummary (j : Jenjor) : j.regAt 0xF0010 = some (.word (pack [(2, 3, j.log.errClass.toNat)])) := rfl
theorem regAt_logDiscards (j : Jenjor) : j.regAt 0xF0020 = some .ctr := rfl
theorem regAt_logDiscards_high (j : Jenjor) : j.regAt 0xF0024 = none := rfl

theorem regAt_of_quadRW (j : Jenjor) {a : Nat} (h : quadRW a = true) : ∃ v, j.regAt a = some (.quad v) := by
  have ha : a = 0x100 ∨ a = 0x108 ∨ a = 0x140 ∨ a = 0xE0010 ∨ a = 0xF0008 := by
    simpa [quadRW, blkBase, blkSEE, blkLOG, blkDEV] using h
  obtain rfl | rfl | rfl | rfl | rfl := ha <;> exact ⟨_, rfl⟩

/-! ### The registers do not hang on the Logbook -/

/-- The same blocks with other counters and another Logbook. -/
def withLogs (j : Jenjor) (c : List (Nat × Ctr)) (l : LogState) : Jenjor := { j with ctrs := c, log := l }

section
variable (j : Jenjor) (c : List (Nat × Ctr)) (l : LogState)

theorem ringReg_withLogs_none (n r : Nat) : (j.withLogs c l).ringReg n r = none ↔ j.ringReg n r = none := by
  unfold ringReg
  rw [show (j.withLogs c l).ring? n = j.ring? n from rfl]
  cases j.ring? n with
  | none => rfl
  | some x => simp only [List.lookup_eq_none_iff, List.forall_mem_cons]

theorem merReg_withLogs_none (off : Nat) : (j.withLogs c l).merReg off = none ↔ j.merReg off = none := by
  unfold merReg
  cases unitAt 0x1000 0x40 64 off with
  | some x => exact ringReg_withLogs_none ..
  | none => cases unitAt 0x3000 0x10 18 off <;> cases unitAt 0x4000 0x40 18 off <;> exact Iff.rfl

theorem vltReg_withLogs_none (off : Nat) : (j.withLogs c l).vltReg off = none ↔ j.vltReg off = none := by
  unfold vltReg
  rw [show (j.withLogs c l).carrier? = j.carrier? from rfl]
  cases unitAt 0x100 0x40 4 off with
  | some x => cases hx : j.carrier? x.1 <;> simp only [hx, Option.bind, List.lookup_eq_none_iff, List.forall_mem_cons]
  | none => exact Iff.rfl

theorem logReg_withLogs_none (off : Nat) : (j.withLogs c l).logReg off = none ↔ j.logReg off = none := by
  unfold logReg
  cases unitAt 0x100 8 8 off with
  | some x => by_cases hr : x.2 = 0 <;> simp [hr]
  | none => simp only [List.lookup_eq_none_iff, List.forall_mem_cons]

/-- Which registers there are does not hang on the counters or the Logbook. -/
theorem regAt_withLogs_none (a : Nat) : (j.withLogs c l).regAt a = none ↔ j.regAt a = none := by
  unfold regAt
  split
  · rfl
  split
  · rfl
  dsimp only
  split
  case h_2 => exact merReg_withLogs_none ..
  case h_9 => exact vltReg_withLogs_none ..
  case h_15 => exact logReg_withLogs_none ..
  all_goals exact Iff.rfl

end
/-! ### Reads -/

theorem mapModel_of_absent (j : Jenjor) (m : Nat) (f : Model → Model) (h : j.coe.models[m]? = none) : j.mapModel m f = j := by
  unfold mapModel
  rw [List.modify_eq_self (List.getElem?_eq_none_iff.mp h)]

theorem mapChan_of_absent (j : Jenjor) (p : Nat) (f : Chan → Chan) (h : j.chan? p = none) : j.mapChan p f = j := by
  unfold mapChan
  rw [List.modify_eq_self (List.getElem?_eq_none_iff.mp h)]

section
variable (j : Jenjor) (off d : Nat)

/-- A high-water mark of a comparator is a register of its cluster. -/
theorem cmpReg_highWater {c : Nat} (h : unitAt 0 0x40 18 off = some (c, 8)) : j.cmpReg off ≠ none := by
  simp [cmpReg, h]

theorem spgReg_highWater {c : Nat} (h : unitAt 0x1000 8 18 off = some (c, 0)) : j.spgReg off ≠ none := by
  simp [spgReg, h]

theorem model_absent_of_coeReg {m : Nat} (h : unitAt 0x1000 0x40 8 off = some (m, 0x28)) (hnone : j.coeReg off = none) :
    j.coe.models[m]? = none := by
  have hoff : 0x1000 ≤ off := le_of_unitAt h
  unfold coeReg at hnone
  rw [h, unitAt_eq_none_of_le (by omega), unitAt_eq_none_of_le (by omega)] at hnone
  cases hm : j.coe.models[m]? with
  | none => rfl
  | some x => simp [hm] at hnone

theorem chan_absent_of_memReg {p : Nat} (h : unitAt 0x1000 0x40 84 off = some (p, 0x30)) (hnone : j.memReg off = none) :
    j.chan? p = none := by
  have hoff : 0x1000 ≤ off := le_of_unitAt h
  unfold memReg at hnone
  rw [h, unitAt_eq_none_of_le (by omega)] at hnone
  cases hp : j.chan? p with
  | none => rfl
  | some x => simp [hp] at hnone

theorem vltReg_bufferFill : j.vltReg 8 ≠ none := by simp [vltReg, unitAt]

end

theorem blockOf_lt {a b off : Nat} (h : blockOf a = (b, off)) (hb : b < 0x10) : a < 0x100000 := by
  unfold blockOf at h
  split at h
  · omega
  · rw [Prod.mk.injEq] at h
    omega

/-- The blocks that hold read-to-clear fields. -/
theorem regAt_of_blockOf (j : Jenjor) {a b off : Nat} (h : blockOf a = (b, off)) (hb : b < 0x10) :
    (b = blkCMP → j.regAt a = j.cmpReg off) ∧ (b = blkSPG → j.regAt a = j.spgReg off) ∧
    (b = blkCOE → j.regAt a = j.coeReg off) ∧ (b = blkMEM → j.regAt a = j.memReg off) ∧
    (b = blkVLT → j.regAt a = j.vltReg off) := by
  have ha := blockOf_lt h hb
  unfold regAt
  rw [if_neg (by omega), if_neg (by omega), h]
  refine ⟨?_, ?_, ?_, ?_, ?_⟩ <;> (rintro rfl; rfl)

/-- A read changes nothing, or lies on one of the read-to-clear fields (R7, R9). -/
theorem readClear_cases (j : Jenjor) (d : Nat) {a b off : Nat} (h : blockOf a = (b, off)) :
    j.readClear a d = j ∨ (b = blkCMP ∧ ∃ c, unitAt 0 0x40 18 off = some (c, 8)) ∨
    (b = blkSPG ∧ ∃ c, unitAt 0x1000 8 18 off = some (c, 0)) ∨
    (b = blkCOE ∧ ∃ m f, unitAt 0x1000 0x40 8 off = some (m, 0x28) ∧ j.readClear a d = j.mapModel m f) ∨
    (b = blkMEM ∧ ∃ p f, unitAt 0x1000 0x40 84 off = some (p, 0x30) ∧ j.readClear a d = j.mapChan p f) ∨
    (b = blkVLT ∧ off = 8) := by
  unfold readClear
  rw [h]
  dsimp only
  repeat' split
  any_goals exact .inl rfl
  · next hb _ c r hu hr => exact .inr (.inl ⟨hb, c, hr ▸ hu⟩)
  · next hb _ c r hu hr => exact .inr (.inr (.inl ⟨hb, c, hr ▸ hu⟩))
  · next hb _ m r hu hr => exact .inr (.inr (.inr (.inl ⟨hb, m, _, hr ▸ hu, rfl⟩)))
  · next hb _ p r hu hr => exact .inr (.inr (.inr (.inr (.inl ⟨hb, p, _, hr ▸ hu, rfl⟩))))
  · next hv => exact .inr (.inr (.inr (.inr (.inr hv))))

/-- A read-to-clear field is a register: a read where nothing begins clears nothing (R6, R9). -/
theorem readClear_eq_self_of_none (j : Jenjor) (a d : Nat) (hnone : j.regAt a = none) : j.readClear a d = j := by
  obtain ⟨b, off, hb⟩ : ∃ b off, blockOf a = (b, off) := ⟨_, _, rfl⟩
  have hblock := fun hlt : b < 0x10 => j.regAt_of_blockOf hb hlt
  rw [hnone] at hblock
  obtain hself | ⟨rfl, c, hu⟩ | ⟨rfl, c, hu⟩ | ⟨rfl, m, f, hu, hclear⟩ | ⟨rfl, p, f, hu, hclear⟩ | ⟨rfl, rfl⟩ :=
    readClear_cases j d hb
  · exact hself
  · obtain ⟨hcmp, -, -, -, -⟩ := hblock (by decide)
    exact absurd (hcmp rfl).symm (cmpReg_highWater _ _ hu)
  · obtain ⟨-, hspg, -, -, -⟩ := hblock (by decide)
    exact absurd (hspg rfl).symm (spgReg_highWater _ _ hu)
  · obtain ⟨-, -, hcoe, -, -⟩ := hblock (by decide)
    rw [hclear, mapModel_of_absent _ _ _ (model_absent_of_coeReg _ _ hu (hcoe rfl).symm)]
  · obtain ⟨-, -, -, hmem, -⟩ := hblock (by decide)
    rw [hclear, mapChan_of_absent _ _ _ (chan_absent_of_memReg _ _ hu (hmem rfl).symm)]
  · obtain ⟨-, -, -, -, hvlt⟩ := hblock (by decide)
    exact absurd (hvlt rfl).symm (vltReg_bufferFill _)

theorem readClear_qs (j : Jenjor) (a d : Nat) : (j.readClear a d).qs = j.qs := by
  unfold readClear
  dsimp only
  repeat' split
  all_goals rfl

theorem readClear_out (j : Jenjor) (a d : Nat) : (j.readClear a d).out = j.out := by
  unfold readClear
  dsimp only
  repeat' split
  all_goals rfl

/-- What a read of the word at `w` answers: the high half that the preceding read latched there, or the register. -/
def readAnswer (j : Jenjor) (w : Nat) : Nat :=
  j.qs.latch.elim (j.peek w) fun x => if x.1 = w then x.2.toNat else j.peek w

/-- What a read of the word at `w` latches for the next (R336). -/
def latchAfter (j : Jenjor) (w : Nat) : Option (Nat × BitVec 32) :=
  if j.lowHalf w then some (w + 4, BitVec.ofNat 32 (j.peek (w + 4))) else none

theorem readWord_eq (j : Jenjor) (a d : Nat) (hup : j.lnk.endpointUp = true) (hdown : j.lnk.pcieDown = false)
    (hstep : 5 ≤ j.alm.step) (ha : a < 0x1000000) :
    j.readWord a d =
      ({ (if j.alm.step = 9 then j else j.readClear (a / 4 * 4) d) with
          qs := { j.qs with latch := j.latchAfter (a / 4 * 4) } }).emit
        (.readResponse a (BitVec.ofNat 64 (j.readAnswer (a / 4 * 4) / 2 ^ (8 * (a % 4))))) := by
  have hqs : (if j.alm.step = 9 then j else j.readClear (a / 4 * 4) d).qs = j.qs := by
    split
    · rfl
    · exact readClear_qs ..
  unfold readWord readAnswer latchAfter
  simp only [hup, hdown, Bool.not_true, Bool.or_self, Bool.false_eq_true, if_false, Nat.not_lt.mpr hstep, Nat.not_le.mpr ha, hqs]
  cases j.qs.latch <;> rfl

theorem readAnswer_of_latch {j : Jenjor} {w : Nat} {x : BitVec 32} (h : j.qs.latch = some (w, x)) :
    j.readAnswer w = x.toNat := by
  simp [readAnswer, h]

theorem readAnswer_of_no_latch {j : Jenjor} {w : Nat} (h : ∀ x, j.qs.latch ≠ some (w, x)) : j.readAnswer w = j.peek w := by
  unfold readAnswer
  cases hl : j.qs.latch with
  | none => rfl
  | some y => exact if_neg fun hy => h y.2 (hl.trans (congrArg some (Prod.ext hy rfl)))

theorem latchAfter_of_narrow {j : Jenjor} {a : Nat} (h : ∀ r, j.regAt a = some r → isWide r = false) :
    j.latchAfter a = none := by
  cases hr : j.regAt a with
  | none => simp [latchAfter, lowHalf, hr]
  | some r => simp [latchAfter, lowHalf, hr, h r hr]

section
variable {j : Jenjor} {a : Nat} (h9 : j.alm.step ≠ 9)
include h9

theorem peek_of_reg {r : Reg} (h : j.regAt a = some r) : j.peek a = j.regValue a r % 2 ^ 32 := by
  simp [peek, h9, h]

theorem peek_of_unoccupied (h : unoccupied j a) : j.peek a = 0 := by
  obtain ⟨hnone, hlow⟩ := h
  by_cases ha : 4 ≤ a
  · cases hr : j.regAt (a - 4) with
    | none => simp [peek, h9, hnone, hr]
    | some r => simp [peek, h9, hnone, ha, hr, hlow r ha hr]
  · simp [peek, h9, hnone, ha]

theorem latchAfter_of_wide {r : Reg} (h : j.regAt a = some r) (hw : isWide r = true) :
    j.latchAfter a = some (a + 4, BitVec.ofNat 32 (j.peek (a + 4))) := by
  simp [latchAfter, lowHalf, h9, h, hw]

end

/-- In recovery an address that is not served reads zero and latches nothing (R446). -/
theorem peek_in_recovery {j : Jenjor} {a : Nat} (h9 : j.alm.step = 9) (h : servedInRecovery a = false) : j.peek a = 0 := by
  simp [peek, h9, h]

theorem latchAfter_in_recovery {j : Jenjor} {a : Nat} (h9 : j.alm.step = 9) (h : servedInRecovery a = false) :
    j.latchAfter a = none := by
  simp [latchAfter, lowHalf, h9, h]

theorem latch_none_eta {q : QueueState} (h : q.latch = none) : { q with latch := none } = q := by
  rw [← h]

theorem readWord_of_endpointDown {j : Jenjor} (a d : Nat) (h : j.lnk.endpointUp = false) : j.readWord a d = j := by
  simp [readWord, h]

theorem readWord_before_step5 {j : Jenjor} (a d : Nat) (hup : j.lnk.endpointUp = true) (hdown : j.lnk.pcieDown = false)
    (hstep : j.alm.step < 5) : j.readWord a d = j.emit .configRetry := by
  simp [readWord, hup, hdown, hstep]

theorem readWord_outside_bar0 {j : Jenjor} (a d : Nat) (hup : j.lnk.endpointUp = true) (hdown : j.lnk.pcieDown = false)
    (hstep : 5 ≤ j.alm.step) (ha : 0x1000000 ≤ a) : j.readWord a d = j.emit (.unsupportedRequest a) := by
  simp [readWord, hup, hdown, Nat.not_lt.mpr hstep, ha]

/-- In recovery a read of an address that is not served answers zero and changes nothing (R446). -/
theorem readWord_in_recovery {j : Jenjor} {a : Nat} (d : Nat) (hup : j.lnk.endpointUp = true) (hdown : j.lnk.pcieDown = false)
    (h9 : j.alm.step = 9) (ha : a < 0x1000000) (h4 : a % 4 = 0) (hlatch : j.qs.latch = none)
    (hserved : servedInRecovery a = false) : j.readWord a d = j.emit (.readResponse a 0) := by
  have hw : a / 4 * 4 = a := by omega
  rw [readWord_eq _ _ _ hup hdown (by omega) ha, if_pos h9, hw, latchAfter_in_recovery h9 hserved,
    latch_none_eta hlatch, readAnswer_of_no_latch (by simp [hlatch]), peek_in_recovery h9 hserved, Nat.zero_div]
  rfl

/-! ### Cluster high-water marks (R139) -/

theorem find?_updWhere {α : Type} (p : α → Bool) (f : α → α) (hf : ∀ x, p (f x) = p x) (l : List α) :
    (updWhere p f l).find? p = (l.find? p).map f := by
  induction l with
  | nil => rfl
  | cons x l ih =>
    rw [show updWhere p f (x :: l) = (if p x then f x else x) :: updWhere p f l from rfl]
    by_cases hx : p x = true
    · simp [hx, hf]
    · simp [hx, ih]

theorem cluster?_mapCluster {j : Jenjor} {c : Nat} {x : Cluster} (f : Cluster → Cluster) (hf : ∀ x, (f x).num = x.num)
    (h : j.cluster? c = some x) : (j.mapCluster c f).cluster? c = some (f x) := by
  have hfind := find?_updWhere (fun y : Cluster => y.num == c) f (fun y => by rw [hf]) j.sw.clusters
  rw [show j.sw.clusters.find? (fun y => y.num == c) = some x from h] at hfind
  exact hfind

section
variable (j : Jenjor) {c : Nat} (hc : c < 18)
include hc

theorem blockOf_highWater : blockOf (0x40008 + c * 0x40) = (blkCMP, 0x40 * c + 8) := by
  unfold blockOf blkCMP
  rw [if_neg (by omega), Prod.mk.injEq]
  omega

theorem unitAt_highWater : unitAt 0 0x40 18 (0x40 * c + 8) = some (c, 8) := by
  have hu := unitAt_unit 0 0x40 hc (by decide : 8 < 0x40)
  rwa [Nat.zero_add] at hu

theorem regAt_highWater {x : Cluster} (h : j.cluster? c = some x) :
    j.regAt (0x40008 + c * 0x40) = some (.word x.admHigh) := by
  obtain ⟨hcmp, -⟩ := j.regAt_of_blockOf (blockOf_highWater hc) (by decide)
  rw [hcmp rfl]
  unfold cmpReg
  simp only [unitAt_highWater hc, h]
  rfl

theorem readClear_highWater (d : Nat) :
    j.readClear (0x40008 + c * 0x40) d = j.mapCluster c fun x => { x with admHigh := x.admq.length } := by
  unfold readClear
  rw [blockOf_highWater hc]
  simp only [unitAt_highWater hc, if_true]

end
end Jenjor

/-- A read of an aligned word while the registers are served (R6, R7, R336). -/
theorem exec_read_aligned {s : State} {a : Nat} (d : Nat) (h : serving s) (ha : a < 0x1000000) (h4 : a % 4 = 0) :
    exec (.registerReadClear a d) s = .next
      { s with
        j := ({ s.j.readClear a d with qs := { s.j.qs with latch := s.j.latchAfter a } }).emit
          (.readResponse a (BitVec.ofNat 64 (s.j.readAnswer a))) } := by
  obtain ⟨hlive, hup, hdown, hstep, h9⟩ := serving_facts h
  have hw : a / 4 * 4 = a := by omega
  rw [exec_registerReadClear _ _ hlive, Jenjor.readWord_eq _ _ _ hup hdown hstep ha, if_neg h9, hw, h4, Nat.mul_zero, pow_zero,
    Nat.div_one]

/-- A read answers ahead of what was sent before, and latches as the address does. -/
theorem exec_read_answers {s : State} {a : Nat} (d : Nat) (h : serving s) (ha : a < 0x1000000) (h4 : a % 4 = 0) :
    ∃ t, exec (.registerReadClear a d) s = .next t ∧
      t.j.out = .readResponse a (BitVec.ofNat 64 (s.j.readAnswer a)) :: s.j.out ∧ t.j.qs.latch = s.j.latchAfter a ∧
      t.mem = s.mem :=
  ⟨_, exec_read_aligned d h ha h4, congrArg (_ :: ·) (Jenjor.readClear_out ..), rfl, rfl⟩

/-- A high-water mark's read answers the mark and sets it to the present fill (R139). -/
theorem exec_read_highWater {s : State} {c : Nat} {x : Cluster} (d : Nat) (h : serving s) (hlatch : s.j.qs.latch = none)
    (hc : c < 18) (hx : s.j.cluster? c = some x) :
    exec (.registerReadClear (0x40008 + c * 0x40) d) s = .next
      { s with
        j := (s.j.mapCluster c fun x => { x with admHigh := x.admq.length }).emit
          (.readResponse (0x40008 + c * 0x40) (BitVec.ofNat 64 (x.admHigh % 2 ^ 32))) } := by
  obtain ⟨-, -, -, -, h9⟩ := serving_facts h
  have hreg := s.j.regAt_highWater hc hx
  have hans : s.j.readAnswer (0x40008 + c * 0x40) = x.admHigh % 2 ^ 32 := by
    rw [Jenjor.readAnswer_of_no_latch (by simp [hlatch]), Jenjor.peek_of_reg h9 hreg]
    rfl
  have hnext : s.j.latchAfter (0x40008 + c * 0x40) = none :=
    Jenjor.latchAfter_of_narrow fun r hr => by rw [hreg] at hr; cases hr; rfl
  rw [exec_read_aligned d h (by omega) (by omega), hans, hnext, Jenjor.latch_none_eta hlatch, Jenjor.readClear_highWater _ hc]
  rfl

/-- Settles O48: what a read answers and latches, by what lies at its address. -/
theorem registerReads : Obligations.RegisterReads := by
  unfold Obligations.RegisterReads
  refine ⟨fun s a d => ⟨exec_registerLowHalfRead s a, fun hs ha h4 hlatch => ?_, fun hs ha h4 x hx => ?_⟩,
    fun s c d x hs hlatch hc hx => ?_, fun s a d hlive hup hdown => ?_, fun s a d hlive hup => ?_⟩
  · obtain ⟨-, -, -, -, h9⟩ := serving_facts hs
    obtain ⟨t, hexec, hout, hnext, hmem⟩ := exec_read_answers d hs ha h4
    rw [Jenjor.readAnswer_of_no_latch (by simp [hlatch])] at hout
    refine ⟨fun v hv => ⟨t, hexec, ?_, ?_, hmem⟩, fun r hr hw => ⟨t, hexec, ?_, ?_, hmem⟩,
      fun hnone hlow => ⟨t, hexec, ?_, hmem⟩⟩
    · rw [hout, Jenjor.peek_of_reg h9 hv]
      rfl
    · rw [hnext, Jenjor.latchAfter_of_narrow]
      intro r hr
      rw [hv] at hr
      cases hr
      rfl
    · rw [hout, Jenjor.peek_of_reg h9 hr]
    · rw [hnext, Jenjor.latchAfter_of_wide h9 hr hw]
    · rw [hout, Jenjor.peek_of_unoccupied h9 ⟨hnone, hlow⟩]
      rfl
  · obtain ⟨t, hexec, hout, -, -⟩ := exec_read_answers d hs ha h4
    exact ⟨t, hexec, by rw [hout, Jenjor.readAnswer_of_latch hx]⟩
  · exact ⟨_, exec_read_highWater d hs hlatch hc hx, rfl, Jenjor.cluster?_mapCluster _ (fun _ => rfl) hx, rfl⟩
  · rw [exec_registerReadClear _ _ hlive]
    refine ⟨fun hstep => ?_, fun hstep ha => ?_, fun h9 ha h4 hlatch hserved => ?_, fun bar addr => ?_⟩
    · rw [Jenjor.readWord_before_step5 _ _ hup hdown hstep]
      rfl
    · rw [Jenjor.readWord_outside_bar0 _ _ hup hdown hstep ha]
      rfl
    · rw [Jenjor.readWord_in_recovery d hup hdown h9 ha h4 hlatch hserved]
      rfl
    · refine (onBlocks_of_live _ hlive).trans ?_
      simp only [hup, hdown, Bool.not_false, Bool.and_self, if_true]
      rfl
  · rw [exec_registerReadClear _ _ hlive, Jenjor.readWord_of_endpointDown _ _ hup]

end Sys2Proof.Machine
end

section
namespace Sys2Proof.Machine
namespace Jenjor

/-! ### Writes where no register lies (R6, R335, R432, R443) -/

theorem unitAt_eq_some {base stride n off : Nat} (hlo : base ≤ off) (hhi : off < base + stride * n) :
    unitAt base stride n off = some ((off - base) / stride, (off - base) % stride) := if_pos ⟨hlo, hhi⟩

theorem regAt_of_msix (j : Jenjor) {a : Nat} (ha : 0xF00000 ≤ a) : j.regAt a = j.msixReg a := if_pos ha

/-- The MSI-X table is occupied at every word of an entry, and so is the Pending Bit Array (R443). -/
theorem unitAt_of_msix_none {j : Jenjor} {a : Nat} (ha : 0xF00000 ≤ a) (h4 : a % 4 = 0) (h : j.regAt a = none) :
    unitAt 0xF00000 0x10 2048 a = none ∧ ¬(0xF08000 ≤ a ∧ a < 0xF08100) := by
  rw [regAt_of_msix j ha] at h
  have htable : unitAt 0xF00000 0x10 2048 a = none := by
    by_contra hu
    have hlt : a < 0xF00000 + 0x10 * 2048 := by
      by_contra hge
      exact hu (unitAt_eq_none_of_le (by omega))
    have hr : (a - 0xF00000) % 0x10 = 0 ∨ (a - 0xF00000) % 0x10 = 4 ∨ (a - 0xF00000) % 0x10 = 8 ∨
        (a - 0xF00000) % 0x10 = 12 := by omega
    unfold msixReg at h
    rw [unitAt_eq_some ha hlt] at h
    obtain hr | hr | hr | hr := hr <;> rw [hr] at h <;> cases h
  refine ⟨htable, fun ⟨hlo, hhi⟩ => ?_⟩
  have hr : (a - 0xF08000) % 4 = 0 := by omega
  unfold msixReg at h
  rw [htable, unitAt_eq_some hlo (by omega), hr] at h
  cases h

theorem writeMsix_of_none {j : Jenjor} {a : Nat} (v : BitVec 32) (ha : 0xF00000 ≤ a) (h4 : a % 4 = 0)
    (h : j.regAt a = none) : j.writeMsix a v = j.discard 0 a := by
  obtain ⟨htable, hpba⟩ := unitAt_of_msix_none ha h4 h
  unfold writeMsix
  rw [htable]
  exact if_neg hpba

/-- A word that is no register's low or high half takes no write (R6). -/
theorem writeWord_of_unoccupied {j : Jenjor} {a : Nat} (v set : BitVec 32) (h9 : j.alm.step ≠ 9) (h4 : a % 4 = 0)
    (h : unoccupied j a) : j.writeWord a v set = j.discard 0 a := by
  obtain ⟨hnone, hlow⟩ := h
  unfold writeWord
  by_cases ha : 0xF00000 ≤ a
  · rw [if_pos ha]
    exact writeMsix_of_none v ha h4 hnone
  rw [if_neg ha, if_neg h9, hnone]
  dsimp only
  by_cases hle : 4 ≤ a
  · rw [if_pos hle]
    cases hr : j.regAt (a - 4) with
    | none => rfl
    | some r =>
      have hn := hlow r hle hr
      cases r with
      | word v => rfl
      | quad v => cases hn
      | ctr => cases hn
  · rw [if_neg hle]

theorem discard_regAt_none (j : Jenjor) (unit addr a : Nat) : (j.discard unit addr).regAt a = none ↔ j.regAt a = none := by
  rw [discard_frame]
  exact regAt_withLogs_none ..

/-- A discard leaves both halves of two words with no register unoccupied. -/
theorem discard_unoccupied {j : Jenjor} (unit addr : Nat) {a : Nat} (h : j.regAt a = none) (hnext : j.regAt (a + 4) = none) :
    unoccupied (j.discard unit addr) (a + 4) := by
  refine ⟨(discard_regAt_none ..).mpr hnext, fun r _ hr => ?_⟩
  rw [Nat.add_sub_cancel, (discard_regAt_none ..).mpr h] at hr
  cases hr

/-- An 8-byte write to two words that no register occupies is two discarded writes (R6, R432). -/
theorem writeEight_of_unoccupied {j : Jenjor} {a : Nat} (v set : BitVec 64) (h9 : j.alm.step ≠ 9) (h8 : a % 8 = 0)
    (h : unoccupied j a) (hnext : unoccupied j (a + 4)) : j.writeEight a v set = (j.discard 0 a).discard 0 (a + 4) := by
  have hquad : ¬(quadRW a = true ∧ j.alm.step ≠ 9) := fun hq => by
    obtain ⟨w, hw⟩ := j.regAt_of_quadRW hq.1
    rw [h.1] at hw
    cases hw
  unfold writeEight
  rw [if_neg hquad, writeWord_of_unoccupied _ _ h9 (by omega) h,
    writeWord_of_unoccupied _ _ (by rwa [discard_alm]) (by omega) (discard_unoccupied _ _ h.1 hnext.1)]

/-! ### Sizes and alignment of a BAR0 write (R335) -/

section
variable (j : Jenjor) {a w : Nat} (v set : BitVec 64)

theorem barWrite_outside_bar0 (ha : 0x1000000 ≤ a) : j.barWrite a w v set = j.emit (.unsupportedRequest a) := if_pos ha

theorem barWrite_narrow (ha : a < 0x1000000) (hw : w < 4) : j.barWrite a w v set = j.discard 0 a := by
  unfold barWrite
  rw [if_neg (by omega), if_pos hw]

theorem barWrite_word (ha : a < 0x1000000) (h4 : a % 4 = 0) :
    j.barWrite a 4 v set = j.writeWord a (v.setWidth 32) (set.setWidth 32) := by
  simp [barWrite, Nat.not_le.mpr ha, h4]

theorem barWrite_eight (ha : a < 0x1000000) (h8 : a % 8 = 0) : j.barWrite a 8 v set = j.writeEight a v set := by
  simp [barWrite, Nat.not_le.mpr ha, h8]

theorem barWrite_misaligned (ha : a < 0x1000000) (hw : w = 4 ∨ w = 8) (hmod : a % w ≠ 0) :
    j.barWrite a w v set = ((j.emit (.completerAbort a)).emit (.aer 0)).info blkLNK 0 0xFFFF a := by
  unfold barWrite
  rw [if_neg (by omega), if_neg (by omega), if_neg fun h => hmod h.2]

end
end Jenjor

/-- Settles O60: reads answer zero and latch nothing, narrow and 4-byte writes are one discard, 8-byte writes two. -/
theorem unoccupiedAddresses : Obligations.UnoccupiedAddresses := by
  unfold Obligations.UnoccupiedAddresses
  intro s a hs ha hun
  obtain ⟨hlive, hup, hdown, hstep, h9⟩ := serving_facts hs
  refine ⟨fun hlatch d => ?_, fun w v set hw => ?_, fun v set h8 hnext => ?_⟩
  · have hread : ∀ d, s.j.readWord a d
        = { s.j with qs := { s.j.qs with latch := none }, out := .readResponse a 0 :: s.j.out } := fun d => by
      rw [Jenjor.readWord_eq _ _ _ hup hdown hstep ha, if_neg h9, Jenjor.readClear_eq_self_of_none _ _ _ hun.1,
        Jenjor.readAnswer_of_no_latch hlatch, Jenjor.peek_of_unoccupied h9 hun, Nat.zero_div,
        Jenjor.latchAfter_of_narrow fun r hr => by rw [hun.1] at hr; cases hr]
      rfl
    rw [exec_registerLowHalfRead, exec_registerReadClear _ _ hlive, exec_registerReadClear _ _ hlive, hread, hread]
    exact ⟨rfl, rfl⟩
  · refine ⟨_, exec_registerWrite a w v set hs, ?_⟩
    obtain hw | ⟨rfl, h4⟩ := hw
    · rw [Jenjor.barWrite_narrow _ _ _ ha hw]
      exact discarded_discard ..
    · rw [show a / 4 * 4 = a by omega] at hun
      rw [Jenjor.barWrite_word _ _ _ ha h4, Jenjor.writeWord_of_unoccupied _ _ h9 h4 hun]
      exact discarded_discard ..
  · rw [show a / 4 * 4 = a by omega] at hun
    rw [exec_registerWrite a 8 v set hs, Jenjor.barWrite_eight _ _ _ ha h8, Jenjor.writeEight_of_unoccupied _ _ h9 h8 hun hnext]
    refine ⟨_, rfl, ?_, ?_, ?_⟩
    · dsimp only
      rw [Jenjor.discard_count, Jenjor.discard_count, BitVec.add_assoc]
      rfl
    · dsimp only
      rw [Jenjor.discard_head, Jenjor.discard_head]
    · rw [Jenjor.discard_frame (s.j.discard 0 a), Jenjor.discard_frame s.j]

/-! ### Registers that take a write -/

namespace Jenjor

theorem halves_eta {q : QueueState} {hs : List (Nat × BitVec 32)} (h : q.halves = hs) : { q with halves := hs } = q := by
  rw [← h]

/-- A whole write of a 64-bit register with no half written before it (R432). -/
theorem writeEight_of_quadRW {j : Jenjor} {a : Nat} (v set : BitVec 64) (hq : quadRW a = true) (h9 : j.alm.step ≠ 9)
    (hh : j.qs.halves = []) : j.writeEight a v set = j.writeQuad a v := by
  unfold writeEight
  rw [if_pos ⟨hq, h9⟩, hh]
  exact congrArg (fun q => ({ j with qs := q } : Jenjor).writeQuad a v) (halves_eta hh)

section
variable {j : Jenjor} {a : Nat} (v set : BitVec 32) (ha : a < 0xF00000) (h9 : j.alm.step ≠ 9)
include ha h9

theorem writeWord_of_word {x : Nat} (h : j.regAt a = some (.word x)) : j.writeWord a v set = j.writeField a v set := by
  unfold writeWord
  rw [if_neg (by omega), if_neg h9, h]

theorem writeWord_of_ctr (h : j.regAt a = some .ctr) : j.writeWord a v set = j := by
  unfold writeWord
  rw [if_neg (by omega), if_neg h9, h]

theorem writeWord_of_low {x : Nat} (h : j.regAt a = some (.quad x)) (hq : quadRW a = true) :
    j.writeWord a v set = j.writeHalf a false v := by
  unfold writeWord
  rw [if_neg (by omega), if_neg h9, h]
  exact if_pos hq

theorem writeWord_of_high {x : Nat} (h4 : 4 ≤ a) (hnone : j.regAt a = none) (h : j.regAt (a - 4) = some (.quad x))
    (hq : quadRW (a - 4) = true) : j.writeWord a v set = j.writeHalf (a - 4) true v := by
  unfold writeWord
  rw [if_neg (by omega), if_neg h9, hnone, if_pos h4, h]
  exact if_pos hq

theorem writeWord_of_ctr_high (h4 : 4 ≤ a) (hnone : j.regAt a = none) (h : j.regAt (a - 4) = some .ctr) :
    j.writeWord a v set = if (v &&& ~~~set).getLsbD 31 then j.clearOvf (a - 4) else j := by
  unfold writeWord
  rw [if_neg (by omega), if_neg h9, hnone, if_pos h4, h]

end

theorem writeHalf_low {j : Jenjor} (a : Nat) (v : BitVec 32) (hh : j.qs.halves = []) :
    j.writeHalf a false v = { j with qs := { j.qs with halves := [(a, v)] } } := by
  simp [writeHalf, hh]

theorem writeHalf_high {j : Jenjor} (a : Nat) (v lo : BitVec 32) (hh : j.qs.halves = [(a, lo)]) :
    j.writeHalf a true v = ({ j with qs := { j.qs with halves := [] } }).writeQuad a (v ++ lo) := by
  simp [writeHalf, hh]

theorem writeQuad_aqSqBase (j : Jenjor) (v : BitVec 64) :
    j.writeQuad 0x100 v = j.setAdmin 0x100 fun q => { q with aqSqBase := v >>> 12 <<< 12 } := rfl

theorem writeQuad_windowBase (j : Jenjor) (v : BitVec 64) : j.writeQuad 0x140 v = j.setWindowBase v := rfl

theorem writeQuad_logWindow (j : Jenjor) (v : BitVec 64) : j.writeQuad 0xF0008 v = j.setLogWindow v := rfl

theorem setAdmin_of_ready {j : Jenjor} (off : Nat) (f : QueueState → QueueState) (h : j.qs.aqReady = true) :
    j.setAdmin off f = j.discard 0 off := if_pos h

theorem setAdmin_of_not_ready {j : Jenjor} (off : Nat) (f : QueueState → QueueState) (h : j.qs.aqReady = false) :
    j.setAdmin off f = { j with qs := f j.qs } := by
  simp [setAdmin, h]

theorem writeHalf_aqSqBase_high {j : Jenjor} (v lo : BitVec 32) (hr : j.qs.aqReady = false)
    (hh : j.qs.halves = [(0x100, lo)]) : j.writeHalf 0x100 true v
      = { j with qs := { j.qs with halves := [], aqSqBase := (v ++ lo) >>> 12 <<< 12 } } := by
  rw [writeHalf_high _ _ _ hh, writeQuad_aqSqBase]
  exact setAdmin_of_not_ready _ _ hr

theorem writeField_errSummary (j : Jenjor) (v set : BitVec 32) : j.writeField 0xF0010 v set =
    { j with log := { j.log with errClass := j.log.errClass &&& ~~~((v &&& ~~~set).extractLsb' 2 3) } } := rfl

/-- Clearing an overflow bit leaves the count (R11). -/
theorem counter_clearOvf_self (j : Jenjor) (a : Nat) : (j.clearOvf a).counter a = { j.counter a with ovf := false } := by
  unfold clearOvf
  dsimp only
  split
  case isTrue hc =>
    change ((j.ctrs.filter fun x => x.1 != a).lookup a).getD _ = _
    rw [lookup_filter_self, hc]
    rfl
  case isFalse => exact congrArg (Option.getD · _) List.lookup_cons_self

theorem counter_clearOvf_ne (j : Jenjor) {a b : Nat} (hb : b ≠ a) : (j.clearOvf a).counter b = j.counter b := by
  have hne : (b == a) = false := by simpa using hb
  unfold clearOvf
  dsimp only
  split
  · exact congrArg (Option.getD · _) (lookup_filter_ne _ _ _ hb)
  · refine congrArg (Option.getD · _) ?_
    rw [List.lookup_cons, hne]
    exact lookup_filter_ne _ _ _ hb

theorem clearOvf_frame (j : Jenjor) (a : Nat) : j.clearOvf a = { j with ctrs := (j.clearOvf a).ctrs } := rfl

/-- A W1C overflow bit: written with 1 it clears, else it stays (R8). -/
def clearOvfWhen (j : Jenjor) (b : Bool) (a : Nat) : Jenjor := if b then j.clearOvf a else j

theorem counter_clearOvfWhen_self (j : Jenjor) (b : Bool) (a : Nat) :
    (j.clearOvfWhen b a).counter a = { j.counter a with ovf := if b then false else (j.counter a).ovf } := by
  cases b
  · rfl
  · exact counter_clearOvf_self ..

theorem counter_clearOvfWhen_ne (j : Jenjor) (b : Bool) {a c : Nat} (h : c ≠ a) :
    (j.clearOvfWhen b a).counter c = j.counter c := by
  cases b
  · rfl
  · exact counter_clearOvf_ne _ h

theorem clearOvfWhen_frame (j : Jenjor) (b : Bool) (a : Nat) :
    j.clearOvfWhen b a = { j with ctrs := (j.clearOvfWhen b a).ctrs } := by
  cases b
  · rfl
  · exact clearOvf_frame ..

theorem clearRingOvf_eq (j : Jenjor) (n : Nat) (v : BitVec 32) :
    j.clearRingOvf n v
      = (j.clearOvfWhen (v.getLsbD 0) (0x21020 + n * 0x40)).clearOvfWhen (v.getLsbD 1) (0x21028 + n * 0x40) := by
  have hbase : blkBase blkMER = 0x20000 := rfl
  unfold clearRingOvf
  rw [show 0x21020 + n * 0x40 = blkBase blkMER + 0x1000 + n * 0x40 + 0x20 by omega,
    show 0x21028 + n * 0x40 = blkBase blkMER + 0x1000 + n * 0x40 + 0x28 by omega]
  rfl

section
variable (j : Jenjor) (v : BitVec 64)

theorem setWindowBase_of_unbound (h : j.dom.tenant ≠ .bound) (h' : j.dom.tenant ≠ .suspended) :
    j.setWindowBase v = { j with qs := { j.qs with windowBase := v >>> 26 <<< 26 } } := if_neg (not_or.mpr ⟨h, h'⟩)

theorem setWindowBase_of_bound (h : j.dom.tenant = .bound ∨ j.dom.tenant = .suspended) :
    j.setWindowBase v = j.discard 0 0x140 := if_pos h

end

/-- SEE_CTL takes a disarm always, and an arm of a kind that is not reserved while no tenant is bound or debug is open
(R429). -/
theorem setSeeCtl_taken {j : Jenjor} {v : BitVec 32}
    (h : v.getLsbD 8 = false ∨ (j.dom.tenant = .unbound ∨ j.dom.debug = true) ∧ (v.extractLsb' 0 4).toNat ≤ 6) :
    j.setSeeCtl v = { j with see := { j.see with arm := v.getLsbD 8, kind := v.extractLsb' 0 4, spent := false } } := by
  unfold setSeeCtl
  refine if_neg ?_
  obtain harm | ⟨hopen, hkind⟩ := h
  · simp only [harm, Bool.false_and, Bool.false_eq_true, not_false_eq_true]
  · obtain ht | hd := hopen <;> simp_all

theorem setSeeCtl_refused {j : Jenjor} {v : BitVec 32} (harm : v.getLsbD 8 = true) (ht : j.dom.tenant ≠ .unbound)
    (hd : j.dom.debug = false) : j.setSeeCtl v = j.discard 0 (blkBase blkSEE) := by
  unfold setSeeCtl
  refine if_pos ?_
  simp [harm, ht, hd]

/-- The data word of an MSI-X table entry (R443). -/
theorem unitAt_msixData {n : Nat} (hn : n < 2048) : unitAt 0xF00000 0x10 2048 (0xF00000 + n * 0x10 + 8) = some (n, 8) := by
  rw [Nat.mul_comm n]
  exact unitAt_unit _ _ hn (by decide)

theorem writeMsix_data {j : Jenjor} {n : Nat} (v : BitVec 32) (hn : n < 2048) (hv : n < j.lnk.vectors) :
    j.writeMsix (0xF00000 + n * 0x10 + 8) v = j.setMsix n { j.msixEntry n with data := v } := by
  unfold writeMsix
  rw [unitAt_msixData hn]
  simp [Nat.not_le.mpr hv]

theorem writeMsix_beyond_table {j : Jenjor} {n : Nat} (v : BitVec 32) (hn : n < 2048) (hv : j.lnk.vectors ≤ n) :
    j.writeMsix (0xF00000 + n * 0x10 + 8) v = j.discard 0 (0xF00000 + n * 0x10 + 8) := by
  unfold writeMsix
  rw [unitAt_msixData hn]
  exact if_pos hv

theorem writeWord_of_msix (j : Jenjor) {a : Nat} (v set : BitVec 32) (ha : 0xF00000 ≤ a) :
    j.writeWord a v set = j.writeMsix a v := if_pos ha

end Jenjor

theorem extract_setWidth_clear (v set : BitVec 64) :
    (v.setWidth 32 &&& ~~~set.setWidth 32).extractLsb' 2 3 = (v &&& ~~~set).extractLsb' 2 3 := by
  ext i hi
  have hlt : 2 + i < 32 := by omega
  have hlt' : 2 + i < 64 := by omega
  simp [hlt, hlt']

theorem getLsbD_clear (v set : BitVec 32) {i : Nat} (hi : i < 32) :
    (v &&& ~~~set).getLsbD i = (v.getLsbD i && !set.getLsbD i) := by
  simp [hi]

section
variable {s : State} (hs : serving s)
include hs

theorem onBlocks_onBar0 (a : Nat) (k : Jenjor → Jenjor) :
    onBlocks (fun j => j.onBar0 a k) s = .next { s with j := k s.j } := by
  rw [onBlocks_of_live _ hs.1, onBar0_of_serving _ _ hs]

theorem exec_windowBaseWrite_full (v : BitVec 64) :
    exec (.windowBaseWrite .full v) s = .next { s with j := s.j.writeEight 0x140 v 0 } :=
  onBlocks_onBar0 hs _ fun j => j.writePart 0x140 .full v

theorem exec_logWindowWrite_full (v : BitVec 64) :
    exec (.logWindowWrite .full v) s = .next { s with j := s.j.writeEight 0xF0008 v 0 } :=
  onBlocks_onBar0 hs _ fun j => j.writePart 0xF0008 .full v

theorem exec_seeArm (v : BitVec 32) : exec (.seeArm v) s = .next { s with j := s.j.setSeeCtl v } :=
  onBlocks_onBar0 hs _ fun j => j.setSeeCtl v

theorem exec_merRingOvfWrite {n : Nat} (hn : n < 64) (v set : BitVec 32) :
    exec (.merRingOvfWrite n ⟨v, set⟩) s = .next { s with j := s.j.clearRingOvf n (v &&& ~~~set) } :=
  (if_pos (decide_eq_true hn)).trans (onBlocks_onBar0 hs _ fun j => j.clearRingOvf n (v &&& ~~~set))

/-- A 4-byte write of an aligned word. -/
theorem exec_registerWrite_word {a : Nat} (v set : BitVec 64) (ha : a < 0x1000000) (h4 : a % 4 = 0) :
    exec (.registerWrite a 4 ⟨v, set⟩) s
      = .next { s with j := s.j.writeWord a (v.setWidth 32) (set.setWidth 32) } := by
  rw [exec_registerWrite _ _ _ _ hs, Jenjor.barWrite_word _ _ _ ha h4]

/-- An 8-byte write of a 64-bit register with no half written before it. -/
theorem exec_registerWrite_quad {a : Nat} (v set : BitVec 64) (ha : a < 0x1000000) (h8 : a % 8 = 0)
    (hq : Jenjor.quadRW a = true) (hh : s.j.qs.halves = []) :
    exec (.registerWrite a 8 ⟨v, set⟩) s = .next { s with j := s.j.writeQuad a v } := by
  obtain ⟨-, -, -, -, h9⟩ := serving_facts hs
  rw [exec_registerWrite _ _ _ _ hs, Jenjor.barWrite_eight _ _ _ ha h8, Jenjor.writeEight_of_quadRW _ _ hq h9 hh]

end

section
variable {s : State} (hs : serving s)
include hs

/-- A write outside a register, of a size or at an alignment that no register takes (R6, R335). -/
theorem writes_discarded_or_refused (a w : Nat) (v set : BitVec 64) :
    (a < 0x1000000 → w < 4 → ∃ t, exec (.registerWrite a w ⟨v, set⟩) s = .next t ∧ discarded s t) ∧
    (a < 0xF00000 → a % 4 = 0 → s.j.regAt a = none → (4 ≤ a → s.j.regAt (a - 4) = none) →
      ∃ t, exec (.registerWrite a 4 ⟨v, set⟩) s = .next t ∧ discarded s t) ∧
    (0x1000000 ≤ a → exec (.registerWrite a w ⟨v, set⟩) s
      = .next { s with j := { s.j with out := .unsupportedRequest a :: s.j.out } }) ∧
    (a < 0x1000000 → w = 4 ∨ w = 8 → a % w ≠ 0 → ∃ t, exec (.registerWrite a w ⟨v, set⟩) s = .next t ∧
      t.j.out = .aer 0 :: .completerAbort a :: s.j.out ∧
      t = { s with j := { s.j with out := t.j.out, log := t.j.log, ctrs := t.j.ctrs } }) := by
  obtain ⟨-, -, -, -, h9⟩ := serving_facts hs
  refine ⟨fun ha hw => ⟨_, exec_registerWrite a w v set hs, ?_⟩, fun ha h4 hnone hlow => ?_, fun ha => ?_,
    fun ha hw hmod => ?_⟩
  · rw [Jenjor.barWrite_narrow _ _ _ ha hw]
    exact discarded_discard ..
  · have hun : unoccupied s.j a := ⟨hnone, fun r hle hr => by rw [hlow hle] at hr; cases hr⟩
    refine ⟨_, exec_registerWrite_word hs v set (by omega) h4, ?_⟩
    rw [Jenjor.writeWord_of_unoccupied _ _ h9 h4 hun]
    exact discarded_discard ..
  · rw [exec_registerWrite _ _ _ _ hs, Jenjor.barWrite_outside_bar0 _ _ _ ha]
    rfl
  · refine ⟨_, exec_registerWrite a w v set hs, ?_⟩
    rw [Jenjor.barWrite_misaligned _ _ _ ha hw hmod]
    refine ⟨Jenjor.info_out .., congrArg (fun j => { s with j := j }) ?_⟩
    apply Jenjor.eq_of_fields <;> simp

/-- The admin queue's base (R432, R439): a whole write, a stored low half, a high half with its low half. -/
theorem adminBase_writes (v set : BitVec 64) :
    (s.j.qs.aqReady = true → s.j.qs.halves = [] →
      ∃ t, exec (.registerWrite 0x100 8 ⟨v, set⟩) s = .next t ∧ discarded s t) ∧
    (s.j.qs.aqReady = false → s.j.qs.halves = [] → exec (.registerWrite 0x100 8 ⟨v, set⟩) s
      = .next { s with j := { s.j with qs := { s.j.qs with aqSqBase := v >>> 12 <<< 12 } } }) ∧
    (s.j.qs.halves = [] → exec (.registerWrite 0x100 4 ⟨v, set⟩) s
      = .next { s with j := { s.j with qs := { s.j.qs with halves := [(0x100, v.setWidth 32)] } } }) ∧
    (∀ lo : BitVec 32, s.j.qs.aqReady = false → s.j.qs.halves = [(0x100, lo)] →
      exec (.registerWrite 0x104 4 ⟨v, set⟩) s = .next { s with
        j := { s.j with qs := { s.j.qs with halves := [], aqSqBase := (v.setWidth 32 ++ lo) >>> 12 <<< 12 } } }) := by
  obtain ⟨-, -, -, -, h9⟩ := serving_facts hs
  refine ⟨fun hr hh => ?_, fun hr hh => ?_, fun hh => ?_, fun lo hr hh => ?_⟩
  · refine ⟨_, exec_registerWrite_quad hs v set (by decide) (by decide) (by decide) hh, ?_⟩
    rw [Jenjor.writeQuad_aqSqBase, Jenjor.setAdmin_of_ready _ _ hr]
    exact discarded_discard ..
  · rw [exec_registerWrite_quad hs v set (by decide) (by decide) (by decide) hh, Jenjor.writeQuad_aqSqBase,
      Jenjor.setAdmin_of_not_ready _ _ hr]
  · rw [exec_registerWrite_word hs v set (by decide) (by decide),
      Jenjor.writeWord_of_low _ _ (by decide) h9 (Jenjor.regAt_aqSqBase _) (by decide), Jenjor.writeHalf_low _ _ hh]
  · rw [exec_registerWrite_word hs v set (by decide) (by decide),
      Jenjor.writeWord_of_high _ _ (by decide) h9 (by decide) (Jenjor.regAt_aqSqBase_high _) (Jenjor.regAt_aqSqBase _)
        (by decide),
      Jenjor.writeHalf_aqSqBase_high _ _ hr hh]

/-- LOG_ERR_SUMMARY's classes and the overflow bit of LOG_DISCARDS are W1C; the counter itself ignores a write (R7, R8). -/
theorem logbook_w1c_writes (v set : BitVec 64) :
    (exec (.registerWrite 0xF0010 4 ⟨v, set⟩) s = .next { s with
      j := { s.j with log := { s.j.log with errClass := s.j.log.errClass &&& ~~~((v &&& ~~~set).extractLsb' 2 3) } } }) ∧
    (v.getLsbD 31 = true → set.getLsbD 31 = false → ∃ t, exec (.registerWrite 0xF0024 4 ⟨v, set⟩) s = .next t ∧
      t.j.counter 0xF0020 = { s.j.counter 0xF0020 with ovf := false } ∧ t = { s with j := { s.j with ctrs := t.j.ctrs } }) ∧
    (v.getLsbD 31 = false ∨ set.getLsbD 31 = true → exec (.registerWrite 0xF0024 4 ⟨v, set⟩) s = .next s) ∧
    exec (.registerWrite 0xF0020 4 ⟨v, set⟩) s = .next s := by
  obtain ⟨-, -, -, -, h9⟩ := serving_facts hs
  have hhigh : exec (.registerWrite 0xF0024 4 ⟨v, set⟩) s = .next { s with
      j := s.j.clearOvfWhen (v.getLsbD 31 && !set.getLsbD 31) 0xF0020 } := by
    have hbit : (v.setWidth 32 &&& ~~~set.setWidth 32).getLsbD 31 = (v.getLsbD 31 && !set.getLsbD 31) := by simp
    rw [exec_registerWrite_word hs v set (by decide) (by decide),
      Jenjor.writeWord_of_ctr_high _ _ (by decide) h9 (by decide) (Jenjor.regAt_logDiscards_high _)
        (Jenjor.regAt_logDiscards _), hbit]
    rfl
  refine ⟨?_, fun hv hset => ⟨_, hhigh, ?_, ?_⟩, fun h => ?_, ?_⟩
  · rw [exec_registerWrite_word hs v set (by decide) (by decide),
      Jenjor.writeWord_of_word _ _ (by decide) h9 (Jenjor.regAt_errSummary _), Jenjor.writeField_errSummary,
      extract_setWidth_clear]
  · rw [hv, hset]
    exact Jenjor.counter_clearOvfWhen_self ..
  · exact congrArg (fun j => { s with j := j }) (Jenjor.clearOvfWhen_frame ..)
  · have hbit : (v.getLsbD 31 && !set.getLsbD 31) = false := by
      obtain hv | hset := h
      · rw [hv, Bool.false_and]
      · rw [hset, Bool.not_true, Bool.and_false]
    rw [hhigh, hbit]
    rfl
  · rw [exec_registerWrite_word hs v set (by decide) (by decide),
      Jenjor.writeWord_of_ctr _ _ (by decide) h9 (Jenjor.regAt_logDiscards _)]

/-- The Logbook's window and the catalogue window's base (R440, R445). -/
theorem window_writes (v : BitVec 64) (hh : s.j.qs.halves = []) :
    (exec (.logWindowWrite .full v) s = .next { s with
      j := { s.j with log := { s.j.log with window := v, record := recordBits s.j.log v.toNat } } }) ∧
    (s.j.dom.tenant ≠ .bound → s.j.dom.tenant ≠ .suspended → exec (.windowBaseWrite .full v) s
      = .next { s with j := { s.j with qs := { s.j.qs with windowBase := v >>> 26 <<< 26 } } }) ∧
    (s.j.dom.tenant = .bound ∨ s.j.dom.tenant = .suspended →
      ∃ t, exec (.windowBaseWrite .full v) s = .next t ∧ discarded s t) := by
  obtain ⟨-, -, -, -, h9⟩ := serving_facts hs
  have hbase : exec (.windowBaseWrite .full v) s = .next { s with j := s.j.setWindowBase v } := by
    rw [exec_windowBaseWrite_full hs, Jenjor.writeEight_of_quadRW _ _ (by decide) h9 hh, Jenjor.writeQuad_windowBase]
  refine ⟨?_, fun hb hsus => ?_, fun hb => ⟨_, hbase, ?_⟩⟩
  · rw [exec_logWindowWrite_full hs, Jenjor.writeEight_of_quadRW _ _ (by decide) h9 hh, Jenjor.writeQuad_logWindow]
    rfl
  · rw [hbase, Jenjor.setWindowBase_of_unbound _ _ hb hsus]
  · rw [Jenjor.setWindowBase_of_bound _ _ hb]
    exact discarded_discard ..

/-- MER_RING_OVF's bits each clear the overflow bit of the counter that it copies (R99). -/
theorem ringOvf_write {n : Nat} (hn : n < 64) (v set : BitVec 32) :
    ∃ t, exec (.merRingOvfWrite n ⟨v, set⟩) s = .next t ∧
      t.j.counter (0x21020 + n * 0x40) = { s.j.counter (0x21020 + n * 0x40) with
        ovf := if v.getLsbD 0 && !set.getLsbD 0 then false else (s.j.counter (0x21020 + n * 0x40)).ovf } ∧
      t.j.counter (0x21028 + n * 0x40) = { s.j.counter (0x21028 + n * 0x40) with
        ovf := if v.getLsbD 1 && !set.getLsbD 1 then false else (s.j.counter (0x21028 + n * 0x40)).ovf } ∧
      t = { s with j := { s.j with ctrs := t.j.ctrs } } := by
  refine ⟨_, exec_merRingOvfWrite hs hn v set, ?_⟩
  rw [Jenjor.clearRingOvf_eq, getLsbD_clear _ _ (by decide), getLsbD_clear _ _ (by decide)]
  dsimp only
  refine ⟨?_, ?_, ?_⟩
  · rw [Jenjor.counter_clearOvfWhen_ne _ _ (by omega), Jenjor.counter_clearOvfWhen_self]
  · rw [Jenjor.counter_clearOvfWhen_self, Jenjor.counter_clearOvfWhen_ne _ _ (by omega)]
  · rw [Jenjor.clearOvfWhen_frame (s.j.clearOvfWhen _ _), Jenjor.clearOvfWhen_frame s.j]

/-- A write of a vector's data word (R443). -/
theorem exec_registerWrite_msixData {n : Nat} (hn : n < 2048) (v set : BitVec 64) :
    exec (.registerWrite (0xF00000 + n * 0x10 + 8) 4 ⟨v, set⟩) s
      = .next { s with j := s.j.writeMsix (0xF00000 + n * 0x10 + 8) (v.setWidth 32) } := by
  rw [exec_registerWrite_word hs v set (by omega) (by omega), Jenjor.writeWord_of_msix _ _ _ (by omega)]

end

/-- Settles O49: each kind of register by the lemma that says what a write of it does. -/
theorem registerWrites : Obligations.RegisterWrites := by
  unfold Obligations.RegisterWrites
  refine ⟨fun s a w v set hs => writes_discarded_or_refused hs a w v set, fun s v set hs => adminBase_writes hs v set,
    fun s v set hs => logbook_w1c_writes hs v set, fun s v hs hh => window_writes hs v hh, fun s v hs => ⟨fun h => ?_,
    fun harm ht hd => ⟨_, exec_seeArm hs v, ?_⟩⟩, fun s n v set hs hn => ?_, fun s n v set hn => ?_,
    fun s n v set hs hv hn => ⟨_, exec_registerWrite_msixData hs hn v set, ?_, ?_⟩,
    fun s n v set hs hv hn => ⟨_, exec_registerWrite_msixData hs hn v set, ?_⟩⟩
  · rw [exec_seeArm hs, Jenjor.setSeeCtl_taken h]
  · rw [Jenjor.setSeeCtl_refused harm ht hd]
    exact discarded_discard ..
  · obtain ⟨t, hexec, hfirst, hsecond, hframe⟩ := ringOvf_write hs hn v set
    exact ⟨t, hexec, by rw [hfirst], by rw [hsecond], by rw [hfirst], by rw [hsecond], hframe⟩
  · exact if_neg (by simpa using hn)
  · rw [Jenjor.writeMsix_data _ hn hv]
    exact Jenjor.setMsix_msixEntry_self ..
  · rw [Jenjor.writeMsix_data _ hn hv]
    rfl
  · rw [Jenjor.writeMsix_beyond_table _ hn hv]
    exact discarded_discard ..

end Sys2Proof.Machine
end

section
namespace Sys2Proof.Machine

/-- How a command or event may answer from `s`: it completes when `known` says that the module has what it names, and faults
otherwise; it leaves the queue of commands alone, stores in catalogue and pool memory only where `cat` and `pool` allow it,
and changes a module that carries out nothing only where `idle` allows it. -/
structure KeepsFrame (known cat pool idle : Bool) (s : State) (o : Host.Outcome State Fault Refusal) : Prop where
  completes : known = true → ∃ t, o = .next t
  faults : known = false → o = .fault .noSuchUnit
  pending : ∀ {t}, o = .next t → t.pending = s.pending
  mem : ∀ {t}, o = .next t → cat = false → t.mem = s.mem
  rmem : ∀ {t}, o = .next t → pool = false → t.rmem = s.rmem
  still : ∀ {t}, o = .next t → s.j.live = false → idle = false → t = s

namespace KeepsFrame

variable {cat pool idle : Bool} {s t : State}

theorem next (hq : t.pending = s.pending) (hm : cat = false → t.mem = s.mem) (hr : pool = false → t.rmem = s.rmem)
    (hl : s.j.live = false → idle = false → t = s) : KeepsFrame true cat pool idle s (.next t) where
  completes _ := ⟨t, rfl⟩
  faults h := Bool.noConfusion h
  pending h := by cases h; exact hq
  mem h := by cases h; exact hm
  rmem h := by cases h; exact hr
  still h := by cases h; exact hl

/-- What a live module does, and one that carries out nothing does not. -/
theorem whenLive (hq : t.pending = s.pending) (hm : cat = false → t.mem = s.mem) (hr : pool = false → t.rmem = s.rmem) :
    KeepsFrame true cat pool idle s (.next (if s.j.live then t else s)) := by
  by_cases h : s.j.live = true
  · rw [if_pos h]
    exact next hq hm hr fun hl => absurd h (by simp [hl])
  · rw [if_neg h]
    exact next rfl (fun _ => rfl) (fun _ => rfl) fun _ _ => rfl

theorem nothing : KeepsFrame true cat pool idle s (.next s) := next rfl (fun _ => rfl) (fun _ => rfl) fun _ _ => rfl

theorem blocks (f : Jenjor → Jenjor) (s : State) : KeepsFrame true cat pool idle s (onBlocks f s) :=
  whenLive rfl (fun _ => rfl) fun _ => rfl

theorem reading (f : List Host.Cell → List Host.Cell → Jenjor → Jenjor) (s : State) :
    KeepsFrame true cat pool idle s (onReading f s) := whenLive rfl (fun _ => rfl) fun _ => rfl

theorem catalogueBytes (f : List Host.Cell → List Host.Cell → Jenjor → List Host.Cell × Jenjor) (s : State) :
    KeepsFrame true true pool idle s (onMemory f s) := whenLive rfl (fun h => Bool.noConfusion h) fun _ => rfl

theorem poolBytes (f : List Host.Cell → List Host.Cell → Jenjor → List Host.Cell × Jenjor) (s : State) :
    KeepsFrame true cat true idle s (onPool f s) := whenLive rfl (fun _ => rfl) fun h => Bool.noConfusion h

theorem power (f : List Host.Cell → Jenjor → List Host.Cell × Jenjor) (s : State) :
    KeepsFrame true true true true s (onPower f s) :=
  next rfl (fun h => Bool.noConfusion h) (fun h => Bool.noConfusion h) fun _ h => Bool.noConfusion h

/-- Of a unit that the module may not have. -/
theorem unit {known has : Bool} {o : Host.Outcome State Fault Refusal} (hknown : known = has)
    (h : KeepsFrame true cat pool idle s o) : KeepsFrame known cat pool idle s (onUnit has o) := by
  subst hknown
  cases known with
  | true => exact h
  | false =>
    exact { completes := fun h => Bool.noConfusion h, faults := fun _ => rfl, pending := (nomatch ·),
            mem := (nomatch ·), rmem := (nomatch ·), still := (nomatch ·) }

theorem writes (code q : Nat) (op : List Byte) (s : State) :
    KeepsFrame true cat pool idle s (writeCommand code q op s) := blocks _ s

theorem message (mb : Mailbox) (busy : Bool) (f : Jenjor → Jenjor) (s : State) :
    KeepsFrame true cat pool idle s (Jenjor.spdm mb busy f s) := blocks _ s

theorem session (mb : Mailbox) (busy : Bool) (sid : Nat) (f : Session → Jenjor → Jenjor) (s : State) :
    KeepsFrame true cat pool idle s (Jenjor.inSession mb busy sid f s) := message mb busy _ s

/-- An event of power, reset, PERST# or JTAG that changes the blocks alone, on a live module or not. -/
theorem always (j : Jenjor) (s : State) : KeepsFrame true cat pool true s (.next { s with j := j }) :=
  next rfl (fun _ => rfl) (fun _ => rfl) fun _ h => Bool.noConfusion h

/-- What a live module does to both memories. -/
theorem bothMemories (hlive : s.j.live = true) (hq : t.pending = s.pending) : KeepsFrame true true true idle s (.next t) :=
  next hq (fun h => Bool.noConfusion h) (fun h => Bool.noConfusion h) fun h => absurd hlive (by simp [h])

/-- Either branch of a condition on the state. -/
theorem branch {known : Bool} {p : Prop} [Decidable p] {o o' : Host.Outcome State Fault Refusal}
    (h : p → KeepsFrame known cat pool idle s o) (h' : ¬p → KeepsFrame known cat pool idle s o') :
    KeepsFrame known cat pool idle s (if p then o else o') := by
  split
  next hp => exact h hp
  next hp => exact h' hp

end KeepsFrame

/-! ### The units that an event names: `wellFormed` of a row that names one unit, one unit and a form, or two units -/

theorem wellFormed_oneUnit (u n : Nat) : (([(u, n)].all fun u => decide (u.1 < u.2)) && true) = decide (u < n) := by simp

theorem wellFormed_oneUnitOfForm (u n : Nat) (form : Bool) :
    (([(u, n)].all fun u => decide (u.1 < u.2)) && form) = (decide (u < n) && form) := by simp

theorem wellFormed_twoUnits (u m v n : Nat) :
    (([(u, m), (v, n)].all fun u => decide (u.1 < u.2)) && true) = (decide (u < m) && decide (v < n)) := by simp

theorem wellFormed_channelAccessRetry (ch : Nat) (fail : Option (Nat × PoolObject)) (overRate : Bool) :
    wellFormed (.channelAccessRetry ch fail overRate) = (decide (ch < 84) && fail.all fun x => decide (x.1 < 2097152)) := by
  cases fail <;> simp [wellFormed, unitNumbers, linkForm]

theorem wellFormed_refresh (ch : Nat) (drift : Bool) (n : Nat) (waiter : Option (Nat × Nat)) :
    wellFormed (.refresh ch drift n waiter) = (decide (ch < 84) && waiter.all fun w => decide (w.1 < 18)) := by
  cases waiter <;> simp [wellFormed, unitNumbers, linkForm]

theorem wellFormed_patrolScrubRead (ch burst : Nat) (words : List (Nat × List Byte × PoolObject)) (bad : List Nat)
    (done : Bool) : wellFormed (.patrolScrubRead ch burst words bad done) = (decide (ch < 84) && decide (burst < 2097152)
      && words.all fun x => decide (x.1 < 32) && x.2.1.length == 68) := by
  rw [Bool.eq_iff_iff]
  simp [wellFormed, unitNumbers, linkForm, and_assoc, forall_and]

/-! ### Power, reset and the events that write memory beside them -/

theorem execPowerGood_keepsFrame (straps : BitVec 3) (s : State) : KeepsFrame true true true true s (execPowerGood straps s) :=
  .branch (fun _ => .power _ s) fun _ => .nothing

theorem execPowerLoss_keepsFrame {cat pool : Bool} (s : State) : KeepsFrame true cat pool true s (execPowerLoss s) := by
  unfold execPowerLoss
  split
  · exact .always _ s
  · exact .always _ s
  · exact .always _ s
  · exact .nothing

theorem execHoldupFlushComplete_keepsFrame (us : Nat) (back : Bool) (s : State) :
    KeepsFrame true true true true s (execHoldupFlushComplete us back s) :=
  .branch (fun _ => .branch (fun _ => .power _ s) fun _ => .always _ s) fun _ => .nothing

theorem execPowerOff_keepsFrame (s : State) : KeepsFrame true true true true s (execPowerOff s) :=
  .branch (fun _ => .nothing) fun _ => .power _ s

theorem execModRstTimeout_keepsFrame (s : State) : KeepsFrame true true true true s (execModRstTimeout s) := by
  unfold execModRstTimeout
  dsimp only
  split
  · split
    · exact .power _ s
    · exact .always _ s
  · exact .always _ s
  · exact .always _ s

theorem execModRstRise_keepsFrame {cat pool : Bool} (ns : Nat) (s : State) :
    KeepsFrame true cat pool true s (execModRstRise ns s) := by
  unfold execModRstRise
  dsimp only
  split
  · exact .always _ s
  · split
    · exact .always _ s
    · split
      · exact .always _ s
      · exact .nothing

theorem execPcieReset_keepsFrame {cat pool : Bool} (kind : PcieResetKind) (s : State) :
    KeepsFrame true cat pool true s (execPcieReset kind s) :=
  .branch (fun _ => .blocks _ s) fun _ => .branch (fun _ => .always _ s) fun _ => .nothing

theorem execJtagInstruction_keepsFrame {cat pool : Bool} (ins : JtagInstr) (s : State) :
    KeepsFrame true cat pool true s (execJtagInstruction ins s) := .branch (fun _ => .nothing) fun _ => .always _ s

theorem execStartStepComplete_keepsFrame (rep : StartReport) (s : State) :
    KeepsFrame true true true false s (execStartStepComplete rep s) := by
  unfold execStartStepComplete
  split
  case h_6 hlive _ => exact .bothMemories hlive rfl
  case h_9 => exact .nothing
  all_goals exact .blocks _ s

/-- An erase, a write or a scrub that only a live module may have in hand. -/
theorem live_of_guarded {α : Type} {live : Bool} {o : Option α} {x : α} (h : (if live then o else none) = some x) :
    live = true := by
  by_contra hl
  simp [hl] at h

theorem execTenantScrubComplete_keepsFrame (us : Nat) (s : State) :
    KeepsFrame true true true false s (execTenantScrubComplete us s) := by
  unfold execTenantScrubComplete
  split
  next => exact .nothing
  next h => exact .bothMemories (live_of_guarded h) rfl

theorem execLifecycleEraseComplete_keepsFrame (s : State) :
    KeepsFrame true true true false s (execLifecycleEraseComplete s) := by
  unfold execLifecycleEraseComplete
  split
  next => exact .nothing
  next h => exact .bothMemories (live_of_guarded h) rfl

theorem execAlmanacWriteComplete_keepsFrame (s : State) : KeepsFrame true true true false s (execAlmanacWriteComplete s) := by
  unfold execAlmanacWriteComplete
  split
  next => exact .nothing
  next img h =>
    exact .branch (fun _ => .bothMemories (live_of_guarded h) rfl) fun _ => .bothMemories (live_of_guarded h) rfl

theorem execFirmwareWrite_keepsFrame (role : Role) (named : Bool) (rec : FwRecord) (s : State) :
    KeepsFrame true true true false s (execFirmwareWrite role named rec s) :=
  .branch (fun h => .bothMemories (by simp only [Bool.and_eq_true] at h; tauto) rfl) fun _ => .blocks _ s

/-- Every command and event, by the form of its meaning. -/
theorem exec_keepsFrame (c : Instr) (s : State) :
    KeepsFrame (wellFormed c) (storesInCatalogue c) (storesInPool c) (actsWhileNotLive c) s (exec c s) := by
  unfold exec
  cases c with
  | merRingOvfWrite | msixVectorUnmask | tgStart | tgStop | tgPassComplete | carrierRelease | islRetire
  | plateGroupDeal | plateFillComplete | plateRecheckComplete | flip | ringBoundary | batchAccumulateEnd
  | admissionArrival | boundaryInstall | specRequestIssue | ringStretch | encoderCoreFailure | nop | endStream | seti
  | addi | muli | andi | loop | skipz | fence | bar | wld | wrcv | wfwd | flipStage | aclr | mma | mout | qrow | gath
  | norm | gelu | addv | mulv | rope | attn | pool | xall | emit | clusterHardFault | clusterPlannedRetire | channelRetrain
  | channelSubstitutionStart | channelSubstitutionComplete | channelLost | d2dFlitReplay | islandTempRead
  | clockStepDownTimer | clockStepUpTimer | islandFloorTimeout | hubOvertempTimeout | ringRestoreComplete
  | slotEraseTimeout | keyGenerationRetire | mgmtCarrierRelease | attentionButton | carrierSafeToRemove | carrierRemoval
  | carrierInsertion | carrierFailure | carrierRebuildComplete | blockRetire | carrierOvertemp | arpRequest
  | neighbourSolicitation | icmpEcho | ethFrameDropped | ethLinkDown | cmReq | pldmSensorRequest =>
    exact .unit (wellFormed_oneUnit ..) (.blocks ..)
  | rerankStart | rerankComplete => exact .unit (wellFormed_oneUnit ..) (.reading ..)
  | modelLoad | recalibrate | descriptorFetch | catalogueWindowRead | recordPageReadComplete | resultDelivery
  | replatingStart | calibrationComplete | modelLoadDecryptComplete | pairRejoin => exact .reading ..
  | objectCreate | atomic | tileWrite | tileRead | tilePrefetch | tileEvict | catalogueWindowWrite | commitPublish
  | objectRelease | allocationRetry | slotWrite | restore | objectWrite =>
    exact .catalogueBytes ..
  | neighbourTempCheck | onfiChannelRetrain => exact .unit (wellFormed_twoUnits ..) (.blocks ..)
  | uncorrectableCodeWord | vaultPageRead | ethLinkUp => exact .unit (wellFormed_oneUnitOfForm ..) (.blocks ..)
  | sqTailDoorbell | cqHeadDoorbell | pcieLinkTrained | companionLinkTrained => exact .unit rfl (.blocks ..)
  | channelAccessRetry => exact .unit (wellFormed_channelAccessRetry ..) (.blocks ..)
  | refresh => exact .unit (wellFormed_refresh ..) (.blocks ..)
  | patrolScrubRead => exact .unit (wellFormed_patrolScrubRead ..) (.blocks ..)
  | insert | update | delete | biasWrite | biasFrame => exact .writes ..
  | getVersion | getCapabilities | negotiateAlgorithms | getDigests | getCertificate | challenge | getMeasurements
  | keyExchange | finish => exact .message ..
  | heartbeat | keyUpdate | endSession | slotErase | slotStatus | debugUnlock | pairCheck | endTenancy => exact .session ..
  | rdmaWrite => exact .poolBytes ..
  | powerGood => exact execPowerGood_keepsFrame ..
  | powerLoss => exact execPowerLoss_keepsFrame ..
  | holdupFlushComplete => exact execHoldupFlushComplete_keepsFrame ..
  | powerOff => exact execPowerOff_keepsFrame ..
  | modRstTimeout => exact execModRstTimeout_keepsFrame ..
  | modRstRise => exact execModRstRise_keepsFrame ..
  | pcieReset => exact execPcieReset_keepsFrame ..
  | perstRelease => exact .always ..
  | jtagInstruction => exact execJtagInstruction_keepsFrame ..
  | startStepComplete => exact execStartStepComplete_keepsFrame ..
  | tenantScrubComplete => exact execTenantScrubComplete_keepsFrame ..
  | lifecycleEraseComplete => exact execLifecycleEraseComplete_keepsFrame ..
  | almanacWriteComplete => exact execAlmanacWriteComplete_keepsFrame ..
  | firmwareWrite => exact execFirmwareWrite_keepsFrame ..
  | _ => exact .blocks ..

/-! ### Tile commands that store nothing (R257) -/

theorem Jenjor.tileCmd_keeps_memory (mem : List Host.Cell) (j : Jenjor) (q code : Nat)
    (body : Jenjor → Fetched → Obj → List Host.Cell × Jenjor) (hbody : ∀ k f o, (body k f o).1 = mem) :
    (Jenjor.tileCmd mem j q code body).1 = mem := by
  unfold Jenjor.tileCmd
  split
  · rfl
  · split
    · rfl
    · rfl
    · exact hbody ..

theorem onMemory_keeps_memory {f : List Host.Cell → List Host.Cell → Jenjor → List Host.Cell × Jenjor} {s t : State}
    (hf : (f s.mem s.rmem s.j).1 = s.mem) (h : onMemory f s = .next t) : t.mem = s.mem := by
  unfold onMemory at h
  split at h
  · cases h; exact hf
  · cases h; rfl

theorem execTileRead_keeps_memory {q : Nat} {s t : State} (h : execTileRead q s = .next t) : t.mem = s.mem := by
  refine onMemory_keeps_memory (Jenjor.tileCmd_keeps_memory _ _ _ _ _ fun k f o => ?_) h
  dsimp only
  split
  · rfl
  · rfl

theorem execTilePrefetch_keeps_memory {q : Nat} {s t : State} (h : execTilePrefetch q s = .next t) : t.mem = s.mem :=
  onMemory_keeps_memory (Jenjor.tileCmd_keeps_memory _ _ _ _ _ fun _ _ _ => by rfl) h

theorem execTileEvict_keeps_memory {q : Nat} {s t : State} (h : execTileEvict q s = .next t) : t.mem = s.mem :=
  onMemory_keeps_memory (Jenjor.tileCmd_keeps_memory _ _ _ _ _ fun _ _ _ => by rfl) h

/-- Settles O54: the frame of every command by the form of its meaning, and the tile commands that only read. -/
theorem everyCommandCompletesWithinItsFrame : Obligations.EveryCommandCompletesWithinItsFrame := by
  unfold Obligations.EveryCommandCompletesWithinItsFrame
  refine ⟨fun c s => ?_, fun c s t h => ?_, fun c s t hl hi h => ?_, fun q s t h => ?_⟩
  · exact ⟨(exec_keepsFrame c s).completes, (exec_keepsFrame c s).faults⟩
  · exact ⟨(exec_keepsFrame c s).pending h, (exec_keepsFrame c s).mem h, (exec_keepsFrame c s).rmem h⟩
  · exact (exec_keepsFrame c s).still h hl hi
  · obtain h | h | h := h
    · exact execTileRead_keeps_memory h
    · exact execTilePrefetch_keeps_memory h
    · exact execTileEvict_keeps_memory h

end Sys2Proof.Machine
end

section
namespace Sys2Proof.Machine

/-! ### The blocks right after reset -/

theorem stoppedRing_of_mem_resetSweep {r : Ring} (h : r ∈ resetSweep.rings) : ∃ n, r = stoppedRing n := by
  obtain ⟨n, -, rfl⟩ := List.mem_map.mp h
  exact ⟨n, rfl⟩

theorem offCluster_of_mem_resetSweep {c : Cluster} (h : c ∈ resetSweep.clusters) : ∃ n, c = offCluster n := by
  obtain ⟨n, -, rfl⟩ := List.mem_map.mp h
  exact ⟨n, rfl⟩

theorem untrainedChan_of_mem_resetMem {c : Chan} (h : c ∈ resetMem.chans) : c = untrainedChan := List.eq_of_mem_replicate h

theorem emptyCarrier_of_mem_resetVault {c : Carrier} (h : c ∈ resetVault.carriers) : c = emptyCarrier :=
  List.eq_of_mem_replicate h

theorem emptyModel_of_mem_resetCoe {m : Model} (h : m ∈ resetCoe.models) : m = emptyModel := List.eq_of_mem_replicate h

theorem gatedIsland_of_mem_resetIslands {i : Island} (h : i ∈ resetIslands.islands) : i = gatedIsland :=
  List.eq_of_mem_replicate h

theorem emptySlot_of_mem_resetDome {k : KeySlot} (h : k ∈ resetDome.slots) : k = emptySlot := List.eq_of_mem_replicate h

/-- Settles O51: the registers by evaluation, the units of each block by the value that reset gives every one of them. -/
theorem resetState : Obligations.ResetState := by
  unfold Obligations.ResetState
  refine ⟨⟨rfl, rfl⟩, rfl, rfl, rfl, fun _ => rfl, fun _ => ⟨rfl, rfl⟩, by decide, rfl, rfl, rfl, rfl, rfl,
    rfl, fun r hr => ?_, rfl, fun c hc => ?_, rfl, fun c hc => ?_, rfl, fun c hc => ?_, rfl, fun m hm => ?_, rfl, fun i hi => ?_,
    rfl, fun k hk => ?_, rfl, rfl, rfl⟩
  · obtain ⟨n, rfl⟩ := stoppedRing_of_mem_resetSweep hr
    exact ⟨rfl, rfl, rfl⟩
  · obtain ⟨n, rfl⟩ := offCluster_of_mem_resetSweep hc
    exact ⟨rfl, rfl⟩
  · rw [untrainedChan_of_mem_resetMem hc]
    exact ⟨rfl, rfl⟩
  · rw [emptyCarrier_of_mem_resetVault hc]
    rfl
  · rw [emptyModel_of_mem_resetCoe hm]
    rfl
  · rw [gatedIsland_of_mem_resetIslands hi]
    rfl
  · rw [emptySlot_of_mem_resetDome hk]
    rfl

end Sys2Proof.Machine
end

section
namespace Sys2Proof.Machine

/-! ### Look-ups after a change of some entries -/

theorem find?_updWhere_of {α : Type} (p q : α → Bool) (f : α → α) (hf : ∀ x, p (f x) = p x) (l : List α) :
    (updWhere q f l).find? p = (l.find? p).map fun x => if q x then f x else x := by
  unfold updWhere
  rw [List.find?_map]
  congr 2
  funext x
  by_cases h : q x = true <;> simp [h, hf]

namespace Jenjor
variable {j : Jenjor} {c n : Nat} {x : Cluster} {r : Ring}

theorem cluster?_mapCluster_map {f : Cluster → Cluster} (hf : ∀ y, (f y).num = y.num) :
    (j.mapCluster n f).cluster? c = (j.cluster? c).map fun y => if y.num == n then f y else y :=
  find?_updWhere_of _ _ f (fun y => by rw [hf]) _

theorem ring?_mapRings {f : Ring → Ring} (hf : ∀ r, (f r).num = r.num) : (j.mapRings f).ring? n = (j.ring? n).map f := by
  unfold ring? mapRings
  rw [List.find?_map]
  congr 2
  funext r
  simp [hf]

theorem ring?_mapRing_self {f : Ring → Ring} (hf : ∀ r, (f r).num = r.num) : (j.mapRing n f).ring? n = (j.ring? n).map f :=
  find?_updWhere _ f (fun r => by rw [hf]) _

theorem num_of_ring? (h : j.ring? n = some r) : r.num = n := by simpa using List.find?_some h

/-! ### A spare takes a cluster's place (R421) -/

/-- A spare as it enters service. -/
def enlisted (x : Cluster) : Cluster := { x with spare := false, active := true }

/-- The module with the spare, if there is one, in service. -/
def withSpare (j : Jenjor) : Option Nat → Jenjor
  | none => j
  | some s => j.mapCluster s enlisted

theorem bringSpare_of_no_ring : j.bringSpare c none = j.withSpare (j.spareFor c) := by
  unfold bringSpare
  cases j.spareFor c <;> rfl

/-- A ring that the spare joins, if there is one, at its next boundary. -/
def joinedBy (o : Option Nat) (r : Ring) : Ring := { r with joining := r.joining ++ o.toList }

theorem mapRing_joinedBy_none : j.mapRing n (joinedBy none) = j := by
  simp [mapRing, joinedBy, updWhere]

/-- A sweeping ring takes the spare at its next boundary (R75). -/
theorem bringSpare_of_sweeping (hr : j.ring? n = some r) (hs : sweeping r = true) :
    j.bringSpare c (some n) = (j.withSpare (j.spareFor c)).mapRing n (joinedBy (j.spareFor c)) := by
  have hholds : holdsClusters r = true := by
    rw [sweeping, Bool.and_eq_true] at hs
    exact hs.1
  unfold bringSpare
  cases j.spareFor c with
  | none => exact mapRing_joinedBy_none.symm
  | some s =>
    dsimp only
    rw [show (some n).bind (j.mapCluster s fun x => { x with spare := false, active := true }).ring? = some r from hr]
    dsimp only
    rw [if_pos hholds, giveClusters, if_pos hs, num_of_ring? hr]
    rfl

/-- The choice of a spare reads the clusters' numbers and their spare, failed and active marks alone. -/
theorem spareFor_of_map {k : Jenjor} {g : Cluster → Cluster} (hk : k.sw.clusters = j.sw.clusters.map g)
    (hg : ∀ y, (g y).num = y.num ∧ (g y).spare = y.spare ∧ (g y).failed = y.failed ∧ (g y).active = y.active) :
    k.spareFor c = j.spareFor c := by
  have hspares : k.sw.clusters.filter (fun x => x.spare && !x.failed && !x.active)
      = (j.sw.clusters.filter fun x => x.spare && !x.failed && !x.active).map g := by
    rw [hk, List.filter_map]
    congr 2
    funext y
    simp [hg]
  have hdie : (fun x : Cluster => decide (x.num < 9) == decide (c < 9)) ∘ g
      = fun x => decide (x.num < 9) == decide (c < 9) := by
    funext y
    simp [hg]
  unfold spareFor
  rw [hspares]
  dsimp only
  rw [List.find?_map, List.head?_map, hdie]
  cases List.find? _ (List.filter _ j.sw.clusters) with
  | some y => simp [hg]
  | none => simp [Function.comp_def, hg]

theorem cluster?_withSpare {o : Option Nat} (h : j.cluster? c = some x) (ha : x.active = true) (hs : x.spare = false) :
    (j.withSpare o).cluster? c = some x := by
  cases o with
  | none => exact h
  | some s =>
    have hx : enlisted x = x := by
      cases x
      simp_all [enlisted]
    rw [withSpare, cluster?_mapCluster_map (f := enlisted) fun _ => rfl, h]
    simp [hx]

theorem withSpare_spare_serves {s : Nat} : (((j.withSpare (some s)).cluster? s).all fun y => y.active && !y.spare) = true := by
  rw [withSpare, show (j.mapCluster s enlisted).cluster? s = (j.cluster? s).map enlisted from
    find?_updWhere _ enlisted (fun _ => rfl) _]
  cases j.cluster? s <;> rfl

/-! ### A cluster retires (R421) -/

/-- A ring as a cluster is announced to leave it (R75). -/
def announcedFrom (c : Nat) (r : Ring) : Ring :=
  { r with joining := r.joining.filter (· != c),
           leaving := if r.clusters.contains c && !r.leaving.contains c then r.leaving ++ [c] else r.leaving }

/-- The module once a cluster takes no new plate group and its rings have it announced. -/
def announcedLeave (j : Jenjor) (c : Nat) : Jenjor :=
  (j.mapCluster c fun x => { x with retiring := true }).mapRings (announcedFrom c)

theorem cluster?_announcedLeave (h : j.cluster? c = some x) :
    (j.announcedLeave c).cluster? c = some { x with retiring := true } :=
  cluster?_mapCluster (fun x => { x with retiring := true }) (fun _ => rfl) h

theorem ring?_announcedLeave : (j.announcedLeave c).ring? n = (j.ring? n).map (announcedFrom c) :=
  ring?_mapRings fun _ => rfl

theorem spareFor_announcedLeave : (j.announcedLeave c).spareFor c = j.spareFor c :=
  spareFor_of_map (g := fun y => if y.num == c then { y with retiring := true } else y) rfl fun y => by split <;> simp

theorem retireCluster_of_serving (h : j.cluster? c = some x) (ha : x.active = true) (hf : x.failed = false)
    (hr : x.retiring = false) :
    j.retireCluster c =
      let home := (j.ringHolding c).map fun r => r.num
      let k := (j.announcedLeave c).bringSpare c home
      (((home.map k.republish).getD k).fault 3 blkMER c 0xFFFF 0 0 0).gateRetired.reassign := by
  unfold retireCluster
  rw [h]
  simp only [ha, hf, hr, Bool.not_true, Bool.or_self, if_false, Bool.false_eq_true]
  rfl

theorem ring?_republish (h : j.ring? n = some r) : ∃ p, (j.republish n).ring? n = some { r with period := p } := by
  unfold republish
  rw [ring?_mapRing_self fun r => by split <;> (try split) <;> rfl, h, Option.map_some]
  split
  · exact ⟨r.period, rfl⟩
  · split
    · exact ⟨_, rfl⟩
    · exact ⟨r.period, rfl⟩

/-- The module once a cluster of ring `n` is announced to leave it and the spare to join it. -/
def spareJoins (j : Jenjor) (c n : Nat) : Jenjor :=
  ((j.announcedLeave c).withSpare (j.spareFor c)).mapRing n (joinedBy (j.spareFor c))

theorem cluster?_spareJoins (hx : j.cluster? c = some x) (ha : x.active = true) (hsp : x.spare = false) :
    (j.spareJoins c n).cluster? c = some { x with retiring := true } :=
  cluster?_withSpare (cluster?_announcedLeave hx) ha hsp

theorem ring?_spareJoins (hr : j.ring? n = some r) :
    (j.spareJoins c n).ring? n = some (joinedBy (j.spareFor c) (announcedFrom c r)) := by
  have hleave : (j.announcedLeave c).ring? n = some (announcedFrom c r) := by
    rw [ring?_announcedLeave, hr, Option.map_some]
  unfold spareJoins
  rw [ring?_mapRing_self (f := joinedBy (j.spareFor c)) fun _ => rfl]
  cases j.spareFor c with
  | none => exact congrArg _ hleave
  | some s => exact congrArg _ hleave

/-- R75, R421: a cluster of a sweeping ring leaves at the ring's next boundary, and its spare joins there. -/
theorem retireCluster_of_sweeping (hx : j.cluster? c = some x) (ha : x.active = true) (hf : x.failed = false)
    (hr : x.retiring = false) (hhold : j.ringHolding c = some r) (hring : j.ring? r.num = some r)
    (hs : sweeping r = true) :
    j.retireCluster c = (((j.spareJoins c r.num).republish r.num).fault 3 blkMER c 0xFFFF 0 0 0).gateRetired.reassign := by
  have hleave : (j.announcedLeave c).ring? r.num = some (announcedFrom c r) := by
    rw [ring?_announcedLeave, hring, Option.map_some]
  rw [retireCluster_of_serving hx ha hf hr, hhold]
  dsimp only [Option.map_some, Option.getD_some]
  rw [bringSpare_of_sweeping hleave hs, spareFor_announcedLeave]
  rfl

/-- R421: a cluster of no ring leaves at once, and its spare is in service. -/
theorem retireCluster_of_no_ring (hx : j.cluster? c = some x) (ha : x.active = true) (hf : x.failed = false)
    (hr : x.retiring = false) (hhold : j.ringHolding c = none) :
    j.retireCluster c
      = (((j.announcedLeave c).withSpare (j.spareFor c)).fault 3 blkMER c 0xFFFF 0 0 0).gateRetired.reassign := by
  rw [retireCluster_of_serving hx ha hf hr, hhold]
  dsimp only [Option.map_none, Option.getD_none]
  rw [bringSpare_of_no_ring, spareFor_announcedLeave]

/-! ### A cluster fails (R421) -/

/-- A cluster as it fails: gated, of no ring, with nothing queued. -/
def failedCluster (x : Cluster) : Cluster :=
  { x with home := none, groups := [], failed := true, active := false, retiring := false, admq := [], specq := [] }

/-- A ring without a cluster. -/
def ringWithout (c : Nat) (r : Ring) : Ring :=
  { r with clusters := r.clusters.filter (· != c), leaving := r.leaving.filter (· != c), joining := r.joining.filter (· != c) }

/-- The module with a failed cluster out of service and logged, before a spare takes its place. -/
def clusterOut (j : Jenjor) (c : Nat) : Jenjor :=
  (((j.mapCluster c failedCluster).mapRings (ringWithout c)).fault 2 blkMER c 0xFFFF 0 Status.internalError.code 0).fault
    3 blkMER c 0xFFFF 0 0 0

theorem failCluster_of_gated (h : j.cluster? c = some x) (ha : x.active = false) :
    j.failCluster c = j.mapCluster c fun x => { x with failed := true, spare := false } := by
  unfold failCluster
  rw [h]
  simp only [ha, Bool.not_false, Bool.true_or, if_true]

theorem failCluster_of_idle (h : j.cluster? c = some x) (ha : x.active = true) (hf : x.failed = false) (hh : x.home = none)
    (hg : ringsServed x = []) (hq : x.admq = []) (hr : j.ringHolding c = none) :
    j.failCluster c = ((j.clusterOut c).bringSpare c none).reassign := by
  unfold failCluster
  rw [h]
  simp only [ha, hf, hh, hg, hq, hr, Bool.not_true, Bool.or_self, Bool.false_eq_true, if_false, Option.toList_none,
    List.append_nil, List.eraseDups_nil, List.foldl_nil, List.any_nil, List.filter_false, List.map_nil, abortAll,
    Option.map_none, Option.bind_none]
  rfl

theorem clusterOut_sw : (j.clusterOut c).sw = ((j.mapCluster c failedCluster).mapRings (ringWithout c)).sw := by
  rw [clusterOut, fault_sw, fault_sw]

theorem cluster?_clusterOut (h : j.cluster? c = some x) : (j.clusterOut c).cluster? c = some (failedCluster x) := by
  unfold cluster?
  rw [clusterOut_sw]
  exact cluster?_mapCluster failedCluster (fun _ => rfl) h

theorem clusterOut_errClass :
    (j.clusterOut c).log.errClass.getLsbD 0 = true ∧ (j.clusterOut c).log.errClass.getLsbD 1 = true := by
  unfold clusterOut
  rw [fault_errClass _ _ _ _ _ _ _ _ (by decide), fault_errClass _ _ _ _ _ _ _ _ (by decide)]
  simp

theorem head_le_sendVector (j : Jenjor) (v : Nat) : j.log.head ≤ (j.sendVector v).log.head := by
  unfold sendVector
  dsimp only
  split
  · rw [record_head]; omega
  · split
    · exact le_of_eq rfl
    · split
      · rw [record_head]; exact Nat.le_succ _
      · exact le_of_eq rfl

theorem head_lt_fault (j : Jenjor) (cls blk unit cause addr : Nat) (st : BitVec 8) (d : BitVec 256) :
    j.log.head < (j.fault cls blk unit cause addr st d).log.head := by
  by_cases h : 2 ≤ cls ∧ cls ≤ 4
  · have hm := summarised_head j cls blk unit cause addr st d
    have hsend := head_le_sendVector (j.summarised cls blk unit cause addr st d) j.log.errVector.toNat
    rw [fault_of_class (h := h)]
    dsimp only
    split <;> split <;> (try simp only [emit_log]) <;> omega
  · rw [fault_eq_record (h := by omega), record_head]
    exact Nat.lt_succ_self _

theorem clusterOut_head : j.log.head + 2 ≤ (j.clusterOut c).log.head :=
  Nat.succ_le_of_lt (Nat.lt_of_le_of_lt (head_lt_fault ((j.mapCluster c failedCluster).mapRings (ringWithout c)) ..)
    (head_lt_fault ..))

theorem clusterOut_cat : (j.clusterOut c).cat = j.cat := by
  rw [clusterOut, fault_cat, fault_cat]
  rfl

end Jenjor

theorem exec_clusterPlannedRetire {s : State} {c : Nat} (hs : s.j.live = true) (hc : c < 18) :
    exec (.clusterPlannedRetire c) s = .next { s with j := s.j.retireCluster c } :=
  (if_pos (decide_eq_true hc)).trans (onBlocks_of_live _ hs)

theorem exec_islRetire_transit {s : State} {c : Nat} (hs : s.j.live = true) (hc : c < 18) :
    exec (.islRetire (c + 7)) s = .next { s with j := s.j.retireCluster c } := by
  refine (if_pos (decide_eq_true (by omega : c + 7 < 29))).trans ((onBlocks_of_live _ hs).trans ?_)
  rw [Jenjor.retireIsland, if_pos (by omega), Nat.add_sub_cancel]

theorem exec_islRetire_other {s : State} {isl : Nat} (h : isl < 7 ∨ 25 ≤ isl ∧ isl < 29) :
    exec (.islRetire isl) s = .next s := by
  refine (if_pos (decide_eq_true (by omega : isl < 29))).trans ?_
  unfold onBlocks Jenjor.retireIsland
  simp only [if_neg (by omega : ¬ (7 ≤ isl ∧ isl < 25)), ite_self]

theorem exec_clusterHardFault {s : State} {c : Nat} (hs : s.j.live = true) (hc : c < 18) :
    exec (.clusterHardFault c) s = .next { s with j := s.j.failCluster c } :=
  (if_pos (decide_eq_true hc)).trans (onBlocks_of_live _ hs)

/-- Settles O26: the retirement and the failure of a cluster by their equations, and the spare that takes its place. -/
theorem clustersOutOfService : Obligations.ClustersOutOfService := by
  unfold Obligations.ClustersOutOfService
  refine ⟨fun s c x hs hc hx ha hf hr hsp hhold => ?_, fun s c x r hs hc hx ha hf hr hsp hhold hring hsweep hin hout => ?_,
    fun s c x hs hc hx ha => ?_, fun s c x hs hc hx ha hf hhome hserved hq hhold => ?_,
    fun s c hc => ⟨if_neg (by simpa using hc), if_neg (by simpa using hc)⟩,
    fun s isl => ⟨exec_islRetire_other, fun h => if_neg (by simpa using h)⟩⟩
  · have hk := Jenjor.retireCluster_of_no_ring hx ha hf hr hhold
    refine ⟨(s.j.announcedLeave c).withSpare (s.j.spareFor c), by rw [exec_clusterPlannedRetire hs hc, hk],
      by rw [exec_islRetire_transit hs hc, hk], Jenjor.cluster?_withSpare (Jenjor.cluster?_announcedLeave hx) ha hsp,
      fun n hn => ?_, ?_⟩
    · rw [hn]
      exact Jenjor.withSpare_spare_serves
    · cases s.j.spareFor c <;> rfl
  · have hk := Jenjor.retireCluster_of_sweeping hx ha hf hr hhold hring hsweep
    obtain ⟨p, hp⟩ := Jenjor.ring?_republish (Jenjor.ring?_spareJoins (c := c) hring)
    refine ⟨(s.j.spareJoins c r.num).republish r.num, _, by rw [exec_clusterPlannedRetire hs hc, hk],
      by rw [exec_islRetire_transit hs hc, hk], Jenjor.cluster?_spareJoins (n := r.num) hx ha hsp, hp, ?_, ?_⟩
    · simp [Jenjor.joinedBy, Jenjor.announcedFrom, hin, hout]
    · unfold Jenjor.spareJoins
      cases s.j.spareFor c <;> rfl
  · rw [exec_clusterHardFault hs hc, Jenjor.failCluster_of_gated hx ha]
  · refine ⟨s.j.clusterOut c, ?_, Jenjor.cluster?_clusterOut hx, Jenjor.clusterOut_errClass.1, Jenjor.clusterOut_errClass.2,
      Jenjor.clusterOut_head, ?_, Jenjor.clusterOut_cat⟩
    · rw [exec_clusterHardFault hs hc, Jenjor.failCluster_of_idle hx ha hf hhome hserved hq hhold]
    · rw [Jenjor.clusterOut_sw]
      rfl

end Sys2Proof.Machine
end

section
namespace Sys2Proof.Machine
namespace Jenjor

/-! ### Islands and their clocks (R415 to R417) -/

section
variable {j k l : Jenjor} {i : Nat} {x : Island}

theorem island_of_some (h : j.isl.islands[i]? = some x) : j.island i = x := by
  rw [island, h, Option.getD_some]

theorem mapIsland_of_some (f : Island → Island) (h : j.isl.islands[i]? = some x) :
    j.mapIsland i f = { j with isl := { j.isl with islands := j.isl.islands.set i (f x) } } := by
  have hset : j.isl.islands.modify i f = j.isl.islands.set i (f x) := by
    rw [List.modify_eq_set_getElem?, h]
    rfl
  rw [mapIsland, hset]

/-- `k` is `j` with other clocks: the islands and the counters of clamped clocks alone may differ, not that of shedding. -/
structure ClocksMoved (j k : Jenjor) : Prop where
  frame : k = { j with ctrs := k.ctrs, isl := { j.isl with islands := k.isl.islands } }
  shedCount : k.counter 0xD0808 = j.counter 0xD0808

theorem ClocksMoved.refl (j : Jenjor) : ClocksMoved j j := ⟨rfl, rfl⟩

theorem ClocksMoved.trans (h : ClocksMoved j k) (h' : ClocksMoved k l) : ClocksMoved j l where
  frame := by
    rw [h'.frame, h.frame]
  shedCount := h'.shedCount.trans h.shedCount

theorem ClocksMoved.foldl {α : Type} {g : Jenjor → α → Jenjor} (as : List α) (j : Jenjor)
    (h : ∀ k, ∀ a ∈ as, ClocksMoved k (g k a)) : ClocksMoved j (as.foldl g j) := by
  induction as generalizing j with
  | nil => exact .refl j
  | cons a as ih =>
    exact (h j a List.mem_cons_self).trans (ih _ fun k b hb => h k b (List.mem_cons_of_mem _ hb))

theorem setClock_of_fits {f : Nat} (h : j.clockFits i f = true) : j.setClock i f = j.mapIsland i fun x => { x with clk := f } :=
  if_pos h

theorem setClock_moved (hi : i < 29) (j : Jenjor) (f : Nat) : ClocksMoved j (j.setClock i f) := by
  have hclamp : (j.count blkISL (i * 0x20 + 8)).counter 0xD0808 = j.counter 0xD0808 :=
    counter_bump_ne _ _ _ _ (by unfold blkBase blkISL blkDEV; simp only [Nat.reduceEqDiff, if_false]; omega)
  unfold setClock
  split
  · exact ⟨rfl, rfl⟩
  · dsimp only
    split
    · exact ⟨rfl, hclamp⟩
    · exact ⟨rfl, hclamp⟩

theorem stepDown_moved (hi : i < 29) (j : Jenjor) (floor : Nat) : ClocksMoved j (j.stepDown i floor) := by
  unfold stepDown
  dsimp only
  split
  · exact .refl j
  · exact setClock_moved hi ..

theorem stepUp_moved (hi : i < 29) (j : Jenjor) : ClocksMoved j (j.stepUp i) := by
  unfold stepUp
  dsimp only
  split
  · exact .refl j
  · exact setClock_moved hi ..

theorem lowerTransit_moved (j : Jenjor) : ClocksMoved j j.lowerTransit :=
  .foldl _ _ fun k c hc => stepDown_moved (by have := List.mem_range.mp hc; omega) ..

theorem raiseTransit_moved (j : Jenjor) : ClocksMoved j j.raiseTransit :=
  .foldl _ _ fun k c hc => by
    split
    · exact stepUp_moved (by have := List.mem_range.mp hc; omega) ..
    · exact .refl k

/-- A clock's move leaves the island's temperature. -/
theorem setClock_temp {f : Nat} (h : j.isl.islands[i]? = some x) :
    ∃ y, (j.setClock i f).isl.islands[i]? = some y ∧ y.temp = x.temp := by
  have hmap : ∀ (k : Jenjor) (g : Nat), k.isl = j.isl →
      ∃ y, (k.mapIsland i fun x => { x with clk := g }).isl.islands[i]? = some y ∧ y.temp = x.temp := by
    intro k g hk
    refine ⟨{ x with clk := g }, ?_, rfl⟩
    rw [mapIsland, hk]
    simp [h]
  unfold setClock
  split
  · exact hmap j f rfl
  · dsimp only
    split
    · exact ⟨x, h, rfl⟩
    · exact hmap _ _ rfl

theorem stepDown_temp {floor : Nat} (h : j.isl.islands[i]? = some x) :
    ∃ y, (j.stepDown i floor).isl.islands[i]? = some y ∧ y.temp = x.temp := by
  unfold stepDown
  dsimp only
  split
  · exact ⟨x, h, rfl⟩
  · exact setClock_temp h

theorem stepDown_of_fits {floor : Nat} (h : j.isl.islands[i]? = some x) (hlt : floor < x.clk)
    (hfits : j.clockFits i (max floor (x.clk - 100)) = true) : j.stepDown i floor =
      { j with isl := { j.isl with islands := j.isl.islands.set i { x with clk := max floor (x.clk - 100) } } } := by
  unfold stepDown
  dsimp only
  rw [island_of_some h, if_neg (by omega), setClock_of_fits hfits, mapIsland_of_some _ h]

theorem fullClock_of_maxCeil (h : j.isl.islands[i]? = some x) (hceil : x.ceil = maxClock i) : j.fullClock i = maxClock i := by
  unfold fullClock
  rw [island_of_some h, hceil]
  dsimp only
  split
  · rfl
  · exact Nat.min_self _

theorem stepUp_of_fits (h : j.isl.islands[i]? = some x) (h0 : x.clk ≠ 0) (hceil : x.ceil = maxClock i)
    (hle : x.clk + 100 ≤ maxClock i) (hfits : j.clockFits i (x.clk + 100) = true) : j.stepUp i =
      { j with isl := { j.isl with islands := j.isl.islands.set i { x with clk := x.clk + 100 } } } := by
  unfold stepUp
  dsimp only
  rw [island_of_some h, fullClock_of_maxCeil h hceil, if_neg (by omega), Nat.min_eq_right hle, setClock_of_fits hfits,
    mapIsland_of_some _ h]

/-- Comparing every ring's capacity with its need changes rings and queries alone (R96). -/
theorem stretchAll_frame (j : Jenjor) : j.stretchAll = { j with sw := j.stretchAll.sw } := by
  apply eq_of_fields <;> simp

end

/-! ### Whole-module faults (R420) -/

@[simp] theorem foldlRefuse_isl (l : List CmdRef) (st : Status) (j : Jenjor) :
    (l.foldl (fun j r => j.refuse r st) j).isl = j.isl := foldl_isl _ _ _ fun _ _ => refuse_isl ..

@[simp] theorem foldlRefuse_mem (l : List CmdRef) (st : Status) (j : Jenjor) :
    (l.foldl (fun j r => j.refuse r st) j).mem = j.mem := foldl_mem _ _ _ fun _ _ => refuse_mem ..

@[simp] theorem foldlRefuse_coe (l : List CmdRef) (st : Status) (j : Jenjor) :
    (l.foldl (fun j r => j.refuse r st) j).coe = j.coe := foldl_coe _ _ _ fun _ _ => refuse_coe ..

@[simp] theorem endWrites_isl (j : Jenjor) (st : Status) : (j.endWrites st).isl = j.isl :=
  (foldl_isl _ _ _ fun _ _ => complete_isl ..).trans rfl

@[simp] theorem endWrites_mem (j : Jenjor) (st : Status) : (j.endWrites st).mem = j.mem :=
  (foldl_mem _ _ _ fun _ _ => complete_mem ..).trans rfl

@[simp] theorem endWrites_coe (j : Jenjor) (st : Status) : (j.endWrites st).coe = j.coe :=
  (foldl_coe _ _ _ fun _ _ => complete_coe ..).trans rfl

theorem endCommands_isl (j : Jenjor) (st : Status) : (j.endCommands st).isl = j.isl := by
  simp [endCommands, forgetHeld]

theorem endCommands_mem (j : Jenjor) (st : Status) : (j.endCommands st).mem = j.mem := by
  simp [endCommands, forgetHeld]

theorem endCommands_pass (j : Jenjor) (st : Status) : (j.endCommands st).coe.pass = j.coe.pass := by
  simp [endCommands, forgetHeld]

/-- A module that holds the lease gives it up over a link that is up (R357). -/
def relinquished (j : Jenjor) : Jenjor :=
  let p := j.cpn.pair
  if p.holder && p.linkUp then
    let j := j.sendCpn 0x0C p.lease j.wr.epoch 0 []
    { j with cpn := { j.cpn with pair := { j.cpn.pair with holder := false } } }
  else j

theorem wholeFault_of_whole {j : Jenjor} (blk unit cause : Nat) (h : j.isl.whole = true) : j.wholeFault blk unit cause = j :=
  if_pos h

theorem wholeFault_of_sound {j : Jenjor} (blk unit cause : Nat) (h : j.isl.whole = false) :
    j.wholeFault blk unit cause =
      let k := j.relinquished
      (({ k with isl := { k.isl with whole := true }, coe := { k.coe with pass := none, rerun := none } } : Jenjor).endCommands
        .internalError).fault 4 blk unit cause 0 Status.internalError.code 0 := by
  rw [wholeFault, if_neg (by simp [h])]
  rfl

theorem relinquished_mem (j : Jenjor) : j.relinquished.mem = j.mem := by
  unfold relinquished
  dsimp only
  split
  · exact sendCpn_mem ..
  · rfl

theorem wholeFault_whole (j : Jenjor) (blk unit cause : Nat) : (j.wholeFault blk unit cause).isl.whole = true := by
  cases h : j.isl.whole with
  | true => rw [wholeFault_of_whole _ _ _ h, h]
  | false => rw [wholeFault_of_sound _ _ _ h, fault_isl, endCommands_isl]

theorem wholeFault_mem (j : Jenjor) (blk unit cause : Nat) : (j.wholeFault blk unit cause).mem = j.mem := by
  cases h : j.isl.whole with
  | true => rw [wholeFault_of_whole _ _ _ h]
  | false =>
    rw [wholeFault_of_sound _ _ _ h, fault_mem, endCommands_mem]
    exact relinquished_mem j

theorem wholeFault_pass {j : Jenjor} (blk unit cause : Nat) (h : j.isl.whole = false) :
    (j.wholeFault blk unit cause).coe.pass = none := by
  rw [wholeFault_of_sound _ _ _ h, fault_coe, endCommands_pass]

theorem wholeFault_errClass {j : Jenjor} (blk unit cause : Nat) (h : j.isl.whole = false) :
    (j.wholeFault blk unit cause).log.errClass.getLsbD 2 = true := by
  rw [wholeFault_of_sound _ _ _ h, fault_errClass _ _ _ _ _ _ _ _ (by decide)]
  simp

end Jenjor

/-- What a whole-module fault of a module that is sound does (R420). -/
theorem wholeFault_effect {s : State} (blk unit cause : Nat) (hsound : s.j.isl.whole = false)
    {o : Host.Outcome State Fault Refusal} (ho : o = .next { s with j := s.j.wholeFault blk unit cause }) :
    ∃ t, o = .next t ∧ t.j.isl.whole = true ∧ t.j.coe.pass = none ∧ t.j.log.errClass.getLsbD 2 = true ∧ t.mem = s.mem :=
  ⟨_, ho, Jenjor.wholeFault_whole .., Jenjor.wholeFault_pass _ _ _ hsound, Jenjor.wholeFault_errClass _ _ _ hsound, rfl⟩

/-! ### The temperature of sweep memory (R302) -/

/-- The devices with the temperatures of a reading. -/
def chansRead (temps : List Nat) (chans : List Chan) : List Chan :=
  ((List.range chans.length).zip chans).map fun x => { x.2 with temp := min 255 (temps.getD x.1 x.2.temp) }

/-- The temperatures of a reading. -/
def readTemps (temps : List Nat) (j : Jenjor) : Jenjor :=
  { j with mem := { j.mem with chans := chansRead temps j.mem.chans } }

/-- The band that the hottest device calls for. -/
def bandOf (t : Nat) : Nat := if 95 < t then 2 else if 85 < t then 1 else 0

/-- A band above the present one is raised, and every ring's capacity compared (R94). -/
def raiseBand (j : Jenjor) : Jenjor := if j.mem.band < bandOf j.hottest then (j.setBand (bandOf j.hottest)).stretchAll else j

/-- A device above 105 °C stops sweep memory. -/
def overtempCheck (t : Nat) (j : Jenjor) : Jenjor :=
  if 105 < t then ({ j with mem := { j.mem with stopped := true } } : Jenjor).wholeFault blkMEM 0 0xFFFF else j

theorem setBand_stretchAll_frame (j : Jenjor) (b : Nat) : (j.setBand b).stretchAll =
    { j with sw := (j.setBand b).stretchAll.sw, mem := { j.mem with band := b } } := Jenjor.stretchAll_frame _

theorem raiseBand_frame (j : Jenjor) : raiseBand j =
    { j with sw := (raiseBand j).sw, mem := { j.mem with band := max j.mem.band (bandOf j.hottest) } } := by
  unfold raiseBand
  split
  next h =>
    rw [Nat.max_eq_right h.le]
    exact setBand_stretchAll_frame ..
  next h => rw [Nat.max_eq_left (Nat.le_of_not_lt h)]

theorem raiseBand_mem (j : Jenjor) : (raiseBand j).mem = { j.mem with band := max j.mem.band (bandOf j.hottest) } := by
  rw [raiseBand_frame]

theorem overtempCheck_mem (t : Nat) (j : Jenjor) :
    (overtempCheck t j).mem = { j.mem with stopped := j.mem.stopped || decide (105 < t) } := by
  unfold overtempCheck
  split
  next h => rw [Jenjor.wholeFault_mem]; simp [h]
  next h => simp [h]

theorem hottest_of_chans {j k : Jenjor} (h : j.mem.chans = k.mem.chans) : j.hottest = k.hottest := by
  rw [Jenjor.hottest, Jenjor.hottest, h]

/-- A reading taken, with the band and the whole-module fault that it calls for. -/
def tempsTaken (temps : List Nat) (j : Jenjor) : Jenjor :=
  overtempCheck (readTemps temps j).hottest (raiseBand (readTemps temps j))

theorem tempsTaken_mem (temps : List Nat) (j : Jenjor) : (tempsTaken temps j).mem =
    { j.mem with chans := chansRead temps j.mem.chans, band := max j.mem.band (bandOf (readTemps temps j).hottest),
                 stopped := j.mem.stopped || decide (105 < (readTemps temps j).hottest) } := by
  rw [tempsTaken, overtempCheck_mem, raiseBand_mem]
  rfl

theorem tempsTaken_hottest (temps : List Nat) (j : Jenjor) : (tempsTaken temps j).hottest = (readTemps temps j).hottest :=
  hottest_of_chans (by rw [tempsTaken_mem]; rfl)

/-! ### The bands of a transit island (R95) -/

theorem bandFloor_of_hot {t : Nat} (h : 95 < t) : Jenjor.bandFloor t = some (if 100 < t then 800 else 1200) := by
  rw [Jenjor.bandFloor, if_pos h]
  exact (apply_ite some ..).symm

theorem bandFloor_of_cool {t : Nat} (h : t ≤ 95) : Jenjor.bandFloor t = none := by
  rw [Jenjor.bandFloor, if_neg (by omega), if_neg (by omega)]

/-- The module once an island's reading is taken. -/
def heated (j : Jenjor) (i temp : Nat) : Jenjor := j.mapIsland i fun x => { x with temp := min 255 temp }

theorem heated_island {j : Jenjor} {i temp : Nat} {x : Island} (h : j.isl.islands[i]? = some x) :
    (heated j i temp).isl.islands[i]? = some { x with temp := min 255 temp } := by
  simp [heated, Jenjor.mapIsland, h]

/-- The first step down of a band whose floor is `f`, as a reading rises into it. -/
def enterBand (i was temp f : Nat) (j : Jenjor) : Jenjor :=
  if Jenjor.bandFloor was != some f && was < temp then (j.stepDown i f).stretchAll else j

theorem enterBand_frame {i : Nat} (hi : i < 29) (was temp f : Nat) (j : Jenjor) : enterBand i was temp f j =
    { j with sw := (enterBand i was temp f j).sw, ctrs := (enterBand i was temp f j).ctrs,
             isl := { j.isl with islands := (enterBand i was temp f j).isl.islands } } := by
  unfold enterBand
  split
  · rw [Jenjor.stretchAll_frame, (Jenjor.stepDown_moved hi j f).frame]
  · rfl

theorem enterBand_temp {i : Nat} {j : Jenjor} {x : Island} (was temp f : Nat) (h : j.isl.islands[i]? = some x) :
    ∃ y, (enterBand i was temp f j).isl.islands[i]? = some y ∧ y.temp = x.temp := by
  unfold enterBand
  split
  · rw [Jenjor.stretchAll_isl]
    exact Jenjor.stepDown_temp h
  · exact ⟨x, h, rfl⟩

/-! ### Load shedding (R29) -/

theorem count_shed (j : Jenjor) : ((j.count blkISL 0x808).counter 0xD0808).count = (j.counter 0xD0808).count + 1 := by
  rw [Jenjor.count, Jenjor.counter_bump]
  rfl

/-- A step of load shedding, before its effect: counted and recorded. -/
def shedCounted (j : Jenjor) : Jenjor :=
  (({ j with isl := { j.isl with shedStep := min 3 (j.isl.shedStep + 1) } } : Jenjor).count blkISL 0x808).info blkISL 0 0x808
    (min 3 (j.isl.shedStep + 1))

theorem shedCounted_frame (j : Jenjor) : shedCounted j =
    { j with log := (shedCounted j).log, ctrs := (shedCounted j).ctrs,
             isl := { j.isl with shedStep := min 3 (j.isl.shedStep + 1) } } := Jenjor.record_frame ..

theorem shedCounted_count (j : Jenjor) : ((shedCounted j).counter 0xD0808).count = (j.counter 0xD0808).count + 1 := by
  rw [shedCounted, Jenjor.counter_info _ _ _ _ _ _ (by decide), count_shed]
  rfl

theorem shedCounted_counter (j : Jenjor) {a : Nat} (h : a ≠ 0xD0808) (hlost : a ≠ 0xF0018) :
    (shedCounted j).counter a = j.counter a := by
  rw [shedCounted, Jenjor.counter_info _ _ _ _ _ _ hlost]
  exact Jenjor.counter_bump_ne _ _ _ _ h

theorem shed_first {j : Jenjor} (h : j.isl.shedStep = 0) : j.shed = (shedCounted j).deferPasses := by
  simp [Jenjor.shed, shedCounted, h]

theorem shed_later {j : Jenjor} (h : 1 ≤ j.isl.shedStep) :
    j.shed = if 2 ≤ j.isl.shedStep then (shedCounted j).lowerTransit.stretchAll else shedCounted j := by
  have hfirst : (j.isl.shedStep == 0) = false := by simp; omega
  have hthird : (min 3 (j.isl.shedStep + 1) = 3) = (2 ≤ j.isl.shedStep) := by rw [eq_iff_iff]; omega
  simp only [Jenjor.shed, hfirst, hthird, Bool.false_eq_true, if_false]
  rfl

theorem deferPasses_count (j : Jenjor) : (j.deferPasses.counter 0x72008).count = (j.counter 0x72008).count + 1 := by
  have hcount : ((j.count blkCOE 0x2008).counter 0x72008).count = (j.counter 0x72008).count + 1 := by
    rw [Jenjor.count, Jenjor.counter_bump]
    rfl
  exact hcount

theorem deferPasses_counter (j : Jenjor) {a : Nat} (h : a ≠ 0x72008) : j.deferPasses.counter a = j.counter a :=
  (Jenjor.counter_of_ctrs rfl a).trans (Jenjor.counter_bump_ne j (blkBase blkCOE + 0x2008) 1 a h)

/-- A hot converter, held, counted and recorded. -/
def converterCounted (j : Jenjor) : Jenjor :=
  (({ j with isl := { j.isl with converterHot := true } } : Jenjor).count blkISL 0x808).info blkISL 0 0x808 3

theorem converterCounted_frame (j : Jenjor) : converterCounted j = { j with
    log := (converterCounted j).log, ctrs := (converterCounted j).ctrs, isl := { j.isl with converterHot := true } } :=
  Jenjor.record_frame ..

theorem converterCounted_count (j : Jenjor) :
    ((converterCounted j).counter 0xD0808).count = (j.counter 0xD0808).count + 1 := by
  rw [converterCounted, Jenjor.counter_info _ _ _ _ _ _ (by decide), count_shed]
  rfl

/-- Lowering every transit clock, with the comparison of capacities that follows (R96). -/
theorem lowerTransit_stretchAll_frame (j : Jenjor) : j.lowerTransit.stretchAll =
    { j with sw := j.lowerTransit.stretchAll.sw, ctrs := j.lowerTransit.ctrs,
             isl := { j.isl with islands := j.lowerTransit.isl.islands } } := by
  rw [Jenjor.stretchAll_frame, j.lowerTransit_moved.frame]

theorem lowerTransit_stretchAll_count (j : Jenjor) :
    j.lowerTransit.stretchAll.counter 0xD0808 = j.counter 0xD0808 :=
  (Jenjor.counter_of_ctrs (Jenjor.stretchAll_ctrs _) _).trans j.lowerTransit_moved.shedCount

/-! ### The events of temperature and power -/

section
variable {s : State} (hs : s.j.live = true)
include hs

/-- An event of a unit that the module has. -/
theorem onUnit_onBlocks {b : Bool} (f : Jenjor → Jenjor) (hb : b = true) :
    onUnit b (onBlocks f s) = .next { s with j := f s.j } :=
  (if_pos hb).trans (onBlocks_of_live f hs)

theorem execMemoryTempRead_effect (temps : List Nat) : ∃ t, execMemoryTempRead temps s = .next t ∧
    t.j.mem.chans = chansRead temps s.j.mem.chans ∧ t.j.mem.band = max s.j.mem.band (bandOf t.j.hottest) ∧
    (t.j.hottest ≤ 105 → t = { s with j := { s.j with sw := t.j.sw, mem := t.j.mem } }) ∧
    (105 < t.j.hottest → t.j.isl.whole = true ∧ t.j.mem.stopped = true) := by
  refine ⟨{ s with j := tempsTaken temps s.j }, onBlocks_of_live _ hs, by rw [tempsTaken_mem], ?_, fun h => ?_, fun h => ?_⟩
  · rw [tempsTaken_hottest, tempsTaken_mem]
  · rw [tempsTaken_hottest] at h
    dsimp only
    rw [tempsTaken, overtempCheck, if_neg (by omega), raiseBand_frame]
    rfl
  · rw [tempsTaken_hottest] at h
    refine ⟨?_, by rw [tempsTaken_mem]; simp [h]⟩
    dsimp only
    rw [tempsTaken, overtempCheck, if_pos h]
    exact Jenjor.wholeFault_whole ..

theorem execBandFallTimeout_falls (h : s.j.mem.band = 2 ∧ s.j.hottest ≤ 92 ∨ s.j.mem.band = 1 ∧ s.j.hottest ≤ 82) :
    ∃ t, execBandFallTimeout s = .next t ∧
      t = { s with j := { s.j with sw := t.j.sw, mem := { s.j.mem with band := s.j.mem.band - 1 } } } := by
  refine ⟨_, onBlocks_of_live _ hs, ?_⟩
  obtain h | h := h
  · rw [if_pos h, setBand_stretchAll_frame, h.1]
  · rw [if_neg (by omega), if_pos h, setBand_stretchAll_frame, h.1]

variable {isl temp : Nat} {x : Island} (hx : s.j.isl.islands[isl]? = some x)
include hx

theorem execIslandTempRead_cool (hi : isl < 29) (hcool : transit isl = false ∨ temp ≤ 95) :
    execIslandTempRead isl temp s = .next { s with j := { s.j with isl := { s.j.isl with
      islands := s.j.isl.islands.set isl { x with temp := min 255 temp } } } } := by
  refine (onUnit_onBlocks hs _ (decide_eq_true hi)).trans ?_
  dsimp only
  rw [Jenjor.mapIsland_of_some _ hx]
  cases ht : transit isl with
  | false => rfl
  | true =>
    have htemp : temp ≤ 95 := hcool.resolve_left (by simp [ht])
    simp only [bandFloor_of_cool htemp, Bool.not_true, if_neg (by omega : ¬ 105 < temp)]
    rfl

/-- The clock's move of R95: a step down where the reading has risen into a band. -/
theorem execIslandTempRead_hot (ht : transit isl = true) (hlo : 95 < temp) (hhi : temp ≤ 105) :
    ∃ t y, execIslandTempRead isl temp s = .next t ∧ t.j.isl.islands[isl]? = some y ∧ y.temp = temp ∧
      t = { s with j := { s.j with sw := t.j.sw, ctrs := t.j.ctrs, isl := { s.j.isl with islands := t.j.isl.islands } } } := by
  have hi : isl < 29 := by simp [transit] at ht; omega
  obtain ⟨y, hy, hytemp⟩ := enterBand_temp (s.j.island isl).temp temp (if 100 < temp then 800 else 1200)
    (heated_island (temp := temp) hx)
  refine ⟨{ s with j := enterBand isl (s.j.island isl).temp temp (if 100 < temp then 800 else 1200) (heated s.j isl temp) },
    y, (onUnit_onBlocks hs _ (decide_eq_true hi)).trans ?_, hy, hytemp.trans (by dsimp only; omega), ?_⟩
  · simp only [ht, bandFloor_of_hot hlo, Bool.not_true, Bool.false_eq_true, if_false, if_neg (by omega : ¬ 105 < temp)]
    rfl
  · dsimp only
    rw [enterBand_frame hi]
    rfl

theorem execClockStepDownTimer_of_hot {floor : Nat} (ht : transit isl = true) (hhot : 95 < x.temp)
    (hfloor : floor = if 100 < x.temp then 800 else 1200) (hlt : floor < x.clk)
    (hfits : s.j.clockFits isl (max floor (x.clk - 100)) = true) :
    ∃ t, execClockStepDownTimer isl s = .next t ∧ t = { s with j := { s.j with sw := t.j.sw, isl := { s.j.isl with
      islands := s.j.isl.islands.set isl { x with clk := max floor (x.clk - 100) } } } } := by
  have hi : isl < 29 := by simp [transit] at ht; omega
  have hband : Jenjor.bandFloor x.temp = some floor := by rw [hfloor, bandFloor_of_hot hhot]
  refine ⟨_, onUnit_onBlocks hs _ (decide_eq_true hi), ?_⟩
  dsimp only
  rw [Jenjor.island_of_some hx, ht, if_pos rfl, hband]
  dsimp only
  rw [Jenjor.stepDown_of_fits hx hlt hfits, Jenjor.stretchAll_frame]

theorem execClockStepUpTimer_of_cool (hi : isl < 29) (hheld : x.neighbourHeld = false) (h0 : x.clk ≠ 0)
    (hle : x.clk + 100 ≤ maxClock isl) (hceil : x.ceil = maxClock isl) (hcool : x.temp ≤ if x.clk < 1200 then 97 else 92)
    (hshed : s.j.isl.shedStep < 3) (hconv : s.j.isl.converterHot = false) (hfits : s.j.clockFits isl (x.clk + 100) = true) :
    execClockStepUpTimer isl s = .next { s with j := { s.j with isl := { s.j.isl with
      islands := s.j.isl.islands.set isl { x with clk := x.clk + 100 } } } } := by
  have henough : Jenjor.coolEnough x = true := by
    unfold Jenjor.coolEnough
    split at hcool <;> simp_all
  have hnot : (s.j.isl.shedStep == 3) = false := by simp; omega
  have hrises : (x.neighbourHeld || (transit isl && (s.j.isl.shedStep == 3 || s.j.isl.converterHot)) || !Jenjor.coolEnough x)
      = false := by
    rw [hheld, hnot, hconv, henough]
    simp
  refine (onUnit_onBlocks hs _ (decide_eq_true hi)).trans ?_
  dsimp only
  rw [Jenjor.island_of_some hx, hrises, Jenjor.stepUp_of_fits hx h0 hceil hle hfits]
  rfl

theorem execNeighbourTempCheck_within {k : Nat} {y : Island} (hn : neighbours isl k = true)
    (hy : s.j.isl.islands[k]? = some y) (hle : y.temp ≤ x.temp) (hlim : x.temp ≤ y.temp + 27) :
    execNeighbourTempCheck isl k s = .next (if x.clk = 0 ∨ y.clk = 0 then s else { s with j := { s.j with isl := { s.j.isl with
      islands := (s.j.isl.islands.set isl { x with neighbourHeld := false }).set k { y with neighbourHeld := false } } } }) := by
  have hbounds : isl ≠ k ∧ isl < 29 ∧ k < 29 := by
    simp only [neighbours, Bool.and_eq_true, bne_iff_ne, decide_eq_true_eq] at hn
    tauto
  obtain ⟨hne, hi, hk⟩ := hbounds
  have hcold : (s.j.mapIsland isl fun x => { x with neighbourHeld := false }).isl.islands[k]? = some y := by
    simp [Jenjor.mapIsland, List.getElem?_modify_ne, hne, hy]
  refine (onUnit_onBlocks hs _ (by simp [hi, hk])).trans ?_
  dsimp only
  rw [Jenjor.island_of_some hx, Jenjor.island_of_some hy, hn]
  by_cases hgated : x.clk = 0 ∨ y.clk = 0
  · rw [if_pos hgated]
    rcases hgated with h | h <;> simp [h]
  · rw [if_neg hgated]
    obtain ⟨hxclk, hyclk⟩ := not_or.mp hgated
    simp only [Bool.not_true, hxclk, hyclk, decide_false, Bool.or_self, Bool.false_eq_true, if_false,
      if_neg (Nat.not_lt.mpr hle), if_true, Jenjor.island_of_some hx, Jenjor.island_of_some hy]
    rw [if_neg (by omega), Jenjor.mapIsland_of_some _ hcold, Jenjor.mapIsland_of_some _ hx]

end

section
variable {s : State} (hs : s.j.live = true)
include hs

theorem execCoolantWarning_held (inletHot flowLow : Bool) : ∃ t, execCoolantWarning inletHot flowLow s = .next t ∧
    t = { s with j := { s.j with log := t.j.log, ctrs := t.j.ctrs,
                                 isl := { s.j.isl with inletHot := inletHot, flowLow := flowLow } } } ∧
    t.j.log.head = s.j.log.head + (if inletHot || flowLow then 1 else 0) := by
  refine ⟨_, onBlocks_of_live _ hs, ?_⟩
  dsimp only
  split
  · exact ⟨congrArg (fun j => { s with j := j }) (Jenjor.record_frame ..), Jenjor.record_head ..⟩
  · exact ⟨rfl, rfl⟩

theorem execLoadShedStep_first (hshed : s.j.isl.shedding = true) (h0 : s.j.isl.shedStep = 0) :
    ∃ t, execLoadShedStep s = .next t ∧ t.mem = s.mem ∧ t.rmem = s.rmem ∧ t.j.cat = s.j.cat ∧
      t.j.isl = { s.j.isl with shedStep := 1 } ∧
      (t.j.counter 0xD0808).count = (s.j.counter 0xD0808).count + 1 ∧
      (t.j.counter 0x72008).count = (s.j.counter 0x72008).count + 1 := by
  refine ⟨{ s with j := (shedCounted s.j).deferPasses }, (onBlocks_of_live _ hs).trans ?_, rfl, rfl, ?_, ?_, ?_, ?_⟩
  · rw [if_pos hshed, shed_first h0]
  · rw [Jenjor.deferPasses_cat, shedCounted_frame]
  · rw [Jenjor.deferPasses_isl, shedCounted_frame, h0]
    rfl
  · rw [deferPasses_counter _ (by decide), shedCounted_count]
  · rw [deferPasses_count, shedCounted_counter _ (by decide) (by decide)]

theorem execLoadShedStep_later (hshed : s.j.isl.shedding = true) (h1 : 1 ≤ s.j.isl.shedStep) :
    ∃ t, execLoadShedStep s = .next t ∧ t.j.isl.shedStep = min 3 (s.j.isl.shedStep + 1) ∧
      (t.j.counter 0xD0808).count = (s.j.counter 0xD0808).count + 1 ∧
      (s.j.isl.shedStep = 1 → t.j.isl = { s.j.isl with shedStep := 2 }) ∧
      t = { s with j := { s.j with isl := t.j.isl, sw := t.j.sw, ctrs := t.j.ctrs, log := t.j.log } } := by
  have hexec : execLoadShedStep s = .next { s with j := s.j.shed } := (onBlocks_of_live _ hs).trans (by rw [if_pos hshed])
  rw [shed_later h1] at hexec
  by_cases h2 : 2 ≤ s.j.isl.shedStep
  · rw [if_pos h2] at hexec
    refine ⟨_, hexec, ?_, ?_, fun h => by omega, ?_⟩
    · rw [lowerTransit_stretchAll_frame, shedCounted_frame]
    · rw [lowerTransit_stretchAll_count, shedCounted_count]
    · dsimp only
      rw [lowerTransit_stretchAll_frame, shedCounted_frame]
  · rw [if_neg h2] at hexec
    refine ⟨_, hexec, ?_, shedCounted_count _, fun h => ?_, ?_⟩
    · rw [shedCounted_frame]
    · rw [shedCounted_frame, h]
      rfl
    · dsimp only
      rw [shedCounted_frame]

theorem execLoadRestoreStep_of_low (hw : s.j.isl.avgW < 1400) : execLoadRestoreStep s = .next { s with j := s.j.restoreLoad } :=
  (onBlocks_of_live _ hs).trans (by rw [if_pos hw])

theorem execLoadRestoreStep_early (hw : s.j.isl.avgW < 1400) (h : s.j.isl.shedStep = 1 ∨ s.j.isl.shedStep = 2)
    (hconv : s.j.isl.converterHot = false) : execLoadRestoreStep s
      = .next { s with j := { s.j with isl := { s.j.isl with shedStep := s.j.isl.shedStep - 1 } } } := by
  rw [execLoadRestoreStep_of_low hs hw, Jenjor.restoreLoad, if_neg (by rw [hconv]; simp; omega)]

theorem execLoadRestoreStep_third (hw : s.j.isl.avgW < 1400) (h3 : s.j.isl.shedStep = 3) :
    ∃ t, execLoadRestoreStep s = .next t ∧ t.j.isl.islands = s.j.raiseTransit.isl.islands ∧
      (t.j.isl.shedStep = 2 ↔ s.j.raiseTransit.raiseTransit.isl.islands = s.j.raiseTransit.isl.islands) ∧
      t = { s with j := { s.j with isl := t.j.isl, ctrs := t.j.ctrs } } := by
  have hraise := s.j.raiseTransit_moved.frame
  refine ⟨_, execLoadRestoreStep_of_low hs hw, ?_⟩
  rw [Jenjor.restoreLoad, if_pos (Or.inl h3)]
  dsimp only
  generalize s.j.raiseTransit = k at hraise ⊢
  have hstep : k.isl.shedStep = 3 := by rw [hraise, h3]
  split
  next hrest =>
    rw [hraise]
    exact ⟨rfl, ⟨fun _ => hraise ▸ hrest, fun _ => by rw [h3]; rfl⟩, rfl⟩
  next hrest =>
    refine ⟨rfl, ⟨fun h => ?_, fun h => absurd h hrest⟩, ?_⟩
    · rw [hstep] at h
      exact absurd h (by decide)
    · rw [hraise]

theorem execPowerConverterOvertemp_held :
    ∃ t, execPowerConverterOvertemp s = .next t ∧ t.mem = s.mem ∧ t.j.cat = s.j.cat ∧ t.j.isl.converterHot = true ∧
      (t.j.counter 0xD0808).count = (s.j.counter 0xD0808).count + 1 := by
  refine ⟨{ s with j := (converterCounted s.j).lowerTransit.stretchAll }, onBlocks_of_live _ hs, rfl, ?_, ?_, ?_⟩
  · rw [lowerTransit_stretchAll_frame, converterCounted_frame]
  · rw [lowerTransit_stretchAll_frame, converterCounted_frame]
  · rw [lowerTransit_stretchAll_count, converterCounted_count]

theorem execPowerSample_of_live (watts avg : Nat) : execPowerSample watts avg s = .next { s with j := { s.j with
    isl := { s.j.isl with nowW := watts, avgW := avg,
                          shedding := decide (1500 < avg) || (s.j.isl.shedding && decide (1480 < avg)) } } } :=
  onBlocks_of_live _ hs

theorem execLoadShedStep_idle (h : s.j.isl.shedding = false) : execLoadShedStep s = .next s := by
  refine (onBlocks_of_live _ hs).trans ?_
  rw [h]
  rfl

theorem execWholeModuleFault_of_live (blk unit : Nat) :
    execWholeModuleFault blk unit s = .next { s with j := s.j.wholeFault blk unit 0xFFFF } := onBlocks_of_live _ hs

theorem execHubOvertempTimeout_hot {isl : Nat} {x : Island} (hx : s.j.isl.islands[isl]? = some x) (hhub : isl < 7)
    (hhot : 110 < x.temp) :
    execHubOvertempTimeout isl s = .next { s with j := s.j.wholeFault blkISL isl 0xFFFF } := by
  refine (onUnit_onBlocks hs _ (by simp; omega)).trans ?_
  rw [Jenjor.island_of_some hx, if_pos ⟨hhub, hhot⟩]

theorem execIslandFloorTimeout_hot {isl k : Nat} {x y : Island} (hx : s.j.isl.islands[isl]? = some x)
    (hy : s.j.isl.islands[k]? = some y) (hisl : isl < 7 ∨ 25 ≤ isl) (hn : neighbours isl k = true)
    (hhot : y.temp + 30 < x.temp) (hfloor : x.clk ≤ floorClock isl) :
    execIslandFloorTimeout isl s = .next { s with j := s.j.wholeFault blkISL isl 0xFFFF } := by
  have hbounds : isl < 29 ∧ k < 29 := by
    simp only [neighbours, Bool.and_eq_true, bne_iff_ne, decide_eq_true_eq] at hn
    tauto
  obtain ⟨hi, hk⟩ := hbounds
  have htransit : transit isl = false := by
    simp [transit]
    omega
  have hany : ((List.range 29).any fun k => neighbours isl k && decide ((s.j.island k).temp + 30 < x.temp)) = true := by
    rw [List.any_eq_true]
    exact ⟨k, List.mem_range.mpr hk, by rw [hn, Jenjor.island_of_some hy]; simpa using hhot⟩
  refine (onUnit_onBlocks hs _ (decide_eq_true hi)).trans ?_
  dsimp only
  rw [Jenjor.island_of_some hx, htransit, hany, decide_eq_true hfloor]
  rfl

end

/-- Settles O1: each event by its equation or its effect on a live module. -/
theorem clocksPowerAndWholeModuleFaults : Obligations.ClocksPowerAndWholeModuleFaults := by
  unfold Obligations.ClocksPowerAndWholeModuleFaults
  refine ⟨fun s temps hs => execMemoryTempRead_effect hs temps, fun s hs h => execBandFallTimeout_falls hs h,
    fun s isl temp x hs hi hcool hx => execIslandTempRead_cool hs hx hi hcool,
    fun s isl temp x hs ht hlo hhi hx => execIslandTempRead_hot hs hx ht hlo hhi,
    fun s isl floor x hs ht hx hhot hfloor hlt hfits => execClockStepDownTimer_of_hot hs hx ht hhot hfloor hlt hfits,
    fun s isl x hs hi hx hheld h0 hle hceil hcool hshed hconv hfits =>
      execClockStepUpTimer_of_cool hs hx hi hheld h0 hle hceil hcool hshed hconv hfits,
    fun s i k x y hs hn hx hy hle hlim => execNeighbourTempCheck_within hs hx hn hy hle hlim,
    fun s inletHot flowLow hs => execCoolantWarning_held hs inletHot flowLow,
    fun s watts avg hs => execPowerSample_of_live hs watts avg, fun s hs h => execLoadShedStep_idle hs h,
    fun s hs hshed h0 => execLoadShedStep_first hs hshed h0, fun s hs hshed h1 => execLoadShedStep_later hs hshed h1,
    fun s hs hw h hconv => execLoadRestoreStep_early hs hw h hconv, fun s hs hw h3 => execLoadRestoreStep_third hs hw h3,
    fun s hs => execPowerConverterOvertemp_held hs,
    fun s isl x hs hsound hx hhub hhot => wholeFault_effect _ _ _ hsound (execHubOvertempTimeout_hot hs hx hhub hhot),
    fun s isl k x y hs hsound hx hy hisl hn hhot hfloor =>
      wholeFault_effect _ _ _ hsound (execIslandFloorTimeout_hot hs hx hy hisl hn hhot hfloor),
    fun s blk unit hs hsound => wholeFault_effect _ _ _ hsound (execWholeModuleFault_of_live hs blk unit)⟩

end Sys2Proof.Machine
end

section
namespace Sys2Proof.Machine
namespace Jenjor

/-! ### A query's result (R280 to R286, R290) -/

/-- A result record is never empty: it has its header (R280). -/
theorem resultRecord_nonempty (fp : Bool) (x : Ctx) (stale coarse timing : Bool) :
    (resultRecord fp x stale coarse timing).isEmpty = false := by
  simp [resultRecord, resultHeader, leBytes]

theorem countLeaving_frame (j : Jenjor) (x : Ctx) : countLeaving j x = { j with ctrs := (countLeaving j x).ctrs } := by
  unfold countLeaving
  dsimp only
  split <;> split <;> rfl

theorem id_of_ctx? {j : Jenjor} {id : Nat} {x : Ctx} (h : j.ctx? id = some x) : x.id = id := by
  simpa using List.find?_some h

section
variable {j : Jenjor} {id : Nat} {r : CmdRef} {dq addr : Nat} {rkey : BitVec 32} {data : List Byte} {st : Status}
  {v0 v1 : BitVec 64} {len : Option Nat} {q : Queue} (hq : j.queue? r.q = some q) (hdata : data.isEmpty = false)
include hq hdata

/-- A PCIe queue's result is written to its address, behind it the completion where no byte goes to another function. -/
theorem deliverThen_ownFunction (hroce : q.roce = false) (hgen : r.gen = j.lnk.resets)
    (hown : foreignByte q addr data.length = none) : j.deliverThen id r 0 addr rkey data st v0 v1 len
      = ((j.emit (.pcieWrite addr data)).dropCtx id).complete r st v0 v1 len := by
  unfold deliverThen
  rw [hq]
  simp only [hdata, hroce, hgen, hown, Bool.false_eq_true, if_false, ne_eq, not_true_eq_false, bne_self_eq_false]
  rfl

/-- A byte that goes to another function than the CQ's puts a flush read before the completion (R286). -/
theorem deliverThen_foreignFunction {a : Nat} (hroce : q.roce = false) (hgen : r.gen = j.lnk.resets)
    (hforeign : foreignByte q addr data.length = some a) : j.deliverThen id r 0 addr rkey data st v0 v1 len
      = ((j.emit (.pcieWrite addr data)).emit (.flushRead a)).holdCompletion
          { id := id, ref := r, status := st, v0 := v0, v1 := v1, len := len, flush := true, qpn := 0, psn := 0 } := by
  unfold deliverThen
  rw [hq]
  simp only [hdata, hroce, hgen, hforeign, Bool.false_eq_true, if_false, ne_eq, not_true_eq_false, bne_self_eq_false]

/-- A RoCEv2 queue's result goes by RDMA WRITE before its completion (R285). -/
theorem deliverThen_roce (hroce : q.roce = true) (halive : j.qpAlive q.qpn = true) :
    j.deliverThen id r 0 addr rkey data st v0 v1 len
      = ((j.sendRdma q.qpn addr rkey data).dropCtx id).complete r st v0 v1 len := by
  unfold deliverThen
  rw [hq]
  simp only [hdata, hroce, halive, Bool.false_eq_true, if_false, if_true, ne_eq, not_true_eq_false]
  rfl

/-- A delivery queue's connection carries the result; the completion of another connection's queue waits (R285, R286). -/
theorem deliverThen_delivery {d : Queue} (hdq : dq ≠ 0) (hd : j.queue? dq = some d) (hkind : d.kind = 4)
    (halive : j.qpAlive d.qpn = true) :
    j.deliverThen id r dq addr rkey data st v0 v1 len =
      let k := j.sendRdma d.qpn addr rkey data
      if q.roce && q.qpn == d.qpn then (k.dropCtx id).complete r st v0 v1 len
      else k.holdCompletion { id := id, ref := r, status := st, v0 := v0, v1 := v1, len := len, flush := false, qpn := d.qpn,
                              psn := k.lastPsn d.qpn } := by
  unfold deliverThen
  rw [hq]
  simp only [hdata, hd, hkind, halive, Bool.false_eq_true, if_false, if_true, hdq, ne_eq, not_false_eq_true]
  rfl

end

/-- Payloads already read, or none to read: step 8 reads nothing (R155). -/
theorem sweepPayloads_of_read {mem : List Host.Cell} {j : Jenjor} {c : Coll} {id : Nat} {x : Ctx} (hx : j.ctx? id = some x)
    (h : qPayloads x.d = false ∨ x.tookCoarse = true ∨ x.vaultPay = true ∨ x.payloads ≠ []) :
    j.sweepPayloads mem c id = j := by
  unfold sweepPayloads
  rw [hx]
  have hread : (!qPayloads x.d || x.tookCoarse || x.vaultPay || decide (x.payloads ≠ [])) = true := by
    rcases h with h | h | h | h <;> simp [h]
  exact if_pos hread

theorem deliverQuery_eq (j : Jenjor) (c : Coll) (x : Ctx) :
    j.deliverQuery c x = (countLeaving j x).deliverThen x.id x.ref (qDelivery x.d) (dField x.d 0x18 8)
      (BitVec.ofNat 32 (dField x.d 0x20 4)) (leaves j c x).1 (leaves j c x).2
      (BitVec.ofNat 64 (if j.readOnlyNow then j.wr.epoch else x.epoch)) (BitVec.ofNat 64 (if c.bias.isSome then x.frame else 0))
      (some (leaves j c x).1.length) := by
  have hepoch : (countLeaving j x).wr.epoch = j.wr.epoch := by rw [countLeaving_frame]
  rw [← hepoch]
  rfl

/-- A query that is not the companion's leaves with its completion (R20, R284). -/
theorem abortCtx_of_own {j : Jenjor} {id : Nat} {x : Ctx} (hx : j.ctx? id = some x)
    (htag : (x.xtag.any fun t => !t.2) = false) (st : Status) : j.abortCtx id st = (j.dropCtx id).refuse x.ref st := by
  unfold abortCtx
  rw [hx]
  dsimp only
  rw [htag]
  rfl

/-! ### Interrupts and failed flush reads (R287, R288) -/

theorem sendVector_of_unmasked {j : Jenjor} {v : Nat} (hv : v < j.lnk.vectors) (hm : (j.msixEntry v).masked = false)
    (ha : (j.msixEntry v).addr ≠ 0) : j.sendVector v = j.emit (.msix v (j.msixEntry v).addr (j.msixEntry v).data) := by
  rw [sendVector, if_neg (Nat.not_le.mpr hv)]
  dsimp only
  rw [hm, if_neg Bool.false_ne_true, if_neg ha]

theorem sendVector_of_masked {j : Jenjor} {v : Nat} (hv : v < j.lnk.vectors) (hm : (j.msixEntry v).masked = true) :
    j.sendVector v = j.setMsix v { j.msixEntry v with pending := true } := by
  rw [sendVector, if_neg (Nat.not_le.mpr hv)]
  dsimp only
  rw [if_pos hm]

/-- A failed flush read, counted, signalled and recorded. -/
def flushLost (j : Jenjor) : Jenjor :=
  ((j.count blkLNK 0x10).emit (.aer 0)).record 5 blkLNK 0 0x10 0 Status.deliveryFailed.code 0

theorem flushLost_frame (j : Jenjor) : j.flushLost =
    { j with ctrs := j.flushLost.ctrs, log := j.flushLost.log, out := .aer 0 :: j.out } := record_frame ..

theorem flushLost_count (j : Jenjor) : (j.flushLost.counter 0xA0010).count = (j.counter 0xA0010).count + 1 := by
  have hcount : (((j.count blkLNK 0x10).emit (.aer 0)).counter 0xA0010).count = (j.counter 0xA0010).count + 1 := by
    rw [counter_of_ctrs (emit_ctrs ..), count, counter_bump]
    rfl
  rw [flushLost, counter_record _ _ _ _ _ _ _ _ _ (by decide), hcount]

/-- A queue's completions are no longer counted toward its message. -/
def irqCleared (j : Jenjor) (q : Nat) : Jenjor := j.mapQueue q fun x => { x with irqCount := 0, irqSince := 0 }

/-- A query is past its lifetime: DEV_TIME stands no earlier than the limit, and its ring counts it (R20). -/
def lifetimePassed (j : Jenjor) (x : Ctx) : Jenjor :=
  ({ j with time := max j.time (x.boardTime + lifetimeLimit j x) } : Jenjor).mapRing x.ring fun r =>
    { r with expired := min (r.expired + 1) 0xFFFFFFFF }

/-- The module without a completion that waited. -/
def withoutWaiting (j : Jenjor) (w : Waiting) : Jenjor := { j with qs := { j.qs with waits := j.qs.waits.erase w } }

end Jenjor

section
variable {s : State} (hs : s.j.live = true)
include hs

theorem execResultDelivery_of_ready {id : Nat} {x : Ctx} {c : Coll} (hx : s.j.ctx? id = some x)
    (hc : s.j.coll? x.coll = some c) (hphase : x.phase = .delivering) (htag : x.xtag = none)
    (hread : qPayloads x.d = false ∨ x.tookCoarse = true ∨ x.vaultPay = true ∨ x.payloads ≠ []) :
    execResultDelivery id s = .next { s with j := s.j.deliverQuery c x } := by
  have hready : s.j.resultReady c x = s.j.deliverQuery c x := by
    unfold Jenjor.resultReady
    rw [htag]
  unfold execResultDelivery onReading
  rw [if_pos hs]
  simp only [hx, Option.bind_some, hc, Option.any_some, hphase, beq_self_eq_true, if_true,
    Jenjor.sweepPayloads_of_read hx hread, hready]

theorem execFlushReadComplete_of_waiting {id : Nat} {w : Waiting}
    (hw : (s.j.qs.waits.find? fun w => w.id == id && w.flush) = some w) :
    execFlushReadComplete id s = .next { s with j := s.j.releaseWaiting w true } := by
  refine (onBlocks_of_live _ hs).trans ?_
  rw [hw]

theorem execFlushReadFailed_of_waiting {id : Nat} {w : Waiting}
    (hw : (s.j.qs.waits.find? fun w => w.id == id && w.flush) = some w) :
    execFlushReadFailed id s = .next { s with
      j := ((s.j.flushLost.withoutWaiting w).dropCtx w.id).complete w.ref .deliveryFailed 0 0 none } := by
  refine (onBlocks_of_live _ hs).trans ?_
  rw [hw]
  rfl

theorem execCoalescingTimeout_of_counted {q : Nat} {x : Queue} (hq : s.j.queue? q = some x) (hirq : x.irqCount ≠ 0) :
    execCoalescingTimeout q s = .next { s with j := (s.j.irqCleared q).sendVector x.vector } := by
  refine (onBlocks_of_live _ hs).trans ?_
  rw [hq]
  dsimp only
  rw [if_neg hirq]
  rfl

theorem execQueryLifetimeExpiry_of_boarded {id : Nat} {x : Ctx} (hx : s.j.ctx? id = some x) (ha : lifetimeApplies x = true)
    (htag : (x.xtag.any fun t => !t.2) = false) :
    execQueryLifetimeExpiry id s
      = .next { s with j := ((s.j.lifetimePassed x).dropCtx id).refuse x.ref .queryExpired } := by
  have hx' : (s.j.lifetimePassed x).ctx? id = some x := hx
  refine (onBlocks_of_live _ hs).trans ?_
  rw [← Jenjor.abortCtx_of_own hx' htag, hx]
  dsimp only
  rw [if_pos ha]
  rfl

end

/-- Settles O11: RESULT_DELIVERY by the transport that carries the result, the other events by their equations. -/
theorem resultsDelivered : Obligations.ResultsDelivered := by
  unfold Obligations.ResultsDelivered
  refine ⟨fun s id x c q hs hx hc hphase htag hread hq => ?_, fun s id w hs hw => execFlushReadComplete_of_waiting hs hw,
    fun s id w hs hw => ?_, fun s q x hs hq hirq hvec => ?_,
    fun s id x hs hx ha htag => execQueryLifetimeExpiry_of_boarded hs hx ha htag⟩
  · have hexec := execResultDelivery_of_ready hs hx hc hphase htag hread
    have hid := Jenjor.id_of_ctx? hx
    rw [Jenjor.deliverQuery_eq, hid] at hexec
    have hkeep := Jenjor.countLeaving_frame s.j x
    have hq' : (countLeaving s.j x).queue? x.ref.q = some q := by rw [hkeep]; exact hq
    have hdata : (leaves s.j c x).1.isEmpty = false := Jenjor.resultRecord_nonempty ..
    dsimp only
    refine ⟨fun hdq hroce hgen => ?_, fun hdq hroce halive => ?_, fun d hdq hd hkind halive => ?_⟩
    · have hgen' : x.ref.gen = (countLeaving s.j x).lnk.resets := by rw [hkeep]; exact hgen
      rw [hdq] at hexec
      cases hf : Jenjor.foreignByte q (dField x.d 0x18 8) (leaves s.j c x).1.length with
      | none =>
        rw [Jenjor.deliverThen_ownFunction hq' hdata hroce hgen' hf] at hexec
        exact hexec
      | some a =>
        rw [Jenjor.deliverThen_foreignFunction hq' hdata hroce hgen' hf] at hexec
        rw [hid]
        exact hexec
    · rw [hdq, Jenjor.deliverThen_roce hq' hdata hroce (by rw [hkeep]; exact halive)] at hexec
      exact hexec
    · rw [Jenjor.deliverThen_delivery hq' hdata hdq (by rw [hkeep]; exact hd) hkind (by rw [hkeep]; exact halive)] at hexec
      rw [hid]
      exact hexec
  · have hkeep := s.j.flushLost_frame
    refine ⟨_, execFlushReadFailed_of_waiting hs hw, ?_, s.j.flushLost_count, ?_, ?_⟩
    · rw [Jenjor.withoutWaiting, hkeep]
    · rw [Jenjor.withoutWaiting, hkeep]
    · rw [Jenjor.withoutWaiting, hkeep]
  · have hexec := execCoalescingTimeout_of_counted hs hq hirq
    dsimp only
    refine ⟨fun hm haddr => ?_, fun hm => ?_⟩
    · rw [Jenjor.sendVector_of_unmasked (j := s.j.irqCleared q) hvec hm haddr] at hexec
      exact hexec
    · rw [Jenjor.sendVector_of_masked (j := s.j.irqCleared q) hvec hm] at hexec
      exact hexec

end Sys2Proof.Machine
end

section
namespace Sys2Proof.Machine

/-! ### The canonical form of byte memory, kept by each operation that stores -/

theorem Memory.wf_nil : Memory.wf [] = true := rfl

theorem Memory.foldl_wf {α : Type} {g : List Host.Cell → α → List Host.Cell}
    (hg : ∀ m x, Memory.wf m = true → Memory.wf (g m x) = true) (xs : List α) {m : List Host.Cell} (hm : Memory.wf m = true) :
    Memory.wf (xs.foldl g m) = true := by
  induction xs generalizing m with
  | nil => exact hm
  | cons x xs ih => exact ih (hg m x hm)

theorem Memory.foldl_fst_wf {α β : Type} {g : List Host.Cell × β → α → List Host.Cell × β}
    (hg : ∀ a x, Memory.wf a.1 = true → Memory.wf (g a x).1 = true) (xs : List α) {a : List Host.Cell × β}
    (ha : Memory.wf a.1 = true) : Memory.wf (xs.foldl g a).1 = true := by
  induction xs generalizing a with
  | nil => exact ha
  | cons x xs ih => exact ih (hg a x ha)

namespace Jenjor
variable {mem : List Host.Cell} (hm : Memory.wf mem = true)
include hm

theorem clearExtents_wf (os : List Obj) : Memory.wf (clearExtents mem os) = true := by
  refine Memory.foldl_wf (fun m o h => ?_) os hm
  split
  · exact h
  · exact Memory.clear_wf _ _ h

theorem zeroTiles_wf (j : Jenjor) : Memory.wf (zeroTiles mem j) = true :=
  Memory.foldl_wf (fun _ _ h => Memory.clear_wf _ _ h) _ hm

theorem createObject_wf (j : Jenjor) (f : Fetched) (op : List Byte) (since : Nat) :
    Memory.wf (createObject mem j f op since).1 = true := by
  unfold createObject
  split
  · exact hm
  · split
    · exact hm
    · exact hm
    · exact Memory.writeBytes_wf _ _ hm

theorem catalogueMem_wf (j : Jenjor) (q code : Nat) (op : List Byte)
    {body : List Host.Cell → Jenjor → Fetched → List Byte → List Host.Cell × Jenjor}
    (hbody : ∀ k f op, Memory.wf (body mem k f op).1 = true) : Memory.wf (catalogueMem mem j q code op body).1 = true := by
  unfold catalogueMem
  split
  · exact hm
  · split
    · exact hm
    · exact hbody ..

theorem writeObject_wf (j : Jenjor) (f : Fetched) (op : List Byte) : Memory.wf (writeObject mem j f op).1 = true := by
  unfold writeObject
  dsimp only
  split
  · exact hm
  · split
    · exact hm
    · exact Memory.writeBytes_wf _ _ hm

theorem retry_wf (j : Jenjor) (what : AllocFor) (since : Nat) (expired : Bool) :
    Memory.wf (retry mem j what since expired).1 = true := by
  cases what with
  | objectCreate f op =>
    cases expired with
    | true => exact hm
    | false => exact createObject_wf hm ..
  | queueCreate | shardList | collectionCreate | modelLoad | recalibrate | slewStart => exact hm

theorem appendRecord_wf (j : Jenjor) (c : Coll) (p : Plate) (r : JRec) (epoch : Nat) :
    Memory.wf (appendRecord mem j c p r epoch).1 = true := by
  have hwhen : ∀ (m : List Host.Cell) (a : Nat) (bs : List Byte), Memory.wf m = true →
      Memory.wf (if bs.isEmpty then m else Memory.writeBytes m a bs) = true := fun m a bs h => by
    split
    · exact h
    · exact Memory.writeBytes_wf _ _ h
  exact hwhen _ _ _ (hwhen _ _ _ hm)

omit hm in
theorem applyEntryOf_wf (epoch : Nat) (a : List Host.Cell × Jenjor) (e : JEntry) (h : Memory.wf a.1 = true) :
    Memory.wf (applyEntryOf epoch a e).1 = true := by
  unfold applyEntryOf
  split
  · exact h
  · dsimp only
    split
    · exact h
    · split
      · split
        · exact h
        · exact appendRecord_wf h ..
      · exact h

theorem publishCommit_wf (j : Jenjor) (c : Commit) : Memory.wf (publishCommit mem j c).1 = true :=
  Memory.foldl_fst_wf (applyEntryOf_wf c.epoch) (j.liveEntries c) (a := (mem, j)) hm

theorem publishOldest_wf (j : Jenjor) : Memory.wf (publishOldest mem j).1 = true := by
  unfold publishOldest
  split
  · exact hm
  · dsimp only
    split
    · exact hm
    · split
      · exact publishCommit_wf hm ..
      · split
        · exact hm
        · exact hm

omit hm in
theorem replay_wf (n : Nat) (a : List Host.Cell × Jenjor) (h : Memory.wf a.1 = true) : Memory.wf (replay n a).1 = true := by
  induction n generalizing a with
  | zero => exact h
  | succ n ih =>
    rw [replay]
    generalize (if a.2.formsCommits then a.2.formCommit else a.2) = j
    dsimp only
    split
    · exact h
    · exact ih _ (publishOldest_wf h _)

theorem replayJournal_wf (j : Jenjor) : Memory.wf (replayJournal mem j).1 = true := by
  unfold replayJournal
  dsimp only
  exact replay_wf _ (mem, _) hm

theorem applyAtomics_wf (fmt op base : Nat) (ps : List (Nat × Nat)) :
    Memory.wf (applyAtomics fmt op base ps mem).1 = true := by
  induction ps generalizing mem with
  | nil => exact hm
  | cons p ps ih => exact ih (Memory.writeBytes_wf _ _ hm)

theorem atomicCmd_wf (j : Jenjor) (f : Fetched) (op : List Byte) : Memory.wf (atomicCmd mem j f op).1 = true := by
  unfold atomicCmd
  split
  · exact hm
  · split
    · exact hm
    · dsimp only
      split
      · exact hm
      · split
        · exact applyAtomics_wf hm ..
        · exact applyAtomics_wf hm ..

theorem tileCmd_wf (j : Jenjor) (q code : Nat) {body : Jenjor → Fetched → Obj → List Host.Cell × Jenjor}
    (hbody : ∀ k f o, Memory.wf (body k f o).1 = true) : Memory.wf (tileCmd mem j q code body).1 = true := by
  unfold tileCmd
  split
  · exact hm
  · split
    · exact hm
    · exact hm
    · exact hbody ..

theorem restoreItem_wf (j : Jenjor) (item : RestoreItem) : Memory.wf (restoreItem mem j item).1 = true := by
  cases item with
  | objectBytes addr data =>
    rw [restoreItem]
    split
    · exact hm
    · exact Memory.writeBytes_wf _ _ hm
  | position | collection | object | plate | journalTail => exact hm

theorem writeSlot_wf (j : Jenjor) (n : Nat) (key : List Byte) (persist : Bool) :
    Memory.wf (writeSlot mem j n key persist).1 = true := by
  unfold writeSlot
  split
  · exact hm
  · split
    · exact hm
    · split
      · exact hm
      · dsimp only
        split
        · exact zeroTiles_wf hm j
        · exact hm
      · split
        · exact hm
        · split
          · exact hm
          · split
            · exact hm
            · exact hm

theorem shutDown_wf (flushed : Bool) (j : Jenjor) : Memory.wf (shutDown flushed mem j).1 = true := clearExtents_wf hm _

theorem startVault_wf {rmem : List Host.Cell} (hr : Memory.wf rmem = true) (j : Jenjor) (cars : List (Option CarrierId))
    (opens : Bool) : Memory.wf (startVault mem rmem j cars opens).1 = true ∧
      Memory.wf (startVault mem rmem j cars opens).2.1 = true := by
  unfold startVault
  dsimp only
  split
  · split
    · dsimp only
      exact ⟨replayJournal_wf hm _, hr⟩
    · exact ⟨Memory.wf_nil, Memory.wf_nil⟩
  · exact ⟨Memory.wf_nil, Memory.wf_nil⟩

theorem windowWrite_wf (j : Jenjor) (off : Nat) (data : List Byte) : Memory.wf (windowWrite mem j off data).1 = true := by
  unfold windowWrite
  dsimp only
  split
  · exact hm
  · split
    · exact hm
    · split
      · exact hm
      · split
        · split
          · exact Memory.writeBytes_wf _ _ hm
          · exact hm
        · exact hm

end Jenjor

/-! ### The canonical form, kept by each form of a meaning -/

/-- An answer from `s` that completes leaves both memories canonical where `s` has them so. -/
structure KeepsCanonical (s : State) (o : Host.Outcome State Fault Refusal) : Prop where
  canonical : s.Canonical → ∀ t, o = .next t → t.Canonical

namespace KeepsCanonical
variable {s t : State}

theorem next (h : s.Canonical → t.Canonical) : KeepsCanonical s (.next t) where
  canonical hs u hu := by
    cases hu
    exact h hs

theorem nothing : KeepsCanonical s (.next s) := next id

theorem blocks (f : Jenjor → Jenjor) : KeepsCanonical s (onBlocks f s) := next fun hs => by
  split
  · exact hs
  · exact hs

theorem catalogueBytes {f : List Host.Cell → List Host.Cell → Jenjor → List Host.Cell × Jenjor}
    (hf : Memory.wf s.mem = true → Memory.wf (f s.mem s.rmem s.j).1 = true) : KeepsCanonical s (onMemory f s) :=
  next fun hs => by
  split
  · exact ⟨hf hs.1, hs.2⟩
  · exact hs

theorem poolBytes {f : List Host.Cell → List Host.Cell → Jenjor → List Host.Cell × Jenjor}
    (hf : Memory.wf s.rmem = true → Memory.wf (f s.mem s.rmem s.j).1 = true) : KeepsCanonical s (onPool f s) :=
  next fun hs => by
  split
  · exact ⟨hs.1, hf hs.2⟩
  · exact hs

/-- Power and reset: pool memory is gone. -/
theorem power {f : List Host.Cell → Jenjor → List Host.Cell × Jenjor}
    (hf : Memory.wf s.mem = true → Memory.wf (f s.mem s.j).1 = true) : KeepsCanonical s (onPower f s) :=
  next fun hs => ⟨hf hs.1, Memory.wf_nil⟩

/-- Either branch of a condition on the state. -/
theorem branch {p : Prop} [Decidable p] {o o' : Host.Outcome State Fault Refusal}
    (h : KeepsCanonical s o) (h' : KeepsCanonical s o') : KeepsCanonical s (if p then o else o') := by
  split
  · exact h
  · exact h'

/-- A command that leaves catalogue memory as it is and stores nothing in pool memory. -/
theorem ofKept {known cat idle : Bool} {o : Host.Outcome State Fault Refusal} (h : KeepsFrame known cat false idle s o)
    (hmem : ∀ t, o = .next t → t.mem = s.mem) : KeepsCanonical s o where
  canonical := fun ⟨hm, hr⟩ t ht => ⟨(hmem t ht).symm ▸ hm, (h.rmem ht rfl).symm ▸ hr⟩

end KeepsCanonical

/-! ### The commands and events that store -/

theorem execObjectWrite_canonical (q : Nat) (op : List Byte) (s : State) : KeepsCanonical s (execObjectWrite q op s) :=
  .catalogueBytes fun hm => by
    split
    · exact hm
    · exact Jenjor.writeObject_wf hm ..

theorem execObjectRelease_canonical (what : ReleaseTarget) (s : State) : KeepsCanonical s (execObjectRelease what s) :=
  .catalogueBytes fun hm => by
    cases what with
    | collection n =>
      dsimp only
      split
      · exact hm
      · split
        · exact hm
        · exact Jenjor.clearExtents_wf hm _
    | object n =>
      dsimp only
      split
      · exact hm
      · split
        · exact hm
        · exact Jenjor.clearExtents_wf hm _

theorem execAllocationRetry_canonical (alloc : Nat) (expired : Bool) (s : State) :
    KeepsCanonical s (execAllocationRetry alloc expired s) :=
  .catalogueBytes fun hm => by
    dsimp only
    split
    · exact hm
    · exact Jenjor.retry_wf hm ..

theorem execAtomic_canonical (q : Nat) (op : List Byte) (s : State) : KeepsCanonical s (execAtomic q op s) :=
  .catalogueBytes fun hm => by
    split
    · exact hm
    · exact Jenjor.atomicCmd_wf hm ..

theorem execTileWrite_canonical (q : Nat) (data : List Byte) (s : State) : KeepsCanonical s (execTileWrite q data s) :=
  .catalogueBytes fun hm => by
    dsimp only
    split
    · exact hm
    · exact Jenjor.tileCmd_wf hm _ _ _ fun _ _ _ => Memory.writeBytes_wf _ _ hm

theorem execSlotWrite_canonical (mb : Mailbox) (busy : Bool) (sid slot : Nat) (key : List Byte) (persist : Bool) (s : State) :
    KeepsCanonical s (execSlotWrite mb busy sid slot key persist s) :=
  .catalogueBytes fun hm => by
    dsimp only
    split
    · exact hm
    · split
      · exact hm
      · split
        · exact hm
        · split
          · exact hm
          · exact Jenjor.writeSlot_wf hm ..

theorem execRestore_canonical (item : RestoreItem) (s : State) : KeepsCanonical s (execRestore item s) :=
  .catalogueBytes fun hm => by
    split
    · exact Jenjor.restoreItem_wf hm ..
    · exact hm

theorem execRdmaWrite_canonical (qpn : Nat) (rkey : BitVec 32) (addr : Nat) (data : List Byte) (s : State) :
    KeepsCanonical s (execRdmaWrite qpn rkey addr data s) :=
  .poolBytes fun hr => by
    dsimp only
    split
    · exact hr
    · split
      · exact hr
      · split
        · exact hr
        · split
          · exact hr
          · exact Memory.writeBytes_wf _ _ hr

theorem execStartStepComplete_canonical (rep : StartReport) (s : State) : KeepsCanonical s (execStartStepComplete rep s) := by
  unfold execStartStepComplete
  split
  case h_6 cars opens _ _ => exact .next fun ⟨hm, hr⟩ => Jenjor.startVault_wf hm hr s.j cars opens
  case h_9 => exact .nothing
  all_goals exact .blocks _

theorem execPowerGood_canonical (straps : BitVec 3) (s : State) : KeepsCanonical s (execPowerGood straps s) := by
  refine .branch (.power fun hm => ?_) .nothing
  dsimp only
  split
  · exact hm
  · exact Jenjor.shutDown_wf hm ..

theorem execPowerOff_canonical (s : State) : KeepsCanonical s (execPowerOff s) :=
  .branch .nothing (.power fun hm => Jenjor.shutDown_wf hm ..)

theorem execHoldupFlushComplete_canonical (us : Nat) (back : Bool) (s : State) :
    KeepsCanonical s (execHoldupFlushComplete us back s) :=
  .branch (.branch (.power fun hm => Jenjor.shutDown_wf hm true _) (.next id)) .nothing

theorem execModRstTimeout_canonical (s : State) : KeepsCanonical s (execModRstTimeout s) := by
  unfold execModRstTimeout
  dsimp only
  split
  · exact .branch (.power fun hm => Jenjor.shutDown_wf hm true _) (.next id)
  · exact .next id
  · exact .next id

theorem execTenantScrubComplete_canonical (us : Nat) (s : State) : KeepsCanonical s (execTenantScrubComplete us s) := by
  unfold execTenantScrubComplete
  split
  · exact .nothing
  · exact .next fun _ => ⟨Memory.wf_nil, Memory.wf_nil⟩

theorem execLifecycleEraseComplete_canonical (s : State) : KeepsCanonical s (execLifecycleEraseComplete s) := by
  unfold execLifecycleEraseComplete
  split
  · exact .nothing
  · exact .power fun hm => Jenjor.shutDown_wf hm true _

theorem execAlmanacWriteComplete_canonical (s : State) : KeepsCanonical s (execAlmanacWriteComplete s) := by
  unfold execAlmanacWriteComplete
  split
  · exact .nothing
  · exact .branch (.power fun hm => Jenjor.shutDown_wf hm true _) (.next id)

theorem execFirmwareWrite_canonical (role : Role) (named : Bool) (rec : FwRecord) (s : State) :
    KeepsCanonical s (execFirmwareWrite role named rec s) :=
  .branch (.power fun hm => Jenjor.shutDown_wf hm true _) (.blocks _)

/-- Every command and event: those that store one by one, any other by its frame. -/
theorem exec_canonical (c : Instr) (s : State) : KeepsCanonical s (exec c s) := by
  have hframe := exec_keepsFrame c s
  cases hstores : storesInCatalogue c || storesInPool c with
  | false =>
    obtain ⟨hcat, hpool⟩ := Bool.or_eq_false_iff.mp hstores
    rw [hcat, hpool] at hframe
    exact .ofKept hframe fun t ht => hframe.mem ht rfl
  | true =>
    unfold exec
    cases c with
    | objectCreate =>
      exact .catalogueBytes fun hm => Jenjor.catalogueMem_wf hm _ _ _ _ fun _ _ _ => Jenjor.createObject_wf hm ..
    | objectWrite => exact execObjectWrite_canonical ..
    | objectRelease => exact execObjectRelease_canonical ..
    | allocationRetry => exact execAllocationRetry_canonical ..
    | commitPublish => exact .catalogueBytes fun hm => Jenjor.publishOldest_wf hm _
    | atomic => exact execAtomic_canonical ..
    | tileWrite => exact execTileWrite_canonical ..
    | tileRead => exact .ofKept hframe fun _ => execTileRead_keeps_memory
    | tilePrefetch => exact .ofKept hframe fun _ => execTilePrefetch_keeps_memory
    | tileEvict => exact .ofKept hframe fun _ => execTileEvict_keeps_memory
    | catalogueWindowWrite => exact .catalogueBytes fun hm => Jenjor.windowWrite_wf hm ..
    | slotWrite => exact execSlotWrite_canonical ..
    | restore => exact execRestore_canonical ..
    | startStepComplete => exact execStartStepComplete_canonical ..
    | powerGood => exact execPowerGood_canonical ..
    | powerOff => exact execPowerOff_canonical ..
    | holdupFlushComplete => exact execHoldupFlushComplete_canonical ..
    | modRstTimeout => exact execModRstTimeout_canonical ..
    | lifecycleEraseComplete => exact execLifecycleEraseComplete_canonical ..
    | almanacWriteComplete => exact execAlmanacWriteComplete_canonical ..
    | firmwareWrite => exact execFirmwareWrite_canonical ..
    | tenantScrubComplete => exact execTenantScrubComplete_canonical ..
    | rdmaWrite => exact execRdmaWrite_canonical ..
    | _ => exact Bool.noConfusion hstores

/-- Settles O52: an idle step stores nothing, any other carries out the front command on the same memories. -/
theorem stepsKeepMemoriesCanonical : Obligations.StepsKeepMemoriesCanonical := by
  unfold Obligations.StepsKeepMemoriesCanonical
  intro s t hs hstep
  unfold step at hstep
  split at hstep
  · cases hstep
    exact hs
  next c rest hpending => exact (exec_canonical c { s with pending := rest }).canonical hs t hstep

end Sys2Proof.Machine
end

section
namespace Sys2Proof.Machine

theorem onReading_of_live {s : State} (f : List Host.Cell → List Host.Cell → Jenjor → Jenjor) (h : s.j.live = true) :
    onReading f s = .next { s with j := f s.mem s.rmem s.j } := by
  rw [onReading, if_pos h]

theorem onMemory_of_live {s : State} (f : List Host.Cell → List Host.Cell → Jenjor → List Host.Cell × Jenjor)
    (h : s.j.live = true) : onMemory f s = .next { s with mem := (f s.mem s.rmem s.j).1, j := (f s.mem s.rmem s.j).2 } := by
  rw [onMemory, if_pos h]

namespace Jenjor

/-! ### Writes of a management client (R433) -/

/-- A management write that is turned away (R427, R433). -/
def mgmtRefused (j : Jenjor) (a : Nat) : Jenjor := (j.discard 0 a).emit (.mgmt false 0)

/-- What R433 opens to an operator: a 4-byte part, or one of the two of an 8-byte write. -/
def mgmtOpen (j : Jenjor) (role : Role) (a w : Nat) : Bool :=
  role == .operator && j.alm.step != 9 && (w == 4 || w == 8) && a % w == 0
    && (j.operatorMay a || (w == 8 && j.operatorMay (a + 4)))

section
variable {j : Jenjor} {role : Role} {a w : Nat} (v set : BitVec 64)

theorem mgmtWrite_of_closed (h : j.mgmtOpen role a w = false) : j.mgmtWrite role a w v set = j.mgmtRefused a := by
  unfold mgmtOpen at h
  unfold mgmtWrite
  rw [h]
  rfl

theorem mgmtWrite_word (h : j.mgmtOpen role a 4 = true) :
    j.mgmtWrite role a 4 v set = (j.writeWord a (v.setWidth 32) (set.setWidth 32)).emit (.mgmt true 0) := by
  unfold mgmtOpen at h
  unfold mgmtWrite
  rw [h]
  rfl

theorem mgmtOpen_of_not_operator (h : role ≠ .operator) : j.mgmtOpen role a w = false := by
  simp [mgmtOpen, h]

theorem mgmtOpen_in_recovery (h : j.alm.step = 9) : j.mgmtOpen role a w = false := by
  simp [mgmtOpen, h]

theorem mgmtOpen_of_width (h4 : w ≠ 4) (h8 : w ≠ 8) : j.mgmtOpen role a w = false := by
  simp [mgmtOpen, h4, h8]

/-- The error summary's W1C bits are an operator's. -/
theorem mgmtOpen_errSummary (h9 : j.alm.step ≠ 9) : j.mgmtOpen .operator 0xF0010 4 = true := by
  have hmay : j.operatorMay 0xF0010 = true := rfl
  simp [mgmtOpen, h9, hmay]

/-- The admin queue's registers are not an operator's. -/
theorem mgmtOpen_adminQueue : j.mgmtOpen .operator 0x110 4 = false := by
  have hmay : j.operatorMay 0x110 = false := rfl
  simp [mgmtOpen, hmay]

end

/-! ### The catalogue window (R35, R440) -/

/-- The bytes that the open window shows from an offset. -/
def windowBytes (mem : List Host.Cell) (j : Jenjor) (off len : Nat) : List Byte :=
  (List.range len).map fun i => catalogueByte mem j (j.qs.windowBase.toNat + off + i)

theorem windowBytes_length (mem : List Host.Cell) (j : Jenjor) (off len : Nat) : (windowBytes mem j off len).length = len := by
  simp [windowBytes]

theorem windowBytes_getElem? (mem : List Host.Cell) (j : Jenjor) (off : Nat) {len i : Nat} (hi : i < len) :
    (windowBytes mem j off len)[i]? = some (catalogueByte mem j (j.qs.windowBase.toNat + off + i)) := by
  simp [windowBytes, hi]

section
variable {j : Jenjor} (mem : List Host.Cell) (off len : Nat) (hopen : j.barsOpen = true)
include hopen

theorem windowRead_of_bad (hok : windowOk off len = false) :
    j.windowRead mem off len = (j.emit (.completerAbort off)).emit (.aer 0) := by
  simp [windowRead, hopen, hok]

theorem windowRead_of_tenant (hok : windowOk off len = true) (ht : j.dom.tenant ≠ .unbound) :
    j.windowRead mem off len = j.emit (.windowData (List.replicate len 0)) := by
  simp [windowRead, windowOpen, hopen, hok, ht]

theorem windowRead_of_unbound (hok : windowOk off len = true) (ht : j.dom.tenant = .unbound) :
    j.windowRead mem off len = j.emit (.windowData (windowBytes mem j off len)) := by
  simp [windowRead, windowOpen, windowBytes, hopen, hok, ht]

end

section
variable {mem : List Host.Cell} {j : Jenjor} {a r : Nat} {o : Obj}

theorem catalogueByte_of_object (h : j.resolve a = .objByte o r) : catalogueByte mem j a = Memory.read mem r := by
  rw [catalogueByte, h]

theorem catalogueByte_of_invalid (h : j.resolve a = .invalid) : catalogueByte mem j a = 0 := by
  rw [catalogueByte, h]

theorem catalogueByte_of_plate {p : Plate} {c : Coll} (h : j.resolve a = .plateByte p r) (hc : j.coll? p.coll = some c) :
    catalogueByte mem j a = p.byteAt c.format c.dim c.sidecar r := by
  simp only [catalogueByte, h, hc]

end

/-- A window write of an object's bytes, noted for its vault master and its slews; of a tile region, poison it covers is
gone. -/
def windowStored (j : Jenjor) (o : Obj) (r n : Nat) : Jenjor :=
  if o.kind = 8 then (j.noteWrite o.num (r - o.base) n).clearTilePoison o.num (r - o.base) n
  else j.noteWrite o.num (r - o.base) n

/-- What a window write may change in the blocks. -/
theorem windowStored_frame (j : Jenjor) (o : Obj) (r n : Nat) : j.windowStored o r n =
    { j with cat := { j.cat with objs := (j.windowStored o r n).cat.objs, slews := (j.windowStored o r n).cat.slews },
             mem := (j.windowStored o r n).mem } := by
  unfold windowStored
  split
  · rfl
  · rfl

section
variable {j : Jenjor} (mem : List Host.Cell) {off : Nat} {data : List Byte} (hopen : j.barsOpen = true)
  (hok : windowOk off data.length = true)
include hopen hok

theorem windowWrite_of_tenant (ht : j.dom.tenant ≠ .unbound) :
    j.windowWrite mem off data = (mem, j.discard 0 (j.qs.windowBase.toNat + off)) := by
  simp [windowWrite, windowOpen, hopen, hok, ht]

variable (ht : j.dom.tenant = .unbound)
include ht

theorem windowWrite_of_no_object (h : ∀ o r, j.resolve (j.qs.windowBase.toNat + off) ≠ .objByte o r) :
    j.windowWrite mem off data = (mem, j.discard 0 (j.qs.windowBase.toNat + off)) := by
  cases htarget : j.resolve (j.qs.windowBase.toNat + off) with
  | objByte o r => exact absurd htarget (h o r)
  | invalid => simp [windowWrite, windowOpen, hopen, hok, ht, htarget]
  | plateByte => simp [windowWrite, windowOpen, hopen, hok, ht, htarget]

variable {o : Obj} {r : Nat} (h : j.resolve (j.qs.windowBase.toNat + off) = .objByte o r)
include h

theorem windowWrite_of_object : j.windowWrite mem off data =
    if j.windowWritable o && !(j.mem.stopped && o.tier == .sweep) then
      (Memory.writeBytes mem r data, j.windowStored o r data.length)
    else (mem, j.discard 0 (j.qs.windowBase.toNat + off)) := by
  simp [windowWrite, windowOpen, windowStored, hopen, hok, ht, h]

end

end Jenjor

theorem turnedAway_mgmtRefused (s : State) (a : Nat) : turnedAway s { s with j := s.j.mgmtRefused a } := by
  refine ⟨?_, Jenjor.discard_count .., Jenjor.discard_head .., ?_⟩
  · exact congrArg (_ :: ·) (Jenjor.discard_out ..)
  · rw [Jenjor.mgmtRefused, Jenjor.discard_frame]
    rfl

theorem exec_mgmtRegisterWrite {s : State} (r : Role) (a w : Nat) (v set : BitVec 64) (hs : s.j.live = true)
    (hstep : 5 ≤ s.j.alm.step) :
    exec (.mgmtRegisterWrite r a w ⟨v, set⟩) s = .next { s with j := s.j.mgmtWrite r a w v set } :=
  (onBlocks_of_live _ hs).trans (by rw [mgmtPortUp, decide_eq_true hstep, if_pos rfl])

theorem exec_mgmtRegisterWrite_of_closed {s : State} {r : Role} {a w : Nat} (v set : BitVec 64) (hs : s.j.live = true)
    (hstep : 5 ≤ s.j.alm.step) (h : s.j.mgmtOpen r a w = false) :
    ∃ t, exec (.mgmtRegisterWrite r a w ⟨v, set⟩) s = .next t ∧ turnedAway s t := by
  rw [exec_mgmtRegisterWrite r a w v set hs hstep, Jenjor.mgmtWrite_of_closed v set h]
  exact ⟨_, rfl, turnedAway_mgmtRefused s a⟩

section
variable {s : State} (hs : serving s)
include hs

theorem exec_catalogueWindowRead (off len : Nat) :
    exec (.catalogueWindowRead off len) s = .next { s with j := s.j.windowRead s.mem off len } :=
  onReading_of_live (fun mem _ j => j.windowRead mem off len) hs.1

theorem exec_catalogueWindowWrite (off : Nat) (data : List Byte) : exec (.catalogueWindowWrite off data) s =
    .next { s with mem := (s.j.windowWrite s.mem off data).1, j := (s.j.windowWrite s.mem off data).2 } :=
  onMemory_of_live (fun mem _ j => j.windowWrite mem off data) hs.1

/-- A window write that finds nothing to store in. -/
theorem exec_catalogueWindowWrite_discarded {off a : Nat} {data : List Byte}
    (h : s.j.windowWrite s.mem off data = (s.mem, s.j.discard 0 a)) :
    ∃ t, exec (.catalogueWindowWrite off data) s = .next t ∧ discarded s t := by
  rw [exec_catalogueWindowWrite hs, h]
  exact ⟨_, rfl, discarded_discard s 0 a⟩

end

/-- Settles O50: a management write by what R433 opens, a window access by what its address names. -/
theorem managementWritesAndWindow : Obligations.ManagementWritesAndWindow := by
  unfold Obligations.ManagementWritesAndWindow
  refine ⟨fun s a w v set hs hstep => ⟨fun r hr => ?_, fun h9 => ?_, ?_⟩, fun s r a w v set hs hstep => ?_,
    fun s off len hs => ⟨fun hok ht => ?_, fun hok ht => ?_, fun hok => ?_⟩,
    fun s off data hs hok => ⟨fun ht => ?_, fun ht hno => ?_, fun o r ht htarget => ⟨fun hbad => ?_, fun hw hup => ?_⟩⟩⟩
  · refine exec_mgmtRegisterWrite_of_closed v set hs hstep ?_
    obtain hr | h9 | ⟨h4, h8⟩ := hr
    · exact Jenjor.mgmtOpen_of_not_operator hr
    · exact Jenjor.mgmtOpen_in_recovery h9
    · exact Jenjor.mgmtOpen_of_width h4 h8
  · rw [exec_mgmtRegisterWrite _ _ _ v set hs hstep, Jenjor.mgmtWrite_word v set (Jenjor.mgmtOpen_errSummary h9),
      Jenjor.writeWord_of_word _ _ (by decide) h9 (Jenjor.regAt_errSummary _), Jenjor.writeField_errSummary,
      extract_setWidth_clear]
    rfl
  · exact exec_mgmtRegisterWrite_of_closed v set hs hstep Jenjor.mgmtOpen_adminQueue
  · refine (onBlocks_of_live _ hs).trans ?_
    rw [mgmtPortUp, decide_eq_false (by omega), if_neg Bool.false_ne_true]
  · rw [exec_catalogueWindowRead hs, Jenjor.windowRead_of_unbound _ _ _ hs.2 hok ht]
    refine ⟨_, _, rfl, rfl, Jenjor.windowBytes_length .., fun i hi => ?_⟩
    rw [Jenjor.windowBytes_getElem? _ _ _ hi]
    exact ⟨fun o r h => congrArg some (Jenjor.catalogueByte_of_object h),
      fun h => congrArg some (Jenjor.catalogueByte_of_invalid h),
      fun p r c h hc => congrArg some (Jenjor.catalogueByte_of_plate h hc)⟩
  · rw [exec_catalogueWindowRead hs, Jenjor.windowRead_of_tenant _ _ _ hs.2 hok ht]
    rfl
  · rw [exec_catalogueWindowRead hs, Jenjor.windowRead_of_bad _ _ _ hs.2 hok]
    rfl
  · exact exec_catalogueWindowWrite_discarded hs (Jenjor.windowWrite_of_tenant _ hs.2 hok ht)
  · exact exec_catalogueWindowWrite_discarded hs (Jenjor.windowWrite_of_no_object _ hs.2 hok ht hno)
  · refine exec_catalogueWindowWrite_discarded hs ((Jenjor.windowWrite_of_object _ hs.2 hok ht htarget).trans (if_neg ?_))
    obtain hw | ⟨hstop, htier⟩ := hbad
    · simp [hw]
    · simp [hstop, htier]
  · have htaken : (s.j.windowWritable o && !(s.j.mem.stopped && o.tier == .sweep)) = true := by
      simpa [hw] using not_and_or.mp hup
    rw [exec_catalogueWindowWrite hs, Jenjor.windowWrite_of_object _ hs.2 hok ht htarget, if_pos htaken,
      Jenjor.windowStored_frame]
    exact ⟨_, rfl, rfl, fun a ha => Memory.read_writeBytes_outside _ _ _ _ ha, rfl, rfl, rfl, rfl, rfl, rfl⟩

end Sys2Proof.Machine
end

section
namespace Sys2Proof.Machine

theorem Jenjor.completeCatalogue_vlt (j : Jenjor) (r : CmdRef) (v1 : BitVec 64) : (j.completeCatalogue r v1).vlt = j.vlt :=
  complete_vlt ..

/-! ### States that the statements about creations allow and no module reaches -/

/-- A descriptor fetched from queue 0. -/
def adminFetched (d : Desc) : Fetched := { ref := { q := 0, cid := 0, noIrq := false, t0 := 0, gen := 0, tag := none }, d := d }

/-- A powered module that holds a catalogue, with nothing fetched. -/
def poweredWith (c : CatState) : Jenjor := { Jenjor.reset with cat := c, isl := { resetIslands with power := .on } }

/-- The same module once it has fetched a descriptor. -/
def hasFetched (c : CatState) (f : Fetched) : State :=
  { State.reset with j := { poweredWith c with qs := { resetQueues with fetched := [f] } } }

/-! ### An OBJECT_CREATE of a kind that stage 1 refuses (R270, R277) -/

/-- OBJECT_CREATE of 64 bytes of kind 2, a payload table. -/
def payloadTableCreate : Fetched := adminFetched (0x42#512 ||| 2#512 <<< (8 * 0x14) ||| 64#512 <<< (8 * 0x18))

theorem payloadTableCreate_kind : dField payloadTableCreate.d 0x14 1 = 2 := by decide +kernel

theorem payloadTableCreate_takes :
    (hasFetched resetCat payloadTableCreate).takesCat 0 0x42 [] payloadTableCreate (poweredWith resetCat) :=
  ⟨by decide +kernel, by decide +kernel, .inl (by decide +kernel)⟩

theorem payloadTableCreate_passes :
    firstStatus ((poweredWith resetCat).objectChecks payloadTableCreate.d []) = none := by decide +kernel

theorem payloadTableCreate_fits : Jenjor.objectPages payloadTableCreate.d ≤ (poweredWith resetCat).poolFree := by decide +kernel

/-- A payload table has a home in the vault (R235), and takes it. -/
theorem payloadTableCreate_homed : ∃ t, exec (.objectCreate 0 []) (hasFetched resetCat payloadTableCreate) = .next t ∧
    t.j.vlt.extents = [{ what := .object 1, stripe := 0, stripes := 1 }] := ⟨_, rfl, by decide +kernel⟩

/-- Refutes O3: OBJECT_CREATE of a payload table, a kind that stage 1 refuses and that no check of the command's own does, takes
vault addresses, where the statement keeps the vault for every kind but 4. -/
theorem not_objectCommands : ¬ Obligations.ObjectCommands := by
  unfold Obligations.ObjectCommands
  rintro ⟨hcreate, -⟩
  obtain ⟨k, o, hexec, -, -, -, hkind, -, -, -, -, -, hvlt⟩ := hcreate _ _ _ _ _ payloadTableCreate_takes
    payloadTableCreate_passes payloadTableCreate_fits
  have hkept : k.vlt = (poweredWith resetCat).vlt := hvlt (by rw [hkind, payloadTableCreate_kind]; decide)
  obtain ⟨t, ht, hhome⟩ := payloadTableCreate_homed
  rw [hexec] at ht
  cases ht
  rw [Jenjor.completeCatalogue_vlt, hkept] at hhome
  cases hhome

/-! ### A COLLECTION_CREATE whose number stray plates bear (R38, R243) -/

/-- COLLECTION_CREATE of collection 3: B1, bare, dimension 64, Hamming, sweep-resident, 4 plates. -/
def bitCollectionCreate : Fetched := adminFetched
  (0x40#512 ||| 3#512 <<< (8 * 0x04) ||| 1#512 <<< (8 * 0x14) ||| 1#512 <<< (8 * 0x15) ||| 64#512 <<< (8 * 0x16)
    ||| 4#512 <<< (8 * 0x18) ||| 4#512 <<< (8 * 0x20))

/-- A tile region that leaves one page of the pool free. -/
def fullRegion : Obj :=
  { num := 1, kind := 8, coll := 0, base := 0, bytes := 153599 * 2097152, extent := 153599 * 2097152, tier := .sweep,
    lastUse := 0, heat := 0, keyGen := 0, draining := false, pages := 153599, dirty := [] }

/-- Eight plates, one pool page, of a collection 3 that does not exist, so that they count in no pool page yet. -/
def strayPlates : CatState :=
  { resetCat with objs := [fullRegion], plates := (List.range 8).map fun n => emptyPlate n 3 n 0 0 false .bare, nextPid := 8 }

theorem bitCollectionCreate_takes :
    (hasFetched strayPlates bitCollectionCreate).takesCat 0 0x40 [] bitCollectionCreate (poweredWith strayPlates) :=
  ⟨by decide +kernel, by decide +kernel, .inl (by decide +kernel)⟩

theorem bitCollectionCreate_passes :
    firstStatus ((poweredWith strayPlates).collectionChecks bitCollectionCreate.d []) = none := by decide +kernel

theorem bitCollectionCreate_fits :
    1 + dField bitCollectionCreate.d 0x1E 1 ≤ (poweredWith strayPlates).poolFree := by
  decide +kernel

theorem bitCollectionCreate_plateNum :
    (poweredWith strayPlates).newPlateNum (dField bitCollectionCreate.d 4 2) = some 8 := by decide +kernel

theorem bitCollectionCreate_noInfo : dField bitCollectionCreate.d 0x38 8 = 0 := by decide +kernel

/-- Once the collection exists its stray plates take the last page, and its first plate waits. -/
theorem bitCollectionCreate_opensNone : ∃ t, exec (.collectionCreate 0 []) (hasFetched strayPlates bitCollectionCreate) = .next t ∧
    t.j.cat.plates = strayPlates.plates := ⟨_, rfl, by decide +kernel⟩

/-- Refutes O2: a COLLECTION_CREATE that passes its checks with a pool page free opens no plate where the catalogue lists
plates of the collection's number before it exists: they count in the pool from its creation. -/
theorem not_collectionCommands : ¬ Obligations.CollectionCommands := by
  unfold Obligations.CollectionCommands
  rintro ⟨hcreate, -⟩
  obtain ⟨k, c, p, os, hexec, -, -, -, -, -, -, -, -, -, -, -, -, -, -, hplates, -⟩ := hcreate _ _ _ _ _ _
    bitCollectionCreate_takes bitCollectionCreate_passes bitCollectionCreate_fits bitCollectionCreate_plateNum
  obtain ⟨t, ht, hnone⟩ := bitCollectionCreate_opensNone
  rw [hexec, if_pos bitCollectionCreate_noInfo] at ht
  cases ht
  rw [Jenjor.complete_cat, hplates] at hnone
  simp [poweredWith] at hnone

end Sys2Proof.Machine
end

section
namespace Sys2Proof.Machine

/-! ### Visibility (R62) -/

section
variable {p : Plate} {slot q : Nat} {r : Rec}

/-- Byte 12 of a record's sidecar, of any class, is the low byte of its flags; bit 0 of it is `occupied` (R55). -/
theorem Rec.sidecarBytes_occupied (r : Rec) (sc : Sidecar) : ((r.sidecarBytes sc).getD 12 0).getLsbD 0 = r.occupied := by
  have hflags : (BitVec.ofNat 8 ((if r.occupied then 1 else 0) + (if r.hasPayload then 2 else 0)
      + (if r.hasRecord then 4 else 0))).getLsbD 0 = r.occupied := by
    cases r.occupied <;> cases r.hasPayload <;> cases r.hasRecord <;> rfl
  cases sc <;> simpa [Rec.sidecarBytes, leBytes] using hflags

theorem Rec.sidecars_occupied_iff (r : Rec) :
    (∀ sc : Sidecar, ((r.sidecarBytes sc).getD 12 0).getLsbD 0 = true) ↔ r.occupied = true :=
  ⟨fun h => (r.sidecarBytes_occupied .bare).symm.trans (h .bare), fun h sc => (r.sidecarBytes_occupied sc).trans h⟩

/-- Where a slot has one entry at most in a delete log, what its first entry meets, any of its entries meets. -/
theorem dlog_find?_all (hone : ∀ e ∈ p.dlog, ∀ e' ∈ p.dlog, e.2 = slot → e'.2 = slot → e = e') (P : Nat × Nat → Bool) :
    (p.dlog.find? fun e => e.2 == slot).all P = true ↔
      (∀ e ∈ p.dlog, e.2 ≠ slot) ∨ ∃ e ∈ p.dlog, e.2 = slot ∧ P e = true := by
  cases hfind : p.dlog.find? fun e => e.2 == slot with
  | none =>
    have hnone : ∀ e ∈ p.dlog, e.2 ≠ slot := by simpa using hfind
    exact iff_of_true rfl (.inl hnone)
  | some e =>
    have hmem := List.mem_of_find?_eq_some hfind
    have hslot : e.2 = slot := by simpa using List.find?_some hfind
    refine ⟨fun h => .inr ⟨e, hmem, hslot, h⟩, ?_⟩
    rintro (hnone | ⟨e', hmem', hslot', hP⟩)
    · exact absurd hslot (hnone e hmem)
    · rw [hone e hmem e' hmem' hslot hslot']; exact hP

theorem Plate.visible_of_rec (hr : p.recs[slot]? = some r) :
    p.visible slot q = true ↔ r.occupied = true ∧ (slot ∈ p.settled ∨ p.epochBase + r.delta ≤ q) ∧
      ¬ (slot ∈ p.tomb ∧ ((p.dlog.find? fun e => e.2 == slot).all fun e => decide (p.epochBase + e.1 ≤ q)) = true) := by
  simp [Plate.visible, hr, and_assoc, ← imp_iff_not_or]

theorem Plate.visible_of_no_rec (hr : p.recs[slot]? = none) : p.visible slot q = false := by simp [Plate.visible, hr]

theorem Plate.visible_iff_visibleByRule (hone : ∀ e ∈ p.dlog, ∀ e' ∈ p.dlog, e.2 = slot → e'.2 = slot → e = e') :
    p.visible slot q = true ↔ visibleByRule p slot q := by
  cases hr : p.recs[slot]? with
  | none => simp [Plate.visible_of_no_rec hr, visibleByRule, hr]
  | some r =>
    have hrule : visibleByRule p slot q ↔ (∀ sc : Sidecar, ((r.sidecarBytes sc).getD 12 0).getLsbD 0 = true) ∧ _ :=
      ⟨fun ⟨_, hr', h⟩ => Option.some.inj (hr.symm.trans hr') ▸ h, fun h => ⟨r, hr, h⟩⟩
    rw [Plate.visible_of_rec hr, dlog_find?_all hone, hrule, Rec.sidecars_occupied_iff]
    simp only [decide_eq_true_eq]

/-- The filter wheel stops a pair before the predicate exactly where the record is not visible (R128 tests 1 and 2). -/
theorem testPair_stopped_iff (c : Coll) (cluster : Nat) (x : Ctx) (p : Plate) (slot : Nat) (k : Cell) :
    (testPair c cluster x p slot k = .gated ∨ testPair c cluster x p slot k = .notVisible) ↔ p.visible slot x.epoch = false := by
  unfold testPair
  cases hr : p.recs[slot]? with
  | none => simp [Plate.visible_of_no_rec hr]
  | some r =>
    cases hv : p.visible slot x.epoch with
    | false => cases r.occupied <;> simp
    | true =>
      have hocc : r.occupied = true := ((Plate.visible_of_rec hr).mp hv).1
      simp only [hocc, Bool.not_true, Bool.false_eq_true, if_false]
      cases x.pred.passes r with
      | false => simp
      | true => cases keyWord c x.mu (biasAt c x r.biasIndex.toNat) (cellScore c x r.codes k) <;> simp
end

/-- Settles O57: the model's test is R62's rule where a slot has one delete-log entry at most, and the filter wheel stops
the other records. -/
theorem visibleRecords : Obligations.VisibleRecords := by
  unfold Obligations.VisibleRecords
  intro p slot hone
  refine ⟨fun q => Plate.visible_iff_visibleByRule hone, fun c cluster x k => ?_⟩
  rw [testPair_stopped_iff, ← Plate.visible_iff_visibleByRule hone, Bool.not_eq_true]

/-! ### Settling (R65) -/

section
variable {p : Plate} {o slot : Nat}

theorem Plate.mem_settle_settled :
    slot ∈ (p.settle o).settled ↔ ∃ r : Rec, p.recs[slot]? = some r ∧ (slot ∈ p.settled ∨ p.epochBase + r.delta ≤ o) := by
  cases hr : p.recs[slot]? with
  | none => simp [Plate.settle, List.getElem?_eq_none_iff.mp hr]
  | some r =>
    obtain ⟨hlt, hget⟩ := List.getElem?_eq_some_iff.mp hr
    simp [Plate.settle, hlt, hget]

theorem Plate.mem_settle_dlog {e : Nat × Nat} : e ∈ (p.settle o).dlog ↔ e ∈ p.dlog ∧ o < p.epochBase + e.1 := by
  simp [Plate.settle]

theorem Plate.settle_frame : p.settle o = { p with settled := (p.settle o).settled, dlog := (p.settle o).dlog } := rfl

/-- A delete that a query of epoch `o` or later sees is seen with its log entry freed, as one with no entry. -/
theorem Plate.settle_deleted {q : Nat} (hone : ∀ e ∈ p.dlog, ∀ e' ∈ p.dlog, e.2 = e'.2 → e = e') (hq : o ≤ q) :
    ((∀ e ∈ (p.settle o).dlog, e.2 ≠ slot) ∨ ∃ e ∈ (p.settle o).dlog, e.2 = slot ∧ p.epochBase + e.1 ≤ q) ↔
      ((∀ e ∈ p.dlog, e.2 ≠ slot) ∨ ∃ e ∈ p.dlog, e.2 = slot ∧ p.epochBase + e.1 ≤ q) := by
  simp only [Plate.mem_settle_dlog]
  constructor
  · rintro (hfree | ⟨e, ⟨hmem, -⟩, hslot, hle⟩)
    · by_cases hnone : ∀ e ∈ p.dlog, e.2 ≠ slot
      · exact .inl hnone
      · push Not at hnone
        obtain ⟨e, hmem, hslot⟩ := hnone
        have hold : ¬ o < p.epochBase + e.1 := fun hlt => hfree e ⟨hmem, hlt⟩ hslot
        exact .inr ⟨e, hmem, hslot, by omega⟩
    · exact .inr ⟨e, hmem, hslot, hle⟩
  · rintro (hnone | ⟨e, hmem, hslot, hle⟩)
    · exact .inl fun e he => hnone e he.1
    · by_cases hlt : o < p.epochBase + e.1
      · exact .inr ⟨e, ⟨hmem, hlt⟩, hslot, hle⟩
      · refine .inl ?_
        rintro e' ⟨hmem', hlt'⟩ hslot'
        exact hlt (hone e hmem e' hmem' (hslot.trans hslot'.symm) ▸ hlt')

theorem Plate.settle_visibleByRule {q : Nat} (hone : ∀ e ∈ p.dlog, ∀ e' ∈ p.dlog, e.2 = e'.2 → e = e') (hq : o ≤ q) :
    visibleByRule (p.settle o) slot q ↔ visibleByRule p slot q := by
  have hdel := Plate.settle_deleted (slot := slot) hone hq
  unfold visibleByRule
  refine exists_congr fun r => and_congr_right fun hr => and_congr_right fun _ => and_congr ?_ ?_
  · have hr' : p.recs[slot]? = some r := hr
    have hset : slot ∈ (p.settle o).settled ↔ slot ∈ p.settled ∨ p.epochBase + r.delta ≤ o := by
      simp [Plate.mem_settle_settled, hr']
    rw [hset]
    exact ⟨fun h => h.elim (·.imp_right fun hle => hle.trans hq) .inr, fun h => h.imp_left .inl⟩
  · exact not_congr (and_congr_right fun _ => hdel)
end

/-- Settles O58: a settled insert or delete is one that every query from that epoch on sees. -/
theorem settlingKeepsVisibility : Obligations.SettlingKeepsVisibility := by
  unfold Obligations.SettlingKeepsVisibility
  intro p o hone
  refine ⟨fun slot q hq => ?_, fun slot => Plate.mem_settle_settled, fun e => Plate.mem_settle_dlog, Plate.settle_frame⟩
  have hslot : ∀ e ∈ p.dlog, ∀ e' ∈ p.dlog, e.2 = slot → e'.2 = slot → e = e' :=
    fun e he e' he' h h' => hone e he e' he' (h.trans h'.symm)
  have hslot' : ∀ e ∈ (p.settle o).dlog, ∀ e' ∈ (p.settle o).dlog, e.2 = slot → e'.2 = slot → e = e' :=
    fun e he e' he' => hslot e (Plate.mem_settle_dlog.mp he).1 e' (Plate.mem_settle_dlog.mp he').1
  rw [Bool.eq_iff_iff, Plate.visible_iff_visibleByRule hslot', Plate.visible_iff_visibleByRule hslot]
  exact Plate.settle_visibleByRule hone hq

end Sys2Proof.Machine
end

section
namespace Sys2Proof.Machine

/-! ### Groups of a cluster (R76) -/

theorem foldl_keeps {α β : Type} {φ : β → α} {γ : Type} (f : β → γ → β) (hf : ∀ b x, φ (f b x) = φ b) (l : List γ) (b : β) :
    φ (l.foldl f b) = φ b := by
  induction l generalizing b with
  | nil => rfl
  | cons x l ih => exact (ih _).trans (hf _ _)

namespace Jenjor

section
variable {j k : Jenjor} {c g : Nat} {y : Cluster} {x : Group}

theorem group?_of_cluster (hy : j.cluster? c = some y) : j.group? c g = y.groups[g]? := by rw [group?, hy]; rfl

theorem group?_eq_some : j.group? c g = some x ↔ ∃ y, j.cluster? c = some y ∧ y.groups[g]? = some x := Option.bind_eq_some_iff

theorem cluster?_of_clusters (h : k.sw.clusters = j.sw.clusters) : k.cluster? c = j.cluster? c := by rw [cluster?, h]; rfl

theorem group?_of_clusters (h : k.sw.clusters = j.sw.clusters) : k.group? c g = j.group? c g := by
  rw [group?, cluster?_of_clusters h]; rfl

/-- A cluster with one of its groups changed. -/
def withGroup (g : Nat) (f : Group → Group) (y : Cluster) : Cluster := { y with groups := y.groups.modify g f }

theorem cluster?_mapGroup (f : Group → Group) (hy : j.cluster? c = some y) :
    (j.mapGroup c g f).cluster? c = some (withGroup g f y) := cluster?_mapCluster _ (fun _ => rfl) hy

theorem withGroup_groups (f : Group → Group) (hx : y.groups[g]? = some x) : (withGroup g f y).groups[g]? = some (f x) := by
  simp [withGroup, List.getElem?_modify_eq, hx]

theorem group?_mapGroup (f : Group → Group) (hx : j.group? c g = some x) : (j.mapGroup c g f).group? c g = some (f x) := by
  obtain ⟨y, hy, hx⟩ := group?_eq_some.mp hx
  exact group?_eq_some.mpr ⟨_, cluster?_mapGroup f hy, withGroup_groups f hx⟩

/-! ### What boarding and the end of a ride leave alone (R22, R81) -/

/-- The plates, and of each cluster its ring, whether it retires, and the plate groups queued before its groups. -/
def standing (j : Jenjor) : List Plate × List (Nat × Option Nat × Bool × List (List PlateGroup)) :=
  (j.cat.plates, j.sw.clusters.map fun y => (y.num, y.home, y.retiring, y.groups.map fun x => x.queue))

theorem standing_of_clusters (hp : k.cat.plates = j.cat.plates) (hc : k.sw.clusters = j.sw.clusters) :
    k.standing = j.standing := by rw [standing, hp, hc]; rfl

theorem standing_of_map {f : Cluster → Cluster} (hp : k.cat.plates = j.cat.plates)
    (hc : k.sw.clusters = j.sw.clusters.map f) (hf : ∀ y, (f y).num = y.num ∧ (f y).home = y.home ∧
      (f y).retiring = y.retiring ∧ ((f y).groups.map fun x => x.queue) = y.groups.map fun x => x.queue) :
    k.standing = j.standing := by
  rw [standing, hp, hc, List.map_map]
  refine congrArg _ (List.map_congr_left fun y _ => ?_)
  obtain ⟨hnum, hhome, hret, hqueue⟩ := hf y
  simp only [Function.comp, hnum, hhome, hret, hqueue]

theorem cluster?_of_standing (h : k.standing = j.standing) (hy : j.cluster? c = some y) :
    ∃ y', k.cluster? c = some y' ∧ y'.home = y.home ∧ y'.retiring = y.retiring ∧
      (y'.groups.map fun x => x.queue) = y.groups.map fun x => x.queue := by
  have hfind := congrArg (fun v => v.2.find? fun o => o.1 == c) h
  simp only [standing, List.find?_map, Function.comp_def] at hfind
  have hy' : j.sw.clusters.find? (fun y => y.num == c) = some y := hy
  rw [hy', Option.map_some, Option.map_eq_some_iff] at hfind
  obtain ⟨y', hk, hout⟩ := hfind
  simp only [Prod.mk.injEq] at hout
  exact ⟨y', hk, hout.2⟩

theorem group?_of_standing (h : k.standing = j.standing) (hx : j.group? c g = some x) :
    ∃ x', k.group? c g = some x' ∧ x'.queue = x.queue := by
  obtain ⟨y, hy, hx⟩ := group?_eq_some.mp hx
  obtain ⟨y', hk, -, -, hqueue⟩ := cluster?_of_standing h hy
  have hget := congrArg (fun l => l[g]?) hqueue
  simp only [List.getElem?_map, hx, Option.map_some, Option.map_eq_some_iff] at hget
  obtain ⟨x', hx', hq⟩ := hget
  exact ⟨x', group?_eq_some.mpr ⟨y', hk, hx'⟩, hq⟩
end

section
variable (j : Jenjor)

theorem mapGroup_standing (c g : Nat) {f : Group → Group} (hf : ∀ x, (f x).queue = x.queue) :
    (j.mapGroup c g f).standing = j.standing := by
  refine standing_of_map (f := fun y => if y.num == c then withGroup g f y else y) rfl rfl fun y => ?_
  by_cases hy : y.num == c
  · simp only [hy, if_true, withGroup, true_and]
    apply List.ext_getElem?
    intro i
    simp only [List.getElem?_map, List.getElem?_modify]
    cases y.groups[i]? <;> by_cases hi : g = i <;> simp [hi, hf]
  · simp [hy]

theorem finishGroup_standing (c g : Nat) : (j.finishGroup c g).standing = j.standing :=
  mapGroup_standing j c g fun x => by cases x.compute <;> rfl

theorem mapRings_standing (f : Ring → Ring) : (j.mapRings f).standing = j.standing := rfl

theorem freeRows_standing (c g : Nat) : (j.freeRows c g).standing = j.standing := mapRings_standing ..

theorem alightEnded_standing : j.alightEnded.standing = j.standing := by
  unfold alightEnded
  rw [mapRings_standing]
  refine foldl_keeps (φ := standing) _ ?_ _ j
  exact fun _ _ => rfl

theorem dropCtx_standing (id : Nat) : (j.dropCtx id).standing = j.standing := by
  refine (standing_of_clusters (by rw [dropStale_cat]) (by rw [dropStale_sw])).trans ?_
  exact standing_of_map rfl rfl fun y => ⟨rfl, rfl, rfl, List.map_map⟩

theorem abortCtx_standing (id : Nat) (st : Status) : (j.abortCtx id st).standing = j.standing := by
  unfold abortCtx
  cases j.ctx? id with
  | none => rfl
  | some x =>
    dsimp only
    split
    · exact dropCtx_standing j id
    · exact (standing_of_clusters (by rw [refuse_cat]) (by rw [refuse_sw])).trans (dropCtx_standing j id)

theorem reconvert_standing (x : Ctx) (c : Coll) : (j.reconvert x c).standing = j.standing := by
  unfold reconvert
  cases convert c x.q32 with
  | none => exact abortCtx_standing ..
  | some o => dsimp only; split <;> rfl

theorem boardOne_standing (r : Ring) (x : Ctx) : (j.boardOne r x).standing = j.standing := by
  unfold boardOne
  cases j.coll? x.coll with
  | none => exact abortCtx_standing ..
  | some c =>
    dsimp only
    split
    · exact reconvert_standing ..
    · split <;> rfl

theorem board_standing (n : Nat) : (j.board n).standing = j.standing := by
  unfold board
  cases j.ring? n with
  | none => rfl
  | some r =>
    dsimp only
    split
    · rfl
    · exact foldl_keeps (φ := standing) _ (fun k x => boardOne_standing k r x) _ j

/-! ### A plate group begins (R61, R82, R89) -/

theorem fillRows_clusters (n fuel : Nat) (j : Jenjor) :
    (fillRows n fuel j).sw.clusters = j.sw.clusters ∧ (fillRows n fuel j).cat = j.cat := by
  induction fuel generalizing j with
  | zero => exact ⟨rfl, rfl⟩
  | succ fuel ih =>
    unfold fillRows
    split
    · exact ⟨rfl, rfl⟩
    · dsimp only
      split
      · split
        · exact ih _
        · exact ⟨rfl, rfl⟩
      · exact ⟨rfl, rfl⟩

theorem idleCycles_clusters (c : Nat) :
    (j.idleCycles c).sw.clusters = j.sw.clusters ∧ (j.idleCycles c).cat = j.cat := ⟨rfl, rfl⟩

theorem quiet_of_serving {c : Nat} {y : Cluster} (hy : j.cluster? c = some y) (hr : y.retiring = false) (hh : y.home ≠ none) :
    j.quiet c = j := by
  unfold quiet
  rw [hy]
  cases hhome : y.home with
  | none => exact absurd hhome hh
  | some n => simp [hr, hhome]

/-- A group as a plate group begins in its compute half, for the rows `enabled` and less the pairs `excluded`. -/
def begun (pg : PlateGroup) (enabled : List Nat) (excluded : List (Nat × Nat)) (x : Group) : Group :=
  { x with compute := some pg, fill := x.queue.head?, queue := x.queue.tail, enabled := enabled, excluded := excluded,
           batch := 0, banks := [], held := false }

theorem beginGroup_clusters (c g : Nat) (pg : PlateGroup) :
    ∃ snap enabled excluded, (j.beginGroup c g pg).sw.clusters
        = (j.mapGroup c g (begun { pg with snap := snap } enabled excluded)).sw.clusters ∧
      (j.beginGroup c g pg).cat = j.cat := by
  unfold beginGroup
  dsimp only
  let riders := sortBy (fun a b => rowOf a ≤ rowOf b) (owing j pg)
  let plates := (pg.pids.filter fun p => !pg.skip.contains p).filterMap j.plate?
  refine ⟨plates.filter fun p => !skipped riders p, riders.map fun r => r.id, gatedPairs riders plates, ?_, ?_⟩
  · split <;> split <;> rfl
  · split <;> split <;> rfl
end
end Jenjor

section
open Jenjor
variable {s : State} {c g : Nat} {x : Group} {pg : PlateGroup}

/-- The blocks at a flip as its plate group is about to begin: the last one finished, rows freed, queries boarded. -/
def Jenjor.boarded (j : Jenjor) (c g home : Nat) : Jenjor := ((j.finishGroup c g).freeRows c g).alightEnded.board home

theorem Jenjor.boarded_standing (j : Jenjor) (c g home : Nat) : (j.boarded c g home).standing = j.standing := by
  rw [boarded, board_standing, alightEnded_standing, freeRows_standing, finishGroup_standing]

theorem exec_flip_inPass {y : Cluster} (hs : s.j.live = true) (hc : c < 18) (hy : s.j.cluster? c = some y)
    (hx : s.j.group? c g = some x) (hfill : x.fill = some pg) (hd : x.drained = true) (hready : pg.ready = true)
    (hin : inPass s.j pg = true) :
    exec (.flip c g) s = .next { s with j :=
      ((((s.j.boarded c g (y.home.getD 64)).beginGroup c g pg).loadRows (y.home.getD 64)).quiet c).idleCycles c } := by
  refine (onUnit_onBlocks hs _ (decide_eq_true hc)).trans ?_
  simp only [hx, hfill, hd, hready, hin, hy, Bool.not_true, Bool.or_self, Bool.false_eq_true, if_false, Option.bind_some]
  rfl

theorem exec_flip_held (hs : s.j.live = true) (hc : c < 18) (hx : s.j.group? c g = some x) (hfill : x.fill = some pg)
    (hd : x.drained = true) (hready : pg.ready = true) (hin : inPass s.j pg = false) :
    exec (.flip c g) s = .next { s with j := s.j.mapGroup c g fun x => { x with held := true } } := by
  refine (onUnit_onBlocks hs _ (decide_eq_true hc)).trans ?_
  simp only [hx, hfill, hd, hready, hin, Bool.not_true, Bool.not_false, Bool.or_self, Bool.false_eq_true, if_false, if_true]

theorem Jenjor.flipped_effect {j : Jenjor} {y : Cluster} (hy : j.cluster? c = some y) (hr : y.retiring = false)
    (hh : y.home ≠ none) (hx : j.group? c g = some x) (home : Nat) :
    let k := ((((j.boarded c g home).beginGroup c g pg).loadRows home).quiet c).idleCycles c
    ∃ x' snap, k.group? c g = some x' ∧ x'.compute = some { pg with snap := snap } ∧ x'.fill = x.queue.head? ∧
      k.cat.plates = j.cat.plates := by
  intro k
  have hstand := boarded_standing j c g home
  obtain ⟨y', hy', hhome, hret, -⟩ := cluster?_of_standing hstand hy
  obtain ⟨x', hx', hqueue⟩ := group?_of_standing hstand hx
  obtain ⟨snap, enabled, excluded, hbegun, hcat⟩ := beginGroup_clusters (j.boarded c g home) c g pg
  obtain ⟨hloaded, hloadedCat⟩ := fillRows_clusters home 256 ((j.boarded c g home).beginGroup c g pg)
  have hclusters := hloaded.trans hbegun
  have hquiet : (((j.boarded c g home).beginGroup c g pg).loadRows home).quiet c
      = ((j.boarded c g home).beginGroup c g pg).loadRows home :=
    quiet_of_serving _ ((cluster?_of_clusters hclusters).trans (cluster?_mapGroup _ hy')) (hret.trans hr) (hhome ▸ hh)
  have hk : k = (((j.boarded c g home).beginGroup c g pg).loadRows home).idleCycles c :=
    congrArg (fun l : Jenjor => l.idleCycles c) hquiet
  refine ⟨begun { pg with snap := snap } enabled excluded x', snap, ?_, rfl, ?_, ?_⟩
  · rw [hk]
    exact (group?_of_clusters ((idleCycles_clusters ..).1.trans hclusters)).trans (group?_mapGroup _ hx')
  · rw [← hqueue]; rfl
  · rw [hk, (idleCycles_clusters ..).2]
    exact (congrArg CatState.plates (hloadedCat.trans hcat)).trans (congrArg Prod.fst hstand)
end

/-! ### Accumulating and draining (R101, R102, R135) -/

namespace Jenjor

theorem blkBase_MER : blkBase blkMER = 0x20000 := rfl
theorem blkBase_TRN : blkBase blkTRN = 0x30000 := rfl
theorem blkBase_CMP : blkBase blkCMP = 0x40000 := rfl
theorem blkBase_FLT : blkBase blkFLT = 0x50000 := rfl

/-- TRN_ACC_CYCLES of a cluster. -/
def accCounter (c : Nat) : Nat := blkBase blkTRN + c * 0x100 + 8

/-- What a drain leaves alone: all but riders, clusters and counters, the accumulating cycles among them, and of the
group's cluster its ring, of the group its plate group and the batches it has accumulated. -/
structure Drains (c g : Nat) (j k : Jenjor) : Prop where
  frame : k = { j with sw := { j.sw with ctxs := k.sw.ctxs, clusters := k.sw.clusters }, ctrs := k.ctrs }
  cycles : (k.counter (accCounter c)).count = (j.counter (accCounter c)).count
  group : ∀ y x, j.cluster? c = some y → y.groups[g]? = some x → ∃ y' x', k.cluster? c = some y' ∧
    y'.home = y.home ∧ y'.retiring = y.retiring ∧ y'.groups[g]? = some x' ∧ x'.compute = x.compute ∧ x'.batch = x.batch

namespace Drains
variable {c g : Nat} {j k l : Jenjor}

theorem refl (j : Jenjor) : Drains c g j j := ⟨rfl, rfl, fun y x hy hx => ⟨y, x, hy, rfl, rfl, hx, rfl, rfl⟩⟩

theorem trans (h : Drains c g j k) (h' : Drains c g k l) : Drains c g j l where
  frame := by rw [h'.frame, h.frame]
  cycles := h'.cycles.trans h.cycles
  group y x hy hx := by
    obtain ⟨y', x', hy', hhome, hret, hx', hpg, hb⟩ := h.group y x hy hx
    obtain ⟨y'', x'', hy'', hhome', hret', hx'', hpg', hb'⟩ := h'.group y' x' hy' hx'
    exact ⟨y'', x'', hy'', hhome'.trans hhome, hret'.trans hret, hx'', hpg'.trans hpg, hb'.trans hb⟩

theorem of_bump (j : Jenjor) {addr : Nat} (n : Nat) (h : addr ≠ accCounter c) : Drains c g j (j.bump addr n) where
  frame := rfl
  cycles := congrArg Ctr.count (counter_bump_ne _ _ _ _ h.symm)
  group y x hy hx := ⟨y, x, hy, rfl, rfl, hx, rfl, rfl⟩

theorem of_mapCtx (j : Jenjor) (id : Nat) (f : Ctx → Ctx) : Drains c g j (j.mapCtx id f) where
  frame := rfl
  cycles := rfl
  group y x hy hx := ⟨y, x, hy, rfl, rfl, hx, rfl, rfl⟩

theorem of_mapCluster (j : Jenjor) {f : Cluster → Cluster} (hf : ∀ y, (f y).num = y.num ∧ (f y).home = y.home ∧
    (f y).retiring = y.retiring ∧ (f y).groups = y.groups) : Drains c g j (j.mapCluster c f) where
  frame := rfl
  cycles := rfl
  group y x hy hx := by
    obtain ⟨-, hhome, hret, hgroups⟩ := hf y
    exact ⟨f y, x, cluster?_mapCluster f (fun y => (hf y).1) hy, hhome, hret, hgroups ▸ hx, rfl, rfl⟩

theorem of_mapGroup (j : Jenjor) {f : Group → Group} (hf : ∀ x, (f x).compute = x.compute ∧ (f x).batch = x.batch) :
    Drains c g j (j.mapGroup c g f) where
  frame := rfl
  cycles := rfl
  group _ x hy hx :=
    ⟨_, _, cluster?_mapGroup f hy, rfl, rfl, withGroup_groups f hx, (hf x).1, (hf x).2⟩

theorem foldl {α : Type} {f : Jenjor → α → Jenjor} (hf : ∀ k a, Drains c g k (f k a)) (as : List α) (j : Jenjor) :
    Drains c g j (as.foldl f j) := by
  induction as generalizing j with
  | nil => exact refl j
  | cons a as ih => exact (hf j a).trans (ih _)
end Drains

/-- `drainCycle` counts only where there is something to count. -/
def bumpSome (j : Jenjor) (addr n : Nat) : Jenjor := if n = 0 then j else j.bump addr n

section
variable (j : Jenjor) {c g : Nat}

theorem Drains.of_bumpSome {addr : Nat} (n : Nat) (h : addr ≠ accCounter c) : Drains c g j (j.bumpSome addr n) := by
  unfold bumpSome
  split
  · exact .refl j
  · exact .of_bump j n h

theorem drainCycle_drains (hc : c < 18) (ps : List (Ctx × Pair)) : Drains c g j (j.drainCycle c ps) := by
  have hne : blkBase blkFLT + c * 0x40 ≠ accCounter c ∧ blkBase blkFLT + c * 0x40 + 0x08 ≠ accCounter c ∧
      blkBase blkFLT + c * 0x40 + 0x10 ≠ accCounter c ∧ blkBase blkTRN + c * 0x100 + 0x18 ≠ accCounter c ∧
      blkBase blkTRN + c * 0x100 + 0x20 ≠ accCounter c ∧ blkBase blkCMP + c * 0x40 ≠ accCounter c := by
    simp only [accCounter, blkBase_FLT, blkBase_TRN, blkBase_CMP]
    omega
  obtain ⟨h1, h2, h3, h4, h5, h6⟩ := hne
  unfold drainCycle
  refine .trans ?_ (.of_mapCluster _ fun y => ⟨rfl, rfl, rfl, rfl⟩)
  refine .trans ?_ (.foldl (fun k x => .of_mapCtx k _ _) ps _)
  exact ((((((Drains.of_bumpSome j _ h1).trans (.of_bumpSome _ _ h2)).trans (.of_bumpSome _ _ h3)).trans
    (.of_bumpSome _ _ h4)).trans (.of_bumpSome _ _ h5)).trans (.of_bumpSome _ _ h6))

theorem mapBank_keeps (f : Bank → Bank) (x : Group) : (mapBank f x).compute = x.compute ∧ (mapBank f x).batch = x.batch := by
  unfold mapBank
  cases x.banks <;> exact ⟨rfl, rfl⟩

theorem drainBank_drains (hc : c < 18) (step fuel : Nat) (j : Jenjor) : Drains c g j (drainBank c g step fuel j) := by
  induction fuel generalizing j with
  | zero => exact .refl j
  | succ fuel ih =>
    unfold drainBank
    split
    · split
      · split
        · exact .of_mapGroup j fun x => ⟨rfl, rfl⟩
        · dsimp only
          split
          · refine .of_bump j 1 ?_
            rw [accCounter, blkBase_MER, blkBase_TRN]
            split <;> omega
          · exact ((drainCycle_drains j hc _).trans (.of_mapGroup _ (mapBank_keeps _))).trans (ih _)
      · exact .refl j
    · exact .refl j

/-- The bank in which a group's next batch accumulates. -/
def nextBank (j : Jenjor) (x : Group) (pg : PlateGroup) : Bank := { batch := x.batch, column := 0, cells := batchCells j x pg x.batch }

/-- A group as its next batch accumulates in a bank. -/
def accumulated (b : Bank) (x : Group) : Group := { x with batch := x.batch + 1, banks := x.banks ++ [b] }

variable {j} {x : Group} {pg : PlateGroup}

theorem accumulateBatch_begins (d : RingDef) (hx : j.group? c g = some x) (hpg : x.compute = some pg)
    (hbank : x.banks.length < 2) (hbatch : x.batch < pg.batches) :
    accumulateBatch j c g d
      = (j.bump (accCounter c) (accCycles d.format d.dim * (8 / groupsPerCluster d.format))).mapGroup c g
          (accumulated (nextBank j x pg)) := by
  unfold accumulateBatch
  rw [hx]
  simp only [hpg, Nat.not_le.mpr hbank, Nat.not_le.mpr hbatch, decide_false, Bool.or_self, Bool.false_eq_true, if_false]
  rfl

theorem accumulateBatch_waits (d : RingDef) (hx : j.group? c g = some x) (hpg : x.compute = some pg)
    (h : ¬ (x.banks.length < 2 ∧ x.batch < pg.batches)) : accumulateBatch j c g d = j := by
  have hfull : 2 ≤ x.banks.length ∨ pg.batches ≤ x.batch := by omega
  unfold accumulateBatch
  rw [hx]
  simp only [hpg, Bool.or_eq_true, decide_eq_true_eq, hfull, if_true]
end

/-! ### A drain that admits nothing (R91) -/

section
variable {j : Jenjor} {c g : Nat} {y : Cluster} {x : Group} {pg : PlateGroup} {b : Bank}

theorem columnPairs_of_gated (hgated : ∀ p ∈ pg.snap, recordPairs j x p = []) (i : Nat) :
    columnPairs j c x pg b i = [] := by
  have hmem : ∀ {ps : List Plate} {i p slot}, columnAt ps i = some (p, slot) → p ∈ ps := by
    intro ps
    induction ps with
    | nil => intro i p slot h; cases h
    | cons q ps ih =>
      intro i p slot h
      unfold columnAt at h
      split at h
      · cases h; exact List.mem_cons_self
      · exact List.mem_cons_of_mem _ (ih h)
  unfold columnPairs
  split
  · rfl
  · next p slot h => rw [hgated p (hmem h)]; rfl

theorem drainCycle_nil (j : Jenjor) (c : Nat) :
    j.drainCycle c [] = j.mapCluster c fun y => { y with admq := y.admq, admHigh := max y.admHigh y.admq.length } := by
  simp [drainCycle, survivors, countPairs]

theorem mapBank_of_single (f : Bank → Bank) (hb : x.banks = [b]) : mapBank f x = { x with banks := [f b] } := by
  rw [mapBank, hb]

/-- A bank's next columns drained. -/
def columnsDrained (step : Nat) (b : Bank) : Bank := { b with column := b.column + step }

/-- A drain cycle whose pairs are all gated fits, and admits nothing. -/
theorem drainBank_succ_of_gated {step fuel : Nat} (hy : j.cluster? c = some y) (hx : y.groups[g]? = some x)
    (hpg : x.compute = some pg) (hb : x.banks = [b]) (hgated : ∀ p ∈ pg.snap, recordPairs j x p = [])
    (hadm : y.admq.length ≤ 16384) :
    drainBank c g step (fuel + 1) j = if 128 ≤ b.column then j.mapGroup c g fun x => { x with banks := [] }
      else drainBank c g step fuel ((j.drainCycle c []).mapGroup c g (mapBank (columnsDrained step))) := by
  have hnone : (List.range step).flatMap (fun i => columnPairs j c x pg b (b.column + i)) = [] :=
    List.flatMap_eq_nil_iff.mpr fun i _ => columnPairs_of_gated hgated _
  conv_lhs => unfold drainBank
  simp only [hy, group?_of_cluster hy, hx, hpg, hb, hnone]
  rw [if_neg (show ¬ 16384 < y.admq.length + (survivors []).length from Nat.not_lt.mpr hadm)]
  rfl

/-- With every pair of its records gated a bank drains in `fuel` cycles and no entry is admitted. -/
theorem drainBank_of_gated {step fuel : Nat} (hy : j.cluster? c = some y) (hx : y.groups[g]? = some x)
    (hpg : x.compute = some pg) (hb : x.banks = [b]) (hgated : ∀ p ∈ pg.snap, recordPairs j x p = [])
    (hadm : y.admq.length ≤ 16384) (hpos : 0 < fuel) (hfuel : 128 + step ≤ b.column + step * fuel) :
    ∃ z, (drainBank c g step fuel j).cluster? c = some z ∧ z.groups[g]? = some { x with banks := [] } ∧ z.admq = y.admq := by
  induction fuel generalizing j y x b with
  | zero => exact absurd hpos (Nat.lt_irrefl 0)
  | succ fuel ih =>
    rw [drainBank_succ_of_gated hy hx hpg hb hgated hadm, drainCycle_nil]
    by_cases hdone : 128 ≤ b.column
    · rw [if_pos hdone]
      exact ⟨_, cluster?_mapGroup _ hy, withGroup_groups _ hx, rfl⟩
    · rw [if_neg hdone]
      have hsplit : step * (fuel + 1) = step * fuel + step := Nat.mul_succ ..
      have hmore : 0 < fuel := Nat.pos_of_ne_zero fun h => by subst h; omega
      have hcycle := cluster?_mapCluster (fun y => { y with admq := y.admq, admHigh := max y.admHigh y.admq.length })
        (fun _ => rfl) hy
      have hnext := withGroup_groups (y := y) (mapBank (columnsDrained step)) hx
      rw [mapBank_of_single _ hb] at hnext
      obtain ⟨z, hz, hzx, hzq⟩ := ih (b := columnsDrained step b) (cluster?_mapGroup (mapBank (columnsDrained step)) hcycle)
        hnext hpg rfl hgated hadm hmore (by simp only [columnsDrained]; omega)
      exact ⟨z, hz, hzx, hzq⟩
end
end Jenjor

section
open Jenjor
variable {s : State} {c g : Nat} {y : Cluster} {x : Group} {pg : PlateGroup} {r : Ring} {d : RingDef}

theorem exec_batchAccumulateEnd (hs : s.j.live = true) (hc : c < 18) (hx : s.j.group? c g = some x)
    (hpg : x.compute = some pg) (hd : x.drained = false) (hr : s.j.ring? pg.ring = some r) (hdef : r.defn = some d) :
    exec (.batchAccumulateEnd c g) s = .next { s with j :=
      (drainBank c g (8 / groupsPerCluster d.format) 130 (accumulateBatch s.j c g d)).quiet c } := by
  refine (onUnit_onBlocks hs _ (decide_eq_true hc)).trans ?_
  simp only [hx, hpg, hd, hr, hdef, Option.bind_some, Bool.false_eq_true, if_false]

/-- A batch begins: a bank has drained and the plate group has a batch left (R101). -/
def batchBegins (x : Group) (pg : PlateGroup) : Bool := decide (x.banks.length < 2) && decide (x.batch < pg.batches)

theorem Jenjor.accumulateBatch_effect {j : Jenjor} (d : RingDef) (hy : j.cluster? c = some y) (hx : y.groups[g]? = some x)
    (hpg : x.compute = some pg) :
    let k := accumulateBatch j c g d
    (k = { j with sw := { j.sw with ctxs := k.sw.ctxs, clusters := k.sw.clusters }, ctrs := k.ctrs }) ∧
    (k.counter (accCounter c)).count = (j.counter (accCounter c)).count + (if batchBegins x pg then
      BitVec.ofNat 48 (accCycles d.format d.dim * (8 / groupsPerCluster d.format)) else 0) ∧
    ∃ y' x', k.cluster? c = some y' ∧ y'.home = y.home ∧ y'.retiring = y.retiring ∧ y'.groups[g]? = some x' ∧
      x'.compute = some pg ∧ x'.batch = x.batch + (if batchBegins x pg then 1 else 0) := by
  intro k
  have hgroup : j.group? c g = some x := (group?_of_cluster hy).trans hx
  by_cases h : x.banks.length < 2 ∧ x.batch < pg.batches
  · have hbegins : batchBegins x pg = true := by simpa [batchBegins] using h
    have hk : k = _ := accumulateBatch_begins d hgroup hpg h.1 h.2
    rw [hbegins, if_pos rfl, if_pos rfl, hk]
    refine ⟨rfl, ?_, _, _, cluster?_mapGroup _ hy, rfl, rfl, withGroup_groups _ hx, hpg, rfl⟩
    exact (congrArg Ctr.count (counter_bump j _ _ _)).trans (by rw [if_pos rfl])
  · have hbegins : batchBegins x pg = false := by simpa [batchBegins] using h
    have hk : k = j := accumulateBatch_waits d hgroup hpg h
    rw [hbegins, hk]
    exact ⟨rfl, by simp, y, x, hy, rfl, rfl, hx, hpg, rfl⟩

theorem groupStep_pos (f : Format) : 1 ≤ 8 / groupsPerCluster f := by
  unfold groupsPerCluster
  split <;> decide

variable (hs : s.j.live = true) (hc : c < 18) (hy : s.j.cluster? c = some y) (hret : y.retiring = false)
  (hhome : y.home ≠ none) (hx : y.groups[g]? = some x) (hpg : x.compute = some pg) (hd : x.drained = false)
  (hr : s.j.ring? pg.ring = some r) (hdef : r.defn = some d)
include hs hc hy hret hhome hx hpg hd hr hdef

/-- The end of a batch is its accumulation and a drain: the cluster serves its ring and goes on (R92). -/
theorem exec_batchAccumulateEnd_drains : ∃ k y' x',
    exec (.batchAccumulateEnd c g) s = .next { s with j := k } ∧
    k = drainBank c g (8 / groupsPerCluster d.format) 130 (accumulateBatch s.j c g d) ∧
    k.cluster? c = some y' ∧ y'.groups[g]? = some x' ∧ x'.compute = some pg ∧
    x'.batch = x.batch + (if batchBegins x pg then 1 else 0) ∧
    (k.counter (accCounter c)).count = (s.j.counter (accCounter c)).count + (if batchBegins x pg then
      BitVec.ofNat 48 (accCycles d.format d.dim * (8 / groupsPerCluster d.format)) else 0) ∧
    k = { s.j with sw := { s.j.sw with ctxs := k.sw.ctxs, clusters := k.sw.clusters }, ctrs := k.ctrs } := by
  obtain ⟨hframe, hcycles, y₁, x₁, hy₁, hhome₁, hret₁, hx₁, hpg₁, hbatch₁⟩ := accumulateBatch_effect d hy hx hpg
  have hdrains := drainBank_drains (g := g) hc (8 / groupsPerCluster d.format) 130 (accumulateBatch s.j c g d)
  obtain ⟨y₂, x₂, hy₂, hhome₂, hret₂, hx₂, hpg₂, hbatch₂⟩ := hdrains.group _ _ hy₁ hx₁
  have hquiet := quiet_of_serving _ hy₂ ((hret₂.trans hret₁).trans hret) (by rw [hhome₂, hhome₁]; exact hhome)
  refine ⟨_, y₂, x₂, ?_, rfl, hy₂, hx₂, hpg₂.trans hpg₁, hbatch₂.trans hbatch₁, hdrains.cycles.trans hcycles, ?_⟩
  · rw [exec_batchAccumulateEnd hs hc ((group?_of_cluster hy).trans hx) hpg hd hr hdef, hquiet]
  · rw [hdrains.frame, hframe]

theorem exec_batchAccumulateEnd_gated (hgated : ∀ p ∈ pg.snap, recordPairs s.j x p = []) (hbanks : x.banks = [])
    (hbatch : x.batch < pg.batches) (hadm : y.admq.length ≤ 16384) :
    ∃ t, exec (.batchAccumulateEnd c g) s = .next t ∧ t.j.group? c g = some { x with batch := x.batch + 1 } ∧
      (t.j.cluster? c).map (fun z => z.admq) = some y.admq := by
  obtain ⟨k, -, -, hexec, hk, -⟩ := exec_batchAccumulateEnd_drains hs hc hy hret hhome hx hpg hd hr hdef
  have hstep := groupStep_pos d.format
  rw [accumulateBatch_begins d ((group?_of_cluster hy).trans hx) hpg (by simp [hbanks]) hbatch] at hk
  obtain ⟨z, hz, hzx, hzq⟩ := drainBank_of_gated (b := nextBank s.j x pg) (step := 8 / groupsPerCluster d.format) (fuel := 130)
    (cluster?_mapGroup (j := s.j.bump _ _) (accumulated (nextBank s.j x pg)) hy) (withGroup_groups _ hx) hpg
    (by simp [accumulated, hbanks]) hgated hadm (by decide) (by omega)
  rw [← hk] at hz
  refine ⟨_, hexec, (group?_of_cluster hz).trans ?_, ?_⟩
  · rw [hzx, accumulated, hbanks]
  · dsimp only
    rw [hz, Option.map_some, hzq]
    rfl
end

/-- Settles O7: boarding and the end of rides leave what stands before a group alone, so that the flip takes it up, and a
drain leaves the plate group and the accumulating cycles alone. -/
theorem groupsFlipAndDrain : Obligations.GroupsFlipAndDrain := by
  unfold Obligations.GroupsFlipAndDrain
  refine ⟨?_, ?_, ?_⟩
  · intro s c g y x pg hs hc hy hret hhome hx hfill hd hready hin
    obtain ⟨x', snap, hx', hpg', hfill', hplates⟩ :=
      Jenjor.flipped_effect (pg := pg) hy hret hhome hx (y.home.getD 64)
    refine ⟨_, { pg with snap := snap }, exec_flip_inPass hs hc hy hx hfill hd hready hin, ?_, rfl, rfl, rfl, ?_, hplates, rfl, rfl⟩
    · exact (congrArg (·.bind fun x => x.compute) hx').trans hpg'
    · exact (congrArg (·.bind fun x => x.fill) hx').trans hfill'
  · intro s c g x pg hs hc hx hfill hd hready hin
    exact exec_flip_held hs hc hx hfill hd hready hin
  · intro s c g y x pg r d hs hc hy hret hhome hx hpg hd hr hdef
    refine ⟨?_, exec_batchAccumulateEnd_gated hs hc hy hret hhome hx hpg hd hr hdef⟩
    obtain ⟨k, y', x', hexec, -, hy', hx', hpg', hbatch, hcycles, hframe⟩ :=
      exec_batchAccumulateEnd_drains hs hc hy hret hhome hx hpg hd hr hdef
    refine ⟨_, x', hexec, (Jenjor.group?_of_cluster hy').trans hx', hpg', hbatch, hcycles, ?_⟩
    exact congrArg (fun k => { s with j := k }) hframe

end Sys2Proof.Machine
end

section
namespace Sys2Proof.Machine

/-! ### Look-ups in the catalogue -/

theorem Jenjor.pid_of_plate? {j : Jenjor} {pid : Nat} {p : Plate} (h : j.plate? pid = some p) : p.pid = pid := by
  simpa using List.find?_some h

theorem Jenjor.num_of_coll? {j : Jenjor} {n : Nat} {c : Coll} (h : j.coll? n = some c) : c.num = n := by
  simpa using List.find?_some h

namespace Jenjor

section
variable {j k : Jenjor} {pid n : Nat} {p : Plate} {c : Coll}

theorem plate?_of_plates (h : k.cat.plates = j.cat.plates) : k.plate? pid = j.plate? pid := by rw [plate?, h]; rfl

theorem coll?_of_colls (h : k.cat.colls = j.cat.colls) : k.coll? n = j.coll? n := by rw [coll?, h]; rfl

theorem plate?_mapPlates {q : Plate → Bool} {f : Plate → Plate} (hf : ∀ p, (f p).pid = p.pid) :
    (j.mapPlates q f).plate? pid = (j.plate? pid).map fun p => if q p then f p else p :=
  find?_updWhere_of _ _ f (fun p => by rw [hf]) _

theorem plate?_mapPlate {f : Plate → Plate} (hf : ∀ p, (f p).pid = p.pid) (hp : j.plate? pid = some p) :
    (j.mapPlate pid f).plate? pid = some (f p) :=
  (find?_updWhere _ f (fun p => by rw [hf]) _).trans (congrArg (Option.map f) hp)

theorem coll?_mapColl {f : Coll → Coll} (hf : ∀ c, (f c).num = c.num) (hc : j.coll? n = some c) :
    (j.mapColl n f).coll? n = some (f c) :=
  (find?_updWhere _ f (fun c => by rw [hf]) _).trans (congrArg (Option.map f) hc)

theorem mem_updWhere {α : Type} {q : α → Bool} {f : α → α} {l : List α} {y : α} (h : y ∈ updWhere q f l) :
    ∃ x ∈ l, y = if q x then f x else x := by
  obtain ⟨x, hx, hy⟩ := List.mem_map.mp h
  exact ⟨x, hx, hy.symm⟩
end

/-! ### The journal's space (R223) -/

theorem regionCheck_frame (j : Jenjor) :
    j.regionCheck = { j with wr := { j.wr with stopped := j.regionCheck.wr.stopped }, ctrs := j.regionCheck.ctrs } := by
  unfold regionCheck
  split
  · rfl
  · split <;> rfl

theorem regionCheck_counter (j : Jenjor) {a : Nat} (h : a ≠ 0x440) : j.regionCheck.counter a = j.counter a := by
  unfold regionCheck
  split
  · exact counter_bump_ne _ _ _ _ h
  · split <;> rfl

theorem freeJournal_frame (j : Jenjor) : j.freeJournal = { j with wr := j.freeJournal.wr, ctrs := j.freeJournal.ctrs } := by
  unfold freeJournal
  dsimp only
  rw [regionCheck_frame]

theorem freeJournal_cat (j : Jenjor) : j.freeJournal.cat = j.cat := by rw [freeJournal_frame]

theorem freeJournal_counter (j : Jenjor) {a : Nat} (h : a ≠ 0x440) : j.freeJournal.counter a = j.counter a :=
  regionCheck_counter _ h

theorem mem_freeJournal {j : Jenjor} {e : JEntry} (h : e ∈ j.freeJournal.wr.journal) : e ∈ j.wr.journal := by
  unfold freeJournal at h
  dsimp only at h
  rw [regionCheck_frame] at h
  exact List.mem_of_mem_filter h

/-! ### Vault copies (R311, R312) -/

theorem programStripes_frame (j : Jenjor) (n : Nat) : j.programStripes n = { j with ctrs := (j.programStripes n).ctrs } := by
  have hkeeps : { j.programStripes n with ctrs := j.ctrs } = j := by
    refine foldl_keeps (φ := fun k : Jenjor => { k with ctrs := j.ctrs }) _ ?_ _ j
    intro k c
    split <;> rfl
  exact (congrArg (fun k : Jenjor => { k with ctrs := (j.programStripes n).ctrs }) hkeeps.symm).symm

theorem programStripes_counter (j : Jenjor) (n : Nat) {a : Nat} (h : a < 0x90000) :
    (j.programStripes n).counter a = j.counter a := by
  refine foldl_keeps (φ := fun k : Jenjor => k.counter a) _ ?_ _ j
  intro k c
  split
  · refine counter_bump_ne _ _ _ _ ?_
    rw [show blkBase blkVLT = 0x90000 from rfl]
    omega
  · rfl

theorem programStripes_cat (j : Jenjor) (n : Nat) : (j.programStripes n).cat = j.cat := by rw [programStripes_frame]

theorem programStripes_wr (j : Jenjor) (n : Nat) : (j.programStripes n).wr = j.wr := by rw [programStripes_frame]

theorem moveIn_frame (j : Jenjor) (what : VaultHold) (n : Nat) :
    j.moveIn what n = { j with vlt := { j.vlt with extents := (j.moveIn what n).vlt.extents } } := by
  unfold moveIn
  split <;> rfl

theorem freeLogs_frame (j : Jenjor) (n : Nat) :
    j.freeLogs n = { j with vlt := { j.vlt with extents := (j.freeLogs n).vlt.extents } } := rfl

theorem mem_freeLogs {j : Jenjor} {n : Nat} {e : VaultExtent} (h : e ∈ (j.freeLogs n).vlt.extents) : e ∈ j.vlt.extents :=
  List.mem_of_mem_filter h

/-- A collection with no header of a plate in its log. -/
def headerForgotten (pid : Nat) (c : Coll) : Coll := { c with hdrAt := c.hdrAt.filter fun x => x.1 != pid }

theorem copyPlate_frame (j : Jenjor) (p : Plate) : j.copyPlate p =
    { j with vlt := { j.vlt with extents := (j.copyPlate p).vlt.extents },
             cat := { j.cat with colls := updWhere (fun c => c.num == p.coll) (headerForgotten p.pid) j.cat.colls } } := by
  rw [copyPlate, freeLogs_frame, moveIn_frame]
  rfl

theorem logHeaders_frame (j : Jenjor) (n : Nat) (pids : List Nat) : j.logHeaders n pids =
    { j with vlt := { j.vlt with extents := (j.logHeaders n pids).vlt.extents },
             cat := { j.cat with colls := (j.logHeaders n pids).cat.colls } } := by
  unfold logHeaders
  dsimp only
  rw [moveIn_frame]
  split <;> rfl

theorem logHeaders_coll? {j : Jenjor} {n : Nat} {c : Coll} (pids : List Nat) (hc : j.coll? n = some c) :
    ∃ h, (j.logHeaders n pids).coll? n = some { c with hdrAt := h } := by
  unfold logHeaders
  dsimp only
  rw [moveIn_frame]
  split
  · exact ⟨c.hdrAt, hc⟩
  · exact ⟨_, coll?_mapColl (fun _ => rfl) hc⟩

/-! ### Write-backs (R223, R312) -/

/-- A plate that its vault master holds as it stands. -/
def cleaned (p : Plate) : Plate := { p with dirtyHdr := false, dirtyData := false }

/-- A journal entry that a plate no longer keeps. -/
def untouched (pid : Nat) (e : JEntry) : JEntry := { e with touched := e.touched.filter (· != pid) }

theorem not_mem_untouched {pid : Nat} {l : List JEntry} :
    ∀ e ∈ updWhere (fun e : JEntry => e.touched.contains pid) (untouched pid) l, pid ∉ e.touched := by
  intro e he
  obtain ⟨x, -, rfl⟩ := mem_updWhere he
  by_cases hx : pid ∈ x.touched <;> simp [hx, untouched]

theorem plateWritten_frame (j : Jenjor) (pid : Nat) : j.plateWritten pid = { j with
    wr := { j.wr with journal := updWhere (fun e => e.touched.contains pid) (untouched pid) j.wr.journal },
    ctrs := (j.plateWritten pid).ctrs } := rfl

theorem count_writeBack (j : Jenjor) : ((j.count blkDEV 0x458).counter 0x458).count = (j.counter 0x458).count + 1 :=
  congrArg Ctr.count (counter_bump j 0x458 1 0x458)

theorem writeBackPlate_of_dirtyData {j : Jenjor} {p : Plate} (hpres : p.present = true) (hlost : p.lost = false)
    (hd : p.dirtyData = true) : j.writeBackPlate p = (j.writePlate p).freeJournal := by
  simp [writeBackPlate, hpres, hlost, hd]

theorem writePlate_cat (j : Jenjor) (p : Plate) : (j.writePlate p).cat = { j.cat with
    plates := (j.mapPlate p.pid cleaned).cat.plates,
    colls := updWhere (fun c => c.num == p.coll) (headerForgotten p.pid) j.cat.colls } := by
  rw [writePlate, programStripes_cat, copyPlate_frame]
  rfl

theorem writePlate_journal (j : Jenjor) (p : Plate) : (j.writePlate p).wr.journal
    = updWhere (fun e => e.touched.contains p.pid) (untouched p.pid) j.wr.journal := by
  rw [writePlate, programStripes_wr, copyPlate_frame]
  rfl

theorem writePlate_count (j : Jenjor) (p : Plate) :
    ((j.writePlate p).counter 0x458).count = (j.counter 0x458).count + 1 := by
  rw [writePlate, programStripes_counter _ _ (by decide), copyPlate_frame]
  exact count_writeBack _

theorem not_mem_headerForgotten {n pid : Nat} {l : List Coll} :
    ∀ c ∈ updWhere (fun c : Coll => c.num == n) (headerForgotten pid) l, c.num = n → ∀ x ∈ c.hdrAt, x.1 ≠ pid := by
  intro c hc hn x hx
  obtain ⟨d, -, rfl⟩ := mem_updWhere hc
  by_cases hd : d.num = n
  · simp only [hd, beq_self_eq_true, if_true, headerForgotten, List.mem_filter] at hx
    simpa using hx.2
  · simp [hd] at hn

/-- A collection whose bias plane is as its master. -/
def biasCleaned (c : Coll) : Coll := { c with bias := c.bias.map fun b => { b with dirty := false } }

theorem writeBackBias_of_dirty {j : Jenjor} {n : Nat} {c : Coll} {b : BiasPlane} (hc : j.coll? n = some c)
    (hb : c.bias = some b) (hd : b.dirty = true) :
    (j.writeBackBias n).cat.colls = (j.mapColl n biasCleaned).cat.colls ∧
      ((j.writeBackBias n).counter 0x458).count = (j.counter 0x458).count + 1 := by
  unfold writeBackBias
  simp only [hc, hb, hd, Option.bind_some, Bool.not_true, Bool.false_eq_true, if_false]
  rw [freeJournal_cat, programStripes_cat, freeJournal_counter _ (by decide), programStripes_counter _ _ (by decide)]
  refine ⟨?_, ?_⟩
  · split <;> rfl
  · rw [count_writeBack]
    split <;> rfl

/-! ### The header log (R312) -/

/-- A plate whose header its master holds. -/
def headerCleaned (p : Plate) : Plate := { p with dirtyHdr := false }

/-- The headers of these plates are written. -/
def cleanHeaders (j : Jenjor) (pids : List Nat) : Jenjor :=
  pids.foldl (fun j pid => (j.mapPlate pid headerCleaned).plateWritten pid) j

theorem cleanHeaders_colls (j : Jenjor) (pids : List Nat) : (j.cleanHeaders pids).cat.colls = j.cat.colls := by
  refine foldl_keeps (φ := fun k : Jenjor => k.cat.colls) _ ?_ pids j
  exact fun _ _ => rfl

theorem plate?_cleanHeaders {j : Jenjor} {pid : Nat} {p : Plate} (pids : List Nat) (hp : j.plate? pid = some p) :
    (j.cleanHeaders pids).plate? pid = some (if pid ∈ pids then headerCleaned p else p) := by
  induction pids generalizing j p with
  | nil => exact hp
  | cons q pids ih =>
    have hpid := pid_of_plate? hp
    have hstep : ((j.mapPlate q headerCleaned).plateWritten q).plate? pid = some (if pid = q then headerCleaned p else p) := by
      refine (plate?_mapPlates (q := fun p => p.pid == q) (f := headerCleaned) fun _ => rfl).trans ?_
      simp [hp, hpid]
    refine (ih hstep).trans ?_
    by_cases hq : pid = q <;> by_cases hmem : pid ∈ pids <;> simp [hq, hmem, headerCleaned]

/-- A collection whose header log is empty. -/
def logEmptied (c : Coll) : Coll := { c with hdrLog := [] }

theorem writeHeaders_of_pending {j : Jenjor} {n : Nat} {c : Coll} (hc : j.coll? n = some c) (hlog : c.hdrLog ≠ []) :
    j.writeHeaders n =
      let pids := c.hdrLog.filter fun pid => (j.plate? pid).any fun p => !p.dirtyData
      ((((j.cleanHeaders pids).mapColl n logEmptied).logHeaders n pids).programStripes 1) := by
  unfold writeHeaders
  rw [hc]
  simp only [List.isEmpty_iff, hlog, if_false]
  rfl

end Jenjor

section
open Jenjor
variable {s : State} {pid n : Nat} {p : Plate} {c : Coll}

theorem exec_writeBack_plate (hs : s.j.live = true) (hp : s.j.plate? pid = some p) :
    exec (.writeBack (.plate pid)) s = .next { s with j := s.j.writeBackPlate p } := by
  refine (onBlocks_of_live (fun j => match j.plate? pid with | none => j | some p => j.writeBackPlate p) hs).trans ?_
  rw [hp]

theorem exec_writeBack_bias (hs : s.j.live = true) :
    exec (.writeBack (.bias n)) s = .next { s with j := s.j.writeBackBias n } :=
  onBlocks_of_live (fun j => j.writeBackBias n) hs

theorem exec_headerLogStripeTimeout (hs : s.j.live = true) :
    exec (.headerLogStripeTimeout n) s = .next { s with j := (s.j.writeHeaders n).freeJournal } :=
  onBlocks_of_live (fun j => (j.writeHeaders n).freeJournal) hs

theorem writeBack_plate_cleans (hs : s.j.live = true) (hp : s.j.plate? pid = some p) (hpres : p.present = true)
    (hlost : p.lost = false) (hd : p.dirtyData = true) :
    ∃ t, exec (.writeBack (.plate pid)) s = .next t ∧
      t.j.plate? pid = some { p with dirtyHdr := false, dirtyData := false } ∧
      (t.j.counter 0x458).count = (s.j.counter 0x458).count + 1 ∧
      (∀ e ∈ t.j.wr.journal, pid ∉ e.touched) ∧ (∀ c ∈ t.j.cat.colls, c.num = p.coll → ∀ x ∈ c.hdrAt, x.1 ≠ pid) ∧
      t.mem = s.mem := by
  obtain rfl := pid_of_plate? hp
  have hexec := exec_writeBack_plate hs hp
  rw [writeBackPlate_of_dirtyData hpres hlost hd] at hexec
  refine ⟨_, hexec, ?_, ?_, ?_, ?_, rfl⟩
  · refine (plate?_of_plates (j := s.j.mapPlate p.pid cleaned) ?_).trans ?_
    · dsimp only
      rw [freeJournal_cat, writePlate_cat]
    · exact plate?_mapPlate (f := cleaned) (fun _ => rfl) hp
  · exact (congrArg Ctr.count (freeJournal_counter _ (by decide))).trans (writePlate_count ..)
  · intro e he
    have he := mem_freeJournal he
    rw [writePlate_journal] at he
    exact not_mem_untouched e he
  · dsimp only
    rw [freeJournal_cat, writePlate_cat]
    exact not_mem_headerForgotten

theorem writeBack_bias_cleans {b : BiasPlane} (hs : s.j.live = true) (hc : s.j.coll? n = some c) (hb : c.bias = some b)
    (hd : b.dirty = true) :
    ∃ t, exec (.writeBack (.bias n)) s = .next t ∧ t.j.coll? n = some { c with bias := some { b with dirty := false } } ∧
      (t.j.counter 0x458).count = (s.j.counter 0x458).count + 1 ∧ t.mem = s.mem := by
  obtain ⟨hcolls, hcount⟩ := writeBackBias_of_dirty hc hb hd
  refine ⟨_, exec_writeBack_bias hs, ?_, hcount, rfl⟩
  refine (coll?_of_colls hcolls).trans ((coll?_mapColl (f := biasCleaned) (fun _ => rfl) hc).trans ?_)
  rw [biasCleaned, hb]
  rfl

theorem headerLog_emptied (hs : s.j.live = true) (hc : s.j.coll? n = some c) (hlog : c.hdrLog ≠ []) :
    ∃ (t : State) (c' : Coll), exec (.headerLogStripeTimeout n) s = .next t ∧ t.j.coll? n = some c' ∧
      c' = { c with hdrLog := [], hdrAt := c'.hdrAt } ∧
      (∀ pid ∈ c.hdrLog, ∀ p, s.j.plate? pid = some p → p.dirtyData = false →
        t.j.plate? pid = some { p with dirtyHdr := false }) ∧ t.mem = s.mem := by
  let pids := c.hdrLog.filter fun pid => (s.j.plate? pid).any fun p => !p.dirtyData
  have hwrite : (s.j.writeHeaders n).freeJournal.cat
      = (((s.j.cleanHeaders pids).mapColl n logEmptied).logHeaders n pids).cat := by
    rw [freeJournal_cat, writeHeaders_of_pending hc hlog]
    exact programStripes_cat ..
  have hcoll : ((s.j.cleanHeaders pids).mapColl n logEmptied).coll? n = some (logEmptied c) :=
    coll?_mapColl (fun _ => rfl) ((coll?_of_colls (cleanHeaders_colls ..)).trans hc)
  obtain ⟨h, hlogged⟩ := logHeaders_coll? pids hcoll
  refine ⟨_, { logEmptied c with hdrAt := h }, exec_headerLogStripeTimeout hs, ?_, rfl, ?_, rfl⟩
  · exact (coll?_of_colls (congrArg CatState.colls hwrite)).trans hlogged
  · intro pid hpid p hp hclean
    have hplates : (s.j.writeHeaders n).freeJournal.cat.plates = (s.j.cleanHeaders pids).cat.plates := by
      rw [hwrite, logHeaders_frame]
      rfl
    refine (plate?_of_plates hplates).trans ((plate?_cleanHeaders pids hp).trans ?_)
    rw [if_pos (by simp [pids, hpid, hp, hclean])]
    rfl
end

/-! ### Settling visits (R65) -/

/-- A plate as a settling visit at epoch `o` leaves it: its header is edited only where that changes it. -/
def visited (o : Nat) (p : Plate) : Plate :=
  if (p.settle o).settled = p.settled ∧ (p.settle o).dlog = p.dlog then p else { p.settle o with dirtyHdr := true }

theorem visited_header (o : Nat) (p : Plate) : (visited o p).settled = (p.settle o).settled ∧
    (visited o p).dlog = (p.settle o).dlog ∧ (visited o p).recs = p.recs ∧ (visited o p).tomb = p.tomb ∧
    (visited o p).pid = p.pid := by
  unfold visited
  split
  · next h => exact ⟨h.1.symm, h.2.symm, rfl, rfl, rfl⟩
  · exact ⟨rfl, rfl, rfl, rfl, rfl⟩

namespace Jenjor

theorem notePlate_frame (j : Jenjor) (p : Plate) (slot : Option Nat) : j.notePlate p slot =
    { j with cat := { j.cat with slews := (j.notePlate p slot).cat.slews } } := by
  unfold notePlate
  split <;> rfl

theorem settlePlate_frame {j : Jenjor} {pid : Nat} {p : Plate} (hp : j.plate? pid = some p) : j.settlePlate pid =
    { j with cat := { j.cat with plates := (j.mapPlate pid (visited j.oldestRider)).cat.plates,
                                 recals := (j.settlePlate pid).cat.recals, slews := (j.settlePlate pid).cat.slews } } := by
  unfold settlePlate
  rw [hp]
  dsimp only
  rw [notePlate_frame]
  rfl

end Jenjor

section
open Jenjor
variable {s : State} {pid : Nat} {p : Plate}

theorem exec_plateSettleVisit (hs : s.j.live = true) (hp : s.j.plate? pid = some p) (hpres : p.present = true)
    (hlost : p.lost = false) : exec (.plateSettleVisit pid) s = .next { s with j := s.j.settlePlate pid } := by
  refine (onBlocks_of_live
    (fun j => if (j.plate? pid).any fun p => p.present && !p.lost then j.settlePlate pid else j) hs).trans ?_
  rw [if_pos (by simp [hp, hpres, hlost])]

theorem settleVisit_settles (hs : s.j.live = true) (hp : s.j.plate? pid = some p) (hpres : p.present = true)
    (hlost : p.lost = false) :
    ∃ (t : State) (p' : Plate), exec (.plateSettleVisit pid) s = .next t ∧ t.j.plate? pid = some p' ∧
      p'.settled = (p.settle s.j.oldestRider).settled ∧ p'.dlog = (p.settle s.j.oldestRider).dlog ∧ p'.recs = p.recs ∧
      p'.tomb = p.tomb ∧
      t = { s with j := { s.j with cat := { s.j.cat with
        plates := t.j.cat.plates, recals := t.j.cat.recals, slews := t.j.cat.slews } } } := by
  obtain ⟨hsettled, hdlog, hrecs, htomb, -⟩ := visited_header s.j.oldestRider p
  refine ⟨_, visited s.j.oldestRider p, exec_plateSettleVisit hs hp hpres hlost, ?_, hsettled, hdlog, hrecs, htomb, ?_⟩
  · refine (plate?_of_plates (j := s.j.mapPlate pid (visited s.j.oldestRider)) ?_).trans
      (plate?_mapPlate (fun p => (visited_header _ p).2.2.2.2) hp)
    dsimp only
    rw [settlePlate_frame hp]
  · dsimp only
    rw [settlePlate_frame hp]
end

/-! ### Replating (R224, R225, R228) -/

namespace Jenjor

/-- A grant's blocks keep what `φ` reads of `j`. -/
def Grant.Keeps {β : Type} (φ : Jenjor → β) (j : Jenjor) : Grant → Prop
  | .granted k => φ k = φ j
  | .wait _ k => φ k = φ j
  | .limit => True

/-- What an allocation leaves alone (R243): the plates, the collections and the replatings. -/
def plateJobs (j : Jenjor) : List Plate × List Replating := (j.cat.plates, j.cat.replatings)

theorem releaseCachePage_plateJobs (j : Jenjor) : j.releaseCachePage.plateJobs = j.plateJobs := by
  unfold releaseCachePage
  split <;> rfl

theorem Grant.Keeps.of_eq {β : Type} {φ : Jenjor → β} {j k : Jenjor} {a : Grant} (h : Grant.Keeps φ k a) (hk : φ k = φ j) :
    Grant.Keeps φ j a := by
  cases a with
  | granted l => exact Eq.trans h hk
  | wait failed l => exact Eq.trans h hk
  | limit => trivial

theorem allocLoop_plateJobs (need : Nat) (named : List Nat) (heat : Option Nat) (fuel : Nat) (j : Jenjor) :
    Grant.Keeps plateJobs j (allocLoop need named heat fuel j) := by
  induction fuel generalizing j with
  | zero => exact rfl
  | succ fuel ih =>
    unfold allocLoop
    split
    · exact rfl
    · split
      · exact (ih _).of_eq (releaseCachePage_plateJobs j)
      · split
        · exact rfl
        · split
          · exact rfl
          · dsimp only
            split
            · exact rfl
            · exact (ih _).of_eq rfl

theorem allocate_plateJobs (j : Jenjor) (need : Nat) (named : List Nat) : Grant.Keeps plateJobs j (j.allocate need named) := by
  unfold allocate allocateCool
  dsimp only
  split
  · trivial
  · exact allocLoop_plateJobs ..

theorem allocate_granted_plateJobs {j k : Jenjor} {need : Nat} {named : List Nat} (h : j.allocate need named = .granted k) :
    k.plateJobs = j.plateJobs := by
  have hkeeps := allocate_plateJobs j need named
  rw [h] at hkeeps
  exact hkeeps

theorem allocate_wait_plateJobs {j k : Jenjor} {need : Nat} {named : List Nat} {failed : Bool}
    (h : j.allocate need named = .wait failed k) : k.plateJobs = j.plateJobs := by
  have hkeeps := allocate_plateJobs j need named
  rw [h] at hkeeps
  exact hkeeps

/-- Pages that are free are granted at once. -/
theorem allocate_of_free {j : Jenjor} {need : Nat} (named : List Nat) (h : need ≤ j.poolFree) :
    j.allocate need named = .granted j := by
  unfold allocate allocateCool
  dsimp only
  rw [if_neg (by omega)]
  unfold allocLoop
  rw [if_pos h]

theorem listPlate_cat (j : Jenjor) (n pid : Nat) : (j.listPlate n pid).cat = j.cat := by
  unfold listPlate
  split
  · rfl
  · split <;> rfl

/-- A new plate goes behind the others. -/
theorem openPlate_effect (j : Jenjor) (c : Coll) :
    ∃ new, (j.openPlate c).plateJobs = (j.cat.plates ++ new, j.cat.replatings) := by
  have hnone : j.plateJobs = (j.cat.plates ++ [], j.cat.replatings) := by rw [List.append_nil]; rfl
  fun_cases openPlate j c with
  | case1 hnum => exact ⟨[], hnone⟩
  | case2 num hnum p add k hk =>
    obtain ⟨hplates, hjobs⟩ := Prod.mk.inj (allocate_granted_plateJobs hk)
    refine ⟨[p], ?_⟩
    rw [plateJobs, listPlate_cat]
    exact Prod.ext (congrArg (· ++ [p]) hplates) hjobs
  | case3 num hnum p add failed k hk => exact ⟨[], (allocate_wait_plateJobs hk).trans hnone⟩
  | case4 num hnum p add hk => exact ⟨[], hnone⟩

theorem topUp_effect (j : Jenjor) (n : Nat) :
    ∃ new, (j.topUp n).plateJobs = (j.cat.plates ++ new, j.cat.replatings) := by
  have hnone : j.plateJobs = (j.cat.plates ++ [], j.cat.replatings) := by rw [List.append_nil]; rfl
  unfold topUp
  split
  · exact ⟨[], hnone⟩
  · split
    · exact openPlate_effect ..
    · exact ⟨[], hnone⟩

/-- The plates of a replating may be its sources: they need it, for space (R224) or for a re-base (R228). -/
def reclaims (j : Jenjor) (c : Coll) (ps : List Plate) : Prop :=
  (∀ p ∈ ps, j.needsReclaim c p = true) ∧ j.cat.recals.any (fun r => r.coll == c.num) = false

/-- A plate as a replating takes it. -/
def sourceTaken (p : Plate) : Plate := { p with source := true }

/-- The job of a replating that starts. -/
def newReplating (j : Jenjor) (c : Coll) (cause : ReplateCause) (ps repl : List Plate) : Replating :=
  { id := j.cat.nextId, coll := c.num, cause := cause, sources := ps.map fun p => p.pid, repl := repl,
    base := j.oldestRider, ready := false }

theorem startReplating_effect (mem : List Host.Cell) (j : Jenjor) (c : Coll) (cause : ReplateCause) (ps repl : List Plate) :
    ∃ new, (startReplating mem j c cause ps repl).plateJobs =
      ((j.mapPlates (fun p => ps.any fun x => x.pid == p.pid) sourceTaken).cat.plates ++ new,
        j.cat.replatings ++ [newReplating j c cause ps repl]) := topUp_effect ..

theorem replate_starts {mem : List Host.Cell} {j : Jenjor} {pids : List Nat} {c : Coll}
    (hlen : (pids.filterMap j.plate?).length = pids.length) (hmost : (pids.filterMap j.plate?).length ≤ 8)
    (hcoll : ((pids.filterMap j.plate?).head?).bind (fun p => j.liveColl? p.coll) = some c)
    (hrising : (((pids.filterMap j.plate?).zip ((pids.filterMap j.plate?).drop 1)).all fun x => decide (x.1.num < x.2.num)) = true)
    (hsource : ∀ p ∈ pids.filterMap j.plate?, p.coll = c.num ∧ sourceable p = true)
    (hneeds : j.reclaims c (pids.filterMap j.plate?) ∨ ∀ p ∈ pids.filterMap j.plate?, j.needsRebase p = true)
    (hflight : j.inFlightPlates + (j.replacements c (pids.filterMap j.plate?)).length ≤ 64)
    (hfree : ceilDiv (j.plateBytes c (j.replacements c (pids.filterMap j.plate?))) 2097152 ≤ j.poolFree) :
    ∃ cause, replate mem j pids
        = startReplating mem j c cause (pids.filterMap j.plate?) (j.replacements c (pids.filterMap j.plate?)) ∧
      (cause = .reclaim ↔ j.reclaims c (pids.filterMap j.plate?)) := by
  generalize hps : pids.filterMap j.plate? = ps at *
  have hreclaim : (ps.all (j.needsReclaim c) && !j.cat.recals.any fun r => r.coll == c.num) = true ↔ j.reclaims c ps := by
    simp [reclaims]
  refine ⟨if ps.all (j.needsReclaim c) && !j.cat.recals.any fun r => r.coll == c.num then .reclaim else .rebase, ?_, ?_⟩
  · have hneed : ((ps.all (j.needsReclaim c) && !j.cat.recals.any fun r => r.coll == c.num) || ps.all j.needsRebase) = true := by
      rw [Bool.or_eq_true, hreclaim, List.all_eq_true]
      exact hneeds
    have hall : (ps.all fun p => p.coll == c.num && sourceable p) = true := by
      simpa using hsource
    unfold replate
    rw [hps]
    dsimp only
    rw [hcoll]
    dsimp only
    rw [hrising, hneed, hall, allocate_of_free _ hfree, if_neg]
    simp [hlen]
    omega
  · rw [← hreclaim]
    split
    · next h => simp [h]
    · next h => simp [h]

end Jenjor

section
open Jenjor
variable {s : State} {pids : List Nat} {c : Coll}

theorem exec_replatingStart (pids : List Nat) (hs : s.j.live = true) :
    exec (.replatingStart pids) s = .next { s with j := replate s.mem s.j pids } :=
  congrArg Host.Outcome.next (if_pos hs)

theorem Jenjor.pids_of_found {j : Jenjor} {pids : List Nat} (h : ∀ pid ∈ pids, (j.plate? pid).isSome) :
    (pids.filterMap j.plate?).map (fun p => p.pid) = pids := by
  induction pids with
  | nil => rfl
  | cons pid pids ih =>
    obtain ⟨p, hp⟩ := Option.isSome_iff_exists.mp (h pid List.mem_cons_self)
    rw [List.filterMap_cons_some hp, List.map_cons, ih fun q hq => h q (List.mem_cons_of_mem _ hq), pid_of_plate? hp]

/-- The sources of a replating are marked, whatever plate is opened behind them. -/
theorem Jenjor.source_marked {j k : Jenjor} {ps new : List Plate} {pid : Nat} {p : Plate} (hp : j.plate? pid = some p)
    (hmem : p ∈ ps)
    (hplates : k.cat.plates = (j.mapPlates (fun p => ps.any fun x => x.pid == p.pid) sourceTaken).cat.plates ++ new) :
    (k.plate? pid).any (fun p => p.source) = true := by
  have hmarked : (j.mapPlates (fun p => ps.any fun x => x.pid == p.pid) sourceTaken).plate? pid = some (sourceTaken p) := by
    refine (plate?_mapPlates (f := sourceTaken) fun _ => rfl).trans ?_
    have hany : (ps.any fun x => x.pid == p.pid) = true := List.any_eq_true.mpr ⟨p, hmem, beq_self_eq_true _⟩
    rw [hp, Option.map_some, if_pos hany]
  have hfind : k.plate? pid = some (sourceTaken p) := by
    rw [plate?] at hmarked
    rw [plate?, hplates, List.find?_append, hmarked, Option.some_or]
  rw [hfind]
  rfl

theorem replatingStart_stages (hs : s.j.live = true)
    (hlen : (pids.filterMap s.j.plate?).length = pids.length) (hmost : (pids.filterMap s.j.plate?).length ≤ 8)
    (hcoll : ((pids.filterMap s.j.plate?).head?).bind (fun p => s.j.liveColl? p.coll) = some c)
    (hrising : (((pids.filterMap s.j.plate?).zip ((pids.filterMap s.j.plate?).drop 1)).all fun x =>
      decide (x.1.num < x.2.num)) = true)
    (hsource : ∀ p ∈ pids.filterMap s.j.plate?, p.coll = c.num ∧ sourceable p = true)
    (hneeds : s.j.reclaims c (pids.filterMap s.j.plate?) ∨ ∀ p ∈ pids.filterMap s.j.plate?, s.j.needsRebase p = true)
    (hflight : s.j.inFlightPlates + (s.j.replacements c (pids.filterMap s.j.plate?)).length ≤ 64)
    (hfree : ceilDiv (s.j.plateBytes c (s.j.replacements c (pids.filterMap s.j.plate?))) 2097152 ≤ s.j.poolFree) :
    ∃ (t : State) (job : Replating), exec (.replatingStart pids) s = .next t ∧
      t.j.cat.replatings = s.j.cat.replatings ++ [job] ∧ job.sources = pids ∧
      job.repl = s.j.replacements c (pids.filterMap s.j.plate?) ∧
      (job.cause = .reclaim ↔ s.j.reclaims c (pids.filterMap s.j.plate?)) ∧ job.ready = false ∧
      job.base = s.j.oldestRider ∧ (∀ pid ∈ pids, (t.j.plate? pid).any (fun p => p.source) = true) ∧ t.mem = s.mem := by
  obtain ⟨cause, hstart, hcause⟩ :=
    replate_starts (mem := s.mem) hlen hmost hcoll hrising hsource hneeds hflight hfree
  obtain ⟨new, heffect⟩ := startReplating_effect s.mem s.j c cause (pids.filterMap s.j.plate?)
    (s.j.replacements c (pids.filterMap s.j.plate?))
  obtain ⟨hplates, hjobs⟩ := Prod.mk.inj heffect
  have hfound := List.filterMap_length_eq_length.mp hlen
  refine ⟨_, newReplating s.j c cause (pids.filterMap s.j.plate?)
      (s.j.replacements c (pids.filterMap s.j.plate?)), exec_replatingStart pids hs, ?_, pids_of_found hfound, rfl, hcause, rfl, rfl, ?_, rfl⟩
  · dsimp only
    rw [hstart, hjobs]
  · intro pid hpid
    obtain ⟨p, hp⟩ := Option.isSome_iff_exists.mp (hfound pid hpid)
    dsimp only
    rw [hstart]
    exact source_marked hp (List.mem_filterMap.mpr ⟨pid, hpid, hp⟩) hplates
end

namespace Jenjor

theorem copyPlates_frame (ps : List Plate) (j : Jenjor) : ps.foldl (fun j p => j.copyPlate p) j =
    { j with vlt := { j.vlt with extents := (ps.foldl (fun j p => j.copyPlate p) j).vlt.extents },
             cat := { j.cat with colls := (ps.foldl (fun j p => j.copyPlate p) j).cat.colls } } := by
  induction ps generalizing j with
  | nil => rfl
  | cons p ps ih =>
    rw [List.foldl_cons, ih, copyPlate_frame]

/-- A replating whose replacements are written. -/
def jobReady (job : Nat) (x : Replating) : Replating :=
  if x.id = job then { x with ready := true, repl := x.repl.map cleaned } else x

/-- The module with a replating's replacements in the vault and the replating ready. -/
def replacementsWritten (j : Jenjor) (job : Nat) (repl : List Plate) : Jenjor :=
  let k := (repl.foldl (fun j p => j.copyPlate p) j).programStripes (repl.length * stripesOf 262144)
  { k with cat := { k.cat with replatings := k.cat.replatings.map (jobReady job) } }

theorem replacementsWritten_frame (j : Jenjor) (job : Nat) (repl : List Plate) :
    let k := j.replacementsWritten job repl
    k = { j with vlt := { j.vlt with extents := k.vlt.extents }, ctrs := k.ctrs,
                 cat := { j.cat with colls := k.cat.colls, replatings := j.cat.replatings.map (jobReady job) } } := by
  dsimp only
  rw [replacementsWritten, programStripes_frame, copyPlates_frame]

theorem jobReady_written {job : Nat} {l : List Replating} : ∀ x ∈ l.map (jobReady job), x.id = job →
    x.ready = true ∧ ∀ p ∈ x.repl, p.dirtyHdr = false ∧ p.dirtyData = false := by
  intro x hx hid
  obtain ⟨y, -, rfl⟩ := List.mem_map.mp hx
  by_cases hy : y.id = job
  · simp [jobReady, hy, cleaned]
  · simp [jobReady, hy] at hid

/-- A switch entered for a collection of a ring that sweeps waits for the ring's next boundary (R222). -/
theorem enterForColl_of_sweeping {j : Jenjor} {n : Nat} {r : Ring} (sw : RingSwitch) (hof : j.ringOf n = some r)
    (hr : j.ring? r.num = some r) (hsweep : sweeping r = true) :
    j.enterForColl n sw = j.mapRing r.num fun r => { r with switches := r.switches ++ [sw] } := by
  unfold enterForColl
  rw [hof]
  dsimp only
  unfold enterSwitch
  rw [hr]
  dsimp only
  rw [if_pos hsweep]

/-! ### Retirement (R227) -/

theorem moveOut_frame (j : Jenjor) (q : VaultHold → Bool) :
    j.moveOut q = { j with vlt := { j.vlt with extents := j.vlt.extents.filter fun e => !q e.what } } := rfl

theorem dropCopies_frame (j : Jenjor) (p : Plate) : j.dropCopies p =
    { j with vlt := { j.vlt with extents := (j.dropCopies p).vlt.extents },
             cat := { j.cat with colls := updWhere (fun c => c.num == p.coll) (headerForgotten p.pid) j.cat.colls } } := by
  rw [dropCopies, freeLogs_frame, moveOut_frame]
  rfl

theorem dropCopies_extents (j : Jenjor) (p : Plate) : ∀ e ∈ (j.dropCopies p).vlt.extents, e.what ≠ .plate p.pid := by
  intro e he
  have hmem := mem_freeLogs he
  simpa using (List.mem_filter.mp hmem).2

/-- The module without a plate: its copies, its journal records, and the plate. -/
def withoutPlate (j : Jenjor) (pid : Nat) (p : Plate) : Jenjor :=
  (((j.dropCopies p).mapJournal (fun e => e.touched.contains pid) (untouched pid)).mapCat fun k =>
    { k with plates := k.plates.filter fun p => p.pid != pid }).freeJournal

/-! ### The drain of a bias buffer (R231, R361) -/

/-- A bias plane whose drained buffer has taken the published values and the hold list, and accumulates again. -/
def refilled (b : BiasPlane) : BiasPlane :=
  { b with other := b.hold.foldl (fun o h => applyPair o h.1 h.2.1 h.2.2) b.published, hold := [], phase := .accumulating,
           dirty := true }

/-- A collection with its bias plane changed. -/
def onBias (f : BiasPlane → BiasPlane) (c : Coll) : Coll := { c with bias := c.bias.map f }

theorem coll?_onBias {j : Jenjor} {n : Nat} {c : Coll} {b : BiasPlane} (f : BiasPlane → BiasPlane) (hc : j.coll? n = some c)
    (hb : c.bias = some b) : (j.mapColl n (onBias f)).coll? n = some { c with bias := some (f b) } := by
  rw [coll?_mapColl (f := onBias f) (fun _ => rfl) hc, onBias, hb]
  rfl

section
variable {j : Jenjor} {n : Nat} {c : Coll} {b : BiasPlane} (hc : j.coll? n = some c) (hb : c.bias = some b)
  (hphase : b.phase = .draining) (hold : j.holdsOldFrame n b.frame = false)
include hc hb hphase hold

theorem drainBias_alone (hpair : j.pairedIn 3 = false) : j.drainBias n = j.mapColl n (onBias refilled) := by
  unfold drainBias
  simp [hc, hb, hphase, hold, hpair]
  rfl

theorem drainBias_both (hdone : b.doneSent = true) (hpeer : b.peerDone = true) :
    j.drainBias n = j.mapColl n (onBias refilled) := by
  unfold drainBias
  simp [hc, hb, hphase, hold, hdone, hpeer]
  rfl

/-- In the mode that pairs frames the module says once that its buffer has drained (R361). -/
theorem drainBias_first (hpair : j.pairedIn 3 = true) (hpeer : b.peerDone = false) :
    (j.drainBias n).coll? n = some { c with bias := some { b with doneSent := true } } := by
  cases hdone : b.doneSent with
  | true =>
    have hkeep : j.drainBias n = j := by
      unfold drainBias
      simp [hc, hb, hphase, hold, hpair, hdone, hpeer]
    have hsame : ({ b with doneSent := true } : BiasPlane) = b := by rw [← hdone]
    rw [hkeep, hc, hsame, ← hb]
  | false =>
    have hsend : j.drainBias n
        = (j.mapColl n (onBias fun b => { b with doneSent := true })).sendCpn 0x0E n (b.frame - 1) 0 [] := by
      unfold drainBias
      simp [hc, hb, hphase, hold, hpair, hdone, hpeer]
      rfl
    rw [hsend, coll?_of_colls (congrArg CatState.colls (sendCpn_cat ..)), coll?_onBias _ hc hb]
end
end Jenjor

section
open Jenjor
variable {s : State}

theorem exec_replatingReady {job : Nat} {rp : Replating} {r : Ring} (hs : s.j.live = true)
    (hfind : (s.j.cat.replatings.find? fun r => r.id == job && !r.ready) = some rp) (hof : s.j.ringOf rp.coll = some r)
    (hr : s.j.ring? r.num = some r) (hsweep : sweeping r = true) :
    exec (.replatingReady job) s = .next { s with j := (s.j.replacementsWritten job rp.repl).mapRing r.num fun r =>
      { r with switches := r.switches ++ [.replate job] } } := by
  have hsw : (s.j.replacementsWritten job rp.repl).sw = s.j.sw := by rw [replacementsWritten_frame]
  have henter := enterForColl_of_sweeping (j := s.j.replacementsWritten job rp.repl) (.replate job)
    (by rw [ringOf, hsw]; exact hof) (by rw [ring?, hsw]; exact hr) hsweep
  refine (onBlocks_of_live (fun j => match j.cat.replatings.find? fun r => r.id == job && !r.ready with
    | none => j
    | some r => (j.replacementsWritten job r.repl).enterForColl r.coll (.replate job)) hs).trans ?_
  rw [hfind]
  dsimp only
  rw [henter]

theorem replatingReady_enters {job : Nat} {rp : Replating} {r : Ring} (hs : s.j.live = true)
    (hfind : (s.j.cat.replatings.find? fun r => r.id == job && !r.ready) = some rp) (hof : s.j.ringOf rp.coll = some r)
    (hr : s.j.ring? r.num = some r) (hsweep : sweeping r = true) :
    ∃ t, exec (.replatingReady job) s = .next t ∧ t.j.ring? r.num = some { r with switches := r.switches ++ [.replate job] } ∧
      (∀ x ∈ t.j.cat.replatings, x.id = job →
        x.ready = true ∧ ∀ p ∈ x.repl, p.dirtyHdr = false ∧ p.dirtyData = false) ∧ t.j.cat.plates = s.j.cat.plates ∧
      t = { s with j := { s.j with
        sw := { s.j.sw with rings := t.j.sw.rings }, vlt := { s.j.vlt with extents := t.j.vlt.extents }, ctrs := t.j.ctrs,
        cat := { s.j.cat with replatings := t.j.cat.replatings, colls := t.j.cat.colls } } } := by
  have hframe := replacementsWritten_frame s.j job rp.repl
  refine ⟨_, exec_replatingReady hs hfind hof hr hsweep, ?_, ?_, ?_, ?_⟩
  · rw [hframe]
    exact (ring?_mapRing_self (f := fun r => { r with switches := r.switches ++ [.replate job] }) fun _ => rfl).trans
      (congrArg (Option.map _) hr)
  · rw [hframe]
    exact jobReady_written
  · rw [hframe]
    rfl
  · rw [hframe]
    rfl

theorem exec_plateRetire {pid : Nat} {p : Plate} (hs : s.j.live = true) (hp : s.j.plate? pid = some p)
    (hret : p.retiring = true) (hheld : s.j.plateHeld pid = false) :
    exec (.plateRetire pid) s = .next { s with j := s.j.withoutPlate pid p } := by
  refine (onBlocks_of_live (fun j =>
    if ((j.plate? pid).any fun p => p.retiring) && !j.plateHeld pid then
      (((((j.plate? pid).map j.dropCopies).getD j).mapJournal (fun e => e.touched.contains pid) (untouched pid)).mapCat
        fun k => { k with plates := k.plates.filter fun p => p.pid != pid }).freeJournal
    else j) hs).trans ?_
  rw [if_pos (by simp [hp, hret, hheld]), hp]
  rfl

theorem plateRetire_frees {pid : Nat} {p : Plate} (hs : s.j.live = true) (hp : s.j.plate? pid = some p)
    (hret : p.retiring = true) (hheld : s.j.plateHeld pid = false) :
    ∃ t, exec (.plateRetire pid) s = .next t ∧ t.j.cat.plates = s.j.cat.plates.filter (fun p => p.pid != pid) ∧
      (∀ e ∈ t.j.wr.journal, pid ∉ e.touched) ∧ (∀ e ∈ t.j.vlt.extents, e.what ≠ .plate pid) ∧
      t = { s with j := { s.j with
        cat := { s.j.cat with plates := t.j.cat.plates, colls := t.j.cat.colls }, wr := t.j.wr, ctrs := t.j.ctrs,
        vlt := { s.j.vlt with extents := t.j.vlt.extents } } } := by
  obtain rfl := pid_of_plate? hp
  refine ⟨_, exec_plateRetire hs hp hret hheld, ?_, ?_, ?_, ?_⟩
  · rw [withoutPlate, freeJournal_cat, dropCopies_frame]
    rfl
  · intro e he
    have hmem := mem_freeJournal he
    rw [dropCopies_frame] at hmem
    exact not_mem_untouched e hmem
  · rw [withoutPlate, freeJournal_frame]
    exact dropCopies_extents s.j p
  · rw [withoutPlate, freeJournal_frame, dropCopies_frame]
    rfl

theorem exec_biasBufferDrained {n : Nat} (hs : s.j.live = true) :
    exec (.biasBufferDrained n) s = .next { s with j := s.j.drainBias n } := onBlocks_of_live (fun j => j.drainBias n) hs
end

/-- Settles O16: each event by the lemma that says what it changes. -/
theorem plateAndBiasUpkeep : Obligations.PlateAndBiasUpkeep := by
  unfold Obligations.PlateAndBiasUpkeep
  refine ⟨fun s pid p => settleVisit_settles, fun s pid p => writeBack_plate_cleans, fun s n c b => writeBack_bias_cleans,
    fun s n c => headerLog_emptied, fun s pids c hs => replatingStart_stages hs, fun s job rp r => replatingReady_enters,
    fun s pid p => plateRetire_frees, ?_⟩
  intro s n c b hs hc hb hphase hold
  refine ⟨?_, fun hpair hpeer => ⟨_, exec_biasBufferDrained hs, Jenjor.drainBias_first hc hb hphase hold hpair hpeer, rfl⟩⟩
  intro hready
  have hrefill : s.j.drainBias n = s.j.mapColl n (Jenjor.onBias Jenjor.refilled) := by
    obtain hpair | ⟨hdone, hpeer⟩ := hready
    · exact Jenjor.drainBias_alone hc hb hphase hold hpair
    · exact Jenjor.drainBias_both hc hb hphase hold hdone hpeer
  refine ⟨_, exec_biasBufferDrained hs, ?_, ?_⟩
  · dsimp only
    rw [hrefill]
    exact Jenjor.coll?_onBias Jenjor.refilled hc hb
  · dsimp only
    rw [hrefill]
    rfl

end Sys2Proof.Machine
end

section
namespace Sys2Proof.Machine

/-! ### Catalogue commands in their turn (R45, R352) -/

namespace Jenjor

theorem repeatCmd_secondary (j : Jenjor) (f : Fetched) (op : List Byte) : (j.repeatCmd f op).secondary = j.secondary := by
  unfold repeatCmd sendCpn
  split
  · split <;> rfl
  · rfl

/-- A catalogue command that this module carries out itself is its body on the rest. -/
theorem catalogueCmd_of_takesCat {s : State} {q code : Nat} {op : List Byte} {f : Fetched} {j : Jenjor}
    (h : s.takesCat q code op f j) (body : Jenjor → Fetched → List Byte → Jenjor) :
    s.j.catalogueCmd q code op body = body j f op := by
  obtain ⟨-, htake, hown⟩ := h
  obtain ⟨⟨g, k⟩, hnext, heq⟩ := Option.map_eq_some_iff.mp htake
  simp only [Prod.mk.injEq] at heq
  obtain ⟨rfl, rfl⟩ := heq
  rw [repeatCmd_secondary] at hown
  have hmine : ¬ (k.secondary && g.ref.q != replicaQueue) = true := by
    rcases hown with h | h <;> simp [h]
  unfold catalogueCmd
  rw [hnext]
  exact if_neg hmine

/-! ### Rings after a change of some ring -/

section
variable {j k : Jenjor} {m n : Nat} {r : Ring}

theorem ring?_of_rings (h : k.sw.rings = j.sw.rings) : k.ring? n = j.ring? n := by rw [ring?, h]; rfl

theorem ring?_mapRing_of_some {f : Ring → Ring} (hf : ∀ r, (f r).num = r.num) (hr : j.ring? n = some r) :
    (j.mapRing n f).ring? n = some (f r) := (ring?_mapRing_self hf).trans (congrArg (Option.map f) hr)

/-- A query that ends gives up its row; its ring's list stands. -/
theorem abortCtx_view (id : Nat) (st : Status) :
    ((j.abortCtx id st).ring? n).map (fun r => r.view) = (j.ring? n).map fun r => r.view := by
  have hdrop : ((j.dropCtx id).ring? n).map (fun r => r.view) = (j.ring? n).map fun r => r.view := by
    rw [ring?, dropCtx, dropStale_sw]
    exact (congrArg (Option.map _) (ring?_mapRings (f := fun r => { r with rows := r.rows.filter fun x => x.ctx != id })
      fun _ => rfl)).trans (by rw [Option.map_map]; rfl)
  unfold abortCtx
  split
  · rfl
  · dsimp only
    split
    · exact hdrop
    · rw [ring?_of_rings (j := j.dropCtx id) (by rw [refuse_sw]), hdrop]

theorem abortAll_view (ids : List Nat) (st : Status) :
    ((j.abortAll ids st).ring? n).map (fun r => r.view) = (j.ring? n).map fun r => r.view :=
  foldl_keeps (φ := fun k : Jenjor => (k.ring? n).map fun r => r.view) _ (fun _ _ => abortCtx_view _ _) ids j

/-- A ring as a RING_STOP that completes at its stop brings it to it. -/
def stopsFor (c : CmdRef) (r : Ring) : Ring := { r with phase := .stopping, stoppers := r.stoppers ++ [c] }

/-- A running ring comes to its stop (R73): at once where it has no plates and no riders. -/
theorem beginStop_of_ring (c : CmdRef) (hr : j.ring? n = some r) : j.beginStop n (some c) =
    let k := (j.mapRing n (stopsFor c)).abortAll (j.waitersOf n) .ringStopped
    if r.view.isEmpty && (k.ridersOf n).isEmpty then (k.stopRing n).reassign else k := by
  have hview := abortAll_view (j := j.mapRing n (stopsFor c)) (n := n) (j.waitersOf n) .ringStopped
  rw [ring?_mapRing_of_some (f := stopsFor c) (fun _ => rfl) hr, Option.map_some, Option.map_eq_some_iff] at hview
  obtain ⟨r', hr', hview⟩ := hview
  rw [show r.view = r'.view from hview.symm]
  unfold beginStop
  dsimp only
  rw [show ((j.mapRing n fun r => { r with phase := .stopping, stoppers := r.stoppers ++ (some c).toList }).abortAll
    ((j.mapRing n fun r => { r with phase := .stopping, stoppers := r.stoppers ++ (some c).toList }).waitersOf n)
    .ringStopped).ring? n = some r' from hr']
  rfl
end

/-! ### RING_DEFINE (R71, R277) -/

theorem info_frame (j : Jenjor) (blk unit cause addr : Nat) : j.info blk unit cause addr =
    { j with log := (j.info blk unit cause addr).log, ctrs := (j.info blk unit cause addr).ctrs } := record_frame ..

/-- A definition installed: the rings whose alternate it no longer suits are recorded. -/
theorem defineRing_of_shape {j : Jenjor} {n : Nat} {d : Desc} {colls : List Nat} {fm : Format} {dim : Nat}
    (hshape : j.shapeOf colls = some (fm, dim)) : defineRing j n d colls =
      { j.mapRing n fun r => { r with defn := some (statedRing d colls fm dim), view := colls.flatMap j.viewOf, marks := [] } with
        log := (defineRing j n d colls).log, ctrs := (defineRing j n d colls).ctrs } := by
  have hkeeps : ∀ (rs : List Ring) (k : Jenjor),
      let l := rs.foldl (fun j r => j.info blkMER r.num 0xFFFF n) k
      l = { k with log := l.log, ctrs := l.ctrs } := by
    intro rs k l
    have hrest : { l with log := k.log, ctrs := k.ctrs } = k :=
      foldl_keeps (φ := fun l : Jenjor => { l with log := k.log, ctrs := k.ctrs }) _ (fun l r => by rw [info_frame]) rs k
    exact (congrArg (fun m : Jenjor => { m with log := l.log, ctrs := l.ctrs }) hrest)
  unfold defineRing
  rw [hshape]
  exact hkeeps _ _

end Jenjor

section
open Jenjor
variable {s : State} {q : Nat} {op : List Byte} {f : Fetched} {j : Jenjor} {r : Ring} {d : RingDef}

theorem exec_ringDefine (h : s.takesCat q 0x48 op f j) :
    exec (.ringDefine q op) s = .next { s with j := ringDefineBody j f op } :=
  (onBlocks_of_live (fun j => j.catalogueCmd q 0x48 op ringDefineBody) h.1).trans (by rw [catalogueCmd_of_takesCat h])

theorem exec_ringEdit (h : s.takesCat q 0x49 op f j) :
    exec (.ringEdit q op) s = .next { s with j := ringEditBody j f op } :=
  (onBlocks_of_live (fun j => j.catalogueCmd q 0x49 op ringEditBody) h.1).trans (by rw [catalogueCmd_of_takesCat h])

theorem exec_ringStart (h : s.takesTurn q 0x4A f j) :
    exec (.ringStart q) s = .next { s with j := ringStartCmd j (dField f.d 0x14 1) (some f.ref) } := by
  change execRingStart q s = _
  unfold execRingStart
  simp only [onBlocks_of_live _ h.1, h.2]

theorem ringDefineBody_passes (heven : op.length % 2 = 0)
    (hok : ringDefBad j (dField f.d 0x14 1) f.d ((halvesOf op).map BitVec.toNat) = none) (hrw : j.readOnlyNow = false) :
    ringDefineBody j f op
      = (defineRing j (dField f.d 0x14 1) f.d ((halvesOf op).map BitVec.toNat)).completeCatalogue f.ref 0 := by
  unfold ringDefineBody
  dsimp only
  rw [if_neg (by omega), hok]
  dsimp only
  rw [hrw, if_neg (by decide)]

theorem ringDefineBody_fails {st : Status}
    (hbad : (if op.length % 2 = 1 then some .ringInvalid
      else ringDefBad j (dField f.d 0x14 1) f.d ((halvesOf op).map BitVec.toNat)) = some st) :
    ringDefineBody j f op = j.refuse f.ref st := by
  unfold ringDefineBody
  dsimp only
  split at hbad
  · next hodd => cases hbad; rw [if_pos hodd]
  · next hodd => rw [if_neg hodd, hbad]

/-! ### RING_EDIT (R88) -/

/-- An operand of whole entries, one to 256 of them (R277). -/
theorem editCount_fits (h8 : op.length % 8 = 0) (hlo : 8 ≤ op.length) (hhi : op.length ≤ 2048) :
    (op.length % 8 != 0 || (editEntries op).isEmpty || decide (256 < (editEntries op).length)) = false := by
  have hlen : (editEntries op).length = op.length / 8 := by simp [editEntries]
  simp [h8, ← List.length_eq_zero_iff, hlen]
  omega

/-- The entries of a RING_EDIT as its ring takes them: whether they append, the collection, MARK. -/
def editsOf (op : List Byte) : List (Bool × Nat × Bool) := (editEntries op).map fun e => (e.2.1 == 0, e.2.2.2, e.1)

theorem ringEditBody_undefined (hundef : ∀ r, j.ring? (dField f.d 0x14 1) = some r → r.defn = none) :
    ringEditBody j f op = j.refuse f.ref .ringInvalid := by
  unfold ringEditBody
  dsimp only
  cases hr : j.ring? (dField f.d 0x14 1) with
  | none => rfl
  | some r => simp only [hundef r hr]

section
variable (hr : j.ring? (dField f.d 0x14 1) = some r) (hd : r.defn = some d) (h8 : op.length % 8 = 0) (hlo : 8 ≤ op.length)
  (hhi : op.length ≤ 2048)
include hr hd h8 hlo hhi

theorem ringEditBody_passes
    (hcheck : firstStatus ((j.readOnlyNow, .readOnly)
      :: editCheck j (dField f.d 0x14 1) d (editEntries op) (pendingColls r)) = none) :
    ringEditBody j f op = (j.enterSwitch (dField f.d 0x14 1) (.edit (editsOf op))).completeCatalogue f.ref 0 := by
  unfold ringEditBody
  simp only [hr, hd, editCount_fits h8 hlo hhi, Bool.false_eq_true, if_false, hcheck]
  rfl

theorem ringEditBody_fails {st : Status}
    (hcheck : firstStatus ((j.readOnlyNow, .readOnly)
      :: editCheck j (dField f.d 0x14 1) d (editEntries op) (pendingColls r)) = some st) :
    ringEditBody j f op = j.refuse f.ref st := by
  unfold ringEditBody
  simp only [hr, hd, editCount_fits h8 hlo hhi, Bool.false_eq_true, if_false, hcheck]
end

theorem enterSwitch_of_sweeping {n : Nat} (sw : RingSwitch) (hr : j.ring? n = some r) (hs : sweeping r = true) :
    j.enterSwitch n sw = j.mapRing n fun r => { r with switches := r.switches ++ [sw] } := by
  unfold enterSwitch
  simp only [hr, if_pos hs]

theorem enterSwitch_of_still {n : Nat} (sw : RingSwitch) (hr : j.ring? n = some r) (hs : sweeping r = false) :
    j.enterSwitch n sw = (j.applySwitch n sw).republish n := by
  unfold enterSwitch
  simp only [hr, hs, Bool.false_eq_true, if_false]

/-! ### RING_START (R73, R246) -/

/-- The slews that a ring's start queues. -/
def Jenjor.promoting (j : Jenjor) (n : Nat) (cs : List Coll) : Jenjor :=
  cs.foldl (fun j c => j.addSlew c.objPlates .sweep 0 (.ringStart n)) j

theorem Jenjor.promoting_effect (n : Nat) (cs : List Coll) (j : Jenjor) : ∃ xs : List Slew,
    j.promoting n cs = { j with cat := { j.cat with slews := j.cat.slews ++ xs, nextId := (j.promoting n cs).cat.nextId } } ∧
    xs.map (fun x => x.obj) = cs.map (fun c => c.objPlates) ∧ ∀ x ∈ xs, x.dest = .sweep ∧ x.started = false := by
  induction cs generalizing j with
  | nil => exact ⟨[], by rw [List.append_nil]; rfl, rfl, by simp⟩
  | cons c cs ih =>
    obtain ⟨xs, hk, hobj, hxs⟩ := ih (j.addSlew c.objPlates .sweep 0 (.ringStart n))
    let x : Slew := { obj := c.objPlates, dest := .sweep, pages := 0, started := false, pendingGranules := [], held := false,
                      cause := .ringStart n, order := j.cat.nextId }
    refine ⟨x :: xs, ?_, by rw [List.map_cons, hobj]; rfl, by simpa [x] using hxs⟩
    rw [show j.cat.slews ++ x :: xs = (j.cat.slews ++ [x]) ++ xs by simp]
    exact hk

/-- The collections of a ring whose plate sets sweep memory lacks, or is to lack (R246). -/
def Jenjor.awayColls (j : Jenjor) (d : RingDef) : List Coll :=
  (d.colls.filterMap j.coll?).filter fun c => !d.deep && (j.plateSetTier c != .sweep || j.leavesSweep c.objPlates)

theorem Jenjor.awayColls_eq (j : Jenjor) (d : RingDef) : j.awayColls d = d.colls.filterMap fun c =>
    (j.coll? c).bind fun c => if !d.deep && (j.plateSetTier c != .sweep || j.leavesSweep c.objPlates) then some c else none := by
  rw [awayColls, List.filter_filterMap]
  refine List.filterMap_congr fun n _ => ?_
  cases j.coll? n with
  | none => rfl
  | some c => rfl

section
variable {n : Nat} {c : CmdRef}

/-- A ring as it waits for clusters under its starter. -/
def waitsUnder (c : CmdRef) (r : Ring) : Ring := { r with phase := .waiting, starter := some c }

theorem ringStartCmd_undefined (hundef : ∀ r, j.ring? n = some r → r.defn = none) :
    ringStartCmd j n (some c) = j.refuse c .ringInvalid := by
  unfold ringStartCmd
  dsimp only
  cases hr : j.ring? n with
  | none => rfl
  | some r => simp only [hundef r hr]; rfl

variable (hr : j.ring? n = some r) (hd : r.defn = some d)
include hr hd

theorem ringStartCmd_running (hphase : r.phase = .running) :
    ringStartCmd j n (some c) = j.complete c .success 0 (BitVec.ofNat 64 r.period) none := by
  simp only [ringStartCmd, hr, hd, hphase, if_true]

theorem ringStartCmd_busy (hphase : r.phase = .waiting ∨ r.phase = .stopping) :
    ringStartCmd j n (some c) = j.refuse c .ringBusy := by
  have hrun : r.phase ≠ .running := by rcases hphase with h | h <;> simp [h]
  simp only [ringStartCmd, hr, hd, if_neg hrun, if_pos hphase]
  rfl

theorem ringStartCmd_keyGone (hphase : r.phase = .stopped) (hkey : j.keyGone = true) :
    ringStartCmd j n (some c) = j.refuse c .keyWithdrawn := by
  simp [ringStartCmd, hr, hd, hphase, hkey, refuse]

theorem ringStartCmd_plateLost (hphase : r.phase = .stopped) (hkey : j.keyGone = false)
    (hlost : (r.view.any fun p => (j.plate? p).any fun p => p.lost) = true) :
    ringStartCmd j n (some c) = j.refuse c .plateLost := by
  simp only [ringStartCmd, hr, hd, hphase, hkey, hlost, reduceCtorEq, or_self, Bool.false_eq_true, if_false, if_true]
  rfl

theorem ringStartCmd_waits (hphase : r.phase = .stopped) (hkey : j.keyGone = false)
    (hlost : (r.view.any fun p => (j.plate? p).any fun p => p.lost) = false) :
    ringStartCmd j n (some c) = ((j.mapRing n (waitsUnder c)).promoting n (j.awayColls d)).reassign := by
  rw [awayColls_eq]
  simp only [ringStartCmd, hr, hd, hphase, hkey, hlost, reduceCtorEq, or_self, Bool.false_eq_true, if_false]
  rfl
end

/-! ### RING_STOP (R73) -/

section
variable (h : s.takesTurn q 0x4B f j)
include h

theorem exec_ringStop_undefined (hundef : ∀ r, j.ring? (dField f.d 0x14 1) = some r → r.defn = none) :
    exec (.ringStop q) s = .next { s with j := j.refuse f.ref .ringInvalid } := by
  change execRingStop q s = _
  unfold execRingStop
  simp only [onBlocks_of_live _ h.1, h.2]
  cases hr : j.ring? (dField f.d 0x14 1) with
  | none => rfl
  | some r => simp only [hundef r hr, Option.isNone_none, if_true]

variable (hr : j.ring? (dField f.d 0x14 1) = some r) (hd : r.defn = some d)
include hr hd

theorem exec_ringStop_stopped (hphase : r.phase = .stopped) :
    exec (.ringStop q) s = .next { s with j := j.complete f.ref .success 0 0 none } := by
  change execRingStop q s = _
  simp only [execRingStop, onBlocks_of_live _ h.1, h.2, hr, hd, hphase, Option.isNone_some, Bool.false_eq_true, if_false]

/-- A ring that gives up waiting for clusters. -/
def givesUp (r : Ring) : Ring := { r with phase := .stopped, starter := none }

theorem exec_ringStop_waiting (hphase : r.phase = .waiting) :
    let k := (r.starter.toList.foldl (fun j c => j.refuse c .ringStopped) j).mapRing (dField f.d 0x14 1) givesUp
    exec (.ringStop q) s = .next
      { s with j := (k.abortAll (k.waitersOf (dField f.d 0x14 1)) .ringStopped).complete f.ref .success 0 0 none } := by
  change execRingStop q s = _
  simp only [execRingStop, onBlocks_of_live _ h.1, h.2, hr, hd, hphase, Option.isNone_some, Bool.false_eq_true, if_false]
  cases r.starter <;> rfl

theorem exec_ringStop_stopping (hphase : r.phase = .stopping) :
    exec (.ringStop q) s = .next
      { s with j := j.mapRing (dField f.d 0x14 1) fun r => { r with stoppers := r.stoppers ++ [f.ref] } } := by
  change execRingStop q s = _
  simp only [execRingStop, onBlocks_of_live _ h.1, h.2, hr, hd, hphase, Option.isNone_some, Bool.false_eq_true, if_false]

theorem exec_ringStop_running (hphase : r.phase = .running) :
    exec (.ringStop q) s = .next { s with j := j.beginStop (dField f.d 0x14 1) (some f.ref) } := by
  change execRingStop q s = _
  simp only [execRingStop, onBlocks_of_live _ h.1, h.2, hr, hd, hphase, Option.isNone_some, Bool.false_eq_true, if_false]
end
end

/-- Settles O4: each command by the lemma for the state that its ring is in. -/
theorem ringCommands : Obligations.RingCommands := by
  unfold Obligations.RingCommands
  refine ⟨?_, ?_, ?_, ?_, ?_, ?_, ?_⟩
  · intro s q op f j fm dim h heven hok hrw hshape
    refine ⟨_, (exec_ringDefine h).trans ?_, Jenjor.defineRing_of_shape hshape⟩
    rw [ringDefineBody_passes heven hok hrw]
  · intro s q op f j st h hbad
    rw [exec_ringDefine h, ringDefineBody_fails hbad]
  · intro s q op f j r d h hr hd h8 hlo hhi
    refine ⟨fun hcheck hs => ?_, fun hcheck hs => ?_, fun st hcheck => ?_⟩
    · rw [exec_ringEdit h, ringEditBody_passes hr hd h8 hlo hhi hcheck, enterSwitch_of_sweeping _ hr hs]
      rfl
    · rw [exec_ringEdit h, ringEditBody_passes hr hd h8 hlo hhi hcheck, enterSwitch_of_still _ hr hs]
      rfl
    · rw [exec_ringEdit h, ringEditBody_fails hr hd h8 hlo hhi hcheck]
  · intro s q f j r d h hr hd hphase hkey hlost
    obtain ⟨xs, hk, hobj, hxs⟩ :=
      Jenjor.promoting_effect (dField f.d 0x14 1) (j.awayColls d) (j.mapRing (dField f.d 0x14 1) (waitsUnder f.ref))
    refine ⟨_, xs, (exec_ringStart h).trans ?_, hk, hobj, hxs⟩
    rw [ringStartCmd_waits hr hd hphase hkey hlost]
  · intro s q f j r d h hr hd
    rw [exec_ringStart h]
    refine ⟨fun hphase => ?_, fun hphase => ?_, fun hphase hkey => ?_, fun hphase hkey hlost => ?_⟩
    · rw [ringStartCmd_running hr hd hphase]
    · rw [ringStartCmd_busy hr hd hphase]
    · rw [ringStartCmd_keyGone hr hd hphase hkey]
    · rw [ringStartCmd_plateLost hr hd hphase hkey hlost]
  · intro s q f j r d h hr hd
    refine ⟨exec_ringStop_stopped h hr hd, exec_ringStop_waiting h hr hd, exec_ringStop_stopping h hr hd, fun hphase => ?_⟩
    rw [exec_ringStop_running h hr hd hphase, Jenjor.beginStop_of_ring _ hr]
    rfl
  · intro s q f j hundef
    refine ⟨fun h => ?_, fun h => exec_ringStop_undefined h hundef, fun op h => ?_⟩
    · rw [exec_ringStart h, ringStartCmd_undefined hundef]
    · rw [exec_ringEdit h, ringEditBody_undefined hundef]

end Sys2Proof.Machine
end

section
namespace Sys2Proof.Machine

/-! ### Dealing plate groups (R85, R86, R92) -/

section
open Jenjor
variable {s : State} {n c g : Nat} {r : Ring} {d : RingDef}

/-- The group that a deal goes to: the least loaded, or the one that asks for a plate group of its alternate ring. -/
def dealDest (j : Jenjor) (n : Nat) (r : Ring) (d : RingDef) : Option (Nat × Nat) → Option (Nat × Nat)
  | none => leastLoaded (dealTargets j r d)
  | some a => if mayServe j a.1 a.2 n then some a else none

/-- A ring's next plate group, as it is dealt. -/
def dealt (j : Jenjor) (n : Nat) (r : Ring) : PlateGroup :=
  { ring := n, pos := r.passPos, pids := takeGroup j r, skip := (takeGroup j r).filter fun p => (j.plate? p).any fun x => x.lost,
    snap := [], ready := false, recheck := [] }

/-- A ring that has dealt `k` more entries of its list. -/
def dealtOn (k : Nat) (r : Ring) : Ring := { r with passPos := r.passPos + k }

variable (hs : s.j.live = true) (hn : n < 64) (hr : s.j.ring? n = some r) (hd : r.defn = some d) (hlist : r.passList ≠ [])
include hs hn hr hd hlist

theorem exec_plateGroupDeal {alt : Option (Nat × Nat)} (hholds : holdsClusters r = true) (hwhole : s.j.isl.whole = false)
    (htake : takeGroup s.j r ≠ []) (hwin : inWindow s.j r d = true) (hdest : dealDest s.j n r d alt = some (c, g)) :
    exec (.plateGroupDeal n alt) s = .next { s with j :=
      (s.j.mapGroup c g (enqueue alt.isSome (dealt s.j n r))).mapRing n (dealtOn (takeGroup s.j r).length) } := by
  have hbegun : ¬ (r.passList.isEmpty && !r.view.isEmpty && holdsClusters r) = true := by simp [hlist]
  have hdeal : (!holdsClusters r || (takeGroup s.j r).isEmpty || !inWindow s.j r d || s.j.isl.whole) = false := by
    simp [hholds, hwhole, htake, hwin]
  refine (onUnit_onBlocks hs _ (decide_eq_true hn)).trans ?_
  simp only [hr, if_neg hbegun, hd, hdeal]
  cases alt with
  | none =>
    rw [dealDest] at hdest
    simp only [hdest, Bool.false_eq_true, if_false]
    rfl
  | some a =>
    have hserve : mayServe s.j a.1 a.2 n = true ∧ a = (c, g) := by simpa [dealDest] using hdest
    obtain ⟨hserve, rfl⟩ := hserve
    simp only [hserve, if_true, Bool.false_eq_true, if_false]
    rfl

/-- A ring with nothing to deal deals nothing. -/
theorem exec_plateGroupDeal_none (htake : takeGroup s.j r = []) : exec (.plateGroupDeal n none) s = .next s := by
  have hbegun : ¬ (r.passList.isEmpty && !r.view.isEmpty && holdsClusters r) = true := by simp [hlist]
  refine (onUnit_onBlocks hs _ (decide_eq_true hn)).trans ?_
  simp only [hr, if_neg hbegun, hd, htake, List.isEmpty_nil, Bool.or_true, Bool.true_or, if_true]
  cases leastLoaded (dealTargets s.j r d) <;> rfl
end

/-! ### Fills and re-reads (R297, R298) -/

section
open Jenjor

/-- What the checks of a plate found in order. -/
def checksGood (k : FillCheck) : Prop := k.hdrOk = true ∧ k.dataOk = true ∧ k.corrected = [] ∧ k.uncorr = []

theorem checksGood_allGood : checksGood allGood := ⟨rfl, rfl, rfl, rfl⟩

theorem fillPlate_of_good (c g : Nat) (riders : List Ctx) (j : Jenjor) (p : Plate) {k : FillCheck} (hk : checksGood k) :
    fillPlate c g riders j p k = j := by
  obtain ⟨hhdr, hdata, hcorr, hunc⟩ := hk
  simp [fillPlate, hhdr, hdata, hcorr, hunc, countCorrected]

theorem getD_good {checks : List FillCheck} (h : ∀ k ∈ checks, checksGood k) (i : Nat) : checksGood (checks.getD i allGood) := by
  rw [List.getD_eq_getElem?_getD]
  cases hi : checks[i]? with
  | none => exact checksGood_allGood
  | some k => exact h k (List.mem_of_getElem? hi)

/-- A group whose fill is ready but for what awaits a re-read. -/
def fillChecked (x : Group) : Group := { x with fill := x.fill.map fun pg => { pg with ready := pg.recheck.isEmpty } }

/-- A group whose fill has the re-read of a plate: the plate is in, or set aside. -/
def fillReread (pid : Nat) (ok : Bool) (x : Group) : Group := { x with fill := x.fill.map fun pg =>
  { pg with recheck := pg.recheck.erase pid, ready := (pg.recheck.erase pid).isEmpty,
            skip := if ok then pg.skip else pid :: pg.skip } }

variable {s : State} {c g pid : Nat} {pg : PlateGroup} (hs : s.j.live = true) (hc : c < 18)
  (hfill : ((s.j.group? c g).bind fun x => x.fill) = some pg)
include hs hc hfill

theorem exec_plateFillComplete_good {checks : List FillCheck} (hready : pg.ready = false) (hre : pg.recheck = [])
    (hgood : ∀ k ∈ checks, checksGood k) :
    exec (.plateFillComplete c g checks) s = .next { s with j := s.j.mapGroup c g fillChecked } := by
  have hplates : ∀ (xs : List (Plate × Nat)) (riders : List Ctx),
      xs.foldl (fun j x => fillPlate c g riders j x.1 (checks.getD x.2 allGood)) s.j = s.j := fun xs riders =>
    List.foldl_fixed' (fun x => fillPlate_of_good c g riders s.j x.1 (getD_good hgood x.2)) xs
  refine (onUnit_onBlocks hs _ (decide_eq_true hc)).trans ?_
  simp only [hfill, hready, hre, List.isEmpty_nil, Bool.not_true, Bool.or_self, Bool.false_eq_true, if_false, hplates]
  rfl

variable (hpid : pid ∈ pg.recheck)
include hpid

theorem exec_plateRecheckComplete_lost : exec (.plateRecheckComplete c g pid false ⟨[], []⟩) s
    = .next { s with j := (s.j.mapGroup c g (fillReread pid false)).plateLoss pid } := by
  refine (onUnit_onBlocks hs _ (decide_eq_true hc)).trans ?_
  simp only [hfill, List.contains_iff_mem.mpr hpid, Bool.not_true, Bool.false_eq_true, if_false, Bool.false_and, Bool.not_false,
    if_true, countCorrected, List.foldl_nil, ite_self]
  rfl

theorem exec_plateRecheckComplete_vault (hpool : (s.j.plate? pid).any s.j.inSweepMemory = false) :
    exec (.plateRecheckComplete c g pid true ⟨[], []⟩) s = .next { s with j := s.j.mapGroup c g (fillReread pid true) } := by
  refine (onUnit_onBlocks hs _ (decide_eq_true hc)).trans ?_
  simp only [hfill, List.contains_iff_mem.mpr hpid, hpool, Bool.not_true, Bool.not_false, Bool.false_eq_true, if_false, if_true,
    Bool.true_or, Bool.and_self]
  rfl

/-- A plate of sweep memory that a re-read takes back in is counted and recorded (R298). -/
theorem exec_plateRecheckComplete_sweep (hpool : (s.j.plate? pid).any s.j.inSweepMemory = true) :
    exec (.plateRecheckComplete c g pid true ⟨[], []⟩) s = .next { s with j :=
      (((s.j.mapGroup c g (fillReread pid true)).count blkMEM 0x10).record 1 blkMEM 0 0x10 0 0 (BitVec.ofNat 256 pid)) } := by
  refine (onUnit_onBlocks hs _ (decide_eq_true hc)).trans ?_
  simp only [hfill, List.contains_iff_mem.mpr hpid, hpool, Bool.not_true, Bool.false_eq_true, if_false, if_true,
    countCorrected, List.foldl_nil, List.isEmpty_nil, Bool.or_true, Bool.and_self]
  rw [fault_eq_record (h := .inl (by decide))]
  rfl
end

/-- Settles O6: the deal goes to the group that its destination names; good checks change no plate, and a re-read takes the
plate in or loses it. -/
theorem plateGroupsDealtAndFilled : Obligations.PlateGroupsDealtAndFilled := by
  unfold Obligations.PlateGroupsDealtAndFilled
  refine ⟨?_, ?_, ?_, ?_⟩
  · intro s n c g alt r d hs hn hr hd hlist hholds hwhole htake hwin hdest
    refine exec_plateGroupDeal hs hn hr hd hlist hholds hwhole htake hwin ?_
    cases alt with
    | none => exact hdest
    | some a =>
      obtain ⟨rfl, hserve⟩ := hdest
      exact if_pos hserve
  · intro s n r d hs hn hr hd hlist htake
    exact exec_plateGroupDeal_none hs hn hr hd hlist htake
  · intro s c g checks pg hs hc hfill hready hre hgood
    exact exec_plateFillComplete_good hs hc hfill hready hre hgood
  · intro s c g pid pg hs hc hfill hpid
    refine ⟨fun hpool => ?_, exec_plateRecheckComplete_vault hs hc hfill hpid, exec_plateRecheckComplete_lost hs hc hfill hpid⟩
    refine ⟨_, exec_plateRecheckComplete_sweep hs hc hfill hpid hpool, ?_, ?_, ?_, ?_⟩
    · dsimp only
      rw [Jenjor.record_sw, Jenjor.count_sw]
      rfl
    · refine (congrArg Ctr.count (Jenjor.counter_record _ _ _ _ _ _ _ _ 0x80010 (by decide))).trans ?_
      exact congrArg Ctr.count (Jenjor.counter_bump _ 0x80010 1 0x80010)
    · exact Jenjor.record_head ..
    · dsimp only
      rw [Jenjor.record_frame]
      rfl

end Sys2Proof.Machine
end

section
namespace Sys2Proof.Machine
namespace Jenjor

/-! ### What a completion leaves alone of the counters and the Logbook (R278, R427) -/

/-- A counter, and the error summary. -/
def tally (a : Nat) (j : Jenjor) : Ctr × BitVec 3 := (j.counter a, j.log.errClass)

theorem tally_ite {a : Nat} {p : Prop} [Decidable p] {x y j : Jenjor} (hx : x.tally a = j.tally a) (hy : y.tally a = j.tally a) :
    (if p then x else y).tally a = j.tally a := by
  split
  · exact hx
  · exact hy

section
variable {a : Nat} (ha : a ≠ 0xF0018)
include ha

theorem record_tally (j : Jenjor) (cls blk unit cause addr : Nat) (st : BitVec 8) (d : BitVec 256) :
    (j.record cls blk unit cause addr st d).tally a = j.tally a := by
  rw [tally, counter_record _ _ _ _ _ _ _ _ _ ha, record_log]
  rfl

theorem sendVector_tally (j : Jenjor) (v : Nat) : (j.sendVector v).tally a = j.tally a := by
  unfold sendVector
  dsimp only
  split
  · exact record_tally ha ..
  · split
    · rfl
    · split
      · exact record_tally ha ..
      · rfl

theorem countInterrupt_tally (j : Jenjor) (q : Queue) : (j.countInterrupt q).tally a = j.tally a := by
  unfold countInterrupt
  dsimp only
  split
  · exact sendVector_tally ha ..
  · rfl

omit ha in
theorem sendCpn_tally (j : Jenjor) (ty x y z : Nat) (data : List Byte) : (j.sendCpn ty x y z data).tally a = j.tally a := by
  unfold sendCpn
  split <;> rfl

variable (hkey : a ≠ 0xC0800)
include hkey

/-- A completion counts in LOG_LOST, and in DOM_KEY_REFUSED where a key is withdrawn (R384). -/
theorem writeCompletion_tally (j : Jenjor) (r : CmdRef) (st : Status) (v0 v1 : BitVec 64) (len : Option Nat) :
    (j.writeCompletion r st v0 v1 len).tally a = j.tally a := by
  have hcount : (if st = .keyWithdrawn then j.count blkDOM 0x800 else j).tally a = j.tally a := by
    split
    · exact congrArg (Prod.mk · _) (counter_bump_ne _ _ _ _ hkey)
    · rfl
  unfold writeCompletion
  dsimp only
  rw [← hcount]
  generalize (if st = .keyWithdrawn then j.count blkDOM 0x800 else j) = k
  cases r.tag with
  | some t => exact sendCpn_tally ..
  | none =>
    cases k.queue? r.q with
    | none => rfl
    | some q =>
      refine tally_ite (record_tally ha ..) (tally_ite ((record_tally ha ..).trans (record_tally ha ..)) (tally_ite rfl (tally_ite rfl ?_)))
      exact countInterrupt_tally ha ..

theorem reapQueues_tally (fuel : Nat) (j : Jenjor) : (reapQueues fuel j).tally a = j.tally a := by
  have hfold : ∀ (ws : List CmdRef) (j : Jenjor),
      (ws.foldl (fun j w => j.writeCompletion w .success 0 0 none) j).tally a = j.tally a := fun ws j =>
    foldl_keeps (φ := tally a) _ (fun j w => writeCompletion_tally ha hkey j w ..) ws j
  induction fuel generalizing j with
  | zero => rfl
  | succ fuel ih =>
    unfold reapQueues
    split
    · rfl
    · dsimp only
      rw [ih, hfold]
      split <;> exact hfold _ j

theorem complete_tally (j : Jenjor) (r : CmdRef) (st : Status) (v0 v1 : BitVec 64) (len : Option Nat) :
    (j.complete r st v0 v1 len).tally a = j.tally a := by
  have hsettle : ∀ k : Jenjor, k.settleAdmin.tally a = k.tally a := fun k => by unfold settleAdmin; split <;> rfl
  exact (hsettle _).trans ((reapQueues_tally ha hkey ..).trans (writeCompletion_tally ha hkey ..))

theorem abortCtx_tally (j : Jenjor) (id : Nat) (st : Status) : (j.abortCtx id st).tally a = j.tally a := by
  unfold abortCtx
  split
  · rfl
  · dsimp only
    split
    · rfl
    · exact (complete_tally ha hkey ..).trans rfl

theorem abortAll_tally (j : Jenjor) (ids : List Nat) (st : Status) : (j.abortAll ids st).tally a = j.tally a :=
  foldl_keeps (φ := tally a) _ (fun j id => abortCtx_tally ha hkey j id st) ids j
end
end Jenjor
end Sys2Proof.Machine
end





section
namespace Sys2Proof.Machine

/-! ### Stage-2 checks (R270) -/

/-- Of two statuses the one of lower code, as `firstStatus` picks it. -/
def lowerStatus (acc : Option Status) (st : Status) : Option Status :=
  match acc with
  | none => some st
  | some s => if st.code.toNat < s.code.toNat then some st else acc

/-- No status applies only where none had applied and no check fails. -/
theorem firstStatus_none_iff (l : List (Bool × Status)) : firstStatus l = none ↔ ∀ c ∈ l, c.1 = false := by
  have hlower : ∀ acc st, lowerStatus acc st ≠ none := fun acc st => by
    cases acc with
    | none => exact nofun
    | some s => simp only [lowerStatus]; split <;> exact nofun
  have hfold : ∀ (l : List (Bool × Status)) acc,
      l.foldl (fun acc c => if c.1 then lowerStatus acc c.2 else acc) acc = none ↔ acc = none ∧ ∀ c ∈ l, c.1 = false := by
    intro l
    induction l with
    | nil => simp
    | cons c l ih =>
      intro acc
      cases hc : c.1 <;> simp [ih, hc, hlower]
  exact (hfold l none).trans (by simp)

/-! ### Contexts and rows (R19, R81) -/

namespace Jenjor
variable {j : Jenjor}

theorem ctx?_mapCtx {f : Ctx → Ctx} (hf : ∀ x, (f x).id = x.id) (i k : Nat) :
    (j.mapCtx i f).ctx? k = (j.ctx? k).map fun x => if x.id == i then f x else x :=
  find?_updWhere_of _ _ f (fun x => by rw [hf x]) j.sw.ctxs

theorem ctx?_mapCtx_ne {f : Ctx → Ctx} (hf : ∀ x, (f x).id = x.id) {i k : Nat} (hk : k ≠ i) : (j.mapCtx i f).ctx? k = j.ctx? k := by
  rw [ctx?_mapCtx hf]
  cases hx : j.ctx? k with
  | none => rfl
  | some x => simp [id_of_ctx? hx, hk]

theorem ctx?_mapCtx_self {f : Ctx → Ctx} (hf : ∀ x, (f x).id = x.id) {i : Nat} {x : Ctx} (hx : j.ctx? i = some x) :
    (j.mapCtx i f).ctx? i = some (f x) := by
  rw [ctx?_mapCtx hf, hx]
  simp [id_of_ctx? hx]

/-- A query that loads its row into a slot. -/
def slotted (slot : Nat) (x : Ctx) : Ctx := { x with phase := .loading, row := some slot }

theorem ctx?_slotted (n : Nat) (f : Ring → Ring) (i slot k : Nat) :
    ((j.mapRing n f).mapCtx i (slotted slot)).ctx? k = (j.ctx? k).map fun x => if x.id == i then slotted slot x else x :=
  ctx?_mapCtx (f := slotted slot) (fun _ => rfl) i k

end Jenjor

/-- Loading rows touches the ring's rows and the contexts alone. -/
theorem fillRows_frame (n fuel : Nat) (j : Jenjor) :
    fillRows n fuel j =
      { j with sw := { j.sw with rings := (fillRows n fuel j).sw.rings, ctxs := (fillRows n fuel j).sw.ctxs } } := by
  induction fuel generalizing j with
  | zero => rfl
  | succ fuel ih =>
    unfold fillRows
    split
    · rfl
    · dsimp only
      split
      · split
        · rw [ih]; rfl
        · rfl
      · rfl

/-- A query that waits for a row still waits, or loads its row (R81). -/
theorem ctx?_fillRows {id : Nat} {x : Ctx} (n fuel : Nat) {j : Jenjor} (hx : j.ctx? id = some x)
    (hp : x.phase = .waiting ∨ x.phase = .loading) :
    ∃ p r, (p = .waiting ∨ p = .loading) ∧ (fillRows n fuel j).ctx? id = some { x with phase := p, row := r } := by
  have hkept : ∃ p r, (p = CtxPhase.waiting ∨ p = .loading) ∧ j.ctx? id = some { x with phase := p, row := r } :=
    ⟨x.phase, x.row, hp, hx⟩
  induction fuel generalizing j x with
  | zero => exact hkept
  | succ fuel ih =>
    unfold fillRows
    split
    · exact hkept
    · dsimp only
      split
      next r _ s c _ _ =>
        split
        · have hload := fun f => (Jenjor.ctx?_slotted n f c.id s id).trans (congrArg _ hx)
          by_cases hc : (x.id == c.id) = true
          · simp only [Option.map_some, if_pos hc] at hload
            exact ih (x := Jenjor.slotted s x) (hload _) (.inr rfl) ⟨_, _, .inr rfl, hload _⟩
          · simp only [Option.map_some, if_neg hc] at hload
            exact ih (hload _) hp ⟨_, _, hp, hload _⟩
        · exact hkept
      · exact hkept

/-! ### ROW_LOAD_COMPLETE (R81) -/

/-- A context whose row is loaded. -/
def rowLoaded (c : Ctx) : Ctx := if c.phase == .loading || c.phase == .reloading then { c with phase := .loaded } else c

theorem exec_rowLoadComplete {s : State} (hs : s.j.live = true) (id : Nat) :
    exec (.rowLoadComplete id) s = .next { s with j := s.j.mapCtx id rowLoaded } := by
  change execRowLoadComplete id s = _
  unfold execRowLoadComplete
  exact onBlocks_of_live _ hs

theorem rowLoaded_id (c : Ctx) : (rowLoaded c).id = c.id := by
  unfold rowLoaded
  split <;> rfl

theorem rowLoaded_of_loading {x : Ctx} (h : x.phase = .loading ∨ x.phase = .reloading) : rowLoaded x = { x with phase := .loaded } :=
  if_pos (by simpa using h)

end Sys2Proof.Machine
end
section
namespace Sys2Proof.Machine

/-! ### QUERY_VECTOR (R81, R105, R270, R271, R359) -/

/-- A command taken at queue `q` carries the opcode it was taken for. -/
theorem opcode_of_takeFetched {j k : Jenjor} {q op : Nat} {f : Fetched} (h : j.takeFetched q op = some (f, k)) :
    dField f.d 0 1 = op := by
  unfold Jenjor.takeFetched at h
  split at h
  · contradiction
  · split at h
    next hop => cases h; exact hop
    · contradiction

theorem takeFetched_of_takeData {j k : Jenjor} {q op : Nat} {f : Fetched} (h : j.takeData q op = some (f, k)) :
    j.takeFetched q op = some (f, k) := by
  unfold Jenjor.takeData at h
  split at h
  · contradiction
  next g l hg =>
    split at h
    · contradiction
    · cases h; exact hg

/-- A command that takes a vector has no tokens. -/
theorem qTokens_of_queryVector {s : State} {q : Nat} {f : Fetched} {j : Jenjor} (h : s.takesData q 0x10 f j) :
    qTokens f.d = false := by
  simp [qTokens, opcode_of_takeFetched (takeFetched_of_takeData h.2)]

/-- The operands that a vector query brings are refused: a query token vector or its rerank vector (R140). -/
def extrasBad (c : Coll) (d : Desc) (op : List Byte) : Bool :=
  let p := partsOf c d
  (vectorsAt op p.tok (dField d 0x3A 1) c.dim).any (rerankVecBad (c.metric == .cosine))
    || rerankVecBad (c.metric == .cosine) (wordsOf (bytesAt op p.rr p.rrLen)) && !(wordsOf (bytesAt op p.rr p.rrLen)).isEmpty

/-- What a vector converts to (R105 to R110). -/
def vectorOperand (c : Coll) (d : Desc) (op : List Byte) : Option Operand :=
  if c.format = .b1 then some operandB1
  else convert c (widen (dField d 0x3B 1) (bytesAt op (partsOf c d).vec (partsOf c d).vecLen))

section
variable {s : State} {q : Nat} {op : List Byte} {f : Fetched} {j : Jenjor} (h : s.takesData q 0x10 f j)
include h

theorem exec_queryVector_refused {st : Status} (hst : firstStatus (queryChecks j f.d op) = some st) :
    exec (.queryVector q op) s = .next { s with j := refuseQuery j f op st } := by
  change execQueryVector q op s = _
  unfold execQueryVector
  simp only [onBlocks_of_live _ h.1, h.2, hst]

theorem exec_queryVector_checked {c : Coll} (hck : firstStatus (queryChecks j f.d op) = none)
    (hlive : j.liveColl? (dField f.d 4 2) = some c) :
    exec (.queryVector q op) s = .next { s with j := enterVector (newCtx j f op).2 j.sw.arrivals c f.d op } := by
  change execQueryVector q op s = _
  unfold execQueryVector
  simp only [onBlocks_of_live _ h.1, h.2, hck, hlive]
  rfl

end

/-- Of the checks that QUERY_VECTOR passes, those that its entry rests on: the format agrees, and the ring is running. -/
theorem checked_vector {j : Jenjor} {d : Desc} {op : List Byte} {c : Coll} (hck : firstStatus (queryChecks j d op) = none)
    (hlive : j.liveColl? (dField d 4 2) = some c) (hvec : qTokens d = false) :
    (dField d 0x3B 1 = 4 ↔ c.format = .b1) ∧ ∃ r, j.ringOf c.num = some r ∧ r.phase = .running := by
  have hall := (firstStatus_none_iff _).1 hck
  unfold queryChecks at hall
  simp only [hlive, List.forall_mem_cons, hvec, Bool.not_false, Bool.true_and] at hall
  obtain ⟨_, _, _, hformat, _, _, hring, _⟩ := hall
  refine ⟨by simpa [Bool.beq_eq_decide_eq] using hformat, ?_⟩
  cases hr : j.ringOf c.num with
  | none => simp [hr] at hring
  | some r => exact ⟨r, rfl, by simpa [hr] using hring⟩

/-- A context as a vector query enters it (R19, R359). -/
structure EntersWith (j : Jenjor) (f : Fetched) (op : List Byte) (c : Coll) (x : Ctx) : Prop where
  id : x.id = j.sw.arrivals
  ref : x.ref = f.ref
  d : x.d = f.d
  coll : x.coll = c.num
  extras : (x.qtok.any (rerankVecBad (c.metric == .cosine))
    || rerankVecBad (c.metric == .cosine) x.rvec && !x.rvec.isEmpty) = extrasBad c f.d op
  pinned : x.pinned = j.pairedIn 3
  own : x.xtag.any (fun t => !t.2) = false

theorem sendCpn_frame (j : Jenjor) (ty a b c : Nat) (data : List Byte) :
    ∃ cpn out, j.sendCpn ty a b c data = { j with cpn := cpn, out := out } := by
  unfold Jenjor.sendCpn
  split
  · exact ⟨_, _, rfl⟩
  · exact ⟨j.cpn, j.out, rfl⟩

/-- A new context stands behind those in use; the companion hears of it in cross-check mode alone. -/
theorem newCtx_entered {j : Jenjor} {f : Fetched} {op : List Byte} {c : Coll} (hc : j.coll? (dField f.d 4 2) = some c)
    (hvec : qTokens f.d = false) :
    ∃ x, EntersWith j f op c x ∧
      ∃ cpn out, (newCtx j f op).2
          = { j with sw := { j.sw with ctxs := j.sw.ctxs ++ [x], arrivals := j.sw.arrivals + 1 }, cpn := cpn, out := out } ∧
        (j.pairedIn 3 = false → cpn = j.cpn ∧ out = j.out) := by
  have hmade : ∀ (xtag : Option (Nat × Bool)) (epoch frame : Nat), xtag.isSome = j.pairedIn 3 → xtag.any (fun t => !t.2) = false →
      ∃ x, EntersWith j f op c x ∧ (makeCtx j f op xtag epoch frame).2
        = { j with sw := { j.sw with ctxs := j.sw.ctxs ++ [x], arrivals := j.sw.arrivals + 1 } } := fun xtag epoch frame hpin hown =>
    ⟨_, ⟨rfl, rfl, rfl, (Jenjor.num_of_coll? hc).symm, by simp [hc, hvec, extrasBad], hpin, hown⟩, rfl⟩
  unfold newCtx
  cases hpin : j.pairedIn 3 with
  | false =>
    obtain ⟨x, hx, hmk⟩ := hmade none j.wr.epoch _ hpin.symm rfl
    exact ⟨x, hx, j.cpn, j.out, hmk, fun _ => ⟨rfl, rfl⟩⟩
  | true =>
    obtain ⟨x, hx, hmk⟩ := hmade (some (j.sw.arrivals, true)) j.wr.epoch _ hpin.symm rfl
    obtain ⟨cpn, out, hsent⟩ := sendCpn_frame (makeCtx j f op (some (j.sw.arrivals, true)) j.wr.epoch _).2 0x09 j.sw.arrivals
      j.wr.epoch _ (leBytes 64 f.d.toNat ++ op)
    exact ⟨x, hx, cpn, out, hsent.trans (by rw [hmk]), nofun⟩

/-- A vector enters conversion as its bits or as its widened words. -/
def vectorIn (d : Desc) (bytes : List Byte) : List F32 × List Byte :=
  if dField d 0x3B 1 = 4 then ([], bytes) else (widen (dField d 0x3B 1) bytes, [])

theorem enterVector_eq (j : Jenjor) (id : Nat) (c : Coll) (d : Desc) (op : List Byte) :
    enterVector j id c d op = enterConversion j id (vectorIn d (bytesAt op (partsOf c d).vec (partsOf c d).vecLen)).1
      (vectorIn d (bytesAt op (partsOf c d).vec (partsOf c d).vecLen)).2 := by
  unfold enterVector vectorIn
  split <;> rfl

/-- What conversion makes of a context's vector; operands that R140 refuses refuse it. -/
def converted (c : Coll) (x : Ctx) (vec : List F32) : Option Operand :=
  if (x.qtok.any (rerankVecBad (c.metric == .cosine)) || rerankVecBad (c.metric == .cosine) x.rvec && !x.rvec.isEmpty)
  then none else if c.format = .b1 then some operandB1 else convert c vec

/-- A context as conversion leaves it, waiting for a row of its ring. -/
def waitsFor (c : Coll) (r : Ring) (o : Operand) (vec : List F32) (bits : List Byte) (x : Ctx) : Ctx :=
  { setOperand x o c.gridGen with q32 := vec, qbits := bits, phase := .waiting, ring := r.num,
                                  stretched := x.stretched || r.stretched }

section
variable {j : Jenjor} {id : Nat} {x : Ctx} {c : Coll} {vec : List F32} {bits : List Byte} (hx : j.ctx? id = some x)
  (hc : j.coll? x.coll = some c)
include hx hc

theorem enterConversion_refused (hconv : converted c x vec = none) :
    enterConversion j id vec bits = (j.count blkTRN 0x2010).abortCtx id .vectorInvalid := by
  unfold converted at hconv
  unfold enterConversion
  simp only [hx, hc, hconv]

theorem enterConversion_converted {o : Operand} {r : Ring} (hconv : converted c x vec = some o) (hof : j.ringOf c.num = some r)
    (hrun : r.phase = .running) :
    ∃ ctrs, enterConversion j id vec bits = ({ j with ctrs := ctrs }.mapCtx id (waitsFor c r o vec bits)).loadRows r.num := by
  unfold converted at hconv
  unfold enterConversion
  obtain ⟨ctrs, hclamped⟩ : ∃ ctrs, (if o.clamped = 0 then j else j.bump (blkBase blkTRN + 0x2008) o.clamped) = { j with ctrs := ctrs } := by
    split
    · exact ⟨j.ctrs, rfl⟩
    · exact ⟨_, rfl⟩
  refine ⟨ctrs, ?_⟩
  simp only [hx, hc, hconv, hclamped, show ({ j with ctrs := ctrs } : Jenjor).ringOf c.num = some r from hof, hrun]
  rfl

end

end Sys2Proof.Machine
end
section
namespace Sys2Proof.Machine

section
variable {s : State} {q : Nat} {op : List Byte} {f : Fetched} {j : Jenjor} {c : Coll} (h : s.takesData q 0x10 f j)
  (hck : firstStatus (queryChecks j f.d op) = none) (hlive : j.liveColl? (dField f.d 4 2) = some c)
  (hcoll : j.coll? (dField f.d 4 2) = some c) (hfresh : ∀ y ∈ j.sw.ctxs, y.id ≠ j.sw.arrivals)
include h hck hlive hcoll hfresh

/-- A vector query that passes its checks is in conversion, in a context of its own, with its ring running. -/
theorem queryVector_converts : ∃ (x : Ctx) (vec : List F32) (bits : List Byte) (r : Ring) (cpn : CpnState) (out : List Output),
    EntersWith j f op c x ∧ r.phase = .running ∧ j.ringOf c.num = some r ∧
    converted c x vec = (if extrasBad c f.d op then none else vectorOperand c f.d op) ∧
    (j.pairedIn 3 = false → cpn = j.cpn ∧ out = j.out) ∧
    ∃ k : Jenjor, k = { j with sw := { j.sw with ctxs := j.sw.ctxs ++ [x], arrivals := j.sw.arrivals + 1 }, cpn := cpn, out := out } ∧
      k.ctx? j.sw.arrivals = some x ∧ k.coll? x.coll = some c ∧
      exec (.queryVector q op) s = .next { s with j := enterConversion k j.sw.arrivals vec bits } := by
  have hvec := qTokens_of_queryVector h
  obtain ⟨hformat, r, hof, hrun⟩ := checked_vector hck hlive hvec
  obtain ⟨x, hx, cpn, out, hnew, hown⟩ := newCtx_entered (op := op) hcoll hvec
  refine ⟨x, _, _, r, cpn, out, hx, hrun, hof, ?_, hown, _, rfl, ?_, ?_,
    (exec_queryVector_checked h hck hlive).trans (by rw [hnew, enterVector_eq])⟩
  · unfold converted vectorOperand vectorIn
    rw [hx.extras]
    by_cases hb1 : c.format = .b1
    · simp only [if_pos hb1]
    · simp only [if_neg hb1, if_neg (mt hformat.1 hb1)]
  · have hnone : j.sw.ctxs.find? (fun y => y.id == j.sw.arrivals) = none := by simpa using hfresh
    simp [Jenjor.ctx?, List.find?_append, hnone, hx.id]
  · rw [hx.coll, Jenjor.num_of_coll? hcoll]
    exact hcoll

theorem queryVector_enters {o : Operand} (hbad : extrasBad c f.d op = false) (hconv : vectorOperand c f.d op = some o) :
    ∃ (t : State) (x : Ctx), exec (.queryVector q op) s = .next t ∧ t.j.ctx? j.sw.arrivals = some x ∧ x.ref = f.ref ∧ x.d = f.d ∧
      x.coll = c.num ∧ (x.phase = .waiting ∨ x.phase = .loading) ∧ x.words = o.words ∧ x.floats = o.floats ∧
      x.gridGen = c.gridGen ∧ x.pinned = j.pairedIn 3 ∧ t.j.sw.arrivals = j.sw.arrivals + 1 ∧
      (j.pairedIn 3 = false → t.j.cpn = j.cpn ∧ t.j.out = j.out) ∧
      t = { s with j := { j with sw := t.j.sw, ctrs := t.j.ctrs, cpn := t.j.cpn, out := t.j.out } } := by
  obtain ⟨x, vec, bits, r, cpn, out, hx, hrun, hof, heq, hown, k, hk, hctx, hc, hexec⟩ :=
    queryVector_converts h hck hlive hcoll hfresh
  rw [if_neg (by simp [hbad]), hconv] at heq
  obtain ⟨ctrs, hent⟩ := enterConversion_converted (bits := bits) hctx hc heq (by rw [hk]; exact hof) hrun
  have hwait := Jenjor.ctx?_mapCtx_self (j := { k with ctrs := ctrs }) (f := waitsFor c r o vec bits) (fun _ => rfl) hctx
  obtain ⟨p, row, hp, hrow⟩ := ctx?_fillRows r.num 256 hwait (.inl rfl)
  have hframe := fillRows_frame r.num 256 ({ k with ctrs := ctrs }.mapCtx j.sw.arrivals (waitsFor c r o vec bits))
  rw [hent] at hexec
  refine ⟨_, _, hexec, hrow, hx.ref, hx.d, hx.coll, hp, rfl, rfl, rfl, hx.pinned, ?_⟩
  unfold Jenjor.loadRows
  rw [hframe, hk]
  exact ⟨rfl, hown, rfl⟩

theorem queryVector_refused (hbad : extrasBad c f.d op = true ∨ vectorOperand c f.d op = none) :
    ∃ t, exec (.queryVector q op) s = .next t ∧ t.j.sw.ctxs = j.sw.ctxs ∧ t.mem = s.mem ∧ t.rmem = s.rmem ∧
      (t.j.counter (blkBase blkTRN + 0x2010)).count = (j.counter (blkBase blkTRN + 0x2010)).count + 1 := by
  obtain ⟨x, vec, bits, r, cpn, out, hx, -, -, heq, -, k, hk, hctx, hc, hexec⟩ :=
    queryVector_converts h hck hlive hcoll hfresh
  have hnone : converted c x vec = none := by
    rw [heq]
    split
    · rfl
    next hb => exact hbad.resolve_left hb
  rw [enterConversion_refused hctx hc hnone] at hexec
  refine ⟨_, hexec, ?_, rfl, rfl, ?_⟩
  · have hdrop : ((k.count blkTRN 0x2010).dropCtx j.sw.arrivals).sw.ctxs = k.sw.ctxs.filter fun y => y.id != j.sw.arrivals := by
      rw [Jenjor.dropCtx, Jenjor.dropStale_sw]
      rfl
    rw [Jenjor.abortCtx_of_own (j := k.count blkTRN 0x2010) hctx hx.own, Jenjor.refuse_sw, hdrop, hk]
    simpa [hx.id] using hfresh
  · have htally := congrArg Prod.fst (Jenjor.abortCtx_tally (a := blkBase blkTRN + 0x2010) (by decide) (by decide)
      (k.count blkTRN 0x2010) j.sw.arrivals .vectorInvalid)
    refine (congrArg Ctr.count htally).trans ((congrArg Ctr.count (Jenjor.counter_bump _ _ _ _)).trans ?_)
    rw [if_pos rfl, hk]
    rfl

end

/-- Settles O5: a vector query's context is followed through conversion and the loading of rows. -/
theorem vectorQueries : Obligations.VectorQueries := by
  refine ⟨fun s q op f j st h hst => exec_queryVector_refused h hst,
    fun s q op f j c h hck hlive hcoll hfresh => ⟨fun o hbad hconv => queryVector_enters h hck hlive hcoll hfresh hbad hconv,
      fun hbad => queryVector_refused h hck hlive hcoll hfresh hbad⟩, fun s id x hs hx hp => ?_⟩
  refine ⟨_, exec_rowLoadComplete hs id, ?_, fun k hk => Jenjor.ctx?_mapCtx_ne rowLoaded_id hk, rfl⟩
  rw [← rowLoaded_of_loading hp]
  exact Jenjor.ctx?_mapCtx_self rowLoaded_id hx

end Sys2Proof.Machine
end

section
namespace Sys2Proof.Machine

/-! ### What a ring boundary leaves alone (R73, R89)

A boundary and the reassignment of clusters behind it keep the plates, the Almanac and the counters of the Meridian block
as long as no switch is pending; and a ring once stopped stays stopped, since only a ring that waits or holds clusters is
given any. -/

/-- The counters of the Meridian block. -/
def inMer (a : Nat) : Prop := 0x20000 ≤ a ∧ a < 0x30000

/-- A ring with no pending switch, stopped where it is to be idle. -/
structure RingCalm (idle : Nat → Prop) (x : Ring) : Prop where
  unswitched : x.switches = []
  stopped : idle x.num → x.phase = .stopped

/-- A state that stands as `b` did, with the rings `idle` stopped. -/
structure Calm (b : Jenjor) (idle : Nat → Prop) (k : Jenjor) : Prop where
  plates : k.cat.plates = b.cat.plates
  alm : k.alm = b.alm
  counts : ∀ a, inMer a → k.counter a = b.counter a
  nums : k.sw.rings.map (fun x => x.num) = b.sw.rings.map fun x => x.num
  rings : ∀ x ∈ k.sw.rings, RingCalm idle x

namespace Calm
open Jenjor
variable {b k : Jenjor} {idle : Nat → Prop} {n : Nat} {r : Ring} (h : Calm b idle k)

theorem refl (hb : ∀ x ∈ b.sw.rings, RingCalm idle x) : Calm b idle b := ⟨rfl, rfl, fun _ _ => rfl, rfl, hb⟩

theorem foldl {α : Type} {f : Jenjor → α → Jenjor} (hf : ∀ k x, Calm b idle k → Calm b idle (f k x)) (l : List α)
    (h : Calm b idle k) : Calm b idle (l.foldl f k) := by
  induction l generalizing k with
  | nil => exact h
  | cons x l ih => exact ih (hf k x h)

theorem ite {p : Prop} [Decidable p] {l m : Jenjor} (hl : Calm b idle l) (hm : Calm b idle m) :
    Calm b idle (if p then l else m) := by
  split
  · exact hl
  · exact hm

include h

theorem mono {idle' : Nat → Prop} (hle : ∀ m, idle' m → idle m) : Calm b idle' k :=
  { h with rings := fun x hx => ⟨(h.rings x hx).unswitched, fun hi => (h.rings x hx).stopped (hle _ hi)⟩ }

/-- A ring that is not stopped is none of those to be idle. -/
theorem busy (hr : k.ring? n = some r) (hp : r.phase ≠ .stopped) : ¬ idle n := fun hi =>
  hp ((h.rings r (List.mem_of_find?_eq_some hr)).stopped (by rwa [num_of_ring? hr]))

theorem frame {l : Jenjor} (hplates : l.cat.plates = k.cat.plates := by rfl) (halm : l.alm = k.alm := by rfl)
    (hcounts : ∀ a, inMer a → l.counter a = k.counter a := by exact fun _ _ => rfl)
    (hrings : l.sw.rings = k.sw.rings := by rfl) : Calm b idle l where
  plates := hplates.trans h.plates
  alm := halm.trans h.alm
  counts a ha := (hcounts a ha).trans (h.counts a ha)
  nums := by rw [hrings, h.nums]
  rings := by rw [hrings]; exact h.rings

/-- The blocks above Meridian count for themselves. -/
theorem bump {a : Nat} (ha : 0x30000 ≤ a) (m : Nat) : Calm b idle (k.bump a m) :=
  h.frame (hcounts := fun i hi => counter_bump_ne _ _ _ _ (by unfold inMer at hi; omega))

theorem mapCtx (i : Nat) (f : Ctx → Ctx) : Calm b idle (k.mapCtx i f) := h.frame

/-! #### The rings -/

theorem mapRings {idle' : Nat → Prop} {f : Ring → Ring}
    (hf : ∀ x, RingCalm idle x → (f x).num = x.num ∧ RingCalm idle' (f x)) : Calm b idle' (k.mapRings f) where
  plates := h.plates
  alm := h.alm
  counts := h.counts
  nums := by
    refine Eq.trans ?_ h.nums
    change (k.sw.rings.map f).map _ = _
    rw [List.map_map]
    exact List.map_congr_left fun x hx => (hf x (h.rings x hx)).1
  rings x hx := by
    obtain ⟨y, hy, rfl⟩ := List.mem_map.1 hx
    exact (hf y (h.rings y hy)).2

theorem mapRing {f : Ring → Ring} (hf : ∀ x, x.num = n → RingCalm idle x → (f x).num = x.num ∧ RingCalm idle (f x)) :
    Calm b idle (k.mapRing n f) :=
  h.mapRings (f := fun x => if x.num == n then f x else x) fun x hx => by
    split
    next hn => exact hf x (by simpa using hn) hx
    · exact ⟨rfl, hx⟩

/-- A ring that stops is idle from there. -/
theorem stops {f : Ring → Ring} (hf : ∀ x, (f x).num = x.num ∧ (f x).switches = x.switches ∧ (f x).phase = .stopped) :
    Calm b (fun m => m = n ∨ idle m) (k.mapRing n f) :=
  h.mapRings (f := fun x => if x.num == n then f x else x) fun x hx => by
    obtain ⟨hnum, hsw, hphase⟩ := hf x
    split
    · exact ⟨hnum, hsw.trans hx.unswitched, fun _ => hphase⟩
    next hn => exact ⟨rfl, hx.unswitched, fun hi => hx.stopped (hi.resolve_left (by simpa using hn))⟩

/-- A ring that changes and keeps its number, its switches and its phase. -/
theorem keepRing {f : Ring → Ring} (hnum : ∀ x, (f x).num = x.num := by exact fun _ => rfl)
    (hsw : ∀ x, (f x).switches = x.switches := by exact fun _ => rfl)
    (hphase : ∀ x, (f x).phase = x.phase := by exact fun _ => rfl) : Calm b idle (k.mapRing n f) :=
  h.mapRing fun x _ hx => ⟨hnum x, (hsw x).trans hx.unswitched, fun hi => (hphase x).trans (hx.stopped (hnum x ▸ hi))⟩

theorem keepRings {f : Ring → Ring} (hnum : ∀ x, (f x).num = x.num := by exact fun _ => rfl)
    (hsw : ∀ x, (f x).switches = x.switches := by exact fun _ => rfl)
    (hphase : ∀ x, (f x).phase = x.phase := by exact fun _ => rfl) : Calm b idle (k.mapRings f) :=
  h.mapRings fun x hx => ⟨hnum x, (hsw x).trans hx.unswitched, fun hi => (hphase x).trans (hx.stopped (hnum x ▸ hi))⟩

/-! #### Completions (R278) -/

theorem complete (c : CmdRef) (st : Status) (v0 v1 : BitVec 64) (len : Option Nat) : Calm b idle (k.complete c st v0 v1 len) :=
  h.frame (by rw [complete_cat]) (by rw [complete_alm])
    (fun a ha => congrArg Prod.fst (complete_tally (a := a) (by unfold inMer at ha; omega) (by unfold inMer at ha; omega) k c st v0 v1 len))
    (by rw [complete_sw])

theorem dropCtx (id : Nat) : Calm b idle (k.dropCtx id) := by
  refine (h.keepRings (f := fun r => { r with rows := r.rows.filter fun x => x.ctx != id })).frame ?_ ?_ ?_ ?_
  · rw [dropCtx_cat]; rfl
  · rw [dropCtx_alm]; rfl
  · intro a _; exact counter_of_ctrs (by rw [dropCtx_ctrs]; rfl) a
  · rw [Jenjor.dropCtx, dropStale_sw]; rfl

theorem abortCtx (id : Nat) (st : Status) : Calm b idle (k.abortCtx id st) := by
  unfold Jenjor.abortCtx
  cases k.ctx? id with
  | none => exact h
  | some x => exact ite (h.dropCtx id) ((h.dropCtx id).complete ..)

theorem abortAll (ids : List Nat) (st : Status) : Calm b idle (k.abortAll ids st) :=
  foldl (fun _ id h => h.abortCtx id st) ids h

/-! #### Clusters, grants and stretches (R75, R95 to R97) -/

theorem applySwitches (n : Nat) : Calm b idle (k.applySwitches n) := by
  unfold Jenjor.applySwitches
  cases hr : k.ring? n with
  | none => exact h
  | some r =>
    dsimp only
    rw [(h.rings r (List.mem_of_find?_eq_some hr)).unswitched]
    exact h.mapRing fun x _ hx => ⟨rfl, rfl, hx.stopped⟩

theorem gateRetired : Calm b idle k.gateRetired :=
  foldl (fun _ _ h => h.frame) _ h

theorem placeBias (n : Nat) : Calm b idle (k.placeBias n) := by
  unfold Jenjor.placeBias
  split
  · exact h
  · exact ite h h.frame

theorem republish (n : Nat) : Calm b idle (k.republish n) := by
  refine h.keepRing ?_ ?_ ?_ <;> intro x <;> cases x.defn <;> dsimp only <;> split <;> rfl

theorem stretchTo (n p : Nat) : Calm b idle (k.stretchTo n p) :=
  (h.keepRing (f := fun r => { r with stretched := true, covered := false, derated := p })).frame

theorem stretchCheck (n : Nat) : Calm b idle (k.stretchCheck n) := by
  unfold Jenjor.stretchCheck
  split
  · exact h
  · split
    · exact h
    · exact ite h (h.stretchTo n _)

theorem stretchAll : Calm b idle k.stretchAll :=
  foldl (fun _ n h => h.stretchCheck n) _ h

theorem setGrant (n g : Nat) : Calm b idle (k.setGrant n g) := by
  have hset := (h.keepRing (n := n) (f := fun r => { r with grant := g, grantNext := none })).republish n
  unfold Jenjor.setGrant
  dsimp only
  split
  · exact hset
  · split
    · exact hset
    · exact ite (hset.stretchTo n _) (ite hset.keepRing hset)

theorem regrant : Calm b idle k.regrant :=
  foldl (fun k x h => by
    dsimp only
    split
    · exact h
    · exact ite (h.setGrant _ _) h) _ h

end Calm
end Sys2Proof.Machine
end

section
namespace Sys2Proof.Machine
namespace Calm
open Jenjor
variable {b k : Jenjor} {idle : Nat → Prop} {n : Nat} {r : Ring} (h : Calm b idle k)
include h

theorem moveClusters (n : Nat) : Calm b idle (k.moveClusters n) := by
  unfold Jenjor.moveClusters
  split
  · exact h
  next r _ =>
    split
    · exact h
    · have hleft := (foldl (f := unhome) (fun _ _ h => h.frame) r.leaving h).gateRetired
      exact (foldl (fun _ _ h => h.frame) r.joining hleft).keepRing

theorem announce (n : Nat) : Calm b idle (k.announce n) := by
  unfold Jenjor.announce
  split
  · exact h
  · exact ite h (h.keepRing.republish n)

theorem boundaryGrant (n : Nat) : Calm b idle (k.boundaryGrant n) := by
  unfold Jenjor.boundaryGrant
  split
  · exact h
  next r _ =>
    refine ite h ?_
    cases r.grantNext with
    | none => exact ite (h.keepRing.republish n) (h.setGrant n _)
    | some g =>
      have hfall := (h.setGrant n g).regrant
      exact ite (hfall.keepRing.republish n) (hfall.setGrant n _)

theorem boundaryStretch (n : Nat) : Calm b idle (Machine.boundaryStretch k n) := by
  unfold Machine.boundaryStretch
  split
  · exact h
  · split
    · exact h
    · exact (ite (h.stretchCheck n) (ite h.keepRing h.keepRing)).keepRing

theorem beginPass (n : Nat) : Calm b idle (k.beginPass n) := h.keepRing

theorem dropGroups (n : Nat) : Calm b idle (k.dropGroups n) := h.frame

/-! #### Stopping, waiting and starting (R73 to R75) -/

/-- The ring that stops is idle from here (R73). -/
theorem stopRing_idle (n : Nat) : Calm b (fun m => m = n ∨ idle m) (k.stopRing n) := by
  unfold Jenjor.stopRing
  cases hr : k.ring? n with
  | none =>
    refine { h with rings := fun x hx => ⟨(h.rings x hx).unswitched, fun hi => (h.rings x hx).stopped (hi.resolve_left ?_)⟩ }
    simpa using List.find?_eq_none.1 hr x hx
  | some r =>
    have hleft := ((foldl (f := unhome) (fun _ _ h => h.frame) (r.clusters ++ r.joining) h).dropGroups n).gateRetired
    refine foldl (fun _ _ h => h.complete ..) _ (regrant (hleft.stops ?_))
    exact fun _ => ⟨rfl, rfl, rfl⟩

theorem stopRing (n : Nat) : Calm b idle (k.stopRing n) := (h.stopRing_idle n).mono fun _ => .inr

/-- A ring left with no cluster waits again, or stops (R75). -/
theorem ringToWaiting (hbusy : ¬ idle n) : Calm b idle (k.ringToWaiting n) := by
  have habort := ((h.abortAll (k.ridersOf n) .internalError).abortAll
    ((k.abortAll (k.ridersOf n) .internalError).waitersOf n) .ringStopped).applySwitches n
  unfold Jenjor.ringToWaiting
  refine ite (habort.stopRing n) (regrant (mapRing (habort.dropGroups n) ?_))
  exact fun x hn hx => ⟨rfl, hx.unswitched, fun hi => absurd (hn ▸ hi) hbusy⟩

theorem settleEmpty (n : Nat) : Calm b idle (k.settleEmpty n) := by
  unfold Jenjor.settleEmpty
  split
  · exact h
  next r hr =>
    split
    · exact h
    next hholds =>
      have hbusy : ¬ idle n := h.busy hr fun hp => by simp [holdsClusters, hp] at hholds
      have hmoved := ((h.applySwitches n).announce n).moveClusters n
      have hgrant (g : Nat) := ite (p := (r.defn.any fun d => d.deep) = true) (hmoved.setGrant n g).regrant hmoved
      exact ite ((hgrant _).ringToWaiting hbusy) ((hgrant _).republish n)

theorem giveClusters (r : Ring) (cs : List Nat) : Calm b idle (k.giveClusters r cs) :=
  ite h.keepRing ((h.keepRing.moveClusters _).republish _)

end Calm

/-- A ring as it starts on its clusters, with the plate-group size `m` (R73). -/
def startsOn (d : RingDef) (cs : List Nat) (m : Nat) (x : Ring) : Ring :=
  { x with phase := .running, clusters := cs, leaving := [], joining := [], pgSize := m, passed := false, stretched := false,
           derated := 0, covered := true, grant := 0, grantNext := none, period := Jenjor.publishedPeriod x d cs.length }

namespace Calm
open Jenjor
variable {b k : Jenjor} {idle : Nat → Prop} {n : Nat} (h : Calm b idle k)
include h

theorem startRing (cs : List Nat) (hbusy : ¬ idle n) : Calm b idle (k.startRing n cs) := by
  unfold Jenjor.startRing
  split
  · exact h
  next r _ =>
    split
    · exact h
    next d _ =>
      have hplaced := foldl (f := Jenjor.placeBias) (fun _ n h => h.placeBias n) d.colls
        (foldl (f := fun j c => j.homeCluster c n d.format) (fun _ _ h => h.frame) cs h)
      dsimp only
      generalize d.colls.foldl Jenjor.placeBias (cs.foldl (fun j c => j.homeCluster c n d.format) k) = l at hplaced ⊢
      have hruns := hplaced.mapRing (n := n) (f := startsOn d cs (l.ringM d)) fun x hn hx =>
        ⟨rfl, hx.unswitched, fun hi => absurd (hn ▸ hi) hbusy⟩
      have hgrant := ite (p := d.deep = true) hruns.regrant hruns
      split
      · refine beginPass ?_ n
        exact ite (hgrant.setGrant n 0) hgrant
      · refine complete (keepRing (beginPass ?_ n)) ..
        exact ite (hgrant.setGrant n 0) hgrant

/-- Clusters are handed to rings that wait or hold some: an idle ring gets none (R74). -/
theorem reassign : Calm b idle k.reassign := by
  unfold Jenjor.reassign
  refine foldl (fun k x h => ?_) _ (foldl (fun _ _ h => h.settleEmpty _) _ h)
  dsimp only
  split
  · exact h
  next r hr =>
    split
    · exact h
    · split
      next hwants =>
        have hbusy : ¬ idle x.num := h.busy hr fun hp => by simp [wantsClusters, hp] at hwants
        rw [num_of_ring? hr]
        exact ite (h.startRing _ hbusy) h
      · exact ite (h.giveClusters ..) h

end Calm
end Sys2Proof.Machine
end

section
namespace Sys2Proof.Machine
namespace Calm
open Jenjor
variable {b k : Jenjor} {idle : Nat → Prop} {n : Nat} (h : Calm b idle k)
include h

/-! #### Ceilings and reloads behind a boundary (R409) -/

theorem setClock (i f : Nat) : Calm b idle (k.setClock i f) := by
  have hclamp := h.bump (a := blkBase blkISL + (i * 0x20 + 8)) (Nat.le_add_right_of_le (by decide)) 1
  unfold Jenjor.setClock
  refine ite h.frame ?_
  dsimp only
  split
  · exact hclamp
  · exact hclamp.frame

theorem setCeil (i c : Nat) : Calm b idle (k.setCeil i c) := by
  have hceil : Calm b idle (k.mapIsland i fun x => { x with ceil := c, ceilNext := none }) := h.frame
  exact ite hceil (ite (hceil.setClock ..) hceil)

theorem dueCeilings (n : Nat) : Calm b idle (k.dueCeilings n) :=
  ite h (foldl (fun _ _ h => h.setCeil ..) _ h).stretchAll

theorem afterBoundary (hdue : ∀ x ∈ b.alm.reloads, x.persisted = false) (n : Nat) : Calm b idle (k.afterBoundary n) := by
  have hnone : k.alm.reloads.filter (fun r => r.persisted) = [] := by
    rw [h.alm]
    simpa using hdue
  unfold Jenjor.afterBoundary
  rw [hnone]
  exact h.dueCeilings n

/-! #### The rows at a boundary (R83, R89) -/

theorem finishAll (n : Nat) : Calm b idle (Machine.finishAll k n) :=
  foldl (fun k x h => by
    split
    · exact h
    · exact ite h.frame h) _ h

theorem freeRows (c g : Nat) : Calm b idle (k.freeRows c g) := h.keepRings

theorem carryOver (len : Nat) (drop : Bool) : Calm b idle (Machine.carryOver k n len drop) := h.frame

theorem alightEnded : Calm b idle k.alightEnded :=
  (foldl (fun _ _ h => h.frame) _ h).keepRings

/-! #### Boarding (R22, R82, R111) -/

theorem reconvert (x : Ctx) (c : Coll) : Calm b idle (k.reconvert x c) := by
  have hcount (off : Nat) := h.bump (a := blkBase blkTRN + off) (Nat.le_add_right_of_le (by decide)) 1
  unfold Jenjor.reconvert
  split
  · exact (hcount 0x2010).abortCtx ..
  · exact mapCtx (ite (hcount 0x2018) ((hcount 0x2018).bump (Nat.le_add_right_of_le (by decide)) _)) ..

theorem boardOne (r : Ring) (x : Ctx) : Calm b idle (k.boardOne r x) := by
  unfold Jenjor.boardOne
  split
  · exact h.abortCtx ..
  · exact ite (h.reconvert ..) (ite h h.frame)

theorem board (n : Nat) : Calm b idle (k.board n) := by
  unfold Jenjor.board
  split
  · exact h
  · exact ite h (foldl (fun _ _ h => h.boardOne ..) _ h)

theorem fillRows (n fuel : Nat) : Calm b idle (Machine.fillRows n fuel k) := by
  induction fuel generalizing k with
  | zero => exact h
  | succ fuel ih =>
    unfold Machine.fillRows
    split
    · exact h
    · dsimp only
      split
      · split
        · exact ih (mapCtx (keepRing h) ..)
        · exact h
      · exact h

theorem loadRows (n : Nat) : Calm b idle (k.loadRows n) := h.fillRows n 256

/-- An idle ring that is there is stopped. -/
theorem stopped (hi : idle n) (hb : n ∈ b.sw.rings.map fun x => x.num) :
    (k.ring? n).map (fun r => r.phase) = some .stopped := by
  obtain ⟨r, hr⟩ : ∃ r, k.ring? n = some r := by
    rw [← h.nums] at hb
    exact Option.isSome_iff_exists.1 (by simpa [ring?] using hb)
  rw [hr]
  exact congrArg some ((h.rings r (List.mem_of_find?_eq_some hr)).stopped (by rwa [num_of_ring? hr]))

end Calm

/-! ### A ring boundary (R73, R89) -/

section
open Jenjor
variable {j : Jenjor} {n : Nat} {r : Ring}

/-- A ring boundary frees the rows there and counts the pass (R83, R89). -/
def Jenjor.passCounted (j : Jenjor) (n : Nat) : Jenjor :=
  ((rowGroups j n).foldl (fun j x => j.freeRows x.1 x.2) (finishAll j n)).bump (blkBase blkMER + 0x1020 + n * 0x40) 1

/-- A ring that goes on behind its boundary: pending switches apply, clusters and grants change, the next pass begins and
queries board (R75, R87, R89, R96, R97). -/
def Jenjor.nextPass (j : Jenjor) (n : Nat) (r : Ring) (marked : Bool) : Jenjor :=
  let j := ((carryOver j n r.passList.length marked).applySwitches n).moveClusters n
  let j := ((j.mapRing n fun r => { r with passed := true }).announce n).boundaryGrant n
  let j := boundaryStretch (j.republish n) n
  let ahead := if marked then 0 else r.passPos - r.passList.length
  let j := ((j.beginPass n).mapRing n fun r => { r with passPos := ahead }).alightEnded
  let j := if (j.ring? n).any bereft then j.ringToWaiting n else j
  ((j.board n).loadRows n).reassign

theorem Jenjor.boundary_eq (hr : j.ring? n = some r) :
    j.boundary n = if r.phase = .stopping && ((j.passCounted n).ridersOf n).isEmpty
      then (((j.passCounted n).applySwitches n).stopRing n).reassign
      else (j.passCounted n).nextPass n r (boundaryMarked (j.passCounted n) r) := by
  unfold Jenjor.boundary
  rw [hr]
  rfl

theorem Calm.nextPass {b k : Jenjor} {idle : Nat → Prop} (h : Calm b idle k) (hbusy : ¬ idle n) (r : Ring) (marked : Bool) :
    Calm b idle (k.nextPass n r marked) := by
  have hmoved := ((h.carryOver (n := n) r.passList.length marked).applySwitches n).moveClusters n
  have hgrant := ((hmoved.keepRing (n := n) (f := fun r => { r with passed := true })).announce n).boundaryGrant n
  have hbegun := (((hgrant.republish n).boundaryStretch n).beginPass n).keepRing (n := n)
    (f := fun x => { x with passPos := if marked then 0 else r.passPos - r.passList.length })
  refine Calm.reassign (Calm.loadRows (Calm.board ?_ n) n)
  exact Calm.ite (hbegun.alightEnded.ringToWaiting hbusy) hbegun.alightEnded

/-! #### Counting the pass -/

/-- Riders stay through the counting of the pass. -/
theorem Jenjor.passCounted_ctxs (j : Jenjor) (n : Nat) : (j.passCounted n).sw.ctxs = j.sw.ctxs := by
  have hfinish : (finishAll j n).sw.ctxs = j.sw.ctxs := by
    refine foldl_keeps (φ := fun k : Jenjor => k.sw.ctxs) _ (fun k x => ?_) _ j
    split
    · rfl
    · split <;> rfl
  refine Eq.trans ?_ hfinish
  exact foldl_keeps (φ := fun k : Jenjor => k.sw.ctxs) (fun j x => j.freeRows x.1 x.2) (fun _ _ => rfl) (rowGroups j n) _

/-- The state that a boundary goes on from: as before it but for the counter of the passes. -/
structure Counted (n : Nat) (j k : Jenjor) : Prop where
  calm : Calm k (fun _ => False) k
  plates : k.cat.plates = j.cat.plates
  alm : k.alm = j.alm
  nums : k.sw.rings.map (fun x => x.num) = j.sw.rings.map fun x => x.num
  passes : (k.counter (0x21020 + n * 0x40)).count = (j.counter (0x21020 + n * 0x40)).count + 1

theorem Jenjor.passCounted_counted (hn : n < 64) (hcalm : ∀ x ∈ j.sw.rings, x.switches = []) : Counted n j (j.passCounted n) := by
  have hstart : Calm j (fun _ => False) j := Calm.refl fun x hx => ⟨hcalm x hx, False.elim⟩
  have hfreed := Calm.foldl (f := fun j x => j.freeRows x.1 x.2) (fun _ x h => h.freeRows x.1 x.2) (rowGroups j n) (hstart.finishAll n)
  refine ⟨Calm.refl hfreed.rings, hfreed.plates, hfreed.alm, hfreed.nums, ?_⟩
  refine (congrArg Ctr.count (counter_bump ..)).trans ?_
  rw [if_pos (by rfl)]
  exact congrArg (fun c => c.count + 1) (hfreed.counts (0x21020 + n * 0x40) (by unfold inMer; omega))

end

section
open Jenjor
variable {s : State} {n : Nat} {r : Ring} (hs : s.j.live = true) (hn : n < 64) (hr : s.j.ring? n = some r)
include hs hn hr

theorem exec_ringBoundary :
    exec (.ringBoundary n) s = .next { s with j :=
      (if stopSettles s.j r then
        if ((s.j.stopRing n).reassign).sw.rings.any sweeping then (s.j.stopRing n).reassign
        else (s.j.stopRing n).reassign.afterBoundary n
      else if holdsClusters r && !r.passList.isEmpty && passFinished s.j r then (s.j.boundary n).afterBoundary n
      else s.j) } := by
  refine (onUnit_onBlocks hs _ (decide_eq_true hn)).trans ?_
  simp only [hr]

/-- A ring that is not at its boundary passes none. -/
theorem exec_ringBoundary_away (hno : holdsClusters r = false ∨ r.passList = [] ∨ passFinished s.j r = false)
    (hsettle : stopSettles s.j r = false) : exec (.ringBoundary n) s = .next s := by
  have hat : ¬ (holdsClusters r && !r.passList.isEmpty && passFinished s.j r) = true := by
    rcases hno with h | h | h <;> simp [h]
  rw [exec_ringBoundary hs hn hr, if_neg (by simp [hsettle]), if_neg hat]

theorem exec_ringBoundary_settles (hsettle : stopSettles s.j r = true) :
    exec (.ringBoundary n) s = .next { s with j :=
      (if ((s.j.stopRing n).reassign).sw.rings.any sweeping then (s.j.stopRing n).reassign
      else (s.j.stopRing n).reassign.afterBoundary n) } := by
  rw [exec_ringBoundary hs hn hr, if_pos hsettle]

theorem exec_ringBoundary_at (hlisted : r.passList ≠ []) (hfinished : passFinished s.j r = true)
    (hholds : holdsClusters r = true) (hsettle : stopSettles s.j r = false) :
    exec (.ringBoundary n) s = .next { s with j := (s.j.boundary n).afterBoundary n } := by
  rw [exec_ringBoundary hs hn hr, if_neg (by simp [hsettle]), if_pos (by simp [hlisted, hfinished, hholds])]

variable (hdue : ∀ x ∈ s.j.alm.reloads, x.persisted = false) (hcalm : ∀ x ∈ s.j.sw.rings, x.switches = [])
include hdue hcalm

omit hs in
/-- A stopping ring that passes a boundary with no rider left stops there (R73). -/
theorem Jenjor.boundary_stops (hstop : r.phase = .stopping) (hnone : s.j.ridersOf n = []) :
    Calm (s.j.passCounted n) (fun m => m = n ∨ False) ((s.j.boundary n).afterBoundary n) := by
  have hcounted := passCounted_counted hn hcalm
  have hriders : (s.j.passCounted n).ridersOf n = [] := by rw [← hnone, ridersOf, passCounted_ctxs, ridersOf]
  rw [boundary_eq hr, if_pos (by simp [hstop, hriders])]
  exact ((hcounted.calm.applySwitches n).stopRing_idle n).reassign.afterBoundary (hcounted.alm ▸ hdue) n

/-- A stopping ring at its boundary, or with an empty list, stops once no rider is left (R73). -/
theorem ringBoundary_stops (hstop : r.phase = .stopping) (hnone : s.j.ridersOf n = [])
    (hat : r.view = [] ∨ r.passList ≠ [] ∧ passFinished s.j r = true) :
    ∃ t, exec (.ringBoundary n) s = .next t ∧ ((t.j.ring? n).map fun r => r.phase) = some .stopped ∧
      t.mem = s.mem ∧ t.rmem = s.rmem ∧ t.j.cat.plates = s.j.cat.plates := by
  have hthere : n ∈ s.j.sw.rings.map fun x => x.num :=
    List.mem_map.2 ⟨r, List.mem_of_find?_eq_some hr, num_of_ring? hr⟩
  cases hsettle : stopSettles s.j r with
  | true =>
    have hstart : Calm s.j (fun _ => False) s.j := Calm.refl fun x hx => ⟨hcalm x hx, False.elim⟩
    have hstopped := (hstart.stopRing_idle n).reassign
    have hall := Calm.ite (p := ((s.j.stopRing n).reassign.sw.rings.any sweeping) = true) hstopped (hstopped.afterBoundary hdue n)
    exact ⟨_, exec_ringBoundary_settles hs hn hr hsettle, hall.stopped (.inl rfl) hthere, rfl, rfl, hall.plates⟩
  | false =>
    obtain ⟨hlisted, hfinished⟩ := hat.resolve_left fun hview => by
      simp [stopSettles, hstop, hview, num_of_ring? hr, hnone] at hsettle
    have hcounted := passCounted_counted hn hcalm
    have hall := boundary_stops hn hr hdue hcalm hstop hnone
    exact ⟨_, exec_ringBoundary_at hs hn hr hlisted hfinished (by simp [holdsClusters, hstop]) hsettle,
      hall.stopped (.inl rfl) (hcounted.nums ▸ hthere), rfl, rfl, hall.plates.trans hcounted.plates⟩

omit hs in
theorem Jenjor.boundary_goes_on (hrun : r.phase = .running) :
    Calm (s.j.passCounted n) (fun _ => False) ((s.j.boundary n).afterBoundary n) := by
  have hcounted := passCounted_counted hn hcalm
  rw [boundary_eq hr, if_neg (by simp [hrun])]
  exact (hcounted.calm.nextPass id r _).afterBoundary (hcounted.alm ▸ hdue) n

/-- A running ring at its boundary begins its next pass, and it is counted (R89). -/
theorem ringBoundary_counts (hrun : r.phase = .running) (hlisted : r.passList ≠ []) (hfinished : passFinished s.j r = true) :
    ∃ t, exec (.ringBoundary n) s = .next t ∧
      (t.j.counter (0x21020 + n * 0x40)).count = (s.j.counter (0x21020 + n * 0x40)).count + 1 ∧ t.mem = s.mem ∧
      t.rmem = s.rmem ∧ t.j.cat.plates = s.j.cat.plates := by
  have hcounted := passCounted_counted hn hcalm
  have hall := boundary_goes_on hn hr hdue hcalm hrun
  have hpasses := hall.counts (0x21020 + n * 0x40) (by unfold inMer; omega)
  exact ⟨_, exec_ringBoundary_at hs hn hr hlisted hfinished (by simp [holdsClusters, hrun]) (by simp [stopSettles, hrun]),
    (congrArg Ctr.count hpasses).trans hcounted.passes, rfl, rfl, hall.plates.trans hcounted.plates⟩

end
end Sys2Proof.Machine
end

section
namespace Sys2Proof.Machine
open Jenjor

/-! ### Stretches (R96) -/

theorem exec_ringStretch {s : State} {n : Nat} {r : Ring} {d : RingDef} (hs : s.j.live = true) (hn : n < 64)
    (hr : s.j.ring? n = some r) (hd : r.defn = some d) (hholds : holdsClusters r = true) (hview : r.view ≠ [])
    (hshort : s.j.covers r d = false) (hfirst : r.stretched = false) :
    exec (.ringStretch n) s = .next { s with j := s.j.stretchTo n ((s.j.capacity r d).time (ringBytes r)) } := by
  refine (onUnit_onBlocks hs _ (decide_eq_true hn)).trans ?_
  unfold stretchCheck
  simp [hr, hd, hholds, hview, hshort, hfirst]

/-! ### Riders that are aborted (R20, R423) -/

namespace Jenjor

/-- A query that ends leaves its context (R20). -/
theorem abortCtx_ctxs (j : Jenjor) (id : Nat) (st : Status) :
    (j.abortCtx id st).sw.ctxs = j.sw.ctxs.filter fun c => c.id != id := by
  have hdrop : (j.dropCtx id).sw.ctxs = j.sw.ctxs.filter fun c => c.id != id := by
    rw [dropCtx, dropStale_sw]
  unfold abortCtx
  cases hx : j.ctx? id with
  | none =>
    have hall : ∀ c ∈ j.sw.ctxs, c.id ≠ id := by simpa [ctx?] using hx
    exact (List.filter_eq_self.2 (by simpa using hall)).symm
  | some x =>
    dsimp only
    split
    · exact hdrop
    · rw [refuse_sw, hdrop]

theorem abortAll_ctxs (ids : List Nat) (st : Status) (j : Jenjor) :
    (j.abortAll ids st).sw.ctxs = j.sw.ctxs.filter fun c => !ids.contains c.id := by
  induction ids generalizing j with
  | nil => simp [abortAll]
  | cons id ids ih =>
    refine (ih (j.abortCtx id st)).trans ?_
    rw [abortCtx_ctxs, List.filter_filter]
    exact List.filter_congr fun c _ => by cases h : c.id == id <;> simp_all [bne]

theorem ctx?_abortAll {ids : List Nat} {id : Nat} (hid : id ∈ ids) (j : Jenjor) (st : Status) :
    (j.abortAll ids st).ctx? id = none := by
  rw [ctx?, abortAll_ctxs]
  refine List.find?_eq_none.2 fun c hc => ?_
  obtain ⟨-, hkept⟩ := List.mem_filter.1 hc
  simp only [beq_iff_eq]
  rintro rfl
  simp [hid] at hkept

end Jenjor

/-! ### Lost plates (R423, R424) -/

theorem Jenjor.plate?_mapPlate_ne {j : Jenjor} {pid k : Nat} {f : Plate → Plate} (hf : ∀ p, (f p).pid = p.pid) (hk : k ≠ pid) :
    (j.mapPlate pid f).plate? k = j.plate? k := by
  refine (plate?_mapPlates (q := fun p => p.pid == pid) hf).trans ?_
  cases hp : j.plate? k with
  | none => rfl
  | some p => simp [pid_of_plate? hp, hk]

/-- The fault of a plate that is lost. -/
def Jenjor.lossFault (j : Jenjor) (p : Plate) : Jenjor := j.fault 2 blkMEM 0 0xFFFF 0 Status.plateLost.code (plateDetail p)

/-- The riders that the loss of a plate aborts (R423). -/
def lossRiders (j : Jenjor) (pid : Nat) : List Nat :=
  (j.sw.ctxs.filter fun c => c.phase == .riding && ((ringsHolding j pid).contains c.ring || c.view.contains pid)).map fun c => c.id

theorem Jenjor.lossFault_errClass (j : Jenjor) (p : Plate) : (j.lossFault p).log.errClass.getLsbD 0 = true := by
  rw [lossFault, fault_errClass _ _ _ _ _ _ _ _ (by decide)]
  simp

section
variable {s : State} {pid : Nat} {p : Plate} (hs : s.j.live = true) (hp : s.j.plate? pid = some p)
include hs hp

theorem exec_stepPlateLoss :
    exec (.stepPlateLoss pid) s = .next { s with j :=
      ((s.j.lossFault p).abortAll (lossRiders s.j pid) .plateLost).mapPlate pid fun p => { p with quarantined := true } } := by
  change execStepPlateLoss pid s = _
  unfold execStepPlateLoss plateLoss
  simp only [onBlocks_of_live _ hs, hp, fault_sw]
  rfl

/-- A lost plate is quarantined; the riders that owe it, and those of its rings, are gone (R423). -/
theorem stepPlateLoss_quarantines :
    ∃ t, exec (.stepPlateLoss pid) s = .next t ∧ t.j.plate? pid = some { p with quarantined := true } ∧
      t.j.log.errClass.getLsbD 0 = true ∧ (∀ k, k ≠ pid → t.j.plate? k = s.j.plate? k) ∧
      (∀ c ∈ s.j.sw.ctxs, c.phase = .riding → (ringsHolding s.j pid).contains c.ring || c.view.contains pid →
        t.j.ctx? c.id = none) ∧
      t = { s with j := { s.j with out := t.j.out, ctrs := t.j.ctrs, log := t.j.log, qs := t.j.qs, lnk := t.j.lnk, cpn := t.j.cpn,
                                   sw := t.j.sw, spg := t.j.spg, cat := { s.j.cat with plates := t.j.cat.plates } } } := by
  have hcat : ((s.j.lossFault p).abortAll (lossRiders s.j pid) .plateLost).cat = s.j.cat := by simp [lossFault]
  refine ⟨_, exec_stepPlateLoss hs hp, ?_, ?_, ?_, ?_, ?_⟩
  · exact plate?_mapPlate (fun _ => rfl) ((plate?_of_plates (congrArg _ hcat)).trans hp)
  · have htally := abortAll_tally (a := 0) (by decide) (by decide) (s.j.lossFault p) (lossRiders s.j pid) .plateLost
    exact (congrArg (fun x => x.2.getLsbD 0) htally).trans (lossFault_errClass _ p)
  · intro k hk
    refine (plate?_mapPlate_ne ?_ hk).trans (plate?_of_plates (congrArg _ hcat))
    exact fun _ => rfl
  · intro c hc hride hriders
    refine ctx?_abortAll (List.mem_map.2 ⟨c, List.mem_filter.2 ⟨hc, ?_⟩, rfl⟩) _ _
    rw [hriders, hride]
    rfl
  · refine congrArg (fun j => ({ s with j := j } : State)) ?_
    apply eq_of_fields <;> simp [mapPlate, lossFault, fault_isl]

/-- A plate whose restore is done is back, and what poisoned it is gone (R305, R423). -/
theorem exec_plateRestoreComplete_back (hq : p.quarantined = true) :
    exec (.plateRestoreComplete pid true) s = .next { s with j :=
      { (s.j.mapPlate pid fun p => { p with quarantined := false, present := true }) with
          mem := { s.j.mem with poison := s.j.mem.poison.filter fun x => x.2 != .plate pid } } } := by
  change execPlateRestoreComplete pid true s = _
  unfold execPlateRestoreComplete
  simp only [onBlocks_of_live _ hs, hp, hq]
  rfl

theorem exec_plateMasterLost (halone : s.j.cpn.pair.pairState ≠ .paired) (hno : ringsHolding s.j pid = []) :
    exec (.plateMasterLost pid) s = .next { s with j :=
      ((s.j.lossFault p).mapPlate pid fun p => { p with lost := true, quarantined := false }) } := by
  have hrings : ringsHolding (s.j.lossFault p) pid = [] := by rw [← hno, ringsHolding, lossFault, fault_sw, ringsHolding]
  change execPlateMasterLost pid s = _
  unfold execPlateMasterLost masterLost
  simp only [onBlocks_of_live _ hs, hp, beq_eq_false_iff_ne.2 halone]
  change Host.Outcome.next { s with j := (ringsHolding (s.j.lossFault p) pid).foldl _ _ } = _
  rw [hrings]
  rfl

theorem plateMasterLost_loses (halone : s.j.cpn.pair.pairState ≠ .paired) (hno : ringsHolding s.j pid = []) :
    ∃ t, exec (.plateMasterLost pid) s = .next t ∧ t.j.plate? pid = some { p with lost := true, quarantined := false } ∧
      t.j.log.errClass.getLsbD 0 = true ∧
      t = { s with j := { s.j with out := t.j.out, ctrs := t.j.ctrs, log := t.j.log, qs := t.j.qs,
                                   cat := { s.j.cat with plates := t.j.cat.plates } } } := by
  refine ⟨_, exec_plateMasterLost hs hp halone hno, ?_, lossFault_errClass _ p, ?_⟩
  · exact plate?_mapPlate (fun _ => rfl) ((plate?_of_plates (by simp [lossFault])).trans hp)
  · refine congrArg (fun j => ({ s with j := j } : State)) ?_
    apply eq_of_fields <;> simp [mapPlate, lossFault, fault_isl]

end

/-- Settles O8: behind a boundary only rings that wait or hold clusters are touched, so plates, counters and a stop stand. -/
theorem boundariesAndPlateLoss : Obligations.BoundariesAndPlateLoss := by
  refine ⟨fun s n r hs hn hr hno hsettle => exec_ringBoundary_away hs hn hr hno hsettle,
    fun s n r hs hn hr hstop hnone hat hdue hcalm => ringBoundary_stops hs hn hr hdue hcalm hstop hnone hat,
    fun s n r hs hn hr hrun hlisted hfin hdue hcalm _ =>
      ringBoundary_counts hs hn hr hdue (fun x hx => (hcalm x hx).1) hrun hlisted hfin,
    fun s n r d hs hn hr hd hholds hview hshort hfirst => ?_,
    fun s pid p hs hp => stepPlateLoss_quarantines hs hp,
    fun s pid p hs hp hq => exec_plateRestoreComplete_back hs hp hq,
    fun s pid p hs hp halone hno => plateMasterLost_loses hs hp halone hno⟩
  exact ⟨_, exec_ringStretch hs hn hr hd hholds hview hshort hfirst, ring?_mapRing_of_some (fun _ => rfl) hr, rfl⟩

end Sys2Proof.Machine
end

section
namespace Sys2Proof.Machine

/-! ### The value of a key (R119) -/

/-- The value by which `Fp.lt` orders; a NaN, which it does not order, is put at the bottom. -/
def Fp.value : Fp → WithBot (WithTop ℚ)
  | .nan => ⊥
  | .inf neg => if neg then ⊥ else ⊤
  | .fin neg m e => (((if neg then -(m : ℚ) else m) * 2 ^ e : ℚ) : WithTop ℚ)

theorem signedAt_mul_two_zpow (neg : Bool) (m : Nat) {e e0 : Int} (h : e0 ≤ e) :
    (signedAt neg m e e0 : ℚ) * 2 ^ e0 = (if neg then -(m : ℚ) else m) * 2 ^ e := by
  have hshift : ((m <<< (e - e0).toNat : Nat) : ℚ) * 2 ^ e0 = m * 2 ^ e := by
    rw [Nat.shiftLeft_eq, Nat.cast_mul, mul_assoc, Nat.cast_pow, Nat.cast_ofNat, ← zpow_natCast, ← zpow_add₀ two_ne_zero,
      Int.toNat_of_nonneg (by omega), Int.sub_add_cancel]
  unfold signedAt
  dsimp only
  generalize m <<< (e - e0).toNat = v at hshift
  cases neg <;> simpa using hshift

theorem Fp.lt_iff_value {a b : Fp} (ha : a.isNaN = false) (hb : b.isNaN = false) : a.lt b = true ↔ a.value < b.value := by
  match a, b with
  | .inf na, .inf nb => cases na <;> cases nb <;> simp [lt, cmp, value]
  | .inf na, .fin nb mb eb => cases na <;> simp [lt, cmp, value]
  | .fin na ma ea, .inf true => simp [lt, cmp, value]
  | .fin na ma ea, .inf false => exact iff_of_true rfl (WithBot.coe_lt_coe.2 (WithTop.coe_lt_top _))
  | .fin na ma ea, .fin nb mb eb =>
    have hpos : (0 : ℚ) < 2 ^ min ea eb := by positivity
    simp only [lt, cmp, value, beq_iff_eq, Option.some.injEq, compare_lt_iff_lt, WithBot.coe_lt_coe, WithTop.coe_lt_coe]
    rw [← signedAt_mul_two_zpow na ma (min_le_left ea eb), ← signedAt_mul_two_zpow nb mb (min_le_right ea eb),
      mul_lt_mul_iff_left₀ hpos, Int.cast_lt]

/-- The value by which keys are compared, FP32 words or integers (R119). -/
def keyValue (fp : Bool) (k : KeyWord) : WithBot (WithTop ℚ) := if fp then (keyFp k).value else ((k.toInt : ℚ) : WithTop ℚ)

theorem keyGt_iff_value {fp : Bool} {a b : KeyWord} (ha : fp = true → (keyFp a).isNaN = false)
    (hb : fp = true → (keyFp b).isNaN = false) : keyGt fp a b = true ↔ keyValue fp b < keyValue fp a := by
  cases fp with
  | true => exact Fp.lt_iff_value (hb rfl) (ha rfl)
  | false => simp [keyGt, keyValue]

/-! ### The total order (R131) -/

/-- The place of a key and a user key in the total order: greater keys first, then smaller user keys. -/
def rankPlace (fp : Bool) (r : KeyWord × BitVec 64) : (WithBot (WithTop ℚ))ᵒᵈ ×ₗ ℕ :=
  toLex (OrderDual.toDual (keyValue fp r.1), r.2.toNat)

theorem ranksBefore_iff_rankPlace {fp : Bool} {a b : KeyWord × BitVec 64} (ha : fp = true → (keyFp a.1).isNaN = false)
    (hb : fp = true → (keyFp b.1).isNaN = false) : ranksBefore fp a b = true ↔ rankPlace fp a < rankPlace fp b := by
  simp only [ranksBefore, Bool.or_eq_true, Bool.and_eq_true, Bool.not_eq_true', ← Bool.not_eq_true, decide_eq_true_eq,
    keyGt_iff_value ha hb, keyGt_iff_value hb ha, rankPlace, Prod.Lex.toLex_lt_toLex, OrderDual.toDual_lt_toDual, not_lt,
    EmbeddingLike.apply_eq_iff_eq]
  constructor
  · rintro (h | ⟨hle, hu⟩)
    · exact .inl h
    · exact hle.lt_or_eq.imp id fun heq => ⟨heq.symm, hu⟩
  · exact Or.imp id fun ⟨heq, hu⟩ => ⟨heq.ge, hu⟩

/-- The order of R131 is strict and total on these entries: no two have one user key, and no key is NaN. -/
structure Rankable (fp : Bool) (es : List Entry) : Prop where
  users : (es.map fun e => e.user).Nodup
  keys : fp = true → ∀ e ∈ es, (keyFp e.key).isNaN = false

namespace Rankable
variable {fp : Bool} {es es' : List Entry} {a b c : Entry}

theorem nodup (h : Rankable fp es) : es.Nodup := h.users.of_map _

theorem of_subperm (h : Rankable fp es) (hsub : es'.Subperm es) : Rankable fp es' where
  users := by
    obtain ⟨l, hperm, hsubl⟩ := hsub
    exact ((hperm.map _).nodup_iff).1 (h.users.sublist (hsubl.map _))
  keys hfp e he := h.keys hfp e (hsub.subset he)

theorem of_perm (h : Rankable fp es) (hperm : es'.Perm es) : Rankable fp es' := h.of_subperm hperm.subperm

theorem ranksBefore_iff (h : Rankable fp es) (ha : a ∈ es) (hb : b ∈ es) :
    ranksBefore fp a.rank b.rank = true ↔ rankPlace fp a.rank < rankPlace fp b.rank :=
  ranksBefore_iff_rankPlace (fun hfp => h.keys hfp a ha) (fun hfp => h.keys hfp b hb)

theorem not_ranksBefore_of_ranksBefore (h : Rankable fp es) (ha : a ∈ es) (hb : b ∈ es)
    (hab : ranksBefore fp a.rank b.rank = true) : ¬ ranksBefore fp b.rank a.rank = true := by
  rw [h.ranksBefore_iff hb ha]
  exact ((h.ranksBefore_iff ha hb).1 hab).asymm

theorem ranksBefore_trans (h : Rankable fp es) (ha : a ∈ es) (hb : b ∈ es) (hc : c ∈ es)
    (hab : ranksBefore fp a.rank b.rank = true) (hbc : ranksBefore fp b.rank c.rank = true) :
    ranksBefore fp a.rank c.rank = true :=
  (h.ranksBefore_iff ha hc).2 (((h.ranksBefore_iff ha hb).1 hab).trans ((h.ranksBefore_iff hb hc).1 hbc))

theorem ranksBefore_of_not_ranksBefore (h : Rankable fp es) (ha : a ∈ es) (hb : b ∈ es) (hne : a ≠ b)
    (hab : ¬ ranksBefore fp a.rank b.rank = true) : ranksBefore fp b.rank a.rank = true := by
  rw [h.ranksBefore_iff ha hb, not_lt] at hab
  refine (h.ranksBefore_iff hb ha).2 (hab.lt_of_ne fun heq => hne ?_)
  exact List.inj_on_of_nodup_map h.users ha hb (BitVec.eq_of_toNat_eq (congrArg (fun p => (ofLex p).2) heq).symm)

end Rankable

/-! ### The sorted list (R131) -/

/-- Each entry ranks before every later one. -/
def Ranked (fp : Bool) (l : List Entry) : Prop := l.Pairwise fun a b => ranksBefore fp a.rank b.rank = true

section
variable {fp : Bool} {e : Entry} {es es' l l' : List Entry}

theorem insertEntry_perm (fp : Bool) (e : Entry) (l : List Entry) : (insertEntry fp e l).Perm (e :: l) := by
  induction l with
  | nil => exact .refl _
  | cons x xs ih =>
    unfold insertEntry
    split
    · exact .refl _
    · exact (ih.cons x).trans (.swap e x xs)

theorem sortEntries_perm (fp : Bool) (es : List Entry) : (sortEntries fp es).Perm es := by
  suffices h : ∀ l, (es.foldl (fun l e => insertEntry fp e l) l).Perm (es ++ l) by simpa [sortEntries] using h []
  induction es with
  | nil => exact fun l => .refl _
  | cons e es ih =>
    exact fun l => (ih _).trans (((insertEntry_perm fp e l).append_left es).trans List.perm_middle)

theorem insertEntry_ranked (h : Rankable fp (e :: l)) (hl : Ranked fp l) : Ranked fp (insertEntry fp e l) := by
  induction l with
  | nil => exact List.pairwise_singleton _ _
  | cons x xs ih =>
    obtain ⟨hx, hxs⟩ := List.pairwise_cons.1 hl
    have he : e ∈ e :: x :: xs := List.mem_cons_self
    have hx' : x ∈ e :: x :: xs := List.mem_cons_of_mem _ List.mem_cons_self
    unfold insertEntry
    split
    case isTrue hfirst =>
      refine List.pairwise_cons.2 ⟨fun y hy => ?_, hl⟩
      rcases List.mem_cons.1 hy with rfl | hy
      · exact hfirst
      · exact h.ranksBefore_trans he hx' (by simp [hy]) hfirst (hx y hy)
    case isFalse hlater =>
      have hsub : (e :: xs).Subperm (e :: x :: xs) := ((List.sublist_cons_self x xs).cons_cons e).subperm
      refine List.pairwise_cons.2 ⟨fun y hy => ?_, ih (h.of_subperm hsub) hxs⟩
      rcases List.mem_cons.1 ((insertEntry_perm fp e xs).subset hy) with rfl | hy
      · refine h.ranksBefore_of_not_ranksBefore he hx' (fun heq => ?_) hlater
        exact (List.nodup_cons.1 h.nodup).1 (heq ▸ List.mem_cons_self)
      · exact hx y hy

theorem sortEntries_ranked (h : Rankable fp es) : Ranked fp (sortEntries fp es) := by
  suffices hfold : ∀ l, Rankable fp (es ++ l) → Ranked fp l → Ranked fp (es.foldl (fun l e => insertEntry fp e l) l) from
    hfold [] (by simpa using h) .nil
  clear h
  induction es with
  | nil => exact fun l _ hl => hl
  | cons e es ih =>
    intro l h hl
    have hsub : (e :: l).Subperm (e :: es ++ l) := ((List.sublist_append_right es l).cons_cons e).subperm
    refine ih _ (h.of_perm ?_) (insertEntry_ranked (h.of_subperm hsub) hl)
    exact ((insertEntry_perm fp e l).append_left es).trans List.perm_middle

/-- The same entries have one order. -/
theorem Ranked.eq_of_perm (h : Rankable fp es) (hes : l.Perm es) (hl : Ranked fp l) (hl' : Ranked fp l') (hp : l.Perm l') :
    l = l' :=
  hp.eq_of_pairwise (fun _ _ ha hb hab hba => absurd hba
    (h.not_ranksBefore_of_ranksBefore (hes.subset ha) (hes.subset (hp.symm.subset hb)) hab)) hl hl'

theorem sortEntries_of_perm (h : Rankable fp es) (hp : es'.Perm es) : sortEntries fp es' = sortEntries fp es :=
  (sortEntries_ranked (h.of_perm hp)).eq_of_perm h ((sortEntries_perm fp es').trans hp) (sortEntries_ranked h)
    ((sortEntries_perm fp es').trans (hp.trans (sortEntries_perm fp es).symm))

end

/-! ### The first s (R133, R137) -/

section
variable {fp : Bool} {s : Nat} {a b b' es es' : List Entry}

theorem firstOf_of_perm (h : Rankable fp es) (hp : es'.Perm es) : firstOf fp s es' = firstOf fp s es := by
  rw [firstOf, firstOf, sortEntries_of_perm h hp]

theorem firstOf_subperm (fp : Bool) (s : Nat) (es : List Entry) : (firstOf fp s es).Subperm es :=
  (List.take_sublist s _).subperm.trans (sortEntries_perm fp es).subperm

/-- The entries of a list that rank before an entry. -/
def countBefore (fp : Bool) (e : Entry) (l : List Entry) : Nat := l.countP fun x => ranksBefore fp x.rank e.rank

theorem insertEntry_take {e : Entry} {l : List Entry} (h : Rankable fp (e :: l)) (hl : Ranked fp l)
    (hs : s ≤ countBefore fp e l) : (insertEntry fp e l).take s = l.take s := by
  induction l generalizing s with
  | nil => simp [Nat.le_zero.1 hs]
  | cons x xs ih =>
    obtain ⟨hx, hxs⟩ := List.pairwise_cons.1 hl
    have he : e ∈ e :: x :: xs := List.mem_cons_self
    unfold insertEntry
    split
    case isTrue hfirst =>
      have hnone : countBefore fp e (x :: xs) = 0 := List.countP_eq_zero.2 fun y hy =>
        h.not_ranksBefore_of_ranksBefore he (List.mem_cons_of_mem _ hy) <| by
          rcases List.mem_cons.1 hy with rfl | hy'
          · exact hfirst
          · exact h.ranksBefore_trans he (by simp) (by simp [hy']) hfirst (hx y hy')
      simp [Nat.le_zero.1 (hs.trans hnone.le)]
    case isFalse =>
      cases s with
      | zero => rfl
      | succ s =>
        have hsub : (e :: xs).Subperm (e :: x :: xs) := ((List.sublist_cons_self x xs).cons_cons e).subperm
        have hle : countBefore fp e (x :: xs) ≤ countBefore fp e xs + 1 := by
          unfold countBefore
          rw [List.countP_cons]
          split <;> omega
        exact congrArg (x :: ·) (ih (h.of_subperm hsub) hxs (by omega))

theorem firstOf_cons {e : Entry} (h : Rankable fp (e :: es)) (hs : s ≤ countBefore fp e es) :
    firstOf fp s (e :: es) = firstOf fp s es := by
  have hsort := sortEntries_perm fp es
  have hlast : sortEntries fp (es ++ [e]) = insertEntry fp e (sortEntries fp es) := List.foldl_append ..
  rw [firstOf, ← sortEntries_of_perm h (List.perm_append_singleton e es), hlast]
  exact insertEntry_take (h.of_perm (hsort.cons e)) (sortEntries_ranked (h.of_subperm (List.sublist_cons_self e es).subperm))
    (hs.trans_eq (hsort.countP_eq _).symm)

/-- Entries that s others rank before are not among the first s. -/
theorem firstOf_append_of_before (h : Rankable fp (a ++ b)) (hs : ∀ e ∈ a, s ≤ countBefore fp e b) :
    firstOf fp s (a ++ b) = firstOf fp s b := by
  induction a with
  | nil => rfl
  | cons e a ih =>
    have hcount : s ≤ countBefore fp e (a ++ b) := (hs e List.mem_cons_self).trans
      ((List.sublist_append_right a b).countP_le)
    exact (firstOf_cons h hcount).trans (ih (h.of_subperm (List.sublist_cons_self e _).subperm)
      fun x hx => hs x (List.mem_cons_of_mem _ hx))

/-- Keeping the first s of a part keeps the first s of the whole. -/
theorem firstOf_firstOf_append (h : Rankable fp (a ++ b)) : firstOf fp s (firstOf fp s a ++ b) = firstOf fp s (a ++ b) := by
  let dropped := (sortEntries fp a).drop s
  have hparts : (dropped ++ (firstOf fp s a ++ b)).Perm (a ++ b) := by
    rw [← List.append_assoc]
    refine (List.perm_append_comm.trans ?_).append_right b
    exact (List.take_append_drop s (sortEntries fp a)).symm ▸ sortEntries_perm fp a
  have hranked : Ranked fp (firstOf fp s a ++ dropped) :=
    (List.take_append_drop s (sortEntries fp a)).symm ▸
      sortEntries_ranked (h.of_subperm (List.sublist_append_left a b).subperm)
  refine (firstOf_append_of_before (h.of_perm hparts) fun e he => ?_).symm.trans (firstOf_of_perm h hparts)
  have hall : countBefore fp e (firstOf fp s a) = (firstOf fp s a).length :=
    List.countP_eq_length.2 fun x hx => (List.pairwise_append.1 hranked).2.2 x hx e he
  have hfull : (firstOf fp s a).length = s := by
    have : dropped.length ≠ 0 := List.length_pos_of_mem he |>.ne'
    simp only [dropped, List.length_drop] at this
    simp only [firstOf, List.length_take]
    omega
  calc s = countBefore fp e (firstOf fp s a) := (hall.trans hfull).symm
    _ ≤ _ := (List.sublist_append_left _ b).countP_le

theorem firstOf_append_congr (h : Rankable fp (a ++ b)) (h' : Rankable fp (a ++ b'))
    (heq : firstOf fp s b = firstOf fp s b') : firstOf fp s (a ++ b) = firstOf fp s (a ++ b') := by
  have hkept : ∀ {b}, Rankable fp (a ++ b) → firstOf fp s (a ++ b) = firstOf fp s (firstOf fp s b ++ a) := fun h =>
    have hswap := h.of_perm List.perm_append_comm
    (firstOf_of_perm hswap List.perm_append_comm).trans (firstOf_firstOf_append hswap).symm
  rw [hkept h, hkept h', heq]

end

/-! ### The merge tree (R137) -/

section
variable {fp : Bool} {s : Nat} {es es' : List Entry}

theorem mergeLevel_length (fp : Bool) (s : Nat) (ls : List (List Entry)) : (mergeLevel fp s ls).length = (ls.length + 1) / 2 := by
  induction ls using mergeLevel.induct with
  | case1 a b rest ih => simp only [mergeLevel, List.length_cons, ih]; omega
  | case2 l hl =>
    rw [mergeLevel]
    · match l with
      | [] => rfl
      | [_] => simp
      | a :: b :: rest => exact (hl a b rest rfl).elim
    · exact hl

theorem mergeLevel_subperm (fp : Bool) (s : Nat) (ls : List (List Entry)) :
    (mergeLevel fp s ls).flatten.Subperm ls.flatten := by
  induction ls using mergeLevel.induct with
  | case1 a b rest ih =>
    simp only [mergeLevel, List.flatten_cons, ← List.append_assoc]
    exact (firstOf_subperm fp s (a ++ b)).append ih
  | case2 l hl => rw [mergeLevel]; exact hl

theorem firstOf_mergeLevel {ls : List (List Entry)} (h : Rankable fp ls.flatten) :
    firstOf fp s (mergeLevel fp s ls).flatten = firstOf fp s ls.flatten := by
  induction ls using mergeLevel.induct with
  | case1 a b rest ih =>
    simp only [mergeLevel, List.flatten_cons, ← List.append_assoc] at h ⊢
    have hmerged := h.of_subperm ((List.Subperm.refl (a ++ b)).append (mergeLevel_subperm fp s rest))
    exact (firstOf_firstOf_append hmerged).trans (firstOf_append_congr hmerged h
      (ih (h.of_subperm (List.sublist_append_right _ _).subperm)))
  | case2 l hl => rw [mergeLevel]; exact hl

/-- The sorted bins of the clusters below `n` (R137). -/
def clusterBins (fp : Bool) (n : Nat) (es : List Entry) : List (List Entry) :=
  (List.range n).map fun c => sortEntries fp (es.filter fun e => e.cluster == c)

theorem clusterBins_flatten_perm (fp : Bool) (n : Nat) (es : List Entry) :
    (clusterBins fp n es).flatten.Perm (es.filter fun e => e.cluster < n) := by
  induction n with
  | zero => simp [clusterBins]
  | succ n ih =>
    have hsplit := List.filter_append_perm (fun e : Entry => decide (e.cluster < n)) (es.filter fun e => e.cluster < n + 1)
    have hlow : (es.filter fun e => decide (e.cluster < n) && decide (e.cluster < n + 1)) = es.filter fun e => e.cluster < n :=
      List.filter_congr fun e _ => by rw [← Bool.decide_and, decide_eq_decide]; omega
    have hlast : (es.filter fun e => !decide (e.cluster < n) && decide (e.cluster < n + 1)) = es.filter fun e => e.cluster == n :=
      List.filter_congr fun e _ => by rw [← decide_not, ← Bool.decide_and, beq_eq_decide, decide_eq_decide]; omega
    rw [List.filter_filter, List.filter_filter, hlow, hlast] at hsplit
    have hbins : (clusterBins fp (n + 1) es).flatten =
        (clusterBins fp n es).flatten ++ sortEntries fp (es.filter fun e => e.cluster == n) := by
      simp [clusterBins, List.range_succ]
    rw [hbins]
    exact (ih.append (sortEntries_perm fp _)).trans hsplit

/-- The last merge keeps the first s of the two lists that reach it. -/
theorem mergeLevel_of_two {ls : List (List Entry)} (hls : ls.length = 2) :
    (mergeLevel fp s ls).flatten = firstOf fp s ls.flatten := by
  obtain ⟨a, b, rfl⟩ := List.length_eq_two.1 hls
  simp [mergeLevel]

theorem mergeTree_eq_firstOf (h : Rankable fp es) (hes : ∀ e ∈ es, e.cluster < 18) : mergeTree fp s es = firstOf fp s es := by
  have hbins : (clusterBins fp 18 es).flatten.Perm es :=
    (clusterBins_flatten_perm fp 18 es).trans (.of_eq (List.filter_eq_self.2 fun e he => decide_eq_true (hes e he)))
  have h0 := h.of_perm hbins
  have hnext : ∀ {ls : List (List Entry)}, Rankable fp ls.flatten → Rankable fp (mergeLevel fp s ls).flatten :=
    fun {ls} h => h.of_subperm (mergeLevel_subperm fp s ls)
  have h1 := hnext h0
  have h2 := hnext h1
  have h3 := hnext h2
  have hroot : mergeTree fp s es = firstOf fp s _ := mergeLevel_of_two (ls := mergeLevel fp s (mergeLevel fp s
    (mergeLevel fp s (mergeLevel fp s (clusterBins fp 18 es))))) (by simp [mergeLevel_length, clusterBins])
  rw [hroot, firstOf_mergeLevel h3, firstOf_mergeLevel h2, firstOf_mergeLevel h1, firstOf_mergeLevel h0, firstOf_of_perm h hbins]

end

/-- Settles O59: no merge of two lists loses one of the first s, so that the tree keeps the first s of the sorted list. -/
theorem mergeTreeKeepsTheFirst : Obligations.MergeTreeKeepsTheFirst := by
  intro fp s es husers hclusters hkeys
  have h : Rankable fp es := ⟨husers, hkeys⟩
  refine ⟨sortEntries_perm fp es, sortEntries_ranked h, mergeTree_eq_firstOf h hclusters, fun es' hp => ?_⟩
  rw [mergeTree_eq_firstOf h hclusters, mergeTree_eq_firstOf (h.of_perm hp) fun e he => hclusters e (hp.subset he),
    firstOf_of_perm h hp]

end Sys2Proof.Machine
end

section
namespace Sys2Proof.Machine
open Jenjor

/-! ### Arrivals and overflow selections (R133, R134) -/

section
variable {s : State} {c : Nat} {y : Cluster} {e : Nat × Entry} {x : Ctx} {cl : Coll} (hs : s.j.live = true)
include hs

theorem exec_admissionArrival (hc : c < 18) (hy : s.j.cluster? c = some y) (hroom : y.specq.length < 1024)
    (he : (y.admq.find? fun e => (s.j.ctx? e.1).all fun x => !x.selecting) = some e) (hx : s.j.ctx? e.1 = some x)
    (hcl : s.j.coll? x.coll = some cl) :
    exec (.admissionArrival c) s = .next { s with j :=
      (s.j.mapCluster c fun y => { y with admq := y.admq.erase e }).arrive cl x e.2 } := by
  refine (onUnit_onBlocks hs _ (decide_eq_true hc)).trans ?_
  have hx' : (s.j.mapCluster c fun y => { y with admq := y.admq.erase e }).ctx? e.1 = some x := hx
  have hcl' : (s.j.mapCluster c fun y => { y with admq := y.admq.erase e }).coll? x.coll = some cl := hcl
  simp only [hy, if_neg (Nat.not_le.2 hroom), he, hx', hcl']

/-- A rider at the end of its overflow selection (R133 item 4). -/
def selected (kept : List Entry) (x : Ctx) : Ctx := { x with list := kept, selecting := false }

theorem exec_overflowSelectionComplete {id : Nat} (hx : s.j.ctx? id = some x) (hsel : x.selecting = true) :
    let kept := x.list.take (selectDepth x.d)
    exec (.overflowSelectionComplete id) s
      = .next { s with j := ((s.j.mapCtx id (selected kept)).moveBoundary id).testSpec id kept } := by
  change execOverflowSelectionComplete id s = _
  unfold execOverflowSelectionComplete
  rw [onBlocks_of_live _ hs]
  simp only [hx, hsel, Bool.not_true, Bool.false_eq_true, if_false]
  rfl
end

namespace Jenjor
variable {j : Jenjor} {cl : Coll} {x : Ctx} {e : Entry}

theorem arrive_of_room (hb : x.boundary = none) (hlen : x.list.length + 1 < 4096) (hne : x.list.length + 1 ≠ selectDepth x.d) :
    j.arrive cl x e = j.mapCtx x.id fun x => { x with list := insertEntry (fpKeys cl) e x.list } := by
  have hnot : ¬ 4096 ≤ x.list.length := by omega
  simp [arrive, hb, hnot, hne, hlen.ne]

theorem arrive_of_stale {b : KeyWord × BitVec 64} (hb : x.boundary = some b) (hlate : ranksBefore (fpKeys cl) e.rank b = false) :
    j.arrive cl x e = j.count blkCMP 0x2018 := by
  simp [arrive, hb, hlate]

theorem ctx?_moveBoundary {id : Nat} (hx : j.ctx? id = some x) :
    (j.moveBoundary id).ctx? id = some { x with boundary := x.list.getLast?.map Entry.rank } :=
  ctx?_mapCtx_self (f := fun x => { x with boundary := x.list.getLast?.map Entry.rank }) (fun _ => rfl) hx

/-! ### Speculative requests (R146, R147) -/

/-- What forming and queueing a rider's requests leaves alone: all but contexts and clusters, and of the rider all but the
requests it has formed and those it has still to queue. -/
structure Requests (id : Nat) (j k : Jenjor) : Prop where
  frame : k = { j with sw := { j.sw with ctxs := k.sw.ctxs, clusters := k.sw.clusters } }
  rider : ∀ x, j.ctx? id = some x → ∃ n todo, k.ctx? id = some { x with specIssued := n, specTodo := todo }

namespace Requests
variable {id : Nat} {k l : Jenjor}

theorem refl (j : Jenjor) : Requests id j j := ⟨rfl, fun x hx => ⟨x.specIssued, x.specTodo, hx⟩⟩

theorem trans (h : Requests id j k) (h' : Requests id k l) : Requests id j l where
  frame := by rw [h'.frame, h.frame]
  rider x hx := by
    obtain ⟨_, _, hk⟩ := h.rider x hx
    obtain ⟨n, todo, hl⟩ := h'.rider _ hk
    exact ⟨n, todo, hl⟩

theorem of_mapCluster (j : Jenjor) (c : Nat) (f : Cluster → Cluster) : Requests id j (j.mapCluster c f) :=
  ⟨rfl, fun x hx => ⟨x.specIssued, x.specTodo, hx⟩⟩

theorem of_mapCtx (j : Jenjor) (n : Ctx → Nat) (todo : Ctx → List (Bool × Entry)) :
    Requests id j (j.mapCtx id fun x => { x with specIssued := n x, specTodo := todo x }) :=
  ⟨rfl, fun x hx => ⟨n x, todo x, ctx?_mapCtx_self (f := fun x => { x with specIssued := n x, specTodo := todo x })
    (fun _ => rfl) hx⟩⟩
end Requests

theorem queueSpec_requests (id fuel : Nat) (j : Jenjor) : Requests id j (queueSpec id fuel j) := by
  have htail : ∀ k : Jenjor, Requests id k (k.mapCtx id fun x => { x with specTodo := x.specTodo.tail }) :=
    fun k => .of_mapCtx k (fun x => x.specIssued) fun x => x.specTodo.tail
  induction fuel generalizing j with
  | zero => exact .refl j
  | succ fuel ih =>
    unfold queueSpec
    split
    case h_1 => exact .refl j
    case h_2 r _ =>
      split
      case h_1 => exact htail j
      case h_2 c _ =>
        split
        case isTrue => exact .refl j
        case isFalse => exact ((Requests.of_mapCluster j _ _).trans (htail _)).trans (ih _)

theorem testSpec_requests (j : Jenjor) (id : Nat) (es : List Entry) : Requests id j (j.testSpec id es) := by
  unfold testSpec
  split
  case h_1 => exact .refl j
  case h_2 x _ =>
    split
    case h_1 => exact (Requests.of_mapCtx j _ _).trans (queueSpec_requests ..)
    case h_2 => exact .refl j

end Jenjor

theorem overflowSelection_keepsFirst {s : State} {id : Nat} {x : Ctx} (hs : s.j.live = true) (hx : s.j.ctx? id = some x)
    (hsel : x.selecting = true) :
    ∃ (t : State) (x' : Ctx), exec (.overflowSelectionComplete id) s = .next t ∧ t.j.ctx? id = some x' ∧
      x'.list = x.list.take (selectDepth x.d) ∧ x'.selecting = false ∧ x'.boundary = x'.list.getLast?.map Entry.rank ∧
      t = { s with j := { s.j with ctrs := t.j.ctrs, sw := { s.j.sw with ctxs := t.j.sw.ctxs, clusters := t.j.sw.clusters } } } := by
  have hcut : (s.j.mapCtx id (selected _)).ctx? id = some (selected (x.list.take (selectDepth x.d)) x) :=
    ctx?_mapCtx_self (f := selected _) (fun _ => rfl) hx
  have hspec := testSpec_requests ((s.j.mapCtx id (selected (x.list.take (selectDepth x.d)))).moveBoundary id) id
    (x.list.take (selectDepth x.d))
  obtain ⟨n, todo, hrider⟩ := hspec.rider _ (ctx?_moveBoundary hcut)
  refine ⟨_, _, exec_overflowSelectionComplete hs hx hsel, hrider, rfl, rfl, rfl, ?_⟩
  rw [hspec.frame]
  rfl

/-! ### Boundary installs (R134) -/

/-- A rider with its boundary in the threshold lanes of a cluster. -/
def installed (c : Nat) (x : Ctx) : Ctx :=
  match x.boundary with
  | none => x
  | some b => { x with lanes := (c, b) :: x.lanes.filter fun l => l.1 != c }

theorem installed_id (c : Nat) (x : Ctx) : (installed c x).id = x.id := by
  unfold installed
  split <;> rfl

theorem installed_of_boundary {c : Nat} {x : Ctx} {b : KeyWord × BitVec 64} (hb : x.boundary = some b) :
    installed c x = { x with lanes := (c, b) :: x.lanes.filter fun l => l.1 != c } := by
  simp [installed, hb]

theorem exec_boundaryInstall {s : State} {c : Nat} (id : Nat) (hs : s.j.live = true) (hc : c < 18) :
    exec (.boundaryInstall id c) s = .next { s with j := s.j.mapCtx id (installed c) } :=
  onUnit_onBlocks hs _ (decide_eq_true hc)

/-! ### The start and the end of a merge (R137, R138, R155) -/

theorem Jenjor.coarseIfDegraded_of_not {j : Jenjor} (id : Nat) (h : j.degraded = false) : j.coarseIfDegraded id = j := by
  unfold Jenjor.coarseIfDegraded
  cases j.ctx? id with
  | none => rfl
  | some x =>
    dsimp only
    cases j.coll? x.coll with
    | none => rfl
    | some c => simp [h]

section
variable {s : State} {id : Nat} {x : Ctx} (hs : s.j.live = true) (hx : s.j.ctx? id = some x)
include hs hx

theorem exec_mergeStart (hphase : x.phase = .alighting) (hsel : x.selecting = false)
    (hnone : ∀ c ∈ s.j.sw.clusters, ∀ e ∈ c.admq, e.1 ≠ id) :
    exec (.mergeStart id) s = .next { s with j := s.j.mapCtx id fun x => { x with phase := .merging } } := by
  have hqueued : (s.j.sw.clusters.any fun c => c.admq.any fun e => e.1 == id) = false :=
    List.any_eq_false.2 fun c hc hany => by
      obtain ⟨e, he, heq⟩ := List.any_eq_true.1 hany
      exact hnone c hc e he (beq_iff_eq.1 heq)
  change execMergeStart id s = _
  unfold execMergeStart
  rw [onBlocks_of_live _ hs]
  simp only [hx, hphase, hsel, hqueued, bne_self_eq_false, Bool.or_self, Bool.false_eq_true, if_false]

/-- A rider whose merge has ended with the list `out`: `step7` when its entries go to the Spectrograph (R21). -/
def merged (out : List Entry) (time : Nat) (vaultPay step7 : Bool) (x : Ctx) : Ctx :=
  { x with coarse := out, final := if qRerank x.d = 0 then out else [], rpos := 0, scored := [], probed := 0, mergeTime := time,
           vaultPay := vaultPay, phase := if step7 then .rerankWait else .delivering }

theorem exec_mergeComplete {c : Coll} (hphase : x.phase = .merging) (hc : s.j.coll? x.coll = some c) :
    let vaultPay := qPayloads x.d && payloadInVault s.j c
    let step7 := qRerank x.d != 0 || vaultPay
    let j := s.j.mapCtx id (merged (mergeTree (fpKeys c) (selectDepth x.d) x.list) s.j.time vaultPay step7)
    exec (.mergeComplete id) s = .next { s with j := if step7 then j.coarseIfDegraded id else j } := by
  change execMergeComplete id s = _
  unfold execMergeComplete
  rw [onBlocks_of_live _ hs]
  simp only [hx, hphase, hc, bne_self_eq_false, Bool.false_eq_true, if_false]
  rfl

theorem mergeComplete_delivers {c : Coll} (hphase : x.phase = .merging) (hc : s.j.coll? x.coll = some c)
    (hrerank : qRerank x.d = 0) (hpay : (qPayloads x.d && payloadInVault s.j c) = false) :
    let out := mergeTree (fpKeys c) (selectDepth x.d) x.list
    ∃ t, exec (.mergeComplete id) s = .next t ∧
      (t.j.ctx? id).map (fun x => (x.coarse, x.final, x.phase)) = some (out, out, .delivering) ∧
      t = { s with j := { s.j with sw := { s.j.sw with ctxs := t.j.sw.ctxs } } } := by
  intro out
  have hexec := exec_mergeComplete hs hx hphase hc
  simp only [hrerank, hpay, bne_self_eq_false, Bool.or_self, Bool.false_eq_true, if_false] at hexec
  refine ⟨_, hexec, ?_, rfl⟩
  rw [ctx?_mapCtx_self (f := merged _ _ _ _) (fun _ => rfl) hx]
  simp [merged, hrerank, out]

theorem mergeComplete_waits {c : Coll} (hphase : x.phase = .merging) (hc : s.j.coll? x.coll = some c)
    (hstep7 : (qRerank x.d != 0 || qPayloads x.d && payloadInVault s.j c) = true) (hdeg : s.j.degraded = false) :
    ∃ t, exec (.mergeComplete id) s = .next t ∧
      (t.j.ctx? id).map (fun x => (x.coarse, x.phase)) = some (mergeTree (fpKeys c) (selectDepth x.d) x.list, .rerankWait) ∧
      t = { s with j := { s.j with sw := { s.j.sw with ctxs := t.j.sw.ctxs } } } := by
  have hkeep : ∀ f, (s.j.mapCtx id f).coarseIfDegraded id = s.j.mapCtx id f := fun f => coarseIfDegraded_of_not id hdeg
  have hexec := exec_mergeComplete hs hx hphase hc
  simp only [hstep7, if_true, hkeep] at hexec
  refine ⟨_, hexec, ?_, rfl⟩
  rw [ctx?_mapCtx_self (f := merged _ _ _ _) (fun _ => rfl) hx]
  rfl
end

/-- Settles O9: each event by its equation; what a selection's end queues for the vault leaves the rider's list alone. -/
theorem selectionAndMerge : Obligations.SelectionAndMerge := by
  refine ⟨fun s c y e x cl hs hc hy hroom he hx hcl hb hlen hne => ?_,
    fun s c y e x cl b hs hc hy hroom he hx hcl hb hlate => ?_,
    fun s id x hs hx hsel => overflowSelection_keepsFirst hs hx hsel, fun s id c x b hs hc hx hb => ?_,
    fun s id x hs hx hphase hsel hnone => exec_mergeStart hs hx hphase hsel hnone,
    fun s id x c hs hx hphase hc hrerank hpay => mergeComplete_delivers hs hx hphase hc hrerank ?_,
    fun s id x c hs hx hphase hc hwork hdeg => mergeComplete_waits hs hx hphase hc ?_ hdeg⟩
  · rw [exec_admissionArrival hs hc hy hroom he hx hcl, arrive_of_room hb hlen hne]
  · rw [exec_admissionArrival hs hc hy hroom he hx hcl, arrive_of_stale hb hlate]
  · exact ⟨_, exec_boundaryInstall id hs hc,
      (ctx?_mapCtx_self (installed_id c) hx).trans (congrArg some (installed_of_boundary hb)),
      fun k hk => ctx?_mapCtx_ne (installed_id c) hk, rfl⟩
  · rcases hpay with h | h <;> simp [h]
  · rcases hwork with h | ⟨h, h'⟩
    · simp [h]
    · simp [h, h']

end Sys2Proof.Machine
end

section
namespace Sys2Proof.Machine
open Jenjor

/-! ### What work on a query leaves alone (R147 to R155) -/

namespace Jenjor

/-- `b` with what the Spectrograph's work changes taken from `k`: its own state, the contexts, the counters, what is sent, and
the heat of the objects read. -/
def servedAs (b k : Jenjor) : Jenjor :=
  { b with spg := k.spg, sw := { b.sw with ctxs := k.sw.ctxs }, ctrs := k.ctrs, out := k.out,
           cat := { b.cat with objs := k.cat.objs } }

theorem servedAs_trans {b k l : Jenjor} (h : k = b.servedAs k) (h' : l = k.servedAs l) : l = b.servedAs l :=
  h'.trans (congrArg (fun m => m.servedAs l) h)

/-- A line holds the page, used now, and no rekey has marked it (R150, R388). -/
def holdsFresh (j : Jenjor) (page : Nat) : Prop := ∃ l ∈ j.spg.lines, l.page = page ∧ l.lastUse = j.time ∧ l.stale = false

theorem holdsFresh_touchLine {j : Jenjor} {page : Nat} (p : Nat) (h : j.holdsFresh page) : (j.touchLine p).holdsFresh page := by
  obtain ⟨l, hl, hpage, huse, hstale⟩ := h
  unfold touchLine
  split
  · exact ⟨l, hl, hpage, huse, hstale⟩
  · refine ⟨_, List.mem_map_of_mem hl, ?_⟩
    split
    · exact ⟨hpage, rfl, hstale⟩
    · exact ⟨hpage, huse, hstale⟩

/-- Only a marked line is dropped. -/
theorem holdsFresh_dropStale {j : Jenjor} {page : Nat} (h : j.holdsFresh page) : j.dropStale.holdsFresh page := by
  obtain ⟨l, hl, hpage, huse, hstale⟩ := h
  exact ⟨l, List.mem_filter.2 ⟨hl, by simp [hstale]⟩, hpage, huse, hstale⟩

theorem servedAs_touchLine (j : Jenjor) (p : Nat) : j.touchLine p = j.servedAs (j.touchLine p) := by
  unfold touchLine
  split <;> rfl

end Jenjor

/-- A state that the Spectrograph's work has reached from `b`: the lines used now are still held. -/
structure Served (b k : Jenjor) : Prop where
  frame : k = b.servedAs k
  fresh : ∀ page, b.holdsFresh page → k.holdsFresh page

namespace Served
variable {b k : Jenjor}

theorem refl (b : Jenjor) : Served b b := ⟨rfl, fun _ h => h⟩

theorem foldl {α : Type} {f : Jenjor → α → Jenjor} (hf : ∀ k x, Served b k → Served b (f k x)) (l : List α) (h : Served b k) :
    Served b (l.foldl f k) := by
  induction l generalizing k with
  | nil => exact h
  | cons x l ih => exact ih (hf k x h)

variable (h : Served b k)
include h

theorem next {l : Jenjor} (hframe : l = k.servedAs l := by rfl)
    (hfresh : ∀ page, k.holdsFresh page → l.holdsFresh page := by exact fun _ h => h) : Served b l where
  frame := servedAs_trans h.frame hframe
  fresh page hb := hfresh page (h.fresh page hb)

theorem qs : k.qs = b.qs := (congrArg Jenjor.qs h.frame).trans rfl

end Served

/-- What a query's step 7 aims at: its phase, its result, and whether that is a rerank's. -/
def aim (x : Ctx) : CtxPhase × List Entry × Bool := (x.phase, x.final, x.reranked)

/-- A state that work on the entries of query `id` has reached from `b`: the core and the query's aim stand, and only a payload
fetch touches the catalogue. -/
structure Works (id : Nat) (b k : Jenjor) : Prop extends Served b k where
  cores : k.spg.cores = b.spg.cores
  rider : (k.ctx? id).map aim = (b.ctx? id).map aim
  cat : (∀ x, b.ctx? id = some x → x.phase ≠ .payloadFetch) → k.cat = b.cat

namespace Works
variable {id : Nat} {b k : Jenjor}

theorem refl (id : Nat) (b : Jenjor) : Works id b b := ⟨.refl b, rfl, rfl, fun _ => rfl⟩

theorem foldl {α : Type} {f : Jenjor → α → Jenjor} (hf : ∀ k x, Works id b k → Works id b (f k x)) (l : List α)
    (h : Works id b k) : Works id b (l.foldl f k) := by
  induction l generalizing k with
  | nil => exact h
  | cons x l ih => exact ih (hf k x h)

variable (h : Works id b k)
include h

/-- A query has its aim from the start of the work. -/
theorem exists_rider {x : Ctx} (hx : b.ctx? id = some x) : ∃ y, k.ctx? id = some y ∧ aim y = aim x := by
  have hrider := h.rider
  rw [hx] at hrider
  exact Option.map_eq_some_iff.1 hrider

theorem next {l : Jenjor} (hframe : l = k.servedAs l := by rfl)
    (hfresh : ∀ page, k.holdsFresh page → l.holdsFresh page := by exact fun _ h => h)
    (hcores : l.spg.cores = k.spg.cores := by rfl) (hrider : (l.ctx? id).map aim = (k.ctx? id).map aim := by rfl)
    (hcat : l.cat = k.cat := by rfl) : Works id b l where
  toServed := h.toServed.next hframe hfresh
  cores := hcores.trans h.cores
  rider := hrider.trans h.rider
  cat hb := hcat.trans (h.cat hb)

theorem count (blk off : Nat) : Works id b (k.count blk off) := h.next

theorem dropStale : Works id b k.dropStale := h.next (hfresh := fun _ => holdsFresh_dropStale)

theorem mapCtx (i : Nat) {f : Ctx → Ctx} (hid : ∀ x, (f x).id = x.id := by exact fun _ => rfl)
    (haim : ∀ x, aim (f x) = aim x := by exact fun _ => rfl) : Works id b (k.mapCtx i f) := by
  refine h.next (hrider := ?_)
  rw [ctx?_mapCtx hid, Option.map_map]
  congr 1
  funext x
  exact (apply_ite aim _ _ _).trans (ite_eq_right_iff.2 fun _ => haim x)

theorem touchLine (p : Nat) : Works id b (k.touchLine p) := by
  refine h.next (servedAs_touchLine k p) (fun _ => holdsFresh_touchLine p) ?_ ?_ ?_
  all_goals
    unfold Jenjor.touchLine
    split <;> rfl

theorem demand (i p : Nat) : Works id b (k.demand i p) := by
  unfold Jenjor.demand
  split
  · exact h.next
  · split
    · exact h
    · exact h.next

/-- Probing counts, touches and demands (R147, R150). -/
theorem probe (i fuel : Nat) : Works id b (probe i fuel k) := by
  induction fuel generalizing k with
  | zero => exact h
  | succ fuel ih =>
    have hcounted : ∀ (p : Bool) (l : Jenjor), Works id b l → Works id b (if p then l.count blkSPG 0x130 else l) := by
      intro p l hl
      split
      · exact hl.count ..
      · exact hl
    unfold Jenjor.probe
    cases k.ctx? i with
    | none => exact h
    | some x =>
      dsimp only
      split
      case h_1 c e _ _ =>
        split
        · exact h
        · exact ih ((foldl (fun _ p h => h.demand i p) _
            (hcounted _ _ (foldl (fun _ p h => h.touchLine p) _ h))).mapCtx i)
      case h_2 => exact h

theorem unpin (i : Nat) : Works id b (k.unpin i) := by
  unfold Jenjor.unpin
  cases k.ctx? i with
  | none => exact h
  | some x =>
    dsimp only
    split
    · exact h
    · exact (h.mapCtx i).dropStale

theorem scoreEntry (mem : List Host.Cell) (c : Coll) (x : Ctx) (e : Entry) : Works id b (scoreEntry mem k c x e) := by
  unfold Jenjor.scoreEntry
  split
  · exact (h.count ..).mapCtx _
  · have hused : ∀ p : Bool, Works id b (if p then k.count blkSPG 0x120 else k) := by
      rintro (_ | _)
      · exact h
      · exact h.count ..
    dsimp only
    split
    · exact ((hused _).count ..).mapCtx _
    · exact (hused _).mapCtx _

/-- A payload raises the heat of its table (R242). -/
theorem takePayload {x : Ctx} (hx : k.ctx? id = some x) (hpay : x.phase = .payloadFetch) (mem : List Host.Cell) (c : Coll)
    (e : Entry) : Works id b (takePayload mem k c x e) := by
  have htouch : ∀ o, Works id b (k.touch o) := fun o =>
    { toServed := h.toServed.next, cores := h.cores, rider := h.rider,
      cat := fun hno => by
        obtain ⟨y, hy, haim⟩ := Option.map_eq_some_iff.1 (h.rider.symm.trans (congrArg (Option.map aim) hx))
        exact absurd ((congrArg Prod.fst haim).trans hpay) (hno y hy) }
  unfold Jenjor.takePayload
  split
  · split
    · exact h
    · exact (htouch _).mapCtx _
  · exact h

theorem advance (mem : List Host.Cell) (fuel : Nat) : Works id b (advance mem id fuel k) := by
  induction fuel generalizing k with
  | zero => exact h
  | succ fuel ih =>
    have hprobed := h.probe id 1025
    unfold Jenjor.advance
    dsimp only
    cases hx : (Jenjor.probe id 1025 k).ctx? id with
    | none => exact hprobed
    | some x =>
      dsimp only
      split
      case h_1 c e _ _ =>
        split
        · exact hprobed
        · split
          · exact foldl (fun _ p h => h.demand id p) _ hprobed
          · refine ih (((?_ : Works id b _).mapCtx id).unpin id)
            split
            next hpay => exact hprobed.takePayload hx hpay mem c e
            · exact hprobed.scoreEntry mem c x e
      case h_2 => exact hprobed

end Works
end Sys2Proof.Machine
end

section
namespace Sys2Proof.Machine
open Jenjor

/-! ### The coarse path and the end of step 7 (R155, R156) -/

/-- A query that has taken the coarse path. -/
def coarsened (x : Ctx) : Ctx := { x with tookCoarse := true, phase := .delivering, pins := [] }

/-- A query whose step 7 has ended within its deadline. -/
def step7Ended (x : Ctx) : Ctx := { x with phase := .delivering, pins := [] }

/-- The cores without a query. -/
def coresWithout (id : Nat) (l : List (Option Nat)) : List (Option Nat) := l.map fun o => if o = some id then none else o

theorem ne_of_mem_coresWithout {id : Nat} {l : List (Option Nat)} : ∀ o ∈ coresWithout id l, o ≠ some id := by
  intro o ho
  obtain ⟨o', -, rfl⟩ := List.mem_map.1 ho
  split
  · nofun
  · assumption

theorem getD_coresWithout {id core : Nat} {l : List (Option Nat)} (h : l.getD core none = some id) :
    (coresWithout id l).getD core none = none :=
  (List.getD_map l none fun o => if o = some id then none else o).trans (by rw [h]; exact if_pos rfl)

namespace Jenjor
variable {j : Jenjor} {id : Nat} {x : Ctx}

theorem ctx?_coarsePath (j : Jenjor) (i k : Nat) :
    (j.coarsePath i).ctx? k = (j.ctx? k).map fun x => if x.id == i then coarsened x else x :=
  ctx?_mapCtx (f := coarsened) (fun _ => rfl) i k

theorem ctx?_coarsePath_self (hx : j.ctx? id = some x) : (j.coarsePath id).ctx? id = some (coarsened x) :=
  ctx?_mapCtx_self (f := coarsened) (fun _ => rfl) hx

theorem cores_coarsePath (j : Jenjor) (id : Nat) : (j.coarsePath id).spg.cores = coresWithout id j.spg.cores := rfl

/-- The reads go on without the query. -/
theorem readPages_coarsePath (j : Jenjor) (id : Nat) :
    (j.coarsePath id).spg.reads.map (fun r => r.page) = j.spg.reads.map fun r => r.page := List.map_map

theorem coarseIfDegraded_cases (j : Jenjor) (id : Nat) : j.coarseIfDegraded id = j ∨ j.coarseIfDegraded id = j.coarsePath id := by
  unfold coarseIfDegraded
  cases j.ctx? id with
  | none => exact .inl rfl
  | some x =>
    dsimp only
    split
    · exact .inl rfl
    · split
      · exact .inr rfl
      · exact .inl rfl

theorem ctx?_endStep7 (hx : j.ctx? id = some x) : (j.endStep7 id).ctx? id = some (step7Ended x) :=
  ctx?_mapCtx_self (f := step7Ended) (fun _ => rfl) hx

theorem cores_endStep7 (j : Jenjor) (id : Nat) : (j.endStep7 id).spg.cores = coresWithout id j.spg.cores := rfl

theorem counter_endStep7 (j : Jenjor) (id : Nat) :
    ((j.endStep7 id).counter 0x60100).count = (j.counter 0x60100).count + 1 :=
  congrArg Ctr.count (counter_bump _ 0x60100 1 0x60100)

/-- Work advances the query's entries, and ends step 7 where that was a payload fetch. -/
theorem work_cases (mem : List Host.Cell) (j : Jenjor) (id : Nat) : ∃ k, Works id j k ∧
    (j.work mem id = k ∨ j.work mem id = k.endStep7 id ∧ ∃ x, k.ctx? id = some x ∧ x.phase = .payloadFetch) := by
  refine ⟨if (j.ctx? id).any onCore then advance mem id 4097 j else j, ?_, ?_⟩
  · split
    · exact (Works.refl id j).advance mem 4097
    · exact .refl id j
  · unfold work
    generalize (if (j.ctx? id).any onCore then advance mem id 4097 j else j) = k
    dsimp only
    cases hx : k.ctx? id with
    | none => exact .inl rfl
    | some x =>
      dsimp only
      split
      next hdone => exact .inr ⟨rfl, x, rfl, hdone.1⟩
      · exact .inl rfl

/-- A query whose payloads are fetched, or which goes to delivery. -/
def fetchesOrDelivers (x : Ctx) : Prop := x.phase = .payloadFetch ∨ x.phase = .delivering

theorem work_rider (mem : List Host.Cell) (hx : j.ctx? id = some x) (hphase : fetchesOrDelivers x) :
    ∃ y, (j.work mem id).ctx? id = some y ∧ y.final = x.final ∧ y.reranked = x.reranked ∧ fetchesOrDelivers y := by
  obtain ⟨k, hk, hwork⟩ := work_cases mem j id
  obtain ⟨y, hy, haim⟩ := hk.exists_rider hx
  obtain ⟨hyphase, hfinal, hreranked⟩ : y.phase = x.phase ∧ y.final = x.final ∧ y.reranked = x.reranked := by
    simpa [aim] using haim
  obtain hwork | ⟨hwork, -⟩ := hwork
  · exact ⟨y, hwork ▸ hy, hfinal, hreranked, by rwa [fetchesOrDelivers, hyphase]⟩
  · exact ⟨step7Ended y, hwork ▸ ctx?_endStep7 hy, hfinal, hreranked, .inr rfl⟩

/-- A query at the start of its payload reads. -/
def payloadsBegun (x : Ctx) : Ctx := { x with phase := .payloadFetch, rpos := 0, probed := 0, pins := [] }

theorem beginPayloads_rider (mem : List Host.Cell) (hx : j.ctx? id = some x) :
    ∃ y, (j.beginPayloads mem id).ctx? id = some y ∧ y.final = x.final ∧ y.reranked = x.reranked ∧ fetchesOrDelivers y := by
  have hbegun : (j.mapCtx id payloadsBegun).dropStale.ctx? id = some (payloadsBegun x) :=
    ctx?_mapCtx_self (f := payloadsBegun) (fun _ => rfl) hx
  change ∃ y, (((j.mapCtx id payloadsBegun).dropStale.coarseIfDegraded id).work mem id).ctx? id = some y ∧ _
  obtain h | h := coarseIfDegraded_cases (j.mapCtx id payloadsBegun).dropStale id
  · rw [h]
    exact work_rider (x := payloadsBegun x) mem hbegun (.inl rfl)
  · rw [h]
    exact work_rider (x := coarsened (payloadsBegun x)) mem (ctx?_coarsePath_self hbegun) (.inr rfl)

end Jenjor

namespace Served
variable {b k : Jenjor} (h : Served b k)
include h

theorem coarsePath (id : Nat) : Served b (k.coarsePath id) := h.next (hfresh := fun _ hk => holdsFresh_dropStale hk)

theorem endStep7 (id : Nat) : Served b (k.endStep7 id) := h.next (hfresh := fun _ hk => holdsFresh_dropStale hk)

theorem trans {l : Jenjor} (h' : Served k l) : Served b l := h.next h'.frame h'.fresh

theorem work (mem : List Host.Cell) (id : Nat) : Served b (k.work mem id) := by
  obtain ⟨l, hl, hwork | ⟨hwork, -⟩⟩ := work_cases mem k id
  · exact hwork ▸ h.trans hl.toServed
  · exact hwork ▸ (h.trans hl.toServed).endStep7 id

theorem beginPayloads (mem : List Host.Cell) (id : Nat) : Served b (k.beginPayloads mem id) := by
  have hbegun : Served b (k.mapCtx id payloadsBegun).dropStale := h.next (hfresh := fun _ hk => holdsFresh_dropStale hk)
  refine Served.work ?_ mem id
  obtain hc | hc := coarseIfDegraded_cases (k.mapCtx id payloadsBegun).dropStale id
  · exact Eq.subst (motive := Served b) hc.symm hbegun
  · exact Eq.subst (motive := Served b) hc.symm (hbegun.coarsePath id)

end Served
end Sys2Proof.Machine
end

section
namespace Sys2Proof.Machine
open Jenjor

/-! ### Lines of the record cache (R149, R150, R247) -/

theorem argmin_filter_isSome {α : Type} (f : α → Nat) (p : α → Bool) (l : List α) : (argmin f (l.filter p)).isSome = l.any p := by
  have hsome : ∀ l : List α, (argmin f l).isSome = !l.isEmpty := fun l => by cases l <;> rfl
  rw [hsome, Bool.eq_iff_iff]
  simp

theorem argmin_mem {α : Type} {f : α → Nat} {l : List α} {x : α} (h : argmin f l = some x) : x ∈ l := by
  have hfold : ∀ (l : List α) (a : α), l.foldl (fun b y => if f y < f b then y else b) a ∈ a :: l := by
    intro l
    induction l with
    | nil => exact fun a => List.mem_singleton.2 rfl
    | cons y l ih =>
      intro a
      obtain hhead | htail := List.mem_cons.1 (ih (if f y < f a then y else a))
      · simp only [List.foldl_cons, hhead]
        split <;> simp
      · exact List.mem_cons_of_mem a (List.mem_cons_of_mem y htail)
  cases l with
  | nil => simp [argmin] at h
  | cons a l => exact Option.some.inj h ▸ hfold l a

namespace Jenjor
variable {j : Jenjor}

/-- The module but for the lines of the record cache and the heat of its pages. -/
def besidesLines (j : Jenjor) : Jenjor := { j with spg := { j.spg with lines := [], cachePages := [] } }

theorem besidesLines_touchLine (j : Jenjor) (p : Nat) : (j.touchLine p).besidesLines = j.besidesLines := by
  unfold touchLine
  split <;> rfl

theorem map_touchLine_lines {α : Type} {f : Line → α} (hf : ∀ l t, f { l with lastUse := t } = f l) (j : Jenjor) (p : Nat) :
    (j.touchLine p).spg.lines.map f = j.spg.lines.map f := by
  unfold touchLine
  split
  · rfl
  · refine List.map_map.trans (List.map_congr_left fun l _ => ?_)
    exact (apply_ite f _ _ _).trans (ite_eq_right_iff.2 fun _ => hf l _)

theorem map_touchLine_cachePages (j : Jenjor) (p : Nat) :
    (j.touchLine p).spg.cachePages.map (fun p => p.1) = j.spg.cachePages.map fun p => p.1 := by
  unfold touchLine
  split
  · rfl
  · exact List.map_map.trans (List.map_congr_left fun q _ => (apply_ite Prod.fst _ _ _).trans (ite_self _))

/-- Whether a read finds a line turns on the cache pages, the places of the lines and the pages they hold, not on heat or use. -/
theorem hasLine_eq (j : Jenjor) : j.hasLine = (((j.spg.cachePages.map fun p => p.1).any fun h =>
    decide (((j.spg.lines.map fun l => l.home).filter (· == h)).length < linesPerPage))
      || (j.besidesLines.place.photometric && decide (j.spg.cachePages.length < j.besidesLines.spg.cacheMax)
        && decide (0 < 153600 - (j.besidesLines.poolUsed + j.spg.cachePages.length)))
      || (j.spg.lines.map fun l => l.page).any fun p => !j.besidesLines.pinnedPages.contains p) := by
  unfold hasLine freeHome victimLine
  rw [argmin_filter_isSome, argmin_filter_isSome]
  simp only [List.any_map, List.filter_map, List.length_map]
  rfl

theorem hasLine_touchLine (j : Jenjor) (p : Nat) : (j.touchLine p).hasLine = j.hasLine := by
  have hlen : (j.touchLine p).spg.cachePages.length = j.spg.cachePages.length := by
    simpa using congrArg List.length (map_touchLine_cachePages j p)
  rw [hasLine_eq, hasLine_eq, map_touchLine_lines (fun _ _ => rfl), map_touchLine_lines (fun _ _ => rfl),
    map_touchLine_cachePages, besidesLines_touchLine, hlen]

/-! ### Page reads (R147 to R149) -/

/-- Read pages from the vault, each where a line will take it. -/
def issueReads (ps : List Nat) (j : Jenjor) : Jenjor :=
  ps.foldl (fun j p => if j.hasLine then j.issueRead p false [] else j.count blkSPG 0x118) j

theorem issueReads_of_hasLine (ps : List Nat) (h : j.hasLine = true) : ∃ ctrs, issueReads ps j = { j with
    spg := { j.spg with reads := j.spg.reads ++ ps.map fun p => { page := p, demand := false, waiters := [] } },
    out := (ps.map Output.vaultRead).reverse ++ j.out, ctrs := ctrs } := by
  induction ps generalizing j with
  | nil => exact ⟨j.ctrs, by simp [issueReads]⟩
  | cons p ps ih =>
    obtain ⟨ctrs, hrest⟩ := ih (j := j.issueRead p false []) h
    refine ⟨ctrs, ?_⟩
    unfold issueReads at hrest ⊢
    rw [List.foldl_cons, if_pos h, hrest]
    simp [issueRead, emit, count, bump]

/-- Take up the speculative requests that wait for room in their cluster's queue. -/
def queueTodos (ids : List Nat) (j : Jenjor) : Jenjor := ids.foldl (fun j id => queueSpec id 1025 j) j

/-- The module but for its query contexts and clusters. -/
def besidesQueries (j : Jenjor) : Jenjor := { j with sw := { j.sw with ctxs := [], clusters := [] } }

theorem queueTodos_frame (ids : List Nat) (j : Jenjor) : queueTodos ids j = { j with
    sw := { j.sw with ctxs := (queueTodos ids j).sw.ctxs, clusters := (queueTodos ids j).sw.clusters } } :=
  congrArg (fun m : Jenjor => { m with
      sw := { m.sw with ctxs := (queueTodos ids j).sw.ctxs, clusters := (queueTodos ids j).sw.clusters } })
    (foldl_keeps (φ := besidesQueries) _ (fun k id => (congrArg besidesQueries (queueSpec_requests id 1025 k).frame).trans rfl) ids j)

/-- Note the use of the lines that hold the pages. -/
def touchLines (ps : List Nat) (j : Jenjor) : Jenjor := ps.foldl touchLine j

theorem touchLines_frame (ps : List Nat) (j : Jenjor) : touchLines ps j = { j with
    spg := { j.spg with lines := (touchLines ps j).spg.lines, cachePages := (touchLines ps j).spg.cachePages } } :=
  congrArg (fun m : Jenjor => { m with
      spg := { m.spg with lines := (touchLines ps j).spg.lines, cachePages := (touchLines ps j).spg.cachePages } })
    (foldl_keeps (φ := besidesLines) _ besidesLines_touchLine ps j)

theorem linePages_touchLines (ps : List Nat) (j : Jenjor) :
    (touchLines ps j).spg.lines.map (fun l => l.page) = j.spg.lines.map fun l => l.page :=
  foldl_keeps (φ := fun k => k.spg.lines.map fun l => l.page) _ (map_touchLine_lines fun _ _ => rfl) ps j

theorem hasLine_touchLines (ps : List Nat) (j : Jenjor) : (touchLines ps j).hasLine = j.hasLine :=
  foldl_keeps (φ := hasLine) _ hasLine_touchLine ps j

/-- The page takes a free line, one of a new cache page, or the victim's. -/
theorem fillLine_of_hasLine (page : Nat) (spec : Bool) (h : j.hasLine = true) : ∃ g : SpgState,
    j.fillLine page spec = ({ j with spg := g } : Jenjor).touchLine page ∧ ({ j with spg := g } : Jenjor).holdsFresh page := by
  have hadded : ∀ (ls : List Line) (l : Line), l ∈ ls ++ [l] := fun ls l => by simp
  unfold fillLine
  cases hfree : j.freeHome with
  | some home => exact ⟨_, rfl, _, hadded _ _, rfl, rfl, rfl⟩
  | none =>
    dsimp only
    split
    · exact ⟨_, rfl, _, hadded _ _, rfl, rfl, rfl⟩
    next hgrow =>
      cases hvictim : j.victimLine with
      | some v => exact ⟨_, rfl, _, hadded _ _, rfl, rfl, rfl⟩
      | none => simp [hasLine, hfree, hgrow, hvictim] at h

/-- Filling a line is the Spectrograph's alone, and the line is one used now. -/
theorem fillLine_fills (page : Nat) (spec : Bool) (h : j.hasLine = true) :
    j.fillLine page spec = j.servedAs (j.fillLine page spec) ∧ (j.fillLine page spec).holdsFresh page := by
  obtain ⟨g, hfill, hfresh⟩ := fillLine_of_hasLine page spec h
  rw [hfill]
  exact ⟨(servedAs_touchLine _ _).trans rfl, holdsFresh_touchLine page hfresh⟩

end Jenjor
end Sys2Proof.Machine
end

section
namespace Sys2Proof.Machine
open Jenjor

/-! ### Speculative requests (R147, R148, R150) -/

namespace Jenjor

/-- The pages of a speculative request: of the payload or of the record. -/
def requestPages (j : Jenjor) (cl : Coll) (r : Nat × Bool × Entry) : List Nat :=
  if r.2.1 then payloadPages j cl r.2.2 else recordPages j cl r.2.2

/-- The pages that no line holds and no read fetches. -/
def pagesUnread (j : Jenjor) (pages : List Nat) : List Nat := pages.filter fun p => (j.line? p).isNone && !j.reading p

/-- The pages that a request reads: none while the vault is degraded (R155). -/
def pagesIssued (j : Jenjor) (pages : List Nat) : List Nat := if j.degraded then [] else j.pagesUnread pages

/-- The oldest request is off the queue of cluster `c`, `rest` are left, and the lines that hold its pages are used. -/
def requestTaken (j : Jenjor) (c : Nat) (rest : List (Nat × Bool × Entry)) (pages : List Nat) : Jenjor :=
  touchLines (pages.filter fun p => (j.line? p).isSome) (j.mapCluster c fun y => { y with specq := rest })

/-- The request is taken and its other pages are read. -/
def requestIssued (j : Jenjor) (c : Nat) (rest : List (Nat × Bool × Entry)) (pages : List Nat) : Jenjor :=
  issueReads (j.pagesIssued pages) (j.requestTaken c rest pages)

/-- The queries with requests that wait for room in a cluster's queue. -/
def todoIds (j : Jenjor) : List Nat := (j.sw.ctxs.filter fun x => !x.specTodo.isEmpty).map fun x => x.id

/-- What issuing a request changes: the reads, the lines that are used, the vault reads sent, the counters and the queue. -/
theorem requestIssued_eq {j : Jenjor} (c : Nat) (rest : List (Nat × Bool × Entry)) (pages : List Nat) (hline : j.hasLine = true) :
    ∃ lines cachePages ctrs, lines.map (fun l => l.page) = j.spg.lines.map (fun l => l.page) ∧
      j.requestIssued c rest pages = { j.mapCluster c fun y => { y with specq := rest } with
        spg := { j.spg with
          reads := j.spg.reads ++ (j.pagesIssued pages).map fun p => { page := p, demand := false, waiters := [] }
          lines := lines, cachePages := cachePages },
        out := ((j.pagesIssued pages).map Output.vaultRead).reverse ++ j.out, ctrs := ctrs } := by
  obtain ⟨ctrs, hissue⟩ := issueReads_of_hasLine (j := j.requestTaken c rest pages) (j.pagesIssued pages)
    ((hasLine_touchLines _ _).trans hline)
  refine ⟨(j.requestTaken c rest pages).spg.lines, (j.requestTaken c rest pages).spg.cachePages, ctrs,
    linePages_touchLines _ _, ?_⟩
  rw [requestIssued, hissue, requestTaken, touchLines_frame]
  rfl

end Jenjor

section
variable {s : State} {c : Nat} {y : Cluster} {r : Nat × Bool × Entry} {rest : List (Nat × Bool × Entry)} {x : Ctx} {cl : Coll}
  (hs : s.j.live = true) (hc : c < 18) (hy : s.j.cluster? c = some y) (hspec : y.specq = r :: rest)
  (hx : s.j.ctx? r.1 = some x) (hcl : s.j.coll? x.coll = some cl)
  (hroom : s.j.spg.reads.length + (s.j.pagesUnread (s.j.requestPages cl r)).length ≤ 65536)
include hs hc hy hspec hx hcl hroom

theorem exec_specRequestIssue :
    let k := s.j.requestIssued c rest (s.j.requestPages cl r)
    exec (.specRequestIssue c) s = .next { s with j := queueTodos k.todoIds k } := by
  let pages := s.j.requestPages cl r
  let taken := s.j.requestTaken c rest pages
  let issued := if taken.degraded then taken else issueReads (s.j.pagesUnread pages) taken
  have hissued : issued = s.j.requestIssued c rest pages := by
    have hdegraded : taken.degraded = s.j.degraded :=
      (congrArg Jenjor.degraded (touchLines_frame _ _)).trans rfl
    change (if taken.degraded then _ else _) = _
    rw [hdegraded]
    unfold requestIssued pagesIssued
    split <;> rfl
  refine (onUnit_onBlocks hs _ (decide_eq_true hc)).trans ?_
  simp only [hy, hspec, hx, hcl, Option.bind_some]
  change Host.Outcome.next { s with j :=
    if 65536 < s.j.spg.reads.length + (s.j.pagesUnread pages).length then s.j else queueTodos issued.todoIds issued } = _
  rw [if_neg (Nat.not_lt.2 hroom), hissued]

theorem specRequestIssue_reads (hline : s.j.hasLine = true) :
    ∃ t, exec (.specRequestIssue c) s = .next t ∧
      t.j.spg = { s.j.spg with
        reads := s.j.spg.reads ++ (s.j.pagesIssued (s.j.requestPages cl r)).map fun p =>
          { page := p, demand := false, waiters := [] }
        lines := t.j.spg.lines, cachePages := t.j.spg.cachePages } ∧
      t.j.spg.lines.map (fun l => l.page) = s.j.spg.lines.map (fun l => l.page) ∧
      t.j.out = ((s.j.pagesIssued (s.j.requestPages cl r)).map Output.vaultRead).reverse ++ s.j.out ∧
      ((∀ y ∈ s.j.sw.ctxs, y.specTodo = []) → (t.j.cluster? c).map (fun z => z.specq) = some rest) ∧
      t = { s with j := { s.j with sw := { s.j.sw with clusters := t.j.sw.clusters, ctxs := t.j.sw.ctxs }, spg := t.j.spg,
                                   out := t.j.out, ctrs := t.j.ctrs } } := by
  obtain ⟨lines, cachePages, ctrs, hpages, hissued⟩ := requestIssued_eq c rest (s.j.requestPages cl r) hline
  have hexec := exec_specRequestIssue hs hc hy hspec hx hcl hroom
  dsimp only at hexec
  generalize s.j.requestIssued c rest (s.j.requestPages cl r) = k at hexec hissued
  subst hissued
  refine ⟨_, hexec, ?_, ?_, ?_, fun htodo => ?_, ?_⟩
  · rw [queueTodos_frame]
  · rw [queueTodos_frame]; exact hpages
  · rw [queueTodos_frame]
  · have hnone : todoIds (s.j.mapCluster c fun y => { y with specq := rest }) = [] := by
      change todoIds s.j = []
      simpa [todoIds] using htodo
    have htaken := cluster?_mapCluster (fun y => { y with specq := rest }) (fun _ => rfl) hy
    change ((queueTodos (todoIds (s.j.mapCluster c fun y => { y with specq := rest })) _).cluster? c).map _ = _
    rw [hnone]
    exact congrArg (Option.map fun z => z.specq) htaken
  · rw [queueTodos_frame]; rfl
end

/-! ### Page reads that end (R149, R156) -/

theorem onUnit_onReading {s : State} {b : Bool} (f : List Host.Cell → List Host.Cell → Jenjor → Jenjor) (hs : s.j.live = true)
    (hb : b = true) : onUnit b (onReading f s) = .next { s with j := f s.mem s.rmem s.j } :=
  (if_pos hb).trans (onReading_of_live f hs)

namespace Jenjor

/-- The module without a page read. -/
def withoutRead (j : Jenjor) (r : PageRead) : Jenjor := { j with spg := { j.spg with reads := j.spg.reads.erase r } }

/-- The page fills a line, and the queries that wait for it or for room in the table of reads go on (R149). -/
def pageArrived (mem : List Host.Cell) (j : Jenjor) (page : Nat) (r : PageRead) : Jenjor :=
  (r.waiters ++ j.spg.cores.filterMap id).eraseDups.foldl (fun j id => j.work mem id) ((j.withoutRead r).fillLine page (!r.demand))

/-- The line that the page fills is still there after all the work that goes on. -/
theorem pageArrived_fills {j : Jenjor} (mem : List Host.Cell) (page : Nat) (r : PageRead) (hline : j.hasLine = true) :
    j.pageArrived mem page r = j.servedAs (j.pageArrived mem page r) ∧ (j.pageArrived mem page r).holdsFresh page := by
  obtain ⟨hframe, hfresh⟩ := fillLine_fills (j := j.withoutRead r) page (!r.demand) hline
  have hserved : Served ((j.withoutRead r).fillLine page (!r.demand)) (j.pageArrived mem page r) :=
    .foldl (fun _ id h => h.work mem id) _ (.refl _)
  exact ⟨servedAs_trans (hframe.trans rfl) hserved.frame, hserved.fresh page hfresh⟩

/-- The report of a record page that cannot be read. -/
def pageFault (j : Jenjor) (page : Nat) : Jenjor := (j.count blkSPG 0x148).fault 2 blkSPG 0 0x148 (page * 16384) 0 0

theorem failRecordPage_of_reading {j : Jenjor} {page : Nat} {r : PageRead}
    (hr : (j.spg.reads.find? fun r => r.page == page) = some r) :
    j.failRecordPage page = r.waiters.foldl coarsePath ((j.withoutRead r).pageFault page) := by
  unfold failRecordPage
  rw [hr]
  rfl

theorem pageFault_counter (j : Jenjor) (page : Nat) :
    ((j.pageFault page).counter 0x60148).count = (j.counter 0x60148).count + 1 := by
  rw [pageFault, counter_fault _ _ _ _ _ _ _ _ _ (by decide)]
  exact congrArg Ctr.count (counter_bump j 0x60148 1 0x60148)

theorem pageFault_errClass (j : Jenjor) (page : Nat) : (j.pageFault page).log.errClass.getLsbD 0 = true := by
  rw [pageFault, fault_errClass _ _ _ _ _ _ _ _ (by decide)]
  simp

/-- The query, if it stands, has taken the coarse path. -/
def tookCoarsePath (w : Nat) (j : Jenjor) : Prop := ∀ x, j.ctx? w = some x → x.phase = .delivering ∧ x.tookCoarse = true

theorem tookCoarsePath_coarsePath {j : Jenjor} {i w : Nat} (h : i = w ∨ j.tookCoarsePath w) : (j.coarsePath i).tookCoarsePath w := by
  intro x hx
  rw [ctx?_coarsePath] at hx
  obtain ⟨x', hx', rfl⟩ := Option.map_eq_some_iff.1 hx
  by_cases hi : x'.id = i
  · simp [hi, coarsened]
  · obtain rfl | h := h
    · exact absurd (id_of_ctx? hx') hi
    · simpa [hi] using h x' hx'

theorem tookCoarsePath_foldl {w : Nat} {ids : List Nat} {j : Jenjor} (h : w ∈ ids ∨ j.tookCoarsePath w) :
    (ids.foldl coarsePath j).tookCoarsePath w := by
  induction ids generalizing j with
  | nil => simpa using h
  | cons i ids ih =>
    refine ih ?_
    obtain hmem | hstands := h
    · obtain rfl | hmem := List.mem_cons.1 hmem
      · exact .inr (tookCoarsePath_coarsePath (.inl rfl))
      · exact .inl hmem
    · exact .inr (tookCoarsePath_coarsePath (.inr hstands))

end Jenjor

section
variable {s : State} {page : Nat} {r : PageRead} (hs : s.j.live = true)
  (hr : (s.j.spg.reads.find? fun r => r.page == page) = some r)
include hs hr

theorem exec_recordPageReadComplete_ok (hline : s.j.hasLine = true) :
    exec (.recordPageReadComplete page true) s = .next { s with j := s.j.pageArrived s.mem page r } := by
  change execRecordPageReadComplete page true s = _
  unfold execRecordPageReadComplete
  rw [onReading_of_live _ hs]
  simp only [hr, hline, Bool.not_true, Bool.and_false, Bool.false_eq_true, if_false, if_true]
  rfl

theorem exec_recordPageReadComplete_failed :
    exec (.recordPageReadComplete page false) s
      = .next { s with j := r.waiters.foldl coarsePath ((s.j.withoutRead r).pageFault page) } := by
  change execRecordPageReadComplete page false s = _
  unfold execRecordPageReadComplete
  rw [onReading_of_live _ hs]
  simp only [hr, Bool.false_and, Bool.false_eq_true, if_false, failRecordPage_of_reading hr]

theorem recordPageReadComplete_fills (hline : s.j.hasLine = true) :
    ∃ t, exec (.recordPageReadComplete page true) s = .next t ∧ (∃ l ∈ t.j.spg.lines, l.page = page ∧ l.lastUse = s.j.time) ∧
      t = { s with j := { s.j with spg := t.j.spg, sw := { s.j.sw with ctxs := t.j.sw.ctxs }, ctrs := t.j.ctrs, out := t.j.out,
                                   cat := { s.j.cat with objs := t.j.cat.objs } } } := by
  obtain ⟨hframe, l, hl, hpage, huse, -⟩ := pageArrived_fills s.mem page r hline
  exact ⟨_, exec_recordPageReadComplete_ok hs hr hline, ⟨l, hl, hpage, huse.trans ((congrArg Jenjor.time hframe).trans rfl)⟩,
    congrArg (fun j => ({ s with j := j } : State)) hframe⟩

theorem recordPageReadComplete_fails :
    ∃ t, exec (.recordPageReadComplete page false) s = .next t ∧
      t.j.spg.reads.map (fun x => x.page) = (s.j.spg.reads.erase r).map (fun x => x.page) ∧
      (t.j.counter 0x60148).count = (s.j.counter 0x60148).count + 1 ∧ t.j.log.errClass.getLsbD 0 = true ∧
      (∀ w ∈ r.waiters, ∀ x, t.j.ctx? w = some x → x.phase = .delivering ∧ x.tookCoarse = true) ∧
      t.mem = s.mem ∧ t.j.cat = s.j.cat := by
  refine ⟨_, exec_recordPageReadComplete_failed hs hr, ?_, ?_, ?_, fun w hw => tookCoarsePath_foldl (.inl hw), rfl, ?_⟩
  · rw [foldl_keeps (φ := fun j => j.spg.reads.map fun x => x.page) coarsePath readPages_coarsePath]
    simp [pageFault, withoutRead]
  · rw [foldl_keeps (φ := fun j => j.counter 0x60148) coarsePath fun _ _ => rfl]
    exact pageFault_counter ..
  · rw [foldl_keeps (φ := Jenjor.log) coarsePath fun _ _ => rfl]
    exact pageFault_errClass ..
  · rw [foldl_keeps (φ := Jenjor.cat) coarsePath fun _ _ => rfl]
    simp [pageFault, withoutRead]
end
end Sys2Proof.Machine
end

section
namespace Sys2Proof.Machine
open Jenjor

/-! ### Reranks that start and end (R142, R154 to R156) -/

namespace Jenjor

/-- Core `core` takes query `id`. -/
def coreTaken (j : Jenjor) (core id : Nat) : Jenjor := { j with spg := { j.spg with cores := j.spg.cores.set core (some id) } }

/-- A query whose rerank runs on `core`. -/
def rerankOn (core : Nat) (x : Ctx) : Ctx := { x with phase := .reranking core }

/-- A query with the first k of what its rerank has scored (R154). -/
def rerankDone (x : Ctx) : Ctx := { x with final := firstOf true (qK x.d) x.scored, reranked := true }

/-- Query `x` starts on `core`: its rerank, or where it has none its payload reads. -/
def started (mem : List Host.Cell) (j : Jenjor) (core : Nat) (x : Ctx) : Jenjor :=
  if qRerank x.d = 0 then (j.coreTaken core x.id).beginPayloads mem x.id
  else ((j.coreTaken core x.id).mapCtx x.id (rerankOn core)).work mem x.id

theorem phase_of_nextRerank {j : Jenjor} {x : Ctx} (h : j.nextRerank = some x) : x.phase = .rerankWait := by
  simpa using (List.mem_filter.1 (argmin_mem h)).2

theorem started_qs (mem : List Host.Cell) (j : Jenjor) (core : Nat) (x : Ctx) : (j.started mem core x).qs = j.qs := by
  have htaken : Served j (j.coreTaken core x.id) := (Served.refl j).next
  unfold started
  split
  · exact (htaken.beginPayloads mem x.id).qs
  · exact (htaken.next.work mem x.id).qs

/-- While a rerank runs its work ends no step 7 and reads no payload. -/
theorem started_reranks {j : Jenjor} {core : Nat} {x : Ctx} (mem : List Host.Cell) (hx : j.ctx? x.id = some x)
    (hrerank : qRerank x.d ≠ 0) :
    (j.started mem core x).spg.cores = j.spg.cores.set core (some x.id) ∧
      ((j.started mem core x).ctx? x.id).map (fun y => y.phase) = some (.reranking core) ∧ (j.started mem core x).cat = j.cat := by
  have hon : ((j.coreTaken core x.id).mapCtx x.id (rerankOn core)).ctx? x.id = some (rerankOn core x) :=
    ctx?_mapCtx_self (f := rerankOn core) (fun _ => rfl) hx
  obtain ⟨k, hk, hwork⟩ := work_cases mem ((j.coreTaken core x.id).mapCtx x.id (rerankOn core)) x.id
  obtain ⟨y, hy, haim⟩ := hk.exists_rider hon
  have hphase : y.phase = .reranking core := congrArg Prod.fst haim
  have hstarted : j.started mem core x = k := by
    rw [started, if_neg hrerank]
    obtain hwork | ⟨-, y', hy', hpay⟩ := hwork
    · exact hwork
    · rw [Option.some.inj (hy.symm.trans hy')] at hphase
      exact absurd (hphase.symm.trans hpay) nofun
  rw [hstarted]
  refine ⟨hk.cores, by rw [hy]; exact congrArg some hphase, hk.cat fun z hz => ?_⟩
  rw [← Option.some.inj (hon.symm.trans hz)]
  nofun

end Jenjor

theorem exec_rerankStart {s : State} {core : Nat} {x : Ctx} (hs : s.j.live = true) (hcore : core < 4)
    (hfree : s.j.spg.cores.getD core none = none) (hstarting : core < s.j.coresStarting) (hwhole : s.j.isl.whole = false)
    (hnext : s.j.nextRerank = some x) (hx : s.j.ctx? x.id = some x) (hdeg : s.j.degraded = false) :
    exec (.rerankStart core) s = .next { s with j := s.j.started s.mem core x } := by
  refine (onUnit_onReading _ hs (decide_eq_true hcore)).trans ?_
  simp only [hfree, hwhole, hnext, coarseIfDegraded_of_not x.id hdeg, hx, Option.any_some, phase_of_nextRerank hnext,
    decide_eq_false (Nat.not_le.2 hstarting), bne_self_eq_false, beq_self_eq_true, Bool.or_self,
    Bool.false_eq_true, if_false, if_true]
  rfl

section
variable {s : State} {core id : Nat} {x : Ctx} (hs : s.j.live = true) (hcore : core < 4)
  (hon : s.j.spg.cores.getD core none = some id) (hx : s.j.ctx? id = some x) (hphase : x.phase = .reranking core)
  (hkeyed : x.coarse.length ≤ x.rpos)
include hs hcore hon hx hphase hkeyed

theorem exec_rerankComplete :
    let k := s.j.mapCtx id rerankDone
    exec (.rerankComplete core) s = .next { s with j := if x.vaultPay then k.beginPayloads s.mem id else k.endStep7 id } := by
  obtain rfl := id_of_ctx? hx
  refine (onUnit_onReading _ hs (decide_eq_true hcore)).trans ?_
  simp only [hon, Option.bind_some, hx, hphase, decide_eq_false (Nat.not_lt.2 hkeyed), bne_self_eq_false, Bool.or_self,
    Bool.false_eq_true, if_false]
  rfl

theorem rerankComplete_delivers (hpay : x.vaultPay = false) : ∃ t, exec (.rerankComplete core) s = .next t ∧
    (t.j.ctx? id).map (fun x => (x.final, x.reranked, x.phase)) = some (firstOf true (qK x.d) x.scored, true, .delivering) ∧
    t.j.spg.cores.getD core none = none ∧ (t.j.counter 0x60100).count = (s.j.counter 0x60100).count + 1 ∧
    t = { s with j := { s.j with sw := { s.j.sw with ctxs := t.j.sw.ctxs }, spg := t.j.spg, ctrs := t.j.ctrs } } := by
  have hdone : (s.j.mapCtx id rerankDone).ctx? id = some (rerankDone x) := ctx?_mapCtx_self (f := rerankDone) (fun _ => rfl) hx
  have hexec := exec_rerankComplete hs hcore hon hx hphase hkeyed
  simp only [hpay, Bool.false_eq_true, if_false] at hexec
  refine ⟨_, hexec, ?_, ?_, counter_endStep7 .., rfl⟩
  · rw [ctx?_endStep7 hdone]
    rfl
  · rw [cores_endStep7]
    exact getD_coresWithout hon

theorem rerankComplete_fetches (hpay : x.vaultPay = true) : ∃ t y, exec (.rerankComplete core) s = .next t ∧
    t.j.ctx? id = some y ∧ y.final = firstOf true (qK x.d) x.scored ∧ y.reranked = true ∧ fetchesOrDelivers y := by
  have hdone : (s.j.mapCtx id rerankDone).ctx? id = some (rerankDone x) := ctx?_mapCtx_self (f := rerankDone) (fun _ => rfl) hx
  have hexec := exec_rerankComplete hs hcore hon hx hphase hkeyed
  simp only [hpay, if_true] at hexec
  obtain ⟨y, hy, hfinal, hreranked, hnext⟩ := beginPayloads_rider s.mem hdone
  exact ⟨_, y, hexec, hy, hfinal, hreranked, hnext⟩
end

theorem exec_rerankDeadline {s : State} {id : Nat} {x : Ctx} (hs : s.j.live = true) (hx : s.j.ctx? id = some x)
    (hphase : x.phase = .rerankWait ∨ x.phase = .payloadFetch ∨ ∃ k, x.phase = .reranking k) :
    exec (.rerankDeadline id) s = .next { s with j := s.j.coarsePath id } := by
  change execRerankDeadline id s = _
  unfold execRerankDeadline
  rw [onBlocks_of_live _ hs]
  obtain h | h | ⟨k, h⟩ := hphase <;> simp only [hx, h]

/-- Settles O10: work on a query keeps its aim and the lines used now, so that a page that arrives stays; the coarse path and
the end of step 7 each give up the core. -/
theorem rerankAndRecordCache : Obligations.RerankAndRecordCache := by
  refine ⟨fun s c y r rest x cl hs hc hy hspec hx hcl hline hroom =>
      specRequestIssue_reads hs hc hy hspec hx hcl hroom hline,
    fun s core x hs hcore _ hfree hstarting hwhole hnext hx hdeg =>
      ⟨_, exec_rerankStart hs hcore hfree hstarting hwhole hnext hx hdeg, started_qs .., rfl, rfl, started_reranks s.mem hx,
        fun hrerank => ?_⟩,
    fun s page r hs hr hline => recordPageReadComplete_fills hs hr hline,
    fun s page r hs hr => recordPageReadComplete_fails hs hr,
    fun s core id x hs hcore hon hx hphase hkeyed => ⟨rerankComplete_delivers hs hcore hon hx hphase hkeyed,
      rerankComplete_fetches hs hcore hon hx hphase hkeyed⟩,
    fun s id x hs hx hphase => ⟨_, exec_rerankDeadline hs hx hphase, ?_, ?_, rfl⟩⟩
  · obtain ⟨y, hy, -, -, hnext⟩ := beginPayloads_rider (j := s.j.coreTaken core x.id) s.mem hx
    rw [started, if_pos hrerank]
    exact ⟨y, hy, hnext⟩
  · rw [ctx?_coarsePath_self hx]
    rfl
  · rw [cores_coarsePath]
    exact ne_of_mem_coresWithout

end Sys2Proof.Machine
end
section
namespace Sys2Proof.Machine
namespace Jenjor

/-! ### Model slots (R161, R171) -/

section
variable {j : Jenjor} {m n : Nat} {x : Model}

theorem model?_mapModel_self (f : Model → Model) (h : j.model? m = some x) : (j.mapModel m f).model? m = some (f x) :=
  (List.getElem?_modify_eq f m j.coe.models).trans (congrArg (Option.map f) h)

theorem model?_mapModel_ne (f : Model → Model) (h : n ≠ m) : (j.mapModel m f).model? n = j.model? n :=
  List.getElem?_modify_ne f j.coe.models h.symm

theorem model?_of_coe {k : Jenjor} (h : k.coe = j.coe) (n : Nat) : k.model? n = j.model? n := congrArg (fun c => c.models[n]?) h

/-- A slot that was found by its model has one. -/
theorem model?_of_find? {p : Model → Bool} (h : ((List.range 8).find? fun m => (j.model? m).any p) = some m) :
    ∃ x, j.model? m = some x ∧ p x = true := by
  simpa [Option.any_eq_true] using List.find?_some h

/-- The live object of a number after a change that keeps numbers and draining marks. -/
theorem liveObj?_mapObj_self {o : Obj} {f : Obj → Obj} (hf : ∀ o, (f o).num = o.num ∧ (f o).draining = o.draining)
    (ho : j.liveObj? n = some o) : (j.mapObj o.num f).liveObj? n = some (f o) := by
  have hfind := find?_updWhere_of (fun o : Obj => o.num == n && !o.draining) (fun y => y.num == o.num) f
    (fun y => by simp only [hf]) j.cat.objs
  rw [show j.cat.objs.find? (fun o => o.num == n && !o.draining) = some o from ho] at hfind
  exact hfind.trans (by simp)

/-! ### A slot is freed (R171, R204) -/

/-- The module with slot `m` empty, the package of its model in the vault and the images where R204 has them. -/
def slotEmptied (j : Jenjor) (m : Nat) (x : Model) : Jenjor :=
  ((j.mapModel m fun _ => emptyModel).mapObj x.obj fun o => { o with tier := .vault, pages := 0 }).tierImages

theorem model?_slotEmptied_self (h : j.model? m = some x) : (j.slotEmptied m x).model? m = some emptyModel :=
  (model?_of_coe rfl m).trans (model?_mapModel_self _ h)

theorem model?_slotEmptied_ne (h : n ≠ m) : (j.slotEmptied m x).model? n = j.model? n :=
  (model?_of_coe rfl n).trans (model?_mapModel_ne _ h)

@[simp] theorem slotEmptied_log : (j.slotEmptied m x).log = j.log := rfl

@[simp] theorem slotEmptied_ctrs : (j.slotEmptied m x).ctrs = j.ctrs := rfl

theorem freeModel_of_loader (h : j.model? m = some x) (hun : x.unloader = none) : j.freeModel m = j.slotEmptied m x := by
  unfold freeModel
  simp only [h, hun]
  rfl

theorem freeModel_of_unloader {c : CmdRef} {seq : Nat} (h : j.model? m = some x) (hun : x.unloader = some (c, seq)) :
    j.freeModel m = (j.slotEmptied m x).complete c .success (BitVec.ofNat 64 seq) 0 none := by
  unfold freeModel
  simp only [h, hun]
  rfl

/-- The completion of an unload leaves the slots alone. -/
theorem freeModel_coe (h : j.model? m = some x) : (j.freeModel m).coe = (j.slotEmptied m x).coe := by
  cases hun : x.unloader with
  | none => rw [freeModel_of_loader h hun]
  | some u => rw [freeModel_of_unloader h hun, complete_coe]

/-! ### Slots that drain (R171) -/

/-- Slot `m` is freed once it has drained. -/
def settleSlot (j : Jenjor) (m : Nat) : Jenjor :=
  if (j.model? m).any (fun x => x.phase == .draining) && j.modelIdle m then j.freeModel m else j

theorem settleModels_eq (j : Jenjor) : j.settleModels = (List.range 8).foldl settleSlot j := rfl

theorem settleSlot_of_calm (h : ∀ x, j.model? n = some x → x.phase ≠ .draining) : j.settleSlot n = j := by
  have hcalm : (j.model? n).any (fun x => x.phase == .draining) = false := by
    simpa [Option.any_eq_false] using h
  simp [settleSlot, hcalm]

theorem foldl_settleSlot_calm {l : List Nat} (h : ∀ n x, j.model? n = some x → x.phase ≠ .draining) :
    l.foldl settleSlot j = j := by
  induction l with
  | nil => rfl
  | cons n l ih => rw [List.foldl_cons, settleSlot_of_calm (h n), ih]

/-- Where one slot has drained and no other drains, that slot is freed. -/
theorem foldl_settleSlot_one {l : List Nat} (hm : m ∈ l) (hx : j.model? m = some x) (hdrains : x.phase = .draining)
    (hidle : j.modelIdle m = true) (hothers : ∀ n y, n ≠ m → j.model? n = some y → y.phase ≠ .draining) :
    l.foldl settleSlot j = j.freeModel m := by
  induction l with
  | nil => simp at hm
  | cons n l ih =>
    rw [List.foldl_cons]
    by_cases hn : n = m
    · subst hn
      rw [show j.settleSlot n = j.freeModel n by simp [settleSlot, hx, hdrains, hidle]]
      refine foldl_settleSlot_calm fun i y hy => ?_
      rw [model?_of_coe (freeModel_coe hx)] at hy
      by_cases hi : i = n
      · subst hi
        rw [model?_slotEmptied_self hx] at hy
        cases hy
        exact nofun
      · rw [model?_slotEmptied_ne hi] at hy
        exact hothers i y hi hy
    · rw [settleSlot_of_calm fun y => hothers n y hn]
      exact ih ((List.mem_cons.mp hm).resolve_left (Ne.symm hn))

end
end Jenjor

/-! ### MODEL_UNLOAD (R171) -/

section
open Jenjor
variable {s : State} {q : Nat} {f : Fetched} {j : Jenjor} {x : Model} (h : s.takesCat q 0x4D [] f j)
include h

theorem exec_modelUnload : exec (.modelUnload q) s = .next { s with j := j.unloadModel f [] } := by
  change execModelUnload q s = _
  unfold execModelUnload
  rw [onBlocks_of_live _ h.1, catalogueCmd_of_takesCat h]

/-- MODEL_NOT_RESIDENT has a lower code than READ_ONLY, and so is the status of both (R270). -/
theorem exec_modelUnload_refused (hx : j.model? (dField f.d 8 1 % 8) = some x) (hphase : x.phase ≠ .resident) :
    exec (.modelUnload q) s = .next { s with j := j.refuse f.ref .modelNotResident } := by
  have hstatus : firstStatus [(!((j.model? (dField f.d 8 1 % 8)).any fun x => x.phase == .resident), .modelNotResident),
      (j.readOnlyNow, .readOnly)] = some .modelNotResident := by
    have hnot : (x.phase == ModelPhase.resident) = false := by simpa using hphase
    rw [hx, Option.any_some, hnot]
    cases j.readOnlyNow <;> rfl
  rw [exec_modelUnload h]
  unfold Jenjor.unloadModel
  simp only [hstatus]

end

namespace Jenjor

/-- A model whose unload `c` has taken its catalogue sequence number (R45, R171). -/
def unloadingModel (c : CmdRef) (seq : Nat) (x : Model) : Model := { x with phase := .draining, unloader := some (c, seq) }

/-- The module once slot `m` drains for the unload `c`. -/
def unloading (j : Jenjor) (m : Nat) (c : CmdRef) : Jenjor := j.nextSeq.2.mapModel m (unloadingModel c (j.cat.seq + 1))

section
variable {j : Jenjor} {m n : Nat} {x : Model} {c : CmdRef}

theorem model?_unloading_self (hx : j.model? m = some x) :
    (j.unloading m c).model? m = some (unloadingModel c (j.cat.seq + 1) x) :=
  model?_mapModel_self (j := j.nextSeq.2) _ hx

theorem model?_unloading_ne (hn : n ≠ m) : (j.unloading m c).model? n = j.model? n :=
  model?_mapModel_ne (j := j.nextSeq.2) _ hn

/-- A slot with no request of its own is freed as soon as it drains. -/
theorem settleModels_unloading (hm : m < 8) (hx : j.model? m = some x) (hcalm : ∀ y ∈ j.coe.models, y.phase ≠ .draining)
    (hidle : j.modelIdle m = true) : (j.unloading m c).settleModels
      = ((j.unloading m c).slotEmptied m (unloadingModel c (j.cat.seq + 1) x)).complete c .success
          (BitVec.ofNat 64 (j.cat.seq + 1)) 0 none := by
  have hothers : ∀ n y, n ≠ m → (j.unloading m c).model? n = some y → y.phase ≠ .draining := fun n y hn hy =>
    hcalm y (List.mem_of_getElem? ((model?_unloading_ne hn).symm.trans hy))
  rw [settleModels_eq, foldl_settleSlot_one (List.mem_range.mpr hm) (model?_unloading_self hx) rfl hidle hothers,
    freeModel_of_unloader (model?_unloading_self hx) rfl]

theorem unloadModel_of_resident {f : Fetched} (op : List Byte) (hro : j.readOnlyNow = false)
    (hx : j.model? (dField f.d 8 1 % 8) = some x) (hphase : x.phase = .resident) :
    j.unloadModel f op = (j.unloading (dField f.d 8 1 % 8) f.ref).settleModels := by
  have hstatus : firstStatus [(!((j.model? (dField f.d 8 1 % 8)).any fun x => x.phase == .resident), .modelNotResident),
      (j.readOnlyNow, .readOnly)] = none := by
    simp [firstStatus_none_iff, hx, hphase, hro]
  unfold unloadModel
  simp only [hstatus]
  rfl

end
end Jenjor

section
open Jenjor
variable {s : State} {q : Nat} {f : Fetched} {j : Jenjor} {x : Model}

theorem modelUnload_frees (h : s.takesCat q 0x4D [] f j) (hro : j.readOnlyNow = false)
    (hx : j.model? (dField f.d 8 1 % 8) = some x) (hphase : x.phase = .resident)
    (hcalm : ∀ m ∈ j.coe.models, m.phase ≠ .draining) (hidle : j.modelIdle (dField f.d 8 1 % 8) = true) :
    ∃ k : Jenjor, exec (.modelUnload q) s
        = .next { s with j := k.complete f.ref .success (BitVec.ofNat 64 (j.cat.seq + 1)) 0 none } ∧
      k.model? (dField f.d 8 1 % 8) = some emptyModel ∧ k.cat.seq = j.cat.seq + 1 ∧
      (∀ n, n ≠ dField f.d 8 1 % 8 → k.model? n = j.model? n) ∧
      k = { j with cat := k.cat, coe := { j.coe with models := k.coe.models } } := by
  refine ⟨(j.unloading (dField f.d 8 1 % 8) f.ref).slotEmptied _ _, ?_, model?_slotEmptied_self (model?_unloading_self hx), rfl,
    fun n hn => (model?_slotEmptied_ne hn).trans (model?_unloading_ne hn), rfl⟩
  rw [exec_modelUnload h, unloadModel_of_resident [] hro hx hphase,
    settleModels_unloading (Nat.mod_lt _ (by decide)) hx hcalm hidle]

end

/-! ### MODEL_LOAD (R170) -/

section
open Jenjor
variable {s : State} {q : Nat} {f : Fetched} {j : Jenjor} (h : s.takesCat q 0x4C [] f j)
include h

theorem exec_modelLoad : exec (.modelLoad q) s = .next { s with j := j.loadModel s.mem f j.time } := by
  change execModelLoad q s = _
  unfold execModelLoad
  rw [onReading_of_live _ h.1, catalogueCmd_of_takesCat h]

theorem exec_modelLoad_refused {st : Status} (hst : firstStatus (loadChecks s.mem j f.d) = some st) :
    exec (.modelLoad q) s = .next { s with j := j.refuse f.ref st } := by
  rw [exec_modelLoad h]
  unfold Jenjor.loadModel
  simp only [hst]

end

/-- A model as MODEL_LOAD captures it: its objects, its limits, and its key slot with the generation in force (R170). -/
def loadingModel (j : Jenjor) (f : Fetched) (o : Obj) : Model :=
  { emptyModel with phase := .loading, obj := o.num, prog := dField f.d 0xC 4, keySlot := dField f.d 0x10 1 % 64,
                    keyGen := ((j.packageSlot (dField f.d 0x10 1 % 64)).map fun x => x.generation).getD 0,
                    maxSeq := dField f.d 0x12 2, maxTokens := dField f.d 0x14 4, loader := some f.ref }

/-- The module once sweep memory holds a package. -/
def packageHeld (j : Jenjor) (o : Obj) : Jenjor :=
  j.mapObj o.num fun o => { o with tier := .sweep, pages := Jenjor.pagesOf o.bytes }

/-- The module once slot `m` loads from `o`. -/
def loadBegun (j : Jenjor) (f : Fetched) (m : Nat) (o : Obj) : Jenjor :=
  (packageHeld j o).mapModel m fun _ => loadingModel (packageHeld j o) f o

section
open Jenjor
variable {s : State} {q : Nat} {f : Fetched} {j : Jenjor} {m : Nat} {o : Obj}

theorem loadModel_of_granted {mem : List Host.Cell} (since : Nat) (hck : firstStatus (loadChecks mem j f.d) = none)
    (hslot : ((List.range 8).find? fun m => (j.model? m).any fun x => x.phase == .empty) = some m)
    (ho : j.liveObj? (dField f.d 8 4) = some o) (hroom : pagesOf o.bytes ≤ j.poolFree) :
    j.loadModel mem f since = loadBegun j f m o := by
  -- `allocate` stays opaque here: reducing the match on its answer would evaluate it
  obtain ⟨allocate, hallocate⟩ : ∃ allocate, j.allocate = allocate := ⟨_, rfl⟩
  have hgranted : allocate (pagesOf o.bytes) [o.num, dField f.d 0xC 4] = .granted j := by
    rw [← hallocate, allocate_of_free _ hroom]
  rw [Jenjor.loadModel, hck, hslot, ho, hallocate]
  dsimp only
  rw [hgranted]
  rfl

theorem modelLoad_begins (h : s.takesCat q 0x4C [] f j) (hck : firstStatus (loadChecks s.mem j f.d) = none)
    (hslot : ((List.range 8).find? fun m => (j.model? m).any fun x => x.phase == .empty) = some m)
    (ho : j.liveObj? (dField f.d 8 4) = some o) (hroom : pagesOf o.bytes ≤ j.poolFree) :
    ∃ (t : State) (x : Model), exec (.modelLoad q) s = .next t ∧ t.j.model? m = some x ∧ x.phase = .loading ∧ x.obj = o.num ∧
      x.prog = dField f.d 0xC 4 ∧ x.keySlot = dField f.d 0x10 1 % 64 ∧ x.maxSeq = dField f.d 0x12 2 ∧
      x.maxTokens = dField f.d 0x14 4 ∧ x.loader = some f.ref ∧ (∀ n, n ≠ m → t.j.model? n = j.model? n) ∧
      t.j.liveObj? (dField f.d 8 4) = some { o with tier := .sweep, pages := pagesOf o.bytes } ∧
      t = { s with j := { j with cat := { j.cat with objs := t.j.cat.objs }, coe := { j.coe with models := t.j.coe.models } } } := by
  obtain ⟨y, hy, -⟩ := model?_of_find? hslot
  refine ⟨{ s with j := loadBegun j f m o }, loadingModel (packageHeld j o) f o, ?_, ?_, rfl, rfl, rfl, rfl, rfl, rfl, rfl,
    fun n hn => ?_, ?_, rfl⟩
  · rw [exec_modelLoad h, loadModel_of_granted _ hck hslot ho hroom]
  · exact model?_mapModel_self _ ((model?_of_coe rfl m).trans hy)
  · exact (model?_mapModel_ne _ hn).trans (model?_of_coe rfl n)
  · exact liveObj?_mapObj_self (fun _ => ⟨rfl, rfl⟩) ho

end

/-! ### Loads that end without a model (R205, R387) -/

namespace Jenjor

/-- One Logbook record of a part of a digest (R205). -/
def digestRecord (m : Nat) (st : Status) (j : Jenjor) (bs : List Byte) : Jenjor :=
  j.record 5 blkCOE m 0xFFFF 0 st.code (BitVec.ofNat 256 (leNat bs))

/-- Records of parts raise the Logbook's head by one each and change nothing but the Logbook and LOG_LOST. -/
theorem foldl_digestRecord (m : Nat) (st : Status) (l : List (List Byte)) (j : Jenjor) :
    ∃ ctrs log, l.foldl (digestRecord m st) j = { j with ctrs := ctrs, log := log } ∧ log.head = j.log.head + l.length ∧
      ∀ a, a ≠ 0xF0018 → (l.foldl (digestRecord m st) j).counter a = j.counter a := by
  induction l generalizing j with
  | nil => exact ⟨j.ctrs, j.log, rfl, rfl, fun _ _ => rfl⟩
  | cons bs l ih =>
    obtain ⟨ctrs, log, heq, hhead, hctr⟩ := ih (j.digestRecord m st bs)
    have hone : (j.digestRecord m st bs).log.head = j.log.head + 1 := record_head ..
    refine ⟨ctrs, log, ?_, by rw [hhead, hone, List.length_cons]; omega, fun a ha => ?_⟩
    · rw [List.foldl_cons, heq, digestRecord, record_frame]
    · exact (hctr a ha).trans (counter_record _ _ _ _ _ _ _ _ _ ha)

/-- The module once both digests are logged, each in two parts. -/
def digestsLogged (j : Jenjor) (m : Nat) (st : Status) (pd id : List Byte) : Jenjor :=
  [pd.take 32, pd.drop 32, id.take 32, id.drop 32].foldl (digestRecord m st) j

theorem digestsLogged_frame (j : Jenjor) (m : Nat) (st : Status) (pd id : List Byte) :
    ∃ ctrs log, j.digestsLogged m st pd id = { j with ctrs := ctrs, log := log } ∧ log.head = j.log.head + 4 ∧
      ∀ a, a ≠ 0xF0018 → (j.digestsLogged m st pd id).counter a = j.counter a :=
  foldl_digestRecord m st _ j

theorem refuseMeasured_failsLoad (j : Jenjor) (m : Nat) (st : Status) (pd id : List Byte) :
    j.refuseMeasured m st pd id = (j.digestsLogged m st pd id).failLoad m st := rfl

theorem failLoad_of_loader {j : Jenjor} {m : Nat} {x : Model} {c : CmdRef} (st : Status) (hx : j.model? m = some x)
    (hc : x.loader = some c) (hun : x.unloader = none) : j.failLoad m st = (j.slotEmptied m x).refuse c st := by
  unfold failLoad
  simp only [hx, Option.bind_some, hc, freeModel_of_loader hx hun]

section
variable {j : Jenjor} {m : Nat} {x : Model} {c : CmdRef} (hx : j.model? m = some x) (hc : x.loader = some c)
  (hun : x.unloader = none)
include hx hc hun

/-- A load refused after its measurement logs both digests and leaves its slot empty. -/
theorem refuseMeasured_eq (st : Status) (pd id : List Byte) :
    ∃ k : Jenjor, j.refuseMeasured m st pd id = k.refuse c st ∧ k.model? m = some emptyModel ∧
      (∀ a, a ≠ 0xF0018 → k.counter a = j.counter a) ∧ k.log.head = j.log.head + 4 ∧
      k = { j with ctrs := k.ctrs, log := k.log, cat := { j.cat with objs := k.cat.objs },
                   coe := { j.coe with models := k.coe.models } } := by
  obtain ⟨ctrs, log, heq, hhead, hctr⟩ := digestsLogged_frame j m st pd id
  have hlogged : (j.digestsLogged m st pd id).model? m = some x := (model?_of_coe (by rw [heq]) m).trans hx
  refine ⟨(j.digestsLogged m st pd id).slotEmptied m x, ?_, model?_slotEmptied_self hlogged, fun a ha => ?_, ?_, ?_⟩
  · rw [refuseMeasured_failsLoad, failLoad_of_loader st hlogged hc hun]
  · exact (counter_of_ctrs slotEmptied_ctrs a).trans (hctr a ha)
  · rw [slotEmptied_log, heq]
    exact hhead
  · rw [heq]
    rfl

end
end Jenjor

/-! ### The decryption of a package (R170, R203, R204, R387) -/

namespace Jenjor

/-- The model that a load leaves in its slot (R164, R203, R204). -/
def loadedModel (pack image : List Byte) (sb cb seq : Nat) (x : Model) : Model :=
  let h := headerOf pack
  let g := parseImage image
  { x with phase := .resident, hdr := h, package := pack, instrs := g.instrs, footprint := g.footprint,
           accTiles := g.accTiles, stagePanels := g.stagePanels, storeBase := sb, constBase := cb,
           constUnits := constUnitsOf h, consts := constsOf h pack,
           digests := (BitVec.ofNat 384 (leNat (sha384 pack)), BitVec.ofNat 384 (leNat (sha384 image))),
           loadSeq := seq, loader := none }

/-- The module once slot `m` holds its model, under the next catalogue sequence number. -/
def loadEnded (j : Jenjor) (m : Nat) (pack image : List Byte) (sb cb : Nat) : Jenjor :=
  (j.nextSeq.2.mapModel m (loadedModel pack image sb cb (j.cat.seq + 1))).tierImages

/-- The bytes of the package that a load names. -/
def envelopeOf (mem : List Host.Cell) (o : Obj) : List Byte := Memory.readBytes mem o.base o.bytes

/-- The extents of the program store that models hold (R203). -/
def programExtents (j : Jenjor) : List (Nat × Nat) :=
  (j.coe.models.filter fun y => y.phase == .resident || y.phase == .draining).map fun y => (y.storeBase, y.instrs.length)

/-- The extents of the constant area that models hold (R183). -/
def constantExtents (j : Jenjor) : List (Nat × Nat) :=
  (j.coe.models.filter fun y => y.phase == .resident || y.phase == .draining).map fun y => (y.constBase, y.constUnits)

section
variable {mem : List Host.Cell} {j : Jenjor} {m : Nat} {x : Model} {o : Obj}
  (hslot : ((List.range 8).find? fun m => (j.model? m).any fun x => x.phase == .loading) = some m)
  (hx : j.model? m = some x) (ho : j.obj? x.obj = some o)
include hslot hx ho

theorem decrypted_of_unopened (hopen : Config.openPackage (j.loadKey x) (envelopeOf mem o) = none) :
    decrypted mem j = loadUnauthentic mem j m x none := by
  rw [envelopeOf] at hopen
  unfold decrypted
  simp only [hslot, hx, ho, hopen]

theorem decrypted_of_opened {pack : List Byte} (hopen : Config.openPackage (j.loadKey x) (envelopeOf mem o) = some pack)
    (hlen : pack.length = fieldAt (envelopeOf mem o) 0x18 8) : decrypted mem j = finishLoad mem j m x pack := by
  rw [envelopeOf] at hopen hlen
  unfold decrypted
  simp only [hslot, hx, ho, hopen, hlen, if_true]

end

theorem finishLoad_of_headerBad (mem : List Host.Cell) (j : Jenjor) (m : Nat) (x : Model) {pack : List Byte}
    (hbad : headerBad pack = true) :
    finishLoad mem j m x pack = j.refuseMeasured m .modelInvalid (sha384 pack) (sha384 (imageOf mem j x)) :=
  if_pos hbad

theorem finishLoad_of_good {mem : List Host.Cell} {j : Jenjor} {m : Nat} {x : Model} {c : CmdRef} {pack : List Byte}
    {sb cb : Nat} (hc : x.loader = some c) (hheader : headerBad pack = false) (hseq : x.maxSeq ≤ (headerOf pack).maxSeq)
    (htok : x.maxTokens ≤ 2 ^ 26 / (headerOf pack).width)
    (himage : imageBad (imageOf mem j x) j.arithRev (headerOf pack) (constUnitsOf (headerOf pack)) x.maxTokens (sha384 pack) = false)
    (hsb : lowestExtent j.programExtents 2097152 (parseImage (imageOf mem j x)).count = some sb)
    (hcb : lowestExtent j.constantExtents 196608 (constUnitsOf (headerOf pack)) = some cb) :
    finishLoad mem j m x pack = (j.loadEnded m pack (imageOf mem j x) sb cb).complete c .success
      (BitVec.ofNat 64 (j.cat.seq + 1)) (BitVec.ofNat 64 m) none := by
  rw [programExtents] at hsb
  rw [constantExtents] at hcb
  unfold finishLoad
  simp only [hheader, decide_eq_false (Nat.not_lt.2 hseq), decide_eq_false (Nat.not_lt.2 htok), himage, hsb, hcb, hc,
    Bool.or_self, Bool.false_eq_true, if_false]
  rfl

end Jenjor

namespace Jenjor

/-- The module once it has counted an authentication failure and drawn the digest that the manual leaves open (R387). -/
def authFailureCounted (j : Jenjor) : Jenjor := (j.count blkDOM 0x810).free.2

theorem authFailureCounted_count (j : Jenjor) :
    (j.authFailureCounted.counter 0xC0810).count = (j.counter 0xC0810).count + 1 := by
  have hbump := counter_bump j 0xC0810 1 0xC0810
  rw [if_pos rfl] at hbump
  exact congrArg Ctr.count hbump

theorem loadUnauthentic_eq (mem : List Host.Cell) (j : Jenjor) (m : Nat) (x : Model) (pack : Option (List Byte)) :
    ∃ pd id, loadUnauthentic mem j m x pack = j.authFailureCounted.refuseMeasured m .authenticationFailed pd id := ⟨_, _, rfl⟩

end Jenjor

section
open Jenjor
variable {s : State} {m : Nat} {x : Model} {o : Obj} {c : CmdRef} (hs : s.j.live = true)
  (hslot : ((List.range 8).find? fun m => (s.j.model? m).any fun x => x.phase == .loading) = some m)
  (hx : s.j.model? m = some x) (ho : s.j.obj? x.obj = some o) (hc : x.loader = some c) (hun : x.unloader = none)

theorem exec_modelLoadDecryptComplete (hs : s.j.live = true) :
    exec .modelLoadDecryptComplete s = .next { s with j := decrypted s.mem s.j } := by
  change execModelLoadDecryptComplete s = _
  unfold execModelLoadDecryptComplete
  exact onReading_of_live _ hs

include hs hslot hx ho hc hun

theorem decryptComplete_unauthentic (hopen : Config.openPackage (s.j.loadKey x) (envelopeOf s.mem o) = none) :
    ∃ k : Jenjor, exec .modelLoadDecryptComplete s = .next { s with j := k.refuse c .authenticationFailed } ∧
      k.model? m = some emptyModel ∧ (k.counter 0xC0810).count = (s.j.counter 0xC0810).count + 1 ∧
      k.log.head = s.j.log.head + 4 ∧
      k = { s.j with ctrs := k.ctrs, log := k.log, freeIdx := s.j.freeIdx + 1, cat := { s.j.cat with objs := k.cat.objs },
                     coe := { s.j.coe with models := k.coe.models } } := by
  obtain ⟨pd, id, heq⟩ := loadUnauthentic_eq s.mem s.j m x none
  obtain ⟨k, hk, hempty, hctr, hhead, hframe⟩ :=
    refuseMeasured_eq (j := s.j.authFailureCounted) hx hc hun .authenticationFailed pd id
  refine ⟨k, ?_, hempty, ?_, hhead, hframe⟩
  · rw [exec_modelLoadDecryptComplete hs, decrypted_of_unopened hslot hx ho hopen, heq, hk]
  · rw [hctr _ (by decide), authFailureCounted_count]

theorem decryptComplete_headerBad {pack : List Byte}
    (hopen : Config.openPackage (s.j.loadKey x) (envelopeOf s.mem o) = some pack)
    (hlen : pack.length = fieldAt (envelopeOf s.mem o) 0x18 8) (hbad : headerBad pack = true) :
    ∃ k : Jenjor, exec .modelLoadDecryptComplete s = .next { s with j := k.refuse c .modelInvalid } ∧
      k.model? m = some emptyModel ∧ k.log.head = s.j.log.head + 4 ∧
      k = { s.j with ctrs := k.ctrs, log := k.log, cat := { s.j.cat with objs := k.cat.objs },
                     coe := { s.j.coe with models := k.coe.models } } := by
  obtain ⟨k, hk, hempty, -, hhead, hframe⟩ :=
    refuseMeasured_eq hx hc hun .modelInvalid (sha384 pack) (sha384 (imageOf s.mem s.j x))
  refine ⟨k, ?_, hempty, hhead, hframe⟩
  rw [exec_modelLoadDecryptComplete hs, decrypted_of_opened hslot hx ho hopen hlen, finishLoad_of_headerBad _ _ _ _ hbad, hk]

omit hun

theorem decryptComplete_loads {pack : List Byte} {sb cb : Nat}
    (hopen : Config.openPackage (s.j.loadKey x) (envelopeOf s.mem o) = some pack)
    (hlen : pack.length = fieldAt (envelopeOf s.mem o) 0x18 8) (hheader : headerBad pack = false)
    (hseq : x.maxSeq ≤ (headerOf pack).maxSeq) (htok : x.maxTokens ≤ 2 ^ 26 / (headerOf pack).width)
    (himage : imageBad (imageOf s.mem s.j x) s.j.arithRev (headerOf pack) (constUnitsOf (headerOf pack)) x.maxTokens
      (sha384 pack) = false)
    (hsb : lowestExtent s.j.programExtents 2097152 (parseImage (imageOf s.mem s.j x)).count = some sb)
    (hcb : lowestExtent s.j.constantExtents 196608 (constUnitsOf (headerOf pack)) = some cb) :
    ∃ (k : Jenjor) (y : Model), exec .modelLoadDecryptComplete s
        = .next { s with j := k.complete c .success (BitVec.ofNat 64 (s.j.cat.seq + 1)) (BitVec.ofNat 64 m) none } ∧
      k.model? m = some y ∧ y.phase = .resident ∧ y.hdr = headerOf pack ∧ y.package = pack ∧ y.storeBase = sb ∧
      y.constBase = cb ∧
      y.digests = (BitVec.ofNat 384 (leNat (sha384 pack)), BitVec.ofNat 384 (leNat (sha384 (imageOf s.mem s.j x)))) ∧
      y.keySlot = x.keySlot ∧ y.loadSeq = s.j.cat.seq + 1 ∧
      k = { s.j with cat := { s.j.cat with seq := s.j.cat.seq + 1, objs := k.cat.objs },
                     coe := { s.j.coe with models := k.coe.models } } := by
  have hloaded : (s.j.loadEnded m pack (imageOf s.mem s.j x) sb cb).model? m
      = some (loadedModel pack (imageOf s.mem s.j x) sb cb (s.j.cat.seq + 1) x) :=
    (model?_of_coe rfl m).trans (model?_mapModel_self (j := s.j.nextSeq.2) _ hx)
  refine ⟨_, _, ?_, hloaded, rfl, rfl, rfl, rfl, rfl, rfl, rfl, rfl, rfl⟩
  rw [exec_modelLoadDecryptComplete hs, decrypted_of_opened hslot hx ho hopen hlen,
    finishLoad_of_good hc hheader hseq htok himage hsb hcb]

end

/-- Settles O20: each way that a load or an unload ends, by its own lemma. -/
theorem encoderModels : Obligations.EncoderModels := by
  refine ⟨fun s q f j m o h hck hslot ho hroom => modelLoad_begins h hck hslot ho hroom,
    fun s q f j st h hst => exec_modelLoad_refused h hst,
    fun s m x o c hs hslot hx ho hc hun => ⟨fun hopen => decryptComplete_unauthentic hs hslot hx ho hc hun hopen,
      fun pack hopen hlen hbad => decryptComplete_headerBad hs hslot hx ho hc hun hopen hlen hbad,
      fun pack sb cb hopen hlen hheader hseq htok himage ⟨hsb, hcb⟩ =>
        decryptComplete_loads hs hslot hx ho hc hopen hlen hheader hseq htok himage hsb hcb⟩,
    fun s q f j x h hro hx hphase hcalm hidle => modelUnload_frees h hro hx hphase hcalm hidle,
    fun s q f j x h hx hphase => exec_modelUnload_refused h hx hphase⟩
end Sys2Proof.Machine
end

section
namespace Sys2Proof.Machine

/-! ### QUERY_TOKENS (R172, R173, R178) -/

/-- A context as a token query enters it (R19, R172). -/
structure AwaitsPass (j : Jenjor) (f : Fetched) (x : Ctx) : Prop where
  id : x.id = j.sw.arrivals
  ref : x.ref = f.ref
  coll : x.coll = dField f.d 4 2
  phase : x.phase = .encoding
  model : x.model = dField f.d 0x36 1 % 8
  t0 : x.t0 = j.time

/-- Outside cross-check mode a new context is all that a query's entry adds (R359). -/
theorem newCtx_awaitsPass {j : Jenjor} (f : Fetched) (op : List Byte) (hpin : j.pairedIn 3 = false) :
    ∃ x, AwaitsPass j f x ∧ newCtx j f op
      = (j.sw.arrivals, { j with sw := { j.sw with ctxs := j.sw.ctxs ++ [x], arrivals := j.sw.arrivals + 1 } }) := by
  unfold newCtx
  simp only [hpin]
  exact ⟨_, ⟨rfl, rfl, rfl, rfl, rfl, rfl⟩, rfl⟩

theorem updWhere_append_fresh {α : Type} {p : α → Bool} {l : List α} {x : α} (f : α → α) (hl : ∀ y ∈ l, p y = false)
    (hx : p x = true) : updWhere p f (l ++ [x]) = l ++ [f x] := by
  have hkept : l.map (fun y => if p y then f y else y) = l := by
    rw [List.map_congr_left (g := id) fun y hy => by simp [hl y hy], List.map_id]
  rw [updWhere, List.map_append, hkept, List.map_singleton, if_pos hx]

/-- A context with the token sequence that its descriptor lists (R273). -/
def withTokens (c : Coll) (d : Desc) (op : List Byte) (x : Ctx) : Ctx :=
  { x with tokens := (List.range (dField d 0x38 2)).map fun i => fieldAt op ((partsOf c d).vec + 4 * i) 4 }

section
open Jenjor
variable {s : State} {q : Nat} {op : List Byte} {f : Fetched} {j : Jenjor} (h : s.takesData q 0x11 f j)
include h

theorem exec_queryTokens : exec (.queryTokens q op) s = .next { s with j := j.queryTokens f op } := by
  change execQueryTokens q op s = _
  unfold execQueryTokens
  simp only [onBlocks_of_live _ h.1, h.2]

theorem exec_queryTokens_refused {st : Status} (hst : firstStatus (queryChecks j f.d op ++ j.tokenChecks f.d op) = some st) :
    exec (.queryTokens q op) s
      = .next { s with j := (if st = .sequenceInvalid then j.count blkCOE 0x2000 else j).refuse f.ref st } := by
  rw [exec_queryTokens h]
  unfold queryTokens
  simp only [hst]

theorem queryTokens_waits {c : Coll} (hck : firstStatus (queryChecks j f.d op ++ j.tokenChecks f.d op) = none)
    (hlive : j.liveColl? (dField f.d 4 2) = some c) (hcores : 4 ≤ j.activeCores) (hpin : j.pairedIn 3 = false)
    (hfresh : ∀ x ∈ j.sw.ctxs, x.id ≠ j.sw.arrivals) :
    ∃ (t : State) (x : Ctx), exec (.queryTokens q op) s = .next t ∧ t.j.sw.ctxs = j.sw.ctxs ++ [x] ∧ x.id = j.sw.arrivals ∧
      x.ref = f.ref ∧ x.coll = dField f.d 4 2 ∧ x.phase = .encoding ∧ x.model = dField f.d 0x36 1 % 8 ∧ x.t0 = j.time ∧
      x.tokens = ((List.range (dField f.d 0x38 2)).map fun i => fieldAt op ((partsOf c f.d).vec + 4 * i) 4) ∧
      t = { s with j := { j with sw := { j.sw with ctxs := t.j.sw.ctxs, arrivals := j.sw.arrivals + 1 } } } := by
  obtain ⟨x, hx, hnew⟩ := newCtx_awaitsPass f op hpin
  have henters : j.queryTokens f op = setTokens (newCtx j f op).2 (newCtx j f op).1 c f.d op := by
    unfold queryTokens
    simp only [hck, hlive, if_neg (Nat.not_lt.2 hcores)]
  rw [exec_queryTokens h, henters, hnew]
  exact ⟨_, withTokens c f.d op x, rfl, updWhere_append_fresh _ (by simpa using hfresh) (by simp [hx.id]), hx.id, hx.ref, hx.coll,
    hx.phase, hx.model, hx.t0, rfl, rfl⟩

end

/-! ### The batch of a pass (R174) -/

theorem natSum_cons (n : Nat) (l : List Nat) : natSum (n :: l) = n + natSum l := by
  simp only [natSum, ← List.sum_eq_foldl, List.sum_cons]

/-- A batch is the head of the queue, within the sequences and the tokens that are left. -/
theorem takeRequests_eq_take (m seqs toks : Nat) (cs : List Ctx) : ∃ n, Jenjor.takeRequests m seqs toks cs = cs.take n ∧
    n ≤ 1024 - seqs ∧ natSum ((cs.take n).map fun c => c.tokens.length) ≤ m - toks := by
  induction cs generalizing seqs toks with
  | nil => exact ⟨0, rfl, Nat.zero_le _, Nat.zero_le _⟩
  | cons c cs ih =>
    by_cases hfits : seqs < 1024 ∧ toks + c.tokens.length ≤ m
    · obtain ⟨n, htake, hn, hsum⟩ := ih (seqs + 1) (toks + c.tokens.length)
      refine ⟨n + 1, ?_, by omega, ?_⟩
      · rw [Jenjor.takeRequests, if_pos hfits, htake, List.take_succ_cons]
      · rw [List.take_succ_cons, List.map_cons, natSum_cons]
        omega
    · exact ⟨0, by rw [Jenjor.takeRequests, if_neg hfits, List.take_zero], Nat.zero_le _, Nat.zero_le _⟩

/-! ### The start of a pass (R174, R177, R178, R181) -/

/-- A pass over a batch, its ranks at the start of their streams. -/
def passOver (j : Jenjor) (m : Nat) (cs : List Ctx) : Pass :=
  let rows := Jenjor.rowTable cs
  let padded := ceilDiv rows.length 512 * 512
  { model := m, reqs := cs.map fun c => c.id, rows := rows, padded := padded,
    ranks := (List.range 8).map (startRank rows padded cs.length), pooled := [], tokvecs := [], startTime := j.time }

/-- The module once a pass over a batch runs. -/
def passStarted (j : Jenjor) (m : Nat) (cs : List Ctx) : Jenjor :=
  let wait := cs.foldl (fun w c => max w ((j.time - c.t0) / 1000)) 0
  let k := { j with coe := { j.coe with pass := some (passOver j m cs), rerun := none } }
  (k.mapModel m fun x => { x with waitHigh := min (max x.waitHigh wait) 0xFFFFFFFF }).mapCtxs
    (fun c => (cs.map fun c => c.id).contains c.id) fun c => { c with phase := .inPass }

section
open Jenjor
variable {s : State} (hs : s.j.live = true)

include hs in
theorem exec_passStart : exec .passStart s = .next { s with j := s.j.startPass } := by
  change execPassStart s = _
  unfold execPassStart
  exact onBlocks_of_live _ hs

theorem startPass_of_blocked {j : Jenjor} (h : j.coe.pass.isSome = true ∨ j.isl.shedStep ≠ 0 ∨ j.activeCores < 4) :
    j.startPass = j := by
  have hblocked : (j.coe.pass.isSome || j.isl.shedStep != 0 || decide (j.activeCores < 4) || j.isl.whole) = true := by
    obtain h | h | h := h <;> simp [h]
  exact if_pos hblocked

theorem startPass_of_batch {j : Jenjor} {m : Nat} {cs : List Ctx} (hpass : j.coe.pass = none) (hshed : j.isl.shedStep = 0)
    (hcores : 4 ≤ j.activeCores) (hwhole : j.isl.whole = false) (hbatch : j.nextBatch = some (m, cs)) :
    j.startPass = passStarted j m cs := by
  have hfree : ¬ (j.coe.pass.isSome || j.isl.shedStep != 0 || decide (j.activeCores < 4) || j.isl.whole) = true := by
    simp [hpass, hshed, hwhole, hcores]
  refine (if_neg hfree).trans ?_
  rw [hbatch]
  rfl

theorem phase_of_mem_passStarted {j : Jenjor} {m : Nat} {cs : List Ctx} {c : Ctx} (hc : c ∈ (passStarted j m cs).sw.ctxs)
    (hid : c.id ∈ (passOver j m cs).reqs) : c.phase = .inPass := by
  obtain ⟨y, -, rfl⟩ := mem_updWhere hc
  split at hid
  next hin => rw [if_pos hin]
  next hout => exact absurd (List.contains_iff_mem.mpr hid) hout

include hs in
theorem passStart_starts {m : Nat} {cs : List Ctx} (hpass : s.j.coe.pass = none) (hshed : s.j.isl.shedStep = 0)
    (hcores : 4 ≤ s.j.activeCores) (hwhole : s.j.isl.whole = false) (hbatch : s.j.nextBatch = some (m, cs)) :
    ∃ (t : State) (p : Pass), exec .passStart s = .next t ∧ t.j.coe.pass = some p ∧ p.model = m ∧
      p.reqs = (cs.map fun c => c.id) ∧ p.rows = rowTable cs ∧ p.padded = ceilDiv (rowTable cs).length 512 * 512 ∧
      p.ranks = ((List.range 8).map (startRank (rowTable cs) p.padded cs.length)) ∧ p.startTime = s.j.time ∧
      t.j.coe.rerun = none ∧ (∀ c ∈ t.j.sw.ctxs, c.id ∈ p.reqs → c.phase = .inPass) ∧
      t = { s with j := { s.j with coe := { s.j.coe with pass := some p, rerun := none, models := t.j.coe.models },
                                   sw := { s.j.sw with ctxs := t.j.sw.ctxs } } } := by
  refine ⟨{ s with j := passStarted s.j m cs }, passOver s.j m cs, ?_, rfl, rfl, rfl, rfl, rfl, rfl, rfl, rfl,
    fun c hc hid => phase_of_mem_passStarted hc hid, rfl⟩
  rw [exec_passStart hs, startPass_of_batch hpass hshed hcores hwhole hbatch]

end

/-! ### The end of a pass (R173, R200) -/

section
open Jenjor
variable {s : State} {p : Pass} (hs : s.j.live = true) (hp : s.j.coe.pass = some p)

include hs in
theorem exec_passComplete : exec .passComplete s = .next { s with j := s.j.completePass } := by
  change execPassComplete s = _
  unfold execPassComplete
  exact onBlocks_of_live _ hs

include hs hp

theorem exec_passComplete_early {k : Rank} (hk : k ∈ p.ranks) (hruns : k.ended = false) : exec .passComplete s = .next s := by
  have hany : (p.ranks.any fun k => !k.ended) = true := List.any_eq_true.mpr ⟨k, hk, by simp [hruns]⟩
  rw [exec_passComplete hs]
  unfold completePass
  simp only [hp, hany, if_true]

end

/-- The module once a pass of model `m` that held `n` requests is over and counted (R200, R206). -/
def passRetired (j : Jenjor) (m n : Nat) : Jenjor :=
  ({ j with coe := { j.coe with pass := none } }.count blkCOE (0x1018 + m * 0x40)).bump (blkBase blkCOE + 0x1020 + m * 0x40) n

section
open Jenjor
variable (j : Jenjor) (m n : Nat)

theorem blkBase_coe : blkBase blkCOE = 0x70000 := rfl

theorem passRetired_passes :
    ((passRetired j m n).counter (0x71018 + m * 0x40)).count = (j.counter (0x71018 + m * 0x40)).count + 1 := by
  have haddr : blkBase blkCOE + (0x1018 + m * 0x40) = 0x71018 + m * 0x40 := by rw [blkBase_coe]; omega
  rw [passRetired, counter_bump_ne _ _ _ _ (by rw [blkBase_coe]; omega), Jenjor.count, haddr, counter_bump, if_pos rfl]
  rfl

theorem passRetired_requests : ((passRetired j m n).counter (0x71020 + m * 0x40)).count
    = (j.counter (0x71020 + m * 0x40)).count + BitVec.ofNat 48 n := by
  have haddr : blkBase blkCOE + 0x1020 + m * 0x40 = 0x71020 + m * 0x40 := rfl
  rw [passRetired, haddr, counter_bump, if_pos rfl, Jenjor.count,
    counter_bump_ne _ _ _ _ (by rw [blkBase_coe]; omega)]
  rfl

end

section
open Jenjor
variable {p : Pass} {m : Model}

theorem completePass_of_ended {j : Jenjor} (hp : j.coe.pass = some p) (hended : ∀ k ∈ p.ranks, k.ended = true)
    (hout : missingOutputs p = []) (hm : j.model? p.model = some m) :
    j.completePass = (((List.range p.reqs.length).zip p.reqs).foldl (fun j x => j.handOver m p x.1 x.2)
      (passRetired j p.model p.reqs.length)).settleModels := by
  have hall : ¬ (p.ranks.any fun k => !k.ended) = true := by simpa using hended
  unfold completePass
  simp only [hp, if_neg hall, hout, hm]
  rfl

variable {s : State} (hs : s.j.live = true) (hp : s.j.coe.pass = some p)
include hs hp

theorem passComplete_handsOver (hended : ∀ k ∈ p.ranks, k.ended = true) (hout : missingOutputs p = [])
    (hm : s.j.model? p.model = some m) :
    ∃ k : Jenjor, exec .passComplete s
        = .next { s with j := (((List.range p.reqs.length).zip p.reqs).foldl (fun j x => j.handOver m p x.1 x.2) k).settleModels } ∧
      k.coe.pass = none ∧ (k.counter (0x71018 + p.model * 0x40)).count = (s.j.counter (0x71018 + p.model * 0x40)).count + 1 ∧
      (k.counter (0x71020 + p.model * 0x40)).count
        = (s.j.counter (0x71020 + p.model * 0x40)).count + BitVec.ofNat 48 p.reqs.length ∧
      k = { s.j with coe := { s.j.coe with pass := none }, ctrs := k.ctrs } := by
  refine ⟨passRetired s.j p.model p.reqs.length, ?_, rfl, passRetired_passes .., passRetired_requests .., rfl⟩
  rw [exec_passComplete hs, completePass_of_ended hp hended hout hm]

end

/-! ### Faults of programs (R201, R206) -/

namespace Jenjor

/-- COE_FAULT of a core holds a fault. -/
def faultHeld (j : Jenjor) (n : Nat) : Prop := ∀ c, j.coe.cores[n]? = some c → c.faultValid = true

/-- Which core runs a rank hangs on the cores' active and failed marks alone (R180). -/
theorem coreOfRank_noteFault (j : Jenjor) (r n : Nat) (code : ProgFault) (idx : Nat) :
    (j.noteFault r code idx).coreOfRank n = j.coreOfRank n := by
  have hmarks : ∀ c : Nat, ((j.noteFault r code idx).coe.cores[c]?).any (fun x : CoeCore => x.active && !x.failed)
      = (j.coe.cores[c]?).any fun x : CoeCore => x.active && !x.failed := fun c => by
    simp only [noteFault, List.getElem?_modify]
    cases j.coe.cores[c]? with
    | none => rfl
    | some x =>
      by_cases hc : j.coreOfRank r = c <;> cases hv : x.faultValid <;> simp [hc, hv]
  simp only [coreOfRank, hmarks]

theorem noteFault_holds (j : Jenjor) (r : Nat) (code : ProgFault) (idx : Nat) :
    (j.noteFault r code idx).faultHeld (j.coreOfRank r) := fun c hc => by
  obtain ⟨x, -, rfl⟩ := Option.map_eq_some_iff.mp ((List.getElem?_modify_eq ..).symm.trans hc)
  split
  next h => exact h
  · rfl

theorem faultHeld_noteFault {j : Jenjor} {n : Nat} (h : j.faultHeld n) (r : Nat) (code : ProgFault) (idx : Nat) :
    (j.noteFault r code idx).faultHeld n := by
  by_cases hn : j.coreOfRank r = n
  · exact hn ▸ noteFault_holds j r code idx
  · exact fun c hc => h c ((List.getElem?_modify_ne _ _ hn).symm.trans hc)

/-- Faults of some ranks, noted one after the other. -/
def faultsNoted (j : Jenjor) (ranks : List Nat) (code : ProgFault) (idx : Nat → Nat) : Jenjor :=
  ranks.foldl (fun j r => j.noteFault r code (idx r)) j

section
variable (ranks : List Nat) (code : ProgFault) (idx : Nat → Nat) (j : Jenjor)

theorem faultsNoted_frame : j.faultsNoted ranks code idx
    = { j with coe := { j.coe with cores := (j.faultsNoted ranks code idx).coe.cores } } := by
  induction ranks generalizing j with
  | nil => rfl
  | cons r ranks ih =>
    have hframe := ih (j.noteFault r code (idx r))
    exact hframe

theorem faultHeld_faultsNoted {n : Nat} (h : (∃ r ∈ ranks, j.coreOfRank r = n) ∨ j.faultHeld n) :
    (j.faultsNoted ranks code idx).faultHeld n := by
  induction ranks generalizing j with
  | nil => exact h.resolve_left nofun
  | cons r ranks ih =>
    refine ih (j.noteFault r code (idx r)) ?_
    obtain ⟨i, hi, hcore⟩ | h := h
    · obtain rfl | hi := List.mem_cons.mp hi
      · exact .inr (hcore ▸ noteFault_holds j i code (idx i))
      · exact .inl ⟨i, hi, (coreOfRank_noteFault ..).trans hcore⟩
    · exact .inr (faultHeld_noteFault h r code (idx r))

end
end Jenjor

namespace Jenjor

/-- The module once the faults of some ranks have ended the pass `p` (R201). -/
def passStopped (j : Jenjor) (p : Pass) (ranks : List Nat) (code : ProgFault) : Jenjor :=
  let k := j.faultsNoted ranks code fun r => (p.ranks[r]?.map fun k => k.pc).getD 0
  { k with coe := { k.coe with pass := none } }

/-- The module once those faults are counted and recorded too, and the model of the pass drains. -/
def passFaulted (j : Jenjor) (p : Pass) (ranks : List Nat) (code : ProgFault) : Jenjor :=
  (((j.passStopped p ranks code).count blkCOE 0x2018).record 5 blkCOE p.model 0x2018 0 Status.programFault.code 0).mapModel
    p.model fun m => { m with phase := .draining }

theorem progFault_eq {j : Jenjor} {p : Pass} (hp : j.coe.pass = some p) (ranks : List Nat) (code : ProgFault) :
    j.progFault ranks code = ((j.passFaulted p ranks code).failRequests p.model p.reqs .programFault).settleModels := by
  unfold progFault
  simp only [hp]
  rfl

section
variable (j : Jenjor) (p : Pass) (ranks : List Nat) (code : ProgFault)

theorem passStopped_frame : j.passStopped p ranks code
    = { j with coe := { j.coe with pass := none, cores := (j.passStopped p ranks code).coe.cores } } := by
  unfold passStopped
  rw [faultsNoted_frame]

theorem passFaulted_pass : (j.passFaulted p ranks code).coe.pass = none := by
  rw [passFaulted, mapModel, record_coe, count_coe]
  rfl

theorem passFaulted_cores : (j.passFaulted p ranks code).coe.cores = (j.passStopped p ranks code).coe.cores := by
  rw [passFaulted, mapModel, record_coe, count_coe]

theorem passFaulted_drains : ((j.passFaulted p ranks code).model? p.model).all (fun m => m.phase == .draining) = true := by
  refine Option.all_eq_true _ _ |>.mpr fun m hm => ?_
  rw [passFaulted, model?, mapModel, List.getElem?_modify_eq] at hm
  obtain ⟨x, -, rfl⟩ := Option.map_eq_some_iff.mp hm
  rfl

theorem passFaulted_count : ((j.passFaulted p ranks code).counter 0x72018).count = (j.counter 0x72018).count + 1 := by
  have hctrs : (j.passStopped p ranks code).ctrs = j.ctrs := by rw [passStopped_frame]
  rw [passFaulted, counter_of_ctrs (mapModel_ctrs ..), counter_record _ _ _ _ _ _ _ _ _ (by decide), ← counter_of_ctrs hctrs]
  exact congrArg Ctr.count (counter_bump (j.passStopped p ranks code) 0x72018 1 0x72018)

theorem passFaulted_head : (j.passFaulted p ranks code).log.head = j.log.head + 1 := by
  rw [passFaulted, mapModel_log, record_head, count_log, passStopped_frame]

theorem faultHeld_passFaulted {r : Nat} (hr : r ∈ ranks) : (j.passFaulted p ranks code).faultHeld (j.coreOfRank r) := by
  have hheld := faultHeld_faultsNoted ranks code (fun r => (p.ranks[r]?.map fun k => k.pc).getD 0) j (.inl ⟨r, hr, rfl⟩)
  intro c hc
  rw [passFaulted_cores] at hc
  exact hheld c hc

theorem passFaulted_frame : j.passFaulted p ranks code = { j with
    coe := (j.passFaulted p ranks code).coe, ctrs := (j.passFaulted p ranks code).ctrs,
    log := (j.passFaulted p ranks code).log } := by
  rw [passFaulted, record_frame, passStopped_frame]
  rfl

end
end Jenjor

/-- Ranks that have not ended: those that the watchdog finds (R201). -/
def ranksRunning (p : Pass) : List Nat := (List.range 8).filter fun r => (p.ranks[r]?).any fun k => !k.ended

section
open Jenjor
variable {s : State} {p : Pass} (hs : s.j.live = true) (hp : s.j.coe.pass = some p)
include hs hp

theorem exec_passWatchdog : exec .passWatchdog s = .next { s with j := s.j.progFault (ranksRunning p) .watchdog } := by
  change execPassWatchdog s = _
  unfold execPassWatchdog
  simp only [onBlocks_of_live _ hs, hp]
  rfl

theorem passWatchdog_abandons :
    ∃ k : Jenjor, exec .passWatchdog s = .next { s with j := (k.failRequests p.model p.reqs .programFault).settleModels } ∧
      k.coe.pass = none ∧ (k.model? p.model).all (fun m => m.phase == .draining) = true ∧
      (k.counter 0x72018).count = (s.j.counter 0x72018).count + 1 ∧ k.log.head = s.j.log.head + 1 ∧
      (∀ (r : Nat) (x : Rank) (c : CoeCore), r < 8 → p.ranks[r]? = some x → x.ended = false →
        k.coe.cores[s.j.coreOfRank r]? = some c → c.faultValid = true) ∧
      k = { s.j with coe := k.coe, ctrs := k.ctrs, log := k.log } := by
  refine ⟨s.j.passFaulted p (ranksRunning p) .watchdog, ?_, passFaulted_pass .., passFaulted_drains .., passFaulted_count ..,
    passFaulted_head .., fun r x c hr hx hruns hc => ?_, passFaulted_frame ..⟩
  · rw [exec_passWatchdog hs hp, progFault_eq hp]
  · have hrunning : r ∈ ranksRunning p := List.mem_filter.mpr ⟨List.mem_range.mpr hr, by simp [hx, hruns]⟩
    exact faultHeld_passFaulted s.j p _ .watchdog hrunning c hc

end

/-! ### Core failures (R178, R421) -/

theorem countP_le_countP_modify {α : Type} {p : α → Bool} {f : α → α} (hf : ∀ x, p x = true → p (f x) = true) (l : List α)
    (i : Nat) : l.countP p ≤ (l.modify i f).countP p := by
  induction l generalizing i with
  | nil => simp
  | cons x l ih =>
    cases i with
    | zero =>
      rw [List.modify_zero_cons, List.countP_cons, List.countP_cons]
      by_cases hx : p x = true
      · rw [if_pos hx, if_pos (hf x hx)]
      · rw [if_neg hx]
        exact Nat.le_add_right ..
    | succ i =>
      have hle := ih i
      simp only [List.modify_succ_cons, List.countP_cons]
      omega

/-- Changing one entry costs a count at most one. -/
theorem countP_le_countP_modify_succ {α : Type} (p : α → Bool) (f : α → α) (l : List α) (i : Nat) :
    l.countP p ≤ (l.modify i f).countP p + 1 := by
  induction l generalizing i with
  | nil => simp
  | cons x l ih =>
    cases i with
    | zero =>
      simp only [List.modify_zero_cons, List.countP_cons]
      split <;> omega
    | succ i =>
      have hle := ih i
      simp only [List.modify_succ_cons, List.countP_cons]
      omega

namespace Jenjor

/-- Change one core. -/
def mapCore (j : Jenjor) (n : Nat) (f : CoeCore → CoeCore) : Jenjor :=
  { j with coe := { j.coe with cores := j.coe.cores.modify n f } }

/-- A core that has failed (R178). -/
def coreOut (x : CoeCore) : CoeCore := { x with failed := true, active := false, spare := false }

/-- A spare as it enters service. -/
def coreIn (x : CoeCore) : CoeCore := { x with spare := false, active := true }

/-- The spare that takes a core's place: the lowest that has not failed (R178). -/
def spareCore (j : Jenjor) (n : Nat) : Option Nat :=
  (List.range 9).find? fun k => k != n && (j.coe.cores[k]?).any fun x => x.spare && !x.failed

section
variable {j : Jenjor} {core sp : Nat} {c : CoeCore}

theorem abandonPass_of_none (h : j.coe.pass = none) : j.abandonPass = j := by
  unfold abandonPass
  simp only [h]

theorem activeCores_eq (j : Jenjor) : j.activeCores = j.coe.cores.countP fun c => c.active && !c.failed :=
  List.countP_eq_length_filter.symm

theorem find?_spare_coreOut :
    ((List.range 9).find? fun k => ((j.mapCore core coreOut).coe.cores[k]?).any fun x => x.spare && !x.failed) = j.spareCore core := by
  unfold spareCore
  congr 1
  funext k
  by_cases hk : k = core
  · subst hk
    simp only [mapCore, List.getElem?_modify_eq, bne_self_eq_false, Bool.false_and]
    cases j.coe.cores[k]? <;> rfl
  · simp [mapCore, List.getElem?_modify_ne, Ne.symm hk, hk]

/-- The module once a core has left service and the spare has its place. -/
def spareServes (j : Jenjor) (core sp : Nat) : Jenjor := (j.mapCore core coreOut).mapCore sp coreIn

/-- One core of five or more leaves four; a spare that has not failed loses none. -/
theorem activeCores_spareServes (hcores : 5 ≤ j.activeCores) : 4 ≤ (j.spareServes core sp).activeCores := by
  rw [activeCores_eq] at hcores ⊢
  have hout := countP_le_countP_modify_succ (fun c : CoeCore => c.active && !c.failed) coreOut j.coe.cores core
  have hin := countP_le_countP_modify (p := fun c : CoeCore => c.active && !c.failed) (f := coreIn)
    (fun x hx => (Bool.and_eq_true_iff.mp hx).2) (j.coe.cores.modify core coreOut) sp
  exact (Nat.le_of_succ_le_succ (hcores.trans hout)).trans hin

theorem coreFailure_of_spare (hc : j.coe.cores[core]? = some c) (hok : c.failed = false) (hact : c.active = true)
    (hpass : j.coe.pass = none) (hsp : j.spareCore core = some sp) (hcores : 5 ≤ j.activeCores) :
    j.coreFailure core = (j.spareServes core sp).fault 3 blkCOE core 0xFFFF 0 0 0 := by
  have hfind : ((List.range 9).find? fun k => ((j.coe.cores.modify core fun x =>
      { x with failed := true, active := false, spare := false })[k]?).any fun x => x.spare && !x.failed) = some sp :=
    find?_spare_coreOut.trans hsp
  have hfour : ¬ ((j.spareServes core sp).fault 3 blkCOE core 0xFFFF 0 0 0).activeCores < 4 := by
    rw [activeCores, fault_coe]
    exact Nat.not_lt.2 (activeCores_spareServes hcores)
  unfold coreFailure
  simp only [hc, hok, hact, abandonPass_of_none hpass, hfind, Bool.false_eq_true, if_false, if_true]
  exact if_neg hfour

end
end Jenjor

section
open Jenjor
variable {s : State} {core sp : Nat} {c : CoeCore}

theorem exec_encoderCoreFailure (hs : s.j.live = true) (hcore : core < 9) :
    exec (.encoderCoreFailure core) s = .next { s with j := s.j.coreFailure core } := by
  change execEncoderCoreFailure core s = _
  unfold execEncoderCoreFailure
  exact onUnit_onBlocks hs _ (decide_eq_true hcore)

theorem exec_encoderCoreFailure_noSuchUnit (hcore : 9 ≤ core) : exec (.encoderCoreFailure core) s = .fault .noSuchUnit := by
  change execEncoderCoreFailure core s = _
  unfold execEncoderCoreFailure
  exact if_neg (by simpa using hcore)

theorem encoderCoreFailure_givesSpare (hs : s.j.live = true) (hcore : core < 9) (hc : s.j.coe.cores[core]? = some c)
    (hok : c.failed = false) (hact : c.active = true) (hpass : s.j.coe.pass = none) (hne : sp ≠ core)
    (hsp : s.j.spareCore core = some sp) (hcores : 5 ≤ s.j.activeCores) :
    ∃ t, exec (.encoderCoreFailure core) s = .next t ∧
      t.j.coe.cores[core]? = some { c with failed := true, active := false, spare := false } ∧
      t.j.coe.cores[sp]? = (s.j.coe.cores[sp]?).map (fun x => { x with spare := false, active := true }) ∧
      t.j.log.errClass.getLsbD 1 = true ∧ s.j.log.head < t.j.log.head ∧ t.j.sw = s.j.sw ∧
      t.j.coe = { s.j.coe with cores := t.j.coe.cores } := by
  refine ⟨{ s with j := (s.j.spareServes core sp).fault 3 blkCOE core 0xFFFF 0 0 0 }, ?_, ?_, ?_, ?_,
    head_lt_fault (s.j.spareServes core sp) .., (fault_sw ..).trans rfl, ?_⟩
  · rw [exec_encoderCoreFailure hs hcore, coreFailure_of_spare hc hok hact hpass hsp hcores]
  · rw [fault_coe]
    refine (List.getElem?_modify_ne _ _ hne).trans ((List.getElem?_modify_eq ..).trans ?_)
    rw [hc]
    rfl
  · rw [fault_coe]
    exact (List.getElem?_modify_eq ..).trans (congrArg (Option.map coreIn) (List.getElem?_modify_ne _ _ hne.symm))
  · rw [fault_errClass (h := by omega)]
    simp
  · rw [fault_coe]
    rfl

end

/-- Settles O21: a request from its entry to its pass, and a pass to its end, each event by its own lemma. -/
theorem encoderPasses : Obligations.EncoderPasses := by
  refine ⟨fun s q op f j c h hck hlive hcores hpin hfresh => queryTokens_waits h hck hlive hcores hpin hfresh,
    fun s q op f j st h hst => exec_queryTokens_refused h hst,
    fun s m cs hs hpass hshed hcores hwhole hbatch => passStart_starts hs hpass hshed hcores hwhole hbatch,
    fun m cs => takeRequests_eq_take m 0 0 cs,
    fun s hs hblocked => ?_,
    fun s p m hs hp hended hout hm _ => passComplete_handsOver hs hp hended hout hm,
    fun s p k hs hp hk hruns => exec_passComplete_early hs hp hk hruns,
    fun s p hs hp => passWatchdog_abandons hs hp,
    fun s core sp c hs hcore hc hok hact hpass hne hsp hcores =>
      encoderCoreFailure_givesSpare hs hcore hc hok hact hpass hne hsp hcores,
    fun s core hcore => exec_encoderCoreFailure_noSuchUnit hcore⟩
  rw [exec_passStart hs, startPass_of_blocked hblocked]

end Sys2Proof.Machine
end

section
namespace Sys2Proof.Machine

/-! ### The step of a rank (R193, R194) -/

/-- What an instruction of a rank makes of the module's state. -/
def ranTo (s : State) : Ran → State
  | .go p used => passGoes s p used
  | .fault ranks code => { s with j := s.j.progFault ranks code }
  | .wait => s

section
variable {s : State} {op : Nat} {h : Here}

@[simp] theorem ranTo_next (k : Rank) : ranTo s (h.next k) = rankGoes s h { k with pc := k.pc + 1 } 0 := rfl

@[simp] theorem ranTo_addressFault : ranTo s h.addressFault = { s with j := s.j.progFault [h.r] .address } := rfl

theorem standsAt.live (hs : standsAt s op h) : s.j.live = true := by
  obtain ⟨hlive, -⟩ := hs
  exact hlive

theorem standsAt.lt_eight (hs : standsAt s op h) : h.r < 8 := by
  obtain ⟨-, hr, -⟩ := hs
  exact hr

theorem standsAt.rank (hs : standsAt s op h) : h.p.ranks[h.r]? = some h.k := by
  obtain ⟨-, -, -, hrank, -⟩ := hs
  exact hrank

theorem rankStep_of_standsAt (hs : standsAt s op h) (f : Here → Ran) : s.j.rankStep h.r op f = (ranTo s (f h)).j := by
  obtain ⟨-, -, hpass, hrank, hmodel, hruns, hfree, hins, hop, hidx⟩ := hs
  have hhere : ({ m := h.m, p := h.p, r := h.r, k := h.k, i := atIns h.m h.k, free := s.j.freeIdx } : Here) = h := by
    rw [← hins, ← hidx]
  unfold Jenjor.rankStep
  simp only [hpass, hrank, hmodel, hruns, hfree, ← hins, hop]
  rw [hins, hhere, bne_self_eq_false]
  cases f h <;> rfl

theorem onRank_of_standsAt (hs : standsAt s op h) (f : Here → Ran) : onRank h.r op f s = .next (ranTo s (f h)) := by
  have hstep := rankStep_of_standsAt hs f
  refine (onUnit_onBlocks hs.live _ (decide_eq_true hs.lt_eight)).trans ?_
  rw [hstep]
  cases f h <;> rfl

end

/-! ### Operands that fit (R186) -/

namespace Here

/-- The operands that an instruction names. -/
abbrev opA (h : Here) : Bool × Nat := h.operand (insA h.i)
abbrev opB (h : Here) : Bool × Nat := h.operand (insB h.i)
abbrev opC (h : Here) : Bool × Nat := h.operand (insC h.i)

variable {h : Here} {o : Bool × Nat} {units : Nat} {exts : List ((Bool × Nat) × Nat)} {k : Ran}

theorem guard_nil : h.guard [] k = k := rfl

theorem guard_cons_of_fits (hfits : h.fits o units = true) : h.guard ((o, units) :: exts) k = h.guard exts k := by
  simp only [guard, List.all_cons, hfits, Bool.true_and]

theorem guard_cons_of_not_fits (hfits : h.fits o units = false) : h.guard ((o, units) :: exts) k = h.addressFault := by
  simp [guard, hfits]

end Here

end Sys2Proof.Machine
end

section
namespace Sys2Proof.Machine

/-! ### Control (R187, R188, R195, R200) -/

section
variable {s : State} {h : Here}

/-- An instruction that sets one scalar to `v`. -/
theorem ranTo_setScalar {d n : Nat} {v : BitVec 32} (hv : BitVec.ofNat 32 n = v) :
    ranTo s (h.next (h.k.setScalar d n)) = rankGoes s h { h.k with pc := h.k.pc + 1, scalars := h.k.scalars.set d v } 0 := by
  subst hv
  rfl

theorem exec_addi (hs : standsAt s 0x03 h) : exec (.addi h.r) s = .next (rankGoes s h { h.k with
    pc := h.k.pc + 1, scalars := h.k.scalars.set (insD h.i) (h.k.scalars.getD (insS h.i) 0 + BitVec.ofNat 32 (insC h.i)) } 0) := by
  refine (onRank_of_standsAt hs _).trans (congrArg _ (ranTo_setScalar ?_))
  rw [BitVec.ofNat_add, Here.scalar, BitVec.ofNat_toNat, BitVec.setWidth_eq]

theorem exec_muli (hs : standsAt s 0x04 h) : exec (.muli h.r) s = .next (rankGoes s h { h.k with
    pc := h.k.pc + 1, scalars := h.k.scalars.set (insD h.i) (h.k.scalars.getD (insS h.i) 0 * BitVec.ofNat 32 (insC h.i)) } 0) := by
  refine (onRank_of_standsAt hs _).trans (congrArg _ (ranTo_setScalar ?_))
  rw [BitVec.ofNat_mul, Here.scalar, BitVec.ofNat_toNat, BitVec.setWidth_eq]

theorem exec_andi (hs : standsAt s 0x05 h) : exec (.andi h.r) s = .next (rankGoes s h { h.k with
    pc := h.k.pc + 1, scalars := h.k.scalars.set (insD h.i) (h.k.scalars.getD (insS h.i) 0 &&& BitVec.ofNat 32 (insC h.i)) } 0) := by
  refine (onRank_of_standsAt hs _).trans (congrArg _ (ranTo_setScalar ?_))
  rw [BitVec.ofNat_and, Here.scalar, BitVec.ofNat_toNat, BitVec.setWidth_eq]

theorem endBody_of_paired (hsends : h.k.sends = []) (hrecvs : h.k.recvs = []) :
    endBody h = .go { h.p with ranks := h.p.ranks.set h.r { h.k with ended := true } } 0 := by
  simp [endBody, unpaired_, hsends, hrecvs]

theorem loopBody_of_zero (hv : h.k.scalars.getD (insD h.i) 0 = 0) : loopBody h = .fault [h.r] .loopZero := by
  rw [loopBody, Here.scalar, hv]
  rfl

theorem ranTo_loopBody (hv : h.k.scalars.getD (insD h.i) 0 ≠ 0) : ranTo s (loopBody h) = rankGoes s h { h.k with
    pc := if h.k.scalars.getD (insD h.i) 0 = 1 then h.k.pc + 1 else insC h.i,
    scalars := h.k.scalars.set (insD h.i) (h.k.scalars.getD (insD h.i) 0 - 1) } 0 := by
  have hzero : h.scalar (insD h.i) ≠ 0 := fun hz => hv (BitVec.eq_of_toNat_eq hz)
  unfold loopBody
  simp only [hzero, if_false]
  by_cases hone : h.k.scalars.getD (insD h.i) 0 = 1
  · have : h.scalar (insD h.i) = 1 := congrArg BitVec.toNat hone
    rw [if_pos this, if_pos hone, ranTo_setScalar (v := h.k.scalars.getD (insD h.i) 0 - 1) (by rw [hone]; rfl)]
  · have hmore : h.scalar (insD h.i) ≠ 1 := fun ho => hone (BitVec.eq_of_toNat_eq ho)
    have hless : BitVec.ofNat 32 (h.scalar (insD h.i) - 1) = h.k.scalars.getD (insD h.i) 0 - 1 := by
      unfold Here.scalar at hzero ⊢
      bv_omega
    rw [if_neg hmore, if_neg hone, ← hless]
    rfl

/-- FENCE goes on, and the Logbook records its mark. -/
theorem exec_fence (hs : standsAt s 0x08 h) : exec (.fence h.r) s = .next { s with
    j := (rankGoes s h { h.k with pc := h.k.pc + 1 } 0).j.info blkCOE h.r 0xFFFF (insCount h.i) } := by
  have hstep : s.j.rankStep h.r 0x08 (fun h => h.next h.k) = (rankGoes s h { h.k with pc := h.k.pc + 1 } 0).j :=
    rankStep_of_standsAt hs _
  obtain ⟨hlive, hr, hpass, hrank, hmodel, -, -, hins, -, -⟩ := hs
  have hlt : h.r < h.p.ranks.length := (List.getElem?_eq_some_iff.mp hrank).1
  refine (onUnit_onBlocks hlive _ (decide_eq_true hr)).trans ?_
  simp only [hstep, hpass, Option.bind_some, hrank, hmodel, Option.map_some, Option.getD_some, ← hins]
  simp [rankGoes, passGoes, hlt]

theorem fence_effect (hs : standsAt s 0x08 h) :
    ∃ t, exec (.fence h.r) s = .next t ∧ t.j.coe = (rankGoes s h { h.k with pc := h.k.pc + 1 } 0).j.coe ∧
      t.j.log.head = s.j.log.head + 1 ∧
      (t.j.log.trace.head?).map (fun r => (r.cls, r.blk, r.unit, r.addr)) = some (0, blkCOE, h.r, insCount h.i) ∧
      t = { s with j := { s.j with coe := t.j.coe, log := t.j.log, ctrs := t.j.ctrs } } := by
  refine ⟨_, exec_fence hs, Jenjor.info_coe .., Jenjor.record_head .., ?_, ?_⟩
  · rw [Jenjor.info, Jenjor.record_log]
    rfl
  · rw [Jenjor.info_frame]
    rfl

theorem exec_nop_no_pass (r : Nat) (hlive : s.j.live = true) (hpass : s.j.coe.pass = none) (hr : r < 8) :
    exec (.nop r) s = .next s := by
  refine (onUnit_onBlocks hlive _ (decide_eq_true hr)).trans ?_
  unfold Jenjor.rankStep
  rw [hpass]

theorem exec_nop_noSuchUnit (r : Nat) (hr : 8 ≤ r) : exec (.nop r) s = .fault .noSuchUnit :=
  if_neg (by simpa using hr)

end

/-! ### Panels of the fill half (R187, R196) -/

theorem getD_map_range {α : Type} {n i : Nat} (f : Nat → α) (d : α) (hi : i < n) : ((List.range n).map f).getD i d = f i := by
  simp [hi]

/-- The fill half `old` with `n` panels from `first` on replaced. -/
def fillWith (first n : Nat) (panel : Nat → Option (List Byte)) (old : List (Option (List Byte))) : List (Option (List Byte)) :=
  (List.range 128).map fun i => if first ≤ i ∧ i < first + n then panel (i - first) else old.getD i none

section
variable {first n i : Nat} (panel : Nat → Option (List Byte)) (old : List (Option (List Byte)))

theorem getD_fillWith_inside (hroom : first + n ≤ 128) (hi : i < n) : (fillWith first n panel old).getD (first + i) none = panel i := by
  rw [fillWith, getD_map_range _ _ (by omega), if_pos (by omega), Nat.add_sub_cancel_left]

theorem getD_fillWith_outside (hi : i < 128) (hout : i < first ∨ first + n ≤ i) :
    (fillWith first n panel old).getD i none = old.getD i none := by
  rw [fillWith, getD_map_range _ _ hi, if_neg (by omega)]

end

/-! ### WLD (R187, R194) -/

/-- Byte of the package at which the panels of a WLD begin. -/
def wldOffset (h : Here) : Nat := (insC h.i + h.scalar (insD h.i)) * 256

/-- The fill half after a WLD. -/
def wldFill (h : Here) : List (Option (List Byte)) :=
  fillWith (insB h.i % 128) (insCount h.i) (fun i => some (bytesAt h.m.package (wldOffset h + i * 16384) 16384)) h.k.fill

/-- An earlier receive of this rank is for a panel that a WLD fills. -/
def wldAwaits (h : Here) : Prop :=
  ∃ x ∈ h.k.recvs, insB h.i % 128 < x.2 + x.1 ∧ x.2 < insB h.i % 128 + insCount h.i

section
variable {h : Here}

theorem wldBody_of_short (hlen : h.m.package.length < wldOffset h + insCount h.i * 16384) : wldBody h = h.addressFault :=
  if_pos (Bool.or_eq_true_iff.mpr (.inl (decide_eq_true hlen)))

theorem wldAwaits_iff :
    wldAwaits h ↔ (h.k.recvs.any fun x => insB h.i % 128 < x.2 + x.1 && x.2 < insB h.i % 128 + insCount h.i) = true := by
  simp [wldAwaits]

variable (hlen : wldOffset h + insCount h.i * 16384 ≤ h.m.package.length) (hroom : insB h.i % 128 + insCount h.i ≤ 128)
include hlen hroom

theorem wldBody_of_room : wldBody h =
    if (h.k.recvs.any fun x => insB h.i % 128 < x.2 + x.1 && x.2 < insB h.i % 128 + insCount h.i) = true then .wait
    else h.next { h.k with fill := wldFill h } :=
  if_neg (by simpa using ⟨hlen, hroom⟩)

theorem wldBody_waits (hawaits : wldAwaits h) : wldBody h = .wait :=
  (wldBody_of_room hlen hroom).trans (if_pos (wldAwaits_iff.mp hawaits))

theorem wldBody_fills (hfree : ¬ wldAwaits h) : wldBody h = h.next { h.k with fill := wldFill h } :=
  (wldBody_of_room hlen hroom).trans (if_neg fun hany => hfree (wldAwaits_iff.mpr hany))

end

/-! ### WRCV, WFWD and their pairing (R197) -/

section
variable {ranks : List Rank} {r fuel : Nat} {a b : Rank}

/-- Without a forward that waits nothing pairs. -/
theorem pairForwards_of_no_sends (hsends : (ranks[r]?).all (fun a => a.sends.isEmpty) = true) :
    pairForwards ranks r fuel = some ranks := by
  cases fuel with
  | zero => rfl
  | succ fuel =>
    unfold pairForwards
    cases ha : ranks[r]? with
    | none => rfl
    | some a =>
      have hnone : a.sends = [] := by simpa [ha] using hsends
      cases ranks[(r + 1) % 8]? with
      | none => rfl
      | some b => simp only [hnone]

section
variable (ha : ranks[r]? = some a) (hb : ranks[(r + 1) % 8]? = some b)
include ha hb

theorem pairForwards_of_no_recvs (hrecvs : b.recvs = []) : pairForwards ranks r fuel = some ranks := by
  cases fuel with
  | zero => rfl
  | succ fuel =>
    unfold pairForwards
    simp only [ha, hb, hrecvs]
    cases a.sends <;> rfl

variable {ps : List (List Byte)} {n first : Nat} (hsends : a.sends = [ps]) (hrecvs : b.recvs = [(n, first)])
include hsends hrecvs

theorem pairForwards_of_count_ne (hn : ps.length ≠ n) : pairForwards ranks r (fuel + 1) = none := by
  unfold pairForwards
  simp only [ha, hb, hsends, hrecvs]
  exact if_pos hn

/-- One forward and the one receive that it is for: the panels arrive, and nothing is left to pair. -/
theorem pairForwards_pairs (hne : (r + 1) % 8 ≠ r) (hn : ps.length = n) : pairForwards ranks r (fuel + 1) = some
    ((ranks.set r { a with sends := [] }).set ((r + 1) % 8)
      { b with recvs := [], fill := fillWith first n (fun i => ps[i]?) b.fill }) := by
  have hlt : r < ranks.length := (List.getElem?_eq_some_iff.mp ha).1
  unfold pairForwards
  simp only [ha, hb, hsends, hrecvs]
  refine (if_neg (not_not_intro hn)).trans (pairForwards_of_no_sends ?_)
  rw [List.getElem?_set_ne hne, List.getElem?_set_self hlt]
  rfl

end
end

section
variable {h : Here}

/-- The rank after a WRCV: the receive awaits its forward, its panels empty. -/
def wrcvRank (h : Here) : Rank :=
  { h.k with pc := h.k.pc + 1, recvs := h.k.recvs ++ [(insCount h.i, insB h.i % 128)],
             fill := fillWith (insB h.i % 128) (insCount h.i) (fun _ => none) h.k.fill }

theorem wrcvBody_of_room (hroom : insB h.i % 128 + insCount h.i ≤ 128)
    (hsends : (h.p.ranks[(h.r + 7) % 8]?).all (fun a => a.sends.isEmpty) = true) :
    wrcvBody h = .go { h.p with ranks := h.p.ranks.set h.r (wrcvRank h) } 0 := by
  have hnone : pairForwards (h.p.ranks.set h.r (wrcvRank h)) ((h.r + 7) % 8) 4 = some (h.p.ranks.set h.r (wrcvRank h)) := by
    refine pairForwards_of_no_sends ?_
    rwa [List.getElem?_set_ne (by omega)]
  refine (if_neg (Nat.not_lt.2 hroom)).trans ?_
  change pairFrom { h.p with ranks := h.p.ranks.set h.r (wrcvRank h) } _ = _
  rw [pairFrom, hnone]

/-- Panels of the compute half that a WFWD sends. -/
def wfwdPanels (h : Here) : List (List Byte) :=
  (List.range (insCount h.i)).filterMap fun i => h.k.compute.getD (insA h.i % 128 + i) none

/-- The rank after a WFWD whose receive has not come. -/
def wfwdRank (h : Here) : Rank := { h.k with pc := h.k.pc + 1, sends := [wfwdPanels h] }

theorem wfwdBody_of_full (hfull : (wfwdPanels h).length = insCount h.i) (hsends : h.k.sends = []) :
    wfwdBody h = pairFrom { h.p with ranks := h.p.ranks.set h.r (wfwdRank h) } h.r := by
  have hrank : ({ h.k with pc := h.k.pc + 1, sends := h.k.sends ++ [wfwdPanels h] } : Rank) = wfwdRank h := by
    rw [hsends]
    rfl
  exact (if_neg (not_not_intro hfull)).trans (congrArg (fun k => pairFrom { h.p with ranks := h.p.ranks.set h.r k } h.r) hrank)

variable {b : Rank} {n first : Nat} (hr : h.r < 8) (hlen : h.p.ranks.length = 8) (hsends : h.k.sends = [])
  (hfull : (wfwdPanels h).length = insCount h.i) (hb : h.p.ranks[(h.r + 1) % 8]? = some b)
include hr hlen hsends hfull hb

theorem wfwdBody_sends (hrecvs : b.recvs = []) :
    wfwdBody h = .go { h.p with ranks := h.p.ranks.set h.r (wfwdRank h) } 0 := by
  rw [wfwdBody_of_full hfull hsends, pairFrom, pairForwards_of_no_recvs (a := wfwdRank h) (b := b) ?_ ?_ hrecvs]
  · exact List.getElem?_set_self (by omega)
  · rwa [List.getElem?_set_ne (by omega)]

theorem wfwdBody_pairs (hrecvs : b.recvs = [(insCount h.i, first)]) : wfwdBody h = .go { h.p with
    ranks := (h.p.ranks.set h.r { h.k with pc := h.k.pc + 1 }).set ((h.r + 1) % 8)
      { b with recvs := [], fill := fillWith first (insCount h.i) (fun i => (wfwdPanels h)[i]?) b.fill } } 0 := by
  have hpaired : ({ wfwdRank h with sends := [] } : Rank) = { h.k with pc := h.k.pc + 1 } := by
    rw [wfwdRank, ← hsends]
  rw [wfwdBody_of_full hfull hsends, pairFrom,
    pairForwards_pairs (a := wfwdRank h) (b := b) ?_ ?_ rfl hrecvs (by omega) hfull, List.set_set, hpaired]
  · exact List.getElem?_set_self (by omega)
  · rwa [List.getElem?_set_ne (by omega)]

theorem wfwdBody_count_ne (hrecvs : b.recvs = [(n, first)]) (hn : n ≠ insCount h.i) :
    wfwdBody h = .fault [h.r, (h.r + 1) % 8] .pairing := by
  rw [wfwdBody_of_full hfull hsends, pairFrom,
    pairForwards_of_count_ne (a := wfwdRank h) (b := b) ?_ ?_ rfl hrecvs fun heq => hn (heq.symm.trans hfull)]
  · exact List.getElem?_set_self (by omega)
  · rwa [List.getElem?_set_ne (by omega)]

end

/-! ### The instructions at the module -/

section
variable {s : State} {h : Here}

theorem exec_endStream (hs : standsAt s 0x01 h) : exec (.endStream h.r) s = .next (ranTo s (endBody h)) := onRank_of_standsAt hs _
theorem exec_loop (hs : standsAt s 0x06 h) : exec (.loop h.r) s = .next (ranTo s (loopBody h)) := onRank_of_standsAt hs _
theorem exec_wld (hs : standsAt s 0x10 h) : exec (.wld h.r) s = .next (ranTo s (wldBody h)) := onRank_of_standsAt hs _
theorem exec_wrcv (hs : standsAt s 0x11 h) : exec (.wrcv h.r) s = .next (ranTo s (wrcvBody h)) := onRank_of_standsAt hs _
theorem exec_wfwd (hs : standsAt s 0x12 h) : exec (.wfwd h.r) s = .next (ranTo s (wfwdBody h)) := onRank_of_standsAt hs _

/-- SKIPZ: the instruction pointer passes the skipped instructions and the SKIPZ itself. -/
theorem exec_skipz (hs : standsAt s 0x07 h) : exec (.skipz h.r) s = .next (rankGoes s h
    { h.k with pc := h.k.pc + (if h.k.scalars.getD (insD h.i) 0 = 0 then insC h.i else 0) + 1 } 0) := by
  have hzero : h.scalar (insD h.i) = 0 ↔ h.k.scalars.getD (insD h.i) 0 = 0 :=
    ⟨fun hz => BitVec.eq_of_toNat_eq hz, fun hz => congrArg BitVec.toNat hz⟩
  refine (onRank_of_standsAt hs _).trans ?_
  simp only [hzero, ranTo_next]

theorem exec_flipStage_flips (hs : standsAt s 0x13 h) (hsends : h.k.sends = []) (hrecvs : h.k.recvs = []) :
    exec (.flipStage h.r) s = .next (rankGoes s h
      { h.k with pc := h.k.pc + 1, compute := h.k.fill, fill := List.replicate 128 none } 0) := by
  refine (onRank_of_standsAt hs _).trans ?_
  rw [hsends, hrecvs]
  rfl

theorem exec_flipStage_waits (hs : standsAt s 0x13 h) (hwaits : h.k.sends ≠ [] ∨ h.k.recvs ≠ []) :
    exec (.flipStage h.r) s = .next s := by
  refine (onRank_of_standsAt hs _).trans ?_
  rw [if_pos (by simpa using hwaits)]
  rfl

theorem wld_fills (hs : standsAt s 0x10 h) (hlen : wldOffset h + insCount h.i * 16384 ≤ h.m.package.length)
    (hroom : insB h.i % 128 + insCount h.i ≤ 128) (hfree : ¬ wldAwaits h) :
    ∃ k : Rank, exec (.wld h.r) s = .next (rankGoes s h k 0) ∧ k = { h.k with pc := h.k.pc + 1, fill := k.fill } ∧
      (∀ i, i < insCount h.i → k.fill.getD (insB h.i % 128 + i) none = some (bytesAt h.m.package (wldOffset h + i * 16384) 16384)) ∧
      (∀ i, i < 128 → i < insB h.i % 128 ∨ insB h.i % 128 + insCount h.i ≤ i → k.fill.getD i none = h.k.fill.getD i none) := by
  refine ⟨{ h.k with pc := h.k.pc + 1, fill := wldFill h }, ?_, rfl, fun i hi => ?_, fun i hi hout => ?_⟩
  · rw [exec_wld hs, wldBody_fills hlen hroom hfree, ranTo_next]
  · exact getD_fillWith_inside (fun i => some (bytesAt h.m.package (wldOffset h + i * 16384) 16384)) h.k.fill hroom hi
  · exact getD_fillWith_outside (fun i => some (bytesAt h.m.package (wldOffset h + i * 16384) 16384)) h.k.fill hi hout

theorem wrcv_reserves (hs : standsAt s 0x11 h) (hroom : insB h.i % 128 + insCount h.i ≤ 128)
    (hsends : (h.p.ranks[(h.r + 7) % 8]?).all (fun a => a.sends.isEmpty) = true) :
    ∃ k : Rank, exec (.wrcv h.r) s = .next (rankGoes s h k 0) ∧ k.recvs = h.k.recvs ++ [(insCount h.i, insB h.i % 128)] ∧
      (∀ i, i < insCount h.i → k.fill.getD (insB h.i % 128 + i) none = none) ∧
      k = { h.k with pc := h.k.pc + 1, fill := k.fill, recvs := k.recvs } := by
  refine ⟨wrcvRank h, ?_, rfl, fun i hi => getD_fillWith_inside (fun _ => none) h.k.fill hroom hi, rfl⟩
  rw [exec_wrcv hs, wrcvBody_of_room hroom hsends]
  rfl

end

/-- Settles O22: each instruction by its equation; a WFWD by what the rank after it awaits. -/
theorem programControlAndWeightPanels : Obligations.ProgramControlAndWeightPanels := by
  refine ⟨fun s h hs => onRank_of_standsAt hs _, fun s h hs hsends hrecvs => ?_, fun s h hs => onRank_of_standsAt hs _,
    fun s h => ⟨exec_addi, exec_muli, exec_andi⟩, fun s h hs => ⟨fun hv => ?_, fun hv => ?_⟩, fun s h hs => exec_skipz hs,
    fun s h hs => fence_effect hs, fun s r hlive hpass hr => exec_nop_no_pass r hlive hpass hr,
    fun s r hr => exec_nop_noSuchUnit r hr, fun s h hs => ⟨?_, fun hlen hroom hawaits => ?_, fun hlen => ?_⟩,
    fun s h hs hroom hsends _ => wrcv_reserves hs hroom hsends,
    fun s h b hs hlen hsends hb hfull => ⟨fun hrecvs => ?_, fun first hrecvs => ?_, fun n first hrecvs hn => ?_⟩,
    fun s h hs => ⟨exec_flipStage_flips hs, exec_flipStage_waits hs⟩⟩
  · rw [exec_endStream hs, endBody_of_paired hsends hrecvs]
    rfl
  · rw [exec_loop hs, loopBody_of_zero hv]
    rfl
  · rw [exec_loop hs, ranTo_loopBody hv]
  · exact wld_fills hs
  · rw [exec_wld hs, wldBody_waits hlen hroom hawaits]
    rfl
  · rw [exec_wld hs, wldBody_of_short hlen, ranTo_addressFault]
  · rw [exec_wfwd hs, wfwdBody_sends hs.lt_eight hlen hsends hfull hb hrecvs]
    rfl
  · rw [exec_wfwd hs, wfwdBody_pairs hs.lt_eight hlen hsends hfull hb hrecvs]
    rfl
  · rw [exec_wfwd hs, wfwdBody_count_ne hs.lt_eight hlen hsends hfull hb hrecvs hn]
    rfl

end Sys2Proof.Machine
end

section
namespace Sys2Proof.Machine

/-! ### What a fold over a range leaves to read -/

section
variable {σ β : Type} {f : σ → Nat → σ} (read : σ → β) {n : Nat}

/-- What no step touches reads as before. -/
theorem foldl_range_keeps (hkeep : ∀ k, k < n → ∀ m, read (f m k) = read m) (m : σ) : read ((List.range n).foldl f m) = read m :=
  List.foldlRecOn (motive := fun b => read b = read m) _ f rfl fun b hb k hk => (hkeep k (List.mem_range.mp hk) b).trans hb

/-- What step `i` alone sets reads as that step leaves it. -/
theorem foldl_range_reads {P : σ → Prop} (hP : ∀ m k, P m → P (f m k)) {i : Nat} {v : β} (hset : ∀ m, P m → read (f m i) = v)
    (hkeep : ∀ k, k < n → k ≠ i → ∀ m, read (f m k) = read m) (hi : i < n) {m : σ} (hm : P m) :
    read ((List.range n).foldl f m) = v := by
  induction n with
  | zero => exact absurd hi (Nat.not_lt_zero i)
  | succ n ih =>
    rw [List.range_succ, List.foldl_append]
    by_cases hin : i = n
    · subst hin
      exact hset _ (List.foldlRecOn (motive := P) _ f hm fun b hb k _ => hP b k hb)
    · exact (hkeep n (Nat.lt_succ_self n) (Ne.symm hin) _).trans
        (ih (fun k hk => hkeep k (Nat.lt_succ_of_lt hk)) (by omega))

/-- The same without an invariant. -/
theorem foldl_range_sets {i : Nat} {v : β} (hset : ∀ m, read (f m i) = v)
    (hkeep : ∀ k, k < n → k ≠ i → ∀ m, read (f m k) = read m) (hi : i < n) (m : σ) : read ((List.range n).foldl f m) = v :=
  foldl_range_reads read (P := fun _ => True) (fun _ _ _ => trivial) (fun m _ => hset m) hkeep hi trivial

end

/-! ### Sparse tables: an entry not listed reads as the default -/

section
variable {β : Type}

theorem lookup_filter_fst (p : Nat → Bool) (l : List (Nat × β)) (i : Nat) :
    (l.filter fun x => p x.1).lookup i = if p i = true then l.lookup i else none := by
  induction l with
  | nil => simp
  | cons x l ih =>
    obtain ⟨a, v⟩ := x
    by_cases hia : i = a
    · subst hia
      cases hp : p i <;> simp [hp, ih]
    · have hne : (i == a) = false := by simpa using hia
      cases hp : p a <;> simp [List.lookup_cons, hp, hne, ih]

theorem getD_lookup_store [DecidableEq β] (l : List (Nat × β)) (i k : Nat) (v zero : β) :
    (((if v = zero then [] else [(i, v)]) ++ l.filter fun x => x.1 != i).lookup k).getD zero
      = if k = i then v else (l.lookup k).getD zero := by
  have hrest := lookup_filter_fst (fun a => a != i) l k
  by_cases hk : k = i
  · subst hk
    by_cases hv : v = zero <;> simp [hv, hrest]
  · have hne : (k == i) = false := by simpa using hk
    by_cases hv : v = zero <;> simp [hv, hk, List.lookup_cons, hne, hrest]

end
end Sys2Proof.Machine
end

section
namespace Sys2Proof.Machine

/-! ### Accumulators (R189) -/

/-- Place of an accumulator in the table. -/
def accIdx (tile row col : Nat) : Nat := (tile * 256 + row) * 64 + col

/-- The word that an accumulator holds. -/
def accWord (acc : List (Nat × F32)) (i : Nat) : F32 := (acc.lookup i).getD 0

theorem accAt_eq (k : Rank) (t r c : Nat) : accAt k t r c = Fp.ofF32 (accWord k.acc (accIdx t r c)) := rfl

theorem accIdx_inj {t r c t' r' c' : Nat} (hr : r < 256) (hc : c < 64) (hr' : r' < 256) (hc' : c' < 64)
    (heq : accIdx t r c = accIdx t' r' c') : t = t' ∧ r = r' ∧ c = c' := by
  unfold accIdx at heq
  omega

theorem accWord_setAcc (acc : List (Nat × F32)) (i k : Nat) (v : F32) :
    accWord (setAcc acc i v) k = if k = i then v else accWord acc k := by
  have hstore := getD_lookup_store acc i k v 0
  by_cases hv : v = 0
  · rw [if_pos hv] at hstore
    rwa [accWord, setAcc, if_pos hv]
  · rw [if_neg hv] at hstore
    rwa [accWord, setAcc, if_neg hv]

theorem clearTiles_acc (k : Rank) (tile n t : Nat) {i : Nat} (hi : i < 16384) :
    (clearTiles k tile n).acc.lookup (t * 16384 + i)
      = if tile ≤ t ∧ t < tile + n then none else k.acc.lookup (t * 16384 + i) := by
  have ht : (t * 16384 + i) / 16384 = t := by omega
  refine (lookup_filter_fst (fun a => !(tile ≤ a / 16384 && a / 16384 < tile + n)) k.acc _).trans ?_
  rw [ht]
  by_cases hin : tile ≤ t ∧ t < tile + n
  · simp [hin]
  · have hout : t < tile ∨ tile + n ≤ t := by omega
    rw [if_neg hin, if_pos]
    simpa using hout

theorem clearTiles_slices (k : Rank) (tile n : Nat) {t : Nat} (ht : t < 32) :
    (clearTiles k tile n).slices.getD t 0 = if tile ≤ t ∧ t < tile + n then 0 else k.slices.getD t 0 :=
  getD_map_range _ 0 ht

/-! ### MMA (R189) -/

section
variable (h : Here)

/-- Tiles that an MMA adds to. -/
def mmaWidth : Nat := insMod h.i % 4 + 1
/-- Rows of each tile that an MMA adds to. -/
def mmaRows : Nat := 64 * (insMod h.i / 4 % 4 + 1)
/-- The activations of an MMA are E4M3 codes. -/
def mmaA8 : Bool := insMod h.i / 16 % 2 == 1
/-- The panel of the `i`th tile of an MMA. -/
def mmaPanel (i : Nat) : Option (List Byte) := h.k.compute.getD (insB h.i % 128 + i * (insB h.i / 256 % 128)) none

/-- What an accumulator of an MMA holds after it: its value and the slice sum. -/
def mmaSum (tile : Nat) (panel : List Byte) (r c : Nat) : F32 :=
  (add32 (accAt h.k tile r c)
    (sliceSum (mmaRow h (mmaA8 h) h.opA r) (panelColumn h.m.hdr.weight panel c))).toF32

/-- One tile of an MMA, element by element. -/
def mmaTileOf (tile : Nat) (panel : List Byte) (acc : List (Nat × F32)) : List (Nat × F32) :=
  (List.range 64).foldl (fun acc c =>
    (List.range (mmaRows h)).foldl (fun acc r => setAcc acc (accIdx tile r c) (mmaSum h tile panel r c)) acc) acc

theorem mmaTile_eq (tile : Nat) (panel : List Byte) (acc : List (Nat × F32)) :
    mmaTile h ((List.range (mmaRows h)).map fun r => (r, mmaRow h (mmaA8 h) h.opA r)) tile panel acc
      = mmaTileOf h tile panel acc := by
  simp only [mmaTile, List.foldl_map]
  rfl

/-- The accumulators after an MMA. -/
def mmaAcc : List (Nat × F32) :=
  (List.range (mmaWidth h)).foldl (fun acc i => mmaTileOf h (insTile h.i + i) ((mmaPanel h i).getD []) acc) h.k.acc

/-- The slice indices after an MMA. -/
def mmaSlices : List Nat :=
  (List.range 32).map fun t =>
    if ((List.range (mmaWidth h)).map fun i => insTile h.i + i).contains t then h.k.slices.getD t 0 + 1 else h.k.slices.getD t 0

end

section
variable {h : Here}

theorem mmaRows_le : mmaRows h ≤ 256 := by
  unfold mmaRows
  omega

section
variable {tile r c : Nat} (panel : List Byte) (acc : List (Nat × F32)) (hr : r < 256) (hc : c < 64)
include hr hc

theorem accWord_setAcc_ne {t r' c' : Nat} (v : F32) (hr' : r' < 256) (hc' : c' < 64) (hne : t ≠ tile ∨ r' ≠ r ∨ c' ≠ c) :
    accWord (setAcc acc (accIdx t r' c') v) (accIdx tile r c) = accWord acc (accIdx tile r c) := by
  rw [accWord_setAcc, if_neg]
  intro heq
  obtain ⟨ht, hrow, hcol⟩ := accIdx_inj hr hc hr' hc' heq
  omega

theorem accWord_mmaTileOf_outside {t : Nat} (hout : t ≠ tile ∨ mmaRows h ≤ r) :
    accWord (mmaTileOf h t panel acc) (accIdx tile r c) = accWord acc (accIdx tile r c) := by
  have hrows := mmaRows_le (h := h)
  refine foldl_range_keeps (fun acc => accWord acc (accIdx tile r c)) (fun c' hc' acc => ?_) acc
  refine foldl_range_keeps (fun acc => accWord acc (accIdx tile r c)) (fun r' hr' acc => ?_) acc
  exact accWord_setAcc_ne acc hr hc _ (by omega) hc' (by omega)

theorem accWord_mmaTileOf (hin : r < mmaRows h) :
    accWord (mmaTileOf h tile panel acc) (accIdx tile r c) = mmaSum h tile panel r c := by
  have hrows := mmaRows_le (h := h)
  refine foldl_range_sets (fun acc => accWord acc (accIdx tile r c)) (fun acc => ?_) (fun c' hc' hne acc => ?_) hc acc
  · refine foldl_range_sets (fun acc => accWord acc (accIdx tile r c)) (fun acc => ?_) (fun r' hr' hne acc => ?_) hin acc
    · exact (accWord_setAcc ..).trans (if_pos rfl)
    · exact accWord_setAcc_ne acc hr hc _ (by omega) hc (by omega)
  · refine foldl_range_keeps (fun acc => accWord acc (accIdx tile r c)) (fun r' hr' acc => ?_) acc
    exact accWord_setAcc_ne acc hr hc _ (by omega) hc' (by omega)

end

section
variable {i t r c : Nat} (hr : r < 256) (hc : c < 64)
include hr hc

theorem accWord_mmaAcc_outside (hout : t < insTile h.i ∨ insTile h.i + mmaWidth h ≤ t ∨ mmaRows h ≤ r) :
    accWord (mmaAcc h) (accIdx t r c) = accWord h.k.acc (accIdx t r c) := by
  refine foldl_range_keeps (fun acc => accWord acc (accIdx t r c)) (fun i hi acc => ?_) _
  exact accWord_mmaTileOf_outside _ acc hr hc (by omega)

theorem accWord_mmaAcc (hi : i < mmaWidth h) (hin : r < mmaRows h) :
    accWord (mmaAcc h) (accIdx (insTile h.i + i) r c) = mmaSum h (insTile h.i + i) ((mmaPanel h i).getD []) r c := by
  refine foldl_range_sets (fun acc => accWord acc (accIdx (insTile h.i + i) r c))
    (fun acc => accWord_mmaTileOf _ acc hr hc hin) (fun i' _ hne acc => ?_) hi _
  exact accWord_mmaTileOf_outside _ acc hr hc (.inl (by omega))

end

theorem mmaSlices_getD {i : Nat} (hi : i < mmaWidth h) (htiles : insTile h.i + mmaWidth h ≤ 32) :
    (mmaSlices h).getD (insTile h.i + i) 0 = h.k.slices.getD (insTile h.i + i) 0 + 1 := by
  rw [mmaSlices, getD_map_range _ _ (by omega), if_pos]
  simpa using hi

section
variable (hfits : h.fits h.opA (if mmaA8 h then 0x400 else 0x800) = true)
  (hpanels : ∀ i, i < mmaWidth h → (mmaPanel h i).isSome = true)
include hfits hpanels

/-- With its operand in its region and its panels filled an MMA asks for the slice order alone. -/
theorem mmaBody_of_fits : mmaBody h =
    if ((List.range (mmaWidth h)).map fun i => insTile h.i + i).any (fun t => h.k.slices.getD t 0 != insCount h.i) = true
    then .fault [h.r] .order else h.next { h.k with acc := mmaAcc h, slices := mmaSlices h } := by
  have hnone : ¬ ((List.range (mmaWidth h)).map (mmaPanel h)).any (fun p => p.isNone) = true := by
    simpa [← Option.isSome_iff_ne_none] using hpanels
  have hacc : (((List.range (mmaWidth h)).map fun i => insTile h.i + i).zip ((List.range (mmaWidth h)).map (mmaPanel h))).foldl
      (fun acc x => mmaTile h ((List.range (mmaRows h)).map fun r => (r, mmaRow h (mmaA8 h) h.opA r)) x.1
        (x.2.getD []) acc) h.k.acc = mmaAcc h := by
    simp only [mmaTile_eq, List.zip_map', List.foldl_map]
    rfl
  rw [← hacc]
  exact (Here.guard_cons_of_fits hfits).trans (Here.guard_nil.trans (if_neg hnone))

theorem mmaBody_in_order (horder : ∀ i, i < mmaWidth h → h.k.slices.getD (insTile h.i + i) 0 = insCount h.i) :
    mmaBody h = h.next { h.k with acc := mmaAcc h, slices := mmaSlices h } := by
  rw [mmaBody_of_fits hfits hpanels, if_neg]
  simpa using horder

theorem mmaBody_out_of_order (horder : ∃ i, i < mmaWidth h ∧ h.k.slices.getD (insTile h.i + i) 0 ≠ insCount h.i) :
    mmaBody h = .fault [h.r] .order := by
  rw [mmaBody_of_fits hfits hpanels, if_pos]
  simpa using horder

end

end

/-! ### The instructions at the module -/

section
variable {s : State} {h : Here}

theorem exec_aclr (hs : standsAt s 0x20 h) : exec (.aclr h.r) s
    = .next (ranTo s (h.next (clearTiles h.k (insTile h.i) (insCount h.i)))) := onRank_of_standsAt hs _

theorem exec_mma (hs : standsAt s 0x21 h) : exec (.mma h.r) s = .next (ranTo s (mmaBody h)) := onRank_of_standsAt hs _

theorem mma_adds (hs : standsAt s 0x21 h) (hfits : h.fits h.opA (if mmaA8 h then 0x400 else 0x800) = true)
    (hpanels : ∀ i, i < mmaWidth h → (mmaPanel h i).isSome = true) (htiles : insTile h.i + mmaWidth h ≤ 32)
    (horder : ∀ i, i < mmaWidth h → h.k.slices.getD (insTile h.i + i) 0 = insCount h.i) :
    ∃ k : Rank, exec (.mma h.r) s = .next (rankGoes s h k 0) ∧ k = { h.k with pc := h.k.pc + 1, acc := k.acc, slices := k.slices } ∧
      (∀ i r c, i < mmaWidth h → r < mmaRows h → c < 64 →
        accAt k (insTile h.i + i) r c = Fp.ofF32 (mmaSum h (insTile h.i + i) ((mmaPanel h i).getD []) r c)) ∧
      (∀ t r c, r < 256 → c < 64 → t < insTile h.i ∨ insTile h.i + mmaWidth h ≤ t ∨ mmaRows h ≤ r →
        accAt k t r c = accAt h.k t r c) ∧
      (∀ i, i < mmaWidth h → k.slices.getD (insTile h.i + i) 0 = insCount h.i + 1) := by
  refine ⟨{ h.k with pc := h.k.pc + 1, acc := mmaAcc h, slices := mmaSlices h }, ?_, rfl, fun i r c hi hin hc => ?_,
    fun t r c hr hc hout => ?_, fun i hi => ?_⟩
  · rw [exec_mma hs, mmaBody_in_order hfits hpanels horder, ranTo_next]
  · rw [accAt_eq, accWord_mmaAcc (hin.trans_le mmaRows_le) hc hi hin]
  · rw [accAt_eq, accWord_mmaAcc_outside hr hc hout, accAt_eq]
  · rw [mmaSlices_getD hi htiles, horder i hi]

end
end Sys2Proof.Machine
end

section
namespace Sys2Proof.Machine

/-! ### Rows of elements in the data region (R183) -/

/-- Elements of one row and column quarter count are apart. -/
theorem off8_inj {q r c r' c' : Nat} (hc : c < 64 * q) (hc' : c' < 64 * q) (heq : Here.off8 q r c = Here.off8 q r' c') :
    r = r' ∧ c = c' := by
  unfold Here.off8 at heq
  have hblock : r / 256 * q + c / 64 = r' / 256 * q + c' / 64 := by omega
  have hlt : c / 64 < q := by omega
  have hlt' : c' / 64 < q := by omega
  have hcol : c / 64 = c' / 64 := by
    have := congrArg (· % q) hblock
    simpa [Nat.mul_add_mod_self_right, Nat.mod_eq_of_lt hlt, Nat.mod_eq_of_lt hlt'] using this
  have hrow : r / 256 = r' / 256 := Nat.eq_of_mul_eq_mul_right (show 0 < q by omega) (by omega)
  omega

theorem zip_range_map {α : Type} (n : Nat) (g : Nat → α) :
    (List.range n).zip ((List.range n).map g) = (List.range n).map fun c => (c, g c) := by
  simpa using List.zip_map' (f := id) (g := g) (l := List.range n)

theorem map_zip_range {α : Type} (n : Nat) (g : Nat → α) :
    ((List.range n).map g).zip (List.range n) = (List.range n).map fun c => (g c, c) := by
  simpa using List.zip_map' (f := g) (g := id) (l := List.range n)

/-- A row of byte codes put into the data region. -/
def putCodes (u q r w : Nat) (code : Nat → Byte) (m : List Host.Cell) : List Host.Cell :=
  (List.range w).foldl (fun m c => Memory.write m (u * 64 + Here.off8 q r c) (code c)) m

section
variable {u q r w : Nat} (code : Nat → Byte) (m : List Host.Cell)

theorem putCodes_wf (hm : Memory.wf m = true) : Memory.wf (putCodes u q r w code m) = true :=
  Memory.foldl_wf (fun _ _ => Memory.write_wf _ _) _ hm

theorem read_putCodes_outside {a : Nat} (hout : ∀ c, c < w → a ≠ u * 64 + Here.off8 q r c) :
    Memory.read (putCodes u q r w code m) a = Memory.read m a :=
  foldl_range_keeps (fun m => Memory.read m a) (fun c hc m => Memory.read_write_ne m _ _ _ (hout c hc)) m

theorem read_putCodes {c : Nat} (hm : Memory.wf m = true) (hw : w ≤ 64 * q) (hc : c < w) :
    Memory.read (putCodes u q r w code m) (u * 64 + Here.off8 q r c) = code c := by
  refine foldl_range_reads (fun m => Memory.read m (u * 64 + Here.off8 q r c)) (P := fun m => Memory.wf m = true)
    (fun m c => Memory.write_wf _ _) (fun m hm => ?_) (fun c' hc' hne m => ?_) hc hm
  · exact (Memory.read_write (lo := 0) hm _ _ _).trans (if_pos rfl)
  · refine Memory.read_write_ne m _ _ _ fun heq => hne ?_
    exact (off8_inj (hc'.trans_le hw) (hc.trans_le hw) (Nat.add_left_cancel heq).symm).2

end

/-! ### QROW (R190) -/

section
variable (h : Here)

/-- Elements of row `r` of the source of a QROW. -/
def qrowSource (r : Nat) : List Fp := h.row h.opA (4 * insCount h.i) r (256 * insCount h.i)

/-- The exponent that a QROW gives row `r`. -/
def qrowExp (r : Nat) : Int := (a8Exponent (qrowSource h r)).getD (Config.rowExponent ((qrowSource h r).map Fp.toF32))

/-- The code that a QROW writes for an element. -/
def qrowCode (r c : Nat) : Byte :=
  BitVec.ofNat 8 (((h.actAt h.opA (Here.off16 (4 * insCount h.i) r c)).scale (-(qrowExp h r))).toBits fmtE4M3)

/-- One row of a QROW: its codes, and its exponent in the slot. -/
def qrowStep (k : Rank) (r : Nat) : Rank :=
  { k with mem := ((List.range (256 * insCount h.i)).zip (qrowSource h r)).foldl (fun m x =>
             Memory.write m (h.opB.2 * 64 + Here.off8 (4 * insCount h.i) r x.1)
               (BitVec.ofNat 8 ((x.2.scale (-(qrowExp h r))).toBits fmtE4M3))) k.mem,
           exps := (if qrowExp h r = 0 then [] else [(insS h.i * 256 + r, qrowExp h r)])
             ++ k.exps.filter fun x => x.1 != insS h.i * 256 + r }

theorem qrowStep_mem (k : Rank) (r : Nat) :
    (qrowStep h k r).mem = putCodes h.opB.2 (4 * insCount h.i) r (256 * insCount h.i) (qrowCode h r) k.mem := by
  rw [qrowStep, qrowSource, Here.row, zip_range_map, List.foldl_map]
  rfl

/-- The rank's state once a QROW has quantised its first `n` rows. -/
def qrowRows (n : Nat) : Rank := (List.range n).foldl (qrowStep h) h.k

theorem qrowBody_of_fits (hsrc : h.fits h.opA (insCount h.i * 0x800) = true)
    (hdst : h.fits h.opB (insCount h.i * 0x400) = true) : qrowBody h = h.next (qrowRows h 256) :=
  (Here.guard_cons_of_fits hsrc).trans ((Here.guard_cons_of_fits hdst).trans Here.guard_nil)

theorem expAt_qrowStep (k : Rank) (r r' : Nat) :
    expAt (qrowStep h k r') (insS h.i) r = if r = r' then qrowExp h r' else expAt k (insS h.i) r := by
  refine (getD_lookup_store k.exps (insS h.i * 256 + r') (insS h.i * 256 + r) (qrowExp h r') 0).trans ?_
  simp only [Nat.add_left_cancel_iff]
  rfl

variable {n : Nat}

theorem qrowRows_frame : qrowRows h n = { h.k with mem := (qrowRows h n).mem, exps := (qrowRows h n).exps } := by
  have hrest : ({ qrowRows h n with mem := h.k.mem, exps := h.k.exps } : Rank) = h.k :=
    foldl_range_keeps (f := qrowStep h) (fun k : Rank => { k with mem := h.k.mem, exps := h.k.exps }) (fun _ _ _ => rfl) h.k
  exact congrArg (fun k : Rank => { k with mem := (qrowRows h n).mem, exps := (qrowRows h n).exps }) hrest

theorem expAt_qrowRows {r : Nat} (hr : r < n) : expAt (qrowRows h n) (insS h.i) r = qrowExp h r :=
  foldl_range_sets (fun k => expAt k (insS h.i) r) (fun k => (expAt_qrowStep h k r r).trans (if_pos rfl))
    (fun r' _ hne k => (expAt_qrowStep h k r r').trans (if_neg hne.symm)) hr h.k

/-- Rows of one block lie in the `w` column tiles of the block. -/
theorem off8_lt {w r c : Nat} (hr : r < 256) (hc : c < 256 * w) : Here.off8 (4 * w) r c < w * 65536 := by
  rw [Here.off8, Nat.div_eq_of_lt hr, Nat.zero_mul]
  omega

theorem read_qrowRows {r c : Nat} (hm : Memory.wf h.k.mem = true) (hr : r < n) (hc : c < 256 * insCount h.i) :
    Memory.read (qrowRows h n).mem (h.opB.2 * 64 + Here.off8 (4 * insCount h.i) r c) = qrowCode h r c := by
  refine foldl_range_reads (fun k : Rank => Memory.read k.mem (h.opB.2 * 64 + Here.off8 (4 * insCount h.i) r c))
    (P := fun k => Memory.wf k.mem = true) (fun k r' hk => qrowStep_mem h k r' ▸ putCodes_wf _ _ hk) (fun k hk => ?_) (fun r' hr' hne k => ?_) hr hm
  · rw [qrowStep_mem]
    exact read_putCodes _ _ hk (by omega) hc
  · rw [qrowStep_mem]
    refine read_putCodes_outside _ _ fun c' hc' heq => hne ?_
    exact (off8_inj (by omega) (by omega) (Nat.add_left_cancel heq)).1.symm

theorem read_qrowRows_outside {a : Nat} (hn : n ≤ 256) (hout : a < h.opB.2 * 64 ∨
    h.opB.2 * 64 + insCount h.i * 65536 ≤ a) : Memory.read (qrowRows h n).mem a = Memory.read h.k.mem a := by
  refine foldl_range_keeps (fun k : Rank => Memory.read k.mem a) (fun r hr k => ?_) h.k
  rw [qrowStep_mem]
  refine read_putCodes_outside _ _ fun c hc heq => ?_
  have := off8_lt (hr.trans_le hn) hc
  omega

end

section
variable {s : State} {h : Here}

theorem exec_qrow (hs : standsAt s 0x23 h) : exec (.qrow h.r) s = .next (ranTo s (qrowBody h)) := onRank_of_standsAt hs _

theorem qrow_quantises (hs : standsAt s 0x23 h) (hm : Memory.wf h.k.mem = true)
    (hsrc : h.fits h.opA (insCount h.i * 0x800) = true)
    (hdst : h.fits h.opB (insCount h.i * 0x400) = true) :
    ∃ k : Rank, exec (.qrow h.r) s = .next (rankGoes s h k 0) ∧ k = { h.k with pc := h.k.pc + 1, mem := k.mem, exps := k.exps } ∧
      (∀ r, r < 256 → expAt k (insS h.i) r = qrowExp h r) ∧
      (∀ r c, r < 256 → c < 256 * insCount h.i →
        Memory.read k.mem (h.opB.2 * 64 + Here.off8 (4 * insCount h.i) r c)
          = BitVec.ofNat 8 (((h.actAt h.opA (Here.off16 (4 * insCount h.i) r c)).scale
              (-(expAt k (insS h.i) r))).toBits fmtE4M3)) ∧
      (∀ a, a < h.opB.2 * 64 ∨ h.opB.2 * 64 + insCount h.i * 65536 ≤ a →
        Memory.read k.mem a = Memory.read h.k.mem a) := by
  have hframe := qrowRows_frame h (n := 256)
  have hexp := fun r hr => expAt_qrowRows h (n := 256) (r := r) hr
  have hread := fun r c hr hc => read_qrowRows h (n := 256) (r := r) (c := c) hm hr hc
  have hkeep := fun a hout => read_qrowRows_outside h (n := 256) (a := a) (Nat.le_refl 256) hout
  rw [exec_qrow hs, qrowBody_of_fits h hsrc hdst, ranTo_next]
  generalize qrowRows h 256 = k at *
  refine ⟨{ k with pc := k.pc + 1 }, rfl, congrArg (fun k : Rank => { k with pc := k.pc + 1 }) hframe, hexp,
    fun r c hr hc => ?_, hkeep⟩
  exact (hread r c hr hc).trans (by rw [qrowCode, ← hexp r hr]; rfl)

end

/-! ### MOUT (R190) -/

section
variable {s : State} {h : Here}

theorem exec_mout (hs : standsAt s 0x22 h) : exec (.mout h.r) s = .next (ranTo s (moutBody h)) := onRank_of_standsAt hs _

theorem moutBody_of_fits (hscale : h.fits h.opA 1 = true) (hdst : h.fits h.opB 0x200 = true)
    (hbias : (insMod h.i / 4 % 2 == 1) = false → h.fits h.opC 2 = true) :
    moutBody h = h.next (h.putRows h.opB.2 1 ((List.range (insRows h.i)).map fun r =>
      (r, (List.range 64).map fun c =>
        (fma32 ((accAt h.k (insTile h.i) r c).scale (if insMod h.i / 8 % 2 == 1 then expAt h.k (insS h.i) r else 0))
          (h.f32Of h.opA 0)
          (if insMod h.i / 4 % 2 == 1 then Fp.zero else h.actAt h.opC (2 * c))).round h.act))) := by
  refine (Here.guard_cons_of_fits hscale).trans ((Here.guard_cons_of_fits hdst).trans ?_)
  cases hno : insMod h.i / 4 % 2 == 1 with
  | true => exact Here.guard_nil
  | false => exact (Here.guard_cons_of_fits (hbias hno)).trans Here.guard_nil

end

/-- Settles O23: an accumulator by the one step of the MMA that adds to it, a code by the one row of the QROW that writes it. -/
theorem matrixInstructions : Obligations.MatrixInstructions := by
  refine ⟨fun s h hs => ?_, fun s h hs => ?_, fun s h hs => ?_, fun s h hs hm => qrow_quantises hs hm⟩
  · exact ⟨_, exec_aclr hs, rfl, fun t i hi => clearTiles_acc h.k _ _ t hi, fun t ht => clearTiles_slices h.k _ _ ht⟩
  · intro w a8 o panel hfits hpanels htiles
    refine ⟨mma_adds hs hfits hpanels htiles, fun horder => ?_⟩
    rw [exec_mma hs, mmaBody_out_of_order hfits hpanels horder]
    rfl
  · intro dst scale bias nobias hscale hdst hbias
    rw [exec_mout hs, moutBody_of_fits hscale hdst hbias]
    rfl

end Sys2Proof.Machine
end

section
namespace Sys2Proof.Machine

/-! ### Rows of 16-bit elements (R183) -/

theorem off16_eq (q r c : Nat) : Here.off16 q r c = 2 * Here.off8 q r c := by
  unfold Here.off16 Here.off8
  omega

/-- A row of 16-bit elements put into the data region. -/
def putElems (f : FpFmt) (u q r w : Nat) (g : Nat → Fp) (m : List Host.Cell) : List Host.Cell :=
  (List.range w).foldl (fun m c => Memory.writeBytes m (u * 64 + Here.off16 q r c) (leBytes 2 ((g c).toWord16 f).toNat)) m

theorem putRow_map_range (f : FpFmt) (u q r w : Nat) (g : Nat → Fp) (m : List Host.Cell) :
    Here.putRow f m u q r ((List.range w).map g) = putElems f u q r w g m := by
  rw [Here.putRow, List.length_map, List.length_range, map_zip_range, List.foldl_map]
  rfl

theorem putRows_map_range_mem (h : Here) (u q n w : Nat) (f : Nat → Nat → Fp) :
    (h.putRows u q ((List.range n).map fun r => (r, (List.range w).map (f r)))).mem
      = (List.range n).foldl (fun m r => putElems h.act u q r w (f r) m) h.k.mem := by
  simp only [Here.putRows, List.foldl_map, putRow_map_range]

section
variable {f : FpFmt} {u q r w : Nat} (g : Nat → Fp) (m : List Host.Cell)

theorem putElems_wf (hm : Memory.wf m = true) : Memory.wf (putElems f u q r w g m) = true :=
  Memory.foldl_wf (fun _ _ => Memory.writeBytes_wf _ _) _ hm

theorem read_putElems_outside {a : Nat}
    (hout : ∀ c, c < w → a ≠ u * 64 + Here.off16 q r c ∧ a ≠ u * 64 + Here.off16 q r c + 1) :
    Memory.read (putElems f u q r w g m) a = Memory.read m a := by
  refine foldl_range_keeps (fun m => Memory.read m a) (fun c hc m => Memory.read_writeBytes_outside m _ _ _ ?_) m
  have := hout c hc
  change a < _ ∨ _ + 2 ≤ a
  omega

theorem read_putElems {c b : Nat} (hm : Memory.wf m = true) (hw : w ≤ 64 * q) (hc : c < w) (hb : b < 2) :
    Memory.read (putElems f u q r w g m) (u * 64 + Here.off16 q r c + b)
      = (leBytes 2 ((g c).toWord16 f).toNat).getD b 0 := by
  refine foldl_range_reads (fun m => Memory.read m (u * 64 + Here.off16 q r c + b)) (P := fun m => Memory.wf m = true)
    (fun m c => Memory.writeBytes_wf _ _) (fun m hm => ?_) (fun c' hc' hne m => ?_) hc hm
  · refine (Memory.read_writeBytes _ _ _ hm).trans ?_
    rw [if_pos ⟨by omega, Nat.add_lt_add_left hb _⟩, Nat.add_sub_cancel_left]
  · refine Memory.read_writeBytes_outside m _ _ _ ?_
    have hapart : Here.off8 q r c ≠ Here.off8 q r c' := fun heq => hne (off8_inj (hc.trans_le hw) (hc'.trans_le hw) heq).2.symm
    change _ < _ ∨ _ + 2 ≤ _
    rw [off16_eq, off16_eq]
    omega

end

section
variable (h : Here) (u q n w : Nat) (f : Nat → Nat → Fp)

theorem readBytes_putRows (hm : Memory.wf h.k.mem = true) (hw : w ≤ 64 * q) {r c : Nat} (hr : r < n) (hc : c < w) :
    Memory.readBytes (h.putRows u q ((List.range n).map fun r => (r, (List.range w).map (f r)))).mem (u * 64 + Here.off16 q r c) 2
      = leBytes 2 ((f r c).toWord16 h.act).toNat := by
  have hbyte : ∀ b, b < 2 → Memory.read (h.putRows u q ((List.range n).map fun r => (r, (List.range w).map (f r)))).mem
      (u * 64 + Here.off16 q r c + b) = (leBytes 2 ((f r c).toWord16 h.act).toNat).getD b 0 := fun b hb => by
    rw [putRows_map_range_mem]
    refine foldl_range_reads (fun m => Memory.read m (u * 64 + Here.off16 q r c + b)) (P := fun m => Memory.wf m = true)
      (fun m r' => putElems_wf _ m) (fun m hm => read_putElems _ m hm hw hc hb) (fun r' hr' hne m => ?_) hr hm
    refine read_putElems_outside _ m fun c' hc' => ?_
    have hapart : Here.off8 q r c ≠ Here.off8 q r' c' := fun heq => hne (off8_inj (hc.trans_le hw) (hc'.trans_le hw) heq).1.symm
    rw [off16_eq, off16_eq]
    omega
  exact congrArg₂ (fun x y => [x, y]) (hbyte 0 (by omega)) (hbyte 1 (by omega))

theorem read_putRows_outside {a : Nat}
    (hout : ∀ r c, r < n → c < w → a ≠ u * 64 + Here.off16 q r c ∧ a ≠ u * 64 + Here.off16 q r c + 1) :
    Memory.read (h.putRows u q ((List.range n).map fun r => (r, (List.range w).map (f r)))).mem a = Memory.read h.k.mem a := by
  rw [putRows_map_range_mem]
  exact foldl_range_keeps (fun m => Memory.read m a) (fun r hr m => read_putElems_outside _ m fun c hc => hout r c hr hc) h.k.mem

end

/-! ### GATH (R191) -/

section
variable {h : Here}

/-- The rows that a GATH gathers; none where a package read lies outside the package. -/
def gathRows (h : Here) : List (Nat × Option (List Fp)) :=
  (List.range (64 * insCount h.i)).map fun i => (i, gathRow h (h.info (h.r * h.rankRows + h.scalar (insS h.i) + i)))

variable (hdst : h.fits h.opA (h.m.hdr.rowUnits (64 * insCount h.i)) = true)
include hdst

theorem gathBody_gathers (hrows : ∀ x ∈ gathRows h, x.2.isSome = true) : gathBody h = h.next
    (h.putRows h.opA.2 (h.m.hdr.width / 64) ((gathRows h).map fun x => (x.1, x.2.getD []))) := by
  have hnone : ¬ (gathRows h).any (fun x => x.2.isNone) = true := fun hany => by
    obtain ⟨x, hx, hisnone⟩ := List.any_eq_true.mp hany
    exact Option.isSome_iff_ne_none.mp (hrows x hx) (Option.isNone_iff_eq_none.mp hisnone)
  exact (Here.guard_cons_of_fits hdst).trans (Here.guard_nil.trans (if_neg hnone))

theorem gathBody_outside (hrow : ∃ x ∈ gathRows h, x.2 = none) : gathBody h = h.addressFault := by
  have hnone : (gathRows h).any (fun x => x.2.isNone) = true := by simpa using hrow
  exact (Here.guard_cons_of_fits hdst).trans (Here.guard_nil.trans (if_pos hnone))

end

/-! ### ATTN (R192) -/

section
variable (h : Here)

/-- Rows of the pass in the sequence of a row. -/
def seqLength (x : RowInfo) : Nat := (h.p.rows.filter fun y => y.seq == x.seq).length

/-- First pass row of an ATTN. -/
def attnBase : Nat := h.scalar (insD h.i)

/-- First pass row of the sequence of row `i` of an ATTN, which the row table gives as `x`. -/
def attnStart (i : Nat) (x : RowInfo) : Nat := attnBase h + i - x.pos

/-- The sequence of row `i` of an ATTN does not lie in its rows. -/
def attnCuts (i : Nat) : Bool :=
  match h.info (attnBase h + i) with
  | none => false
  | some x =>
    attnStart h i x < attnBase h
      || attnBase h + 256 * insCount h.i < attnStart h i x + seqLength h x

/-- Row `i` of an ATTN's output: zero for a padding row. -/
def attnOut (i : Nat) : Nat × List Fp :=
  match h.info (attnBase h + i) with
  | none => (i, List.replicate h.m.hdr.headDim Fp.zero)
  | some x =>
    (i, attnRow h (attnBase h) (h.m.hdr.headDim / 64) (seqLength h x) (h.opB, h.opC)
      (h.row h.opA (h.m.hdr.headDim / 64) i h.m.hdr.headDim) (attnStart h i x))

/-- The rank after an ATTN. -/
def attnRank : Rank :=
  clearTiles (h.putRows h.opA.2 (h.m.hdr.headDim / 64) ((List.range (256 * insCount h.i)).map (attnOut h)))
    (insTile h.i) 4

end

section
variable {h : Here}

theorem attnCuts_iff (i : Nat) : attnCuts h i = true ↔ ∃ x, h.info (attnBase h + i) = some x ∧
    (attnStart h i x < attnBase h ∨
      attnBase h + 256 * insCount h.i < attnStart h i x + seqLength h x) := by
  unfold attnCuts
  cases h.info (attnBase h + i) <;> simp

variable (hq : h.fits h.opA (insCount h.i * (h.m.hdr.headDim * 8)) = true)
  (hk : h.fits h.opB (insCount h.i * (h.m.hdr.headDim * 8)) = true)
  (hv : h.fits h.opC (insCount h.i * (h.m.hdr.headDim * 8)) = true)
include hq hk hv

theorem attnBody_of_fits : attnBody h =
    if (List.range (256 * insCount h.i)).any (attnCuts h) = true then .fault [h.r] .seqSplit else h.next (attnRank h) :=
  (Here.guard_cons_of_fits hq).trans ((Here.guard_cons_of_fits hk).trans ((Here.guard_cons_of_fits hv).trans Here.guard_nil))

theorem attnBody_attends (hwhole : ∀ i x, i < 256 * insCount h.i → h.info (attnBase h + i) = some x →
    attnBase h ≤ attnStart h i x ∧
      attnStart h i x + seqLength h x ≤ attnBase h + 256 * insCount h.i) :
    attnBody h = h.next (attnRank h) := by
  rw [attnBody_of_fits hq hk hv, if_neg]
  intro hany
  obtain ⟨i, hi, hcut⟩ := List.any_eq_true.mp hany
  obtain ⟨x, hx, hout⟩ := (attnCuts_iff i).mp hcut
  have := hwhole i x (List.mem_range.mp hi) hx
  omega

theorem attnBody_splits (hcut : ∃ i x, i < 256 * insCount h.i ∧ h.info (attnBase h + i) = some x ∧
    (attnStart h i x < attnBase h ∨
      attnBase h + 256 * insCount h.i < attnStart h i x + seqLength h x)) :
    attnBody h = .fault [h.r] .seqSplit := by
  obtain ⟨i, x, hi, hx, hout⟩ := hcut
  rw [attnBody_of_fits hq hk hv, if_pos (List.any_eq_true.mpr ⟨i, List.mem_range.mpr hi, (attnCuts_iff i).mpr ⟨x, hx, hout⟩⟩)]

end

/-! ### NORM, GELU, ADDV, MULV and ROPE (R191) -/

section
variable {h : Here}

/-- Row `r` of a ROPE: a padding row takes free values. -/
def ropeOut (h : Here) (r : Nat) : Nat × List Fp :=
  match h.info (h.scalar (insS h.i) + r) with
  | some x => (r, ropeRow h h.opC x.pos (h.row h.opA (4 * insCount h.i) r (256 * insCount h.i)))
  | none => (r, (List.range (256 * insCount h.i)).map fun c =>
      let k := h.free + 2 * (r * 256 * insCount h.i + c)
      Fp.ofBits h.act ((Config.freeByte k).toNat + 256 * (Config.freeByte (k + 1)).toNat))

theorem ropeOut_fst (r : Nat) : (ropeOut h r).1 = r := by
  unfold ropeOut
  cases h.info (h.scalar (insS h.i) + r) <;> rfl

theorem ropeOut_of_info {r : Nat} {x : RowInfo} (hx : h.info (h.scalar (insS h.i) + r) = some x) : ropeOut h r
    = (r, ropeRow h h.opC x.pos (h.row h.opA (4 * insCount h.i) r (256 * insCount h.i))) := by
  rw [ropeOut, hx]

section
variable (ha : h.fits h.opA (insCount h.i * 0x800) = true)
  (hb : h.fits h.opB (insCount h.i * 0x800) = true)
include ha hb

theorem normBody_of_fits (hc : h.fits h.opC (insCount h.i * 16) = true) : normBody h =
    h.next (rowWise h (insRows h.i) h.opA h.opB
      (layerNorm h.act (Fp.ofF32 h.m.hdr.eps) ((List.range (256 * insCount h.i)).map fun i => h.actAt h.opC (2 * i))
        ((List.range (256 * insCount h.i)).map fun i => h.actAt h.opC (512 * insCount h.i + 2 * i)))) :=
  (Here.guard_cons_of_fits ha).trans ((Here.guard_cons_of_fits hb).trans ((Here.guard_cons_of_fits hc).trans Here.guard_nil))

theorem geluBody_of_fits : geluBody h = h.next (rowWise h (insRows h.i) h.opA h.opB
    fun xs => xs.map (gelu h.act)) :=
  (Here.guard_cons_of_fits ha).trans ((Here.guard_cons_of_fits hb).trans Here.guard_nil)

theorem twoSource_of_fits (op : Fp → Fp → Fp) (hc : h.fits h.opC (insCount h.i * 0x800) = true) :
    twoSource op h = h.next (rowWise2 h (insRows h.i) h.opA h.opB h.opC
      fun x y => (op x y).round h.act) :=
  (Here.guard_cons_of_fits ha).trans ((Here.guard_cons_of_fits hb).trans ((Here.guard_cons_of_fits hc).trans Here.guard_nil))

theorem ropeBody_of_fits (hc : h.fits h.opC (2 * h.m.hdr.rotaryUnits) = true) : ropeBody h =
    h.nextUsing (h.putRows h.opB.2 (4 * insCount h.i) ((List.range 256).map (ropeOut h)))
      (2 * 65536 * insCount h.i) :=
  (Here.guard_cons_of_fits ha).trans ((Here.guard_cons_of_fits hb).trans ((Here.guard_cons_of_fits hc).trans Here.guard_nil))

end
end

/-! ### The instructions at the module -/

section
variable {s : State} {h : Here}

theorem exec_gath (hs : standsAt s 0x30 h) : exec (.gath h.r) s = .next (ranTo s (gathBody h)) := onRank_of_standsAt hs _
theorem exec_norm (hs : standsAt s 0x31 h) : exec (.norm h.r) s = .next (ranTo s (normBody h)) := onRank_of_standsAt hs _
theorem exec_gelu (hs : standsAt s 0x32 h) : exec (.gelu h.r) s = .next (ranTo s (geluBody h)) := onRank_of_standsAt hs _
theorem exec_addv (hs : standsAt s 0x33 h) : exec (.addv h.r) s = .next (ranTo s (twoSource add32 h)) := onRank_of_standsAt hs _
theorem exec_mulv (hs : standsAt s 0x34 h) : exec (.mulv h.r) s = .next (ranTo s (twoSource mul32 h)) := onRank_of_standsAt hs _
theorem exec_rope (hs : standsAt s 0x35 h) : exec (.rope h.r) s = .next (ranTo s (ropeBody h)) := onRank_of_standsAt hs _
theorem exec_attn (hs : standsAt s 0x38 h) : exec (.attn h.r) s = .next (ranTo s (attnBody h)) := onRank_of_standsAt hs _

theorem rope_rotates (hs : standsAt s 0x35 h) (ha : h.fits h.opA (insCount h.i * 0x800) = true)
    (hb : h.fits h.opB (insCount h.i * 0x800) = true)
    (hc : h.fits h.opC (2 * h.m.hdr.rotaryUnits) = true) :
    ∃ rows : List (Nat × List Fp), exec (.rope h.r) s = .next (rankGoes s h
        { h.putRows h.opB.2 (4 * insCount h.i) rows with pc := h.k.pc + 1 } (2 * 65536 * insCount h.i)) ∧
      rows.map (fun x => x.1) = List.range 256 ∧
      ∀ r x, r < 256 → h.info (h.scalar (insS h.i) + r) = some x → rows[r]? = some (r, ropeRow h h.opC x.pos
        (h.row h.opA (4 * insCount h.i) r (256 * insCount h.i))) := by
  refine ⟨(List.range 256).map (ropeOut h), ?_, ?_, fun r x hr hx => ?_⟩
  · rw [exec_rope hs, ropeBody_of_fits ha hb hc]
    rfl
  · rw [List.map_map]
    exact (List.map_congr_left fun r _ => ropeOut_fst r).trans (List.map_id _)
  · rw [List.getElem?_map, List.getElem?_range hr, ← ropeOut_of_info hx]
    rfl

end

/-- Settles O24: each instruction by its equation once its operands fit, and a row that is put by the one step that writes
each of its elements. -/
theorem rowInstructions : Obligations.RowInstructions := by
  refine ⟨fun s h hs => ?_, fun s h => ?_, fun s h hs => rope_rotates hs, fun s h hs => ?_, fun s h hout => ?_,
    fun h u q n w f hm hw => ⟨fun r c => readBytes_putRows h u q n w f hm hw, fun a => read_putRows_outside h u q n w f, rfl⟩⟩
  · intro n q dst rows hdst
    refine ⟨fun hrows => ?_, fun hrow => ?_⟩
    · rw [exec_gath hs, gathBody_gathers hdst hrows]
      rfl
    · rw [exec_gath hs, gathBody_outside hdst hrow]
      rfl
  · intro n a b c goes ha hb
    refine ⟨fun hs hc => ?_, fun hs => ?_, fun hs hc => ?_, fun hs hc => ?_⟩
    · rw [exec_norm hs, normBody_of_fits ha hb hc]
      rfl
    · rw [exec_gelu hs, geluBody_of_fits ha hb]
      rfl
    · rw [exec_addv hs, twoSource_of_fits ha hb add32 hc]
      rfl
    · rw [exec_mulv hs, twoSource_of_fits ha hb mul32 hc]
      rfl
  · intro hd b n oq ok ov len hq hk hv
    refine ⟨fun hwhole => ?_, fun hcut => ?_⟩
    · rw [exec_attn hs, attnBody_attends hq hk hv hwhole]
      rfl
    · rw [exec_attn hs, attnBody_splits hq hk hv hcut]
      rfl
  · have hfault : ∀ {exts : List ((Bool × Nat) × Nat)} {k : Ran},
        ranTo s (h.guard ((h.opA, insCount h.i * 0x800) :: exts) k) = { s with j := s.j.progFault [h.r] .address } :=
      fun {exts k} => by rw [Here.guard_cons_of_not_fits hout, ranTo_addressFault]
    exact ⟨fun hs => (exec_norm hs).trans (congrArg _ hfault), fun hs => (exec_gelu hs).trans (congrArg _ hfault),
      fun hs => (exec_addv hs).trans (congrArg _ hfault), fun hs => (exec_mulv hs).trans (congrArg _ hfault),
      fun hs => (exec_rope hs).trans (congrArg _ hfault), fun hs => (exec_qrow hs).trans (congrArg _ hfault)⟩

end Sys2Proof.Machine
end

section
namespace Sys2Proof.Machine

/-! ### Arriving at a collective (R198) -/

/-- The pass once rank `h.r` has reached its collective. -/
def arrived (h : Here) : Pass := { h.p with ranks := h.p.ranks.set h.r { h.k with coll := some (collectiveOf h) } }

theorem alike_self (a : Collective) : alike a a = true := by
  simp [alike]

section
variable {h : Here} {done : Here → Pass → Ran}

theorem arrive_waits (hbusy : h.k.sends ≠ [] ∨ h.k.recvs ≠ []) : arrive done h = .wait :=
  if_pos (by simpa using hbusy)

theorem arrived_getElem?_ne {r : Nat} (hne : r ≠ h.r) : (arrived h).ranks[r]? = h.p.ranks[r]? :=
  List.getElem?_set_ne hne.symm

section
variable (hsends : h.k.sends = []) (hrecvs : h.k.recvs = [])
include hsends hrecvs

theorem arrive_of_paired : arrive done h =
    if ((arrived h).ranks.any fun k => k.coll.isNone) = true then .go (arrived h) 0
    else if ((arrived h).ranks.any fun k => !(k.coll.any (alike (collectiveOf h)))) = true then .fault (List.range 8) .collective
    else done h (arrived h) :=
  if_neg (by simp [hsends, hrecvs])

theorem arrive_first (hother : ∃ (r : Nat) (k : Rank), r ≠ h.r ∧ h.p.ranks[r]? = some k ∧ k.coll = none) :
    arrive done h = .go (arrived h) 0 := by
  obtain ⟨r, k, hne, hk, hnone⟩ := hother
  rw [arrive_of_paired hsends hrecvs, if_pos]
  refine List.any_eq_true.mpr ⟨k, List.mem_of_getElem? ((arrived_getElem?_ne hne).trans hk), ?_⟩
  rw [hnone]
  rfl

end

variable (hrank : h.p.ranks[h.r]? = some h.k)
include hrank

theorem arrived_getElem?_self : (arrived h).ranks[h.r]? = some { h.k with coll := some (collectiveOf h) } :=
  List.getElem?_set_self (List.getElem?_eq_some_iff.mp hrank).1

/-- A rank of the pass, whatever collective it now waits in. -/
theorem arrived_getElem? {r : Nat} {k : Rank} (hk : h.p.ranks[r]? = some k) :
    ∃ c : Option Collective, (arrived h).ranks[r]? = some { k with coll := c } := by
  by_cases hr : r = h.r
  · subst hr
    obtain rfl : h.k = k := Option.some.inj (hrank.symm.trans hk)
    exact ⟨_, arrived_getElem?_self hrank⟩
  · exact ⟨k.coll, (arrived_getElem?_ne hr).trans hk⟩

/-- What is asked of the other ranks' collectives, and holds of this rank's own, holds of all. -/
theorem forall_mem_arrived {p : Option Collective → Prop} (hown : p (some (collectiveOf h)))
    (hothers : ∀ r k, r ≠ h.r → h.p.ranks[r]? = some k → p k.coll) : ∀ k ∈ (arrived h).ranks, p k.coll := by
  intro k hk
  obtain ⟨r, hr⟩ := List.mem_iff_getElem?.mp hk
  by_cases hself : r = h.r
  · subst hself
    obtain rfl : _ = k := Option.some.inj ((arrived_getElem?_self hrank).symm.trans hr)
    exact hown
  · exact hothers r k hself ((arrived_getElem?_ne hself).symm.trans hr)

variable (hsends : h.k.sends = []) (hrecvs : h.k.recvs = [])
include hsends hrecvs

theorem arrive_differs (hall : ∀ r k, r ≠ h.r → h.p.ranks[r]? = some k → k.coll.isSome = true) {r : Nat} {k : Rank}
    (hne : r ≠ h.r) (hk : h.p.ranks[r]? = some k) (hdiff : k.coll.any (alike (collectiveOf h)) = false) :
    arrive done h = .fault (List.range 8) .collective := by
  have hsome := forall_mem_arrived hrank (p := fun c => c.isSome = true) rfl hall
  rw [arrive_of_paired hsends hrecvs, if_neg, if_pos]
  · exact List.any_eq_true.mpr ⟨k, List.mem_of_getElem? ((arrived_getElem?_ne hne).trans hk), by rw [hdiff]; rfl⟩
  · intro hany
    obtain ⟨k, hmem, hnone⟩ := List.any_eq_true.mp hany
    exact Option.isSome_iff_ne_none.mp (hsome k hmem) (Option.isNone_iff_eq_none.mp hnone)

theorem arrive_last (hall : ∀ r k, r ≠ h.r → h.p.ranks[r]? = some k → k.coll.any (alike (collectiveOf h)) = true) :
    arrive done h = done h (arrived h) := by
  have halike := forall_mem_arrived hrank (p := fun c => c.any (alike (collectiveOf h)) = true) (alike_self _) hall
  rw [arrive_of_paired hsends hrecvs, if_neg, if_neg]
  · intro hany
    obtain ⟨k, hmem, hdiff⟩ := List.any_eq_true.mp hany
    rw [halike k hmem] at hdiff
    exact Bool.false_ne_true hdiff
  · intro hany
    obtain ⟨k, hmem, hnone⟩ := List.any_eq_true.mp hany
    have hlike := halike k hmem
    rw [Option.isNone_iff_eq_none.mp hnone] at hlike
    exact Bool.false_ne_true hlike

end

/-! ### The release of the eight ranks (R198) -/

/-- A rank past its collective. -/
def pastCollective (k : Rank) : Rank := { k with coll := none, pc := k.pc + 1 }

theorem release_getElem? {p : Pass} {r : Nat} {k : Rank} (hk : p.ranks[r]? = some k) :
    (release p).ranks[r]? = some (pastCollective k) :=
  (List.getElem?_map ..).trans (congrArg (Option.map _) hk)

/-- Rank `r` as the collective sees it that `h` is the last to reach. -/
abbrev Here.peer (h : Here) (r : Nat) : Here := h.at_ (arrived h) r

/-- Every peer has the operand extents in their regions that the collective asks of it. -/
def peersFit (h : Here) (unitsA unitsB : Here → Nat) : Prop :=
  ∀ r, r < 8 → (h.peer r).fits (h.peer r).opA (unitsA (h.peer r)) = true ∧ (h.peer r).fits (h.peer r).opB (unitsB (h.peer r)) = true

theorem peer_of_getElem? {h : Here} (hrank : h.p.ranks[h.r]? = some h.k) {r : Nat} {k : Rank} (hk : h.p.ranks[r]? = some k) :
    (h.peer r).r = r ∧ ∃ c : Option Collective, (h.peer r).k = { k with coll := c } := by
  obtain ⟨c, hc⟩ := arrived_getElem? hrank hk
  rw [Here.peer, Here.at_, hc]
  exact ⟨rfl, c, rfl⟩

/-- A collective that looks for peers whose operands do not fit finds none. -/
theorem peersFit.none_bad {h : Here} {unitsA unitsB : Here → Nat} (hfits : peersFit h unitsA unitsB) :
    ¬ (!(((List.range 8).map h.peer).filter fun x => !(x.fits x.opA (unitsA x) && x.fits x.opB (unitsB x))).isEmpty) = true := by
  simpa using fun r hr => hfits r hr

/-- The pass that goes on from a collective with each peer become `f` of it. -/
def releasedAs (h : Here) (f : Here → Rank) : Pass := release { h.p with ranks := ((List.range 8).map h.peer).map f }

theorem releasedAs_length (h : Here) (f : Here → Rank) : (releasedAs h f).ranks.length = 8 := by
  simp [releasedAs, release]

theorem releasedAs_getElem? (h : Here) (f : Here → Rank) {r : Nat} (hr : r < 8) :
    (releasedAs h f).ranks[r]? = some (pastCollective (f (h.peer r))) := by
  refine release_getElem? ?_
  rw [List.getElem?_map, List.getElem?_map, List.getElem?_range hr]
  rfl

/-! ### XALL (R199) -/

/-- The block that a rank sends to rank `d`. -/
def xallBlock (src : Here) (n d : Nat) : List Byte :=
  (List.range (n * 64)).map fun i => src.byteOf src.opA (d * n * 64 + i)

theorem xallBlock_length (src : Here) (n d : Nat) : (xallBlock src n d).length = n * 64 := by
  rw [xallBlock, List.length_map, List.length_range]

/-- The data region of rank `d` once the blocks of `k` ranks have come, `seen` being the ranks by number. -/
def xallMem (seen : Nat → Here) (n : Nat) (d : Here) (k : Nat) : List Host.Cell :=
  (List.range k).foldl (fun m s =>
    Memory.writeBytes m (d.opB.2 * 64 + (seen s).r * n * 64) (xallBlock (seen s) n d.r)) d.k.mem

section
variable {seen : Nat → Here} {n : Nat} {d : Here} {k : Nat} (hseen : ∀ s, s < k → (seen s).r = s)
include hseen

theorem read_xallMem (hm : Memory.wf d.k.mem = true) {src b : Nat} (hsrc : src < k) (hb : b < n * 64) :
    Memory.read (xallMem seen n d k) (d.opB.2 * 64 + src * n * 64 + b)
      = (seen src).byteOf (seen src).opA (d.r * n * 64 + b) := by
  refine foldl_range_reads (fun m => Memory.read m (d.opB.2 * 64 + src * n * 64 + b))
    (P := fun m => Memory.wf m = true) (fun m s => Memory.writeBytes_wf _ _) (fun m hm => ?_) (fun s hs hne m => ?_) hsrc hm
  · refine (Memory.read_writeBytes _ _ _ hm).trans ?_
    rw [hseen src hsrc, if_pos ⟨by omega, by rw [xallBlock_length]; omega⟩, Nat.add_sub_cancel_left, xallBlock,
      getD_map_range _ _ hb]
  · refine Memory.read_writeBytes_outside _ _ _ _ ?_
    rw [hseen s hs, xallBlock_length]
    obtain hlt | hlt := Nat.lt_or_gt_of_ne hne
    · have : (s + 1) * n ≤ src * n := Nat.mul_le_mul_right n hlt
      rw [Nat.succ_mul] at this
      omega
    · have : (src + 1) * n ≤ s * n := Nat.mul_le_mul_right n hlt
      rw [Nat.succ_mul] at this
      omega

theorem read_xallMem_outside {a : Nat} (hout : a < d.opB.2 * 64 ∨ d.opB.2 * 64 + k * n * 64 ≤ a) :
    Memory.read (xallMem seen n d k) a = Memory.read d.k.mem a := by
  refine foldl_range_keeps (fun m => Memory.read m a) (fun s hs m => Memory.read_writeBytes_outside _ _ _ _ ?_) d.k.mem
  rw [hseen s hs, xallBlock_length]
  have : (s + 1) * n ≤ k * n := Nat.mul_le_mul_right n hs
  rw [Nat.succ_mul] at this
  omega

end

/-- A rank after XALL. -/
def xallRank (h d : Here) : Rank :=
  { d.k with mem := ((List.range 8).map h.peer).foldl (fun m s =>
      Memory.writeBytes m (d.opB.2 * 64 + s.r * insC h.i * 64) (xallBlock s (insC h.i) d.r)) d.k.mem }

theorem xallRank_mem (h d : Here) : (xallRank h d).mem = xallMem h.peer (insC h.i) d 8 := by
  rw [xallRank, List.foldl_map]
  rfl

theorem xallDone_of_fits {h : Here} (hfits : peersFit h (fun _ => 8 * insC h.i) fun _ => 8 * insC h.i) :
    xallDone h (arrived h) = .go (releasedAs h (xallRank h)) 0 :=
  if_neg hfits.none_bad

/-! ### POOL (R199) -/

/-- Pass row `t` of the matrix that a POOL reads, at the rank that holds it. -/
def poolRow (h : Here) (t : Nat) : List Fp :=
  let x := h.peer (t / h.rankRows)
  x.row x.opA (4 * insCount h.i) (t % h.rankRows) (256 * insCount h.i)

/-- A rank after POOL: the sequences that end in it, each pooled element by element. -/
def poolRank (h x : Here) : Rank :=
  x.putRows x.opB.2 (4 * insCount h.i) (((List.range (seqsEnding x).length).zip (seqsEnding x)).map fun y =>
    (y.1, (List.range (256 * insCount h.i)).map fun c =>
      poolElement h.act h.m.hdr.pooling (y.2.2.map fun t => (poolRow h t).getD c Fp.zero)))

/-- Units of the matrix that a POOL reads of a rank, and of the one that it writes there. -/
def poolUnitsA (h x : Here) : Nat := ceilDiv x.rankRows 256 * (insCount h.i * 0x800)
def poolUnitsB (h x : Here) : Nat := ceilDiv (seqsEnding x).length 256 * (insCount h.i * 0x800)

theorem poolDone_of_fits {h : Here} (hfits : peersFit h (poolUnitsA h) (poolUnitsB h)) :
    poolDone h (arrived h) = .go (releasedAs h (poolRank h)) 0 := by
  have hrank : poolRank h = fun x => x.putRows x.opB.2 (4 * insCount h.i)
      (((List.range (seqsEnding x).length).zip (seqsEnding x)).map fun y =>
        (y.1, (List.range (256 * insCount h.i)).map fun c =>
          poolElement h.act h.m.hdr.pooling ((y.2.2.map (poolRow h)).map fun v => v.getD c Fp.zero))) := by
    funext x
    simp only [List.map_map]
    rfl
  rw [hrank]
  exact if_neg hfits.none_bad

/-! ### EMIT (R200) -/

section
variable {h : Here}

/-- Pooled embeddings that a rank hands out, by sequence. -/
def emittedRows (h : Here) : List (Nat × List (BitVec 16)) :=
  ((List.range (seqsEnding h).length).zip (seqsEnding h)).map fun y =>
    (y.2.1, outRow h h.opA (insCount h.i) y.1)

/-- Token vectors that a rank hands out, by sequence and position. -/
def emittedVectors (h : Here) : List (Nat × Nat × List (BitVec 16)) :=
  (List.range h.rankRows).filterMap fun i => (h.info (h.r * h.rankRows + i)).bind fun x =>
    if x.wantTokens then some (x.seq, x.pos, outRow h h.opA (insCount h.i) i) else none

theorem emitBody_pooled (hkind : insMod h.i % 2 = 0) (hfirst : h.k.emittedPooled = false)
    (hfits : h.fits h.opA (ceilDiv (seqsEnding h).length 256 * (insCount h.i * 0x800)) = true) :
    emitBody h = .go { h.p with ranks := h.p.ranks.set h.r { h.k with pc := h.k.pc + 1, emittedPooled := true },
                                pooled := h.p.pooled ++ emittedRows h } 0 := by
  have htok : (insMod h.i % 2 == 1) = false := by rw [hkind]; rfl
  unfold emitBody
  simp only [htok, hfirst, Bool.false_eq_true, if_false, Bool.or_false, Bool.not_false, Bool.or_true]
  exact (Here.guard_cons_of_fits hfits).trans Here.guard_nil

theorem emitBody_tokens (hkind : insMod h.i % 2 = 1) (hfirst : h.k.emittedTokens = false)
    (hfits : h.fits h.opA (ceilDiv h.rankRows 256 * (insCount h.i * 0x800)) = true) :
    emitBody h = .go { h.p with ranks := h.p.ranks.set h.r { h.k with pc := h.k.pc + 1, emittedTokens := true },
                                tokvecs := h.p.tokvecs ++ emittedVectors h } 0 := by
  have htok : (insMod h.i % 2 == 1) = true := by rw [hkind]; rfl
  have hvecs : emittedVectors h = (List.range h.rankRows).filterMap fun i =>
      match h.info (h.r * h.rankRows + i) with
      | none => none
      | some x => if x.wantTokens then some (x.seq, x.pos, outRow h h.opA (insCount h.i) i) else none := by
    refine List.filterMap_congr fun i _ => ?_
    cases h.info (h.r * h.rankRows + i) <;> rfl
  unfold emitBody
  simp only [htok, hfirst, Bool.false_eq_true, if_false, if_true, Bool.or_true, Bool.not_true, Bool.or_false]
  rw [hvecs]
  exact (Here.guard_cons_of_fits hfits).trans Here.guard_nil

theorem emitBody_twice (htwice : (if insMod h.i % 2 = 1 then h.k.emittedTokens else h.k.emittedPooled) = true) :
    emitBody h = .fault [h.r] .output := by
  refine if_pos ?_
  simpa using htwice

end

/-! ### The instructions at the module -/

section
variable {s : State} {h : Here}

/-- A collective of a rank: BAR, POOL or XALL. -/
theorem exec_collective {op : Nat} {c : Instr} (hs : standsAt s op h)
    (hop : op = 0x09 ∧ c = .bar h.r ∨ op = 0x39 ∧ c = .pool h.r ∨ op = 0x3A ∧ c = .xall h.r) :
    ∃ done, exec c s = .next (ranTo s (arrive done h)) := by
  obtain ⟨rfl, rfl⟩ | ⟨rfl, rfl⟩ | ⟨rfl, rfl⟩ := hop
  · exact ⟨_, onRank_of_standsAt hs _⟩
  · exact ⟨_, onRank_of_standsAt hs _⟩
  · exact ⟨_, onRank_of_standsAt hs _⟩

theorem exec_bar (hs : standsAt s 0x09 h) : exec (.bar h.r) s = .next (ranTo s (arrive (fun _ p => .go (release p) 0) h)) :=
  onRank_of_standsAt hs _
theorem exec_pool (hs : standsAt s 0x39 h) : exec (.pool h.r) s = .next (ranTo s (arrive poolDone h)) := onRank_of_standsAt hs _
theorem exec_xall (hs : standsAt s 0x3A h) : exec (.xall h.r) s = .next (ranTo s (arrive xallDone h)) := onRank_of_standsAt hs _
theorem exec_emit (hs : standsAt s 0x3B h) : exec (.emit h.r) s = .next (ranTo s (emitBody h)) := onRank_of_standsAt hs _

section
variable (hsends : h.k.sends = []) (hrecvs : h.k.recvs = [])
  (hall : ∀ r k, r ≠ h.r → h.p.ranks[r]? = some k → k.coll.any (alike (collectiveOf h)) = true)
include hsends hrecvs hall

theorem pool_pools (hs : standsAt s 0x39 h) (hfits : peersFit h (poolUnitsA h) (poolUnitsB h)) :
    ∃ p' : Pass, exec (.pool h.r) s = .next (passGoes s p' 0) ∧ p' = { h.p with ranks := p'.ranks } ∧ p'.ranks.length = 8 ∧
      ∀ d, d < 8 → p'.ranks[d]? = some (pastCollective (poolRank h (h.peer d))) := by
  refine ⟨releasedAs h (poolRank h), ?_, rfl, releasedAs_length .., fun d hd => releasedAs_getElem? h _ hd⟩
  rw [exec_pool hs, arrive_last hs.rank hsends hrecvs hall, poolDone_of_fits hfits]
  rfl

variable (hlen : h.p.ranks.length = 8)
include hlen

theorem bar_releases (hs : standsAt s 0x09 h) :
    ∃ p : Pass, exec (.bar h.r) s = .next (passGoes s p 0) ∧ p = { h.p with ranks := p.ranks } ∧ p.ranks.length = 8 ∧
      ∀ (r : Nat) (k : Rank), h.p.ranks[r]? = some k → p.ranks[r]? = some { k with pc := k.pc + 1, coll := none } := by
  have hrank : h.p.ranks[h.r]? = some h.k := hs.rank
  refine ⟨release (arrived h), ?_, rfl, ?_, fun r k hk => ?_⟩
  · rw [exec_bar hs, arrive_last hrank hsends hrecvs hall]
    rfl
  · rw [release, arrived, List.length_map, List.length_set, hlen]
  · obtain ⟨c, hc⟩ := arrived_getElem? hrank hk
    exact (release_getElem? hc).trans rfl

theorem xall_exchanges (hs : standsAt s 0x3A h) (hfits : peersFit h (fun _ => 8 * insC h.i) fun _ => 8 * insC h.i)
    (hm : ∀ k ∈ h.p.ranks, Memory.wf k.mem = true) :
    ∃ p' : Pass, exec (.xall h.r) s = .next (passGoes s p' 0) ∧ p' = { h.p with ranks := p'.ranks } ∧ p'.ranks.length = 8 ∧
      ∀ (d : Nat) (k : Rank), h.p.ranks[d]? = some k → ∃ k' : Rank, p'.ranks[d]? = some k' ∧
        k' = { k with pc := k.pc + 1, coll := none, mem := k'.mem } ∧
        (∀ src b, src < 8 → b < insC h.i * 64 → Memory.read k'.mem ((h.peer d).opB.2 * 64 + src * insC h.i * 64 + b)
          = (h.peer src).byteOf (h.peer src).opA (d * insC h.i * 64 + b)) ∧
        (∀ a, a < (h.peer d).opB.2 * 64 ∨ (h.peer d).opB.2 * 64 + 8 * insC h.i * 64 ≤ a →
          Memory.read k'.mem a = Memory.read k.mem a) := by
  have hnum : ∀ r, r < 8 → (h.peer r).r = r := fun r hr =>
    (peer_of_getElem? hs.rank (List.getElem?_eq_getElem (by omega))).1
  refine ⟨releasedAs h (xallRank h), ?_, rfl, releasedAs_length .., fun d k hk => ?_⟩
  · rw [exec_xall hs, arrive_last hs.rank hsends hrecvs hall, xallDone_of_fits hfits]
    rfl
  · obtain ⟨hd, c, hc⟩ := peer_of_getElem? hs.rank hk
    have hd8 : d < 8 := hlen ▸ (List.getElem?_eq_some_iff.mp hk).1
    refine ⟨_, releasedAs_getElem? h (xallRank h) hd8, ?_, fun src b hsrc hb => ?_, fun a hout => ?_⟩
    · simp only [pastCollective, xallRank, hc]
    · rw [pastCollective, xallRank_mem]
      refine (read_xallMem hnum ?_ hsrc hb).trans (by rw [hd])
      rw [hc]
      exact hm k (List.mem_of_getElem? hk)
    · rw [pastCollective, xallRank_mem]
      refine (read_xallMem_outside hnum hout).trans ?_
      rw [hc]

end
end

/-- Settles O25: an arrival by what the other ranks wait in, the exchange and the pooling rank by rank, EMIT by its kind. -/
theorem collectivesAndOutput : Obligations.CollectivesAndOutput := by
  refine ⟨fun s h op c hs hlen hsends hrecvs hop hother => ?_,
    fun s h hs hlen hsends hrecvs hall => bar_releases hsends hrecvs hall hlen hs, fun s h op c hs hbusy hop => ?_,
    fun s h op r c k hs hlen hsends hrecvs hop hall hne hk hdiff => ?_, fun s h hlen hsends hrecvs hall => ⟨?_, ?_⟩,
    fun s h hs hkind hfirst hfits => ?_, fun s h hs hkind hfirst hfits => ?_, fun s h hs htwice => ?_⟩
  · obtain ⟨done, hdone⟩ := exec_collective hs hop
    rw [hdone, arrive_first hsends hrecvs hother]
    rfl
  · obtain ⟨done, hdone⟩ := exec_collective hs hop
    rw [hdone, arrive_waits hbusy]
    rfl
  · obtain ⟨done, hdone⟩ := exec_collective hs hop
    rw [hdone, arrive_differs hs.rank hsends hrecvs hall hne hk hdiff]
    rfl
  · exact xall_exchanges hsends hrecvs hall hlen
  · exact pool_pools hsends hrecvs hall
  · rw [exec_emit hs, emitBody_pooled hkind hfirst hfits]
    rfl
  · rw [exec_emit hs, emitBody_tokens hkind hfirst hfits]
    rfl
  · rw [exec_emit hs, emitBody_twice htwice]
    rfl

end Sys2Proof.Machine
end

section
namespace Sys2Proof.Machine

/-! ### The write commands (R207, R208) -/

section
open Jenjor
variable {s : State} {q code : Nat} {op : List Byte} {f : Fetched} {j : Jenjor}

theorem takeFetched_frame {k : Jenjor} (h : j.takeFetched q code = some (f, k)) :
    k = { j with qs := { j.qs with fetched := j.qs.fetched.erase f } } := by
  unfold takeFetched at h
  split at h
  · contradiction
  · split at h
    · cases h; rfl
    · contradiction

/-- Whether a write has to wait does not hang on the descriptors fetched. -/
theorem acceptWaits_taken (h : s.takesData q code f j) : s.j.acceptWaits f op = j.acceptWaits f op := by
  rw [takeFetched_frame (takeFetched_of_takeData h.2)]
  rfl

theorem acceptWaits_of_refused {st : Status} (h : j.writeRefused f.d op = some st) : j.acceptWaits f op = false := by
  unfold acceptWaits
  split
  · rfl
  · simp [h]

theorem acceptWaits_of_secondary (h : j.secondary = true) : j.acceptWaits f op = false := by
  unfold acceptWaits
  split
  · rfl
  · simp [h]

theorem acceptWaits_of_room {c : Coll} (hlive : j.liveColl? (dField f.d 4 2) = some c) (hgo : j.wr.stopped = false)
    (htok : 1 ≤ j.wr.tokens) (hbytes : recordBytes c f.d op ≤ j.wr.byteTokens)
    (hbuf : j.bufferBytes + recordBytes c f.d op ≤ 33554432) : j.acceptWaits f op = false := by
  unfold acceptWaits
  rw [hlive]
  simp [hgo, hbytes, hbuf, show j.wr.tokens ≠ 0 by omega]

theorem writeCommand_goes (h : s.takesData q code f j) (hgo : j.acceptWaits f op = false) :
    writeCommand code q op s = .next { s with j := j.acceptWrite f op } := by
  unfold writeCommand
  simp only [onBlocks_of_live _ h.1, h.2, acceptWaits_taken h, hgo, Bool.false_eq_true, if_false]

theorem writeCommand_waits (h : s.takesData q code f j) (hwait : s.j.acceptWaits f op = true) :
    writeCommand code q op s = .next s := by
  unfold writeCommand
  simp only [onBlocks_of_live _ h.1, h.2, hwait, if_true]

theorem acceptWrite_of_secondary (h : j.secondary = true) : j.acceptWrite f op = j.forwardCmd f op := if_pos h

theorem acceptWrite_of_refused {st : Status} (hsec : j.secondary = false) (h : j.writeRefused f.d op = some st) :
    j.acceptWrite f op = (j.count blkDEV 0x430).refuse f.ref st := by
  simp [acceptWrite, hsec, h]

/-- What the shared meaning of the five write commands makes of a state, each of them makes of it. -/
theorem writeCommands_of {t : State} (h : ∀ code, s.takesData q code f j → writeCommand code q op s = .next t) :
    (s.takesData q 0x20 f j → exec (.insert q op) s = .next t) ∧ (s.takesData q 0x21 f j → exec (.update q op) s = .next t) ∧
      (s.takesData q 0x22 f j → op = [] → exec (.delete q) s = .next t) ∧
      (s.takesData q 0x23 f j → exec (.biasWrite q op) s = .next t) ∧
      (s.takesData q 0x24 f j → op = [] → exec (.biasFrame q) s = .next t) := by
  refine ⟨h 0x20, h 0x21, fun hd hop => ?_, h 0x23, fun hd hop => ?_⟩
  · subst hop
    exact h 0x22 hd
  · subst hop
    exact h 0x24 hd
end

/-! ### A write accepted (R209, R210, R212, R214) -/

/-- The accepted keys of a collection once a record has joined the journal (R212). -/
def keysAfter (r : JRec) (c : Coll) : List (BitVec 64) :=
  match r.op with
  | .insert => r.key :: c.accepted
  | .delete => c.accepted.erase r.key
  | _ => c.accepted

/-- A collection once a record of it has joined the journal. -/
def Coll.taking (r : JRec) (c : Coll) : Coll := { c with accepted := keysAfter r c }

namespace Jenjor

section
variable {j : Jenjor} {f : Fetched} {op : List Byte} {c : Coll}

/-- The blocks with a write's record in the journal, its tokens taken, before the companion hears of it. -/
def joined (j : Jenjor) (f : Fetched) (op : List Byte) (c : Coll) : Jenjor :=
  let r := journalRecord c f.d op j.wr.nextSeq
  journalAppend { j with wr := { j.wr with tokens := j.wr.tokens - 1, byteTokens := j.wr.byteTokens - r.bytes } } r f.ref
    (dField f.d 0x1D 1 % 2 == 1)

theorem acceptWrite_of_unrefused (hsec : j.secondary = false) (href : j.writeRefused f.d op = none)
    (hlive : j.liveColl? (dField f.d 4 2) = some c) : j.acceptWrite f op =
      if j.mirroring then
        let r := journalRecord c f.d op j.wr.nextSeq
        (j.joined f op c).sendCpn 0x03 r.seq r.coll r.key.toNat []
      else j.joined f op c := by
  simp only [acceptWrite, hsec, href, hlive, Bool.false_eq_true, if_false]
  rfl

theorem joined_colls (f : Fetched) (op : List Byte) :
    (j.joined f op c).cat.colls = (j.mapColl c.num (.taking (journalRecord c f.d op j.wr.nextSeq))).cat.colls := rfl

theorem coll?_joined_self {n : Nat} (f : Fetched) (op : List Byte) (hc : j.coll? n = some c) :
    (j.joined f op c).coll? n = some (c.taking (journalRecord c f.d op j.wr.nextSeq)) := by
  rw [coll?_of_colls (joined_colls f op), num_of_coll? hc]
  exact coll?_mapColl (fun _ => rfl) hc

theorem coll?_joined_ne {n : Nat} (f : Fetched) (op : List Byte) (hn : n ≠ c.num) : (j.joined f op c).coll? n = j.coll? n := by
  rw [coll?_of_colls (joined_colls f op)]
  refine (find?_updWhere_of _ _ (Coll.taking _) (fun _ => rfl) _).trans ?_
  change (j.coll? n).map _ = _
  cases hx : j.coll? n with
  | none => rfl
  | some x => simp [num_of_coll? hx, hn]

theorem joined_acceptedAs {keys : List (BitVec 64)} (hc : j.coll? (dField f.d 4 2) = some c)
    (hkeys : keysAfter (journalRecord c f.d op j.wr.nextSeq) c = keys) : acceptedAs j f op c keys (j.joined f op c) :=
  ⟨rfl, hkeys ▸ coll?_joined_self f op hc, fun _ hn => coll?_joined_ne f op (by rwa [num_of_coll? hc]), fun _ => ⟨rfl, rfl⟩, rfl⟩

theorem acceptWrite_acceptedAs {keys : List (BitVec 64)} (hsec : j.secondary = false) (href : j.writeRefused f.d op = none)
    (hlive : j.liveColl? (dField f.d 4 2) = some c) (hc : j.coll? (dField f.d 4 2) = some c)
    (hkeys : keysAfter (journalRecord c f.d op j.wr.nextSeq) c = keys) : acceptedAs j f op c keys (j.acceptWrite f op) := by
  rw [acceptWrite_of_unrefused hsec href hlive]
  have hjoined := joined_acceptedAs (op := op) hc hkeys
  cases hm : j.mirroring with
  | false => exact hjoined
  | true =>
    obtain ⟨hwr, hself, hothers, -, hframe⟩ := hjoined
    obtain ⟨cpn, out, hsent⟩ := sendCpn_frame (j.joined f op c) 0x03 (journalRecord c f.d op j.wr.nextSeq).seq
      (journalRecord c f.d op j.wr.nextSeq).coll (journalRecord c f.d op j.wr.nextSeq).key.toNat []
    dsimp only
    rw [if_pos rfl, hsent]
    exact ⟨hwr, hself, hothers, fun h => absurd h (by rw [hm]; decide), by rw [hframe]⟩
end
end Jenjor

section
open Jenjor
variable {s : State} {q code : Nat} {op : List Byte} {f : Fetched} {j : Jenjor} {c : Coll}

theorem writeCommand_accepts {keys : List (BitVec 64)} (h : acceptable s q code f j op c)
    (hkeys : dField f.d 0 1 = code → keysAfter (journalRecord c f.d op j.wr.nextSeq) c = keys) :
    ∃ k, writeCommand code q op s = .next { s with j := k } ∧ acceptedAs j f op c keys k := by
  obtain ⟨htake, hsec, href, hlive, hc, hgo, htok, hbytes, hbuf⟩ := h
  exact ⟨_, writeCommand_goes htake (acceptWaits_of_room hlive hgo htok hbytes hbuf),
    acceptWrite_acceptedAs hsec href hlive hc (hkeys (opcode_of_takeFetched (takeFetched_of_takeData htake.2)))⟩

theorem keysAfter_insert (n : Nat) (hop : dField f.d 0 1 = 0x20) :
    keysAfter (journalRecord c f.d op n) c = BitVec.ofNat 64 (dField f.d 8 8) :: c.accepted := by
  simp [keysAfter, journalRecord, writeOpOf, hop]

theorem keysAfter_delete (n : Nat) (hop : dField f.d 0 1 = 0x22) :
    keysAfter (journalRecord c f.d op n) c = c.accepted.erase (BitVec.ofNat 64 (dField f.d 8 8)) := by
  simp [keysAfter, journalRecord, writeOpOf, hop]

theorem keysAfter_update (n : Nat) (hop : dField f.d 0 1 = 0x21) : keysAfter (journalRecord c f.d op n) c = c.accepted := by
  simp [keysAfter, journalRecord, writeOpOf, hop]

theorem keysAfter_biasWrite (n : Nat) (hop : dField f.d 0 1 = 0x23) : keysAfter (journalRecord c f.d op n) c = c.accepted := by
  by_cases hadd : dField f.d 0x36 1 = 1 <;> simp [keysAfter, journalRecord, writeOpOf, hop, hadd]

theorem keysAfter_biasFrame (n : Nat) (hop : dField f.d 0 1 = 0x24) : keysAfter (journalRecord c f.d op n) c = c.accepted := by
  simp [keysAfter, journalRecord, writeOpOf, hop]
end

/-! ### Fences (R207) -/

namespace Jenjor

/-- The writes that a fence of the module's own covers: those of its queue neither published nor discarded. -/
def unpublishedOf (j : Jenjor) (q : Nat) : List JEntry :=
  j.wr.journal.filter fun e => e.ref.tag.isNone && e.ref.q == q && !e.published && !e.discarded

/-- A fence as it is taken up. -/
def newFence (j : Jenjor) (r : CmdRef) : Fence :=
  { ref := r, covered := (j.unpublishedOf r.q).map fun e => e.jr.seq, best := none }

section
variable {j : Jenjor} {f : Fetched}

theorem fence_of_own (hsec : j.secondary = false) (htag : f.ref.tag = none) (hnone : j.wr.fences = []) :
    j.fence f = settleFences { j with wr := { j.wr with fences := [j.newFence f.ref] } } := by
  simp [fence, hsec, htag, hnone, newFence, unpublishedOf]

/-- A write whose number the fence covers is not published, where numbers do not repeat. -/
theorem unpublished_of_covered {q : Nat} (hnodup : (j.wr.journal.map fun e => e.jr.seq).Nodup) {e : JEntry}
    (he : e ∈ j.wr.journal) (hcov : e.jr.seq ∈ (j.unpublishedOf q).map fun e => e.jr.seq) :
    e.published = false ∧ e.discarded = false := by
  obtain ⟨x, hx, hseq⟩ := List.mem_map.mp hcov
  obtain ⟨hmem, hopen⟩ := List.mem_filter.mp hx
  obtain rfl := List.inj_on_of_nodup_map hnodup hmem he hseq
  simp only [Bool.and_eq_true, Bool.not_eq_true'] at hopen
  exact ⟨hopen.1.2, hopen.2⟩

/-- A fence once the writes that the journal shows published or discarded are taken off it. -/
def noted (j : Jenjor) (x : Fence) : Fence :=
  { x with
    covered := x.covered.filter fun n => !j.wr.journal.all fun e => e.jr.seq != n || e.published || e.discarded
    best := ((j.wr.journal.filter fun e => x.covered.contains e.jr.seq && e.published).filterMap fun e => e.epoch).foldl
      (fun b e => some (max e (b.getD 0))) x.best }

theorem settleFences_of_single {x : Fence} (h : j.wr.fences = [x]) : j.settleFences =
    if (j.noted x).covered = [] then { j with wr := { j.wr with fences := [] } }.complete x.ref .success 0
      (BitVec.ofNat 64 ((j.noted x).best.getD j.wr.epoch)) none
    else { j with wr := { j.wr with fences := [j.noted x] } } := by
  have hnote : j.wr.fences.map j.noted = [j.noted x] := by rw [h]; rfl
  unfold settleFences
  dsimp only
  change List.foldl _ { j with wr := { j.wr with fences := (j.wr.fences.map j.noted).filter _ } }
    ((j.wr.fences.map j.noted).filter _) = _
  rw [hnote]
  cases hcov : (j.noted x).covered with
  | nil => simp [hcov, show (j.noted x).ref = x.ref from rfl]
  | cons n l => simp [hcov]

theorem noted_of_uncovering (r : CmdRef) : j.noted { ref := r, covered := [], best := none }
    = { ref := r, covered := [], best := none } := by simp [noted]

/-- A fence whose covered writes are all open keeps them all. -/
theorem noted_of_open {x : Fence}
    (hopen : ∀ n ∈ x.covered, ∃ e ∈ j.wr.journal, e.jr.seq = n ∧ e.published = false ∧ e.discarded = false)
    (hunpub : ∀ e ∈ j.wr.journal, e.jr.seq ∈ x.covered → e.published = false) : j.noted x = x := by
  have hcov : x.covered.filter (fun n => !j.wr.journal.all fun e => e.jr.seq != n || e.published || e.discarded) = x.covered := by
    refine List.filter_eq_self.mpr fun n hn => ?_
    obtain ⟨e, he, hseq, hpub, hdisc⟩ := hopen n hn
    rw [Bool.not_eq_true', List.all_eq_false]
    exact ⟨e, he, by simp [hseq, hpub, hdisc]⟩
  have hbest : j.wr.journal.filter (fun e => x.covered.contains e.jr.seq && e.published) = [] := by
    refine List.filter_eq_nil_iff.mpr fun e he hboth => ?_
    simp only [Bool.and_eq_true, List.contains_iff_mem] at hboth
    exact absurd hboth.2 (by simp [hunpub e he hboth.1])
  rw [noted, hcov, hbest]
  rfl

theorem fence_waits (hsec : j.secondary = false) (htag : f.ref.tag = none) (hnone : j.wr.fences = [])
    (hopen : j.unpublishedOf f.ref.q ≠ []) (hnodup : (j.wr.journal.map fun e => e.jr.seq).Nodup) :
    j.fence f = { j with wr := { j.wr with fences := [j.newFence f.ref] } } := by
  have hnoted : j.noted (j.newFence f.ref) = j.newFence f.ref := by
    refine noted_of_open (fun n hn => ?_) fun e he hcov => (unpublished_of_covered hnodup he hcov).1
    obtain ⟨e, he, rfl⟩ := List.mem_map.mp hn
    have hmem := List.mem_of_mem_filter he
    exact ⟨e, hmem, rfl, unpublished_of_covered hnodup hmem hn⟩
  have hcov : (j.newFence f.ref).covered ≠ [] := by simpa [newFence] using hopen
  rw [fence_of_own hsec htag hnone, settleFences_of_single (x := j.newFence f.ref) rfl]
  change (if (j.noted (j.newFence f.ref)).covered = [] then _ else
    { j with wr := { j.wr with fences := [j.noted (j.newFence f.ref)] } }) = _
  rw [hnoted, if_neg hcov]

theorem fence_completes (hsec : j.secondary = false) (htag : f.ref.tag = none) (hnone : j.wr.fences = [])
    (hopen : j.unpublishedOf f.ref.q = []) : j.fence f = j.complete f.ref .success 0 (BitVec.ofNat 64 j.wr.epoch) none := by
  have hnew : j.newFence f.ref = { ref := f.ref, covered := [], best := none } := by simp [newFence, hopen]
  rw [fence_of_own hsec htag hnone, hnew, settleFences_of_single rfl, noted_of_uncovering, if_pos rfl, ← hnone]
  rfl

theorem fence_of_secondary (hsec : j.secondary = true) : j.fence f = j.forwardCmd f [] := if_pos hsec
end
end Jenjor

theorem exec_writeFence {s : State} {q : Nat} {f : Fetched} {j : Jenjor} (h : s.takesData q 0x25 f j) :
    exec (.writeFence q) s = .next { s with j := j.fence f } := by
  change execWriteFence q s = _
  unfold execWriteFence
  simp only [onBlocks_of_live _ h.1, h.2]

/-- Settles O14: the five write commands share one meaning, which accepts, refuses, waits or forwards; an acceptance adds one
journal record and its key's outcome; a fence is settled as it is taken up. -/
theorem writesAccepted : Obligations.WritesAccepted := by
  refine ⟨fun s q op f j c h => writeCommand_accepts h (keysAfter_insert _),
    fun s q op f j c h => writeCommand_accepts h (keysAfter_update _),
    fun s q f j c h => writeCommand_accepts h (keysAfter_delete _),
    fun s q op f j c h => writeCommand_accepts h (keysAfter_biasWrite _),
    fun s q f j c h => writeCommand_accepts h (keysAfter_biasFrame _),
    fun s q op f j hsec => ⟨fun st hst => ?_, fun hwait => ?_⟩, fun s q op f j hsec => ?_,
    fun s q f j h hsec htag hnone => ⟨fun hopen => ?_, fun hopen hnodup => ?_⟩⟩
  · refine writeCommands_of fun code h => ?_
    rw [writeCommand_goes h (acceptWaits_of_refused hst), acceptWrite_of_refused hsec hst]
  · exact writeCommands_of fun code h => writeCommand_waits h hwait
  · obtain ⟨hins, hupd, hdel, hbias, hframe⟩ := writeCommands_of (q := q) (op := op) (f := f) fun code h => by
      rw [writeCommand_goes h (acceptWaits_of_secondary hsec), acceptWrite_of_secondary hsec]
    refine ⟨hins, hupd, hdel, hbias, hframe, fun h hop => ?_⟩
    rw [exec_writeFence h, Jenjor.fence_of_secondary hsec, hop]
  · rw [exec_writeFence h, Jenjor.fence_completes hsec htag hnone hopen]
  · rw [exec_writeFence h, Jenjor.fence_waits hsec htag hnone hopen hnodup]
    rfl

end Sys2Proof.Machine
end

section
namespace Sys2Proof.Machine
namespace Jenjor

/-! ### What a completion leaves alone of the pair (R353) -/

theorem syncPaired_of_cpn {j k : Jenjor} (h : k.cpn = j.cpn) : k.syncPaired = j.syncPaired := by rw [syncPaired, h]; rfl

theorem sendCpn_syncPaired (j : Jenjor) (ty a b c : Nat) (data : List Byte) :
    (j.sendCpn ty a b c data).syncPaired = j.syncPaired := by
  unfold sendCpn
  split <;> rfl

theorem writeCompletion_syncPaired (j : Jenjor) (r : CmdRef) (st : Status) (v0 v1 : BitVec 64) (len : Option Nat) :
    (j.writeCompletion r st v0 v1 len).syncPaired = j.syncPaired := by
  have hcount : (if st = .keyWithdrawn then j.count blkDOM 0x800 else j).syncPaired = j.syncPaired := by split <;> rfl
  unfold writeCompletion
  dsimp only
  rw [← hcount]
  generalize (if st = .keyWithdrawn then j.count blkDOM 0x800 else j) = k
  cases r.tag with
  | some t => exact sendCpn_syncPaired ..
  | none =>
    refine syncPaired_of_cpn ?_
    dsimp only
    repeat' split
    all_goals simp

theorem reapQueues_syncPaired (fuel : Nat) (j : Jenjor) : (reapQueues fuel j).syncPaired = j.syncPaired := by
  have hfold : ∀ (ws : List CmdRef) (j : Jenjor),
      (ws.foldl (fun j w => j.writeCompletion w .success 0 0 none) j).syncPaired = j.syncPaired := fun ws j =>
    foldl_keeps (φ := syncPaired) _ (fun j w => writeCompletion_syncPaired j w ..) ws j
  induction fuel generalizing j with
  | zero => rfl
  | succ fuel ih =>
    unfold reapQueues
    split
    · rfl
    · dsimp only
      rw [ih, hfold]
      split <;> exact hfold _ j

theorem complete_syncPaired (j : Jenjor) (r : CmdRef) (st : Status) (v0 v1 : BitVec 64) (len : Option Nat) :
    (j.complete r st v0 v1 len).syncPaired = j.syncPaired :=
  (syncPaired_of_cpn (settleAdmin_cpn _)).trans ((reapQueues_syncPaired ..).trans (writeCompletion_syncPaired ..))

/-! ### Acknowledgement (R210, R211) -/

/-- The journal's entry of a sequence number. -/
def entry? (j : Jenjor) (seq : Nat) : Option JEntry := j.wr.journal.find? fun e => e.jr.seq == seq

/-- What acknowledging and completing make of an entry: its record and its durability stay, and it is not taken back. -/
structure Acknowledges (e e' : JEntry) : Prop where
  jr : e'.jr = e.jr
  durable : e'.localDurable = e.localDurable
  programmed : e'.programmed = e.programmed
  acked : e.acked = true → e'.acked = true

/-- The blocks `k` come from `j` by acknowledging entries of the journal. -/
structure Acks (j k : Jenjor) : Prop where
  entries : ∃ g : JEntry → JEntry, (∀ e, Acknowledges e (g e)) ∧ k.wr.journal = j.wr.journal.map g
  wr : k.wr = { j.wr with journal := k.wr.journal, ackSeq := k.wr.ackSeq }
  cat : k.cat = j.cat
  sync : k.syncPaired = j.syncPaired

namespace Acks
variable {j k l : Jenjor}

theorem of_same (hwr : k.wr = { j.wr with ackSeq := k.wr.ackSeq }) (hcat : k.cat = j.cat)
    (hsync : k.syncPaired = j.syncPaired) : Acks j k where
  entries := ⟨id, fun _ => ⟨rfl, rfl, rfl, id⟩, by rw [hwr, List.map_id]⟩
  wr := by rw [hwr]
  cat := hcat
  sync := hsync

theorem refl (j : Jenjor) : Acks j j := of_same rfl rfl rfl

theorem trans (h : Acks j k) (h' : Acks k l) : Acks j l where
  entries := by
    obtain ⟨g, hg, hk⟩ := h.entries
    obtain ⟨g', hg', hl⟩ := h'.entries
    refine ⟨g' ∘ g, fun e => ?_, by rw [hl, hk, List.map_map]⟩
    obtain ⟨hjr, hdur, hprog, hack⟩ := hg e
    obtain ⟨hjr', hdur', hprog', hack'⟩ := hg' (g e)
    exact ⟨hjr'.trans hjr, hdur'.trans hdur, hprog'.trans hprog, fun ha => hack' (hack ha)⟩
  wr := by rw [h'.wr, h.wr]
  cat := h'.cat.trans h.cat
  sync := h'.sync.trans h.sync

theorem of_mapJournal (j : Jenjor) (p : JEntry → Bool) {f : JEntry → JEntry} (hf : ∀ e, Acknowledges e (f e)) :
    Acks j (j.mapJournal p f) where
  entries := by
    refine ⟨fun e => if p e then f e else e, fun e => ?_, rfl⟩
    dsimp only
    split
    · exact hf e
    · exact ⟨rfl, rfl, rfl, id⟩
  wr := rfl
  cat := rfl
  sync := rfl

theorem of_complete (j : Jenjor) (r : CmdRef) (st : Status) (v0 v1 : BitVec 64) : Acks j (j.complete r st v0 v1 none) :=
  of_same (by rw [complete_wr]) (complete_cat ..) (complete_syncPaired ..)

theorem foldl {f : Jenjor → JEntry → Jenjor} (hf : ∀ k e, Acks k (f k e)) (es : List JEntry) (j : Jenjor) :
    Acks j (es.foldl f j) := by
  induction es generalizing j with
  | nil => exact refl j
  | cons e es ih => exact (hf j e).trans (ih _)

theorem entry? (h : Acks j k) {seq : Nat} {e : JEntry} (he : j.entry? seq = some e) :
    ∃ e', k.entry? seq = some e' ∧ Acknowledges e e' := by
  obtain ⟨g, hg, hk⟩ := h.entries
  refine ⟨g e, ?_, hg e⟩
  unfold Jenjor.entry? at he ⊢
  have hp : ((fun e : JEntry => e.jr.seq == seq) ∘ g) = fun e => e.jr.seq == seq := funext fun e => by simp [(hg e).jr]
  rw [hk, List.find?_map, hp, he]
  rfl

theorem mem (h : Acks j k) {e' : JEntry} (he : e' ∈ k.wr.journal) : ∃ e ∈ j.wr.journal, Acknowledges e e' := by
  obtain ⟨g, hg, hk⟩ := h.entries
  obtain ⟨e, hmem, rfl⟩ := List.mem_map.mp (hk ▸ he)
  exact ⟨e, hmem, hg e⟩

end Acks

section
variable {j : Jenjor} {e : JEntry}

/-- An entry whose write is acknowledged. -/
def ackOf (e : JEntry) : JEntry := { e with acked := true }

/-- An entry whose command is completed. -/
def completionOf (e : JEntry) : JEntry := { e with completed := true }

/-- The acknowledgement of a write, before its completion. -/
def acknowledged (j : Jenjor) (e : JEntry) : Jenjor :=
  let j := j.mapJournal (fun x => x.jr.seq == e.jr.seq) ackOf
  { j with wr := { j.wr with ackSeq := max j.wr.ackSeq e.jr.seq } }.count blkDEV 0x428

theorem acknowledged_acks (j : Jenjor) (e : JEntry) : Acks j (j.acknowledged e) :=
  (Acks.of_mapJournal j _ (f := ackOf) fun _ => ⟨rfl, rfl, rfl, fun _ => rfl⟩).trans (.of_same rfl rfl rfl)

theorem completed_acks (j : Jenjor) (p : JEntry → Bool) (r : CmdRef) (v0 v1 : BitVec 64) :
    Acks j ((j.mapJournal p completionOf).complete r .success v0 v1 none) :=
  (Acks.of_mapJournal j p (f := completionOf) fun _ => ⟨rfl, rfl, rfl, id⟩).trans (.of_complete ..)

theorem ackEntry_of_unacked (h : e.acked = false) : Acks (j.acknowledged e) (j.ackEntry e) := by
  unfold ackEntry
  rw [h, if_neg (by decide)]
  dsimp only
  split
  · exact .refl _
  · exact completed_acks ..

theorem ackEntry_acks (j : Jenjor) (e : JEntry) : Acks j (j.ackEntry e) := by
  cases h : e.acked with
  | true =>
    rw [ackEntry, if_pos h]
    exact .refl j
  | false => exact (acknowledged_acks j e).trans (ackEntry_of_unacked h)

theorem acked_of_ackEntry (h : e.acked = false) {x : JEntry} (hx : x ∈ (j.ackEntry e).wr.journal)
    (hseq : x.jr.seq = e.jr.seq) : x.acked = true := by
  obtain ⟨y, hy, hxy⟩ := (ackEntry_of_unacked h).mem hx
  obtain ⟨z, -, rfl⟩ := mem_updWhere hy
  have hz : z.jr.seq = e.jr.seq := by
    rw [← hseq, hxy.jr]
    split <;> rfl
  exact hxy.acked (by simp [hz, ackOf])

/-- An entry acknowledged where it is durable. -/
def ackIfDurable (j : Jenjor) (e : JEntry) : Jenjor := if j.durable e then j.ackEntry e else j

theorem ackIfDurable_acks (j : Jenjor) (e : JEntry) : Acks j (j.ackIfDurable e) := by
  unfold ackIfDurable
  split
  · exact ackEntry_acks j e
  · exact .refl j

theorem durable_of_acks {k : Jenjor} (h : Acks j k) (e : JEntry) : k.durable e = j.durable e := by
  rw [durable, h.sync]
  rfl

theorem acked_of_foldl {es : List JEntry} (he : e ∈ es) (hack : e.acked = false) (hdur : j.durable e = true) {x : JEntry}
    (hx : x ∈ (es.foldl ackIfDurable j).wr.journal) (hseq : x.jr.seq = e.jr.seq) : x.acked = true := by
  induction es generalizing j with
  | nil => cases he
  | cons a es ih =>
    rcases List.mem_cons.mp he with rfl | hes
    · obtain ⟨y, hy, hxy⟩ := (Acks.foldl ackIfDurable_acks es _).mem hx
      rw [ackIfDurable, if_pos hdur] at hy
      exact hxy.acked (acked_of_ackEntry hack hy (by rw [← hseq, hxy.jr]))
    · exact ih hes ((durable_of_acks (ackIfDurable_acks j a) e).trans hdur) hx

theorem ackReady_eq (h : j.cpn.pair.solo = false) : j.ackReady =
    (j.wr.journal.filter fun e => !e.acked && !e.discarded).foldl ackIfDurable j := by
  rw [ackReady, h, if_neg (by decide)]
  rfl

theorem ackReady_acks (j : Jenjor) : Acks j j.ackReady := by
  cases h : j.cpn.pair.solo with
  | true =>
    rw [ackReady, if_pos h]
    exact .refl j
  | false =>
    rw [ackReady_eq h]
    exact .foldl ackIfDurable_acks ..

/-- A durable entry is acknowledged, unless the module serves alone after its companion (R356). -/
theorem entry?_ackReady {seq : Nat} (hsolo : j.cpn.pair.solo = false) (he : j.entry? seq = some e) (hdur : j.durable e = true)
    (hdisc : e.discarded = false) : ∃ e', j.ackReady.entry? seq = some e' ∧ Acknowledges e e' ∧ e'.acked = true := by
  obtain ⟨e', he', hacks⟩ := (ackReady_acks j).entry? he
  refine ⟨e', he', hacks, ?_⟩
  cases hack : e.acked with
  | true => exact hacks.acked hack
  | false =>
    have hmem : e ∈ j.wr.journal.filter fun e => !e.acked && !e.discarded :=
      List.mem_filter.mpr ⟨List.mem_of_find?_eq_some he, by simp [hack, hdisc]⟩
    refine acked_of_foldl hmem hack hdur ?_ (congrArg JRec.seq hacks.jr)
    rw [← ackReady_eq hsolo]
    exact List.mem_of_find?_eq_some he'
end

theorem entry?_mapJournal {j : Jenjor} {seq : Nat} {e : JEntry} {f : JEntry → JEntry} (hf : ∀ x, (f x).jr = x.jr)
    (he : j.entry? seq = some e) : (j.mapJournal (fun x => x.jr.seq == seq) f).entry? seq = some (f e) :=
  (find?_updWhere _ f (fun x => by rw [hf]) _).trans (congrArg (Option.map f) he)

theorem freeJournal_wr (j : Jenjor) : j.freeJournal.wr = { j.wr with
    journal := j.freeJournal.wr.journal, region := j.freeJournal.wr.region, stopped := j.freeJournal.wr.stopped } := by
  unfold freeJournal
  dsimp only
  rw [regionCheck_frame]

end Jenjor

/-! ### The journal's events (R210, R318, R320) -/

namespace Jenjor

/-- A record stands in the journal buffer. -/
def buffered (j : Jenjor) (seq : Nat) (e : JEntry) : Jenjor :=
  { j with wr := { j.wr with buffer := j.wr.buffer ++ [seq], bufHigh := max j.wr.bufHigh (j.bufferBytes + e.jr.bytes) } }

/-- An entry that this module will not lose. -/
def kept (e : JEntry) : JEntry := { e with localDurable := true }

/-- A record stands in the programmed part of the journal region. -/
def inRegion (e : JEntry) : JEntry := { e with programmed := true, localDurable := true }

/-- A record's stripe is programmed. -/
def programmedStripe (j : Jenjor) (seq : Nat) (e : JEntry) : Jenjor :=
  ({ j with wr := { j.wr with buffer := j.wr.buffer.filter (· != seq), region := j.wr.region + e.jr.bytes } }.mapJournal
    (fun x => x.jr.seq == seq) inRegion).programStripes (stripesOf e.jr.bytes)

/-- A secondary answers the primary that a record is durable with it (R353). -/
def toldDurable (j : Jenjor) (tell : Bool) (seq : Nat) : Jenjor := if j.mirrored && tell then j.sendCpn 0x04 seq 0 0 [] else j

theorem toldDurable_wr (j : Jenjor) (tell : Bool) (seq : Nat) : (j.toldDurable tell seq).wr = j.wr := by
  unfold toldDurable
  split <;> simp

theorem toldDurable_cat (j : Jenjor) (tell : Bool) (seq : Nat) : (j.toldDurable tell seq).cat = j.cat := by
  unfold toldDurable
  split <;> simp

end Jenjor

section
open Jenjor
variable {s : State} {seq : Nat} {e : JEntry} (hs : s.j.live = true) (he : s.j.entry? seq = some e)
include hs he

section
variable (hprog : e.programmed = false) (hbuf : seq ∉ s.j.wr.buffer) (hroom : s.j.bufferBytes + e.jr.bytes ≤ 33554432)
include hprog hbuf hroom

theorem exec_journalBufferDurable : exec (.journalBufferDurable seq) s = .next { s with
    j := if s.j.vlt.holdupWeak then s.j.buffered seq e
      else (((s.j.buffered seq e).mapJournal (fun x => x.jr.seq == seq) kept).toldDurable true seq).ackReady } := by
  change execJournalBufferDurable seq s = _
  unfold execJournalBufferDurable
  rw [onBlocks_of_live _ hs, show s.j.wr.journal.find? (fun e => e.jr.seq == seq) = some e from he]
  dsimp only
  rw [if_neg (by simp [hprog, hbuf, hroom]), toldDurable, Bool.and_true]
  rfl

theorem journalBuffer_acknowledges (hstrong : s.j.vlt.holdupWeak = false) (hmir : s.j.mirrored = false)
    (hsolo : s.j.cpn.pair.solo = false) (hsync : s.j.syncPaired = false) (hdisc : e.discarded = false) :
    ∃ (t : State) (e' : JEntry), exec (.journalBufferDurable seq) s = .next t ∧ t.j.entry? seq = some e' ∧ e'.jr = e.jr ∧
      e'.localDurable = true ∧ e'.acked = true ∧ t.j.wr.buffer = s.j.wr.buffer ++ [seq] ∧ t.j.cat = s.j.cat ∧ t.mem = s.mem := by
  let k := (s.j.buffered seq e).mapJournal (fun x => x.jr.seq == seq) kept
  have hfound : k.entry? seq = some (kept e) := entry?_mapJournal (j := s.j.buffered seq e) (fun _ => rfl) he
  have hdur : k.durable (kept e) = true := by
    rw [durable, show k.syncPaired = false from hsync]
    rfl
  obtain ⟨e', he', hacks, hacked⟩ := entry?_ackReady (j := k) hsolo hfound hdur hdisc
  have hexec := exec_journalBufferDurable hs he hprog hbuf hroom
  rw [hstrong, if_neg (by decide), toldDurable, if_neg (by rw [show k.mirrored = false from hmir]; decide)] at hexec
  exact ⟨_, e', hexec, he', hacks.jr, hacks.durable, hacked, congrArg WriteState.buffer (ackReady_acks k).wr,
    (ackReady_acks k).cat, rfl⟩

theorem journalBuffer_weak (hweak : s.j.vlt.holdupWeak = true) :
    ∃ t, exec (.journalBufferDurable seq) s = .next t ∧ t.j.wr.buffer = s.j.wr.buffer ++ [seq] ∧
      t = { s with j := { s.j with wr := { s.j.wr with buffer := t.j.wr.buffer, bufHigh := t.j.wr.bufHigh } } } := by
  have hexec := exec_journalBufferDurable hs he hprog hbuf hroom
  rw [if_pos hweak] at hexec
  exact ⟨_, hexec, rfl, rfl⟩
end

theorem exec_journalStripeProgrammed (hbuf : seq ∈ s.j.wr.buffer) : exec (.journalStripeProgrammed seq) s = .next { s with
    j := ((s.j.programmedStripe seq e).toldDurable (!e.localDurable) seq).ackReady.regionCheck.freeJournal } := by
  change execJournalStripeProgrammed seq s = _
  unfold execJournalStripeProgrammed
  rw [onBlocks_of_live _ hs, show s.j.wr.journal.find? (fun e => e.jr.seq == seq) = some e from he]
  dsimp only
  rw [if_neg (by simp [hbuf])]
  rfl

theorem journalStripe_leavesBuffer (hbuf : seq ∈ s.j.wr.buffer) :
    ∃ t, exec (.journalStripeProgrammed seq) s = .next t ∧ t.j.wr.buffer = s.j.wr.buffer.filter (· != seq) ∧
      (∀ x ∈ t.j.wr.journal, x.jr.seq = seq → x.programmed = true ∧ x.localDurable = true) ∧
      t.j.cat = s.j.cat ∧ t.mem = s.mem ∧ t.rmem = s.rmem := by
  let k := (s.j.programmedStripe seq e).toldDurable (!e.localDurable) seq
  have hwr : k.wr = (s.j.programmedStripe seq e).wr := toldDurable_wr ..
  have hacks := ackReady_acks k
  refine ⟨_, exec_journalStripeProgrammed hs he hbuf, ?_, fun x hx hseq => ?_, ?_, rfl, rfl⟩
  · dsimp only
    rw [freeJournal_wr, regionCheck_frame]
    dsimp only
    rw [hacks.wr]
    dsimp only
    rw [hwr, programmedStripe, programStripes_wr]
    rfl
  · have hmem := mem_freeJournal hx
    rw [regionCheck_frame] at hmem
    obtain ⟨y, hy, hxy⟩ := hacks.mem hmem
    rw [hwr, programmedStripe, programStripes_wr] at hy
    obtain ⟨z, -, rfl⟩ := mem_updWhere hy
    have hz : z.jr.seq = seq := by
      rw [← hseq, hxy.jr]
      split <;> rfl
    rw [hxy.programmed, hxy.durable]
    simp [hz, inRegion]
  · dsimp only
    rw [freeJournal_cat, regionCheck_frame]
    dsimp only
    rw [hacks.cat, toldDurable_cat, programmedStripe, programStripes_cat]
    rfl
end
end Sys2Proof.Machine
end

section
namespace Sys2Proof.Machine
namespace Jenjor

/-! ### What a write waits for (R64, R218) -/

section
variable {j : Jenjor} {e : JEntry}

theorem settleFor_of_kept (h : deletes e = false) : j.settleFor e = j := by
  rw [settleFor, h, if_neg (by decide)]

/-- A plate whose delete log has room is not settled before a delete (R64). -/
theorem settleFor_of_room
    (h : deletes e = true → ∀ x p, j.placeOf e.jr.coll e.jr.key = some x → j.plate? x.1 = some p → p.dlog.length < 351) :
    j.settleFor e = j := by
  cases hdel : deletes e with
  | false => exact settleFor_of_kept hdel
  | true =>
    rw [settleFor, if_pos hdel]
    cases hx : j.placeOf e.jr.coll e.jr.key with
    | none => rfl
    | some x =>
      change j.settleFull x.1 = j
      cases hp : j.plate? x.1 with
      | none => simp [settleFull, hp]
      | some p => simp [settleFull, hp, h hdel x p hx hp]

theorem releaseWrite_frees {seq : Nat} (he : j.entry? seq = some e) (hwait : e.waiting = true)
    (hfirst : ∀ x ∈ j.wr.journal, x.waiting = true → seq ≤ x.jr.seq) (hsettled : j.settleFor e = j)
    (hclear : j.mustWait Forming.empty e = false) :
    j.releaseWrite seq = j.mapJournal (fun x => x.jr.seq == seq) fun x => { x with waiting := false } := by
  have hbefore : (j.wr.journal.any fun x => x.waiting && x.jr.seq < seq && x.jr.coll == e.jr.coll
      && (if keyed e then keyed x && x.jr.key == e.jr.key else !keyed x)) = false := by
    refine List.any_eq_false.mpr fun x hx => ?_
    cases hw : x.waiting with
    | false => simp
    | true => simp [Nat.not_lt.mpr (hfirst x hx hw)]
  unfold releaseWrite
  rw [show j.wr.journal.find? (fun e => e.jr.seq == seq) = some e from he]
  dsimp only
  rw [hbefore, hsettled, hwait, hclear, if_neg (by decide)]

/-! ### The formation of a commit (R214, R215) -/

/-- The buckets with their refill of one microsecond. -/
def ticked (j : Jenjor) : Jenjor :=
  { j with wr := { j.wr with tokens := min 16384 (j.wr.tokens + 1), byteTokens := min 16777216 (j.wr.byteTokens + 4000) } }

/-- The writes that a commit may take. -/
def uncommitted (j : Jenjor) : List JEntry := j.wr.journal.filter fun e => e.epoch.isNone && !e.published && !e.discarded

/-- A durable write that waits for nothing joins the commit that is being formed. -/
theorem formOne_takes (hfree : e.waiting = false) (hdur : j.durable e = true) (hsettled : j.settleFor e = j)
    (hclear : j.mustWait Forming.empty e = false) : ∃ g, formOne (Forming.empty, j) e = (g, j) ∧ g.seqs = [e.jr.seq] := by
  rw [Forming.empty] at hclear ⊢
  unfold formOne
  cases hkey : keyed e with
  | true => simp [hfree, hdur, hsettled, hclear]
  | false => simp [hfree, hdur, hclear]

theorem formCommit_of_none (h : j.uncommitted = []) : j.formCommit = j := by
  unfold formCommit
  rw [show j.wr.journal.filter _ = [] from h]
  rfl

theorem formCommit_of_single (halone : j.wr.journal = [e]) (hnew : j.uncommitted = [e]) (hmir : j.mirroring = false)
    (hfree : e.waiting = false) (hdur : j.durable e = true) (hsettled : j.settleFor e = j)
    (hclear : j.mustWait Forming.empty e = false) :
    j.formCommit = { j with wr := { j.wr with
      formed := j.wr.formed + 1, journal := [{ e with epoch := some (j.wr.formed + 1) }],
      commits := j.wr.commits ++ [{ epoch := j.wr.formed + 1, seqs := [e.jr.seq], waited := false, peerAck := false }] } } := by
  obtain ⟨g, hform, hseqs⟩ := formOne_takes hfree hdur hsettled hclear
  unfold formCommit
  rw [show j.wr.journal.filter _ = [e] from hnew]
  dsimp only
  rw [List.foldl_cons, List.foldl_nil, hform]
  dsimp only
  rw [hseqs, if_neg (by simp)]
  refine (if_neg (show ¬ j.mirroring = true by simp [hmir])).trans ?_
  rw [mapJournal, halone]
  simp [updWhere]
end
end Jenjor

section
open Jenjor
variable {s : State} (hs : s.j.live = true)
include hs

theorem exec_commitTick : exec .commitTick s
    = .next { s with j := if s.j.formsCommits then s.j.ticked.formCommit else s.j.ticked } :=
  onBlocks_of_live (fun j => if j.ticked.formsCommits then j.ticked.formCommit else j.ticked) hs

theorem commitTick_refills (hnone : s.j.wr.journal = []) : exec .commitTick s = .next { s with j := s.j.ticked } := by
  have hform : s.j.ticked.formCommit = s.j.ticked :=
    formCommit_of_none (congrArg (List.filter fun e : JEntry => e.epoch.isNone && !e.published && !e.discarded) hnone)
  rw [exec_commitTick hs, hform, ite_self]

theorem exec_writeWaitRelease (seq : Nat) : exec (.writeWaitRelease seq) s = .next { s with j := s.j.releaseWrite seq } :=
  onBlocks_of_live (fun j => j.releaseWrite seq) hs
end

/-! ### The append of an inserted record (R65, R66, R209) -/

namespace Jenjor

section
variable {j : Jenjor} {p : Plate} {c : Coll}

theorem withTwin_of_no_recals (h : j.cat.recals = []) : j.withTwin c p = j := by
  rw [withTwin, h]
  rfl

theorem plate?_settlePlate {pid : Nat} (hp : j.plate? pid = some p) :
    (j.settlePlate pid).plate? pid = some (visited j.oldestRider p) := by
  refine (plate?_of_plates (j := j.mapPlate pid (visited j.oldestRider)) ?_).trans
    (plate?_mapPlate (fun p => (visited_header _ p).2.2.2.2) hp)
  rw [settlePlate_frame hp]

/-- The record that an append puts into a plate. -/
structure Appended (e : JRec) (delta : Nat) (r : Rec) : Prop where
  occupied : r.occupied = true
  key : r.key = e.key
  delta : r.delta = delta
  tags : r.tags = e.tags

/-- The blocks with an appended record's payload noted. -/
def payloadNoted (j : Jenjor) (c : Coll) (r : JRec) : Jenjor :=
  if r.payload.isEmpty then j else j.noteWrite c.objPayload (placeRecord c.payEnd r.payload.length) r.payload.length

theorem payloadNoted_keeps (j : Jenjor) (c : Coll) (r : JRec) : (j.payloadNoted c r).cat.plates = j.cat.plates ∧
    (j.payloadNoted c r).cat.recals = j.cat.recals := by
  unfold payloadNoted
  split <;> exact ⟨rfl, rfl⟩

theorem notePlate_plates (j : Jenjor) (p : Plate) (slot : Option Nat) : (j.notePlate p slot).cat.plates = j.cat.plates := by
  rw [notePlate_frame]

theorem mapTwin_plates (j : Jenjor) (n num : Nat) (f : Recal → Plate → Plate) :
    (j.mapTwin n num f).cat.plates = j.cat.plates := rfl

theorem appendRecord_plates (mem : List Host.Cell) (j : Jenjor) (c : Coll) (p : Plate) (r : JRec) (epoch : Nat) :
    ∃ a : Rec, Appended r (epoch - p.epochBase) a ∧ (appendRecord mem j c p r epoch).2.cat.plates
      = ((((j.payloadNoted c r).withTwin c p).settlePlate p.pid).mapPlate p.pid fun x =>
          x.append c.sidecar c.plateN a).cat.plates := by
  unfold appendRecord
  extract_lets store so po base mem₁ mem₂ noted a twinned appended copied listed
  refine ⟨a, ⟨rfl, rfl, rfl, rfl⟩, ?_⟩
  have hcopied : copied.cat.plates = appended.cat.plates := mapTwin_plates ..
  have happended : appended.cat.plates = ((twinned.settlePlate p.pid).mapPlate p.pid fun x =>
      x.append c.sidecar c.plateN a).cat.plates := notePlate_plates ..
  exact hcopied.trans happended

/-- The plate that takes a record, settled first, holds it behind its others. -/
theorem plate?_appendRecord (mem : List Host.Cell) (r : JRec) (epoch : Nat) (hrecals : j.cat.recals = [])
    (hp : j.plate? p.pid = some p) : ∃ (q : Plate) (a : Rec), (appendRecord mem j c p r epoch).2.plate? p.pid = some q ∧
      q.recs = p.recs ++ [a] ∧ q.tomb = p.tomb ∧ Appended r (epoch - p.epochBase) a := by
  obtain ⟨hplates, hkept⟩ := payloadNoted_keeps j c r
  obtain ⟨a, ha, heq⟩ := appendRecord_plates mem j c p r epoch
  rw [withTwin_of_no_recals (hkept.trans hrecals)] at heq
  have hset := plate?_settlePlate ((plate?_of_plates hplates).trans hp)
  obtain ⟨-, -, hrecs, htomb, -⟩ := visited_header (j.payloadNoted c r).oldestRider p
  exact ⟨_, a, (plate?_of_plates heq).trans (plate?_mapPlate (fun _ => rfl) hset), congrArg (· ++ [a]) hrecs, htomb, ha⟩

theorem appendRecord_mem (mem : List Host.Cell) (j : Jenjor) (c : Coll) (p : Plate) {r : JRec} (epoch : Nat)
    (hstore : r.stored = []) (hpay : r.payload = []) : (appendRecord mem j c p r epoch).1 = mem := by
  simp [appendRecord, hstore, hpay]
end

/-! ### What an allocation leaves alone of the write path (R243) -/

theorem allocLoop_wr (need : Nat) (named : List Nat) (heat : Option Nat) (fuel : Nat) (j : Jenjor) :
    Grant.Keeps wr j (allocLoop need named heat fuel j) := by
  have hcache : ∀ j : Jenjor, j.releaseCachePage.wr = j.wr := fun j => by
    unfold releaseCachePage
    split <;> rfl
  fun_induction allocLoop need named heat fuel j with
  | case1 j => exact rfl
  | case2 fuel j hfree => exact rfl
  | case3 fuel j hbusy hcached ih => exact ih.of_eq (hcache j)
  | case4 => exact rfl
  | case5 => exact rfl
  | case6 => exact rfl
  | case7 fuel j hbusy hloose hidle o ho k hclean ih => exact ih.of_eq rfl

theorem allocate_wr (j : Jenjor) (need : Nat) (named : List Nat) : Grant.Keeps wr j (j.allocate need named) := by
  unfold allocate allocateCool
  dsimp only
  split
  · trivial
  · exact allocLoop_wr ..

theorem listPlate_wr (j : Jenjor) (n pid : Nat) : (j.listPlate n pid).wr = j.wr := by
  unfold listPlate
  split
  · rfl
  · split <;> rfl

theorem openPlate_wr (j : Jenjor) (c : Coll) : (j.openPlate c).wr = j.wr := by
  fun_cases openPlate j c with
  | case1 hnum => rfl
  | case2 num hnum p add k hk =>
    have hkeeps := allocate_wr j ((add j).plateSetPages c - j.plateSetPages c) [c.objPlates]
    rw [hk] at hkeeps
    exact (listPlate_wr ..).trans hkeeps
  | case3 num hnum p add failed k hk =>
    have hkeeps := allocate_wr j ((add j).plateSetPages c - j.plateSetPages c) [c.objPlates]
    rw [hk] at hkeeps
    exact hkeeps
  | case4 num hnum p add hk => rfl

theorem topUp_wr (j : Jenjor) (n : Nat) : (j.topUp n).wr = j.wr := by
  unfold topUp
  split
  · rfl
  · split
    · exact openPlate_wr ..
    · rfl

end Jenjor
end Sys2Proof.Machine
end

section
namespace Sys2Proof.Machine
namespace Jenjor

/-! ### The publication of a commit (R217) -/

section
variable {j : Jenjor} {e : JEntry}

/-- What a publication does beyond its edits: the epoch moves, its writes are acknowledged and completed, frames change,
plates open, and what waited goes on. -/
def closed (j : Jenjor) (c : Commit) (es : List JEntry) : Jenjor :=
  let j := { j with wr := { j.wr with epoch := c.epoch, formed := max j.wr.formed c.epoch,
                                      commits := j.wr.commits.filter fun x => x.epoch != c.epoch } }
  let j := es.foldl (fun j e => j.publishEntry c.epoch e) (j.count blkDEV 0x420)
  let j := (es.filter fun e => e.jr.op == .biasFrame).foldl (fun j e => j.enterForColl e.jr.coll (.biasFrame e.jr.coll)) j
  (((es.map fun e => e.jr.coll).eraseDups).foldl topUp j).settleFences.freeJournal.settleBehind

theorem publishCommit_eq (mem : List Host.Cell) (j : Jenjor) (c : Commit) : publishCommit mem j c =
    (((j.liveEntries c).foldl (applyEntryOf c.epoch) (mem, j)).1,
      ((j.liveEntries c).foldl (applyEntryOf c.epoch) (mem, j)).2.closed c (j.liveEntries c)) := rfl

/-- An entry whose write is published. -/
def publicationOf (e : JEntry) : JEntry := { e with published := true }

theorem publishEntry_acks (j : Jenjor) (epoch : Nat) (e : JEntry) : Acks j (j.publishEntry epoch e) := by
  have hshown : Acks j ((j.mapJournal (fun x => x.jr.seq == e.jr.seq) publicationOf).ackEntry e) :=
    (Acks.of_mapJournal j _ (f := publicationOf) fun _ => ⟨rfl, rfl, rfl, id⟩).trans (ackEntry_acks _ e)
  unfold publishEntry
  dsimp only
  split
  · exact hshown.trans (completed_acks ..)
  · exact hshown

theorem settleFences_keeps (j : Jenjor) : j.settleFences.cat = j.cat ∧ j.settleFences.wr.epoch = j.wr.epoch := by
  have hkeeps := foldl_keeps (φ := fun k : Jenjor => (k.cat, k.wr.epoch))
    (fun j (f : Fence) => j.complete f.ref .success 0 (BitVec.ofNat 64 (f.best.getD j.wr.epoch)) none)
    (fun k f => by simp) ((j.wr.fences.map j.noted).filter fun f => f.covered.isEmpty)
    { j with wr := { j.wr with fences := (j.wr.fences.map j.noted).filter fun f => !f.covered.isEmpty } }
  exact Prod.mk.inj hkeeps

theorem settleBehind_keeps (j : Jenjor) : j.settleBehind.cat = j.cat ∧ j.settleBehind.wr = j.wr := by
  unfold settleBehind
  dsimp only
  split <;> exact ⟨rfl, rfl⟩

/-- A publication of one write that is no BIAS_FRAME leaves the plates, opened ones behind them, and moves the epoch. -/
theorem closed_effect (j : Jenjor) (c : Commit) (h : e.jr.op ≠ .biasFrame) :
    (∃ new, (j.closed c [e]).cat.plates = j.cat.plates ++ new) ∧ (j.closed c [e]).wr.epoch = c.epoch := by
  let k := { j with wr := { j.wr with epoch := c.epoch, formed := max j.wr.formed c.epoch,
                                      commits := j.wr.commits.filter fun x => x.epoch != c.epoch } }.count blkDEV 0x420
  have hacks := publishEntry_acks k c.epoch e
  have hnoFrame : [e].filter (fun e => e.jr.op == .biasFrame) = [] := by simp [h]
  have hcoll : ([e].map fun e => e.jr.coll).eraseDups = [e.jr.coll] := rfl
  have hclosed : j.closed c [e]
      = ((k.publishEntry c.epoch e).topUp e.jr.coll).settleFences.freeJournal.settleBehind := by
    unfold closed
    rw [hnoFrame, hcoll]
    rfl
  obtain ⟨new, hnew⟩ := topUp_effect (k.publishEntry c.epoch e) e.jr.coll
  rw [hclosed, (settleBehind_keeps _).1, (settleBehind_keeps _).2, freeJournal_cat, freeJournal_wr, (settleFences_keeps _).1]
  refine ⟨⟨new, ?_⟩, ?_⟩
  · rw [show j.cat.plates = (k.publishEntry c.epoch e).cat.plates by rw [hacks.cat]; rfl]
    exact congrArg Prod.fst hnew
  · dsimp only
    rw [(settleFences_keeps _).2, topUp_wr, hacks.wr]
    rfl

theorem applyEntryOf_insert {c : Coll} {p : Plate} (mem : List Host.Cell) (epoch : Nat) (hop : e.jr.op = .insert)
    (hc : j.coll? e.jr.coll = some c) (hp : j.targetPlate c = some p) :
    applyEntryOf epoch (mem, j) e = appendRecord mem j c p e.jr epoch := by
  have hcnum : j.coll? c.num = some c := by rw [num_of_coll? hc, hc]
  simp [applyEntryOf, hc, hcnum, hp, hop, deletes, keyed]

/-- A commit of one insert whose plate is open publishes at once (R222). -/
theorem publishOldest_of_insert {cm : Commit} {rest : List Commit} {c : Coll} (mem : List Host.Cell)
    (hcommits : j.wr.commits = cm :: rest) (hmay : j.mayPublish cm = true) (hlive : j.liveEntries cm = [e])
    (hop : e.jr.op = .insert) (hc : j.coll? e.jr.coll = some c) (hslots : 1 ≤ j.freeSlots c)
    (hready : j.appendsReady [e] [e.jr.coll] = true) (hheld : j.slewHeld e = false) :
    publishOldest mem j = publishCommit mem j cm := by
  have hkept : deletes e = false := by simp [deletes, hop]
  have hcolls : ([e].map fun e => e.jr.coll).eraseDups = [e.jr.coll] := rfl
  have hopen : [e.jr.coll].foldl (fun j n => openFor n (appendsTo [e] n) (appendsTo [e] n) j) j = j := by
    rw [List.foldl_cons, List.foldl_nil, show appendsTo [e] e.jr.coll = 1 by simp [appendsTo, hop]]
    simp [openFor, hc, hslots]
  have hsettle : [e].foldl (fun j e => j.settleFor e) j = j := settleFor_of_kept hkept
  have hdeletes : j.deletesReady [e] = true := by simp [deletesReady, hkept]
  unfold publishOldest
  rw [hcommits]
  dsimp only
  rw [hmay, hlive, hcolls, hopen, hsettle]
  simp [hready, hdeletes, hheld]

theorem plate?_append {k : Jenjor} {pid : Nat} {p : Plate} {new : List Plate} (hk : k.cat.plates = j.cat.plates ++ new)
    (hp : j.plate? pid = some p) : k.plate? pid = some p := by
  unfold plate? at hp ⊢
  rw [hk, List.find?_append, hp]
  rfl
end
end Jenjor

section
open Jenjor
variable {s : State} (hs : s.j.live = true)
include hs

theorem exec_commitPublish : exec .commitPublish s
    = .next { s with mem := (publishOldest s.mem s.j).1, j := (publishOldest s.mem s.j).2 } :=
  onMemory_of_live (fun mem _ j => publishOldest mem j) hs

theorem commitPublish_idle (hnone : s.j.wr.commits = []) : exec .commitPublish s = .next s := by
  have hidle : publishOldest s.mem s.j = (s.mem, s.j) := by
    unfold publishOldest
    rw [hnone]
  rw [exec_commitPublish hs, hidle]

theorem commitPublish_inserts {cm : Commit} {rest : List Commit} {e : JEntry} {c : Coll} {p : Plate}
    (hcommits : s.j.wr.commits = cm :: rest) (hmay : s.j.mayPublish cm = true) (hlive : s.j.liveEntries cm = [e])
    (hop : e.jr.op = .insert) (hc : s.j.coll? e.jr.coll = some c) (hslots : 1 ≤ s.j.freeSlots c)
    (hready : s.j.appendsReady [e] [e.jr.coll] = true) (hheld : s.j.slewHeld e = false) (hrecals : s.j.cat.recals = [])
    (htarget : s.j.targetPlate c = some p) (hp : s.j.plate? p.pid = some p) :
    ∃ (t : State) (p' : Plate) (r : Rec), exec .commitPublish s = .next t ∧ t.j.wr.epoch = cm.epoch ∧
      t.j.plate? p.pid = some p' ∧ p'.recs = p.recs ++ [r] ∧ r.occupied = true ∧ r.key = e.jr.key ∧
      r.delta = cm.epoch - p.epochBase ∧ r.tags = e.jr.tags ∧ p'.tomb = p.tomb ∧
      (e.jr.stored = [] → e.jr.payload = [] → t.mem = s.mem) ∧ t.rmem = s.rmem := by
  obtain ⟨q, r, hq, hrecs, htomb, hoccupied, hkey, hdelta, htags⟩ :=
    plate?_appendRecord (c := c) s.mem e.jr cm.epoch hrecals hp
  have hpublish : publishOldest s.mem s.j = ((appendRecord s.mem s.j c p e.jr cm.epoch).1,
      (appendRecord s.mem s.j c p e.jr cm.epoch).2.closed cm [e]) := by
    rw [publishOldest_of_insert s.mem hcommits hmay hlive hop hc hslots hready hheld, publishCommit_eq, hlive,
      List.foldl_cons, List.foldl_nil, applyEntryOf_insert s.mem cm.epoch hop hc htarget]
  obtain ⟨⟨new, hnew⟩, hepoch⟩ :=
    closed_effect (e := e) (appendRecord s.mem s.j c p e.jr cm.epoch).2 cm (by rw [hop]; decide)
  have hexec := exec_commitPublish hs
  rw [hpublish] at hexec
  exact ⟨_, q, r, hexec, hepoch, plate?_append hnew hq, hrecs, hoccupied, hkey, hdelta, htags, htomb,
    appendRecord_mem s.mem s.j c p cm.epoch, rfl⟩
end

/-- Settles O15: the journal's two events by what acknowledgement keeps of an entry, the tick by the one write that joins
its commit, the publication by the append of its record and what closes it. -/
theorem journalAndCommits : Obligations.JournalAndCommits := by
  refine ⟨fun s seq e hs he hprog hbuf hroom hstrong hmir hsolo hsync hdisc =>
      journalBuffer_acknowledges hs he hprog hbuf hroom hstrong hmir hsolo hsync hdisc,
    fun s seq e hs he hprog hbuf hroom hweak => journalBuffer_weak hs he hprog hbuf hroom hweak,
    fun s seq e hs he hbuf => journalStripe_leavesBuffer hs he hbuf, fun s hs hnone => commitTick_refills hs hnone,
    fun s e hs hforms hmir halone hepoch hpub hdisc hfree hdur hroom hclear => ?_,
    fun s cm rest e c p hs hcommits hmay hlive hop hc hslots hready hheld hrecals htarget hp =>
      commitPublish_inserts hs hcommits hmay hlive hop hc hslots hready hheld hrecals htarget hp,
    fun s hs hnone => commitPublish_idle hs hnone, fun s seq e hs he hwait hfirst hroom hclear => ?_⟩
  · have hnew : s.j.ticked.uncommitted = [e] := by
      rw [Jenjor.uncommitted, show s.j.ticked.wr.journal = [e] from halone]
      simp [hepoch, hpub, hdisc]
    rw [exec_commitTick hs, hforms, if_pos rfl,
      Jenjor.formCommit_of_single (j := s.j.ticked) halone hnew hmir hfree hdur (Jenjor.settleFor_of_room hroom) hclear]
    rfl
  · rw [exec_writeWaitRelease hs, Jenjor.releaseWrite_frees he hwait hfirst (Jenjor.settleFor_of_room hroom) hclear]

end Sys2Proof.Machine
end

section
namespace Sys2Proof.Machine

/-! ### Little-endian values and the bytes that hold them (R3, R4) -/

theorem two_pow_bytes (n : Nat) : 2 ^ (8 * (n + 1)) = 256 * 2 ^ (8 * n) := by
  rw [Nat.mul_succ, Nat.pow_add]
  omega

theorem leBytes_length (n v : Nat) : (leBytes n v).length = n := by
  induction n generalizing v with
  | zero => rfl
  | succ n ih => exact congrArg (· + 1) (ih _)

theorem leNat_leBytes (n v : Nat) : leNat (leBytes n v) = v % 2 ^ (8 * n) := by
  induction n generalizing v with
  | zero => simp [leBytes, leNat, Nat.mod_one]
  | succ n ih => rw [leBytes, leNat, ih, BitVec.toNat_ofNat, two_pow_bytes, Nat.mod_mul]

theorem leNat_lt (bs : List Byte) : leNat bs < 2 ^ (8 * bs.length) := by
  induction bs with
  | nil => exact Nat.one_pos
  | cons b bs ih =>
    have hb := b.isLt
    rw [leNat, List.length_cons, two_pow_bytes]
    omega

theorem Memory.readBytes_length (m : List Host.Cell) (a n : Nat) : (Memory.readBytes m a n).length = n := by
  simp [Memory.readBytes]

theorem Memory.leNat_readBytes_lt (m : List Host.Cell) (a n : Nat) : leNat (Memory.readBytes m a n) < 2 ^ (8 * n) := by
  have h := leNat_lt (Memory.readBytes m a n)
  rwa [Memory.readBytes_length] at h

/-- Bytes that were written read back as they were written. -/
theorem Memory.readBytes_writeBytes {m : List Host.Cell} (a : Nat) (bs : List Byte) (hm : Memory.wf m = true) :
    Memory.readBytes (Memory.writeBytes m a bs) a bs.length = bs := by
  refine List.ext_getElem (Memory.readBytes_length _ _ _) fun i _ hi => ?_
  simp [Memory.readBytes, Memory.read_writeBytes _ _ _ hm, hi]

/-- A value that was written at a width reads back cut to it. -/
theorem Memory.leNat_written {m : List Host.Cell} (a w v : Nat) (hm : Memory.wf m = true) :
    leNat (Memory.readBytes (Memory.writeBytes m a (leBytes w v)) a w) = v % 2 ^ (8 * w) := by
  have hread := Memory.readBytes_writeBytes a (leBytes w v) hm
  rw [leBytes_length] at hread
  rw [hread, leNat_leBytes]

namespace Jenjor

/-! ### The atomic adder (R249, R250) -/

/-- What the integer adder of `w` bits makes of a stored element: the sum, or the signed minimum or maximum (R249). -/
def signedOp (w op stored operand : Nat) : Nat :=
  if op = 1 then (stored + operand) % 2 ^ w
  else if op = 2 then (if (BitVec.ofNat w operand).slt (BitVec.ofNat w stored) then operand else stored)
  else if (BitVec.ofNat w stored).slt (BitVec.ofNat w operand) then operand else stored

theorem adderOp_int32 (op stored operand : Nat) : adderOp 1 op stored operand = signedOp 32 op stored operand := by
  simp [adderOp, signedOp, BitVec.slt]

theorem adderOp_int64 (op stored operand : Nat) : adderOp 2 op stored operand = signedOp 64 op stored operand := by
  simp [adderOp, signedOp, BitVec.slt]

theorem signedOp_lt {w op stored operand : Nat} (hs : stored < 2 ^ w) (ho : operand < 2 ^ w) :
    signedOp w op stored operand < 2 ^ w := by
  unfold signedOp
  split
  · exact Nat.mod_lt _ (Nat.two_pow_pos w)
  · split <;> split <;> assumption

/-- One pair of an integer format returns what its element held and leaves the adder's value there. -/
theorem applyAtomics_one {m : List Host.Cell} {fmt w : Nat} (op base off x : Nat) (hm : Memory.wf m = true)
    (hx : x < 2 ^ (8 * w)) (hbytes : adderBytes fmt = w) (hadder : ∀ a b, adderOp fmt op a b = signedOp (8 * w) op a b) :
    let old := leNat (Memory.readBytes m (base + off) w)
    (applyAtomics fmt op base [(off, x)] m).2 = [old] ∧
      leNat (Memory.readBytes (applyAtomics fmt op base [(off, x)] m).1 (base + off) w) = signedOp (8 * w) op old x := by
  subst hbytes
  refine ⟨rfl, ?_⟩
  rw [← Nat.mod_eq_of_lt (signedOp_lt (Memory.leNat_readBytes_lt m (base + off) _) hx), ← hadder]
  exact Memory.leNat_written (base + off) _ _ hm

/-- A byte in no element of the pairs reads as before. -/
theorem read_applyAtomics_outside (fmt op base a : Nat) (ps : List (Nat × Nat)) (m : List Host.Cell)
    (h : ∀ p ∈ ps, a < base + p.1 ∨ base + p.1 + adderBytes fmt ≤ a) :
    Memory.read (applyAtomics fmt op base ps m).1 a = Memory.read m a := by
  induction ps generalizing m with
  | nil => rfl
  | cons p ps ih =>
    obtain ⟨hp, hps⟩ := List.forall_mem_cons.mp h
    exact (ih _ hps).trans (Memory.read_writeBytes_outside _ _ _ _ (by rwa [leBytes_length]))

/-- The module once the pairs of an ATOMIC are noted at their elements. -/
def atomicsNoted (j : Jenjor) (obj w : Nat) (ps : List (Nat × Nat)) : Jenjor := ps.foldl (fun j p => j.noteWrite obj p.1 w) j

theorem atomicsNoted_frame (j : Jenjor) (obj w : Nat) (ps : List (Nat × Nat)) :
    let k := j.atomicsNoted obj w ps
    k = { j with cat := { j.cat with objs := k.cat.objs, slews := k.cat.slews } } := by
  induction ps generalizing j with
  | nil => rfl
  | cons p ps ih => exact ih (j.noteWrite obj p.1 w)

theorem atomicCmd_of_sound {j : Jenjor} {f : Fetched} {op : List Byte} {o : Obj} (mem : List Host.Cell)
    (ho : j.region? (dField f.d 0x14 4) = some o) (hck : firstStatus (j.atomicChecks f.d op) = none)
    (hsound : j.mem.poison = []) (hquiet : dField f.d 0x20 8 = 0) :
    atomicCmd mem j f op = ((applyAtomics (dField f.d 0x18 1) (dField f.d 0x19 1) o.base (atomicPairs op) mem).1,
      (j.atomicsNoted o.num (adderBytes (dField f.d 0x18 1)) (atomicPairs op)).complete f.ref .success 0 0 none) := by
  unfold atomicCmd
  simp only [ho, hck, tilePoisoned, hsound, hquiet, List.any_nil, List.any_eq_true, Bool.false_eq_true, and_false,
    exists_false, if_false, if_true]
  rfl

/-! ### Commands on a tile region (R237, R257) -/

theorem find?_of_takeFetched {j k : Jenjor} {q code : Nat} {f : Fetched} (h : j.takeFetched q code = some (f, k)) :
    (j.qs.fetched.find? fun f => f.ref.q == q) = some f := by
  unfold takeFetched at h
  split at h
  · contradiction
  next g hg =>
    split at h
    · cases h
      exact hg
    · contradiction

section
variable {s : State} {q code : Nat} {f : Fetched} {j : Jenjor} (h : s.takes q code f j)
include h

theorem tileHeld_of_takes (obj : Desc → Nat) : s.j.tileHeld q obj = j.heldBySlew (obj f.d) := by
  rw [tileHeld, find?_of_takeFetched h.2, takeFetched_frame h.2]
  rfl

/-- A tile command whose region and tiles are in order does what its body says. -/
theorem onMemory_tileCmd {o : Obj} (body : List Host.Cell → Jenjor → Fetched → Obj → List Host.Cell × Jenjor)
    (ho : j.region? (dField f.d 0x10 4) = some o) (hck : firstStatus (j.tileChecks f.d) = none) :
    onMemory (fun mem _ j => tileCmd mem j q code (body mem)) s
      = .next { s with mem := (body s.mem j f o).1, j := (body s.mem j f o).2 } := by
  rw [onMemory_of_live _ h.1]
  simp only [tileCmd, h.2, hck, ho]

theorem onMemory_tileCmd_refused {st : Status}
    (body : List Host.Cell → Jenjor → Fetched → Obj → List Host.Cell × Jenjor)
    (hst : firstStatus (j.tileChecks f.d) = some st) :
    onMemory (fun mem _ j => tileCmd mem j q code (body mem)) s = .next { s with j := j.refuse f.ref st } := by
  rw [onMemory_of_live _ h.1]
  simp only [tileCmd, h.2, hst]

end

/-- The module once a write of tiles is noted: what it covers whole is sound again, and dirty. -/
def tilesNoted (j : Jenjor) (o : Obj) (d : Desc) : Jenjor :=
  (j.clearTilePoison o.num (tileSpan d).1 (tileSpan d).2).noteWrite o.num (tileSpan d).1 (tileSpan d).2

end Jenjor

section
open Jenjor
variable {s : State} {q : Nat} {f : Fetched} {j : Jenjor} {o : Obj} {st : Status}

theorem exec_atomic {op : List Byte} (h : s.takes q 0x50 f j) (hfree : j.heldBySlew (dField f.d 0x14 4) = false) :
    exec (.atomic q op) s = .next { s with mem := (atomicCmd s.mem j f op).1, j := (atomicCmd s.mem j f op).2 } := by
  change execAtomic q op s = _
  unfold execAtomic
  rw [onMemory_of_live _ h.1]
  simp only [tileHeld_of_takes h, hfree, Bool.false_eq_true, if_false, h.2]

theorem exec_atomic_held {op : List Byte} (h : s.takes q 0x50 f j) (hheld : j.heldBySlew (dField f.d 0x14 4) = true) :
    exec (.atomic q op) s = .next s := by
  change execAtomic q op s = _
  unfold execAtomic
  rw [onMemory_of_live _ h.1]
  simp only [tileHeld_of_takes h, hheld, if_true]

theorem exec_tileWrite_held {data : List Byte} (h : s.takes q 0x30 f j)
    (hheld : j.heldBySlew (dField f.d 0x10 4) = true) : exec (.tileWrite q data) s = .next s := by
  change execTileWrite q data s = _
  unfold execTileWrite
  rw [onMemory_of_live _ h.1]
  simp only [tileHeld_of_takes h, hheld, if_true]

/-- What TILE_PREFETCH and TILE_EVICT do: they complete (R257). -/
def tileNoEffect (mem : List Host.Cell) (j : Jenjor) (f : Fetched) (_ : Obj) : List Host.Cell × Jenjor :=
  (mem, j.complete f.ref .success 0 0 none)

/-- What TILE_WRITE does with tiles in order. -/
def tileWriteBody (data : List Byte) (mem : List Host.Cell) (j : Jenjor) (f : Fetched) (o : Obj) :
    List Host.Cell × Jenjor :=
  (Memory.writeBytes mem (o.base + (tileSpan f.d).1) (bytesAt data 0 (tileSpan f.d).2),
    (j.tilesNoted o f.d).complete f.ref .success 0 0 none)

theorem exec_tileWrite_free {data : List Byte} (h : s.takes q 0x30 f j)
    (hfree : j.heldBySlew (dField f.d 0x10 4) = false) :
    exec (.tileWrite q data) s = onMemory (fun mem _ j => tileCmd mem j q 0x30 (tileWriteBody data mem)) s := by
  change execTileWrite q data s = _
  unfold execTileWrite
  rw [onMemory_of_live _ h.1, onMemory_of_live _ h.1]
  simp only [tileHeld_of_takes h, hfree, Bool.false_eq_true, if_false]
  rfl

theorem exec_tileWrite {data : List Byte} (h : s.takes q 0x30 f j) (hfree : j.heldBySlew (dField f.d 0x10 4) = false)
    (ho : j.region? (dField f.d 0x10 4) = some o) (hck : firstStatus (j.tileChecks f.d) = none) :
    exec (.tileWrite q data) s = .next { s with mem := (tileWriteBody data s.mem j f o).1,
                                                j := (tileWriteBody data s.mem j f o).2 } :=
  (exec_tileWrite_free h hfree).trans (onMemory_tileCmd h _ ho hck)

theorem exec_tileWrite_refused {data : List Byte} (h : s.takes q 0x30 f j)
    (hfree : j.heldBySlew (dField f.d 0x10 4) = false) (hst : firstStatus (j.tileChecks f.d) = some st) :
    exec (.tileWrite q data) s = .next { s with j := j.refuse f.ref st } :=
  (exec_tileWrite_free h hfree).trans (onMemory_tileCmd_refused h (tileWriteBody data) hst)

theorem exec_tileRead (h : s.takes q 0x31 f j) (ho : j.region? (dField f.d 0x10 4) = some o)
    (hck : firstStatus (j.tileChecks f.d) = none) (hsound : j.mem.poison = []) :
    exec (.tileRead q) s
      = .next { s with j := j.returnBytes f.ref (dField f.d 8 8) (BitVec.ofNat 32 (dField f.d 0x20 4))
                              (Memory.readBytes s.mem (o.base + (tileSpan f.d).1) (tileSpan f.d).2) } := by
  change execTileRead q s = _
  unfold execTileRead
  refine (onMemory_tileCmd h _ ho hck).trans ?_
  simp only [tilePoisoned, hsound, List.any_nil, Bool.false_eq_true, if_false]

theorem exec_tileRead_refused (h : s.takes q 0x31 f j) (hst : firstStatus (j.tileChecks f.d) = some st) :
    exec (.tileRead q) s = .next { s with j := j.refuse f.ref st } := by
  change execTileRead q s = _
  exact onMemory_tileCmd_refused h _ hst

/-- A write of `n` bytes stores them from `a` on, a byte that the source lacks as zero, and nothing elsewhere. -/
theorem read_writeBytes_bytesAt {m : List Host.Cell} (a n : Nat) (data : List Byte) (hm : Memory.wf m = true) :
    (∀ i, i < n → Memory.read (Memory.writeBytes m a (bytesAt data 0 n)) (a + i) = data.getD i 0) ∧
      ∀ b, b < a ∨ a + n ≤ b → Memory.read (Memory.writeBytes m a (bytesAt data 0 n)) b = Memory.read m b := by
  have hlen : (bytesAt data 0 n).length = n := by simp [bytesAt]
  refine ⟨fun i hi => ?_, fun b hb => Memory.read_writeBytes_outside _ _ _ _ (by rwa [hlen])⟩
  rw [Memory.read_writeBytes _ _ _ hm, if_pos (by omega), Nat.add_sub_cancel_left]
  simp [bytesAt, hi]

end

/-- Settles O18: ATOMIC by its pairs in turn and the adder at one element, a tile write by what memory reads after it, the
other commands by what each hands on. -/
theorem tileRegions : Obligations.TileRegions := by
  unfold Obligations.TileRegions
  refine ⟨fun s q op f j o h ho hck hsound hfree hquiet => ?_, fun m w base off x op hm hw _ _ hx => ?_,
    fun s q data f j o h hm ho hck hfree => ?_, fun s q f j o h ho hck hsound => exec_tileRead h ho hck hsound,
    fun s q f j o ho hck => ⟨fun h => Jenjor.onMemory_tileCmd h tileNoEffect ho hck,
      fun h => Jenjor.onMemory_tileCmd h tileNoEffect ho hck⟩,
    fun s q data f j => ⟨exec_tileWrite_held, exec_atomic_held⟩,
    fun s q f j st hst => ⟨fun h hfree data => exec_tileWrite_refused h hfree hst, fun h => exec_tileRead_refused h hst,
      fun h => Jenjor.onMemory_tileCmd_refused h tileNoEffect hst,
      fun h => Jenjor.onMemory_tileCmd_refused h tileNoEffect hst⟩⟩
  · refine ⟨j.atomicsNoted o.num (Jenjor.adderBytes (dField f.d 0x18 1)) (Jenjor.atomicPairs op), ?_,
      fun a => Jenjor.read_applyAtomics_outside _ _ _ _ _ _, Jenjor.atomicsNoted_frame ..⟩
    rw [exec_atomic h hfree, Jenjor.atomicCmd_of_sound _ ho hck hsound hquiet]
  · obtain rfl | rfl := hw
    · exact Jenjor.applyAtomics_one op base off x hm hx rfl (Jenjor.adderOp_int32 op)
    · exact Jenjor.applyAtomics_one op base off x hm hx rfl (Jenjor.adderOp_int64 op)
  · obtain ⟨hinside, houtside⟩ := read_writeBytes_bytesAt (o.base + (Jenjor.tileSpan f.d).1) (Jenjor.tileSpan f.d).2 data hm
    exact ⟨j.tilesNoted o f.d, _, exec_tileWrite h hfree ho hck, hinside, houtside, rfl⟩

end Sys2Proof.Machine
end

section
namespace Sys2Proof.Machine

/-! ### Calibration sweeps (R251 to R254) -/

namespace Jenjor

theorem deliverThen_cat (j : Jenjor) (id : Nat) (r : CmdRef) (dq addr : Nat) (rkey : BitVec 32) (data : List Byte)
    (st : Status) (v0 v1 : BitVec 64) (len : Option Nat) : (j.deliverThen id r dq addr rkey data st v0 v1 len).cat = j.cat := by
  have hend : ∀ (k : Jenjor) st v0 v1 len, (k.endCommand id r st v0 v1 len).cat = k.cat := fun _ _ _ _ _ => by
    rw [endCommand, complete_cat, dropCtx_cat]
  have hhold : ∀ (k : Jenjor) w, (k.holdCompletion w).cat = k.cat := fun _ _ => rfl
  unfold deliverThen
  dsimp only
  repeat' split
  all_goals simp only [hend, hhold, sendRdma_cat, record_cat, emit_cat]

theorem returnBytes_cat (j : Jenjor) (r : CmdRef) (addr : Nat) (rkey : BitVec 32) (data : List Byte) :
    (j.returnBytes r addr rkey data).cat = j.cat := deliverThen_cat ..

/-- The calibration sweep that a CALIBRATE starts (R252). -/
def calibOf (j : Jenjor) (f : Fetched) (op : List Byte) (c : Coll) : Calib :=
  { ref := f.ref, coll := c.num, fromStore := dField f.d 0x14 1 == 2, stride := dField f.d 0x18 4, params := calibPairs op,
    addr := dField f.d 0x20 8, rkey := BitVec.ofNat 32 (dField f.d 0x28 4), view := j.listView c.num,
    epochStart := j.wr.epoch, gridA := c.gridA, gridB := c.gridB, gridGen := c.gridGen }

theorem startCalib_of_sound {j : Jenjor} {f : Fetched} {op : List Byte} {c : Coll}
    (hck : firstStatus (j.calibChecks f.d op) = none) (hc : j.liveColl? (dField f.d 4 2) = some c) :
    j.startCalib f op = { j with cat := { j.cat with calib := some (j.calibOf f op c) } } := by
  unfold startCalib
  rw [hck, hc]
  rfl

theorem nextCalib_of_none {j : Jenjor} (h : j.cat.calibQueue = []) : j.nextCalib = j := by
  rw [nextCalib, h]
  rfl

theorem finishCalib_of_coll {mem : List Host.Cell} {j : Jenjor} {k : Calib} {c : Coll} (hk : j.cat.calib = some k)
    (hc : j.coll? k.coll = some c) (hqueue : j.cat.calibQueue = []) :
    finishCalib mem j = Jenjor.returnBytes { j with cat := { j.cat with calib := none } } k.ref k.addr k.rkey
      (calibBlock mem j c k) := by
  unfold finishCalib
  simp only [hk, hc]
  exact nextCalib_of_none (by rw [returnBytes_cat]; exact hqueue)

/-! ### The result block (R254) -/

theorem DimStat.add_bins_length (p : F32 × F32) (s : DimStat) (x : F32) : (s.add p x).bins.length = s.bins.length := by
  unfold DimStat.add
  split
  · rfl
  · exact List.length_set

theorem DimStat.foldl_bins_length (p : F32 × F32) (xs : List F32) :
    (xs.foldl (DimStat.add p) DimStat.start).bins.length = 258 :=
  (foldl_keeps (φ := fun s : DimStat => s.bins.length) _ (DimStat.add_bins_length p) xs DimStat.start).trans
    List.length_replicate

theorem flatMap_length_const {α : Type} {n : Nat} {f : α → List Byte} (hf : ∀ x, (f x).length = n) (l : List α) :
    (l.flatMap f).length = n * l.length := by
  simp [List.length_flatMap, hf, Nat.mul_comm]

/-- A dimension of 258 bins takes 2,128 bytes. -/
theorem DimStat.bytes_length {s : DimStat} (h : s.bins.length = 258) : s.bytes.length = 2128 := by
  simp only [DimStat.bytes, List.length_append, leBytes_length, flatMap_length_const (leBytes_length 8), h]

theorem calibBlock_length (mem : List Host.Cell) (j : Jenjor) (c : Coll) (k : Calib) :
    (calibBlock mem j c k).length = 64 + 2128 * c.dim := by
  unfold calibBlock
  simp only [List.length_append, leBytes_length, List.length_range,
    flatMap_length_const fun _ => DimStat.bytes_length (DimStat.foldl_bins_length _ _)]

/-! ### Recalibration (R255) -/

theorem insertBy_perm {α : Type} (le : α → α → Bool) (x : α) (l : List α) : (insertBy le x l).Perm (x :: l) := by
  induction l with
  | nil => exact .refl _
  | cons y l ih =>
    unfold insertBy
    split
    · exact .refl _
    · exact (ih.cons y).trans (.swap x y l)

theorem sortBy_perm {α : Type} (le : α → α → Bool) (l : List α) : (sortBy le l).Perm l := by
  induction l with
  | nil => exact .refl _
  | cons x l ih => exact (insertBy_perm le x _).trans (ih.cons x)

theorem recalWaits_of_none {j : Jenjor} (q : Nat) (hrecals : j.cat.recals = []) (hjobs : j.cat.replatings = []) :
    j.recalWaits q = false := by
  unfold recalWaits
  split
  · rfl
  · simp [hrecals, hjobs]

/-- The plates on a collection's list in the order of their numbers, in which their twins are built. -/
def twinned (j : Jenjor) (n : Nat) : List Plate := sortBy (fun a b => a.num ≤ b.num) (j.collPlates n)

/-- The recalibration that a RECALIBRATE stages, before its twins are built (R255 step 1). -/
def bareRecal (j : Jenjor) (f : Fetched) (c : Coll) (op : List Byte) : Recal :=
  { ref := f.ref, seq := j.cat.seq + 1, coll := c.num, fromStore := dField f.d 0x14 1 == 2, gridA := (wordsOf op).take c.dim,
    gridB := (wordsOf op).drop c.dim, twins := [], fromCodes := 0, staged := false }

/-- The twins that a RECALIBRATE builds (R255 steps 2 to 4). -/
def twinsOf (mem : List Host.Cell) (j : Jenjor) (f : Fetched) (c : Coll) (op : List Byte) : List Plate :=
  ((List.range (j.twinned c.num).length).zip (j.twinned c.num)).map fun x =>
    twinPlate mem j.nextSeq.2 c (j.bareRecal f c op) (j.cat.nextPid + x.1) x.2

theorem twinned_perm (j : Jenjor) (n : Nat) : (j.twinned n).Perm (j.collPlates n) := sortBy_perm _ _

theorem twinsOf_length (mem : List Host.Cell) (j : Jenjor) (f : Fetched) (c : Coll) (op : List Byte) :
    (twinsOf mem j f c op).length = (j.collPlates c.num).length := by
  simp [twinsOf, (twinned_perm j c.num).length_eq]

theorem mem_twinsOf {mem : List Host.Cell} {j : Jenjor} {f : Fetched} {c : Coll} {op : List Byte} {x : Plate}
    (hx : x ∈ twinsOf mem j f c op) : x.gridGen = c.gridGen + 1 ∧
      ∃ p ∈ j.collPlates c.num, x.num = p.num ∧ x.tomb = p.tomb ∧ x.recs.length = p.recs.length := by
  obtain ⟨⟨i, p⟩, hip, rfl⟩ := List.mem_map.mp hx
  exact ⟨rfl, p, (twinned_perm j c.num).mem_iff.mp (List.of_mem_zip hip).2, rfl, rfl, List.length_map _⟩

/-- A RECALIBRATE that finds its pages takes the next sequence number and leaves an entry with its twins. -/
theorem stageRecal_eq (mem : List Host.Cell) (j : Jenjor) (f : Fetched) (c : Coll) (op : List Byte) :
    ∃ fromCodes, stageRecal mem j f c op = { j with cat := { j.cat with
      seq := j.cat.seq + 1, nextPid := j.cat.nextPid + (j.twinned c.num).length,
      recals := j.cat.recals ++ [{ j.bareRecal f c op with twins := twinsOf mem j f c op, fromCodes := fromCodes }] } } :=
  ⟨_, rfl⟩

theorem recalibrate_of_room {j : Jenjor} {f : Fetched} {op : List Byte} {c : Coll} (mem : List Host.Cell) (since : Nat)
    (hck : firstStatus (j.recalChecks f.d op) = none) (hc : j.liveColl? (dField f.d 4 2) = some c)
    (hroom : ceilDiv (j.plateBytes c (j.collPlates c.num)) 2097152 ≤ j.poolFree) :
    recalibrate mem j f op since = stageRecal mem j f c op := by
  -- `allocate` stays opaque here: reducing the match on its answer would evaluate it
  obtain ⟨allocate, hallocate⟩ : ∃ allocate, j.allocate = allocate := ⟨_, rfl⟩
  have hgranted : allocate (ceilDiv (j.plateBytes c (j.collPlates c.num)) 2097152) [c.objPlates] = .granted j := by
    rw [← hallocate, allocate_of_free _ hroom]
  rw [recalibrate, hck, hc, hallocate]
  dsimp only
  rw [hgranted]

/-- A recalibration of collection `n` that is staged, its twins as their masters hold them. -/
def recalReady (n : Nat) (x : Recal) : Recal :=
  if x.coll = n then { x with staged := true, twins := x.twins.map cleaned } else x

theorem recalReady_staged {n : Nat} {l : List Recal} : ∀ x ∈ l.map (recalReady n), x.coll = n →
    x.staged = true ∧ ∀ p ∈ x.twins, p.dirtyHdr = false ∧ p.dirtyData = false := by
  intro x hx hn
  obtain ⟨y, -, rfl⟩ := List.mem_map.mp hx
  by_cases hy : y.coll = n
  · simp [recalReady, hy, cleaned]
  · simp [recalReady, hy] at hn

/-- The module with a collection's recalibration staged and its twins in the vault. -/
def recalStaged (j : Jenjor) (n : Nat) (twins : List Plate) : Jenjor :=
  let j := { j with cat := { j.cat with recals := j.cat.recals.map (recalReady n) } }
  (twins.foldl (fun j p => j.copyPlate p) j).programStripes (6 * twins.length)

theorem recalStaged_frame (j : Jenjor) (n : Nat) (twins : List Plate) :
    let k := j.recalStaged n twins
    k = { j with vlt := { j.vlt with extents := k.vlt.extents }, ctrs := k.ctrs,
                 cat := { j.cat with colls := k.cat.colls, recals := j.cat.recals.map (recalReady n) } } := by
  dsimp only
  rw [recalStaged, programStripes_frame, copyPlates_frame]

end Jenjor

section
open Jenjor
variable {s : State} {q : Nat} {op : List Byte} {f : Fetched} {j : Jenjor} {c : Coll}

/-- A CALIBRATE in order starts its sweep, or waits behind the one under way (R251). -/
theorem exec_calibrate (h : s.takes q 0x4E f j) (hck : firstStatus (j.calibChecks f.d op) = none) :
    exec (.calibrate q op) s = .next { s with j := (
      if j.cat.calib.isSome || !j.cat.calibQueue.isEmpty then
        { j with cat := { j.cat with calibQueue := j.cat.calibQueue ++ [(f, op)] } }
      else j.startCalib f op) } := by
  change execCalibrate q op s = _
  unfold execCalibrate
  rw [onBlocks_of_live _ h.1]
  simp only [h.2, hck]

theorem calibrate_starts (h : s.takes q 0x4E f j) (hck : firstStatus (j.calibChecks f.d op) = none)
    (hc : j.liveColl? (dField f.d 4 2) = some c) (hcalib : j.cat.calib = none) (hqueue : j.cat.calibQueue = []) :
    exec (.calibrate q op) s
      = .next { s with j := { j with cat := { j.cat with calib := some (j.calibOf f op c) } } } := by
  rw [exec_calibrate h hck, if_neg (by simp [hcalib, hqueue]), startCalib_of_sound hck hc]

theorem calibrate_waits (h : s.takes q 0x4E f j) (hck : firstStatus (j.calibChecks f.d op) = none)
    (hbusy : j.cat.calib.isSome = true ∨ j.cat.calibQueue ≠ []) :
    exec (.calibrate q op) s
      = .next { s with j := { j with cat := { j.cat with calibQueue := j.cat.calibQueue ++ [(f, op)] } } } := by
  rw [exec_calibrate h hck, if_pos (by simpa using hbusy)]

theorem exec_calibrationComplete {k : Calib} (hs : s.j.live = true) (hk : s.j.cat.calib = some k)
    (hc : s.j.coll? k.coll = some c) (hqueue : s.j.cat.calibQueue = []) :
    exec .calibrationComplete s
      = .next { s with j := (Jenjor.returnBytes { s.j with cat := { s.j.cat with calib := none } } k.ref k.addr k.rkey
          (calibBlock s.mem s.j c k)) } := by
  change execCalibrationComplete s = _
  unfold execCalibrationComplete
  rw [onReading_of_live _ hs, finishCalib_of_coll hk hc hqueue]

theorem exec_recalibrate (h : s.takesCat q 0x4F op f j) (hrecals : s.j.cat.recals = []) (hjobs : s.j.cat.replatings = []) :
    exec (.recalibrate q op) s = .next { s with j := recalibrate s.mem j f op j.time } := by
  change execRecalibrate q op s = _
  unfold execRecalibrate
  rw [onReading_of_live _ h.1, recalWaits_of_none q hrecals hjobs, catalogueCmd_of_takesCat h]
  rfl

theorem exec_recalibrationStaged {n : Nat} {rc : Recal} {r : Ring} (hs : s.j.live = true)
    (hfind : (s.j.cat.recals.find? fun r => r.coll == n && !r.staged) = some rc) (hof : s.j.ringOf n = some r)
    (hr : s.j.ring? r.num = some r) (hsweep : sweeping r = true) :
    exec (.recalibrationStaged n) s = .next { s with j := (s.j.recalStaged n rc.twins).mapRing r.num fun r =>
      { r with switches := r.switches ++ [.recal n] } } := by
  have hsw : (s.j.recalStaged n rc.twins).sw = s.j.sw := by rw [recalStaged_frame]
  have henter := enterForColl_of_sweeping (j := s.j.recalStaged n rc.twins) (.recal n)
    (by rw [ringOf, hsw]; exact hof) (by rw [ring?, hsw]; exact hr) hsweep
  change execRecalibrationStaged n s = _
  unfold execRecalibrationStaged
  rw [onBlocks_of_live _ hs, hfind, ← henter]
  rfl

theorem recalibrationStaged_enters {n : Nat} {rc : Recal} {r : Ring} (hs : s.j.live = true)
    (hfind : (s.j.cat.recals.find? fun r => r.coll == n && !r.staged) = some rc) (hof : s.j.ringOf n = some r)
    (hr : s.j.ring? r.num = some r) (hsweep : sweeping r = true) :
    ∃ t, exec (.recalibrationStaged n) s = .next t ∧
      t.j.ring? r.num = some { r with switches := r.switches ++ [.recal n] } ∧
      (∀ x ∈ t.j.cat.recals, x.coll = n →
        x.staged = true ∧ ∀ p ∈ x.twins, p.dirtyHdr = false ∧ p.dirtyData = false) ∧ t.j.cat.plates = s.j.cat.plates ∧
      t.mem = s.mem := by
  have hframe := recalStaged_frame s.j n rc.twins
  refine ⟨_, exec_recalibrationStaged hs hfind hof hr hsweep, ?_, ?_, ?_, rfl⟩
  · rw [hframe]
    exact ring?_mapRing_of_some (f := fun r => { r with switches := r.switches ++ [.recal n] }) (fun _ => rfl) hr
  · rw [hframe]
    exact recalReady_staged
  · rw [hframe]
    rfl

end

/-- Settles O19: a sweep by what CALIBRATE starts and the length of the block that its end returns, a recalibration by the
entry it stages and the switch that enters it. -/
theorem calibrationAndRecalibration : Obligations.CalibrationAndRecalibration := by
  unfold Obligations.CalibrationAndRecalibration
  refine ⟨fun s q op f j c h hck hc => ⟨fun hcalib hqueue => ?_, calibrate_waits h hck⟩,
    fun s k c hs hk hc hqueue => ⟨exec_calibrationComplete hs hk hc hqueue, Jenjor.calibBlock_length ..⟩,
    fun s q op f j c h hck hc hrecals _ hnone hjobs hroom => ?_,
    fun s n rc r hs hfind hof hr hsweep => recalibrationStaged_enters hs hfind hof hr hsweep⟩
  · exact ⟨_, j.calibOf f op c, calibrate_starts h hck hc hcalib hqueue, rfl, rfl, rfl, rfl, rfl, rfl, rfl, rfl⟩
  · obtain ⟨fromCodes, hstage⟩ := Jenjor.stageRecal_eq s.mem j f c op
    rw [hrecals, List.nil_append] at hstage
    have hexec := exec_recalibrate h hnone hjobs
    rw [Jenjor.recalibrate_of_room _ _ hck hc hroom, hstage] at hexec
    exact ⟨_, _, hexec, rfl, rfl, rfl, rfl, rfl, rfl, rfl, Jenjor.twinsOf_length .., fun x => Jenjor.mem_twinsOf, rfl⟩

end Sys2Proof.Machine
end

section
namespace Sys2Proof.Machine

/-! ### PLACE and SET_RESIDENCE (R240, R248) -/

namespace Jenjor

section
variable {j : Jenjor} {f : Fetched} {o : Obj} {c : Coll}

theorem placeObject_of_refused {st : Status} (hst : firstStatus (j.placeChecks f.d) = some st) :
    j.placeObject f [] = j.refuse f.ref st := by
  unfold placeObject
  rw [hst]

theorem placeObject_of_there (hck : firstStatus (j.placeChecks f.d) = none) (ho : j.obj? (dField f.d 8 4) = some o)
    (htier : o.tier = tierOf (dField f.d 0xC 1)) : j.placeObject f []
      = (j.mapObj (dField f.d 8 4) fun o => { o with lastUse := j.time }).completeCatalogue f.ref 0 := by
  unfold placeObject
  rw [hck]
  exact if_pos (by simp [ho, htier])

theorem placeObject_of_away (hck : firstStatus (j.placeChecks f.d) = none) (ho : j.obj? (dField f.d 8 4) = some o)
    (htier : o.tier ≠ tierOf (dField f.d 0xC 1)) :
    j.placeObject f [] = j.addSlew (dField f.d 8 4) (tierOf (dField f.d 0xC 1)) 0 (.place f.ref) := by
  unfold placeObject
  rw [hck]
  exact if_neg (by simp [ho, htier])

/-- A SET_RESIDENCE that nothing refuses: what it does turns on the residence the collection has and the tier of its plate
set. -/
theorem setResidence_of_sound (hc : j.liveColl? (dField f.d 4 2) = some c)
    (hrings : ∀ r ∈ j.sw.rings, ∀ d, r.defn = some d → c.num ∉ d.colls) (hwritable : j.readOnlyNow = false)
    (hkey : j.keyGone = false) :
    let deep := dField f.d 8 1 == 1
    let t : Tier := if deep then .vault else .sweep
    (deep = true → j.place.photometric = true ∧ j.vaultFits (j.uncopied c.num * stripesOf 262144) = true) →
    j.setResidence f [] =
      if c.deep = deep then j.completeCatalogue f.ref 0
      else if j.plateSetTier c = t then
        ((if deep then (((j.obj? c.objPlates).map j.writeBackObject).getD j).freeJournal else j).setDeep c.num
          deep).completeCatalogue f.ref 0
      else j.addSlew c.objPlates t 0 (.residence f.ref c.num) := by
  intro deep t hdeep
  have hck : firstStatus
      [ (j.sw.rings.any (fun r => r.defn.any fun d => d.colls.contains c.num), Status.ringInvalid),
        (deep && !j.place.photometric, .parameterInvalid),
        (deep && !j.vaultFits (j.uncopied c.num * stripesOf 262144), .limitReached),
        (j.readOnlyNow, .readOnly),
        (j.keyGone, .keyWithdrawn) ] = none := by
    refine (firstStatus_none_iff _).mpr ?_
    simp only [List.forall_mem_cons, List.not_mem_nil, false_implies, implies_true, and_true, hwritable, hkey]
    refine ⟨?_, ?_, ?_⟩
    · refine List.any_eq_false.mpr fun r hr hlists => ?_
      obtain ⟨d, hd, hlisted⟩ := (Option.any_eq_true _ _).mp hlists
      exact hrings r hr d hd (List.contains_iff_mem.mp hlisted)
    · cases hd : deep <;> simp [hdeep, hd]
    · cases hd : deep <;> simp [hdeep, hd]
  unfold setResidence
  simp only [hc]
  rw [hck]

theorem completeCatalogue_colls (j : Jenjor) (r : CmdRef) (v1 : BitVec 64) :
    (j.completeCatalogue r v1).cat.colls = j.cat.colls := by
  rw [completeCatalogue, complete_cat]
  rfl

theorem setDeep_deep {n : Nat} {deep : Bool} : ∀ x ∈ (j.setDeep n deep).cat.colls, x.num = n → x.deep = deep := by
  intro x hx hn
  obtain ⟨y, -, rfl⟩ := mem_updWhere hx
  by_cases hy : y.num = n
  · simp [hy]
  · simp [hy] at hn

end

/-! ### The slew engine (R236 to R238) -/

section
variable {j : Jenjor} {w : Slew} {o : Obj}

theorem allocateCool_of_free {need : Nat} (named : List Nat) (heat : Option Nat) (h : need ≤ j.poolFree) :
    j.allocateCool need named heat = .granted j := by
  unfold allocateCool
  dsimp only
  rw [if_neg (by omega)]
  unfold allocLoop
  rw [if_pos h]

theorem beginSlew_of_free (since : Nat) (ho : j.obj? w.obj = some o) (hfree : j.promotePages o w.dest ≤ j.poolFree) :
    j.beginSlew w since false = { j with cat := { j.cat with slews := j.cat.slews.map fun x =>
      if x = w then { x with started := true, pages := j.promotePages o w.dest } else x } } := by
  -- `allocateCool` stays opaque here: reducing the match on its answer would evaluate it
  obtain ⟨allocate, hallocate⟩ : ∃ allocate, j.allocateCool = allocate := ⟨_, rfl⟩
  have hgranted : ∀ heat, allocate (j.promotePages o w.dest) [w.obj] heat = .granted j := fun heat => by
    rw [← hallocate, allocateCool_of_free _ _ hfree]
  rw [beginSlew, ho, hallocate]
  dsimp only
  rw [hgranted]

theorem trySwitch_of_unconverged (ok : Bool) (bad : List Nat) (hmany : 16 < w.pendingGranules.length)
    (hheld : w.held = false) : j.trySwitch w o ok bad = j := if_pos (by simp [hmany, hheld])

theorem converged_of_ready (hready : w.pendingGranules.length ≤ 16 ∨ w.held = true) :
    ¬ (16 < w.pendingGranules.length && !w.held) = true := by
  obtain h | h := hready <;> simp [h]

theorem trySwitch_of_pageBad (bad : List Nat) (hready : w.pendingGranules.length ≤ 16 ∨ w.held = true) :
    j.trySwitch w o false bad = j.abandonSlew w := if_neg (converged_of_ready hready)

theorem trySwitch_of_pagesGood (hready : w.pendingGranules.length ≤ 16 ∨ w.held = true) (hkind : o.kind = 2) :
    j.trySwitch w o true [] = j.switchSlew w o := by
  have hunblocked : j.slewBlocked o = false := by simp [slewBlocked, hkind]
  unfold trySwitch
  rw [if_neg (converged_of_ready hready)]
  simp [hunblocked]

/-- An empty journal whose region is empty has nothing to free. -/
theorem freeJournal_of_empty (hjournal : j.wr.journal = []) (hgoes : j.wr.stopped = false) (hregion : j.wr.region = 0) :
    j.freeJournal = j := by
  have hsame : ({ j with wr := { j.wr with journal := [], region := 0 } } : Jenjor) = j := by
    rw [← hjournal, ← hregion]
  unfold freeJournal
  simp only [hjournal, hregion, List.filter_nil, Nat.zero_sub]
  rw [hsame]
  simp [regionCheck, hgoes, hregion, journalRegion]

/-- A payload table that heat moves within the pool changes its tier, and nothing waits on it. -/
theorem switchSlew_of_payload (hcause : w.cause = .photometric) (hmoves : w.dest ≠ o.tier) (hdest : w.dest ≠ .vault)
    (hkind : o.kind = 2) :
    j.switchSlew w o = ((j.dropSlew w).switchTier w.obj w.dest w.pages).freeJournal := by
  unfold switchSlew
  simp only [hcause, hmoves, hdest, if_false]
  rw [moveBias, if_pos (by simp [hkind])]

theorem obj?_switchTier {n pages : Nat} (dest : Tier) (ho : j.obj? n = some o) (hkind : o.kind = 2) :
    (j.switchTier n dest pages).obj? n = some { o with tier := dest, pages := pages } := by
  have hfind := find?_updWhere (fun o : Obj => o.num == n)
    (fun o => { o with tier := dest, pages := if o.kind = 1 then 0 else pages }) (fun _ => rfl) j.cat.objs
  rw [show j.cat.objs.find? (fun o => o.num == n) = some o from ho] at hfind
  exact hfind.trans (by simp [hkind])

theorem switchTier_count (n pages : Nat) (dest : Tier) :
    ((j.switchTier n dest pages).counter 0x518).count = (j.counter 0x518).count + 1 :=
  congrArg Ctr.count (counter_bump (j.mapObj n fun o => { o with tier := dest, pages := if o.kind = 1 then 0 else pages })
    0x518 1 0x518)

/-- An abandoned slew is counted and logged as a fault of class 2 (R236). -/
def abandonReported (j : Jenjor) (w : Slew) : Jenjor :=
  (j.count blkDEV 0x530).fault 2 blkDEV w.obj 0x530 0 Status.internalError.code 0

theorem abandonSlew_of_photometric (hcause : w.cause = .photometric) :
    j.abandonSlew w = (j.abandonReported w).dropSlew w := by
  rw [abandonSlew, failSlew, hcause]
  rfl

theorem abandonReported_count : ((j.abandonReported w).counter 0x530).count = (j.counter 0x530).count + 1 := by
  rw [abandonReported, counter_fault _ _ _ _ _ _ _ _ _ (by decide)]
  exact congrArg Ctr.count (counter_bump j 0x530 1 0x530)

theorem abandonReported_errClass : (j.abandonReported w).log.errClass.getLsbD 0 = true := by
  rw [abandonReported, fault_errClass _ _ _ _ _ _ _ _ (by decide)]
  simp

end

/-! ### The photometer (R242, R247) -/

theorem releaseCachePage_cat (j : Jenjor) : j.releaseCachePage.cat = j.cat := by
  unfold releaseCachePage
  split <;> rfl

theorem trimCache_cat (fuel : Nat) (j : Jenjor) : (trimCache fuel j).cat = j.cat := by
  induction fuel generalizing j with
  | zero => rfl
  | succ fuel ih =>
    unfold trimCache
    dsimp only
    rw [apply_ite Jenjor.cat, ih, releaseCachePage_cat, ite_self]

theorem fitCache_slews (j : Jenjor) : j.fitCache.cat.slews = j.cat.slews := by
  have htrim : (trimCache j.spg.cachePages.length j).cat.slews = j.cat.slews := congrArg CatState.slews (trimCache_cat ..)
  exact htrim

theorem fitCache_heats (j : Jenjor) : (j.fitCache.cat.objs.map fun o => o.heat) = j.cat.objs.map fun o => o.heat := by
  have htrim : (trimCache j.spg.cachePages.length j).cat.objs = j.cat.objs := congrArg CatState.objs (trimCache_cat ..)
  rw [← htrim]
  refine List.map_map.trans (List.map_congr_left fun o _ => ?_)
  simp only [Function.comp_apply]
  split <;> rfl

theorem decay_heats (j : Jenjor) :
    (j.decay.cat.objs.map fun o => o.heat) = (j.cat.objs.map fun o => o.heat).map (· / 2) := by
  simp [decay, Function.comp_def]

end Jenjor

section
open Jenjor
variable {s : State} {q : Nat} {f : Fetched} {j : Jenjor} {c : Coll} {obj : Nat} {w : Slew} {o : Obj}

theorem exec_place (h : s.takesCat q 0x46 [] f j) : exec (.place q) s = .next { s with j := j.placeObject f [] } := by
  change execPlace q s = _
  unfold execPlace
  rw [onBlocks_of_live _ h.1, catalogueCmd_of_takesCat h]

theorem exec_setResidence (h : s.takesCat q 0x47 [] f j) :
    exec (.setResidence q) s = .next { s with j := j.setResidence f [] } := by
  change execSetResidence q s = _
  unfold execSetResidence
  rw [onBlocks_of_live _ h.1, catalogueCmd_of_takesCat h]

theorem exec_slewStart (hs : s.j.live = true) (hw : s.j.nextSlew = some w) :
    exec (.slewStart obj) s
      = .next { s with j := if w.obj = obj ∧ s.j.slewsInFlight < 8 then s.j.beginSlew w s.j.time false else s.j } := by
  change execSlewStart obj s = _
  unfold execSlewStart
  rw [onBlocks_of_live _ hs, hw]
  simp only [slewRoom, Bool.and_eq_true, decide_eq_true_eq]

section
variable (hs : s.j.live = true) (hw : s.j.movingSlew obj = some w) (ho : s.j.obj? obj = some o)
include hs hw ho

theorem exec_slewSwitch_hold (copied : List Nat) :
    exec (.slewSwitch obj (.hold copied)) s = .next { s with j := s.j.holdSlew w copied } := by
  change execSlewSwitch obj (.hold copied) s = _
  unfold execSlewSwitch
  rw [onBlocks_of_live _ hs, hw, ho]

theorem exec_slewSwitch (ok : Bool) (bad : List Nat) :
    exec (.slewSwitch obj (.switch ok bad)) s = .next { s with j := s.j.trySwitch w o ok bad } := by
  change execSlewSwitch obj (.switch ok bad) s = _
  unfold execSlewSwitch
  rw [onBlocks_of_live _ hs, hw, ho]

omit hs ho in
theorem obj_of_movingSlew : w.obj = obj := by
  have hfound := List.find?_some hw
  simp only [Bool.and_eq_true, beq_iff_eq] at hfound
  exact hfound.1

variable (hready : w.pendingGranules.length ≤ 16 ∨ w.held = true) (hcause : w.cause = .photometric)
include hready hcause

/-- A converged slew of a payload table switches it and is counted. -/
theorem slewSwitch_moves (hmoves : w.dest ≠ o.tier) (hdest : w.dest ≠ .vault) (hkind : o.kind = 2)
    (hjournal : s.j.wr.journal = []) (hgoes : s.j.wr.stopped = false) (hregion : s.j.wr.region = 0) :
    ∃ t, exec (.slewSwitch obj (.switch true [])) s = .next t ∧ t.j.obj? obj = some { o with tier := w.dest, pages := w.pages } ∧
      t.j.cat.slews = s.j.cat.slews.erase w ∧ (t.j.counter 0x518).count = (s.j.counter 0x518).count + 1 ∧
      t = { s with j := { s.j with cat := { s.j.cat with objs := t.j.cat.objs, slews := t.j.cat.slews }, ctrs := t.j.ctrs } } := by
  obtain rfl := obj_of_movingSlew hw
  have hexec := exec_slewSwitch hs hw ho true []
  rw [trySwitch_of_pagesGood hready hkind, switchSlew_of_payload hcause hmoves hdest hkind,
    freeJournal_of_empty (j := (s.j.dropSlew w).switchTier w.obj w.dest w.pages) hjournal hgoes hregion] at hexec
  exact ⟨_, hexec, obj?_switchTier w.dest ho hkind, rfl, switchTier_count .., rfl⟩

/-- A page that fails its check leaves the object where it was. -/
theorem slewSwitch_abandons (bad : List Nat) :
    ∃ t, exec (.slewSwitch obj (.switch false bad)) s = .next t ∧ t.j.cat.objs = s.j.cat.objs ∧
      t.j.cat.slews = s.j.cat.slews.erase w ∧ (t.j.counter 0x530).count = (s.j.counter 0x530).count + 1 ∧
      s.j.log.head < t.j.log.head ∧ t.j.log.errClass.getLsbD 0 = true := by
  have hexec := exec_slewSwitch hs hw ho false bad
  rw [trySwitch_of_pageBad bad hready, abandonSlew_of_photometric hcause] at hexec
  have hcat : (s.j.abandonReported w).cat = s.j.cat := fault_cat ..
  have hcount := abandonReported_count (j := s.j) (w := w)
  have hhead : s.j.log.head < (s.j.abandonReported w).log.head := head_lt_fault (s.j.count blkDEV 0x530) ..
  have hclass := abandonReported_errClass (j := s.j) (w := w)
  generalize s.j.abandonReported w = k at hexec hcat hcount hhead hclass
  have hobjs : k.cat.objs = s.j.cat.objs := by rw [hcat]
  have hslews : k.cat.slews.erase w = s.j.cat.slews.erase w := by rw [hcat]
  exact ⟨_, hexec, hobjs, hslews, hcount, hhead, hclass⟩

end

theorem exec_photometerInterval (hs : s.j.live = true) (hdirected : s.j.place.photometric = false) :
    exec .photometerInterval s = .next { s with j := s.j.fitCache.decay } := by
  change execPhotometerInterval s = _
  unfold execPhotometerInterval
  rw [onBlocks_of_live _ hs]
  simp only [hdirected, Bool.false_eq_true, if_false]

end

/-- Settles O17: the two commands by where their object stands, the slew by its start, its hold and the two ends of its
switch, the photometer by the heats it leaves. -/
theorem placementAndSlews : Obligations.PlacementAndSlews := by
  unfold Obligations.PlacementAndSlews
  refine ⟨fun s q f j o h hck ho htier => ?_, fun s q f j o h hck ho htier => ?_, fun s q f j st h hst => ?_,
    fun s q f j c h hc hrings hwritable hkey hdeep => ?_, fun s obj w o hs hw hobj hroom ho hfree => ?_,
    fun s obj w hs hw hfull => ?_, fun s obj w o hs hw ho => ⟨exec_slewSwitch_hold hs hw ho, fun hmany hheld ok bad => ?_,
      fun hready hcause => ⟨slewSwitch_moves hs hw ho hready hcause, slewSwitch_abandons hs hw ho hready hcause⟩⟩,
    fun s hs hdirected => ⟨_, exec_photometerInterval hs hdirected, ?_, Jenjor.fitCache_slews _, rfl⟩⟩
  · rw [exec_place h, Jenjor.placeObject_of_there hck ho htier]
  · have hexec := exec_place h
    rw [Jenjor.placeObject_of_away hck ho htier] at hexec
    exact ⟨_, _, hexec, rfl, rfl, rfl, rfl, rfl, rfl, rfl, rfl⟩
  · rw [exec_place h, Jenjor.placeObject_of_refused hst]
  · have hexec := exec_setResidence h
    rw [Jenjor.setResidence_of_sound hc hrings hwritable hkey hdeep] at hexec
    refine ⟨fun hhas => ?_, fun hother hmoves => ?_, fun hother hthere => ?_⟩
    · rw [hexec, if_pos hhas]
    · rw [if_neg hother, if_neg hmoves] at hexec
      exact ⟨_, _, hexec, rfl, rfl, rfl, rfl, rfl, rfl⟩
    · rw [if_neg hother, if_pos hthere] at hexec
      refine ⟨_, hexec, ?_, rfl⟩
      rw [Jenjor.completeCatalogue_colls]
      exact Jenjor.setDeep_deep
  · subst hobj
    rw [exec_slewStart hs hw, if_pos ⟨rfl, hroom⟩, Jenjor.beginSlew_of_free _ ho hfree]
  · rw [exec_slewStart hs hw, if_neg (by omega)]
  · rw [exec_slewSwitch hs hw ho, Jenjor.trySwitch_of_unconverged ok bad hmany hheld]
  · exact (Jenjor.decay_heats _).trans (by rw [Jenjor.fitCache_heats, List.map_map]; rfl)

end Sys2Proof.Machine
end

section
namespace Sys2Proof.Machine

/-- Settles O53: by the two branches of `step`'s match on the queue. -/
theorem stepTakesTheFront : Obligations.StepTakesTheFront := by
  unfold Obligations.StepTakesTheFront
  refine ⟨fun c s => rfl, fun c rest s h => ?_, fun s h => ?_⟩
  · simp only [step, h]
  · simp only [step, h]

end Sys2Proof.Machine
end

section
namespace Sys2Proof.Machine
namespace Jenjor

/-! ### A completion's slot (R278, R279, R287) -/

theorem num_of_queue? {j : Jenjor} {n : Nat} {q : Queue} (h : j.queue? n = some q) : q.num = n := by
  simpa using List.find?_some h

/-- The module once a queue's tail has advanced past the slot of a command's completion. -/
def slotTaken (j : Jenjor) (q : Queue) (cid : BitVec 16) : Jenjor :=
  j.mapQueue q.num fun x =>
    { x with inflight := x.inflight.erase cid, cqTail := if q.cqDepth ≤ q.cqTail + 1 then 0 else x.cqTail + 1,
             phase := if q.cqDepth ≤ q.cqTail + 1 then !x.phase else x.phase }

/-- The bytes that a command's completion has now. -/
def bytesOf (j : Jenjor) (r : CmdRef) (q : Queue) (st : Status) (v0 v1 : BitVec 64) (len : Option Nat) : BitVec 256 :=
  completionBytes v0 v1 r.cid q.sqHead q.num st.code len.isSome q.phase (len.getD 0) ((j.time - r.t0) / 1000)

@[simp] theorem qpAlive_mapQueue (j : Jenjor) (q n : Nat) (f : Queue → Queue) : (j.mapQueue q f).qpAlive n = j.qpAlive n := rfl

section
variable {j : Jenjor} {r : CmdRef} {st : Status} {v0 v1 : BitVec 64} {len : Option Nat} {q : Queue}
  (hq : j.queue? r.q = some q) (htag : r.tag = none) (hst : st ≠ .keyWithdrawn)
include hq htag hst

theorem writeCompletion_of_pcie (hroce : q.roce = false) (hgen : r.gen = j.lnk.resets) :
    j.writeCompletion r st v0 v1 len =
      let k := (j.slotTaken q r.cid).emit (.completion q.num q.cqTail (j.bytesOf r q st v0 v1 len))
      if r.noIrq then k else k.countInterrupt q := by
  unfold writeCompletion
  simp only [if_neg hst, htag, hq, hroce, hgen, bne_self_eq_false, Bool.and_false, Bool.false_and, Bool.false_eq_true,
    if_false, decide_eq_true_eq]
  rfl

/-- A RoCEv2 queue's completion goes by RDMA WRITE WITH IMMEDIATE, to no slot of the host's memory. -/
theorem writeCompletion_of_qp (hroce : q.roce = true) (halive : j.qpAlive q.qpn = true) :
    j.writeCompletion r st v0 v1 len =
      ((j.slotTaken q r.cid).emit (.rdmaCompletion q.qpn (q.cqBase + 32 * q.cqTail) q.cqRkey (BitVec.ofNat 32 (q.num % 4096))
        (j.bytesOf r q st v0 v1 len))).mapQp q.qpn fun p => { p with psn := (p.psn + 1) % 2 ^ 24 } := by
  unfold writeCompletion
  simp only [if_neg hst, htag, hq, hroce, qpAlive_mapQueue, halive, Bool.not_true, Bool.false_and, Bool.false_eq_true, if_false,
    Bool.and_false, if_true, decide_eq_true_eq]
  rfl

end

end Jenjor

/-- Queue 1 of a RoCEv2 client, its CQ 16 entries deep. -/
def clientQueue : Queue := { queueZero with num := 1, kind := 2, roce := true, qpn := 0x100, sqDepth := 16, cqDepth := 16 }

/-- The queue pair that carries it. -/
def clientQp : Qp :=
  { num := 0x100, port := 0, state := .established, bound := [1], mtu := 4096, route := false, mergeIn := false, rtuAt := 0, psn := 0,
    unacked := 0, retries := 0, rateMbps := 0, lastCnp := none, connector := none }

/-- A module with that queue and its queue pair. -/
def servingClient : Jenjor :=
  { Jenjor.reset with qs := { resetQueues with queues := [queueZero, clientQueue] }, lnk := { resetLink with qps := [clientQp] } }

def clientCommand : CmdRef := { q := 1, cid := 7, noIrq := false, t0 := 0, gen := 0, tag := none }

/-- Refutes O56: a RoCEv2 queue's completion leaves as an RDMA WRITE WITH IMMEDIATE on its queue pair, where the statement has
it written to a PCIe slot. -/
theorem not_completionsWritten : ¬ Obligations.CompletionsWritten := by
  unfold Obligations.CompletionsWritten
  intro h
  obtain ⟨-, -, hqp, -⟩ := h servingClient clientCommand .success 0 0 none clientQueue (by decide) rfl (by decide)
  obtain ⟨b, -, hout, -⟩ := hqp rfl (by decide)
  rw [Jenjor.writeCompletion_of_qp (q := clientQueue) (by decide) rfl (by decide) rfl (by decide)] at hout
  cases hout

end Sys2Proof.Machine
end

section
namespace Sys2Proof.Machine
namespace Jenjor

/-! ### Queues after a change (R261) -/

section
variable {j : Jenjor} {n : Nat} {q : Queue}

theorem queue?_of_queues {k : Jenjor} (h : k.qs.queues = j.qs.queues) : k.queue? n = j.queue? n := by rw [queue?, queue?, h]

/-- A change that keeps the number of every queue is read back from the queue that it names. -/
theorem queue?_mapQueue_of_some {f : Queue → Queue} (hf : ∀ x, (f x).num = x.num) (h : j.queue? n = some q) :
    (j.mapQueue n f).queue? n = some (f q) := by
  have hfind := find?_updWhere (fun x : Queue => x.num == n) f (fun x => by rw [hf]) j.qs.queues
  rw [show j.qs.queues.find? (fun x => x.num == n) = some q from h] at hfind
  exact hfind

theorem queue?_record (cls blk unit cause addr : Nat) (st : BitVec 8) (d : BitVec 256) :
    (j.record cls blk unit cause addr st d).queue? n = j.queue? n := queue?_of_queues (by rw [record_qs])

theorem mapQueue_mapQueue (f g : Queue → Queue) (hf : ∀ x, (f x).num = x.num) :
    (j.mapQueue n f).mapQueue n g = j.mapQueue n (g ∘ f) := by
  simp only [mapQueue, updWhere, List.map_map]
  congr 3
  funext x
  by_cases h : x.num = n
  · simp [h, hf]
  · simp [h]

/-- The first fault of a queue is the one it keeps (R442). -/
theorem queue?_queueFault (cause : Nat) (h : j.queue? n = some q) :
    (j.queueFault n cause).queue? n = some (if q.fault = 0 then { q with fault := cause } else q) := by
  rw [queueFault, queue?_record, queue?_mapQueue_of_some (fun x => by split <;> rfl) h]

theorem queueFault_frame (cause : Nat) : j.queueFault n cause =
    { j with qs := (j.queueFault n cause).qs, log := (j.queueFault n cause).log, ctrs := (j.queueFault n cause).ctrs } := by
  apply Jenjor.eq_of_fields <;> simp

end

/-! ### Doorbells (R265, R444) -/

section
variable {j : Jenjor} {q v : Nat} {x : Queue} (hx : j.queue? q = some x) (hkind : x.kind ≠ 4) (hready : q ≠ 0 ∨ j.qs.aqReady = true)
include hx hkind hready

theorem ring_cases (isTail : Bool) : j.ring q isTail v =
    if isTail then if x.sqDepth ≤ v then j.queueFault q 1 else j.mapQueue q fun x => { x with sqTail := v }
    else if x.cqDepth ≤ v then j.queueFault q 1
    else if unconsumed x < (v + x.cqDepth - x.cqHead) % x.cqDepth then j.queueFault q 2
    else j.mapQueue q fun x => { x with cqHead := v } := by
  have hopen : ¬ (x.kind = 4 ∨ (q = 0 ∧ (!j.qs.aqReady) = true)) := by
    rcases hready with h | h <;> simp [hkind, h]
  rw [ring, hx]
  exact if_neg hopen

theorem ring_tail_inside (hv : v < x.sqDepth) : j.ring q true v = j.mapQueue q fun x => { x with sqTail := v } := by
  rw [ring_cases hx hkind hready, if_pos rfl, if_neg (Nat.not_le.mpr hv)]

theorem ring_tail_beyond (hv : x.sqDepth ≤ v) : j.ring q true v = j.queueFault q 1 := by
  rw [ring_cases hx hkind hready, if_pos rfl, if_pos hv]

theorem ring_head_inside (hv : v < x.cqDepth) (hc : (v + x.cqDepth - x.cqHead) % x.cqDepth ≤ unconsumed x) :
    j.ring q false v = j.mapQueue q fun x => { x with cqHead := v } := by
  rw [ring_cases hx hkind hready, if_neg Bool.false_ne_true, if_neg (Nat.not_le.mpr hv), if_neg (Nat.not_lt.mpr hc)]

/-- The credit and the tail of one write: both fields move (R444). -/
theorem ring_head_tail {t : Nat} (hv : v < x.cqDepth) (hc : (v + x.cqDepth - x.cqHead) % x.cqDepth ≤ unconsumed x)
    (ht : t < x.sqDepth) :
    (j.ring q false v).ring q true t = j.mapQueue q fun x => { x with cqHead := v, sqTail := t } := by
  have hx' := queue?_mapQueue_of_some (f := fun x => { x with cqHead := v }) (fun _ => rfl) hx
  rw [ring_head_inside hx hkind hready hv hc, ring_tail_inside hx' hkind hready ht]
  exact mapQueue_mapQueue _ _ fun _ => rfl

end

section
variable {j : Jenjor} (q : Nat) (isTail : Bool) (hopen : j.barsOpen = true)
include hopen

theorem doorbell_of_ready (v : Nat) (h7 : 7 ≤ j.alm.step) : j.doorbell q isTail v = j.ring q isTail v := by
  rw [doorbell, hopen, if_neg (by decide), if_neg (Nat.not_lt.mpr h7)]

theorem ring_barsOpen (v : Nat) : (j.ring q isTail v).barsOpen = true ∧ (j.ring q isTail v).alm.step = j.alm.step := by
  have hkept : (j.ring q isTail v).lnk = j.lnk ∧ (j.ring q isTail v).alm = j.alm := by
    unfold ring
    split
    · simp
    · split
      · simp
      · repeat' split
        all_goals simp
  obtain ⟨hlnk, halm⟩ := hkept
  exact ⟨by rw [barsOpen, hlnk, halm]; exact hopen, by rw [halm]⟩

theorem doorbellPage_field (v : BitVec 32) (h7 : 7 ≤ j.alm.step) :
    j.doorbellPage q isTail (.field v) = j.ring q isTail (v.toNat % 65536) := by
  rw [doorbellPage, hopen, if_neg (by decide)]
  exact doorbell_of_ready q isTail hopen _ h7

theorem doorbellPage_both (sq cq : BitVec 32) (h7 : 7 ≤ j.alm.step) :
    j.doorbellPage q isTail (.both sq cq) = (j.ring q false (cq.toNat % 65536)).ring q true (sq.toNat % 65536) := by
  obtain ⟨hopen', hstep⟩ := ring_barsOpen q false hopen (cq.toNat % 65536)
  rw [doorbellPage, hopen, if_neg (by decide)]
  exact (congrArg (fun k => doorbell k q true _) (doorbell_of_ready q false hopen _ h7)).trans
    (doorbell_of_ready q true hopen' _ (hstep ▸ h7))

theorem doorbellPage_read (width : Nat) :
    j.doorbellPage q isTail (.read width) = j.emit (.windowData (List.replicate width 0)) := by
  rw [doorbellPage, hopen, if_neg (by decide)]

theorem doorbellPage_other (off width : Nat) : j.doorbellPage q isTail (.other off width) =
    if off % width = 0 then j.discard 0 (q * 0x40 + off)
    else ((j.emit (.completerAbort (q * 0x40 + off))).emit (.aer 0)).info blkLNK 0 0xFFFF (q * 0x40 + off) := by
  rw [doorbellPage, hopen, if_neg (by decide)]
  by_cases h : off % width = 0 <;> simp [h]

end

/-! ### The admin queue (R439) -/

/-- The admin queue's registers place it where R439 allows. -/
def adminPlaced (j : Jenjor) : Prop :=
  j.qs.aqSqBase ≠ 0 ∧ j.qs.aqCqBase ≠ 0 ∧ depthOk j.qs.aqSqDepth.toNat = true ∧ depthOk j.qs.aqCqDepth.toNat = true ∧
    j.qs.aqVector.toNat < j.lnk.vectors

/-- Queue 0 as the admin queue's registers place it. -/
def placeAdmin (a : QueueState) (x : Queue) : Queue :=
  { x with sqBase := a.aqSqBase.toNat, cqBase := a.aqCqBase.toNat, sqDepth := a.aqSqDepth.toNat, cqDepth := a.aqCqDepth.toNat,
           vector := a.aqVector.toNat, sqHead := 0, sqTail := 0, cqTail := 0, cqHead := 0, phase := true }

section
variable {j : Jenjor}

theorem enableAdmin_of_placed (h : j.qs.aqEnable = false) (hp : j.adminPlaced) : j.enableAdmin =
    mapQueue { j with qs := { j.qs with aqEnable := true, aqReady := true, aqError := false } } 0 (placeAdmin j.qs) := by
  obtain ⟨hsq, hcq, hsd, hcd, hv⟩ := hp
  rw [enableAdmin, h, if_neg (by decide)]
  simp only [bne_iff_ne.mpr hsq, bne_iff_ne.mpr hcq, hsd, hcd, hv, decide_true, Bool.and_self, if_true]
  rfl

theorem enableAdmin_of_misplaced (h : j.qs.aqEnable = false) (hp : ¬ j.adminPlaced) : j.enableAdmin =
    record { j with qs := { j.qs with aqEnable := true, aqError := true } } 5 blkDEV 0 0xFFFF 0x118 0 0 := by
  rw [enableAdmin, h, if_neg (by decide)]
  refine if_neg fun hall => hp ?_
  simpa [adminPlaced, and_assoc] using hall

theorem disableAdmin_of_enabled (h : j.qs.aqEnable = true) : j.disableAdmin =
    (mapQueue { j with qs := { j.qs with aqEnable := false, aqError := false } } 0 fun x => { x with fault := 0 }).settleAdmin := by
  rw [disableAdmin, h, if_neg (by decide)]

theorem settleAdmin_of_disabled {x : Queue} (h : j.qs.aqEnable = false) (hx : j.queue? 0 = some x) :
    j.settleAdmin = { j with qs := { j.qs with aqReady := j.qs.aqReady && !x.inflight.isEmpty } } := by
  rw [settleAdmin, h, hx]
  simp only [Bool.not_false, Bool.true_and, Option.all_some]
  cases hr : j.qs.aqReady <;> cases hi : x.inflight.isEmpty <;> simp [← hr]

end

/-! ### MSI-X (R288, R337, R443) -/

theorem msixEntry_setMsix_ne (j : Jenjor) {v k : Nat} (e : MsixEntry) (h : k ≠ v) : (j.setMsix v e).msixEntry k = j.msixEntry k := by
  have hkv : (k == v) = false := beq_false_of_ne h
  simp only [msixEntry, setMsix, List.lookup_cons, hkv]
  congr 1
  induction j.qs.msix with
  | nil => rfl
  | cons y l ih =>
    obtain ⟨a, b⟩ := y
    by_cases ha : a = v
    · subst ha
      simpa [List.lookup_cons, hkv] using ih
    · simp [ha, List.lookup_cons, ih]

theorem unmask_of_pending {j : Jenjor} {v : Nat} (hp : (j.msixEntry v).pending = true) (ha : (j.msixEntry v).addr ≠ 0) :
    j.unmask v = ((j.setMsix v { j.msixEntry v with masked := false }).setMsix v { j.msixEntry v with masked := false, pending := false }).emit
      (.msix v (j.msixEntry v).addr (j.msixEntry v).data) := by
  unfold unmask
  simp only [hp, bne_iff_ne.mpr ha, Bool.and_self, if_true]

theorem unmask_of_idle {j : Jenjor} {v : Nat} (hp : (j.msixEntry v).pending = false) :
    j.unmask v = j.setMsix v { j.msixEntry v with masked := false } := by
  unfold unmask
  simp only [hp, Bool.false_and, Bool.false_eq_true, if_false]

end Jenjor

section
variable {s : State} (hs : s.j.live = true)
include hs

theorem exec_sqTailDoorbell (q : Nat) {a : PageAccess} (hform : pageForm a = true) :
    exec (.sqTailDoorbell q a) s = .next { s with j := s.j.doorbellPage q true a } :=
  (if_pos hform).trans (onBlocks_of_live _ hs)

theorem exec_cqHeadDoorbell (q : Nat) {a : PageAccess} (hform : pageForm a = true) :
    exec (.cqHeadDoorbell q a) s = .next { s with j := s.j.doorbellPage q false a } :=
  (if_pos hform).trans (onBlocks_of_live _ hs)

theorem exec_roceDoorbell {q : Nat} {x : Queue} (v : BitVec 32) (hx : s.j.queue? q = some x) (hroce : x.roce = true)
    (hkind : x.kind ≠ 4) (halive : s.j.qpAlive x.qpn = true) :
    exec (.roceDoorbell q v) s = .next { s with j := (s.j.ring q false (v.toNat / 65536)).ring q true (v.toNat % 65536) } := by
  change execRoceDoorbell q v s = _
  rw [execRoceDoorbell, onBlocks_of_live _ hs]
  simp only [hx, hroce, bne_iff_ne.mpr hkind, halive, Bool.and_self, if_true]

theorem exec_aqEnable (h : serving s) : exec .aqEnable s = .next { s with j := s.j.enableAdmin } :=
  (onBlocks_of_live (fun j => j.onBar0 0x118 fun j => j.enableAdmin) hs).trans (by rw [onBar0_of_serving _ _ h])

theorem exec_aqDisable (h : serving s) : exec .aqDisable s = .next { s with j := s.j.disableAdmin } :=
  (onBlocks_of_live (fun j => j.onBar0 0x118 fun j => j.disableAdmin) hs).trans (by rw [onBar0_of_serving _ _ h])

theorem exec_msixVectorUnmask {v : Nat} (hv : v < 2048) : exec (.msixVectorUnmask v) s =
    .next { s with j := if s.j.lnk.vectors ≤ v then s.j.discard 0 v else s.j.unmask v } :=
  (if_pos (decide_eq_true hv)).trans (onBlocks_of_live _ hs)

end

theorem serving_of_facts {s : State} (hs : s.j.live = true) (hup : s.j.lnk.endpointUp = true) (hdown : s.j.lnk.pcieDown = false)
    (h5 : 5 ≤ s.j.alm.step) (h9 : s.j.alm.step ≠ 9) : serving s :=
  ⟨hs, by simp [Jenjor.barsOpen, hup, hdown, h5, h9]⟩

open Jenjor in
/-- Settles O13: the doorbells by the form of the access and where its values lie, the admin queue by its placement, the
vectors by the pending bit and the table's size. -/
theorem doorbellsAdminQueueVectors : Obligations.DoorbellsAdminQueueVectors := by
  unfold Obligations.DoorbellsAdminQueueVectors
  refine ⟨fun s q v x hs hopen h7 hx hkind hready => ⟨fun ht => ?_, fun ht hfault => ?_, fun hv hc => ?_, fun w ht hw hc => ?_⟩,
    fun s q width hs hopen => ?_, fun s q off width hs hopen hform => ⟨fun hmod => ?_, fun hmod => ?_⟩,
    fun s q v x hs hx hroce hkind halive hready hw ht hc => ?_, fun s hs hup hdown h5 h9 hoff => ⟨fun hp => ?_, fun hp => ?_⟩,
    fun s x hs hup hdown h5 h9 hon hx => ?_, fun s v hs hv htable => ⟨fun hp ha => ?_, fun hp => ?_⟩, fun s v hs hv htable => ?_,
    fun s v hv => if_neg (by simpa using hv)⟩
  · rw [exec_sqTailDoorbell hs q rfl, doorbellPage_field q true hopen v h7, ring_tail_inside hx hkind hready ht]
  · rw [exec_sqTailDoorbell hs q rfl, doorbellPage_field q true hopen v h7, ring_tail_beyond hx hkind hready ht]
    exact ⟨_, rfl, (queue?_queueFault 1 hx).trans (by rw [if_pos hfault]), congrArg (fun k => { s with j := k }) (queueFault_frame 1)⟩
  · rw [exec_cqHeadDoorbell hs q rfl, doorbellPage_field q false hopen v h7, ring_head_inside hx hkind hready hv hc]
  · rw [exec_sqTailDoorbell hs q rfl, exec_cqHeadDoorbell hs q rfl, doorbellPage_both q _ hopen v w h7,
      doorbellPage_both q _ hopen v w h7, ring_head_tail hx hkind hready hw hc ht]
    exact ⟨rfl, rfl⟩
  · rw [exec_sqTailDoorbell hs q rfl, exec_cqHeadDoorbell hs q rfl, doorbellPage_read q _ hopen, doorbellPage_read q _ hopen]
    exact ⟨rfl, rfl⟩
  · rw [exec_sqTailDoorbell hs q hform, exec_cqHeadDoorbell hs q hform, doorbellPage_other q _ hopen, doorbellPage_other q _ hopen,
      if_pos hmod]
    exact ⟨_, rfl, rfl, discard_count .., congrArg (fun k => { s with j := k }) (discard_frame ..)⟩
  · rw [exec_sqTailDoorbell hs q hform, exec_cqHeadDoorbell hs q hform, doorbellPage_other q _ hopen, doorbellPage_other q _ hopen,
      if_neg hmod]
    refine ⟨_, rfl, rfl, info_out .., congrArg (fun k => { s with j := k }) ?_⟩
    apply Jenjor.eq_of_fields <;> simp
  · rw [exec_roceDoorbell hs v hx hroce hkind halive, ring_head_tail hx hkind hready hw hc ht]
  · rw [exec_aqEnable hs (serving_of_facts hs hup hdown h5 h9), enableAdmin_of_placed hoff hp]
    refine ⟨_, rfl, rfl, rfl, rfl, fun x hx => ?_, rfl⟩
    exact congrArg _ (queue?_mapQueue_of_some (f := placeAdmin s.j.qs) (fun _ => rfl) (Eq.trans rfl hx))
  · rw [exec_aqEnable hs (serving_of_facts hs hup hdown h5 h9), enableAdmin_of_misplaced hoff hp]
    exact ⟨_, rfl, by rw [record_qs], by rw [record_qs], by rw [record_qs], by rw [record_qs]⟩
  · have hx' := queue?_mapQueue_of_some (j := { s.j with qs := { s.j.qs with aqEnable := false, aqError := false } })
      (f := fun x => { x with fault := 0 }) (fun _ => rfl) hx
    rw [exec_aqDisable hs (serving_of_facts hs hup hdown h5 h9), disableAdmin_of_enabled hon, settleAdmin_of_disabled rfl hx']
    exact ⟨_, rfl, rfl, rfl, rfl, congrArg (Option.map _) hx', rfl⟩
  · rw [exec_msixVectorUnmask hs hv, if_neg (Nat.not_le.mpr htable), unmask_of_pending hp ha]
    refine ⟨_, rfl, setMsix_msixEntry_self .., rfl, fun k hk => ?_, rfl⟩
    exact (msixEntry_setMsix_ne _ _ hk).trans (msixEntry_setMsix_ne _ _ hk)
  · rw [exec_msixVectorUnmask hs hv, if_neg (Nat.not_le.mpr htable), unmask_of_idle hp]
  · rw [exec_msixVectorUnmask hs hv, if_pos htable]
    exact ⟨_, rfl, discard_count .., congrArg (fun k => { s with j := k }) (discard_frame ..)⟩

end Sys2Proof.Machine
end

section
namespace Sys2Proof.Machine

/-! ### A QUEUE_DELETE of a queue that does not exist (R264) -/

/-- A query that waits for its ring, submitted on a queue 5 that the module does not have. -/
def strayQuery : Ctx :=
  { id := 1, ref := { q := 5, cid := 0, noIrq := false, t0 := 0, gen := 0, tag := none }, d := 0, coll := 0, ring := 0, priority := 0,
    arrival := 0, phase := .waiting, pred := Predicate.empty, model := 0, tokens := [],
    q32 := [], qbits := [], qtok := [], rvec := [], words := [], floats := [], gsum := 0, mu := 0, const := 0, gridGen := 0,
    clamped := false, row := none, epoch := 0, frame := 0, view := [], pinned := false, owed := [], list := [], boundary := none,
    lanes := [], selecting := false, matchCount := 0, qualCount := 0, nanCount := 0, specIssued := 0, specTodo := [], alighted := 0,
    coarse := [], rpos := 0, scored := [], probed := 0, pins := [], final := [], reranked := false, payloads := [],
    vaultPay := false, deferred := false, stretched := false, tookCoarse := false, t0 := 0, boardTime := 0, mergeTime := 0,
    xtag := none, xpeer := none, psn := 0 }

/-- The admin queue with one descriptor announced. -/
def announcingAdmin : Queue := { queueZero with sqBase := 4096, cqBase := 8192, sqDepth := 16, cqDepth := 16, sqTail := 1 }

/-- A module in service whose only queue is that one, and which holds the stray query. -/
def strayQueryState : State :=
  { State.reset with j := { Jenjor.reset with
      qs := { resetQueues with queues := [announcingAdmin], aqEnable := true, aqReady := true },
      sw := { resetSweep with ctxs := [strayQuery] },
      alm := { resetAlmanac with step := 8 }, isl := { resetIslands with power := .on } } }

/-- QUEUE_DELETE of queue 5. -/
def deleteQueue5 : Desc := 0x52#512 ||| 5#512 <<< (8 * 0x08)

theorem strayQueryState_fetches : ∃ t, exec (.descriptorFetch [deleteQueue5]) strayQueryState = .next t ∧
    strayQuery ∈ t.j.sw.ctxs := ⟨_, rfl, by decide +kernel⟩

/-- Refutes O12: a fetched QUEUE_DELETE of a queue that does not exist stops no queue, and aborts no query that is counted
under that number. -/
theorem not_queuesCreatedFetchedDeleted : ¬ Obligations.QueuesCreatedFetchedDeleted := by
  unfold Obligations.QueuesCreatedFetchedDeleted
  rintro ⟨hfetch, -⟩
  obtain ⟨-, hdelete, -⟩ := hfetch strayQueryState announcingAdmin [deleteQueue5] deleteQueue5 (by decide) (by decide +kernel)
    (by decide +kernel) (by decide +kernel) (by decide +kernel)
  obtain ⟨t, hexec, -, hboarded⟩ := hdelete (by decide +kernel) (by decide +kernel) (by decide +kernel)
  obtain ⟨u, hu, hstray⟩ := strayQueryState_fetches
  rw [hexec] at hu
  cases hu
  exact absurd (hboarded strayQuery hstray (by decide +kernel) rfl) (by decide)

end Sys2Proof.Machine
end

section
namespace Sys2Proof.Machine
namespace Jenjor

/-! ### PCIe reset events (R334) -/

theorem reapQueues_of_none_deleting {j : Jenjor} (fuel : Nat) (h : ∀ q ∈ j.qs.queues, q.deleting = false) :
    reapQueues fuel j = j := by
  cases fuel with
  | zero => rfl
  | succ n =>
    have hnone : j.qs.queues.find? reapable = none := List.find?_eq_none.mpr fun q hq => by simp [reapable, h q hq]
    rw [reapQueues, hnone]

theorem pcieQueues_eq_nil {j : Jenjor} (h : ∀ q ∈ j.qs.queues, q.roce = true ∨ q.num = 0) : j.pcieQueues = [] := by
  refine List.filter_eq_nil_iff.mpr fun q hq => ?_
  rcases h q hq with hr | h0
  · simp [hr]
  · simp [h0]

/-- The PCIe link after an event of R334. -/
def linkReset (l : LinkState) (down perst : Bool) : LinkState :=
  let l : LinkState :=
    { l with resets := l.resets + 1, doePending := false, perstHigh := l.perstHigh && !perst, endpointUp := l.endpointUp && !perst }
  if down then { l with pcieDown := true, width := 0, speed := 0, flit := false, degraded := false } else l

/-- The event, counted and logged. -/
def resetNoted (j : Jenjor) (down perst : Bool) : Jenjor :=
  (count { j with lnk := linkReset j.lnk down perst } blkLNK 8).info blkLNK 0 8 0

/-- The PCIe queues are stopped, and their queries that have not boarded aborted. -/
def pcieQueuesGone (j : Jenjor) : Jenjor :=
  j.pcieQueues.foldl (fun j q => (j.mapQueue q.num fun x => { x with deleting := true, orphan := true }).abortUnboarded q.num) j

/-- Queue 0 is as after reset, and no vector, doorbell or admin state is left. -/
def hostCleared (j : Jenjor) : Jenjor :=
  let k := j.mapQueue 0 fun _ => queueZero
  { k with qs := { k.qs with msix := [], heldDoorbells := [], aqReady := false, aqError := false } }

section
variable {j : Jenjor} (down perst : Bool)

theorem resetNoted_qs : (j.resetNoted down perst).qs = j.qs := info_qs ..

theorem resetNoted_resets : (j.resetNoted down perst).lnk.resets = j.lnk.resets + 1 := by
  rw [resetNoted, info_lnk, count_lnk]
  cases down <;> rfl

theorem resetNoted_count : ((j.resetNoted down perst).counter 0xA0008).count = (j.counter 0xA0008).count + 1 := by
  rw [resetNoted, counter_info _ _ _ _ _ _ (by decide), count, show blkBase blkLNK + 8 = 0xA0008 from rfl, counter_bump, if_pos rfl]
  rfl

theorem resetNoted_perst : (j.resetNoted down true).lnk.perstHigh = false ∧ (j.resetNoted down true).lnk.endpointUp = false := by
  rw [resetNoted, info_lnk, count_lnk]
  cases down <;> exact ⟨Bool.and_false _, Bool.and_false _⟩

theorem resetNoted_down : (j.resetNoted true perst).lnk.pcieDown = true ∧ (j.resetNoted true perst).lnk.width = 0 := by
  rw [resetNoted, info_lnk, count_lnk]
  exact ⟨rfl, rfl⟩

theorem pcieReset_eq : j.pcieReset down perst =
    let k := ((j.resetNoted down perst).pcieQueuesGone).hostCleared
    (k.reapQueues (k.qs.queues.length + 1)).resetRW := by
  cases down <;> rfl

/-- With no PCIe queue beside queue 0 no queue is deleted. -/
theorem pcieReset_of_no_queue (hpcie : ∀ q ∈ j.qs.queues, q.roce = true ∨ q.num = 0) (hkept : ∀ q ∈ j.qs.queues, q.deleting = false) :
    j.pcieReset down perst = ((j.resetNoted down perst).hostCleared).resetRW := by
  have hgone : (j.resetNoted down perst).pcieQueuesGone = j.resetNoted down perst := by
    rw [pcieQueuesGone, pcieQueues_eq_nil (by rw [resetNoted_qs]; exact hpcie), List.foldl_nil]
  have hleft : ∀ q ∈ ((j.resetNoted down perst).hostCleared).qs.queues, q.deleting = false := by
    intro q hq
    obtain ⟨x, hx, rfl⟩ := List.mem_map.mp hq
    rw [resetNoted_qs] at hx
    dsimp only
    split
    · rfl
    · exact hkept x hx
  rw [pcieReset_eq, hgone]
  exact congrArg resetRW (reapQueues_of_none_deleting _ hleft)

end

/-! ### A faulted queue (R442) -/

theorem queueFault_qs (j : Jenjor) (q cause : Nat) :
    (j.queueFault q cause).qs = { j.qs with queues := (j.queueFault q cause).qs.queues } := by
  rw [queueFault, record_qs]
  rfl

theorem queueFault_fetched (j : Jenjor) (q cause : Nat) : (j.queueFault q cause).qs.fetched = j.qs.fetched := by
  rw [queueFault_qs]

/-- A queue whose CQ address faults, the lost completion's record and the report: nothing else changes. -/
theorem cqFault_frame (j : Jenjor) (q cls blk unit cause addr : Nat) (d : BitVec 256) (o : Output) :
    let k := ((j.queueFault q 5).record cls blk unit cause addr 0 d).emit o
    k = { j with qs := { j.qs with queues := k.qs.queues }, log := k.log, ctrs := k.ctrs, out := k.out } := by
  apply Jenjor.eq_of_fields
  case h7 => exact (record_qs ..).trans ((queueFault_qs ..).trans (by rw [emit_qs, record_qs]))
  all_goals simp

theorem queueFault_head (j : Jenjor) (q cause : Nat) : (j.queueFault q cause).log.head = j.log.head + 1 := record_head ..

end Jenjor

section
open Jenjor
variable {s : State} (hs : s.j.live = true)
include hs

theorem exec_pcieReset (kind : PcieResetKind) : exec (.pcieReset kind) s =
    .next { s with j := s.j.pcieReset (kind == .perst || kind == .linkDown) (kind == .perst) } := by
  change execPcieReset kind s = _
  rw [execPcieReset, if_pos hs, onBlocks_of_live _ hs]
  cases kind <;> rfl

theorem exec_pcieLinkTrained {w sp : Nat} (flit : Bool) (hw : w = 1 ∨ w = 2 ∨ w = 4 ∨ w = 8 ∨ w = 16) (h1 : 1 ≤ sp) (h6 : sp ≤ 6) :
    exec (.pcieLinkTrained w sp flit) s = .next { s with j := (
      let low := decide (w < 16) || decide (sp < 6)
      let l : LinkState := { s.j.lnk with pcieDown := false, width := w, speed := sp, flit := flit, degraded := low }
      if low then info { s.j with lnk := l } blkLNK 0 0xFFFF 0 else { s.j with lnk := l }) } := by
  have hform : ([1, 2, 4, 8, 16].contains w && decide (1 ≤ sp) && decide (sp ≤ 6)) = true := by
    simp only [h1, h6, decide_true, Bool.and_true]
    rcases hw with rfl | rfl | rfl | rfl | rfl <;> rfl
  exact (if_pos hform).trans (onBlocks_of_live _ hs)

theorem exec_pcieCompletionTimeout_none {q : Nat} {x : Queue} (hx : s.j.queue? q = some x) (hroce : x.roce = false) :
    exec (.pcieCompletionTimeout q none) s = .next { s with j := (s.j.queueFault q 3).emit (.aer 1) } := by
  change execPcieCompletionTimeout q none s = _
  rw [execPcieCompletionTimeout, onBlocks_of_live _ hs]
  simp only [hx, hroce, Option.all_some, Bool.false_eq_true, if_false, Option.bind_none]

/-- The module once an operand read of a fetched command has failed: the command is taken out. -/
theorem exec_pcieCompletionTimeout_some {q : Nat} {x : Queue} {c : BitVec 16} {f : Fetched} (hx : s.j.queue? q = some x)
    (hroce : x.roce = false)
    (hf : (s.j.qs.fetched.find? fun f => f.ref.q == q && f.ref.cid == c && f.ref.tag.isNone) = some f) :
    ∃ k : Jenjor, exec (.pcieCompletionTimeout q (some c)) s = .next { s with j := k.refuse f.ref .deliveryFailed } ∧
      k.qs.fetched = s.j.qs.fetched.erase f := by
  have hexec : exec (.pcieCompletionTimeout q (some c)) s = execPcieCompletionTimeout q (some c) s := rfl
  rw [execPcieCompletionTimeout, onBlocks_of_live _ hs] at hexec
  simp only [hx, hroce, Option.all_some, Bool.false_eq_true, if_false, emit_qs, queueFault_fetched, Option.bind_some, hf] at hexec
  exact ⟨_, hexec, rfl⟩

theorem exec_pciePoisonedTlp {q : Nat} {x : Queue} (hx : s.j.queue? q = some x) (hroce : x.roce = false) :
    exec (.pciePoisonedTlp q) s = .next { s with j := (s.j.queueFault q 3).emit (.aer 2) } := by
  change execPciePoisonedTlp q s = _
  rw [execPciePoisonedTlp, onBlocks_of_live _ hs]
  simp only [hx, hroce, Option.all_some, Bool.false_eq_true, if_false]

theorem exec_pcieErrorTlp_cqFault {q : Nat} {x : Queue} (cid : BitVec 16) (hx : s.j.queue? q = some x) (hroce : x.roce = false) :
    exec (.pcieErrorTlp (.cqFault q cid)) s =
      .next { s with j := ((s.j.queueFault q 5).record 5 blkLNK q 0xFFFF 0 0 (cid.setWidth 256)).emit (.aer 7) } := by
  change execPcieErrorTlp (.cqFault q cid) s = _
  rw [execPcieErrorTlp, onBlocks_of_live _ hs]
  simp only [hx, hroce, Option.all_some, Bool.false_eq_true, if_false]

/-- An error that is logged and reported alone (R338). -/
theorem exec_pcieErrorTlp_reported {kind : TlpError} {k : Nat}
    (hkind : (kind = .malformed ∧ k = 3) ∨ (kind = .unexpectedCompletion ∧ k = 4) ∨ (kind = .ecrc ∧ k = 5)) :
    exec (.pcieErrorTlp kind) s = .next { s with j := (s.j.info blkLNK 0 0xFFFF 0).emit (.aer k) } := by
  change execPcieErrorTlp kind s = _
  rw [execPcieErrorTlp, onBlocks_of_live _ hs]
  rcases hkind with ⟨rfl, rfl⟩ | ⟨rfl, rfl⟩ | ⟨rfl, rfl⟩ <;> rfl

theorem exec_doeDiscovery {i : Nat} (hi : i < 3) : exec (.doeDiscovery i) s =
    .next { s with j := (emit { s.j with lnk := { s.j.lnk with doePending := true } }
      (.doe (leBytes 4 (1 + i * 2 ^ 16 + (if i < 2 then (i + 1) * 2 ^ 24 else 0))))) } := by
  change execDoeDiscovery i s = _
  rw [execDoeDiscovery, onBlocks_of_live _ hs]
  match i, hi with
  | 0, _ | 1, _ | 2, _ => rfl

theorem exec_doeOtherProtocol (v ty : Nat) : exec (.doeOtherProtocol v ty) s =
    .next { s with j := if doeProtocols.contains (v, ty) then s.j else s.j.discard v ty } :=
  onBlocks_of_live (fun j => if doeProtocols.contains (v, ty) then j else j.discard v ty) hs

end

/-- A queue that faults, and the report: nothing else changes. -/
theorem faultReported_frame (s : State) (q cause : Nat) (o : Output) :
    let k := (s.j.queueFault q cause).emit o
    ({ s with j := k } : State) = { s with j := { s.j with
      qs := { s.j.qs with queues := k.qs.queues }, log := k.log, ctrs := k.ctrs, out := k.out } } := by
  refine congrArg (fun k => { s with j := k }) ?_
  apply Jenjor.eq_of_fields
  case h7 => exact Jenjor.queueFault_qs ..
  all_goals simp

theorem infoReported {s : State} {r : Host.Outcome State Fault Refusal} {blk unit cause addr : Nat} {o : Output}
    (hr : r = .next { s with j := (s.j.info blk unit cause addr).emit o }) :
    ∃ t, r = .next t ∧ t.j.log.head = s.j.log.head + 1 ∧ t.j.out = o :: s.j.out ∧
      t = { s with j := { s.j with log := t.j.log, ctrs := t.j.ctrs, out := t.j.out } } := by
  refine ⟨_, hr, Jenjor.record_head .., congrArg (List.cons _) (Jenjor.info_out ..), congrArg (fun k => { s with j := k }) ?_⟩
  apply Jenjor.eq_of_fields <;> simp

theorem mem_doeProtocols (v ty : Nat) : Jenjor.doeProtocols.contains (v, ty) = decide (v = 1 ∧ ty < 3) := by
  simp only [Jenjor.doeProtocols, List.contains_eq_mem, List.mem_cons, Prod.mk.injEq, List.not_mem_nil, or_false, decide_eq_decide]
  omega

open Jenjor in
/-- Settles O30: a reset event by its pieces where it deletes no queue, the link by whether it trained in full, an error by the
queue that it faults. -/
theorem pcieEndpoint : Obligations.PcieEndpoint := by
  unfold Obligations.PcieEndpoint
  refine ⟨fun s kind hs hpcie hkept => ?_, fun s => rfl, fun s w sp flit hs hw h1 h6 => ?_, fun s sp flit => rfl,
    fun s q x hs hx hroce => ⟨?_, ?_, fun c f hf => ?_⟩, fun s hs => ?_, fun s hs => ⟨?_, ?_, fun i hi => ?_, fun i hi => ?_, fun v ty hv => ?_⟩⟩
  · rw [exec_pcieReset hs, pcieReset_of_no_queue _ _ hpcie hkept]
    refine ⟨_, rfl, resetNoted_resets .., resetNoted_count .., ?_, rfl, rfl, rfl, rfl, rfl, rfl, ?_, ?_, ?_, ?_, ?_, rfl, rfl⟩
    · exact congrArg (fun q : QueueState => updWhere (fun x => x.num == 0) (fun _ => queueZero) q.queues) (resetNoted_qs ..)
    · rintro rfl
      exact resetNoted_perst _
    · rintro rfl
      exact resetNoted_down _
    · exact info_cat ..
    · exact info_sw ..
    · exact info_wr ..
  · rw [exec_pcieLinkTrained hs flit hw h1 h6]
    by_cases hfull : w = 16 ∧ sp = 6
    · have hlow : (decide (w < 16) || decide (sp < 6)) = false := by simp [hfull]
      simp only [hlow, if_pos hfull]
      exact ⟨_, rfl, rfl, rfl, rfl⟩
    · have hlow : (decide (w < 16) || decide (sp < 6)) = true := by simp; omega
      simp only [hlow, if_neg hfull, if_true]
      exact ⟨_, rfl, info_lnk .., record_head .., congrArg (fun k => { s with j := k }) (by apply Jenjor.eq_of_fields <;> simp)⟩
  · rw [exec_pcieCompletionTimeout_none hs hx hroce]
    exact ⟨_, rfl, queue?_queueFault 3 hx, congrArg (List.cons _) (queueFault_out ..), queueFault_head .., faultReported_frame ..⟩
  · rw [exec_pciePoisonedTlp hs hx hroce]
    exact ⟨_, rfl, queue?_queueFault 3 hx, congrArg (List.cons _) (queueFault_out ..), faultReported_frame ..⟩
  · exact exec_pcieCompletionTimeout_some hs hx hroce hf
  · refine ⟨?_, ?_, ?_, fun q cid x hx hroce => ?_⟩
    · exact infoReported (exec_pcieErrorTlp_reported hs (.inl ⟨rfl, rfl⟩))
    · exact infoReported (exec_pcieErrorTlp_reported hs (.inr (.inl ⟨rfl, rfl⟩)))
    · exact infoReported (exec_pcieErrorTlp_reported hs (.inr (.inr ⟨rfl, rfl⟩)))
    · rw [exec_pcieErrorTlp_cqFault hs cid hx hroce]
      exact ⟨_, rfl, (queue?_record ..).trans (queue?_queueFault 5 hx), congrArg (List.cons _) (by simp),
        by rw [emit_log, record_log]; rfl,
        congrArg (fun k => { s with j := k }) (cqFault_frame ..)⟩
  · exact onBlocks_of_live (fun j => j.emit (.aer 6)) hs
  · exact onBlocks_of_live (fun j => { j with lnk := { j.lnk with doePending := false } }) hs
  · rw [exec_doeDiscovery hs hi]
    rfl
  · rw [exec_doeOtherProtocol hs, mem_doeProtocols, decide_eq_true ⟨rfl, hi⟩]
    rfl
  · rw [exec_doeOtherProtocol hs, mem_doeProtocols, decide_eq_false hv]
    exact ⟨_, rfl, discard_count .., congrArg (fun k => { s with j := k }) (discard_frame ..)⟩

end Sys2Proof.Machine
end

section
namespace Sys2Proof.Machine
namespace Jenjor

/-! ### Queue pairs after a change (R343) -/

section
variable {j : Jenjor} {n : Nat} {p : Qp}

theorem qp?_mapQp_of_some {f : Qp → Qp} (hf : ∀ x, (f x).num = x.num) (h : j.qp? n = some p) :
    (j.mapQp n f).qp? n = some (f p) := by
  have hfind := find?_updWhere (fun x : Qp => x.num == n) f (fun x => by rw [hf]) j.lnk.qps
  rw [show j.lnk.qps.find? (fun x => x.num == n) = some p from h] at hfind
  exact hfind

theorem qp?_of_lnk {k : Jenjor} (h : k.lnk = j.lnk) : k.qp? n = j.qp? n := by rw [qp?, qp?, h]

theorem qpAlive_of_qp? (h : j.qp? n = some p) (he : p.state = .established) : j.qpAlive n = true := by
  simp [qpAlive, h, he]

/-- An event of a port's counter, seen at the counter's address. -/
theorem count_port {off port a : Nat} (ha : a = 0xA0000 + (off + port * 0x80)) :
    ((j.count blkLNK (off + port * 0x80)).counter a).count = (j.counter a).count + 1 := by
  subst ha
  rw [count, show blkBase blkLNK = 0xA0000 from rfl, counter_bump, if_pos rfl]
  rfl

end

/-! ### A queue pair in error faults its queues (R346) -/

theorem queue?_mapQueue_ne {j : Jenjor} {n m : Nat} (f : Queue → Queue) (hf : ∀ x, (f x).num = x.num) (h : n ≠ m) :
    (j.mapQueue m f).queue? n = j.queue? n := by
  have hfind := find?_updWhere_of (fun x : Queue => x.num == n) (fun x => x.num == m) f (fun x => by rw [hf]) j.qs.queues
  refine (show (j.mapQueue m f).queue? n = _ from hfind).trans ?_
  cases hq : j.qs.queues.find? (fun x => x.num == n) with
  | none => exact hq.symm
  | some q =>
    have hnum : q.num ≠ m := fun hm => h ((num_of_queue? hq).symm.trans hm)
    simp only [Option.map_some, beq_iff_eq, if_neg hnum]
    exact hq.symm

/-- Every queue of a list faults. -/
def faultQueues (j : Jenjor) (l : List Queue) (cause : Nat) : Jenjor := l.foldl (fun j q => j.queueFault q.num cause) j

theorem faultQueues_lnk (j : Jenjor) (l : List Queue) (cause : Nat) : (j.faultQueues l cause).lnk = j.lnk :=
  foldl_lnk _ _ _ fun _ _ => queueFault_lnk ..

theorem faultQueues_sw (j : Jenjor) (l : List Queue) (cause : Nat) : (j.faultQueues l cause).sw = j.sw :=
  foldl_sw _ _ _ fun _ _ => queueFault_sw ..

theorem faultQueues_waits (j : Jenjor) (l : List Queue) (cause : Nat) : (j.faultQueues l cause).qs.waits = j.qs.waits := by
  induction l generalizing j with
  | nil => rfl
  | cons x l ih => exact (ih (j.queueFault x.num cause)).trans (by rw [queueFault_qs])

theorem faultQueues_counter (j : Jenjor) (l : List Queue) (cause : Nat) {a : Nat} (ha : a ≠ 0xF0018) :
    (j.faultQueues l cause).counter a = j.counter a := by
  induction l generalizing j with
  | nil => rfl
  | cons x l ih => exact (ih (j.queueFault x.num cause)).trans (counter_record _ _ _ _ _ _ _ _ _ ha)

/-- A queue of the list that had no fault takes the cause, and keeps it. -/
theorem queue?_faultQueues {j : Jenjor} {l : List Queue} {n cause : Nat} {q : Queue} (hc : cause ≠ 0) (h : j.queue? n = some q)
    (hq : q.fault = 0 ∧ (∃ x ∈ l, x.num = n) ∨ q.fault = cause) :
    (j.faultQueues l cause).queue? n = some { q with fault := cause } := by
  induction l generalizing j q with
  | nil =>
    obtain rfl : q.fault = cause := hq.resolve_left (by simp)
    exact h
  | cons x l ih =>
    change ((j.queueFault x.num cause).faultQueues l cause).queue? n = _
    by_cases hx : x.num = n
    · subst hx
      have h' := queue?_queueFault cause h
      rcases hq with ⟨h0, -⟩ | rfl
      · rw [if_pos h0] at h'
        exact ih (q := { q with fault := cause }) h' (.inr rfl)
      · rw [if_neg hc] at h'
        exact ih (q := q) h' (.inr rfl)
    · have h' : (j.queueFault x.num cause).queue? n = some q := by
        rw [queueFault, queue?_record, queue?_mapQueue_ne _ (fun x => by split <;> rfl) (Ne.symm hx), h]
      refine ih h' (hq.imp_left fun ⟨h0, y, hy, hyn⟩ => ⟨h0, y, ?_, hyn⟩)
      rcases List.mem_cons.mp hy with rfl | hy
      · exact absurd hyn hx
      · exact hy

/-- The queue pair is in the error state: counted and logged. -/
def qpErrorNoted (j : Jenjor) (n port : Nat) : Jenjor :=
  ((j.mapQp n fun p => { p with state := .error, connector := none }).count blkLNK (0x120 + port * 0x80)).info blkLNK n
    (0x120 + port * 0x80) 0

/-- The queues whose queue pair is `n`. -/
def queuesOf (j : Jenjor) (n : Nat) : List Queue := j.qs.queues.filter fun q => q.roce && q.qpn == n

theorem qpErrorNoted_count (j : Jenjor) (n : Nat) (p : Qp) : ((j.qpErrorNoted n p.port).counter (0xA0120 + p.port * 0x80)).count
    = (j.counter (0xA0120 + p.port * 0x80)).count + 1 := by
  rw [qpErrorNoted, counter_info _ _ _ _ _ _ (by omega), count_port (by omega)]
  rfl

/-- What waits on a queue pair fails (R346). -/
def failWaits (j : Jenjor) (n : Nat) : Jenjor :=
  (j.qs.waits.filter fun w => !w.flush && w.qpn == n).foldl (fun j w => j.releaseWaiting w false) j

theorem failWaits_of_none {j : Jenjor} (n : Nat) (h : j.qs.waits = []) : j.failWaits n = j := by
  rw [failWaits, h, List.filter_nil, List.foldl_nil]

/-- A queue pair that no queue is bound to goes. -/
def dropUnbound (j : Jenjor) (n : Nat) : Jenjor :=
  { j with lnk := { j.lnk with qps := j.lnk.qps.filter fun x => !(x.num == n && x.bound.isEmpty) } }

section
variable {j : Jenjor} {n : Nat} {p : Qp} (hp : j.qp? n = some p)
include hp

theorem qpError_of_unconnected (hstate : p.state = .established) (hconn : p.connector = none) :
    j.qpError n = (((j.qpErrorNoted n p.port).faultQueues ((j.qpErrorNoted n p.port).queuesOf n) 6).failWaits n).dropUnbound n := by
  rw [qpError, hp]
  simp only [hstate, reduceCtorEq, if_false, hconn]
  rfl

/-- With nothing waiting on it, a queue pair in error faults its queues, and goes where none is bound. -/
theorem qpError_of_idle (hstate : p.state = .established) (hconn : p.connector = none) (hwaits : j.qs.waits = []) :
    j.qpError n = ((j.qpErrorNoted n p.port).faultQueues (j.queuesOf n) 6).dropUnbound n := by
  have hqs : (j.qpErrorNoted n p.port).qs = j.qs := info_qs ..
  rw [qpError_of_unconnected hp hstate hconn, queuesOf, hqs, failWaits_of_none _ (by rw [faultQueues_waits, hqs, hwaits])]
  rfl

theorem qpErrorNoted_qp? : (j.qpErrorNoted n p.port).qp? n = some { p with state := .error, connector := none } :=
  (qp?_of_lnk (info_lnk ..)).trans (qp?_mapQp_of_some (f := fun p => { p with state := .error, connector := none }) (fun _ => rfl) hp)

end

/-- A queue pair that some queue is bound to is not among those that are removed. -/
theorem qp?_of_bound {j : Jenjor} {n : Nat} {p : Qp} (hp : j.qp? n = some p) (hb : p.bound ≠ []) :
    (j.lnk.qps.filter fun x => !(x.num == n && x.bound.isEmpty)).find? (fun x => x.num == n) = some p := by
  rw [List.find?_filter]
  obtain ⟨hnum, as, bs, hsplit, has⟩ := List.find?_eq_some_iff_append.mp hp
  refine List.find?_eq_some_iff_append.mpr ⟨?_, as, bs, hsplit, fun x hx => ?_⟩
  · simp [hnum, hb]
  · have := has x hx
    simp_all

/-! ### Acknowledgements and send rates (R286, R343) -/

/-- A queue pair whose send rate rises by 5 % of its port's line rate. -/
def raised (j : Jenjor) (p : Qp) : Qp := { p with rateMbps := min (j.lineRate p.port) (p.rateMbps + j.lineRate p.port / 20) }

theorem acknowledge_eq (j : Jenjor) (n psn : Nat) : j.acknowledge n psn =
    (j.qs.waits.filter fun w => !w.flush && w.qpn == n && (psn + 2 ^ 24 - w.psn) % 2 ^ 24 < 2 ^ 23).foldl
      (fun j w => j.releaseWaiting w true) (j.mapQp n fun p => { p with unacked := (psn + 1) % 2 ^ 24, retries := 0 }) := rfl

end Jenjor

section
open Jenjor
variable {s : State} (hs : s.j.live = true)
include hs

theorem onPool_of_live (f : List Host.Cell → List Host.Cell → Jenjor → List Host.Cell × Jenjor) :
    onPool f s = .next { s with rmem := (f s.mem s.rmem s.j).1, j := (f s.mem s.rmem s.j).2 } := by
  rw [onPool, if_pos hs]

section
variable {n addr : Nat} {rkey : BitVec 32} {data : List Byte} (halive : s.j.qpAlive n = true) (hdata : data ≠ [])
include halive hdata

/-- A write of some bytes: refused outside what its key opens, taken inside it while sweep memory takes any (R302, R343). -/
theorem exec_rdmaWrite_inside {q : Queue} (hq : s.j.keyedQueue n rkey = some q) (hin : inRing q addr data.length = true) :
    exec (.rdmaWrite n rkey addr data) s = if s.j.mem.stopped then .next s else
      .next { s with rmem := Memory.writeBytes s.rmem (addr - Config.poolBase) data,
                     j := s.j.clearRingPoison q.num (addr - Config.poolBase) data.length } := by
  change execRdmaWrite n rkey addr data s = _
  rw [execRdmaWrite, onPool_of_live hs]
  simp only [halive, List.isEmpty_eq_false_iff.mpr hdata, Bool.not_true, Bool.or_self, Bool.false_eq_true, if_false, hq, hin]
  cases s.j.mem.stopped <;> rfl

theorem exec_rdmaWrite_outside (hout : (s.j.keyedQueue n rkey).all (fun q => !inRing q addr data.length) = true) :
    exec (.rdmaWrite n rkey addr data) s = .next { s with j := s.j.refuseRequest n 2 } := by
  change execRdmaWrite n rkey addr data s = _
  rw [execRdmaWrite, onPool_of_live hs]
  simp only [halive, List.isEmpty_eq_false_iff.mpr hdata, Bool.not_true, Bool.or_self, Bool.false_eq_true, if_false]
  cases hq : s.j.keyedQueue n rkey with
  | none => rfl
  | some q =>
    rw [hq, Option.all_some] at hout
    simp only [hout, if_true]

end

theorem exec_roceRefusedRequest {n : Nat} (kind : RefusedReq) (halive : s.j.qpAlive n = true) :
    exec (.roceRefusedRequest n kind) s =
      .next { s with j := (s.j.emit (.nak n (if kind = .outOfRange then 2 else 1))).qpError n } := by
  change execRoceRefusedRequest n kind s = _
  rw [execRoceRefusedRequest, onBlocks_of_live _ hs]
  simp only [refuseRequest, halive, if_true]

theorem exec_roceNak {n : Nat} (halive : s.j.qpAlive n = true) : exec (.roceNak n) s = .next { s with j := s.j.qpError n } := by
  change execRoceNak n s = _
  rw [execRoceNak, onBlocks_of_live _ hs, halive, if_pos rfl]

theorem exec_roceAck {n : Nat} (psn : Nat) (halive : s.j.qpAlive n = true) :
    exec (.roceAck n psn) s = .next { s with j := s.j.acknowledge n psn } := by
  change execRoceAck n psn s = _
  rw [execRoceAck, onBlocks_of_live _ hs, halive, if_pos rfl]

theorem exec_cnpReceived (n : Nat) :
    exec (.cnpReceived n) s = .next { s with j := s.j.mapQp n fun p => { p with rateMbps := max 1000 (p.rateMbps / 2) } } :=
  onBlocks_of_live (fun j => j.mapQp n fun p => { p with rateMbps := max 1000 (p.rateMbps / 2) }) hs

theorem exec_rateIncreaseTimer (n : Nat) : exec (.rateIncreaseTimer n) s = .next { s with j := s.j.mapQp n (raised s.j) } :=
  onBlocks_of_live (fun j => j.mapQp n (raised j)) hs

section
variable {n : Nat} {p : Qp} (hp : s.j.qp? n = some p)
include hp

theorem exec_roceAckTimeout (hstate : p.state = .established) (hopen : p.unacked ≠ p.psn) (hleft : p.retries < s.j.alm.net.retryCount) :
    exec (.roceAckTimeout n) s = .next { s with j := (((s.j.mapQp n fun p => { p with retries := p.retries + 1 }).count blkLNK
      (0x118 + p.port * 0x80)).emit (.roceRetransmit n p.unacked)) } := by
  change execRoceAckTimeout n s = _
  rw [execRoceAckTimeout, onBlocks_of_live _ hs]
  simp only [hp, hstate, bne_self_eq_false, Bool.false_or, decide_eq_true_eq, if_neg hopen, Nat.not_le.mpr hleft, if_false]

theorem exec_ecnMarkedPacket : exec (.ecnMarkedPacket n) s =
    .next { s with j := (if p.lastCnp.all fun t => t + 50000 ≤ s.j.time then
        ((s.j.mapQp n fun p => { p with lastCnp := some s.j.time }).emit (.cnp n)).count blkLNK (0x128 + p.port * 0x80)
      else s.j) } := by
  change execEcnMarkedPacket n s = _
  rw [execEcnMarkedPacket, onBlocks_of_live _ hs]
  simp only [hp]

end

end

open Jenjor in
/-- Settles O31: a write by its key and its place, an error by the queues of the queue pair, an acknowledgement by what waits
for it. -/
theorem queuePairTraffic : Obligations.QueuePairTraffic := by
  unfold Obligations.QueuePairTraffic
  refine ⟨fun s n addr rkey data q hs halive hdata hq hin => ⟨fun hgo => ?_, fun hstop => ?_, fun a ha => ?_⟩,
    fun s n addr rkey data hs halive hdata hout => exec_rdmaWrite_outside hs halive hdata hout,
    fun s n kind hs halive => exec_roceRefusedRequest hs kind halive,
    fun s n p q hs hp hstate hb hconn hwaits hq hroce hqpn hfault => ?_, fun s n psn p hs hp hstate hw => ?_,
    fun s n psn w hs halive hwaits hflush hqpn hpsn => ?_, fun s n p hs hp hstate hopen hleft => ?_,
    fun s n p hs hp => ⟨fun hfirst => ?_, fun at_ hlast hsoon => ?_, ?_, ?_⟩⟩
  · rw [exec_rdmaWrite_inside hs halive hdata hq hin, hgo]
    rfl
  · rw [exec_rdmaWrite_inside hs halive hdata hq hin, if_pos hstop]
  · exact Memory.read_writeBytes_outside _ _ _ _ ha
  · rw [exec_roceNak hs (qpAlive_of_qp? hp hstate), qpError_of_idle hp hstate hconn hwaits]
    refine ⟨_, rfl, ?_, ?_, ?_, (faultQueues_sw ..).trans (info_sw ..)⟩
    · exact qp?_of_bound ((qp?_of_lnk (faultQueues_lnk ..)).trans (qpErrorNoted_qp? hp)) hb
    · refine queue?_faultQueues (by decide) ((queue?_of_queues (by rw [qpErrorNoted, info_qs]; rfl)).trans hq)
        (.inl ⟨hfault, q, List.mem_filter.mpr ⟨List.mem_of_find?_eq_some hq, by simp [hroce, hqpn]⟩, rfl⟩)
    · exact (congrArg Ctr.count (faultQueues_counter _ _ _ (by omega))).trans (qpErrorNoted_count ..)
  · rw [exec_roceAck hs psn (qpAlive_of_qp? hp hstate), acknowledge_eq, List.filter_eq_nil_iff.mpr (fun w h => by simp [hw w h])]
    rfl
  · rw [exec_roceAck hs psn halive, acknowledge_eq, hwaits,
      List.filter_cons_of_pos (by rw [hflush, hqpn, decide_eq_true hpsn]; simp)]
    rfl
  · rw [exec_roceAckTimeout hs hp hstate hopen hleft]
    refine ⟨_, rfl, ?_, rfl, ?_⟩
    · exact qp?_mapQp_of_some (f := fun p => { p with retries := p.retries + 1 }) (fun _ => rfl) hp
    · exact count_port (by omega)
  · rw [exec_ecnMarkedPacket hs hp, hfirst, Option.all_none, if_pos rfl]
    refine ⟨_, rfl, qp?_mapQp_of_some (f := fun p => { p with lastCnp := some s.j.time }) (fun _ => rfl) hp, rfl, ?_⟩
    exact count_port (by omega)
  · rw [exec_ecnMarkedPacket hs hp, hlast, if_neg (by simpa using hsoon)]
  · exact ⟨_, exec_cnpReceived hs n, qp?_mapQp_of_some (f := fun p => { p with rateMbps := max 1000 (p.rateMbps / 2) }) (fun _ => rfl) hp, rfl⟩
  · exact ⟨_, exec_rateIncreaseTimer hs n, qp?_mapQp_of_some (f := raised s.j) (fun _ => rfl) hp, rfl⟩

end Sys2Proof.Machine
end

section
namespace Sys2Proof.Machine
namespace Jenjor

/-! ### Channels and rims after a change (R291) -/

section
variable {j : Jenjor} {n m : Nat} {c : Chan}

theorem chan?_mapChan_self (f : Chan → Chan) (h : j.chan? n = some c) : (j.mapChan n f).chan? n = some (f c) := by
  change (j.mem.chans.modify n f)[n]? = _
  rw [List.getElem?_modify_eq, show j.mem.chans[n]? = some c from h, Option.map_eq_map, Option.map_some]

theorem chan?_mapChan_ne (f : Chan → Chan) (h : n ≠ m) : (j.mapChan m f).chan? n = j.chan? n :=
  List.getElem?_modify_ne _ j.mem.chans (Ne.symm h)

theorem chan?_of_mem {k : Jenjor} (h : k.mem = j.mem) : k.chan? n = j.chan? n := by rw [chan?, chan?, h]

theorem chan?_of_mem_chans {k : Jenjor} (h : k.mem.chans = j.mem.chans) : k.chan? n = j.chan? n := by rw [chan?, chan?, h]

theorem rim_mapRim_self {r : Rim} (f : Rim → Rim) (h : j.mem.rims[n]? = some r) : (j.mapRim n f).mem.rims[n]? = some (f r) := by
  change (j.mem.rims.modify n f)[n]? = _
  rw [List.getElem?_modify_eq, h, Option.map_eq_map, Option.map_some]

theorem spareReady_of_mem {k : Jenjor} (hrims : k.mem.rims = j.mem.rims) (hspare : k.chan? (spareOf n) = j.chan? (spareOf n)) :
    k.spareReady n = j.spareReady n := by
  rw [spareReady, spareReady, hrims, hspare]

theorem ne_spareOf (h : n % 21 ≠ 20) : n ≠ spareOf m := by
  unfold spareOf
  omega

end

/-! ### The traffic generator (R308, R309) -/

theorem startTg_of_allowed {j : Jenjor} {ch : Nat} {c : Chan} (hc : j.chan? ch = some c) (hb : c.busy = false)
    (hp : c.pattern.toNat ≤ 5) (ha : j.tgAllowed ch c = true) :
    j.startTg ch = j.mapChan ch fun c => { c with busy := true, back := c.state, state := .testing } := by
  rw [startTg, hc]
  simp only [hb, ha, Nat.not_lt.mpr hp, decide_false, Bool.not_true, Bool.or_self, Bool.false_eq_true, if_false]

theorem startTg_of_refused {j : Jenjor} {ch : Nat} {c : Chan} (hc : j.chan? ch = some c)
    (h : c.busy = true ∨ 5 < c.pattern.toNat ∨ j.tgAllowed ch c = false) :
    j.startTg ch = j.discard ch (blkBase blkMEM + 0x1020 + ch * 0x40) := by
  rw [startTg, hc]
  refine if_pos ?_
  rcases h with h | h | h <;> simp [h]

/-- The differences that a pass of the traffic generator saw: counted, and on a spare a failure of the spare. -/
def passSeen (j : Jenjor) (ch diffs : Nat) : Jenjor :=
  let k := if diffs = 0 then j else j.bump (blkBase blkMEM + 0x1028 + ch * 0x40) diffs
  if diffs ≠ 0 ∧ ch % 21 = 20 then k.mapRim (ch / 21) fun r => { r with spareFailed := true } else k

section
variable (j : Jenjor) (ch diffs : Nat)

theorem passSeen_chans : (j.passSeen ch diffs).mem.chans = j.mem.chans := by
  unfold passSeen
  dsimp only
  split <;> split <;> rfl

theorem passSeen_count :
    ((j.passSeen ch diffs).counter (0x81028 + ch * 0x40)).count = (j.counter (0x81028 + ch * 0x40)).count + BitVec.ofNat 48 diffs := by
  have hbump : ((if diffs = 0 then j else j.bump (blkBase blkMEM + 0x1028 + ch * 0x40) diffs).counter (0x81028 + ch * 0x40)).count
      = (j.counter (0x81028 + ch * 0x40)).count + BitVec.ofNat 48 diffs := by
    by_cases h0 : diffs = 0
    · rw [if_pos h0, h0]
      exact (BitVec.add_zero _).symm
    · rw [if_neg h0, show blkBase blkMEM + 0x1028 + ch * 0x40 = 0x81028 + ch * 0x40 from rfl, counter_bump, if_pos rfl]
  rw [← hbump, passSeen]
  split <;> rfl

theorem passSeen_rim {r : Rim} (hr : j.mem.rims[ch / 21]? = some r) : (j.passSeen ch diffs).mem.rims[ch / 21]? =
    some { r with spareFailed := r.spareFailed || (diffs != 0 && ch % 21 == 20) } := by
  have hbump : (if diffs = 0 then j else j.bump (blkBase blkMEM + 0x1028 + ch * 0x40) diffs).mem.rims[ch / 21]? = some r := by
    split <;> exact hr
  rw [passSeen]
  split
  · next h =>
    refine (rim_mapRim_self (fun r => { r with spareFailed := true }) hbump).trans ?_
    simp [h]
  · next h =>
    refine hbump.trans ?_
    have hfalse : (diffs != 0 && ch % 21 == 20) = false := by simpa using h
    rw [hfalse, Bool.or_false]

theorem passSeen_frame (f : Chan → Chan) :
    let k := (j.passSeen ch diffs).mapChan ch f
    k = { j with mem := { j.mem with chans := k.mem.chans, rims := k.mem.rims }, ctrs := k.ctrs } := by
  unfold passSeen
  dsimp only
  split <;> split <;> rfl

end

/-! ### Retried accesses and failed bursts (R304) -/

/-- A channel that is marked at a time (R422). -/
def markedAt (time : Nat) (c : Chan) : Chan :=
  { c with marked := true, again := c.markAt.any fun t => time ≤ t + 1000000000, markAt := some time }

/-- A retried access, counted and logged. -/
def retryNoted (j : Jenjor) (ch : Nat) : Jenjor :=
  (j.count blkMEM (0x1018 + ch * 0x40)).record 1 blkMEM ch (0x1018 + ch * 0x40) 0 0 0

section
variable {j : Jenjor}

theorem retryNoted_mem (ch : Nat) : (j.retryNoted ch).mem = j.mem := record_mem ..

theorem retryNoted_frame (ch : Nat) : j.retryNoted ch = { j with ctrs := (j.retryNoted ch).ctrs, log := (j.retryNoted ch).log } :=
  record_frame ..

theorem retryNoted_count {ch : Nat} (hch : ch < 84) :
    ((j.retryNoted ch).counter (0x81018 + ch * 0x40)).count = (j.counter (0x81018 + ch * 0x40)).count + 1 := by
  rw [retryNoted, counter_record _ _ _ _ _ _ _ _ _ (by omega), count, counter_bump,
    if_pos (by rw [show blkBase blkMEM = 0x80000 from rfl]; omega)]
  rw [show blkBase blkMEM = 0x80000 from rfl, show 0x80000 + (0x1018 + ch * 0x40) = 0x81018 + ch * 0x40 by omega]
  rfl

/-- A counted and marked retry changes the counters, the Logbook and the channel. -/
theorem retryMarked_frame (ch : Nat) (f : Chan → Chan) :
    let k := (j.retryNoted ch).mapChan ch f
    k = { j with ctrs := k.ctrs, log := k.log, mem := { j.mem with chans := k.mem.chans } } := by
  apply Jenjor.eq_of_fields
  case h13 => simp only [mapChan, retryNoted_mem]
  all_goals simp [retryNoted]

/-- A mark keeps which channel serves a logical channel. -/
theorem physChannel_mapChan {ch : Nat} {f : Chan → Chan} (hf : ∀ c, (f c).logical = c.logical) (l : Nat) :
    (j.mapChan ch f).physChannel l = j.physChannel l := by
  have hmodify : ∀ (cs : List Chan) (n : Nat), (cs.modify n f).map Chan.logical = cs.map Chan.logical := by
    intro cs
    induction cs with
    | nil => intro n; cases n <;> rfl
    | cons c cs ih =>
      intro n
      cases n with
      | zero => simp [List.modify_zero_cons, hf]
      | succ n => simp [List.modify_succ_cons, ih]
  have hfind : ∀ cs : List Chan,
      cs.findIdx? (fun c => c.logical == some l) = (cs.map Chan.logical).findIdx? (fun x => x == some l) := fun cs => by
    rw [List.findIdx?_map]
    rfl
  rw [physChannel, physChannel, hfind, hfind]
  exact congrArg _ (hmodify ..)

theorem physChannel_of_mem {k : Jenjor} (h : k.mem.chans = j.mem.chans) (l : Nat) : k.physChannel l = j.physChannel l := by
  rw [physChannel, physChannel, h]

end

section
variable (j : Jenjor) (a cls : Nat) (st : BitVec 8) (what : PoolObject)

theorem poisonWord_chans : (j.poisonWord a cls st what).mem.chans = j.mem.chans := by
  unfold poisonWord
  split
  · rfl
  · dsimp only
    rw [fault_mem]
    rfl

theorem poisonWord_cat : (j.poisonWord a cls st what).cat = j.cat := by
  unfold poisonWord
  split
  · rfl
  · dsimp only
    rw [fault_cat]
    rfl

/-- A poisoned word stays poisoned. -/
theorem poisonWord_keeps {b : Nat} (h : ∃ x ∈ j.mem.poison, x.1 = b) : ∃ x ∈ (j.poisonWord a cls st what).mem.poison, x.1 = b := by
  unfold poisonWord
  split
  · exact h
  · dsimp only
    rw [fault_mem]
    obtain ⟨x, hx, rfl⟩ := h
    by_cases ha : x.1 = a / 64
    · exact ⟨_, List.mem_cons_self, ha.symm⟩
    · exact ⟨x, List.mem_cons_of_mem _ (List.mem_filter.mpr ⟨hx, bne_iff_ne.mpr ha⟩), rfl⟩

theorem poisonWord_poisons (h : (j.physChannel (poolChannel a)).isSome = true) :
    ∃ x ∈ (j.poisonWord a cls st what).mem.poison, x.1 = a / 64 := by
  unfold poisonWord
  obtain ⟨ch, hch⟩ := Option.isSome_iff_exists.mp h
  rw [hch]
  dsimp only
  rw [fault_mem]
  exact ⟨_, List.mem_cons_self, rfl⟩

end

/-- Every word of a list is poisoned (R305). -/
def poisonWords (j : Jenjor) (l : List Nat) (cls : Nat) (st : BitVec 8) (what : PoolObject) : Jenjor :=
  l.foldl (fun j a => j.poisonWord a cls st what) j

section
variable (cls : Nat) (st : BitVec 8) (what : PoolObject)

theorem poisonWords_cat (j : Jenjor) (l : List Nat) : (j.poisonWords l cls st what).cat = j.cat :=
  foldl_cat _ _ _ fun _ _ => poisonWord_cat ..

theorem poisonWords_poisons {j : Jenjor} {l : List Nat} {a : Nat}
    (h : (∃ x ∈ j.mem.poison, x.1 = a / 64) ∨ a ∈ l ∧ (j.physChannel (poolChannel a)).isSome = true) :
    ∃ x ∈ (j.poisonWords l cls st what).mem.poison, x.1 = a / 64 := by
  induction l generalizing j with
  | nil => exact h.resolve_right (by simp)
  | cons b l ih =>
    refine ih (j := j.poisonWord b cls st what) ?_
    rcases h with h | ⟨hmem, hphys⟩
    · exact .inl (poisonWord_keeps j b cls st what h)
    · rcases List.mem_cons.mp hmem with rfl | hmem
      · exact .inl (poisonWord_poisons j a cls st what hphys)
      · exact .inr ⟨hmem, by rw [physChannel_of_mem (poisonWord_chans ..)]; exact hphys⟩

end

theorem burstFailed_plate (j : Jenjor) (l burst pid : Nat) : j.burstFailed l burst (.plate pid) = j.plateLoss pid := rfl

/-- A failed burst of a tile region that no command reads: its words are poisoned. -/
theorem burstFailed_tile (j : Jenjor) (l burst o off : Nat) : j.burstFailed l burst (.tile o off none) =
    j.poisonWords ((List.range 32).filterMap (codeWordAt l burst)) 2 Status.internalError.code (.tile o off none) := rfl

/-! ### Substitution and loss (R425) -/

section
variable {j : Jenjor} {ch : Nat} {c x : Chan} {r : Rim}

theorem startSubstitution_of_ready (hc : j.chan? ch = some c) (hr : j.mem.rims[ch / 21]? = some r) (hl : c.logical.isSome = true)
    (hs : r.shadow = none) (hready : j.spareReady (ch / 21) = true) : j.startSubstitution ch =
      ((j.stopTg (spareOf (ch / 21))).mapRim (ch / 21) fun r => { r with shadow := some ch }).info blkMEM ch 0xFFFF 0 := by
  have hnone : c.logical.isNone = false := by rw [Option.isNone_eq_false_iff]; exact hl
  rw [startSubstitution, hc, hr]
  simp only [hnone, hs, hready, Option.isSome_none, Bool.not_true, Bool.or_self, Bool.false_eq_true, if_false]

theorem startSubstitution_of_not_ready (hc : j.chan? ch = some c) (hr : j.mem.rims[ch / 21]? = some r)
    (h : c.logical = none ∨ r.shadow.isSome = true ∨ j.spareReady (ch / 21) = false) : j.startSubstitution ch = j := by
  rw [startSubstitution, hc, hr]
  refine if_pos ?_
  rcases h with h | h | h <;> simp [h]

/-- A channel with no index, out of service. -/
def retiredChan (c : Chan) : Chan := { c with state := .retired, logical := none, marked := false }

/-- The spare and the channel change places. -/
def placesSwapped (j : Jenjor) (ch : Nat) (l : Option Nat) : Jenjor :=
  ((j.mapChan (spareOf (ch / 21)) fun x => { x with state := .serving, logical := l, busy := false }).mapChan ch retiredChan).mapRim
    (ch / 21) fun r => { r with spareUsed := true, spareFor := (l.getD 0) % 20, shadow := none }

theorem spareTakes_of_chan (hc : j.chan? ch = some c) :
    j.spareTakes ch = (j.placesSwapped ch c.logical).fault 3 blkMEM ch 0xFFFF 0 0 0 := by
  rw [spareTakes, hc]
  rfl

theorem spareTakes_cat (hc : j.chan? ch = some c) : (j.spareTakes ch).cat = j.cat := by
  rw [spareTakes_of_chan hc, fault_cat]
  rfl

theorem spareTakes_errClass (hc : j.chan? ch = some c) : (j.spareTakes ch).log.errClass = j.log.errClass ||| 2#3 := by
  rw [spareTakes_of_chan hc, fault_errClass _ _ _ _ _ _ _ _ (by decide)]
  rfl

theorem spareTakes_whole (hc : j.chan? ch = some c) : (j.spareTakes ch).isl.whole = j.isl.whole := by
  rw [spareTakes_of_chan hc, fault_isl]
  rfl

theorem spareTakes_chan (hc : j.chan? ch = some c) (hspare : ch % 21 ≠ 20) : (j.spareTakes ch).chan? ch = some (retiredChan c) := by
  rw [spareTakes_of_chan hc, chan?_of_mem (fault_mem ..)]
  exact chan?_mapChan_self retiredChan ((chan?_mapChan_ne _ (ne_spareOf hspare)).trans hc)

theorem spareTakes_spare (hc : j.chan? ch = some c) (hspare : ch % 21 ≠ 20) (hx : j.chan? (spareOf (ch / 21)) = some x) :
    (j.spareTakes ch).chan? (spareOf (ch / 21)) = some { x with state := .serving, logical := c.logical, busy := false } := by
  rw [spareTakes_of_chan hc, chan?_of_mem (fault_mem ..)]
  exact (chan?_mapChan_ne _ (Ne.symm (ne_spareOf hspare))).trans
    (chan?_mapChan_self (fun x => { x with state := .serving, logical := c.logical, busy := false }) hx)

theorem spareTakes_rim (hc : j.chan? ch = some c) (hr : j.mem.rims[ch / 21]? = some r) :
    (j.spareTakes ch).mem.rims[ch / 21]? = some { r with spareUsed := true, spareFor := c.logical.getD 0 % 20, shadow := none } := by
  rw [spareTakes_of_chan hc, fault_mem]
  exact rim_mapRim_self (fun r => { r with spareUsed := true, spareFor := c.logical.getD 0 % 20, shadow := none }) hr

/-- The loss is on record before anything else. -/
def lossNoted (j : Jenjor) (ch : Nat) : Jenjor := j.fault 2 blkMEM ch 0xFFFF 0 Status.plateLost.code 0

theorem lossNoted_errClass : (j.lossNoted ch).log.errClass = j.log.errClass ||| 1#3 := fault_errClass _ _ _ _ _ _ _ _ (by decide)

theorem lossNoted_cat : (j.lossNoted ch).cat = j.cat := fault_cat ..

theorem lossNoted_whole : (j.lossNoted ch).isl.whole = j.isl.whole := by rw [lossNoted, fault_isl]

theorem lossNoted_spareReady (rim : Nat) : (j.lossNoted ch).spareReady rim = j.spareReady rim :=
  spareReady_of_mem (by rw [lossNoted, fault_mem]) (chan?_of_mem (fault_mem ..))

/-- Where no ring is defined, no rider is aborted. -/
theorem loseChannel_of_no_ring (hc : j.chan? ch = some c) (hl : c.logical.isSome = true) (hrings : ∀ r ∈ j.sw.rings, r.defn = none) :
    j.loseChannel ch = if j.spareReady (ch / 21) then
        ((j.lossNoted ch).spareTakes ch).mapPlates (j.lossNoted ch).inSweepMemory fun p => { p with quarantined := true }
      else ((j.lossNoted ch).mapChan ch retiredChan).wholeFault blkMEM ch 0xFFFF := by
  have hnone : c.logical.isNone = false := by rw [Option.isNone_eq_false_iff]; exact hl
  have hdeep : (j.sw.rings.filter fun r => r.defn.any fun d => !d.deep) = [] :=
    List.filter_eq_nil_iff.mpr fun r hr => by simp [hrings r hr]
  rw [← lossNoted_spareReady (ch := ch), loseChannel, hc]
  simp only [hnone, Bool.false_eq_true, if_false, hdeep, List.map_nil, List.foldl_nil]
  rfl

theorem inSweepMemory_of_cat {k : Jenjor} (h : k.cat = j.cat) : k.inSweepMemory = j.inSweepMemory := by
  funext p
  simp only [inSweepMemory, coll?, plateSetTier, obj?, h]

end

end Jenjor

section
open Jenjor
variable {s : State} (hs : s.j.live = true)
include hs

section
variable {ch : Nat} (hch : ch < 84)
include hch

theorem exec_tgStart : exec (.tgStart ch) s = .next { s with j := s.j.startTg ch } :=
  (if_pos (decide_eq_true hch)).trans (onBlocks_of_live _ hs)

theorem exec_tgStop : exec (.tgStop ch) s = .next { s with j := s.j.stopTg ch } :=
  (if_pos (decide_eq_true hch)).trans (onBlocks_of_live _ hs)

theorem exec_tgPassComplete {c : Chan} (hc : s.j.chan? ch = some c) (hb : c.busy = true) (diffs : Nat) (pins : BitVec 32) :
    exec (.tgPassComplete ch diffs pins) s = .next { s with j := ((s.j.passSeen ch diffs).mapChan ch fun c =>
      if c.loop then { c with errPins := c.errPins ||| pins }
      else { c with errPins := c.errPins ||| pins, busy := false, done := true, state := c.back }) } := by
  refine (if_pos (decide_eq_true hch)).trans ((onBlocks_of_live _ hs).trans ?_)
  simp only [hc, hb, Bool.not_true, Bool.false_eq_true, if_false]
  rfl

theorem exec_channelAccessRetry_none (overRate : Bool) : exec (.channelAccessRetry ch none overRate) s =
    .next { s with j := if overRate then (s.j.retryNoted ch).mapChan ch (markedAt s.j.time) else s.j.retryNoted ch } := by
  have htime : (s.j.retryNoted ch).time = s.j.time := record_time ..
  refine (if_pos (by simp [hch])).trans ((onBlocks_of_live _ hs).trans ?_)
  simp only [fault_eq_record _ 1 _ _ _ _ _ _ (by decide), Option.isSome_none, Bool.or_false]
  rw [← htime]
  rfl

theorem exec_channelAccessRetry_failed {burst l : Nat} {c : Chan} (what : PoolObject) (overRate : Bool) (hburst : burst < 2097152)
    (hc : s.j.chan? ch = some c) (hl : c.logical = some l) : exec (.channelAccessRetry ch (some (burst, what)) overRate) s =
      .next { s with j := ((s.j.retryNoted ch).mapChan ch (markedAt s.j.time)).burstFailed l burst what } := by
  have htime : (s.j.retryNoted ch).time = s.j.time := record_time ..
  have hmarked : ((s.j.retryNoted ch).mapChan ch (markedAt s.j.time)).chan? ch = some (markedAt s.j.time c) :=
    chan?_mapChan_self _ ((chan?_of_mem (retryNoted_mem ch)).trans hc)
  refine (if_pos (by simp [hch, hburst])).trans ((onBlocks_of_live _ hs).trans ?_)
  simp only [fault_eq_record _ 1 _ _ _ _ _ _ (by decide), Option.isSome_some, Bool.or_true, if_true]
  rw [show (s.j.count blkMEM (0x1018 + ch * 0x40)).record 1 blkMEM ch (0x1018 + ch * 0x40) 0 0 0 = s.j.retryNoted ch from rfl,
    show (s.j.retryNoted ch).markChan ch = (s.j.retryNoted ch).mapChan ch (markedAt s.j.time) by rw [← htime]; rfl, hmarked,
    Option.bind_some, show (markedAt s.j.time c).logical = some l from hl]

section
variable {c : Chan} (hc : s.j.chan? ch = some c)
include hc

theorem exec_channelRetrain_idle (h : c.marked = false ∨ c.state ≠ .serving) (margin : Nat) (trained : Bool) :
    exec (.channelRetrain ch margin trained) s = .next s := by
  refine (if_pos (decide_eq_true hch)).trans ((onBlocks_of_live _ hs).trans ?_)
  have hidle : (!c.marked || c.state != .serving) = true := by rcases h with h | h <;> simp [h]
  simp only [hc, hidle, if_true]

theorem exec_channelRetrain_trained (hm : c.marked = true) (hserv : c.state = .serving) (margin : Nat) :
    exec (.channelRetrain ch margin true) s = .next { s with j := (
      let k := (s.j.mapChan ch fun c => { c with marked := false, again := false, margin := margin }).info blkMEM ch 0xFFFF 0
      if margin < 64 ∨ c.again = true then k.startSubstitution ch else k) } := by
  refine (if_pos (decide_eq_true hch)).trans ((onBlocks_of_live _ hs).trans ?_)
  simp only [hc, hm, hserv, bne_self_eq_false, Bool.not_true, Bool.or_self, Bool.false_eq_true, if_false, Bool.or_eq_true,
    decide_eq_true_eq]

end

theorem exec_channelSubstitutionStart :
    exec (.channelSubstitutionStart ch) s = .next { s with j := s.j.startSubstitution ch } :=
  (if_pos (decide_eq_true hch)).trans (onBlocks_of_live _ hs)

theorem exec_channelLost : exec (.channelLost ch) s = .next { s with j := s.j.loseChannel ch } :=
  (if_pos (decide_eq_true hch)).trans (onBlocks_of_live _ hs)

end

theorem exec_channelSubstitutionComplete {rim ch : Nat} {r : Rim} (hrim : rim < 4) (hr : s.j.mem.rims[rim]? = some r)
    (hshadow : r.shadow = some ch) : exec (.channelSubstitutionComplete rim) s = .next { s with j := s.j.spareTakes ch } := by
  refine (if_pos (decide_eq_true hrim)).trans ((onBlocks_of_live _ hs).trans ?_)
  simp only [hr, Option.bind_some, hshadow]

end

open Jenjor in
/-- Settles O27: the traffic generator by the channel's state, a retry by what failed, a channel by whether its rim's spare can
take its index. -/
theorem memoryChannels : Obligations.MemoryChannels := by
  unfold Obligations.MemoryChannels
  refine ⟨fun s ch c hs hch hc => ⟨fun hb hp ha => ?_, fun h => ?_, fun hb => exec_tgStop hs hch, fun hb diffs pins => ?_⟩,
    fun s ch overRate hs hch => ⟨?_, fun burst pid l c hburst hc hl => ?_, fun burst l o off w a c hburst hc hl hw ha hphys => ?_⟩,
    fun s ch margin c hs hch hc => ⟨fun hm hserv hmargin hagain => ?_, fun h trained => exec_channelRetrain_idle hs hch hc h margin trained,
      fun hm hserv hweak hl hspare hready r hr hshadow => ?_⟩,
    fun s ch c x r hs hch hc hr hx => ⟨fun hl hshadow hready => ?_, fun h => ?_⟩,
    fun s rim ch c x r hs hrim hr hshadow hin hspare hc hx => ?_,
    fun s ch c x hs hch hspare hc hl hrings hx hready => ?_, fun s ch c hs hch hc hl hready hwhole hrings => ?_⟩
  · rw [exec_tgStart hs hch, startTg_of_allowed hc hb hp ha]
  · rw [exec_tgStart hs hch, startTg_of_refused hc h]
    exact ⟨_, rfl, discard_count .., congrArg (fun k => { s with j := k }) (discard_frame ..)⟩
  · rw [exec_tgPassComplete hs hch hc hb]
    exact ⟨_, rfl, chan?_mapChan_self _ ((chan?_of_mem_chans (passSeen_chans ..)).trans hc), passSeen_count .., fun r hr => passSeen_rim _ _ _ hr,
      congrArg (fun k => { s with j := k }) (passSeen_frame ..)⟩
  · rw [exec_channelAccessRetry_none hs hch]
    cases overRate with
    | true => exact ⟨_, rfl, (retryNoted_count hch :), record_head .., congrArg (fun m : MemState => m.chans.modify ch _) (retryNoted_mem ch),
        congrArg (fun k => { s with j := k }) (retryMarked_frame ..)⟩
    | false =>
      refine ⟨_, rfl, (retryNoted_count hch :), record_head .., congrArg MemState.chans (retryNoted_mem ch),
        congrArg (fun k => { s with j := k }) ?_⟩
      apply Jenjor.eq_of_fields
      case h13 => simp [retryNoted_mem]
      all_goals simp [retryNoted]
  · rw [exec_channelAccessRetry_failed hs hch _ overRate hburst hc hl, burstFailed_plate]
    refine ⟨_, rfl, (retryNoted_count hch :), ?_, retryMarked_frame ..⟩
    exact congrArg (fun m : MemState => m.chans.modify ch _) (retryNoted_mem ch)
  · rw [exec_channelAccessRetry_failed hs hch _ overRate hburst hc hl, burstFailed_tile]
    have hphys' : (((s.j.retryNoted ch).mapChan ch (markedAt s.j.time)).physChannel (poolChannel a)).isSome = true := by
      rw [physChannel_mapChan (f := markedAt s.j.time) (fun _ => rfl), physChannel_of_mem (j := s.j) (by rw [retryNoted_mem])]
      exact hphys
    exact ⟨_, rfl, poisonWords_poisons 2 _ _ (.inr ⟨List.mem_filterMap.mpr ⟨w, List.mem_range.mpr hw, ha⟩, hphys'⟩),
      (poisonWords_cat ..).trans (record_cat ..), rfl⟩
  · rw [exec_channelRetrain_trained hs hch hc hm hserv]
    simp only [hagain, Nat.not_lt.mpr hmargin, Bool.false_eq_true, or_self, if_false]
    refine ⟨_, rfl, ?_, congrArg (fun k => { s with j := k }) ?_⟩
    · rw [chan?_of_mem (info_mem ..), chan?_mapChan_self _ hc, ← hagain]
    · apply Jenjor.eq_of_fields
      case h13 => simp only [info_mem]; rfl
      all_goals simp
  · rw [exec_channelRetrain_trained hs hch hc hm hserv]
    simp only [if_pos hweak]
    have hc' := (chan?_of_mem (info_mem _ blkMEM ch 0xFFFF 0)).trans
      (chan?_mapChan_self (j := s.j) (fun c => { c with marked := false, again := false, margin := margin }) hc)
    rw [startSubstitution_of_ready hc' (by rw [info_mem]; exact hr) hl hshadow ((spareReady_of_mem (by rw [info_mem]; rfl)
      ((chan?_of_mem (info_mem ..)).trans (chan?_mapChan_ne _ (Ne.symm (ne_spareOf hspare))))).trans hready)]
    refine ⟨_, rfl, ?_, ?_⟩
    · rw [info_mem]
      exact rim_mapRim_self (fun r => { r with shadow := some ch }) (by rw [stopTg, mapChan, info_mem]; exact hr)
    · rw [chan?_of_mem (info_mem ..)]
      exact (chan?_mapChan_ne _ (ne_spareOf hspare)).trans hc'
  · rw [exec_channelSubstitutionStart hs hch, startSubstitution_of_ready hc hr hl hshadow hready]
    refine ⟨_, rfl, ?_, ?_, fun n hn => ?_, congrArg (fun k => { s with j := k }) ?_⟩
    · rw [info_mem]
      exact rim_mapRim_self (fun r => { r with shadow := some ch }) hr
    · rw [chan?_of_mem (info_mem ..)]
      exact chan?_mapChan_self _ hx
    · rw [chan?_of_mem (info_mem ..)]
      exact chan?_mapChan_ne _ hn
    · apply Jenjor.eq_of_fields
      case h13 => simp only [info_mem]; rfl
      all_goals simp [stopTg]
  · rw [exec_channelSubstitutionStart hs hch, startSubstitution_of_not_ready hc hr h]
  · subst hin
    rw [exec_channelSubstitutionComplete hs hrim hr hshadow]
    refine ⟨_, rfl, spareTakes_chan hc hspare, spareTakes_spare hc hspare hx, spareTakes_rim hc hr, ?_, spareTakes_cat hc, rfl⟩
    rw [spareTakes_errClass hc]
    simp
  · rw [exec_channelLost hs hch, loseChannel_of_no_ring hc hl hrings, if_pos hready]
    have hc' : (s.j.lossNoted ch).chan? ch = some c := (chan?_of_mem (fault_mem ..)).trans hc
    have hx' : (s.j.lossNoted ch).chan? (spareOf (ch / 21)) = some x := (chan?_of_mem (fault_mem ..)).trans hx
    have hclass := (spareTakes_errClass hc').trans (congrArg (· ||| 2#3) (lossNoted_errClass ..))
    refine ⟨_, rfl, spareTakes_chan hc' hspare, spareTakes_spare hc' hspare hx', ?_, ?_, ?_, ?_⟩
    · rw [inSweepMemory_of_cat (j := s.j) (lossNoted_cat ..)]
      exact congrArg (fun k : CatState => k.plates.map _) ((spareTakes_cat hc').trans (lossNoted_cat ..))
    · exact (congrArg (BitVec.getLsbD · 0) hclass).trans (by simp)
    · exact (congrArg (BitVec.getLsbD · 1) hclass).trans (by simp)
    · exact (spareTakes_whole hc').trans (lossNoted_whole ..)
  · rw [exec_channelLost hs hch, loseChannel_of_no_ring hc hl hrings, if_neg (by rw [hready]; decide)]
    refine ⟨_, rfl, chan?_mapChan_self retiredChan ((chan?_of_mem (fault_mem ..)).trans hc), ?_⟩
    exact (congrArg (BitVec.getLsbD · 0) (lossNoted_errClass ..)).trans (by simp)

end Sys2Proof.Machine
end

section
namespace Sys2Proof.Machine
namespace Jenjor

/-! ### Code words (R295, R305) -/

section
variable {j : Jenjor}

theorem injecting_of_disarmed (h : j.see.arm = false) (kind target addr : Nat) (f : Jenjor → Jenjor) :
    j.injecting kind target addr f = f j := by
  rw [injecting]
  refine if_neg ?_
  simp [injects, h]

theorem fresh_of_unpoisoned {a : Nat} (h : ∀ x ∈ j.mem.poison, x.1 ≠ a / 64) :
    (j.mem.poison.any fun p => p.1 == a / 64) = false := by
  simpa using h

/-- A corrected word, counted and logged on its channel. -/
def correctedOn (j : Jenjor) (ch : Nat) : Jenjor := (j.count blkMEM (0x1008 + ch * 0x40)).record 1 blkMEM ch (0x1008 + ch * 0x40) 0 0 0

theorem countCorrected_singleton (ch : Nat) : j.countCorrected [ch] = j.correctedOn ch :=
  fault_eq_record _ 1 _ _ _ _ _ _ (by decide)

theorem correctedOn_count (ch : Nat) :
    ((j.correctedOn ch).counter (0x81008 + ch * 0x40)).count = (j.counter (0x81008 + ch * 0x40)).count + 1 := by
  rw [correctedOn, counter_record _ _ _ _ _ _ _ _ _ (by omega), count,
    show blkBase blkMEM + (0x1008 + ch * 0x40) = 0x81008 + ch * 0x40 by rw [show blkBase blkMEM = 0x80000 from rfl]; omega,
    counter_bump, if_pos rfl]
  rfl

theorem correctedOn_counter (ch a : Nat) (ha : a ≠ 0xF0018) (hne : a ≠ 0x81008 + ch * 0x40) :
    (j.correctedOn ch).counter a = j.counter a := by
  rw [correctedOn, counter_record _ _ _ _ _ _ _ _ _ ha, count, counter_bump_ne]
  rw [show blkBase blkMEM = 0x80000 from rfl]
  omega

theorem correctedOn_frame (ch : Nat) : j.correctedOn ch = { j with ctrs := (j.correctedOn ch).ctrs, log := (j.correctedOn ch).log } :=
  record_frame ..

/-- A word's place is noted on the list of poisoned words, after the count of its channel. -/
def poisonNoted (j : Jenjor) (a ch : Nat) (what : PoolObject) : Jenjor :=
  let k := j.count blkMEM (0x1010 + ch * 0x40)
  { k with mem := { k.mem with poison := (a / 64, what) :: k.mem.poison } }

theorem poisonWord_of_fresh {a ch : Nat} (cls : Nat) (st : BitVec 8) (what : PoolObject)
    (hch : j.physChannel (poolChannel a) = some ch) (h : ∀ x ∈ j.mem.poison, x.1 ≠ a / 64) :
    j.poisonWord a cls st what = (j.poisonNoted a ch what).fault cls blkMEM ch (0x1010 + ch * 0x40) a st 0 := by
  have hkept : (j.mem.poison.filter fun x => x.1 != a / 64) = j.mem.poison :=
    List.filter_eq_self.mpr fun x hx => bne_iff_ne.mpr (h x hx)
  rw [poisonWord, hch]
  simp only [count_mem, hkept]
  rfl

theorem poisonNoted_fault_count {a ch cls addr : Nat} {st : BitVec 8} {what : PoolObject} :
    (((j.poisonNoted a ch what).fault cls blkMEM ch (0x1010 + ch * 0x40) addr st 0).counter (0x81010 + ch * 0x40)).count
      = (j.counter (0x81010 + ch * 0x40)).count + 1 := by
  have hbump : (j.poisonNoted a ch what).counter (0x81010 + ch * 0x40) = (j.count blkMEM (0x1010 + ch * 0x40)).counter (0x81010 + ch * 0x40) := rfl
  rw [counter_fault _ _ _ _ _ _ _ _ _ (by omega), hbump, count,
    show blkBase blkMEM + (0x1010 + ch * 0x40) = 0x81010 + ch * 0x40 by rw [show blkBase blkMEM = 0x80000 from rfl]; omega,
    counter_bump, if_pos rfl]
  rfl

theorem poisonNoted_fault_errClass {a ch addr unit : Nat} {st : BitVec 8} {what : PoolObject} :
    ((j.poisonNoted a ch what).fault 2 blkMEM unit (0x1010 + ch * 0x40) addr st 0).log.errClass.getLsbD 0 = true := by
  rw [fault_errClass _ _ _ _ _ _ _ _ (by decide)]
  simp

theorem fault_one_head (blk unit cause addr : Nat) (st : BitVec 8) (d : BitVec 256) :
    (j.fault 1 blk unit cause addr st d).log.head = j.log.head + 1 := by
  rw [fault_eq_record _ _ _ _ _ _ _ _ (by decide), record_head]

/-- A key directory's word is rebuilt from its master: nothing stays poisoned. -/
theorem directoryHealed_frame {a ch n addr : Nat} {st : BitVec 8} (h : j.mem.poison = []) :
    let k := ((j.poisonNoted a ch (.directory n)).fault 1 blkMEM ch (0x1010 + ch * 0x40) addr st 0).healPoison (.directory n)
    k = { j with ctrs := k.ctrs, log := k.log } := by
  rw [fault_eq_record _ _ _ _ _ _ _ _ (by decide)]
  apply Jenjor.eq_of_fields
  case h13 =>
    have hmem : { j.mem with poison := [] } = j.mem := by rw [← h]
    simpa [healPoison, poisonNoted, h] using hmem
  all_goals simp [healPoison, poisonNoted]

section
variable {a ch : Nat} {word : List Byte} (hch : j.physChannel (poolChannel a) = some ch) (hfresh : ∀ x ∈ j.mem.poison, x.1 ≠ a / 64)
include hfresh

theorem readCode_clean (what : PoolObject) (h : decodeWord word = .clean) : j.readCode a word what = (false, j) := by
  rw [readCode, fresh_of_unpoisoned hfresh, h]
  rfl

include hch

theorem readCode_corrected {w : List Byte} (what : PoolObject) (h : decodeWord word = .corrected w) :
    j.readCode a word what = (false, j.correctedOn ch) := by
  rw [readCode, fresh_of_unpoisoned hfresh, h, hch]
  exact congrArg (Prod.mk false) (countCorrected_singleton ch)

theorem readCode_uncorrectable (what : PoolObject) (h : decodeWord word = .uncorrectable) : j.readCode a word what =
    (true, (j.poisonNoted a ch what).fault (uncorrectableClass what).1 blkMEM ch (0x1010 + ch * 0x40) a (uncorrectableClass what).2 0) := by
  rw [readCode, fresh_of_unpoisoned hfresh, h, ← poisonWord_of_fresh _ _ _ hch hfresh]
  rfl

end

theorem uncorrectable_of_readCode {a : Nat} {word : List Byte} {what : PoolObject} {poison : Bool} {k : Jenjor}
    (h : j.readCode a word what = (poison, k)) : j.uncorrectable a word what = if poison then k.takePoison what else k := by
  rw [uncorrectable, h]

/-- The patrol scrub leaves a word poisoned that it cannot correct, and loses a plate (R306). -/
theorem scrubWord_of_corrected {l burst w a : Nat} {word : List Byte} {what : PoolObject} {k : Jenjor} (ha : codeWordAt l burst w = some a)
    (h : j.readCode a word what = (false, k)) : j.scrubWord l burst (w, word, what) = k := by
  rw [scrubWord, ha]
  simp only [h]
  cases what <;> rfl

theorem scrubWord_of_lost {l burst w a pid : Nat} {word : List Byte} {k : Jenjor} (ha : codeWordAt l burst w = some a)
    (hfresh : ∀ x ∈ j.mem.poison, x.1 ≠ a / 64) (h : j.readCode a word (.plate pid) = (true, k)) :
    j.scrubWord l burst (w, word, .plate pid) = k.plateLoss pid := by
  rw [scrubWord, ha]
  simp only [h, fresh_of_unpoisoned hfresh, Bool.not_false, Bool.and_self, if_true]

end

/-! ### Flit replays (R418) -/

/-- A flit replay, counted and logged. -/
def replayNoted (j : Jenjor) (b : Nat) : Jenjor :=
  (j.count blkISL (0x1008 + b * 0x10)).record 1 blkISL b (0x1008 + b * 0x10) 0 0 0

/-- A link takes its next spare lane. -/
def laneTaken (j : Jenjor) (b : Nat) : Jenjor :=
  record { j with isl := { j.isl with d2d := j.isl.d2d.modify b (· + 1) } } 1 blkISL b 0xFFFF 0 0 0

theorem replayNoted_count {b : Nat} (j : Jenjor) (hb : b < 22) :
    ((j.replayNoted b).counter (0xD1008 + b * 0x10)).count = (j.counter (0xD1008 + b * 0x10)).count + 1 := by
  rw [replayNoted, counter_record _ _ _ _ _ _ _ _ _ (by omega), count,
    show blkBase blkISL + (0x1008 + b * 0x10) = 0xD1008 + b * 0x10 by rw [show blkBase blkISL = 0xD0000 from rfl]; omega,
    counter_bump, if_pos rfl]
  rfl

theorem replayNoted_frame (j : Jenjor) (b : Nat) :
    let k := j.replayNoted b
    k = { j with ctrs := k.ctrs, log := k.log, isl := { j.isl with d2d := k.isl.d2d } } := by
  apply Jenjor.eq_of_fields
  case h19 => rw [show (j.replayNoted b).isl = j.isl from record_isl ..]
  all_goals simp [replayNoted]

theorem laneTaken_isl (j : Jenjor) (b : Nat) : ((j.replayNoted b).laneTaken b).isl = { j.isl with d2d := j.isl.d2d.modify b (· + 1) } := by
  rw [laneTaken, record_isl]
  exact congrArg (fun i : IslState => { i with d2d := i.d2d.modify b (· + 1) }) (record_isl ..)

theorem laneTaken_d2d (j : Jenjor) (b : Nat) : ((j.replayNoted b).laneTaken b).isl.d2d = j.isl.d2d.modify b (· + 1) := by
  rw [laneTaken_isl]

theorem laneTaken_frame (j : Jenjor) (b : Nat) :
    let k := (j.replayNoted b).laneTaken b
    k = { j with ctrs := k.ctrs, log := k.log, isl := { j.isl with d2d := k.isl.d2d } } := by
  apply Jenjor.eq_of_fields
  case h19 => simp only [laneTaken_isl]
  all_goals simp [laneTaken, replayNoted]

end Jenjor

section
open Jenjor
variable {s : State} (hs : s.j.live = true)
include hs

theorem exec_uncorrectableCodeWord {addr ch : Nat} {word : List Byte} (what : PoolObject) (haddr : addr < 322122547200)
    (hword : word.length = 68) (hch : s.j.physChannel (poolChannel addr) = some ch) (hsee : s.j.see.arm = false) :
    exec (.uncorrectableCodeWord addr word what) s = .next { s with j := s.j.uncorrectable addr word what } := by
  refine (if_pos (by simp [haddr, hword])).trans ((onBlocks_of_live _ hs).trans ?_)
  simp only [hch, injecting_of_disarmed hsee]

theorem exec_refresh_unwaited {ch : Nat} (hch : ch < 84) (drift : Bool) (n : Nat) :
    exec (.refresh ch drift n none) s = .next { s with j := if drift then s.j.markChan ch else s.j } :=
  (if_pos (by simp [hch])).trans (onBlocks_of_live _ hs)

theorem exec_refresh_waited {ch cycles c : Nat} (g : Nat) (hch : ch < 84) (hc : c < 18) (hcycles : 0 < cycles) :
    exec (.refresh ch false cycles (some (c, g))) s = .next { s with j := s.j.bump (0x24028 + c * 0x40) cycles } := by
  refine (if_pos (by simp [hch, hc])).trans ((onBlocks_of_live _ hs).trans ?_)
  simp only [Nat.ne_of_gt hcycles, if_false, Bool.false_eq_true]
  rw [show blkBase blkMER + 0x4000 + c * 0x40 + 40 = 0x24028 + c * 0x40 by rw [show blkBase blkMER = 0x20000 from rfl]; omega]

section
variable {ch burst : Nat} {c : Chan} (passDone : Bool) (hch : ch < 84) (hburst : burst < 2097152) (hc : s.j.chan? ch = some c)
include hch hburst hc

theorem exec_patrolScrubRead_of_none {words : List (Nat × List Byte × PoolObject)} (bad : List Nat) (hl : c.logical = none)
    (hwords : ∀ x ∈ words, x.1 < 32 ∧ x.2.1.length = 68) : exec (.patrolScrubRead ch burst words bad passDone) s = .next s := by
  refine (if_pos (by simpa [hch, hburst] using fun a b c h => hwords (a, b, c) h)).trans ((onBlocks_of_live _ hs).trans ?_)
  simp only [hc, Option.bind_some, hl]

theorem exec_patrolScrubRead_of_words {words : List (Nat × List Byte × PoolObject)} {l : Nat} (hl : c.logical = some l)
    (hwords : ∀ x ∈ words, x.1 < 32 ∧ x.2.1.length = 68) : exec (.patrolScrubRead ch burst words [] passDone) s = .next { s with j := (
      let k := words.foldl (fun j x => j.scrubWord l burst x) s.j
      if passDone then k.count blkMEM 0x18 else k) } := by
  refine (if_pos (by simpa [hch, hburst] using fun a b c h => hwords (a, b, c) h)).trans ((onBlocks_of_live _ hs).trans ?_)
  simp only [hc, Option.bind_some, hl, List.filter_nil, List.foldl_nil]

end

theorem exec_d2dFlitReplay {b : Nat} (overRate : Bool) (hb : b < 22) (hsee : s.j.see.arm = false) (hspare : s.j.isl.d2d.getD b 0 < 2) :
    exec (.d2dFlitReplay b overRate) s = .next { s with j := if overRate then (s.j.replayNoted b).laneTaken b else s.j.replayNoted b } := by
  have hisl : (s.j.replayNoted b).isl = s.j.isl := record_isl ..
  refine (if_pos (decide_eq_true hb)).trans ((onBlocks_of_live _ hs).trans ?_)
  simp only [injecting_of_disarmed hsee, fault_eq_record _ 1 _ _ _ _ _ _ (by decide)]
  cases overRate with
  | false => rfl
  | true =>
    simp only [Bool.not_true, Bool.false_eq_true, if_false, if_true]
    exact congrArg (fun k => Host.Outcome.next { s with j := k }) (if_pos (by rw [← hisl] at hspare; exact hspare))

end

/-- The count of complete passes of the patrol scrub (R306). -/
theorem Jenjor.scrubPass_count (k : Jenjor) (passDone : Bool) :
    ((if passDone then k.count blkMEM 0x18 else k).counter 0x80018).count = (k.counter 0x80018).count + (if passDone then 1 else 0) := by
  cases passDone with
  | false => exact (BitVec.add_zero _).symm
  | true =>
    simp only [if_true]
    rw [Jenjor.count, show blkBase blkMEM + 0x18 = 0x80018 from rfl, Jenjor.counter_bump, if_pos rfl]
    rfl

theorem Jenjor.scrubPass_counter (k : Jenjor) (passDone : Bool) {a : Nat} (ha : a ≠ 0x80018) :
    (if passDone then k.count blkMEM 0x18 else k).counter a = k.counter a := by
  cases passDone with
  | false => rfl
  | true => exact Jenjor.counter_bump_ne _ _ _ _ ha

open Jenjor in
/-- Settles O28: a read by what its word decodes to and what it belongs to, a refresh by who waited, a replay by its rate. -/
theorem codeWordsAndReplays : Obligations.CodeWordsAndReplays := by
  unfold Obligations.CodeWordsAndReplays
  refine ⟨fun s addr ch word what hs haddr hword hch hsee hfresh => ⟨fun hclean => ?_, fun w hw => ?_, fun n hbad hwhat hnone => ?_,
      fun pid hbad hwhat => ?_⟩, fun s ch n drift hs hch => exec_refresh_unwaited hs hch drift n,
    fun s ch cycles c g hs hch hc hcycles => ?_,
    fun s ch burst c passDone hs hch hburst hc => ⟨fun hl words bad hwords => exec_patrolScrubRead_of_none hs passDone hch hburst hc bad hl hwords,
      fun hl => ?_, fun l w a p word what hw hword hl ha hp hfresh => ⟨fun v hv => ?_, fun pid hbad hwhat => ?_⟩⟩,
    fun s b overRate hs hb hsee hspare => ?_, fun s addr word w haddr => if_neg (by simp [Nat.not_lt.mpr haddr])⟩
  · rw [exec_uncorrectableCodeWord hs what haddr hword hch hsee, uncorrectable_of_readCode (readCode_clean hfresh what hclean)]
    rfl
  · rw [exec_uncorrectableCodeWord hs what haddr hword hch hsee, uncorrectable_of_readCode (readCode_corrected hch hfresh what hw)]
    exact ⟨_, rfl, correctedOn_count ch, record_head .., congrArg (fun k => { s with j := k }) (correctedOn_frame ch)⟩
  · subst hwhat
    rw [exec_uncorrectableCodeWord hs _ haddr hword hch hsee, uncorrectable_of_readCode (readCode_uncorrectable hch hfresh _ hbad)]
    exact ⟨_, rfl, poisonNoted_fault_count, fault_one_head .., congrArg (fun k => { s with j := k }) (directoryHealed_frame hnone)⟩
  · subst hwhat
    rw [exec_uncorrectableCodeWord hs _ haddr hword hch hsee, uncorrectable_of_readCode (readCode_uncorrectable hch hfresh _ hbad)]
    exact ⟨_, rfl, poisonNoted_fault_count, fault_mem .., poisonNoted_fault_errClass, fault_cat .., fault_sw ..⟩
  · rw [exec_refresh_waited hs g hch hc hcycles]
    exact ⟨_, rfl, by rw [counter_bump, if_pos rfl], fun a ha => counter_bump_ne _ _ _ _ ha, rfl⟩
  · obtain ⟨l, hl⟩ := Option.isSome_iff_exists.mp hl
    rw [exec_patrolScrubRead_of_words hs passDone hch hburst hc hl (by simp)]
    exact ⟨_, rfl, scrubPass_count .., by cases passDone <;> rfl⟩
  · rw [exec_patrolScrubRead_of_words hs passDone hch hburst hc hl (by simp [hw, hword]), List.foldl_cons, List.foldl_nil,
      scrubWord_of_corrected ha (readCode_corrected hp hfresh what hv)]
    refine ⟨_, rfl, ?_, ?_, congrArg (fun k => { s with j := k }) ?_⟩
    · exact (congrArg Ctr.count (scrubPass_counter _ _ (by omega))).trans (correctedOn_count p)
    · exact (scrubPass_count ..).trans (congrArg (fun c : Ctr => c.count + _) (correctedOn_counter _ _ (by decide) (by omega)))
    · cases passDone with
      | false => exact correctedOn_frame p
      | true =>
        simp only [if_true]
        apply Jenjor.eq_of_fields <;> simp [correctedOn]
  · subst hwhat
    rw [exec_patrolScrubRead_of_words hs false hch hburst hc hl (by simp [hw, hword]), List.foldl_cons, List.foldl_nil,
      scrubWord_of_lost ha hfresh (readCode_uncorrectable hp hfresh _ hbad)]
    exact ⟨_, rfl, poisonNoted_fault_count, fault_mem .., fault_cat ..⟩
  · rw [exec_d2dFlitReplay hs overRate hb hsee hspare]
    cases overRate with
    | false =>
      simp only [Bool.false_eq_true, if_false]
      exact ⟨_, rfl, replayNoted_count _ hb, congrArg IslState.d2d (record_isl ..), congrArg (fun k => { s with j := k }) (replayNoted_frame ..)⟩
    | true =>
      refine ⟨_, rfl, ?_, laneTaken_d2d .., congrArg (fun k => { s with j := k }) (laneTaken_frame ..)⟩
      exact (congrArg Ctr.count (counter_record _ _ _ _ _ _ _ _ _ (by omega))).trans (replayNoted_count _ hb)

end Sys2Proof.Machine
end


section
namespace Sys2Proof.Machine
namespace Jenjor

variable {j : Jenjor}

/-! ### A carrier's fields and counters -/

theorem carrier?_mapCarrier {b : Nat} {c : Carrier} {f : Carrier → Carrier} (h : j.carrier? b = some c) :
    (j.mapCarrier b f).carrier? b = some (f c) := by
  change (j.vlt.carriers.modify b f)[b]? = _
  simp [show j.vlt.carriers[b]? = some c from h]

theorem carrier?_of_vlt {k : Jenjor} (h : k.vlt = j.vlt) (b : Nat) : k.carrier? b = j.carrier? b := by
  rw [carrier?, h, carrier?]

theorem carrier?_fault (cls blk unit cause addr : Nat) (st : BitVec 8) (d : BitVec 256) (b : Nat) :
    (j.fault cls blk unit cause addr st d).carrier? b = j.carrier? b := carrier?_of_vlt (fault_vlt ..) b

theorem counter_setProgrammed (j : Jenjor) (b n : Nat) :
    (j.setProgrammed b n).counter (0x90118 + b * 0x40) = { count := BitVec.ofNat 48 n, ovf := false } := by
  have haddr : blkBase blkVLT + 0x118 + b * 0x40 = 0x90118 + b * 0x40 := by rw [show blkBase blkVLT = 0x90000 from rfl]
  simp only [setProgrammed, haddr, counter]
  split
  · next h =>
    have hzero : BitVec.ofNat 48 n = 0 := BitVec.eq_of_toNat_eq (by simpa using h)
    rw [lookup_filter_self, hzero]
    rfl
  · rw [List.lookup_cons, beq_self_eq_true]
    rfl

theorem cutGrants_vlt (j : Jenjor) : j.cutGrants.vlt = j.vlt := by
  refine foldl_vlt _ _ _ fun k r => ?_
  dsimp only
  split <;> simp

theorem cutGrants_log (j : Jenjor) : j.cutGrants.log = j.log := by
  refine foldl_log _ _ _ fun k r => ?_
  dsimp only
  split <;> simp

theorem fault_errClass_vault (k : Jenjor) (blk unit cause addr : Nat) (st : BitVec 8) (d : BitVec 256) :
    (k.fault 3 blk unit cause addr st d).log.errClass.getLsbD 1 = true := by
  rw [fault_errClass _ _ _ _ _ _ _ _ (by decide)]
  simp

/-! ### A release (R327) -/

/-- A serving carrier begins to be released (R327 step 1). -/
def releasing (j : Jenjor) (b : Nat) : Jenjor :=
  (j.mapCarrier b fun c => { c with state := .releasing, refuse := 0 }).info blkVLT b 0xFFFF 0

theorem releaseRefused_of_free {b : Nat} (ho : j.vlt.online = true) (hd : j.othersDown b = 0) : j.releaseRefused b = 0 := by
  simp [releaseRefused, ho, hd]

theorem releaseRefused_of_not_free {b : Nat} (h : j.vlt.online = false ∨ 0 < j.othersDown b) :
    j.releaseRefused b = if j.vlt.online then 1 else 2 := by
  cases ho : j.vlt.online with
  | false => simp [releaseRefused, ho]
  | true => simp [releaseRefused, ho, h.resolve_left (by simp [ho])]

theorem releaseRefused_ne_zero {b : Nat} (h : j.vlt.online = false ∨ 0 < j.othersDown b) : j.releaseRefused b ≠ 0 := by
  rw [releaseRefused_of_not_free h]
  split <;> decide

theorem requestRelease_of_serving {b : Nat} {c : Carrier} (hc : j.carrier? b = some c) (hs : c.state = .serving)
    (h : j.releaseRefused b = 0) : j.requestRelease b = (j.releasing b).carrierLost b := by
  rw [requestRelease, hc]
  simp [h, hs, releasing]

theorem requestRelease_of_refused {b : Nat} {c : Carrier} (hc : j.carrier? b = some c) (h : j.releaseRefused b ≠ 0) :
    j.requestRelease b = j.mapCarrier b fun c => { c with refuse := j.releaseRefused b } := by
  rw [requestRelease, hc]
  exact if_pos h

/-! ### A failure (R328) -/

/-- A carrier that fails, before what follows for the vault. -/
def carrierFailed (j : Jenjor) (b : Nat) : Jenjor :=
  (j.mapCarrier b fun c => { c with state := .failed, permille := 0 }).fault 3 blkVLT b 0xFFFF 0 0 0

theorem carrier?_carrierFailed {b : Nat} {c : Carrier} (hc : j.carrier? b = some c) :
    (j.carrierFailed b).carrier? b = some { c with state := .failed, permille := 0 } := by
  rw [carrierFailed, carrier?_fault, carrier?_mapCarrier hc]

theorem failCarrier_of_serving {b : Nat} {c : Carrier} (hc : j.carrier? b = some c) (hs : c.state = .serving) :
    j.failCarrier b = (j.carrierFailed b).carrierLost b := by
  rw [failCarrier, hc]
  dsimp only
  rw [hs]
  rfl

theorem failCarrier_of_rebuilding {b : Nat} {c : Carrier} (hc : j.carrier? b = some c) (hs : c.state = .rebuilding) :
    j.failCarrier b = j.carrierFailed b := by
  rw [failCarrier, hc]
  dsimp only
  rw [hs]
  rfl

theorem failCarrier_of_releasing {b : Nat} {c : Carrier} (hc : j.carrier? b = some c) (hs : c.state = .releasing) :
    j.failCarrier b = j.carrierFailed b := by
  rw [failCarrier, hc]
  dsimp only
  rw [hs]
  rfl

/-! ### Removal and insertion (R327, R328) -/

/-- A bay is cleared: no carrier, no programmed pages, no refused part. -/
def bayCleared (j : Jenjor) (b : Nat) : Jenjor :=
  let k := (j.mapCarrier b fun _ => emptyCarrier).setProgrammed b 0
  { k with isl := { k.isl with refusedPart := k.isl.refusedPart.set b false } }

theorem carrier?_bayCleared {b : Nat} {c : Carrier} (hc : j.carrier? b = some c) : (j.bayCleared b).carrier? b = some emptyCarrier :=
  carrier?_mapCarrier hc

theorem removeCarrier_of_quiet {b : Nat} {c : Carrier} (hc : j.carrier? b = some c) (hs : c.state = .safeToRemove ∨ c.state = .empty) :
    j.removeCarrier b = j.bayCleared b := by
  rw [removeCarrier, hc]
  dsimp only
  rcases hs with hs | hs <;> rw [hs] <;> rfl

theorem insertCarrier_vc16 (b : Nat) {id : CarrierId} (h : id.vc16 = true) :
    j.insertCarrier b id = (j.mapCarrier b fun _ => carrierOf .rebuilding id).setProgrammed b id.programmed := if_pos h

theorem insertCarrier_other {b : Nat} {id : CarrierId} (h : id.vc16 = false) :
    j.insertCarrier b id = (let k := j.mapCarrier b fun c => { c with refuse := 3 }
      { k with isl := { k.isl with refusedPart := k.isl.refusedPart.set b true } }) := by
  rw [insertCarrier, h]
  rfl

/-! ### Page reads (R314) -/

/-- A page's counter at `off` is counted and logged for its carrier. -/
def pageNoted (j : Jenjor) (page c off : Nat) : Jenjor :=
  (j.count blkVLT off).fault 1 blkVLT c off (page * 16384) 0 0

/-- What only counts and logs, after what only counts and logs, only counts and logs. -/
theorem counted_trans {k m : Jenjor} (hk : k = { j with ctrs := k.ctrs, log := k.log })
    (hm : m = { k with ctrs := m.ctrs, log := m.log }) : m = { j with ctrs := m.ctrs, log := m.log } :=
  hm.trans (by rw [hk])

/-- A page decoded at a level: nothing at the first, noted on its carrier at a later one. -/
def pageDecoded (j : Jenjor) (page c lvl : Nat) : Jenjor :=
  if lvl = 0 then j else j.pageNoted page c (0x120 + c * 0x40)

section
variable (j : Jenjor) (page c off : Nat)

theorem pageNoted_eq : j.pageNoted page c off = (j.count blkVLT off).record 1 blkVLT c off (page * 16384) 0 0 :=
  fault_eq_record _ _ _ _ _ _ _ _ (by decide)

theorem pageNoted_count {a : Nat} (h : a = 0x90000 + off) (ha : a < 0xF0000) :
    ((j.pageNoted page c off).counter a).count = (j.counter a).count + 1 := by
  rw [pageNoted_eq, counter_record _ _ _ _ _ _ _ _ _ (by omega), count, show blkBase blkVLT + off = a from h.symm,
    counter_bump, if_pos rfl]
  rfl

theorem pageNoted_counter_ne {a : Nat} (h : a ≠ 0x90000 + off) (ha : a < 0xF0000) :
    (j.pageNoted page c off).counter a = j.counter a := by
  rw [pageNoted_eq, counter_record _ _ _ _ _ _ _ _ _ (by omega)]
  exact counter_bump_ne _ _ _ _ h

theorem pageNoted_head : (j.pageNoted page c off).log.head = j.log.head + 1 := by
  rw [pageNoted_eq, record_head]
  rfl

theorem pageNoted_frame : j.pageNoted page c off =
    { j with ctrs := (j.pageNoted page c off).ctrs, log := (j.pageNoted page c off).log } := by
  rw [pageNoted_eq]
  apply Jenjor.eq_of_fields <;> simp

variable (lvl : Nat)

theorem pageDecoded_count (hc : c < 4) : ((j.pageDecoded page c lvl).counter (0x90120 + c * 0x40)).count
    = (j.counter (0x90120 + c * 0x40)).count + BitVec.ofNat 48 (if lvl = 0 then 0 else 1) := by
  unfold pageDecoded
  split
  · exact (BitVec.add_zero _).symm
  · exact pageNoted_count _ _ _ _ (by omega) (by omega)

theorem pageDecoded_counter_ne {a : Nat} (h : a ≠ 0x90120 + c * 0x40) (ha : a < 0xF0000) :
    (j.pageDecoded page c lvl).counter a = j.counter a := by
  unfold pageDecoded
  split
  · rfl
  · exact pageNoted_counter_ne _ _ _ _ (by omega) ha

theorem pageDecoded_head : (j.pageDecoded page c lvl).log.head = j.log.head + if lvl = 0 then 0 else 1 := by
  unfold pageDecoded
  split
  · rfl
  · exact pageNoted_head ..

theorem pageDecoded_frame : j.pageDecoded page c lvl =
    { j with ctrs := (j.pageDecoded page c lvl).ctrs, log := (j.pageDecoded page c lvl).log } := by
  unfold pageDecoded
  split
  · rfl
  · exact pageNoted_frame ..

theorem carrier?_pageDecoded (b : Nat) : (j.pageDecoded page c lvl).carrier? b = j.carrier? b :=
  carrier?_of_vlt (by rw [pageDecoded_frame]) b

variable {c lvl} in
theorem decodePage_of_level (hc : (j.carrier? c).any readable = true) (hl : lvl ≤ 7) :
    j.decodePage page c (some lvl) = (j.pageDecoded page c lvl, true) := by
  have hlevel : (some lvl).filter (· ≤ 7) = some lvl := by simp [hl]
  rw [decodePage, if_pos hc, hlevel]
  cases lvl <;> rfl

theorem decodePage_none : j.decodePage page c none = (j, false) := by
  rw [decodePage]
  split <;> simp_all

end

theorem pageCarriers_bounds (page : Nat) :
    (pageCarriers page).1 < 4 ∧ (pageCarriers page).2 < 4 ∧ (pageCarriers page).1 ≠ (pageCarriers page).2 := by
  have hbay : ∀ p < 4, ∀ r < 3, ((List.range 4).filter fun c => c != p).getD r 0 < 4 ∧
      p ≠ ((List.range 4).filter fun c => c != p).getD r 0 := by decide
  have h := hbay (page / 3 % 4) (by omega) (page % 3) (by omega)
  exact ⟨by unfold pageCarriers; dsimp only; omega, h.1, h.2⟩

/-- The three other bays, in ascending order (R314 step 3). -/
theorem otherBays {own : Nat} (h : own < 4) : ∃ a b c, ((List.range 4).filter fun k => k != own) = [a, b, c] ∧
    a < b ∧ b < c ∧ c < 4 ∧ a ≠ own ∧ b ≠ own ∧ c ≠ own := by
  interval_cases own <;> exact ⟨_, _, _, rfl, by decide⟩

theorem decodeOthers_of_none {page : Nat} {levels : List (Option Nat)} (hlen : levels.length = 3) (h : ∀ x ∈ levels, x = none) :
    j.decodeOthers page levels = (j, false) := by
  obtain ⟨a, b, c, hbays, -⟩ := otherBays (pageCarriers_bounds page).2.1
  obtain rfl : levels = List.replicate 3 none := List.eq_replicate_iff.mpr ⟨hlen, h⟩
  simp only [decodeOthers, hbays]
  simp [List.range_succ, decodePage_none]

theorem decodeOthers_of_levels {page l0 l1 l2 a b c : Nat} (hr : ∀ k, k < 4 → (j.carrier? k).any readable = true)
    (hbays : ((List.range 4).filter fun k => k != (pageCarriers page).2) = [a, b, c]) (ha : a < 4) (hb : b < 4) (hc : c < 4)
    (h0 : l0 ≤ 7) (h1 : l1 ≤ 7) (h2 : l2 ≤ 7) : j.decodeOthers page [some l0, some l1, some l2]
      = (((j.pageDecoded page a l0).pageDecoded page b l1).pageDecoded page c l2, true) := by
  simp only [decodeOthers, hbays, show (List.range 3).zip [a, b, c] = [(0, a), (1, b), (2, c)] from rfl, List.foldl_cons, List.foldl_nil,
    List.getD_cons_zero, List.getD_cons_succ]
  rw [decodePage_of_level _ _ (hr a ha) h0, decodePage_of_level _ _ (by rw [carrier?_pageDecoded]; exact hr b hb) h1,
    decodePage_of_level _ _ (by rw [carrier?_pageDecoded, carrier?_pageDecoded]; exact hr c hc) h2]
  rfl

theorem injectsPage_of_disarmed {page : Nat} (h : j.see.arm = false) : j.injectsPage page = false := by
  simp [injectsPage, injects, h]

/-- A page whose own read fails at every level is rebuilt where the other three decode. -/
theorem readPage_rebuilt {page : Nat} {levels : List (Option Nat)} {rd : VaultReader} {k : Jenjor}
    (h : j.decodeOthers page levels = (k, true)) : j.readPage page none levels rd =
      k.pageNoted page (pageCarriers page).2 (0x128 + (pageCarriers page).2 * 0x40) := by
  simp only [readPage, decodePage_none, h]
  rfl

theorem readPage_lost {page : Nat} {levels : List (Option Nat)} {rd : VaultReader} {k : Jenjor}
    (h : j.decodeOthers page levels = (k, false)) : j.readPage page none levels rd =
      (k.count blkVLT 0x10).uncorrectablePage page rd := by
  simp only [readPage, decodePage_none, h]
  rfl

theorem readPage_of_level {page lvl : Nat} (levels : List (Option Nat)) (rd : VaultReader)
    (hc : (j.carrier? (pageCarriers page).2).any readable = true) (hl : lvl ≤ 7) :
    j.readPage page (some lvl) levels rd = j.pageDecoded page (pageCarriers page).2 lvl := by
  simp only [readPage, decodePage_of_level _ _ hc hl]
  rfl

theorem bufferCounts_of_idle (hj : j.wr.journal = []) (hm : j.mirrored = false) : j.bufferCounts = j := by
  have hempty : (j.mapJournal (fun e => j.wr.buffer.contains e.jr.seq) fun e => { e with localDurable := true }) = j := by
    rw [mapJournal, hj, show updWhere (fun e : JEntry => j.wr.buffer.contains e.jr.seq)
      (fun e => { e with localDurable := true }) [] = j.wr.journal from hj.symm]
  simp only [bufferCounts, hempty, hm, Bool.false_eq_true, if_false]
  rw [ackReady, hj]
  split <;> rfl

end Jenjor

section
variable {s : State} (hs : s.j.live = true) {b : Nat} (hb : b < 4)
include hs

theorem exec_vaultPageRead {page : Nat} {others : List (Option Nat)} (lvl : Option Nat) (rd : VaultReader) (hp : page < 3221225472)
    (ho : others.length = 3) (hsee : s.j.see.arm = false) :
    exec (.vaultPageRead page lvl others rd) s = .next { s with j := s.j.readPage page lvl others rd } := by
  refine (if_pos (by simp [hp, ho])).trans ((onBlocks_of_live _ hs).trans ?_)
  simp only [Jenjor.injectsPage_of_disarmed hsee, Bool.false_eq_true, if_false]

theorem exec_holdupMeasure (enough : Bool) : exec (.holdupMeasure enough) s = .next { s with j := (
    let k : Jenjor := { s.j with vlt := { s.j.vlt with holdupWeak := !enough } }
    if enough then k.bufferCounts else k.info blkVLT 0 0xFFFF 0) } :=
  onBlocks_of_live (fun j : Jenjor => let k : Jenjor := { j with vlt := { j.vlt with holdupWeak := !enough } }
    if enough then k.bufferCounts else k.info blkVLT 0 0xFFFF 0) hs

include hb
open Jenjor

theorem exec_carrierRelease : exec (.carrierRelease b) s = .next { s with j := s.j.requestRelease b } :=
  (if_pos (decide_eq_true hb)).trans (onBlocks_of_live _ hs)

theorem exec_mgmtCarrierRelease : exec (.mgmtCarrierRelease .operator b) s =
    .next { s with j := (s.j.requestRelease b).emit (.mgmt (s.j.releaseRefused b == 0) 0) } :=
  (if_pos (decide_eq_true hb)).trans (onBlocks_of_live _ hs)

theorem exec_attentionButton {ms : Nat} (h : 1000 ≤ ms) : exec (.attentionButton b ms) s =
    .next { s with j := ({ s.j.requestRelease b with isl := { (s.j.requestRelease b).isl with
      amberBlink := (s.j.requestRelease b).isl.amberBlink.set b (s.j.releaseRefused b != 0) } } : Jenjor) } :=
  (if_pos (decide_eq_true hb)).trans ((onBlocks_of_live _ hs).trans
    (congrArg (fun k => Host.Outcome.next { s with j := k }) (if_neg (Nat.not_lt.mpr h))))

theorem exec_carrierInsertion_of_empty {c : Carrier} (id : CarrierId) (ho : s.j.vlt.online = true) (hc : s.j.carrier? b = some c)
    (he : c.state = .empty) : exec (.carrierInsertion b id) s = .next { s with j := (s.j.bayCleared b).insertCarrier b id } := by
  refine (if_pos (decide_eq_true hb)).trans ((onBlocks_of_live _ hs).trans ?_)
  simp [ho, hc, he, removeCarrier_of_quiet hc (.inr he)]

theorem exec_carrierRebuildComplete {c : Carrier} (hc : s.j.carrier? b = some c) (hr : c.state = .rebuilding)
    (hf : s.j.vlt.failed = false) : exec (.carrierRebuildComplete b) s =
      .next { s with j := (s.j.mapCarrier b fun c => { c with state := .serving, permille := 1000 }).programFree b } := by
  refine (if_pos (decide_eq_true hb)).trans ((onBlocks_of_live _ hs).trans ?_)
  simp [hc, hr, hf]

theorem exec_blockRetire {c : Carrier} {pct : Nat} (hc : s.j.carrier? b = some c) (hr : readable c = true) (hp : 10 < pct) :
    exec (.blockRetire b pct) s = .next { s with j := (
      ((s.j.mapCarrier b fun c => { c with retired := (c.retired + 1) % 2 ^ 32, spare := min 100 pct }).programFree b).fault
        3 blkVLT b 0x114 0 0 0) } := by
  refine (if_pos (decide_eq_true hb)).trans ((onBlocks_of_live _ hs).trans ?_)
  have hlow : ¬(min 100 pct ≤ 10 ∧ 10 < c.spare) := by omega
  have hzero : ¬min 100 pct = 0 := by omega
  simp only [hc, hr, Bool.true_or, Bool.not_true, Bool.false_eq_true, if_false, if_neg hlow, if_neg hzero]

theorem exec_onfiChannelRetrain {c : Carrier} {ch : Nat} (fixed space : Bool) (hch : ch < 8) (hc : s.j.carrier? b = some c)
    (hr : readable c = true) (hret : ch ∉ c.chansRetired) :
    exec (.onfiChannelRetrain b ch fixed space) s = .next { s with j := (
      let k := s.j.fault 1 blkVLT b 0xFFFF 0 0 0
      let d := k.mapCarrier b fun c => { c with retrains := c.retrains.filter (· != ch) }
      if fixed then d
      else if c.retrains.count ch < 2 then k.mapCarrier b fun c => { c with retrains := ch :: c.retrains }
      else if space then ((d.mapCarrier b fun c => { c with chansRetired := ch :: c.chansRetired }).fault 3 blkVLT b 0xFFFF 0 0 0).cutGrants
      else d.failCarrier b) } := by
  refine (if_pos (by simp [bayOk, hb, hch])).trans ((onBlocks_of_live _ hs).trans ?_)
  have hcont : c.chansRetired.contains ch = false := by simpa using hret
  simp only [hc, hr, hcont, Bool.not_true, Bool.or_self, Bool.false_eq_true, if_false]

theorem exec_carrierOvertemp (temp : Nat) : exec (.carrierOvertemp b temp) s = .next { s with j := (
    let k := s.j.mapCarrier b fun c => { c with temp := temp }
    if 85 < temp then k.failCarrier b else k) } :=
  (if_pos (decide_eq_true hb)).trans (onBlocks_of_live _ hs)

theorem exec_carrierFailure : exec (.carrierFailure b) s = .next { s with j := s.j.failCarrier b } :=
  (if_pos (decide_eq_true hb)).trans (onBlocks_of_live _ hs)

end

theorem xor_cancels (x y z : Byte) : ((x ^^^ y) ^^^ z) ^^^ y ^^^ z = x ∧ (x ^^^ ((x ^^^ y) ^^^ z)) ^^^ z = y ∧
    (x ^^^ y) ^^^ ((x ^^^ y) ^^^ z) = z := by
  refine ⟨?_, ?_, ?_⟩ <;> ext i hi <;> simp only [BitVec.getElem_xor] <;> cases x[i] <;> cases y[i] <;> cases z[i] <;> rfl

/-- Bytewise, a page is the exclusive-or of the other three of its stripe (R311, R314 step 3). -/
theorem parityPage_rebuilds : ∀ {a b c : List Byte}, a.length = b.length → b.length = c.length →
    parityPage (parityPage a b c) b c = a ∧ parityPage a (parityPage a b c) c = b ∧ parityPage a b (parityPage a b c) = c
  | [], [], [], _, _ => ⟨rfl, rfl, rfl⟩
  | x :: a, y :: b, z :: c, hab, hbc => by
    obtain ⟨h1, h2, h3⟩ := parityPage_rebuilds (Nat.succ.inj hab) (Nat.succ.inj hbc)
    obtain ⟨hx, hy, hz⟩ := xor_cancels x y z
    simp only [parityPage, xorPage, List.zipWith_cons_cons] at h1 h2 h3 ⊢
    rw [h1, h2, h3, hx, hy, hz]
    exact ⟨rfl, rfl, rfl⟩

open Jenjor in
/-- Settles O29: a carrier by its state, a page by the levels that decode it. -/
theorem vaultCarriersReadsAndWear : Obligations.VaultCarriersReadsAndWear := by
  unfold Obligations.VaultCarriersReadsAndWear
  refine ⟨fun s b c hs hb hc ho hd hserv => ?_, fun s b c hs hb hc hno => ?_, fun s b hs hb => ⟨fun r hr => ?_, fun ms hms => ?_⟩,
    fun s b c hs hb hc => ⟨fun hst => ?_, fun hst => ?_, fun hst => ?_, fun hst => ?_, fun hst hf => ?_⟩,
    fun s b id c hs hb ho hc he => ⟨fun hv => ?_, fun hv => ?_⟩, fun s b hb => ?_,
    fun s page others rd x hs hp hlen hsee hx hr => ⟨?_, fun lvl h1 h7 => ?_⟩,
    fun s page l0 l1 l2 rd hs hp hsee hr h0 h1 h2 => ?_,
    fun s page others rd hs hp hlen hsee hnone => ?_, fun a b c hab hbc => parityPage_rebuilds hab hbc, pageCarriers_bounds,
    fun s b pct c hs hb hc hr hp => ?_,
    fun s b ch space c hs hb hch hc hr hret => ⟨?_, fun hfew => ?_, fun hmany => ?_⟩,
    fun s b temp c hs hb hc => ⟨fun ht => ?_, fun ht hst => ?_⟩, fun s hs => ?_, fun s hs hj hf hm => ?_⟩
  · have hfree := releaseRefused_of_free ho hd
    refine ⟨s.j.releasing b, ⟨?_, ?_, fun ms hms => ?_⟩, ?_, record_head .., ?_⟩
    · rw [exec_carrierRelease hs hb, requestRelease_of_serving hc hserv hfree]
    · rw [exec_mgmtCarrierRelease hs hb, requestRelease_of_serving hc hserv hfree, hfree]
      rfl
    · rw [exec_attentionButton hs hb hms, requestRelease_of_serving hc hserv hfree, hfree]
      rfl
    · rw [releasing, info, carrier?_of_vlt (record_vlt ..), carrier?_mapCarrier hc]
    · apply Jenjor.eq_of_fields <;> simp [releasing, mapCarrier]
  · have hrefuse : s.j.requestRelease b = s.j.mapCarrier b fun c => { c with refuse := if s.j.vlt.online then 1 else 2 } := by
      rw [requestRelease_of_refused hc (releaseRefused_ne_zero hno), releaseRefused_of_not_free hno]
    refine ⟨?_, ?_, fun ms hms => ?_⟩
    · rw [exec_carrierRelease hs hb, hrefuse]
    · rw [exec_mgmtCarrierRelease hs hb, hrefuse, beq_eq_false_iff_ne.mpr (releaseRefused_ne_zero hno)]
    · rw [exec_attentionButton hs hb hms, hrefuse, bne_iff_ne.mpr (releaseRefused_ne_zero hno)]
  · refine (if_pos (decide_eq_true hb)).trans ((onBlocks_of_live _ hs).trans ?_)
    simp [hr]
  · refine (if_pos (decide_eq_true hb)).trans ((onBlocks_of_live _ hs).trans ?_)
    rw [if_pos hms]
  · refine (if_pos (decide_eq_true hb)).trans ((onBlocks_of_live _ hs).trans ?_)
    simp [hc, hst]
  · refine ⟨_, (if_pos (decide_eq_true hb)).trans (onBlocks_of_live _ hs), ?_⟩
    dsimp only
    rw [removeCarrier_of_quiet hc (.inl hst)]
    exact ⟨carrier?_bayCleared hc, counter_setProgrammed _ b 0, rfl⟩
  · exact ⟨s.j.carrierFailed b, by rw [exec_carrierFailure hs hb, failCarrier_of_serving hc hst], carrier?_carrierFailed hc,
      fault_errClass_vault ..⟩
  · rw [exec_carrierFailure hs hb, failCarrier_of_rebuilding hc hst]
    exact ⟨_, rfl, carrier?_carrierFailed hc, fault_errClass_vault ..⟩
  · rw [exec_carrierRebuildComplete hs hb hc hst hf]
    exact ⟨_, rfl, carrier?_mapCarrier hc, rfl, rfl⟩
  · rw [exec_carrierInsertion_of_empty hs hb id ho hc he, insertCarrier_vc16 b hv]
    exact ⟨_, rfl, carrier?_mapCarrier (carrier?_bayCleared hc), congrArg Ctr.count (counter_setProgrammed ..), rfl⟩
  · rw [exec_carrierInsertion_of_empty hs hb id ho hc he, insertCarrier_other hv]
    exact ⟨_, rfl, carrier?_mapCarrier (carrier?_bayCleared hc), List.set_set ..⟩
  · have hbay : ¬bayOk b = true := by simpa [bayOk] using hb
    exact ⟨if_neg hbay, if_neg hbay⟩
  · rw [exec_vaultPageRead hs _ rd hp hlen hsee, readPage_of_level others rd (by rw [hx]; exact hr) (by decide)]
    rfl
  · rw [exec_vaultPageRead hs _ rd hp hlen hsee, readPage_of_level others rd (by rw [hx]; exact hr) h7]
    have hlvl : lvl ≠ 0 := by omega
    refine ⟨_, rfl, ?_, ?_, congrArg (fun k => { s with j := k }) (pageDecoded_frame ..)⟩
    · refine (pageDecoded_count _ _ _ _ (pageCarriers_bounds page).2.1).trans ?_
      rw [if_neg hlvl]
      rfl
    · exact (pageDecoded_head ..).trans (by rw [if_neg hlvl])
  · obtain ⟨a, b, c, hbays, hab, hbc, hc4, ha, hb, hc⟩ := otherBays (pageCarriers_bounds page).2.1
    have hown := (pageCarriers_bounds page).2.1
    rw [exec_vaultPageRead hs _ rd hp rfl hsee,
      readPage_rebuilt (decodeOthers_of_levels hr hbays (by omega) (by omega) hc4 h0 h1 h2)]
    simp only [hbays]
    refine ⟨_, rfl, ?_, fun i hi => ?_, ?_, congrArg (fun k => { s with j := k }) ?_⟩
    · dsimp only
      rw [pageNoted_count _ _ _ _ (by omega) (by omega), pageDecoded_counter_ne _ _ _ _ (by omega) (by omega),
        pageDecoded_counter_ne _ _ _ _ (by omega) (by omega), pageDecoded_counter_ne _ _ _ _ (by omega) (by omega)]
    · dsimp only
      have hfar : ∀ x, x < 4 → 0x90120 + x * 0x40 ≠ 0x90000 + (0x128 + (pageCarriers page).2 * 0x40) := by omega
      interval_cases i <;> simp only [List.getD_cons_zero, List.getD_cons_succ]
      · rw [pageNoted_counter_ne _ _ _ _ (hfar a (by omega)) (by omega), pageDecoded_counter_ne _ _ _ _ (by omega) (by omega),
          pageDecoded_counter_ne _ _ _ _ (by omega) (by omega), pageDecoded_count _ _ _ _ (by omega)]
      · rw [pageNoted_counter_ne _ _ _ _ (hfar b (by omega)) (by omega), pageDecoded_counter_ne _ _ _ _ (by omega) (by omega),
          pageDecoded_count _ _ _ _ (by omega), pageDecoded_counter_ne _ _ _ _ (by omega) (by omega)]
      · rw [pageNoted_counter_ne _ _ _ _ (hfar c (by omega)) (by omega), pageDecoded_count _ _ _ _ (by omega),
          pageDecoded_counter_ne _ _ _ _ (by omega) (by omega), pageDecoded_counter_ne _ _ _ _ (by omega) (by omega)]
    · dsimp only
      rw [pageNoted_head, pageDecoded_head, pageDecoded_head, pageDecoded_head]
      omega
    · exact counted_trans (counted_trans (counted_trans (pageDecoded_frame ..) (pageDecoded_frame ..)) (pageDecoded_frame ..))
        (pageNoted_frame ..)
  · rw [exec_vaultPageRead hs _ rd hp hlen hsee, readPage_lost (decodeOthers_of_none hlen hnone)]
  · rw [exec_blockRetire hs hb hc hr hp]
    refine ⟨_, rfl, (carrier?_fault ..).trans (carrier?_mapCarrier hc), fault_errClass_vault .., ?_, fault_cat ..⟩
    dsimp only
    rw [fault_vlt]
    rfl
  · rw [exec_onfiChannelRetrain hs hb true space hch hc hr hret]
    exact ⟨_, rfl, carrier?_mapCarrier ((carrier?_fault ..).trans hc), fault_one_head ..⟩
  · rw [exec_onfiChannelRetrain hs hb false space hch hc hr hret]
    simp only [hfew, Bool.false_eq_true, if_false, if_true]
    exact ⟨_, rfl, carrier?_mapCarrier ((carrier?_fault ..).trans hc), fault_one_head ..⟩
  · rw [exec_onfiChannelRetrain hs hb false true hch hc hr hret]
    simp only [Nat.not_lt.mpr hmany, Bool.false_eq_true, if_false, if_true]
    refine ⟨_, rfl, ?_, ?_⟩
    · refine (carrier?_of_vlt (cutGrants_vlt _) b).trans ((carrier?_fault ..).trans ?_)
      rw [carrier?_mapCarrier (carrier?_mapCarrier ((carrier?_fault ..).trans hc))]
    · dsimp only
      rw [cutGrants_log]
      exact fault_errClass_vault ..
  · rw [exec_carrierOvertemp hs hb]
    simp only [Nat.not_lt.mpr ht, if_false]
  · rw [exec_carrierOvertemp hs hb]
    simp only [ht, if_true]
    rw [failCarrier_of_releasing (carrier?_mapCarrier hc) hst]
    exact ⟨_, rfl, carrier?_carrierFailed (carrier?_mapCarrier hc)⟩
  · rw [exec_holdupMeasure hs]
    exact ⟨_, rfl, by simp, record_head .., by simp⟩
  · rw [exec_holdupMeasure hs]
    simp only [Bool.not_true, if_true]
    rw [bufferCounts_of_idle (j := { s.j with vlt := { s.j.vlt with holdupWeak := false } }) hj hm]
    exact ⟨_, rfl, rfl, rfl⟩

end Sys2Proof.Machine
end


section
namespace Sys2Proof.Machine
open Jenjor

/-! ### What a module in reset or without power keeps (R219, R434, R457) -/

theorem endFlush_frame (j : Jenjor) (us : Nat) : j.endFlush us = { j with
    ctrs := (j.endFlush us).ctrs, vlt := { j.vlt with flushMark := true, holdupLast := us % 2 ^ 32 } } := by
  rw [endFlush, programStripes_frame]

/-- A module shut down with the catalogue, the fuses and the Almanac of `s` keeps what a reset keeps. -/
theorem keptThroughReset_of_shutDown {s : State} {j : Jenjor} (flushed : Bool) (mem m : List Host.Cell) (i : IslState)
    (hcat : j.cat = s.j.cat) (hwr : j.wr = s.j.wr) (hdom : j.dom = s.j.dom) (halm : j.alm = s.j.alm) :
    keptThroughReset s { s with mem := m, rmem := [], j := { (shutDown flushed mem j).2 with isl := i } } := by
  refine ⟨rfl, rfl, rfl, rfl, rfl, rfl, rfl, rfl, rfl, rfl, ?_, ?_, ?_, ?_, ?_, ?_, ?_, rfl, ?_, ?_, ?_⟩
  · rw [← hcat]
    exact List.map_map
  · rw [← hcat]
    exact List.map_map
  · exact (congrArg CatState.seq hcat :)
  · exact (congrArg WriteState.epoch hwr :)
  · exact (congrArg DomState.sealedRec hdom :)
  · exact (congrArg DomState.life hdom :)
  · exact (congrArg DomState.secverFuses hdom :)
  · exact (congrArg AlmState.floor halm :)
  · exact (congrArg (fun a => keptDevice a.primary) halm :)
  · exact (congrArg (fun a => keptDevice a.alternate) halm :)

/-- A journal record kept has been published, or the vault holds it. -/
theorem mem_keptEntries {j : Jenjor} {flushed : Bool} {x : JEntry} (h : x ∈ j.keptEntries flushed) : ∃ e ∈ j.wr.journal, x.jr = e.jr ∧
    (e.published = true ∨ e.programmed = true ∨ flushed = true) := by
  obtain ⟨e, he, rfl⟩ := List.mem_map.mp h
  obtain ⟨hmem, hkept⟩ := List.mem_filter.mp he
  refine ⟨e, hmem, rfl, ?_⟩
  simp only [Bool.and_eq_true, Bool.or_eq_true] at hkept
  tauto

/-- A record durable in the buffer is kept where the buffer was flushed. -/
theorem keptEntries_of_durable {j : Jenjor} {e : JEntry} (he : e ∈ j.wr.journal) (hd : e.discarded = false)
    (hl : e.localDurable = true) : ∃ x ∈ j.keptEntries true, x.jr = e.jr :=
  ⟨_, List.mem_map_of_mem (List.mem_filter.mpr ⟨he, by simp [hd, hl]⟩), rfl⟩

theorem shutDown_journal (flushed : Bool) (mem : List Host.Cell) (j : Jenjor) :
    (shutDown flushed mem j).2.wr.journal.map (fun e => e.jr) = (j.keptEntries flushed).map fun e => e.jr := List.map_map

/-- A record of the journal after a shutdown is a kept one, and the reverse. -/
theorem exists_shutDown_journal (flushed : Bool) (mem : List Host.Cell) (j : Jenjor) (r : JRec) :
    (∃ x ∈ (shutDown flushed mem j).2.wr.journal, x.jr = r) ↔ ∃ x ∈ j.keptEntries flushed, x.jr = r := by
  rw [← List.mem_map, shutDown_journal, List.mem_map]

section
variable {s : State}

theorem exec_powerGood_of_off (straps : BitVec 3) (h : s.j.isl.power = .off) : exec (.powerGood straps) s =
    .next { s with rmem := [], j :=
      let k : Jenjor := { s.j with isl := { s.j.isl with straps := straps, pwrLossLow := false } }
      if s.j.isl.resetLow then { k with isl := { k.isl with power := .resetHeld } } else k.beginStart } := by
  refine (if_pos (.inl h)).trans ?_
  simp only [onPower, h, if_true]

theorem exec_powerLoss_of_powered (h : s.j.isl.power = .on ∨ s.j.isl.power = .starting) :
    exec .powerLoss s = .next { s with j := s.j.beginFlush true } := by
  rcases h with h | h <;> simp only [exec, execPowerLoss, h]

theorem exec_powerLoss_of_unpowered (h : s.j.isl.power = .off ∨ s.j.isl.power = .flushing) : exec .powerLoss s = .next s := by
  rcases h with h | h <;> simp only [exec, execPowerLoss, h]

theorem exec_holdupFlushComplete_back (us : Nat) (h : s.j.isl.power = .flushing) (hm : s.j.vlt.flushMark = false) :
    exec (.holdupFlushComplete us true) s = .next { s with
      mem := (shutDown true s.mem (s.j.endFlush us)).1, rmem := [],
      j := (let k := (shutDown true s.mem (s.j.endFlush us)).2
        { k with isl := { k.isl with power := if s.j.isl.resetLow then .resetHeld else .off } }) } :=
  (if_pos ⟨h, by simp [hm]⟩).trans (if_pos rfl)

theorem exec_modRstRise_of_on (ns : Nat) (h : s.j.isl.power = .on) (hr : s.j.isl.resetLow = false) : exec (.modRstRise ns) s =
    if 50 ≤ ns && ns < 10000000 && s.j.live then .next { s with j := s.j.info blkISL 0 0xFFFF ns } else .next s := by
  simp only [exec, execModRstRise, h, hr, Bool.false_eq_true, if_false]

end

/-- Settles O46: each event by the state of the power, what is kept by the one lemma about a shutdown. -/
theorem powerAndReset : Obligations.PowerAndReset := by
  unfold Obligations.PowerAndReset
  refine ⟨fun s straps => ⟨fun h hr => ?_, fun h hr => ?_, fun h => ?_⟩, fun s => ⟨fun h => ?_, exec_powerLoss_of_unpowered⟩,
    fun s us h hm => ⟨?_, ?_⟩, fun s => ⟨fun h => ?_, fun h => if_pos h⟩, fun s => ⟨fun h => ?_, fun h hstep => ?_, fun h => ?_⟩,
    fun s ns => ⟨fun h => ?_, fun h hr h50 h10 hlive => ?_, fun h hr h50 => ?_⟩⟩
  · rw [exec_powerGood_of_off straps h, hr]
    rfl
  · rw [exec_powerGood_of_off straps h, hr]
    rfl
  · exact if_neg (by rcases h with h | h <;> simp [h])
  · rw [exec_powerLoss_of_powered h, beginFlush, Bool.or_true]
  · refine ⟨{ s with j := s.j.endFlush us }, (if_pos ⟨h, by simp [hm]⟩).trans (if_neg Bool.false_ne_true), rfl, rfl, rfl, rfl, ?_, ?_, ?_⟩
    · exact (congrArg Jenjor.cat (endFlush_frame s.j us) :)
    · exact (congrArg Jenjor.wr (endFlush_frame s.j us) :)
    · exact (congrArg Jenjor.isl (endFlush_frame s.j us) :)
  · have hframe := endFlush_frame s.j us
    refine ⟨_, exec_holdupFlushComplete_back us h hm, keptThroughReset_of_shutDown true _ _ _ ?_ ?_ ?_ ?_, rfl, rfl, rfl, fun e he hd hl => ?_⟩
    iterate 4
      · rw [hframe]
    · have hkept : e ∈ (s.j.endFlush us).wr.journal := by
        rw [hframe]
        exact he
      exact (exists_shutDown_journal true s.mem (s.j.endFlush us) e.jr).mpr (keptEntries_of_durable hkept hd hl)
  · have hflushed : (s.j.isl.power == Power.flushing && s.j.vlt.flushMark) = false := by simp [h]
    refine ⟨_, (if_neg (by simp [h])).trans rfl, keptThroughReset_of_shutDown _ s.mem _ _ rfl rfl rfl rfl, rfl, fun x hx => ?_⟩
    obtain ⟨y, hy, hxy⟩ := (exists_shutDown_journal _ s.mem _ _).mp ⟨x, hx, rfl⟩
    obtain ⟨e, he, hjr, hkept⟩ := mem_keptEntries hy
    rw [hflushed] at hkept
    exact ⟨e, he, hxy.symm.trans hjr, by simpa using hkept⟩
  · simp only [exec, execModRstTimeout, h, beginFlush, Bool.or_false]
  · have habandon : (decide (s.j.alm.step < 7) || decide (s.j.alm.step = 9)) = true := by simp [hstep]
    simp only [exec, execModRstTimeout, h, habandon, if_true]
    exact ⟨_, rfl, keptThroughReset_of_shutDown true _ _ _ rfl rfl rfl rfl, rfl, rfl⟩
  · simp only [exec, execModRstTimeout, h]
  · simp only [exec, execModRstRise, h]
    exact ⟨_, rfl, rfl, rfl, rfl, rfl⟩
  · rw [exec_modRstRise_of_on ns h hr, if_pos (by simp [h50, h10, hlive])]
    exact ⟨_, rfl, record_head .., congrArg (fun k => { s with j := k }) (by apply Jenjor.eq_of_fields <;> simp)⟩
  · rw [exec_modRstRise_of_on ns h hr, if_neg (by simp; omega)]

end Sys2Proof.Machine
end


section
namespace Sys2Proof.Machine

/-! ### The lowest free number -/

theorem le_lowestFree (used : List Nat) : ∀ fuel n, n ≤ lowestFree used fuel n
  | 0, _ => le_rfl
  | fuel + 1, n => by
    rw [lowestFree]
    split
    · exact (Nat.le_succ n).trans (le_lowestFree used fuel (n + 1))
    · exact le_rfl

/-- A search that ends on a used number has met used numbers alone. -/
theorem used_of_lowestFree_mem {used : List Nat} : ∀ {fuel n : Nat}, lowestFree used fuel n ∈ used → ∀ m, n ≤ m → m < n + fuel → m ∈ used
  | 0, _, _, _, hn, hm => absurd hm (Nat.not_lt.mpr hn)
  | fuel + 1, n, h, m, hn, hm => by
    rw [lowestFree] at h
    split at h
    · next hused =>
      rcases Nat.eq_or_lt_of_le hn with rfl | hlt
      · exact List.contains_iff_mem.mp hused
      · exact used_of_lowestFree_mem h m hlt (by omega)
    · next hfree => exact absurd (List.contains_iff_mem.mpr h) hfree

theorem lowestFree_not_mem (used : List Nat) (n : Nat) : lowestFree used (used.length + 1) n ∉ used := by
  intro h
  have hsub : List.range' n (used.length + 1) ⊆ used := fun m hm => by
    obtain ⟨hn, hm⟩ := List.mem_range'_1.mp hm
    exact used_of_lowestFree_mem h m hn hm
  have hlen := ((List.nodup_range' ..).subperm hsub).length_le
  rw [List.length_range'] at hlen
  omega

namespace Jenjor

theorem freeQpn_fresh (j : Jenjor) : ∀ x ∈ j.lnk.qps, x.num ≠ j.freeQpn := by
  intro x hx heq
  have h := lowestFree_not_mem (j.lnk.qps.map fun p => p.num) 0x100
  rw [List.length_map] at h
  exact h (List.mem_map.mpr ⟨x, hx, heq⟩)

theorem le_freeQpn (j : Jenjor) : 0x100 ≤ j.freeQpn := le_lowestFree ..

theorem answerFrame_own (j : Jenjor) (port kind : Nat) (data : List Byte) :
    j.answerFrame port kind true data = { j with out := .ethFrame port kind data :: j.out } := rfl

end Jenjor

section
variable {s : State} (hs : s.j.live = true) {p : Nat} (hp : p < 2) (ip data : List Byte)
include hs

theorem exec_qpBindTimeout {n : Nat} {x : Qp} (h : s.j.qp? n = some x) : exec (.qpBindTimeout n) s = .next { s with j := (
    if x.state = .established && x.bound.isEmpty && !x.mergeIn && !x.route then
      ({ s.j with lnk := { s.j.lnk with qps := s.j.lnk.qps.filter fun x => x.num != n } } : Jenjor).emit (.cmMessage x.port 5 n)
    else s.j) } := by
  rw [show exec (.qpBindTimeout n) s = execQpBindTimeout n s from rfl, execQpBindTimeout, onBlocks_of_live _ hs]
  simp only [h]

theorem exec_cmRtu (n : Nat) : exec (.cmRtu n) s = .next { s with j := s.j.mapQp n fun p =>
    if p.state = .setup && p.connector.isNone then { p with state := .established, rtuAt := s.j.time } else p } :=
  onBlocks_of_live (fun j : Jenjor => j.mapQp n fun p =>
    if p.state = .setup && p.connector.isNone then { p with state := .established, rtuAt := j.time } else p) hs

theorem exec_cmDreq {n : Nat} {x : Qp} (h : s.j.qp? n = some x) :
    exec (.cmDreq n) s = .next { s with j := (s.j.emit (.cmMessage x.port 6 n)).qpError n } := by
  rw [show exec (.cmDreq n) s = execCmDreq n s from rfl, execCmDreq, onBlocks_of_live _ hs]
  simp only [h]

include hp

theorem exec_arpRequest : exec (.arpRequest p ip) s =
    .next { s with j := s.j.answerFrame p 0 (s.j.ownAddress p ip true) (ip ++ s.j.portMac p) } :=
  (if_pos (decide_eq_true hp)).trans (onBlocks_of_live _ hs)

theorem exec_neighbourSolicitation : exec (.neighbourSolicitation p ip) s =
    .next { s with j := s.j.answerFrame p 1 (s.j.ownAddress p ip false) (ip ++ s.j.portMac p) } :=
  (if_pos (decide_eq_true hp)).trans (onBlocks_of_live _ hs)

theorem exec_icmpEcho : exec (.icmpEcho p ip data) s =
    .next { s with j := s.j.answerFrame p 2 (s.j.ownAddress p ip true || s.j.ownAddress p ip false) (ip ++ data) } :=
  (if_pos (decide_eq_true hp)).trans (onBlocks_of_live _ hs)

theorem exec_ethFrameDropped : exec (.ethFrameDropped p) s = .next { s with j := s.j.dropFrame p } :=
  (if_pos (decide_eq_true hp)).trans (onBlocks_of_live _ hs)

theorem exec_cmReq_accepted {src : List Byte} {rc : Bool} {mtu : Nat} (mergeSvc : Bool) (h : s.j.reqRejected p src rc mtu = none) :
    exec (.cmReq p src rc mtu mergeSvc) s = .next { s with j :=
      (s.j.addQp { s.j.newQp p mtu .setup with mergeIn := mergeSvc }).emit (.cmMessage p 2 s.j.freeQpn) } := by
  refine (if_pos (decide_eq_true hp)).trans ((onBlocks_of_live _ hs).trans ?_)
  simp only [h]
  rfl

theorem exec_cmReq_rejected {src : List Byte} {rc : Bool} {mtu why : Nat} (mergeSvc : Bool) (h : s.j.reqRejected p src rc mtu = some why) :
    exec (.cmReq p src rc mtu mergeSvc) s =
      .next { s with j := (s.j.count blkLNK (0x110 + p * 0x80)).emit (.cmMessage p 3 why) } := by
  refine (if_pos (decide_eq_true hp)).trans ((onBlocks_of_live _ hs).trans ?_)
  simp only [h]

end

open Jenjor in
/-- Settles O32: a frame by whose address it is for, a REQ by what R344's table says of it, a queue pair by its state. -/
theorem ethernetPortsAndConnections : Obligations.EthernetPortsAndConnections := by
  unfold Obligations.EthernetPortsAndConnections
  refine ⟨fun s p ip hs hp => ⟨fun h => ?_, fun h => ?_, fun h data => ?_, fun h4 h6 data => ⟨?_, ?_, ?_⟩⟩,
    fun s p hs hp => ⟨?_, ?_, fun sp hsp => ?_⟩, fun s p hp => ?_,
    fun s port mtu src rc mergeSvc hs hp => ⟨fun h => ?_, fun why h => ?_⟩,
    fun s n p hs h => ⟨fun hset hcon => ?_, ?_, fun hest hb hm hr => ?_, fun hb => ?_⟩⟩
  · rw [exec_arpRequest hs hp, h, answerFrame_own]
  · rw [exec_neighbourSolicitation hs hp, h, answerFrame_own]
  · have hown : (s.j.ownAddress p ip true || s.j.ownAddress p ip false) = true := by simpa using h
    rw [exec_icmpEcho hs hp, hown, answerFrame_own]
  · rw [exec_arpRequest hs hp, exec_ethFrameDropped hs hp, h4]
    rfl
  · rw [exec_neighbourSolicitation hs hp, exec_ethFrameDropped hs hp, h6]
    rfl
  · rw [exec_icmpEcho hs hp, exec_ethFrameDropped hs hp, h4, h6]
    rfl
  · exact ⟨_, exec_ethFrameDropped hs hp, count_port (by omega), rfl⟩
  · exact (if_pos (decide_eq_true hp)).trans (onBlocks_of_live _ hs)
  · have hspeed : (portOk p && (sp == 1 || sp == 2)) = true := by simp [portOk, hp, hsp]
    exact (if_pos hspeed).trans (onBlocks_of_live _ hs)
  · have hport : ¬portOk p = true := by simp [portOk, Nat.not_lt.mpr hp]
    exact ⟨if_neg hport, if_neg hport⟩
  · exact ⟨_, { s.j.newQp port mtu .setup with mergeIn := mergeSvc }, exec_cmReq_accepted hs hp mergeSvc h, rfl, freeQpn_fresh s.j, le_freeQpn s.j, rfl, rfl, rfl, rfl, rfl, rfl, rfl⟩
  · exact ⟨_, exec_cmReq_rejected hs hp mergeSvc h, rfl, count_port (by omega), rfl⟩
  · rw [exec_cmRtu hs]
    refine ⟨_, rfl, ?_, rfl⟩
    refine (qp?_mapQp_of_some (fun x => ?_) h).trans ?_
    · split <;> rfl
    · simp [hset, hcon]
  · exact exec_cmDreq hs h
  · rw [exec_qpBindTimeout hs h]
    simp [hest, hb, hm, hr, emit]
  · rw [exec_qpBindTimeout hs h]
    simp [hb]

end Sys2Proof.Machine
end


section
namespace Sys2Proof.Machine

/-! ### Sorted lists -/

section
variable {α : Type} {le : α → α → Bool} (htrans : ∀ a b c, le a b = true → le b c = true → le a c = true)
  (htotal : ∀ a b, le a b = true ∨ le b a = true)
include htrans htotal

theorem insertBy_pairwise (x : α) : ∀ {l : List α}, l.Pairwise (fun a b => le a b = true) → (insertBy le x l).Pairwise (fun a b => le a b = true)
  | [], _ => List.pairwise_singleton _ _
  | y :: ys, h => by
    obtain ⟨hy, hys⟩ := List.pairwise_cons.mp h
    rw [insertBy]
    split
    · next hxy => exact List.pairwise_cons.mpr ⟨List.forall_mem_cons.mpr ⟨hxy, fun z hz => htrans x y z hxy (hy z hz)⟩, h⟩
    · next hxy =>
      refine List.pairwise_cons.mpr ⟨fun z hz => ?_, insertBy_pairwise x hys⟩
      rcases List.mem_cons.mp ((Jenjor.insertBy_perm le x ys).mem_iff.mp hz) with rfl | hz
      · exact (htotal z y).resolve_left hxy
      · exact hy z hz

theorem sortBy_pairwise : ∀ l : List α, (sortBy le l).Pairwise fun a b => le a b = true
  | [] => .nil
  | x :: xs => insertBy_pairwise htrans htotal x (sortBy_pairwise xs)

end

/-! ### The order of R366 -/

/-- The place of a merged entry with an integer key: that of R131, then its shard. -/
def mergedPlace (e : Merged) : ((WithBot (WithTop ℚ))ᵒᵈ ×ₗ ℕ) ×ₗ ℕ := toLex (rankPlace false (e.key, e.user), e.shard)

theorem mergedBefore_iff {a b : Merged} : mergedBefore false a b = true ↔ mergedPlace a < mergedPlace b := by
  have hrank : ∀ x y : Merged, ranksBefore false (x.key, x.user) (y.key, y.user) = true ↔
      rankPlace false (x.key, x.user) < rankPlace false (y.key, y.user) := fun x y =>
    ranksBefore_iff_rankPlace (fun h => absurd h Bool.false_ne_true) fun h => absurd h Bool.false_ne_true
  simp only [mergedBefore, Bool.or_eq_true, Bool.and_eq_true, Bool.not_eq_true', ← Bool.not_eq_true, decide_eq_true_eq, hrank,
    mergedPlace, Prod.Lex.toLex_lt_toLex, not_lt]
  constructor
  · rintro (h | ⟨hle, hs⟩)
    · exact .inl h
    · exact hle.lt_or_eq.imp id fun heq => ⟨heq, hs⟩
  · exact Or.imp id fun ⟨heq, hs⟩ => ⟨heq.le, hs⟩

theorem mergedBefore_eq_false_iff {a b : Merged} : mergedBefore false a b = false ↔ mergedPlace b ≤ mergedPlace a := by
  rw [← Bool.not_eq_true, mergedBefore_iff, not_lt]

/-- The entries of all present shards. -/
def shardEntries (rs : List (Nat × List Byte)) : List Merged :=
  rs.flatMap fun r => (List.range (recCount r.2)).map fun i =>
    { key := (recEntry r.2 i).1, user := (recEntry r.2 i).2.1, flags := (recEntry r.2 i).2.2, shard := r.1 }

theorem mergeEntries_eq (fp : Bool) (k : Nat) (rs : List (Nat × List Byte)) :
    mergeEntries fp k rs = (sortBy (fun a b => !mergedBefore fp b a) (shardEntries rs)).take k := rfl

theorem shardEntries_length (rs : List (Nat × List Byte)) : (shardEntries rs).length = natSum (rs.map fun r => recCount r.2) := by
  induction rs with
  | nil => rfl
  | cons r rs ih =>
    rw [List.map_cons, natSum_cons, ← ih, shardEntries, List.flatMap_cons, List.length_append, List.length_map, List.length_range]
    rfl

theorem mergeEntries_length (k : Nat) (rs : List (Nat × List Byte)) :
    (mergeEntries false k rs).length = min k (natSum (rs.map fun r => recCount r.2)) := by
  rw [mergeEntries_eq, List.length_take, (Jenjor.sortBy_perm _ _).length_eq, shardEntries_length]

theorem mergeEntries_ordered (k : Nat) (rs : List (Nat × List Byte)) :
    (mergeEntries false k rs).Pairwise fun a b => mergedBefore false b a = false := by
  have hle : ∀ a b : Merged, (!mergedBefore false b a) = true ↔ mergedPlace a ≤ mergedPlace b := fun a b => by
    rw [Bool.not_eq_true', mergedBefore_eq_false_iff]
  have hsorted := sortBy_pairwise (le := fun a b => !mergedBefore false b a)
    (fun a b c hab hbc => (hle a c).mpr (((hle a b).mp hab).trans ((hle b c).mp hbc)))
    (fun a b => (le_total (mergedPlace a) (mergedPlace b)).imp (hle a b).mpr (hle b a).mpr) (shardEntries rs)
  exact (hsorted.imp fun h => by simpa using h).sublist (List.take_sublist k _)

theorem mergeEntries_of_present {k : Nat} {rs : List (Nat × List Byte)} {e : Merged} (h : e ∈ mergeEntries false k rs) :
    ∃ r ∈ rs, ∃ i, i < recCount r.2 ∧ e.shard = r.1 ∧ recEntry r.2 i = (e.key, e.user, e.flags) := by
  have hmem : e ∈ shardEntries rs := (Jenjor.sortBy_perm _ _).mem_iff.mp (List.mem_of_mem_take h)
  obtain ⟨r, hr, hmem⟩ := List.mem_flatMap.mp hmem
  obtain ⟨i, hi, rfl⟩ := List.mem_map.mp hmem
  exact ⟨r, hr, i, List.mem_range.mp hi, rfl, rfl⟩

theorem resultEntry_length (user : BitVec 64) (key : KeyWord) (payload record hasPay : Bool) (shard : Nat) :
    (resultEntry user key payload record hasPay shard).length = 16 := by
  simp [resultEntry, leBytes_length]

theorem mergedRecord_length (l : ShardList) (k : Nat) (rs : List (Nat × List Byte)) (mu const : F32) :
    (mergedRecord l k rs mu const).length = 32 + 16 * (mergeEntries l.fp32 k rs).length + 512 := by
  simp [mergedRecord, resultHeader, leBytes_length, List.length_flatMap, resultEntry_length, missingMask, Nat.mul_comm]
  omega

/-- A record stands in the slot of a list at which it lands. -/
def Jenjor.placed (l : ShardList) (addr : Nat) (data : List Byte) (tag : BitVec 16) (x : ShardList) : ShardList :=
  let others := x.slots.filter fun x => !(x.1 == (Jenjor.slotAt l addr).1 && x.2.1 == (Jenjor.slotAt l addr).2.1)
  { x with slots := ((Jenjor.slotAt l addr).1, (Jenjor.slotAt l addr).2.1, tag, data) :: others }

namespace Jenjor

variable {j : Jenjor}

/-! ### Shard lists and merges -/

theorem list?_mapList_of_some {n : Nat} {l : ShardList} {f : ShardList → ShardList} (hf : ∀ x, (f x).num = x.num)
    (h : j.list? n = some l) : (j.mapList n f).list? n = some (f l) := by
  have hfind := find?_updWhere (fun x : ShardList => x.num == n) f (fun x => by rw [hf]) j.cpn.lists
  rw [show j.cpn.lists.find? (fun x => x.num == n) = some l from h] at hfind
  exact hfind

theorem openList_eq_some {n : Nat} {l : ShardList} (h : j.openList n = some l) : j.list? n = some l ∧ l.num = n ∧ l.deleting = false := by
  obtain ⟨x, hx, hopen⟩ := Option.bind_eq_some_iff.mp h
  split at hopen
  · exact absurd hopen nofun
  · next hdel =>
    obtain rfl := Option.some.inj hopen
    exact ⟨hx, by simpa using List.find?_some hx, by simpa using hdel⟩

/-- A deletion of a list is noted with its command. -/
def deletionNoted (j : Jenjor) (n : Nat) (ref : CmdRef) : Jenjor :=
  j.mapList n fun l => { l with deleting := true, deleters := l.deleters ++ [ref] }

theorem deletionNoted_list? {n : Nat} {l : ShardList} {ref : CmdRef} (h : j.openList n = some l) :
    (j.deletionNoted l.num ref).list? l.num = some { l with deleting := true, deleters := l.deleters ++ [ref] } := by
  obtain ⟨hlist, hnum, -⟩ := openList_eq_some h
  exact list?_mapList_of_some (f := fun l => { l with deleting := true, deleters := l.deleters ++ [ref] }) (fun _ => rfl) (by rw [hnum, hlist])

/-- A deletion of an open list is noted, and takes effect unless a merge holds it. -/
theorem settleList_of_merging {n : Nat} {l : ShardList} (hl : j.list? n = some l) (h : (j.cpn.merges.any fun m => m.list == n) = true) :
    j.settleList n = j := by
  rw [settleList, hl]
  exact if_pos (by rw [h, Bool.or_true])

theorem settleList_of_idle {n : Nat} {l : ShardList} (hl : j.list? n = some l) (hdel : l.deleting = true) (hdis : l.discarding = false)
    (h : (j.cpn.merges.any fun m => m.list == n) = false) : j.settleList n = l.deleters.foldl (fun j c => j.complete c .success 0 0 none)
      (j.mapList n fun l => { l with discarding := true, deleters := [], slots := [] }) := by
  rw [settleList, hl]
  exact if_neg (by simp [hdel, hdis, h])

theorem checkMerge_of_found {n t : Nat} {l : ShardList} {m : MergeOpen} (hl : j.list? n = some l)
    (hm : (j.cpn.merges.find? fun m => m.list == n && m.ticket == t) = some m) :
    j.checkMerge n t = if (present l t m.tag).length = l.count then j.finishMerge l m else j := by
  rw [checkMerge, hl, hm]

end Jenjor

section
variable {s : State} {q : Nat} {f : Fetched} {j : Jenjor}
open Jenjor

theorem exec_routeConnect (h : s.takes q 0x60 f j) : exec (.routeConnect q) s = .next { s with j := j.routeConnect f } := by
  rw [show exec (.routeConnect q) s = execRouteConnect q s from rfl, execRouteConnect, onBlocks_of_live _ h.1]
  simp only [h.2]

theorem exec_shardListDefine (h : s.takes q 0x61 f j) : exec (.shardListDefine q) s = .next { s with j := j.defineList f j.time } := by
  rw [show exec (.shardListDefine q) s = execShardListDefine q s from rfl, execShardListDefine, onBlocks_of_live _ h.1]
  simp only [h.2]

theorem exec_shardListDelete {l : ShardList} (h : s.takes q 0x62 f j) (hl : j.openList (dField f.d 8 1) = some l) :
    exec (.shardListDelete q) s = .next { s with j := (
      (j.deletionNoted l.num f.ref).settleList l.num) } := by
  rw [show exec (.shardListDelete q) s = execShardListDelete q s from rfl, execShardListDelete, onBlocks_of_live _ h.1]
  simp only [h.2, hl]
  rfl

theorem exec_mergeQuery (h : s.takes q 0x63 f j) : exec (.mergeQuery q) s = .next { s with j := j.mergeQuery f } := by
  rw [show exec (.mergeQuery q) s = execMergeQuery q s from rfl, execMergeQuery, onBlocks_of_live _ h.1]
  simp only [h.2]

section
variable (hs : s.j.live = true)
include hs

theorem exec_shardListRelease {n : Nat} {l : ShardList} (hl : s.j.list? n = some l) : exec (.shardListRelease n) s =
    .next { s with j := (if l.discarding then
      { s.j with cpn := { s.j.cpn with lists := s.j.cpn.lists.filter fun l => l.num != n } } else s.j) } := by
  rw [show exec (.shardListRelease n) s = execShardListRelease n s from rfl, execShardListRelease, onBlocks_of_live _ hs]
  simp only [hl, Option.any_some]

theorem exec_mergeRecordArrival {n addr : Nat} {rkey imm : BitVec 32} {data : List Byte} {p : Qp} (hp : s.j.qp? n = some p)
    (hin : p.mergeIn = true) (hest : p.state = .established) : exec (.mergeRecordArrival n rkey addr data imm) s = .next { s with j := (
      ((s.j.cpn.lists.find? fun l => l.rkey == rkey).map fun l =>
        if !inArea l addr data.length then s.j.refuseRequest n 2
        else if l.discarding then s.j
        else s.j.landRecord l addr data (imm.setWidth 16)).getD (s.j.refuseRequest n 2)) } := by
  rw [show exec (.mergeRecordArrival n rkey addr data imm) s = execMergeRecordArrival n rkey addr data imm s from rfl,
    execMergeRecordArrival, onBlocks_of_live _ hs]
  simp only [hp, Option.any_some, hin, hest, beq_self_eq_true, Bool.and_self, Bool.not_true, Bool.false_eq_true, if_false]
  cases s.j.cpn.lists.find? fun l => l.rkey == rkey <;> rfl

theorem exec_mergeRecordArrival_landed {n addr : Nat} {rkey imm : BitVec 32} {data : List Byte} {p : Qp} {l : ShardList}
    (hp : s.j.qp? n = some p) (hin : p.mergeIn = true) (hest : p.state = .established)
    (hfind : (s.j.cpn.lists.find? fun l => l.rkey == rkey) = some l) (harea : inArea l addr data.length = true) (hdis : l.discarding = false) :
    exec (.mergeRecordArrival n rkey addr data imm) s = .next { s with j := s.j.landRecord l addr data (imm.setWidth 16) } := by
  rw [exec_mergeRecordArrival hs hp hin hest, hfind]
  simp only [Option.map_some, Option.getD_some, harea, hdis, Bool.not_true, Bool.false_eq_true, if_false]

theorem exec_mergeDeadline {n t : Nat} {l : ShardList} {m : MergeOpen} (hl : s.j.list? n = some l)
    (hm : (s.j.cpn.merges.find? fun m => m.list == n && m.ticket == t) = some m) :
    exec (.mergeDeadline n t) s = .next { s with j := s.j.finishMerge l m } := by
  rw [show exec (.mergeDeadline n t) s = execMergeDeadline n t s from rfl, execMergeDeadline, onBlocks_of_live _ hs]
  simp only [hl, hm]

end

end

namespace Jenjor
variable {j : Jenjor} {f : Fetched}

/-- The queue pair with which a ROUTE_CONNECT asks for its route. -/
def routePair (j : Jenjor) (f : Fetched) (mtu : Nat) : Qp :=
  { j.newQp (dField f.d 0xA 1) mtu .setup with route := true, connector := some (f.ref, dField f.d 8 2 % 4096) }

theorem routeConnect_of_ok (hport : dField f.d 0xA 1 ≤ 1) (hroom : j.lnk.qps.length < 4096)
    (hok : j.routeBad (dField f.d 8 2 % 4096) = false) :
    ∃ mtu, j.routeConnect f = (j.addQp (j.routePair f mtu)).emit (.cmMessage (dField f.d 0xA 1) 1 (j.routePair f mtu).num) := by
  refine ⟨if 4096 ≤ j.portMtu (dField f.d 0xA 1) then 4096 else if 2048 ≤ j.portMtu (dField f.d 0xA 1) then 2048 else 1024, ?_⟩
  simp only [routeConnect, Nat.not_lt.mpr hport, Nat.not_le.mpr hroom, hok]
  rfl

theorem routeConnect_of_port (hport : 2 ≤ dField f.d 0xA 1) (hroom : j.lnk.qps.length < 4096) :
    j.routeConnect f = j.refuse f.ref .parameterInvalid := by
  simp only [routeConnect, show 1 < dField f.d 0xA 1 from hport, Nat.not_le.mpr hroom]
  cases j.routeBad (dField f.d 8 2 % 4096) <;> rfl

/-- A route's queue pair is established, and its delivery queue with it. -/
def routeUp (j : Jenjor) (n dq port : Nat) : Jenjor :=
  let k := (j.mapQp n fun p => { p with state := .established, bound := [dq], connector := none, rtuAt := j.time }).emit (.cmMessage port 4 n)
  { k with qs := { k.qs with queues := k.qs.queues ++ [routeQueue dq n] } }

theorem routeAccepted_of_ok {n dq : Nat} {p : Qp} {c : CmdRef} (hp : j.qp? n = some p) (hc : p.connector = some (c, dq))
    (hok : j.routeBad dq = false) : j.routeAccepted n = (j.routeUp n dq p.port).complete c .success (BitVec.ofNat 64 n) 0 none := by
  simp only [routeAccepted, hp, Option.bind_some, hc, Option.map_some, hok, Bool.false_eq_true, if_false]
  rfl

theorem routeFails_of_connector {n dq : Nat} {p : Qp} {c : CmdRef} (hp : j.qp? n = some p) (hc : p.connector = some (c, dq)) :
    j.routeFails n =
      ({ j with lnk := { j.lnk with qps := j.lnk.qps.filter fun x => x.num != n } } : Jenjor).refuse c .deliveryFailed := by
  simp only [routeFails, hp, Option.bind_some, hc]

/-- The list that a SHARD_LIST_DEFINE states. -/
def statedList (j : Jenjor) (d : Desc) : ShardList :=
  { num := dField d 8 1, count := dField d 0x0A 2, kMax := dField d 0x0C 2, tickets := dField d 0x0E 2,
    fp32 := dField d 0x10 1 == 2, base := j.qs.nextRing, slot := slotBytes (dField d 0x0C 2),
    rkey := Config.remoteKey j.qs.nextRkey.toNat,
    pages := pagesOf (dField d 0x0E 2 * dField d 0x0A 2 * slotBytes (dField d 0x0C 2)),
    deleting := false, discarding := false, deleters := [], slots := [] }

/-- The list is kept, its merge area and remote key taken. -/
def listAdded (j : Jenjor) (d : Desc) : Jenjor :=
  { j with cpn := { j.cpn with lists := j.cpn.lists ++ [j.statedList d] },
           qs := { j.qs with nextRing := j.qs.nextRing + dField d 0x0E 2 * dField d 0x0A 2 * slotBytes (dField d 0x0C 2),
                             nextRkey := j.qs.nextRkey + 1 } }

theorem defineList_of_free (since : Nat) (hck : firstStatus (j.listChecks f.d) = none)
    (hfree : pagesOf (dField f.d 0x0E 2 * dField f.d 0x0A 2 * slotBytes (dField f.d 0x0C 2)) ≤ j.poolFree) :
    j.defineList f since = (j.listAdded f.d).complete f.ref .success (BitVec.ofNat 64 (Config.poolBase + j.qs.nextRing))
      (BitVec.ofNat 64 (slotBytes (dField f.d 0x0C 2) * 2 ^ 32 + (Config.remoteKey j.qs.nextRkey.toNat).toNat)) none := by
  -- `allocate` stays opaque here: reducing the match on its answer would evaluate it
  obtain ⟨allocate, hallocate⟩ : ∃ allocate, j.allocate = allocate := ⟨_, rfl⟩
  have hgranted : allocate (pagesOf (dField f.d 0x0E 2 * dField f.d 0x0A 2 * slotBytes (dField f.d 0x0C 2))) [] = .granted j := by
    rw [← hallocate, allocate_of_free _ hfree]
  rw [defineList, hck, hallocate]
  dsimp only
  rw [hgranted]
  rfl

/-- The merge that a MERGE_QUERY opens. -/
def statedMerge (f : Fetched) : MergeOpen :=
  { list := dField f.d 8 1, ticket := dField f.d 9 1, tag := BitVec.ofNat 16 (dField f.d 0x0A 2), k := dField f.d 0x0C 2,
    addr := dField f.d 0x10 8, len := dField f.d 0x18 4, rkey := BitVec.ofNat 32 (dField f.d 0x1C 4),
    route := dField f.d 0x24 2, ref := f.ref }

/-- The merge stands among the open ones. -/
def mergeOpened (j : Jenjor) (f : Fetched) : Jenjor := { j with cpn := { j.cpn with merges := j.cpn.merges ++ [statedMerge f] } }

theorem mergeQuery_of_refused {st : Status} (h : firstStatus (j.mergeChecks f.d) = some st) : j.mergeQuery f = j.refuse f.ref st := by
  simp only [mergeQuery, h]

theorem mergeQuery_of_checked (h : firstStatus (j.mergeChecks f.d) = none) : j.mergeQuery f =
    (j.mergeOpened f).checkMerge (dField f.d 8 1) (dField f.d 9 1) := by
  simp only [mergeQuery, h]
  rfl

/-- A MERGE_QUERY that is checked finds no merge of its ticket. -/
theorem no_merge_of_checked {l : ShardList} (hl : j.openList (dField f.d 8 1) = some l) (h : firstStatus (j.mergeChecks f.d) = none) :
    j.cpn.merges.find? (fun m => m.list == l.num && m.ticket == dField f.d 9 1) = none := by
  rw [mergeChecks, hl] at h
  have hfree := (firstStatus_none_iff _).mp h _ (List.mem_cons_self ..)
  refine List.find?_eq_none.mpr fun m hm => ?_
  exact List.any_eq_false.mp hfree m hm

theorem landRecord_of_valid {l : ShardList} {addr : Nat} {data : List Byte} (tag : BitVec 16) (hstart : (slotAt l addr).2.2 = true)
    (hv : recordValid l data = true) : j.landRecord l addr data tag =
      let k := j.mapList l.num (placed l addr data tag)
      ((j.cpn.merges.find? fun m => m.list == l.num && m.ticket == (slotAt l addr).1).map fun m =>
        if m.tag = tag then k.checkMerge l.num (slotAt l addr).1 else k.count blkCPN 0x128).getD k := by
  have hgo : (!(slotAt l addr).2.2 || !recordValid l data) = false := by simp [hstart, hv]
  simp only [landRecord, hgo, Bool.false_eq_true, if_false]
  change (match j.cpn.merges.find? fun m => m.list == l.num && m.ticket == (slotAt l addr).1 with | none => _ | some m => _) = _
  cases j.cpn.merges.find? fun m => m.list == l.num && m.ticket == (slotAt l addr).1 <;> rfl

end Jenjor

open Jenjor in
/-- Settles O33: each command by its checks, a record by where it lands, the merged order by the places of R366. -/
theorem routesListsAndShardMerge : Obligations.RoutesListsAndShardMerge := by
  unfold Obligations.RoutesListsAndShardMerge
  refine ⟨fun s q f j h hport hroom hok => ?_, fun s q f j h hport hroom => ?_, fun s n dq p c hs hp hc => ⟨fun hok => ?_, ?_, ?_⟩,
    fun s q f j h hck hfree => ?_, fun s q f j l h hl hdel hdis => ⟨fun hno => ?_, fun m hm hml => ?_⟩,
    fun s n l hs hl hdis => ?_, fun s n l hs hl hdis => ?_, fun s q f j l h hck hl hmiss => ?_, fun s q f j st h hst => ?_,
    fun s n addr rkey imm data p l hs hp hin hest hfind hl hdis harea hstart hv => ⟨fun hno => ?_, fun m hm hml hmt hmg => ?_⟩,
    fun s n addr rkey imm data p hs hp hin hest hno => ?_, fun s n t l m hs hl hm => exec_mergeDeadline hs hl hm,
    fun k rs => ⟨mergeEntries_length k rs, mergeEntries_ordered k rs, fun e he => mergeEntries_of_present he⟩, mergedRecord_length⟩
  · obtain ⟨mtu, hroute⟩ := routeConnect_of_ok hport hroom hok
    rw [exec_routeConnect h, hroute]
    exact ⟨_, j.routePair f mtu, rfl, rfl, rfl, rfl, rfl, rfl, freeQpn_fresh j⟩
  · rw [exec_routeConnect h, routeConnect_of_port hport hroom]
  · refine ⟨s.j.routeUp n dq p.port, ?_, qp?_mapQp_of_some (fun _ => rfl) hp, rfl, rfl, rfl⟩
    refine (onBlocks_of_live (fun j => if true then j.routeAccepted n else j.routeFails n) hs).trans ?_
    rw [if_pos rfl, routeAccepted_of_ok hp hc hok]
  · refine (onBlocks_of_live (fun j => if false then j.routeAccepted n else j.routeFails n) hs).trans ?_
    rw [if_neg Bool.false_ne_true, routeFails_of_connector hp hc]
  · refine (onBlocks_of_live (fun j => j.routeFails n) hs).trans ?_
    rw [routeFails_of_connector hp hc]
  · rw [exec_shardListDefine h, defineList_of_free _ hck hfree]
    exact ⟨j.listAdded f.d, j.statedList f.d, rfl, rfl, rfl, rfl, rfl, rfl, rfl, rfl, rfl, rfl, rfl, rfl⟩
  · have hnoted := deletionNoted_list? (ref := f.ref) hl
    have hidle : (j.cpn.merges.any fun m => m.list == l.num) = false := List.any_eq_false.mpr fun m hm => by simpa using hno m hm
    rw [exec_shardListDelete h hl]
    refine ⟨_, congrArg (fun k => Host.Outcome.next { s with j := k }) ?_,
      list?_mapList_of_some (f := fun l => { l with discarding := true, deleters := [], slots := [] }) (fun _ => rfl) hnoted, rfl⟩
    rw [settleList_of_idle (j := j.deletionNoted l.num f.ref) hnoted rfl hdis hidle, hdel]
    rfl
  · have hnoted := deletionNoted_list? (ref := f.ref) hl
    have hheld : (j.cpn.merges.any fun m => m.list == l.num) = true := List.any_eq_true.mpr ⟨m, hm, by simpa using hml⟩
    rw [exec_shardListDelete h hl, settleList_of_merging (j := j.deletionNoted l.num f.ref) hnoted hheld]
    exact ⟨_, rfl, hnoted.trans (by rw [hdel]; rfl), rfl⟩
  · rw [exec_shardListRelease hs hl, hdis]
    rfl
  · rw [exec_shardListRelease hs hl, hdis]
    rfl
  · obtain ⟨hlist, hnum, -⟩ := openList_eq_some hl
    have hfound : ((j.mergeOpened f).cpn.merges.find? fun m => m.list == dField f.d 8 1 && m.ticket == dField f.d 9 1)
        = some (statedMerge f) := by
      rw [show (j.mergeOpened f).cpn.merges = j.cpn.merges ++ [statedMerge f] from rfl, List.find?_append, ← hnum,
        no_merge_of_checked hl hck, hnum]
      simp [statedMerge]
    rw [exec_mergeQuery h, mergeQuery_of_checked hck, checkMerge_of_found (j := j.mergeOpened f) hlist hfound,
      if_neg (show ¬(present l (dField f.d 9 1) (statedMerge f).tag).length = l.count from hmiss)]
    exact ⟨_, statedMerge f, rfl, hnum.symm, rfl, rfl, rfl, rfl, rfl, rfl, rfl⟩
  · rw [exec_mergeQuery h, mergeQuery_of_refused hst]
  · have hnone : (s.j.cpn.merges.find? fun m => m.list == l.num && m.ticket == (slotAt l addr).1) = none :=
      List.find?_eq_none.mpr fun m hm => by simp [hno m hm]
    rw [exec_mergeRecordArrival_landed hs hp hin hest hfind harea hdis, landRecord_of_valid _ hstart hv, hnone]
    rfl
  · have hfound : (s.j.cpn.merges.find? fun m => m.list == l.num && m.ticket == (slotAt l addr).1) = some m := by
      rw [hm]
      simp [hml, hmt]
    have hlanded := list?_mapList_of_some (f := placed l addr data (imm.setWidth 16)) (fun _ => rfl) hl
    rw [exec_mergeRecordArrival_landed hs hp hin hest hfind harea hdis, landRecord_of_valid _ hstart hv, hfound]
    simp only [Option.map_some, Option.getD_some, if_pos hmg]
    rw [checkMerge_of_found hlanded hfound, hmt]
    rfl
  · rw [exec_mergeRecordArrival hs hp hin hest, List.find?_eq_none.mpr fun l hl => by simpa using hno l hl]
    rfl

end Sys2Proof.Machine
end


section
namespace Sys2Proof.Machine
namespace Jenjor

variable {j : Jenjor}

/-! ### The pair separates (R350, R356) -/

theorem dropChecks_of_none (h : ∀ c ∈ j.sw.ctxs, c.xtag = none) : j.dropChecks = j := by
  have hmine : (j.sw.ctxs.filter fun c => c.xtag.any (fun t => t.2) && c.xpeer.isNone) = [] :=
    List.filter_eq_nil_iff.mpr fun c hc => by simp [h c hc]
  have htheirs : (j.sw.ctxs.filter fun c => c.xtag.any fun t => !t.2) = [] :=
    List.filter_eq_nil_iff.mpr fun c hc => by simp [h c hc]
  simp only [dropChecks, hmine, htheirs, List.foldl_nil]

/-- What a pair's data becomes when a pair separates at epoch `e`. -/
def separated (st : PairState) (e : Nat) (p : PairData) : PairData :=
  { p with pairState := st, peerChecked := false, catchingUp := false, solo := p.holder, splitEpoch := e,
           readOnly := p.readOnly || !p.holder, staleEpoch := if p.readOnly then p.staleEpoch else if p.holder then 0 else e }

theorem separate_of_inPair (st : PairState) (h : j.inPair = true) (hx : ∀ c ∈ j.sw.ctxs, c.xtag = none) :
    j.separate st = j.mapPair (separated st j.wr.epoch) := by
  rw [separate, h]
  exact dropChecks_of_none (j := j.mapPair (separated st j.wr.epoch)) hx

theorem separate_of_alone (st : PairState) (h : j.inPair = false) : j.separate st =
    j.mapPair fun p => { p with pairState := if p.mode = 0 then .unpaired else st, peerChecked := false } := by
  rw [separate, h]
  rfl

/-- What a pair's data becomes when its link is lost. -/
def unlinked (e : Nat) (p : PairData) : PairData := separated .split e { p with linkUp := false }

theorem linkLost_of_inPair (h : j.inPair = true) (hx : ∀ c ∈ j.sw.ctxs, c.xtag = none) :
    j.linkLost = j.mapPair (unlinked j.wr.epoch) :=
  separate_of_inPair (j := j.mapPair fun p => { p with linkUp := false }) .split h hx

theorem count_companion (j : Jenjor) {off a : Nat} (ha : a = 0xB0000 + off) :
    ((j.count blkCPN off).counter a).count = (j.counter a).count + 1 := by
  subst ha
  rw [count, show blkBase blkCPN = 0xB0000 from rfl, counter_bump, if_pos rfl]
  rfl

/-- A link in a pair retrains (R348). -/
def retrained (j : Jenjor) : Jenjor := ((j.mapPair fun p => { p with retraining := true }).count blkCPN 0x108).mapPair (unlinked j.wr.epoch)

theorem retrain_of_inPair (h : j.inPair = true) (hx : ∀ c ∈ j.sw.ctxs, c.xtag = none) : j.retrain = j.retrained :=
  linkLost_of_inPair (j := (j.mapPair fun p => { p with retraining := true }).count blkCPN 0x108) h hx

theorem retrained_pair (j : Jenjor) : j.retrained.cpn.pair = unlinked j.wr.epoch { j.cpn.pair with retraining := true } := rfl

theorem retrained_count (j : Jenjor) : (j.retrained.counter 0xB0108).count = (j.counter 0xB0108).count + 1 :=
  count_companion (j.mapPair fun p => { p with retraining := true }) (off := 0x108) rfl

theorem retrained_frame (j : Jenjor) : j.retrained =
    { j with cpn := { j.cpn with pair := j.retrained.cpn.pair }, ctrs := j.retrained.ctrs } := rfl

/-- The link is up over these lanes, with this report of the peer's. -/
def linkRisen (j : Jenjor) (lanes : List Bool) (i : PeerInfo) : Jenjor :=
  j.mapPair fun p => { p with lanes := (lanes.filter fun l => l).length, retraining := false, linkUp := true,
                              spareLane := !((lanes.take 8).all fun l => l), peer := some i, peerChecked := false }

/-! ### Rejoining (R358) -/

theorem discardAbove_of_idle (hj : j.wr.journal = []) (hc : j.wr.commits = []) :
    j.discardAbove j.wr.epoch = { j with wr := { j.wr with formed := j.wr.epoch } } := by
  simp only [discardAbove, mapJournal, hj, hc, List.filter_nil, List.foldl_nil, List.length_nil, if_true, updWhere, List.map_nil, min_self]

theorem sendTail_of_idle (e : Nat) (hj : j.wr.journal = []) : j.sendTail e = j := by
  simp [sendTail, hj, List.eraseDups]

theorem ackReady_of_idle (hj : j.wr.journal = []) : j.ackReady = j := by
  rw [ackReady, hj]
  split <;> rfl

/-- What a pair's data becomes when the module holds the lease from time `t` on. -/
def holding (t : Nat) (p : PairData) : PairData :=
  if p.holder then p else { p with holder := true, sentAt := t, countedAt := t, readOnly := false, staleEpoch := 0 }

section
variable (t : Nat) (p : PairData)

theorem holding_holder : (holding t p).holder = true := by
  unfold holding
  split
  · assumption
  · rfl

theorem holding_pairState : (holding t p).pairState = p.pairState := by
  unfold holding
  split <;> rfl

theorem holding_behind : (holding t p).behind = p.behind := by
  unfold holding
  split <;> rfl

end

theorem rejoinPrimary_of_level (mem : List Host.Cell) (epoch : Nat) (hb : j.cpn.pair.behind = false) (hj : j.wr.journal = []) :
    rejoinPrimary mem j epoch false = (j.mapPair (holding j.time)).mapPair fun p => { p with catchingUp := true } := by
  have hbehind : (j.mapPair (holding j.time)).cpn.pair.behind = false := (holding_behind ..).trans hb
  change (if (j.mapPair (holding j.time)).cpn.pair.behind then _ else if false then _ else _) = _
  rw [hbehind, if_neg Bool.false_ne_true, if_neg Bool.false_ne_true]
  exact sendTail_of_idle epoch hj

theorem rejoinSecondary_of_level {lease epoch : Nat} (hb : j.blank = false) (hj : j.wr.journal = []) (hc : j.wr.commits = [])
    (he : j.wr.epoch ≤ j.cpn.pair.splitEpoch) : j.rejoinSecondary lease epoch =
      ({ j with wr := { j.wr with formed := j.wr.epoch } } : Jenjor).mapPair fun p =>
        { p with lease := lease, holder := false, solo := false, behind := false, readOnly := true, catchingUp := true,
                 staleEpoch := if p.readOnly then p.staleEpoch else j.wr.epoch } := by
  simp only [rejoinSecondary, hb, Nat.not_lt.mpr he, decide_false, Bool.false_and, Bool.false_eq_true, if_false,
    discardAbove_of_idle hj hc]

end Jenjor

section
variable {s : State} (hs : s.j.live = true)
include hs
open Jenjor

theorem exec_companionLinkTrained {lanes : List Bool} (i : PeerInfo) (hl : lanes.length = 9) :
    exec (.companionLinkTrained lanes i) s = .next { s with j := (
      let usable := (lanes.filter fun l => l).length
      let k := s.j.mapPair fun p => { p with lanes := usable, retraining := false }
      if usable < 8 then k
      else
        let k := k.mapPair fun p => { p with linkUp := true, spareLane := !((lanes.take 8).all fun l => l), peer := some i, peerChecked := false }
        if k.cpn.pair.mode = 0 then k
        else if k.peerAgrees i then k.mapPair fun p => { p with pairState := .checking }
        else k.separate .mismatch) } :=
  (if_pos (beq_iff_eq.mpr hl)).trans (onBlocks_of_live _ hs)

/-- With eight lanes the link is up, and what follows is the peer's report to say. -/
theorem exec_companionLinkTrained_up {lanes : List Bool} (i : PeerInfo) (hl : lanes.length = 9)
    (hn : 8 ≤ (lanes.filter fun l => l).length) : exec (.companionLinkTrained lanes i) s = .next { s with j := (
      if s.j.cpn.pair.mode = 0 then s.j.linkRisen lanes i
      else if s.j.peerAgrees i then (s.j.linkRisen lanes i).mapPair fun p => { p with pairState := .checking }
      else (s.j.linkRisen lanes i).separate .mismatch) } := by
  rw [exec_companionLinkTrained hs i hl]
  simp only [Nat.not_lt.mpr hn, if_false]
  rfl

theorem exec_companionLinkErrors (n : Nat) (uncorr : Bool) (hsee : s.j.see.arm = false) : exec (.companionLinkErrors n uncorr) s =
    .next { s with j := (if (1000 < n || uncorr) && s.j.cpn.pair.linkUp then (s.j.fault 1 blkCPN 32 0x108 0 0 0).retrain else s.j) } := by
  rw [show exec (.companionLinkErrors n uncorr) s = execCompanionLinkErrors n uncorr s from rfl, execCompanionLinkErrors, onBlocks_of_live _ hs]
  simp only [injecting_of_disarmed hsee]

theorem exec_companionLinkDown : exec .companionLinkDown s =
    .next { s with j := (if s.j.cpn.pair.linkUp then s.j.linkLost else s.j) } :=
  onBlocks_of_live (fun j => if j.cpn.pair.linkUp then j.linkLost else j) hs

theorem exec_cpnReservedMessage (ty : Nat) : exec (.cpnReservedMessage ty) s =
    .next { s with j := (if (1 ≤ ty && ty ≤ 0xE) || !s.j.cpn.pair.linkUp then s.j else s.j.retrain) } :=
  onBlocks_of_live (fun j => if (1 ≤ ty && ty ≤ 0xE) || !j.cpn.pair.linkUp then j else j.retrain) hs

theorem exec_cpnReplayTimeout {seq : Nat} {m : Sent} (hm : (s.j.cpn.pair.replay.find? fun m => m.seq == seq) = some m)
    (hl : s.j.cpn.pair.linkUp = true) : exec (.cpnReplayTimeout seq) s = .next { s with j := (s.j.emit m.msg).count blkCPN 0x110 } := by
  rw [show exec (.cpnReplayTimeout seq) s = execCpnReplayTimeout seq s from rfl, execCpnReplayTimeout, onBlocks_of_live _ hs]
  simp only [hm, hl, if_true]

theorem exec_pairRejoin (lease epoch : Nat) (hl : s.j.cpn.pair.linkUp = true) (hp : s.j.cpn.pair.peerChecked = true)
    (hc : s.j.cpn.pair.pairState = .checking) : exec (.pairRejoin lease epoch) s = .next { s with j := (
      let k := s.j.mapPair fun p => { p with pairState := .split }
      if s.j.toSecondary lease then k.rejoinSecondary lease epoch
      else rejoinPrimary s.mem k epoch (epoch == 0 && s.j.wr.epoch != 0 && lease == 0)) } := by
  rw [show exec (.pairRejoin lease epoch) s = execPairRejoin lease epoch s from rfl, execPairRejoin, onReading_of_live _ hs]
  simp only [hl, hp, hc, bne_self_eq_false, Bool.not_true, Bool.or_self, Bool.false_eq_true, if_false]

theorem exec_catchUpComplete (hl : s.j.cpn.pair.linkUp = true) (hb : s.j.cpn.pair.behind = false) (hc : s.j.cpn.pair.catchingUp = true) :
    exec .catchUpComplete s = .next { s with j := (s.j.mapPair fun p =>
      { p with pairState := .paired, catchingUp := false, solo := false, readOnly := false, staleEpoch := 0 }).ackReady } := by
  rw [show exec .catchUpComplete s = execCatchUpComplete s from rfl, execCatchUpComplete, onBlocks_of_live _ hs]
  simp only [hl, hb, hc, Bool.true_or, Bool.not_true, Bool.or_self, Bool.false_eq_true, if_false]

end

open Jenjor in
/-- Settles O34: the link by its usable lanes, a separation by what a pair's data becomes, a rejoining by the side it takes. -/
theorem companionLink : Obligations.CompanionLink := by
  unfold Obligations.CompanionLink
  refine ⟨fun s lanes i hs hlen => ⟨fun hn => ?_, fun hn hm ha => ?_, fun hn hm => ?_, fun hn hm ha hp => ?_⟩,
    fun s lanes i hlen => if_neg (by simpa using hlen),
    fun s hs hl hp hx => ⟨?_, fun ty hty => ?_, fun n uncorr hsee hbad => ?_, fun n hsee hn => ?_, fun ty h1 h14 => ?_⟩,
    fun s seq m hs hl hm => ?_,
    fun s lease epoch hs hl hp hc => ⟨fun hsec hb hj hcm he => ?_, fun hsec hb hj he => ?_⟩,
    fun s hs hl hb hc hj => ?_⟩
  · rw [exec_companionLinkTrained hs i hlen]
    simp only [hn, if_true]
    rfl
  · rw [exec_companionLinkTrained_up hs i hlen hn, if_neg hm, if_pos ha]
    rfl
  · rw [exec_companionLinkTrained_up hs i hlen hn, if_pos hm]
    rfl
  · rw [exec_companionLinkTrained_up hs i hlen hn, if_neg hm, if_neg (Bool.eq_false_iff.mp ha),
      separate_of_alone (j := s.j.linkRisen lanes i) .mismatch hp]
    exact ⟨_, rfl, if_neg hm, rfl⟩
  · rw [exec_companionLinkDown hs, if_pos hl, linkLost_of_inPair hp hx]
    rfl
  · have hres : ((decide (1 ≤ ty) && decide (ty ≤ 0xE)) || !s.j.cpn.pair.linkUp) = false := by
      simp [hl]
      omega
    rw [exec_cpnReservedMessage hs, if_neg (Bool.eq_false_iff.mp hres), retrain_of_inPair hp hx]
    exact ⟨_, rfl, retrained_pair s.j, retrained_count s.j, congrArg (fun k => { s with j := k }) (retrained_frame s.j)⟩
  · have hretrain : ((decide (1000 < n) || uncorr) && s.j.cpn.pair.linkUp) = true := by simpa [hl] using hbad
    have hrec : ∀ x ∈ (s.j.fault 1 blkCPN 32 0x108 0 0 0).sw.ctxs, x.xtag = none := by simpa using hx
    have hpair : (s.j.fault 1 blkCPN 32 0x108 0 0 0).inPair = true := by simpa [inPair] using hp
    rw [exec_companionLinkErrors hs n uncorr hsee, if_pos hretrain, retrain_of_inPair hpair hrec]
    refine ⟨_, rfl, ?_, ?_, fault_one_head ..⟩
    · dsimp only
      rw [retrained_pair, fault_wr, fault_cpn]
      rfl
    · dsimp only
      rw [retrained_count, counter_fault _ _ _ _ _ _ _ _ _ (by decide)]
  · rw [exec_companionLinkErrors hs n false hsee, if_neg (by simp [Nat.not_lt.mpr hn])]
  · rw [exec_cpnReservedMessage hs, if_pos (by simp [h1, h14])]
  · rw [exec_cpnReplayTimeout hs hm hl]
    exact ⟨_, rfl, rfl, count_companion _ rfl, rfl⟩
  · rw [exec_pairRejoin hs lease epoch hl hp hc, hsec]
    simp only [if_true]
    rw [rejoinSecondary_of_level (j := s.j.mapPair fun p => { p with pairState := .split }) hb hj hcm he]
    exact ⟨_, rfl, rfl, rfl, rfl, rfl, rfl, rfl⟩
  · have hstale : (epoch == 0 && s.j.wr.epoch != 0 && lease == 0) = false := by simp [he]
    rw [exec_pairRejoin hs lease epoch hl hp hc, hsec, hstale]
    simp only [Bool.false_eq_true, if_false]
    rw [rejoinPrimary_of_level (j := s.j.mapPair fun p => { p with pairState := .split }) _ _ hb hj]
    refine ⟨_, rfl, ?_, rfl, ?_, rfl⟩
    · exact holding_holder ..
    · exact holding_pairState ..
  · rw [exec_catchUpComplete hs hl hb hc, ackReady_of_idle]
    · rfl
    · exact hj

end Sys2Proof.Machine
end


section
namespace Sys2Proof.Machine
namespace Jenjor

variable {j : Jenjor}

/-! ### The lease (R354 to R357) -/

/-- A message goes out over a link that is up. -/
theorem sendCpn_of_linkUp (ty a b c : Nat) (data : List Byte) (h : j.cpn.pair.linkUp = true) : j.sendCpn ty a b c data =
    (let m : Output := .cpn ty (j.cpn.pair.sendSeq + 1) a b c data (cpnHeader ty (j.cpn.pair.sendSeq + 1) a b c data)
     { j with cpn := { j.cpn with pair := { j.cpn.pair with
                sendSeq := j.cpn.pair.sendSeq + 1,
                replay := j.cpn.pair.replay ++ [{ seq := j.cpn.pair.sendSeq + 1, msg := m }] } },
              out := m :: j.out }) := if_pos h

/-- A module alone acknowledges nothing before it is published. -/
theorem ackReady_of_solo (h : j.cpn.pair.solo = true) : j.ackReady = j := if_pos h

theorem takeLease_count (j : Jenjor) (n : Nat) : ((j.takeLease n).counter 0xB0100).count = (j.counter 0xB0100).count + 1 :=
  count_companion (j.mapPair fun p => { p with lease := n, holder := true, sentAt := j.time, countedAt := j.time }) (off := 0x100) rfl

theorem takeLease_cat (j : Jenjor) (n : Nat) : (j.takeLease n).cat = j.cat := rfl

/-- The last epoch of the commits formed. -/
def lastFormed (j : Jenjor) : Nat := j.wr.commits.foldl (fun e c => max e c.epoch) j.wr.epoch

theorem becomePrimary_eq (j : Jenjor) : j.becomePrimary =
    (let k := j.mapPair fun p => { p with behind := false, readOnly := false, staleEpoch := 0, solo := true }
     { k with wr := { k.wr with formed := j.lastFormed } }) := ackReady_of_solo rfl

end Jenjor

section
variable {s : State} (hs : s.j.live = true)
include hs
open Jenjor

theorem exec_renew (lease : Nat) (h : BitVec 96) (epoch ceiling floor : Nat) : exec (.renew lease h epoch ceiling floor) s =
    .next { s with j := (
      if !s.j.inPair || h == s.j.dom.serial || lease < s.j.cpn.pair.lease || (s.j.cpn.pair.holder && lease = s.j.cpn.pair.lease) then s.j
      else (s.j.mapPair fun p => { p with lease := lease, holder := false, ackedAt := s.j.time, peerEpoch := epoch,
                                          peerFloor := some floor }).sendCpn 0x02 lease s.j.wr.epoch ceiling (leBytes 8 s.j.ownFloor)) } :=
  onBlocks_of_live (fun j => if !j.inPair || h == j.dom.serial || lease < j.cpn.pair.lease || (j.cpn.pair.holder && lease = j.cpn.pair.lease)
    then j else (j.mapPair fun p => { p with lease := lease, holder := false, ackedAt := j.time, peerEpoch := epoch,
                                             peerFloor := some floor }).sendCpn 0x02 lease j.wr.epoch ceiling (leBytes 8 j.ownFloor)) hs

theorem exec_renewAck {lease : Nat} (epoch ceiling floor : Nat) (hh : s.j.cpn.pair.holder = true) (hl : lease = s.j.cpn.pair.lease)
    (hp : s.j.inPair = true) : exec (.renewAck lease s.j.dom.serial epoch ceiling floor) s =
      .next { s with j := (s.j.mapPair fun p => { p with peerEpoch := epoch, peerFloor := some floor }).renewalCounts } := by
  rw [show exec (.renewAck lease s.j.dom.serial epoch ceiling floor) s = execRenewAck lease s.j.dom.serial epoch ceiling floor s from rfl,
    execRenewAck, onBlocks_of_live _ hs]
  simp only [hh, hl, hp, bne_self_eq_false, Bool.not_true, Bool.or_self, Bool.false_eq_true, if_false]

theorem exec_leaseRenewTimer (hh : s.j.cpn.pair.holder = true) (hw : s.j.isl.whole = false) (hwit : s.j.alm.net.witness = true) :
    exec .leaseRenewTimer s = .next { s with j := (
      ((s.j.mapPair fun p => { p with sentAt := s.j.time }).sendCpn 0x01 s.j.cpn.pair.lease s.j.wr.epoch s.j.renewalCeiling
        (leBytes 8 s.j.ownFloor)).emit (.witness false s.j.cpn.pair.lease s.j.renewalCeiling)) } := by
  rw [show exec .leaseRenewTimer s = execLeaseRenewTimer s from rfl, execLeaseRenewTimer, onBlocks_of_live _ hs]
  simp only [hh, hw, Bool.not_true, Bool.or_self, Bool.false_eq_true, if_false]
  rw [if_pos]
  · rfl
  · rw [sendCpn_alm]
    exact hwit

theorem exec_leaseLapse (hh : s.j.cpn.pair.holder = true) (hr : s.j.cpn.pair.readOnly = false) : exec .leaseLapse s =
    .next { s with j := s.j.mapPair fun p => { p with readOnly := true, staleEpoch := s.j.wr.epoch, witnessOk := false } } := by
  rw [show exec .leaseLapse s = execLeaseLapse s from rfl, execLeaseLapse, onBlocks_of_live _ hs]
  simp only [hh, hr, Bool.not_true, Bool.or_self, Bool.false_eq_true, if_false]

theorem exec_takeWaitElapsed (hh : s.j.cpn.pair.holder = false) (hm : s.j.cpn.pair.mode ≠ 0) (hwit : s.j.alm.net.witness = true)
    (hw : s.j.isl.whole = false) : exec .takeWaitElapsed s = .next { s with j := s.j.emit (.witness true s.j.cpn.pair.lease 0) } := by
  rw [show exec .takeWaitElapsed s = execTakeWaitElapsed s from rfl, execTakeWaitElapsed, onBlocks_of_live _ hs]
  simp only [hh, hm, hwit, hw, decide_false, Bool.not_true, Bool.or_self, Bool.false_eq_true, if_false]

theorem exec_witnessReply_renewed (c : Nat) (hh : s.j.cpn.pair.holder = true) :
    exec (.witnessReply (.renewGranted s.j.cpn.pair.lease c)) s =
      .next { s with j := (s.j.mapPair fun p => { p with witnessOk := true, ceiling := c }).renewalCounts } := by
  rw [show exec (.witnessReply (.renewGranted s.j.cpn.pair.lease c)) s = execWitnessReply (.renewGranted s.j.cpn.pair.lease c) s from rfl,
    execWitnessReply, onBlocks_of_live _ hs]
  simp only [hh, decide_true, Bool.and_self, if_true]

theorem exec_witnessReply_taken (c : Nat) (hh : s.j.cpn.pair.holder = false) :
    exec (.witnessReply (.takeGranted (s.j.cpn.pair.lease + 1) c)) s = .next { s with j := (
      let k := (s.j.mapPair fun p => { p with witnessOk := true, ceiling := c }).takeLease (s.j.cpn.pair.lease + 1)
      if c ≤ s.j.wr.epoch then k.becomePrimary else k.mapPair fun p => { p with behind := true }) } := by
  rw [show exec (.witnessReply (.takeGranted (s.j.cpn.pair.lease + 1) c)) s = execWitnessReply (.takeGranted (s.j.cpn.pair.lease + 1) c) s from rfl,
    execWitnessReply, onBlocks_of_live _ hs]
  simp only [hh, ne_eq, not_true, decide_false, Bool.or_self, Bool.false_eq_true, if_false]
  rfl

theorem exec_leaseForce (role : Role) : exec (.leaseForce role) s = .next { s with j := (
    if role != .operator || !s.j.cpn.pair.behind then s.j.emit (.mgmt false 0)
    else
      let k := s.j.mapJournal (fun e => !e.published) fun e => { e with epoch := none }
      let k := ({ k with wr := { k.wr with commits := [] } } : Jenjor).becomePrimary
      ({ k with wr := { k.wr with formed := s.j.cpn.pair.ceiling } } : Jenjor).emit (.mgmt true 0)) } :=
  onBlocks_of_live (fun j =>
    if role != .operator || !j.cpn.pair.behind then j.emit (.mgmt false 0)
    else
      let c := j.cpn.pair.ceiling
      let j := j.mapJournal (fun e => !e.published) fun e => { e with epoch := none }
      let j := ({ j with wr := { j.wr with commits := [] } } : Jenjor).becomePrimary
      ({ j with wr := { j.wr with formed := c } } : Jenjor).emit (.mgmt true 0)) hs

theorem exec_relinquish (epoch : Nat) (hp : s.j.inPair = true) (hh : s.j.cpn.pair.holder = false) :
    exec (.relinquish s.j.cpn.pair.lease epoch) s = .next { s with j :=
      (((s.j.mapPair fun p => { p with peerEpoch := epoch }).separate .split).takeLease (s.j.cpn.pair.lease + 1)).becomePrimary } := by
  rw [show exec (.relinquish s.j.cpn.pair.lease epoch) s = execRelinquish s.j.cpn.pair.lease epoch s from rfl, execRelinquish,
    onBlocks_of_live _ hs]
  simp only [hp, hh, bne_self_eq_false, Bool.not_true, Bool.or_self, Bool.false_eq_true, if_false]

/-- RELINQUISH makes the other module primary under the next number. -/
theorem relinquish_passes_lease (epoch : Nat) (hp : s.j.inPair = true) (hh : s.j.cpn.pair.holder = false)
    (hx : ∀ c ∈ s.j.sw.ctxs, c.xtag = none) : ∃ t, exec (.relinquish s.j.cpn.pair.lease epoch) s = .next t ∧
      t.j.cpn.pair.lease = s.j.cpn.pair.lease + 1 ∧ t.j.cpn.pair.holder = true ∧ t.j.cpn.pair.readOnly = false ∧
      t.j.cpn.pair.pairState = .split ∧ t.j.cpn.pair.peerEpoch = epoch ∧
      (t.j.counter 0xB0100).count = (s.j.counter 0xB0100).count + 1 ∧ t.j.cat = s.j.cat := by
  rw [exec_relinquish hs epoch hp hh,
      separate_of_inPair (j := s.j.mapPair fun p => { p with peerEpoch := epoch }) .split hp hx, becomePrimary_eq]
  have hcount := takeLease_count ((s.j.mapPair fun p => { p with peerEpoch := epoch }).mapPair (separated .split s.j.wr.epoch))
      (s.j.cpn.pair.lease + 1)
  refine ⟨_, rfl, rfl, rfl, rfl, rfl, rfl, hcount, ?_⟩
  exact (takeLease_cat ((s.j.mapPair fun p => { p with peerEpoch := epoch }).mapPair (separated .split s.j.wr.epoch)) (s.j.cpn.pair.lease + 1) :)

end

open Jenjor in
/-- Settles O35: a renewal by its number, a take by the ceiling, what a new primary is by its one equation. -/
theorem leaseAndWitness : Obligations.LeaseAndWitness := by
  unfold Obligations.LeaseAndWitness
  refine ⟨fun s lease epoch ceiling floor h hs hp hser => ⟨fun hnew hl => ?_, fun hold => ?_⟩,
    fun s lease epoch ceiling floor hs hp hh hl => ?_, fun s hs hh hw hl hwit => ?_, fun s hs hh hr => ?_,
    fun s hs hh hm hwit hw => exec_takeWaitElapsed hs hh hm hwit hw, fun s hs => ⟨?_, fun c hh => ?_, fun c hh => ?_⟩,
    fun s hs hb hj => ⟨?_, fun r hr => ?_⟩, fun s epoch hs hp hh hx => ?_⟩
  · have htaken : (!s.j.inPair || h == s.j.dom.serial || decide (lease < s.j.cpn.pair.lease)
        || (s.j.cpn.pair.holder && decide (lease = s.j.cpn.pair.lease))) = false := by
      simp only [hp, Bool.not_true, beq_eq_false_iff_ne.mpr hser, Bool.or_self, Bool.false_or, Bool.or_eq_false_iff, decide_eq_false_iff_not,
        Bool.and_eq_false_iff]
      rcases hnew with hlt | ⟨hh, heq⟩
      · exact ⟨by omega, .inr (by omega)⟩
      · exact ⟨by omega, .inl hh⟩
    rw [exec_renew hs, if_neg (Bool.eq_false_iff.mp htaken), sendCpn_of_linkUp _ _ _ _ _ (by exact hl)]
    exact ⟨_, rfl, rfl, rfl, rfl, rfl, rfl, rfl, rfl⟩
  · rw [exec_renew hs, if_pos (by simp [hold])]
  · rw [exec_renewAck hs epoch ceiling floor hh hl hp]
    rfl
  · rw [exec_leaseRenewTimer hs hh hw hwit, sendCpn_of_linkUp _ _ _ _ _ (by exact hl)]
    exact ⟨_, rfl, rfl, rfl, rfl⟩
  · rw [exec_leaseLapse hs hh hr]
    rfl
  · exact onBlocks_of_live (fun j : Jenjor => j.mapPair fun p => { p with witnessOk := false }) hs
  · rw [exec_witnessReply_renewed hs c hh]
    rfl
  · rw [exec_witnessReply_taken hs c hh]
    have hcount := takeLease_count (s.j.mapPair fun p => { p with witnessOk := true, ceiling := c }) (s.j.cpn.pair.lease + 1)
    by_cases hc : c ≤ s.j.wr.epoch
    · simp only [hc, if_true, becomePrimary_eq]
      exact ⟨_, rfl, rfl, rfl, rfl, rfl, fun _ => ⟨rfl, rfl⟩, hcount, rfl, rfl⟩
    · simp only [hc, if_false]
      exact ⟨_, rfl, rfl, rfl, rfl, rfl, fun h => h.elim, hcount, rfl, rfl⟩
  · rw [exec_leaseForce hs]
    simp only [hb, bne_self_eq_false, Bool.not_true, Bool.or_self, Bool.false_eq_true, if_false, becomePrimary_eq]
    exact ⟨_, rfl, rfl, rfl, rfl, rfl, rfl⟩
  · rw [exec_leaseForce hs, if_pos (by simp [hr])]
    rfl
  · exact relinquish_passes_lease hs epoch hp hh hx

end Sys2Proof.Machine
end


section
namespace Sys2Proof.Machine
namespace Jenjor

variable {j : Jenjor}

/-! ### The journal and the commits of the companion (R353) -/

theorem takeRecord_of_new {r : JRec} (h : ∀ e ∈ j.wr.journal, e.jr.seq ≠ r.seq) :
    j.takeRecord r = j.journalAppend r (j.peerRef replicaQueue none) false := by
  rw [takeRecord, if_neg]
  simpa using h

/-- A commit above every one kept goes behind them. -/
theorem insertCommit_of_later {c : Commit} : ∀ {l : List Commit}, (∀ x ∈ l, x.epoch < c.epoch) → insertCommit c l = l ++ [c]
  | [], _ => rfl
  | x :: xs, h => by
    rw [insertCommit, if_neg (Nat.not_lt.mpr (h x (List.mem_cons_self ..)).le),
      insertCommit_of_later fun y hy => h y (List.mem_cons_of_mem _ hy)]
    rfl

/-- A commit of the primary's is kept, to be published in its turn. -/
def commitTaken (j : Jenjor) (epoch : Nat) (seqs : List Nat) : Jenjor :=
  let k := j.mapJournal (fun x => seqs.contains x.jr.seq) fun x => { x with epoch := some epoch }
  { k with wr := { k.wr with
      commits := j.wr.commits ++ [{ epoch := epoch, seqs := seqs, waited := false, peerAck := true }], formed := max j.wr.formed epoch } }

theorem takeCommit_of_later {epoch : Nat} {seqs : List Nat} (he : j.wr.epoch < epoch) (hc : ∀ c ∈ j.wr.commits, c.epoch < epoch) :
    j.takeCommit epoch seqs = (j.commitTaken epoch seqs).sendCpn 0x06 epoch 0 0 [] := by
  have hnew : (decide (epoch ≤ j.wr.epoch) || j.wr.commits.any fun c => c.epoch == epoch) = false := by
    rw [decide_eq_false (Nat.not_le.mpr he), Bool.false_or]
    exact List.any_eq_false.mpr fun c hmem => by simp [(hc c hmem).ne]
  simp only [takeCommit, hnew, Bool.false_eq_true, if_false]
  rw [insertCommit_of_later (c := { epoch := epoch, seqs := seqs, waited := false, peerAck := true })
    (l := (j.mapJournal (fun x => seqs.contains x.jr.seq) fun x => { x with epoch := some epoch }).wr.commits) hc]
  rfl

theorem commitTaken_journal {epoch : Nat} {seqs : List Nat} {e : JEntry} (h : e ∈ (j.commitTaken epoch seqs).wr.journal)
    (hseq : e.jr.seq ∈ seqs) : e.epoch = some epoch := by
  obtain ⟨x, -, rfl⟩ := List.mem_map.mp h
  have hnamed : seqs.contains x.jr.seq = true := by
    split at hseq <;> exact List.contains_iff_mem.mpr hseq
  rw [if_pos hnamed]

/-! ### Forwarding (R352) -/

theorem ofCode_code (st : Status) : Status.ofCode st.code = some st := by
  cases st <;> rfl

theorem forwardedDone_of_found {tag n : Nat} {f : Fetched} {st : Status} {v0 v1 : BitVec 64}
    (hf : (j.cpn.pair.forwards.find? fun x => x.1 == tag) = some (n, f)) (hop : dField f.d 0 1 ≠ 0x40) :
    j.forwardedDone tag st.code v0 v1 =
      (j.mapPair fun p => { p with forwards := p.forwards.filter fun x => x.1 != tag }).complete f.ref st v0 v1 none := by
  have hcreate : (decide (dField f.d 0 1 = 0x40) && decide (st = .success)) = false := by simp [hop]
  simp only [forwardedDone, hf, ofCode_code, hcreate, Bool.false_eq_true, if_false]

/-- The command of a forwarded descriptor. -/
def forwarded (j : Jenjor) (tag : Nat) (d : Desc) : Fetched := { ref := j.peerRef forwardQueue (some tag), d := d }

/-- A forwarded write waits its turn. -/
def forwardWaits (j : Jenjor) (f : Fetched) (op : List Byte) : Bool :=
  j.acceptWaits f op || j.qs.fetched.any fun x => x.ref.q == forwardQueue && isWrite (dField x.d 0 1)

theorem takeForward_of_mirroring (h : j.mirroring = true) (tag : Nat) (d : Desc) (op : List Byte) : j.takeForward tag d op =
    if isWrite (dField d 0 1) then
      if j.forwardWaits (j.forwarded tag d) op then { j with qs := { j.qs with fetched := j.qs.fetched ++ [j.forwarded tag d] } }
      else j.acceptWrite (j.forwarded tag d) op
    else if dField d 0 1 = 0x25 then j.fence (j.forwarded tag d)
    else { j with qs := { j.qs with fetched := j.qs.fetched ++ [j.forwarded tag d] } } := if_pos h

theorem takeForward_of_mirrored (h : j.mirroring = false) (hm : j.mirrored = true) (tag : Nat) (d : Desc) (op : List Byte) :
    j.takeForward tag d op =
      { j with qs := { j.qs with fetched := j.qs.fetched ++ [{ ref := j.peerRef replicaQueue none, d := d }] } } :=
  (if_neg (Bool.eq_false_iff.mp h)).trans (if_pos hm)

/-! ### Cross-checks and restoring (R359, R362) -/

/-- The companion's query as this module runs it. -/
def peerQuery (j : Jenjor) (d : Desc) : Fetched := { ref := j.peerRef forwardQueue none, d := d }

theorem takeQuery_of_vector {tag : Nat} {d : Desc} {op : List Byte} {epoch frame : Nat} {c : Coll}
    (hc : j.liveColl? (dField d 4 2) = some c) (htok : qTokens d = false) (hck : firstStatus (queryChecks j d op) = none)
    (hroom : j.contextsUsed < 16384) : j.takeQuery tag d op epoch frame =
      enterVector (makeCtx j (j.peerQuery d) op (some (tag, false)) epoch frame).2
        (makeCtx j (j.peerQuery d) op (some (tag, false)) epoch frame).1 c d op := by
  simp only [takeQuery, hc, htok, hck, Nat.not_le.mpr hroom, List.append_nil, Bool.false_eq_true, if_false, Option.isSome_none, decide_false,
    Bool.false_and, Bool.or_self]
  rfl

/-- The one context that `makeCtx` adds. -/
theorem makeCtx_effect (f : Fetched) (op : List Byte) (tag : Nat × Bool) (epoch frame : Nat) : ∃ x : Ctx,
    (makeCtx j f op (some tag) epoch frame).1 = x.id ∧ (makeCtx j f op (some tag) epoch frame).2 =
      { j with sw := { j.sw with ctxs := j.sw.ctxs ++ [x], arrivals := j.sw.arrivals + 1 } } ∧
    x.pinned = true ∧ x.epoch = epoch ∧ x.frame = frame ∧ x.xtag = some tag ∧ x.d = f.d :=
  ⟨_, rfl, rfl, rfl, rfl, rfl, rfl, rfl⟩

/-- FRAME_DONE of the frame before the one that drains is noted with a collection's bias plane (R361). -/
def drainNoted (frame : Nat) (c : Coll) : Coll :=
  { c with bias := c.bias.map fun b => if frame + 1 = b.frame then { b with peerDone := true } else b }

end Jenjor

section
variable {s : State} (hs : s.j.live = true)
include hs
open Jenjor

theorem exec_journal (r : JRec) : exec (.journal r) s = .next { s with j := (if s.j.takesJournal then s.j.takeRecord r else s.j) } :=
  onBlocks_of_live (fun j => if j.takesJournal then j.takeRecord r else j) hs

theorem exec_commit (epoch : Nat) (seqs : List Nat) :
    exec (.commit epoch seqs) s = .next { s with j := (if s.j.takesJournal then s.j.takeCommit epoch seqs else s.j) } :=
  onBlocks_of_live (fun j => if j.takesJournal then j.takeCommit epoch seqs else j) hs

theorem exec_durable (seq : Nat) (h : s.j.mirroring = true) : exec (.durable seq) s = .next { s with j :=
    ((s.j.mapPair fun p => { p with peerDurable := max p.peerDurable seq }).mapJournal (fun e => e.jr.seq ≤ seq)
      fun e => { e with peerDurable := true }).ackReady } := by
  rw [show exec (.durable seq) s = execDurable seq s from rfl, execDurable, onBlocks_of_live _ hs]
  simp only [h, Bool.not_true, Bool.false_eq_true, if_false]

theorem exec_commitAck (epoch : Nat) (h : s.j.mirroring = true) : exec (.commitAck epoch) s = .next { s with j := { s.j with wr := { s.j.wr with
    commits := s.j.wr.commits.map fun c => if c.epoch ≤ epoch then { c with peerAck := true } else c } } } := by
  rw [show exec (.commitAck epoch) s = execCommitAck epoch s from rfl, execCommitAck, onBlocks_of_live _ hs]
  simp only [h, Bool.not_true, Bool.false_eq_true, if_false]

theorem exec_forward (tag : Nat) (d : Desc) (op : List Byte) : exec (.forward tag d op) s = .next { s with j := s.j.takeForward tag d op } :=
  onBlocks_of_live (fun j => j.takeForward tag d op) hs

theorem exec_xquery (tag : Nat) (d : Desc) (op : List Byte) (epoch frame : Nat) (h : s.j.pairedIn 3 = true) :
    exec (.xquery tag d op epoch frame) s = .next { s with j := s.j.takeQuery tag d op epoch frame } := by
  rw [show exec (.xquery tag d op epoch frame) s = execXquery tag d op epoch frame s from rfl, execXquery, onBlocks_of_live _ hs]
  simp only [h, if_true]

theorem exec_restore (item : RestoreItem) (h : s.j.cpn.pair.pairState = .restoringTarget) : exec (.restore item) s =
    .next { s with mem := (restoreItem s.mem s.j item).1, j := (restoreItem s.mem s.j item).2 } := by
  rw [show exec (.restore item) s = execRestore item s from rfl, execRestore, onMemory_of_live _ hs]
  simp only [h, if_true]

end

open Jenjor in
/-- Settles O36: each message by the side that this module takes in its pair. -/
theorem pairMessages : Obligations.PairMessages := by
  unfold Obligations.PairMessages
  refine ⟨fun s r hs ht hnew => ?_, fun s r hs ht => ?_, fun s epoch seqs hs ht hl he hc => ?_,
    fun s seq hs hm => ⟨?_, ?_, fun tag d op => ⟨fun hw hno => ?_, fun hw hwait => ?_, fun hf => ?_, fun hw hf => ?_⟩⟩,
    fun s tag d op hs hm hmir => ?_, fun s tag st v0 v1 f n hs hf hop => ?_,
    fun s tag epoch frame d op c hs hp hc htok hck hroom => ?_, fun s tag final coarse took hs => ?_,
    fun s addr data o hs hp ho => ?_, fun s n c b hs hc hb h1 => ?_⟩
  · rw [exec_journal hs, if_pos ht, takeRecord_of_new hnew]
    exact ⟨_, _, rfl, rfl, rfl, rfl, rfl, rfl, rfl⟩
  · rw [exec_journal hs, if_neg (Bool.eq_false_iff.mp ht)]
  · rw [exec_commit hs, if_pos ht, takeCommit_of_later he hc, sendCpn_of_linkUp _ _ _ _ _ (by exact hl)]
    exact ⟨_, { epoch := epoch, seqs := seqs, waited := false, peerAck := true }, rfl, rfl, rfl, rfl, rfl, rfl,
      fun e hmem hseq => commitTaken_journal (j := s.j) hmem hseq, rfl⟩
  · rw [exec_durable hs seq hm]
    refine ⟨_, rfl, rfl, ?_, rfl, rfl⟩
    exact List.map_congr_left fun e _ => by simp
  · rw [exec_commitAck hs seq hm]
    exact ⟨_, rfl, rfl, rfl⟩
  · rw [exec_forward hs, takeForward_of_mirroring hm, if_pos hw,
      if_neg (show ¬s.j.forwardWaits (s.j.forwarded tag d) op = true from Bool.eq_false_iff.mp hno)]
    rfl
  · rw [exec_forward hs, takeForward_of_mirroring hm, if_pos hw,
      if_pos (show s.j.forwardWaits (s.j.forwarded tag d) op = true from hwait)]
    rfl
  · rw [exec_forward hs, takeForward_of_mirroring hm, hf, if_neg (by decide), if_pos rfl]
    rfl
  · rw [exec_forward hs, takeForward_of_mirroring hm, if_neg (Bool.eq_false_iff.mp hw), if_neg hf]
    rfl
  · rw [exec_forward hs, takeForward_of_mirrored hm hmir]
  · refine ⟨_, (onBlocks_of_live (fun j => j.forwardedDone tag st.code v0 v1) hs).trans ?_, rfl⟩
    rw [forwardedDone_of_found hf hop]
    rfl
  · obtain ⟨x, hid, hk, hpin, hepoch, hframe, htag, hd⟩ := makeCtx_effect (j := s.j) (s.j.peerQuery d) op (tag, false) epoch frame
    rw [exec_xquery hs tag d op epoch frame hp, takeQuery_of_vector hc htok hck hroom, hid, hk]
    exact ⟨_, x, rfl, rfl, hpin, hepoch, hframe, htag, hd, rfl⟩
  · refine ⟨_, onBlocks_of_live (fun j => j.mapCtxs (fun c => c.xtag == some (tag, true))
      fun c => { c with xpeer := some (final, coarse, took) }) hs, ?_, rfl⟩
    exact List.map_congr_left fun c _ => by simp
  · rw [exec_restore hs _ hp]
    simp only [restoreItem, ho]
    exact ⟨_, rfl, rfl, fun a ha => Memory.read_writeBytes_outside _ _ _ _ ha, rfl, rfl⟩
  · refine ⟨_, onBlocks_of_live (fun j => j.mapColl n (drainNoted (b.frame - 1))) hs, ?_, rfl⟩
    refine (coll?_mapColl (f := drainNoted (b.frame - 1)) (fun _ => rfl) hc).trans ?_
    simp [drainNoted, hb, Nat.sub_add_cancel h1]

end Sys2Proof.Machine
end


section
namespace Sys2Proof.Machine
open Jenjor

/-! ### SPDM answers (R339, R379, R381) -/

theorem Jenjor.spdmReply_eq (j : Jenjor) (mb : Mailbox) (code : Nat) (data : List Byte) : j.spdmReply mb code data =
    { j with lnk := { j.lnk with doePending := j.lnk.doePending || decide (mb = .doe) }, out := .spdm mb code data :: j.out } := by
  cases mb <;> simp [spdmReply, emit]

/-- A response is all that a step adds to the blocks `j`. -/
theorem replied_spdmReply (s : State) (j : Jenjor) (mb : Mailbox) (code : Nat) (data : List Byte) :
    { s with j := j.spdmReply mb code data } = replied { s with j := j } mb code data := by
  rw [Jenjor.spdmReply_eq]
  rfl

theorem replied_spdmError (s : State) (j : Jenjor) (mb : Mailbox) (e : Nat) :
    { s with j := j.spdmError mb e } = replied { s with j := j } mb 0x7F [BitVec.ofNat 8 e] :=
  replied_spdmReply s j mb 0x7F _

theorem replied_vendorReply (s : State) (j : Jenjor) (mb : Mailbox) (res : Nat) (data : List Byte) :
    { s with j := j.vendorReply mb res data } = replied { s with j := j } mb 0x7E (vendor res data) :=
  replied_spdmReply s j mb 0x7E _

section
variable {s : State} (hs : s.j.live = true) {mb : Mailbox}
include hs

theorem spdm_free (f : Jenjor → Jenjor) : spdm mb false f s = .next { s with j := f s.j } := by
  rw [spdm, onBlocks_of_live _ hs, if_neg Bool.false_ne_true]

/-- A message during another mailbox's is answered Busy and counted. -/
theorem exec_busy {c : Instr} (h : exec c s = onBlocks (fun j => (j.count blkDOM 0x808).spdmError mb 0x03) s) :
    ∃ ctrs, exec c s = .next (replied { s with j := { s.j with ctrs := ctrs } } mb 0x7F [0x03]) ∧
      (({ s.j with ctrs := ctrs } : Jenjor).counter 0xC0808).count = (s.j.counter 0xC0808).count + 1 := by
  refine ⟨(s.j.count blkDOM 0x808).ctrs, ?_, ?_⟩
  · rw [h, onBlocks_of_live _ hs, replied_spdmError]
    rfl
  · change ((s.j.count blkDOM 0x808).counter 0xC0808).count = _
    rw [count, show blkBase blkDOM + 0x808 = 0xC0808 from rfl, counter_bump, if_pos rfl]
    rfl

variable {sid : Nat}

theorem inSession_served {x : Session} (f : Session → Jenjor → Jenjor) (hx : s.j.session? mb sid = some x) (hf : x.finished = true) :
    inSession mb false sid f s = .next { s with j := f x s.j } := by
  rw [inSession, spdm_free hs, hx]
  simp only [hf, if_true]

theorem inSession_refused (f : Session → Jenjor → Jenjor) (h : ∀ x, s.j.session? mb sid = some x → x.finished = false) :
    inSession mb false sid f s = .next (replied s mb 0x7F [0x06]) := by
  rw [inSession, spdm_free hs]
  cases hx : s.j.session? mb sid with
  | none => exact congrArg Host.Outcome.next (replied_spdmError s s.j mb 6)
  | some x =>
    simp only [h x hx, Bool.false_eq_true, if_false]
    exact congrArg Host.Outcome.next (replied_spdmError s s.j mb 6)

theorem slotWrite_refused (slot : Nat) (key : List Byte) (p : Bool) (h : ∀ x, s.j.session? mb sid = some x → x.finished = false) :
    exec (.slotWrite mb false sid slot key p) s = .next (replied s mb 0x7F [0x06]) := by
  rw [show exec (.slotWrite mb false sid slot key p) s = execSlotWrite mb false sid slot key p s from rfl, execSlotWrite, onMemory_of_live _ hs]
  simp only [Bool.false_eq_true, if_false]
  cases hx : s.j.session? mb sid with
  | none => exact congrArg Host.Outcome.next (replied_spdmError s s.j mb 6)
  | some x =>
    simp only [h x hx, Bool.not_false, if_true]
    exact congrArg Host.Outcome.next (replied_spdmError s s.j mb 6)

end

open Jenjor in
/-- Settles O37: an SPDM request by its mailbox, a secured one by its session, a vendor-defined one by what R381 asks. -/
theorem spdmRequestsAndSessions : Obligations.SpdmRequestsAndSessions := by
  unfold Obligations.SpdmRequestsAndSessions
  refine ⟨fun s mb hs => ⟨?_, ?_, ?_, ?_, fun slot off len hslot => ?_, fun off len hoff => ?_⟩,
    fun s mb nonce hs => ⟨fun hlost => ⟨?_, ?_⟩, fun hkept => ⟨?_, ?_⟩⟩,
    fun s mb nonce chain slot off len sid ok hs => ?_, fun s mb chain hs => ⟨fun hfull => ?_, fun hroom hkept => ?_⟩,
    fun s mb sid x hs hx => ⟨?_, ⟨?_, fun hf => ?_⟩, fun hf => ⟨?_, ?_⟩⟩,
    fun s mb sid slot key token persist g rev hs hno => ?_, fun s sid hs => onBlocks_of_live (fun j => j.dropSession sid) hs,
    fun s mb sid token x hs hx hf => ⟨fun hroot hten hlife hfuse huns htok => ?_, fun hbad => ?_⟩,
    fun s sid g rev x hs hx hf => ⟨fun hroot => ?_, fun hroot => ?_⟩, fun j rev hp ht hr => ?_,
    fun s mb sid g rev x hs hmb hx hf => ?_⟩
  · rw [show exec (.getVersion mb false) s = execGetVersion mb false s from rfl, execGetVersion, spdm_free hs, replied_spdmReply]
    rfl
  · rw [show exec (.getCapabilities mb false) s = execGetCapabilities mb false s from rfl, execGetCapabilities, spdm_free hs,
      replied_spdmReply]
    exact ⟨_, rfl⟩
  · rw [show exec (.negotiateAlgorithms mb false) s = execNegotiateAlgorithms mb false s from rfl, execNegotiateAlgorithms, spdm_free hs,
      replied_spdmReply]
    exact ⟨_, rfl⟩
  · rw [show exec (.getDigests mb false) s = execGetDigests mb false s from rfl, execGetDigests, spdm_free hs, replied_spdmReply]
    exact ⟨_, leBytes_length .., rfl⟩
  · rw [show exec (.getCertificate mb false slot off len) s = execGetCertificate mb false slot off len s from rfl, execGetCertificate,
      spdm_free hs, if_pos (.inl hslot), replied_spdmError]
    rfl
  · rw [show exec (.getCertificate mb false 0 off len) s = execGetCertificate mb false 0 off len s from rfl, execGetCertificate,
      spdm_free hs, if_neg (by simp [hoff]), replied_spdmReply]
  · rw [show exec (.challenge mb false nonce) s = execChallenge mb false nonce s from rfl, execChallenge, spdm_free hs, if_pos hlost,
      replied_spdmError]
    rfl
  · rw [show exec (.getMeasurements mb false nonce) s = execGetMeasurements mb false nonce s from rfl, execGetMeasurements, spdm_free hs,
      if_pos hlost, replied_spdmError]
    rfl
  · rw [show exec (.challenge mb false nonce) s = execChallenge mb false nonce s from rfl, execChallenge, spdm_free hs,
      if_neg (Bool.eq_false_iff.mp hkept), replied_spdmReply]
    exact ⟨_, _, _, rfl⟩
  · rw [show exec (.getMeasurements mb false nonce) s = execGetMeasurements mb false nonce s from rfl, execGetMeasurements, spdm_free hs,
      if_neg (Bool.eq_false_iff.mp hkept), replied_spdmReply]
    exact ⟨_, Config.freeDigest (2 + s.j.freeIdx), _, rfl⟩
  · simp only [List.forall_mem_cons, List.not_mem_nil, false_imp_iff, implies_true, and_true]
    exact ⟨exec_busy hs rfl, exec_busy hs rfl, exec_busy hs rfl, exec_busy hs rfl, exec_busy hs rfl, exec_busy hs rfl, exec_busy hs rfl, exec_busy hs rfl,
      exec_busy hs rfl, exec_busy hs rfl, exec_busy hs rfl, exec_busy hs rfl⟩
  · rw [show exec (.keyExchange mb false chain) s = execKeyExchange mb false chain s from rfl, execKeyExchange, spdm_free hs, if_pos hfull,
      replied_spdmError]
    rfl
  · rw [show exec (.keyExchange mb false chain) s = execKeyExchange mb false chain s from rfl, execKeyExchange, spdm_free hs,
      if_neg (Nat.not_le.mpr hroom), if_neg (Bool.eq_false_iff.mp hkept), replied_spdmReply]
    exact ⟨_, _, rfl⟩
  · rw [show exec (.finish mb false sid true) s = execFinish mb false sid true s from rfl, execFinish, spdm_free hs, hx]
    simp only [if_true]
    rw [replied_spdmReply]
    rfl
  · rw [show exec (.finish mb false sid false) s = execFinish mb false sid false s from rfl, execFinish, spdm_free hs, hx]
    simp only [Bool.false_eq_true, if_false]
    rw [replied_spdmError]
    rfl
  · rw [show exec (.endSession mb false sid) s = execEndSession mb false sid s from rfl, execEndSession, inSession_served hs _ hx hf,
      Jenjor.spdmReply_eq]
    rfl
  · rw [show exec (.heartbeat mb false sid) s = execHeartbeat mb false sid s from rfl, execHeartbeat, inSession_served hs _ hx hf,
      replied_spdmReply]
  · rw [show exec (.keyUpdate mb false sid) s = execKeyUpdate mb false sid s from rfl, execKeyUpdate, inSession_served hs _ hx hf,
      replied_spdmReply]
  · simp only [List.forall_mem_cons, List.not_mem_nil, false_imp_iff, implies_true, and_true]
    refine ⟨?_, ?_, ?_, slotWrite_refused hs slot key persist hno, ?_, ?_, ?_, ?_, ?_⟩
    · exact (inSession_refused hs _ hno : execHeartbeat mb false sid s = _)
    · exact (inSession_refused hs _ hno : execKeyUpdate mb false sid s = _)
    · exact (inSession_refused hs _ hno : execEndSession mb false sid s = _)
    · exact (inSession_refused hs _ hno : execSlotErase mb false sid slot s = _)
    · exact (inSession_refused hs _ hno : execSlotStatus mb false sid slot s = _)
    · exact (inSession_refused hs _ hno : execDebugUnlock mb false sid token s = _)
    · exact (inSession_refused hs _ hno : execPairCheck mb false sid g rev s = _)
    · exact (inSession_refused hs _ hno : execEndTenancy mb false sid s = _)
  · rw [show exec (.debugUnlock mb false sid token) s = execDebugUnlock mb false sid token s from rfl, execDebugUnlock,
      inSession_served hs _ hx hf, if_neg (by rw [hroot, hten, hlife, hfuse]; simp [huns]), if_pos htok, replied_vendorReply]
    rfl
  · have hrefused : (x.root != .orowick || s.j.dom.tenant != .unbound || s.j.dom.life != .service || (s.j.dom.latched.getD 5 0) != 0
        || s.j.dom.unsettled.contains 5) = true := by
      rcases hbad with h | h | h <;> simp [h]
    rw [show exec (.debugUnlock mb false sid token) s = execDebugUnlock mb false sid token s from rfl, execDebugUnlock,
      inSession_served hs _ hx hf, if_pos hrefused, replied_vendorReply]
  · rw [show exec (.pairCheck .companion false sid g rev) s = execPairCheck .companion false sid g rev s from rfl, execPairCheck,
      inSession_served hs _ hx hf, if_neg (by simp [hroot]), replied_vendorReply]
  · rw [show exec (.pairCheck .companion false sid g rev) s = execPairCheck .companion false sid g rev s from rfl, execPairCheck,
      inSession_served hs _ hx hf, if_pos (by simp [hroot]), replied_vendorReply]
  · rw [pairChecked, if_neg hp, if_pos (by simp [ht, hr])]
  · rw [show exec (.pairCheck mb false sid g rev) s = execPairCheck mb false sid g rev s from rfl, execPairCheck,
      inSession_served hs _ hx hf, if_pos (by simp [hmb]), replied_vendorReply]

end Sys2Proof.Machine
end


section
namespace Sys2Proof.Machine
namespace Jenjor

variable {j : Jenjor} {n : Nat} {k : KeySlot} {key : List Byte} {p : Bool} {mem : List Host.Cell}

/-! ### A slot of the key table (R383) -/

theorem slot?_mapSlot {f : KeySlot → KeySlot} (h : j.slot? n = some k) : (j.mapSlot n f).slot? n = some (f k) := by
  change (j.dom.slots.modify n f)[n]? = _
  simp [show j.dom.slots[n]? = some k from h]

theorem slot?_mapSlot_ne {f : KeySlot → KeySlot} {i : Nat} (h : i ≠ n) : (j.mapSlot n f).slot? i = j.slot? i := by
  change (j.dom.slots.modify n f)[i]? = j.dom.slots[i]?
  rw [List.getElem?_modify]
  simp [h.symm]

theorem slot?_of_dom {i : Jenjor} (h : i.dom = j.dom) (n : Nat) : i.slot? n = j.slot? n := by
  rw [slot?, h, slot?]

theorem slot?_boundBy (j : Jenjor) (s i : Nat) : (j.boundBy s).slot? i = j.slot? i := by
  unfold boundBy
  dsimp only
  split <;> rfl

theorem boundBy_out (j : Jenjor) (s : Nat) : (j.boundBy s).out = j.out := by
  unfold boundBy
  dsimp only
  split <;> rfl

/-- Key material fills an empty slot. -/
def slotFilled (j : Jenjor) (n : Nat) (key : List Byte) (p : Bool) : Jenjor :=
  let k := (j.mapSlot n fun k => { k with state := .loaded, generation := 1, current := key, persist := p }).boundBy n
  let k := if n = 0 then (k.mapPlates (fun _ => true) fun p => { p with keyGen := true }).mapObjs (fun _ => true)
      fun o => { o with keyGen := 1 } else k
  if n < 2 || p then k.sealKeys else k

theorem slot?_slotFilled (i : Nat) : (j.slotFilled n key p).slot? i =
    (j.mapSlot n fun k => { k with state := .loaded, generation := 1, current := key, persist := p }).slot? i := by
  refine Eq.trans ?_ (slot?_boundBy _ n i)
  unfold slotFilled
  dsimp only
  split <;> split <;> rfl

theorem slotFilled_out : (j.slotFilled n key p).out = j.out := by
  have hout := boundBy_out (j.mapSlot n fun k => { k with state := .loaded, generation := 1, current := key, persist := p }) n
  unfold slotFilled
  dsimp only
  split <;> split <;> exact hout

theorem slotFilled_tenant : (j.slotFilled n key p).dom.tenant =
    ((j.mapSlot n fun k => { k with state := .loaded, generation := 1, current := key, persist := p }).boundBy n).dom.tenant := by
  unfold slotFilled
  dsimp only
  split <;> split <;> rfl

/-- Slot 0 written again ends a suspension. -/
theorem slotFilled_tenant_of_suspended (h : j.dom.tenant = .suspended) : (j.slotFilled 0 key p).dom.tenant = .bound := by
  rw [slotFilled_tenant, boundBy]
  exact congrArg (fun j : Jenjor => j.dom.tenant) (if_pos (.inr ⟨h, rfl⟩))

theorem slotFilled_tenant_of_bound (h : j.dom.tenant = .bound) : (j.slotFilled n key p).dom.tenant = .bound := by
  rw [slotFilled_tenant, boundBy]
  dsimp only
  split
  · rfl
  · exact h

/-- With both of the first two slots loaded the tenant is bound. -/
theorem slotFilled_tenant_of_binding (h : j.dom.tenant = .binding) (hn : n < 2) (hk : j.slot? n = some k)
    (hother : (j.slot? (1 - n)).any (fun y => y.state == .loaded) = true) : (j.slotFilled n key p).dom.tenant = .bound := by
  have hself := slot?_mapSlot (f := fun k => { k with state := .loaded, generation := 1, current := key, persist := p }) hk
  have hne := slot?_mapSlot_ne (j := j) (n := n) (i := 1 - n)
    (f := fun k => { k with state := .loaded, generation := 1, current := key, persist := p }) (by omega)
  have hmine : ((j.mapSlot n fun k => { k with state := .loaded, generation := 1, current := key, persist := p }).slot? n).any
      (fun y => y.state == .loaded) = true := by
    rw [hself]
    rfl
  rw [← hne] at hother
  rw [slotFilled_tenant, boundBy]
  refine congrArg (fun j : Jenjor => j.dom.tenant) (if_pos (.inl ⟨h, ?_⟩))
  interval_cases n
  · exact ⟨hmine, hother⟩
  · exact ⟨hother, hmine⟩

/-- A new generation is current, the one before it still kept. -/
def slotAdvanced (j : Jenjor) (n : Nat) (key : List Byte) (p wasKept : Bool) : Jenjor :=
  let k := j.mapSlot n fun k => { k with generation := k.generation + 1, prev := some k.current, current := key, persist := p }
  if n < 2 || p || wasKept then k.sealKeys else k

theorem slot?_slotAdvanced (wasKept : Bool) (hk : j.slot? n = some k) : (j.slotAdvanced n key p wasKept).slot? n =
    some { k with generation := k.generation + 1, prev := some k.current, current := key, persist := p } := by
  refine Eq.trans ?_
    (slot?_mapSlot (f := fun k => { k with generation := k.generation + 1, prev := some k.current, current := key, persist := p }) hk)
  unfold slotAdvanced
  dsimp only
  split <;> rfl

theorem slotAdvanced_coe (wasKept : Bool) : (j.slotAdvanced n key p wasKept).coe = j.coe := by
  unfold slotAdvanced
  dsimp only
  split <;> rfl

/-! ### A previous generation ends (R383) -/

theorem retireGen_of_used (hk : j.slot? n = some k) (h : k.prev = none ∨ j.oldUse n = true) : j.retireGen n = j := by
  rw [retireGen, hk]
  refine if_pos ?_
  rcases h with h | h <;> simp [h]

/-- The previous generation of a slot is zeroised, with nothing staged. -/
def generationEnded (j : Jenjor) (n : Nat) (k : KeySlot) : Jenjor :=
  let i := j.mapSlot n fun k => { k with prev := none }
  let i := if n = 0 then i.mapDom fun d => { d with rekeySweep := false } else i
  if sealedSlot n k then i.sealKeys else i

theorem slot?_generationEnded (hk : j.slot? n = some k) (x : KeySlot) : (j.generationEnded n x).slot? n = some { k with prev := none } := by
  refine Eq.trans ?_ (slot?_mapSlot (f := fun k => { k with prev := none }) hk)
  unfold generationEnded
  dsimp only
  split <;> split <;> rfl

theorem generationEnded_cat (x : KeySlot) : (j.generationEnded n x).cat = j.cat := by
  unfold generationEnded
  dsimp only
  split <;> split <;> rfl

section
variable (hk : j.slot? n = some k) (hp : k.prev.isSome = true) (hu : j.oldUse n = false)
include hk hp hu

theorem retireGen_of_unstaged (hs : k.staged = none) : j.retireGen n = j.generationEnded n k := by
  have hgo : (k.prev.isNone || j.oldUse n) = false := by simp [hp, hu]
  rw [retireGen, hk]
  simp only [hgo, hs, Bool.false_eq_true, if_false]
  rfl

theorem retireGen_of_staged (hs : k.staged = some (key, p)) : j.retireGen n =
    (j.mapSlot n fun k => { k with generation := k.generation + 1, prev := some k.current, current := key,
                                   staged := none, persist := p }).sealKeys.startRekey n := by
  have hgo : (k.prev.isNone || j.oldUse n) = false := by simp [hp, hu]
  rw [retireGen, hk]
  simp only [hgo, hs, Bool.false_eq_true, if_false]

end

theorem startRekey_of_model (hn : 2 ≤ n) : j.startRekey n = j := by
  rw [startRekey, if_neg (by omega), if_neg (by omega)]

theorem oldUse_of_model (hn : 2 ≤ n) (hk : j.slot? n = some k) :
    j.oldUse n = j.coe.models.any fun m => m.phase != .empty && m.keySlot == n && m.keyGen != k.generation := by
  rw [oldUse, if_neg (by omega), if_neg (by omega), hk]
  rfl

/-! ### An erase (R384) -/

theorem freeModel_dom (j : Jenjor) (m : Nat) : (j.freeModel m).dom = j.dom := by
  cases h : j.model? m with
  | none => rw [freeModel, h]
  | some x =>
    cases hun : x.unloader with
    | none =>
      rw [freeModel_of_loader h hun]
      rfl
    | some c =>
      rw [freeModel_of_unloader h hun, complete_dom]
      rfl

theorem settleModels_dom (j : Jenjor) : j.settleModels.dom = j.dom := by
  refine foldl_dom _ _ _ fun i m => ?_
  split
  · exact freeModel_dom i m
  · rfl

theorem eraseSlot_slot? (hn : 2 ≤ n) (hk : j.slot? n = some k) :
    (j.eraseSlot n).slot? n = some { k with state := .draining, staged := none } := by
  rw [eraseSlot, if_neg (by omega)]
  refine (slot?_of_dom (settleModels_dom _) n).trans ?_
  exact slot?_mapSlot (f := fun k => { k with state := .draining, staged := none }) hk

/-! ### The table of SLOT_WRITE (R383) -/

section
variable (hk : j.slot? n = some k)
include hk

theorem writeSlot_of_bad (h : keyBad n key = true) : writeSlot mem j n key p = (mem, 2, j) := by
  simp only [writeSlot, hk, h, if_true]

variable (hgood : keyBad n key = false)
include hgood

theorem writeSlot_of_draining (h : k.state = .draining) : writeSlot mem j n key p = (mem, 1, j) := by
  simp only [writeSlot, hk, hgood, h, Bool.false_eq_true, if_false]

theorem writeSlot_of_empty (h : k.state = .empty) : writeSlot mem j n key p =
    (if j.dom.tenant = .suspended ∧ n = 0 then zeroTiles mem j else mem, 0, j.slotFilled n key p) := by
  simp only [writeSlot, hk, hgood, h, Bool.false_eq_true, if_false]
  rfl

variable (hl : k.state = .loaded)
include hl

theorem writeSlot_of_staged (h : k.staged.isSome = true) : writeSlot mem j n key p = (mem, 1, j) := by
  simp only [writeSlot, hk, hgood, hl, h, Bool.false_eq_true, if_false, if_true]

theorem writeSlot_of_last (hs : k.staged = none) (h : k.generation = 65535) : writeSlot mem j n key p = (mem, 3, j) := by
  simp only [writeSlot, hk, hgood, hl, hs, h, Option.isSome_none, Bool.false_eq_true, if_false, if_true]

theorem writeSlot_of_previous (hs : k.staged = none) (hg : k.generation ≠ 65535) (h : k.prev.isSome = true) :
    writeSlot mem j n key p = (mem, 5, j.mapSlot n fun k => { k with staged := some (key, p) }) := by
  simp only [writeSlot, hk, hgood, hl, hs, hg, h, Option.isSome_none, Bool.false_eq_true, if_false, if_true]

theorem writeSlot_of_loaded (hs : k.staged = none) (hg : k.generation ≠ 65535) (h : k.prev = none) :
    writeSlot mem j n key p = (mem, 0, ((j.slotAdvanced n key p k.persist).startRekey n).retireGen n) := by
  simp only [writeSlot, hk, hgood, hl, hs, hg, h, Option.isSome_none, Bool.false_eq_true, if_false]
  rfl

end

/-! ### Tile regions read as zeros (R384) -/

theorem read_clear_inside (m : List Host.Cell) {a n b : Nat} (h : a ≤ b) (hb : b < a + n) : Memory.read (Memory.clear m a n) b = 0 := by
  induction m with
  | nil => rfl
  | cons c m ih =>
    simp only [Memory.clear] at ih
    simp only [Memory.clear, List.filter_cons]
    split
    · next hkept =>
      have hne : b ≠ c.1 := by
        rintro rfl
        simp only [Bool.or_eq_true, decide_eq_true_eq] at hkept
        omega
      simp [Memory.read, hne, ih]
    · exact ih

theorem read_clear_of_zero {m : List Host.Cell} {b : Nat} (a n : Nat) (h : Memory.read m b = 0) : Memory.read (Memory.clear m a n) b = 0 := by
  by_cases hin : a ≤ b ∧ b < a + n
  · exact read_clear_inside m hin.1 hin.2
  · rw [Memory.read_clear_outside _ _ _ _ (by omega), h]

/-- Every object of a list reads as zeros once the list is cleared. -/
theorem read_foldl_clear {os : List Obj} {o : Obj} (ho : o ∈ os) {b : Nat} (h : o.base ≤ b) (hb : b < o.base + o.bytes) :
    ∀ m, Memory.read (os.foldl (fun m o => Memory.clear m o.base o.bytes) m) b = 0 := by
  have hkeep : ∀ (os : List Obj) (m : List Host.Cell), Memory.read m b = 0 →
      Memory.read (os.foldl (fun m o => Memory.clear m o.base o.bytes) m) b = 0 := by
    intro os
    induction os with
    | nil => exact fun m hm => hm
    | cons x os ih => exact fun m hm => ih _ (read_clear_of_zero _ _ hm)
  induction os with
  | nil => simp at ho
  | cons x os ih =>
    intro m
    rcases List.mem_cons.mp ho with rfl | ho
    · exact hkeep os _ (read_clear_inside m h hb)
    · exact ih ho _

theorem read_zeroTiles (m : List Host.Cell) {o : Obj} (ho : o ∈ j.cat.objs) (hk : o.kind = 8) {b : Nat} (h : o.base ≤ b)
    (hb : b < o.base + o.bytes) : Memory.read (zeroTiles m j) b = 0 :=
  read_foldl_clear (List.mem_filter.mpr ⟨ho, by simp [hk]⟩) h hb m

end Jenjor

section
variable {s : State} {mb : Mailbox} {sid n : Nat} {key : List Byte} {p : Bool} {x : Session} (hs : s.j.live = true)
  (hx : s.j.session? mb sid = some x) (hf : x.finished = true)
include hs hx hf
open Jenjor

theorem exec_slotWrite_forbidden
    (h : (!s.j.slotPermitted x [.binding, .bound, .suspended] || (s.j.dom.tenant == .suspended && n != 0)) = true) :
    exec (.slotWrite mb false sid n key p) s = .next (replied s mb 0x7E (vendor 4 [])) := by
  rw [show exec (.slotWrite mb false sid n key p) s = execSlotWrite mb false sid n key p s from rfl, execSlotWrite, onMemory_of_live _ hs]
  simp only [hx, hf, h, Bool.not_true, Bool.false_eq_true, if_false, if_true]
  rw [replied_vendorReply]

theorem exec_slotWrite_permitted
    (h : (!s.j.slotPermitted x [.binding, .bound, .suspended] || (s.j.dom.tenant == .suspended && n != 0)) = false) :
    exec (.slotWrite mb false sid n key p) s = .next (replied { s with
      mem := (writeSlot s.mem s.j n key p).1, j := (writeSlot s.mem s.j n key p).2.2 } mb 0x7E (vendor (writeSlot s.mem s.j n key p).2.1 [])) := by
  rw [show exec (.slotWrite mb false sid n key p) s = execSlotWrite mb false sid n key p s from rfl, execSlotWrite, onMemory_of_live _ hs]
  simp only [hx, hf, h, Bool.not_true, Bool.false_eq_true, if_false]
  exact congrArg Host.Outcome.next
    (replied_vendorReply { s with mem := (writeSlot s.mem s.j n key p).1 } (writeSlot s.mem s.j n key p).2.2 mb _ [])

/-- What a SLOT_WRITE of the tenant's does is the table's to say, where the table's row is known. -/
theorem exec_slotWrite_row {m : List Host.Cell} {res : Nat} {k : Jenjor} (hroot : x.root = .root s.j.dom.digest)
    (hten : s.j.dom.tenant = .binding ∨ s.j.dom.tenant = .bound ∨ (s.j.dom.tenant = .suspended ∧ n = 0))
    (hrow : writeSlot s.mem s.j n key p = (m, res, k)) :
    exec (.slotWrite mb false sid n key p) s = .next (replied { s with mem := m, j := k } mb 0x7E (vendor res [])) := by
  have hok : (!s.j.slotPermitted x [.binding, .bound, .suspended] || (s.j.dom.tenant == .suspended && n != 0)) = false := by
    rcases hten with h | h | ⟨h, hn⟩
    · simp [slotPermitted, ofTenant, hroot, h]
    · simp [slotPermitted, ofTenant, hroot, h]
    · simp [slotPermitted, ofTenant, hroot, h, hn]
  rw [exec_slotWrite_permitted hs hx hf hok, hrow]

theorem exec_slotErase_forbidden (h : s.j.slotPermitted x [.bound, .suspended] = false) :
    exec (.slotErase mb false sid n) s = .next (replied s mb 0x7E (vendor 4 [])) := by
  rw [show exec (.slotErase mb false sid n) s = execSlotErase mb false sid n s from rfl, execSlotErase, inSession_served hs _ hx hf]
  simp only [h, Bool.not_false, Bool.true_or, Bool.false_eq_true, if_false, if_true]
  cases s.j.slot? n <;> exact congrArg Host.Outcome.next (replied_vendorReply s s.j mb 4 [])

theorem exec_slotErase_of_slot {k : KeySlot} (hk : s.j.slot? n = some k) : exec (.slotErase mb false sid n) s = .next { s with j := (
    if !s.j.slotPermitted x [.bound, .suspended] || n == 1 then s.j.vendorReply mb 4 []
    else (if k.state = .loaded then s.j.eraseSlot n else s.j).vendorReply mb 0 []) } := by
  rw [show exec (.slotErase mb false sid n) s = execSlotErase mb false sid n s from rfl, execSlotErase, inSession_served hs _ hx hf]
  simp only [hk]

theorem exec_slotStatus_forbidden (h : s.j.slotPermitted x [.binding, .bound, .suspended] = false) :
    exec (.slotStatus mb false sid n) s = .next (replied s mb 0x7E (vendor 4 [])) := by
  rw [show exec (.slotStatus mb false sid n) s = execSlotStatus mb false sid n s from rfl, execSlotStatus, inSession_served hs _ hx hf]
  simp only [h, Bool.not_false, if_true]
  rw [replied_vendorReply]

theorem exec_slotStatus_of_slot {k : KeySlot} (hk : s.j.slot? n = some k) (h : s.j.slotPermitted x [.binding, .bound, .suspended] = true) :
    ∃ d, exec (.slotStatus mb false sid n) s = .next (replied s mb 0x7E (vendor 0 d)) ∧ d.length = 4 := by
  rw [show exec (.slotStatus mb false sid n) s = execSlotStatus mb false sid n s from rfl, execSlotStatus, inSession_served hs _ hx hf]
  simp only [h, hk, Bool.not_true, Bool.false_eq_true, if_false]
  rw [replied_vendorReply]
  exact ⟨_, rfl, leBytes_length ..⟩

end

open Jenjor in
/-- Settles O38: a SLOT_WRITE by the row of R383's table, an erase and a status by who asks and in which tenancy. -/
theorem slotCommands : Obligations.SlotCommands := by
  unfold Obligations.SlotCommands
  refine ⟨fun s mb sid n key p x hs hx hf => ⟨fun hno => ⟨?_, ?_, ?_⟩, fun hsus hn => ?_, fun h => ?_⟩,
    fun s mb sid n key p x k hs hx hf hroot hten hk => ⟨fun hbad => ?_, fun hgood => ⟨fun hst => ?_, fun hst hstaged => ?_,
      fun hst hstaged hgen => ?_, fun hst hstaged hgen hprev => ?_, fun hst => ?_,
      fun hst hstaged hgen hprev => ⟨fun hn => ?_, fun hn hold => ?_, fun hn hnew => ?_⟩⟩⟩,
    fun s mb sid key p x k hs hx hf hroot hten hk hst hgood => ?_,
    fun s mb sid n x k hs hx hf hroot hten hk => ⟨fun hn hst => ?_, fun hn hst => ?_, fun hn => eraseSlot_slot? hn hk, ?_⟩⟩
  · have hforbidden : s.j.slotPermitted x [.binding, .bound, .suspended] = false := by
      rcases hno with h | h | h <;> simp [slotPermitted, ofTenant, h]
    exact exec_slotWrite_forbidden hs hx hf (by simp [hforbidden])
  · exact exec_slotErase_forbidden hs hx hf (by rcases hno with h | h | h <;> simp [slotPermitted, ofTenant, h])
  · exact exec_slotStatus_forbidden hs hx hf (by rcases hno with h | h | h <;> simp [slotPermitted, ofTenant, h])
  · exact exec_slotWrite_forbidden hs hx hf (by simp [hsus, hn])
  · rcases h with ⟨rfl, hlen⟩ | ⟨hten, -⟩
    · rw [exec_slotErase_of_slot hs hx hf (List.getElem?_eq_getElem hlen), if_pos (by simp), replied_vendorReply]
    · exact exec_slotErase_forbidden hs hx hf (by simp [slotPermitted, hten])
  · exact exec_slotWrite_row hs hx hf hroot (or_assoc.mp (.inl hten)) (writeSlot_of_bad hk hbad)
  · exact exec_slotWrite_row hs hx hf hroot (or_assoc.mp (.inl hten)) (writeSlot_of_draining hk hgood hst)
  · exact exec_slotWrite_row hs hx hf hroot (or_assoc.mp (.inl hten)) (writeSlot_of_staged hk hgood hst hstaged)
  · exact exec_slotWrite_row hs hx hf hroot (or_assoc.mp (.inl hten)) (writeSlot_of_last hk hgood hst hstaged hgen)
  · exact ⟨_, exec_slotWrite_row hs hx hf hroot (or_assoc.mp (.inl hten)) (writeSlot_of_previous hk hgood hst hstaged hgen hprev),
      slot?_mapSlot (f := fun k => { k with staged := some (key, p) }) hk, fun i hi => slot?_mapSlot_ne hi, rfl⟩
  · have hmem : ¬(s.j.dom.tenant = .suspended ∧ n = 0) := by rcases hten with h | h <;> simp [h]
    refine ⟨_, exec_slotWrite_row hs hx hf hroot (or_assoc.mp (.inl hten)) (writeSlot_of_empty hk hgood hst),
      (slot?_slotFilled n).trans (slot?_mapSlot hk), fun i hi => (slot?_slotFilled i).trans (slot?_mapSlot_ne hi),
      congrArg (List.cons _) slotFilled_out, if_neg hmem, rfl, fun hn hother => ?_⟩
    rcases hten with h | h
    · exact slotFilled_tenant_of_binding h hn hk hother
    · exact slotFilled_tenant_of_bound h
  · subst hn
    have hnow := slot?_slotAdvanced (key := key) (p := p) k.persist hk
    refine ⟨_, exec_slotWrite_row hs hx hf hroot (or_assoc.mp (.inl hten)) (writeSlot_of_loaded hk hgood hst hstaged hgen hprev), ?_⟩
    rw [retireGen_of_used (j := (s.j.slotAdvanced 1 key p k.persist).startRekey 1) hnow (.inr rfl)]
    exact ⟨rfl, hnow⟩
  · have hnow := slot?_slotAdvanced (key := key) (p := p) k.persist hk
    have hused : (s.j.slotAdvanced n key p k.persist).oldUse n = true := by
      obtain ⟨m, hm, hlive, hslot, hgen⟩ := hold
      rw [oldUse_of_model hn hnow, slotAdvanced_coe]
      exact List.any_eq_true.mpr ⟨m, hm, by simp [hlive, hslot, hgen]⟩
    refine ⟨_, exec_slotWrite_row hs hx hf hroot (or_assoc.mp (.inl hten)) (writeSlot_of_loaded hk hgood hst hstaged hgen hprev), ?_⟩
    rw [startRekey_of_model hn, retireGen_of_used hnow (.inr hused)]
    exact hnow
  · have hnow := slot?_slotAdvanced (key := key) (p := p) k.persist hk
    have hunused : (s.j.slotAdvanced n key p k.persist).oldUse n = false := by
      rw [oldUse_of_model hn hnow, slotAdvanced_coe]
      exact List.any_eq_false.mpr fun m hm => by rcases hnew m hm with h | h <;> simp [h]
    refine ⟨_, exec_slotWrite_row hs hx hf hroot (or_assoc.mp (.inl hten)) (writeSlot_of_loaded hk hgood hst hstaged hgen hprev), ?_⟩
    rw [startRekey_of_model hn, retireGen_of_unstaged hnow rfl hunused hstaged]
    exact slot?_generationEnded hnow _
  · refine ⟨_, exec_slotWrite_row hs hx hf hroot (.inr (.inr ⟨hten, rfl⟩)) (writeSlot_of_empty hk hgood hst),
      slotFilled_tenant_of_suspended hten, fun o ho hkind a ha hb => ?_, rfl⟩
    rw [if_pos ⟨hten, rfl⟩]
    exact read_zeroTiles s.mem ho hkind ha hb
  · have hok : (!s.j.slotPermitted x [.bound, .suspended] || n == 1) = false := by
      rcases hten with h | h <;> simp [slotPermitted, ofTenant, hroot, h, hn]
    rw [exec_slotErase_of_slot hs hx hf hk, if_neg (Bool.eq_false_iff.mp hok), if_neg hst, replied_vendorReply]
  · have hok : (!s.j.slotPermitted x [.bound, .suspended] || n == 1) = false := by
      rcases hten with h | h <;> simp [slotPermitted, ofTenant, hroot, h, hn]
    rw [exec_slotErase_of_slot hs hx hf hk, if_neg (Bool.eq_false_iff.mp hok), if_pos hst, replied_vendorReply]
  · exact exec_slotStatus_of_slot hs hx hf hk (by rcases hten with h | h <;> simp [slotPermitted, ofTenant, hroot, h])

end Sys2Proof.Machine
end


section
namespace Sys2Proof.Machine
namespace Jenjor

variable {j : Jenjor} {n : Nat} {k : KeySlot}

/-! ### The end of an erase (R384) -/

theorem endErase_of_not_draining (hk : j.slot? n = some k) (h : k.state ≠ .draining) : j.endErase n = j := by
  rw [endErase, hk]
  exact if_pos h

theorem eq_of_slot?_mapSlot {e x : KeySlot} (h : (j.mapSlot n fun _ => e).slot? n = some x) : x = e := by
  cases hk : j.slot? n with
  | some k => exact (Option.some.inj ((slot?_mapSlot hk).symm.trans h)).symm
  | none =>
    change (j.dom.slots.modify n fun _ => e)[n]? = some x at h
    simp [show j.dom.slots[n]? = none from hk] at h

/-- A slot is zeroised, in every generation. -/
def slotZeroised (j : Jenjor) (n : Nat) (kept : Bool) : Jenjor :=
  let i := j.mapSlot n fun _ => emptySlot
  if n < 2 || kept then i.sealKeys else i

theorem slot?_slotZeroised (kept : Bool) (i : Nat) : (j.slotZeroised n kept).slot? i = (j.mapSlot n fun _ => emptySlot).slot? i := by
  unfold slotZeroised
  dsimp only
  split <;> rfl

theorem slotZeroised_frame (kept : Bool) : j.slotZeroised n kept = { j with dom := { j.dom with
    slots := (j.slotZeroised n kept).dom.slots, sealedRec := (j.slotZeroised n kept).dom.sealedRec } } := by
  unfold slotZeroised
  dsimp only
  split <;> rfl

theorem endErase_of_model (hk : j.slot? n = some k) (hd : k.state = .draining) (hn : n ≠ 0) :
    j.endErase n = (j.withdrawModels fun m => m.keySlot == n).slotZeroised n k.persist := by
  rw [endErase, hk]
  simp only [hd, hn, ne_eq, not_true, if_false]
  rfl

theorem endErase_zero (hk : j.slot? 0 = some k) (hd : k.state = .draining) : j.endErase 0 = j.suspend.slotZeroised 0 k.persist := by
  rw [endErase, hk]
  simp only [hd, ne_eq, not_true, if_false, if_true]
  rfl

theorem withdrawModels_of_unused {p : Model → Bool} (h : ∀ x ∈ j.coe.models, x.phase = .empty ∨ p x = false) : j.withdrawModels p = j := by
  refine List.foldl_fixed' (fun m => ?_) _
  dsimp only
  split
  · rfl
  · next x hx =>
    refine if_pos ?_
    rcases h x (List.mem_of_getElem? hx) with h | h <;> simp [h]

/-- What a suspension does last: the copies in sweep memory are given up, RoCEv2 queues fault, the tenancy is suspended. -/
def copiesGivenUp (j : Jenjor) : Jenjor :=
  let j := j.mapObjs (fun o => o.kind == 1 || o.kind == 2 || o.kind == 4) fun o => { o with tier := .vault, pages := 0, dirty := [] }
  let j : Jenjor := { j with spg := { j.spg with lines := [], reads := [] }, mem := { j.mem with poison := [] } }
  let j := (j.qs.queues.filter fun q => q.roce && q.kind != 4).foldl (fun j q => j.queueFault q.num 7) j
  j.mapDom fun d => { d with tenant := .suspended, rekeySweep := false }

theorem suspend_eq (j : Jenjor) : ∃ i : Jenjor, j.suspend = i.copiesGivenUp := ⟨_, rfl⟩

theorem copiesGivenUp_lines (j : Jenjor) : j.copiesGivenUp.spg.lines = [] :=
  congrArg SpgState.lines (foldl_spg _ _ _ fun _ _ => queueFault_spg ..)

theorem copiesGivenUp_objs (j : Jenjor) : j.copiesGivenUp.cat.objs =
    updWhere (fun o => o.kind == 1 || o.kind == 2 || o.kind == 4) (fun o => { o with tier := .vault, pages := 0, dirty := [] }) j.cat.objs :=
  congrArg CatState.objs (foldl_cat _ _ _ fun _ _ => queueFault_cat ..)

theorem copiesGivenUp_tiers (j : Jenjor) : ∀ o ∈ j.copiesGivenUp.cat.objs, o.kind = 1 ∨ o.kind = 2 ∨ o.kind = 4 → o.tier = .vault := by
  rw [copiesGivenUp_objs]
  intro o ho hkind
  obtain ⟨x, -, rfl⟩ := mem_updWhere ho
  split
  · rfl
  · next hno =>
    rw [if_neg hno] at hkind
    exact absurd (by simpa [or_assoc] using hkind) hno

/-! ### Generations (R383, R388, R389) -/

theorem startSweepRekey_slot? (i : Nat) : j.startSweepRekey.slot? i = j.slot? i := by
  refine slot?_of_dom (n := i) (j := j.mapDom fun d => { d with rekeySweep := true }) ?_
  exact foldl_dom (fun (j : Jenjor) (o : Obj) => j.addSlew o.num o.tier 0 .rekey) _ _ fun _ _ => rfl

theorem startRekey_slot? (i : Nat) : (j.startRekey n).slot? i = j.slot? i := by
  unfold startRekey
  split
  · exact startSweepRekey_slot? i
  · split <;> rfl

theorem generationEnded_rekeyVault (x : KeySlot) : (j.generationEnded n x).dom.rekeyVault = j.dom.rekeyVault := by
  unfold generationEnded
  dsimp only
  split <;> split <;> rfl

/-- The vault stands in the new generation: its rekey has ended. -/
def vaultRekeyed (j : Jenjor) : Jenjor :=
  (List.range 4).foldl (fun j b => j.programFree b) (j.mapDom fun d => { d with rekeyVault := false })

theorem vaultRekeyed_dom (j : Jenjor) : j.vaultRekeyed.dom = { j.dom with rekeyVault := false } :=
  foldl_dom (fun j b => j.programFree b) _ _ fun _ _ => rfl

theorem vaultRekeyed_cat (j : Jenjor) : j.vaultRekeyed.cat = j.cat := foldl_cat (fun j b => j.programFree b) _ _ fun _ _ => rfl

/-! ### Rekey batches (R388) -/

/-- Plates looked up by distinct identifiers of their own list are that list. -/
theorem filterMap_find?_pid {ps : List Plate} (hnd : (ps.map fun p => p.pid).Nodup) :
    (ps.map fun p => p.pid).filterMap (fun n => ps.find? fun p => p.pid == n) = ps := by
  rw [List.filterMap_map]
  refine (List.filterMap_congr fun p hp => ?_).trans List.filterMap_some
  obtain ⟨x, hx⟩ := Option.isSome_iff_exists.mp (List.find?_isSome (p := fun x : Plate => x.pid == p.pid).mpr ⟨p, hp, beq_self_eq_true _⟩)
  have hpid : x.pid = p.pid := by simpa using List.find?_some hx
  exact hx.trans (congrArg some (List.inj_on_of_nodup_map hnd (List.mem_of_find?_eq_some hx) hp hpid))

theorem sweeping_of_rekeyNext {coll : Nat} {r : Ring} (h : j.rekeyNext = some coll) (hof : j.ringOf coll = some r) : sweeping r = true := by
  obtain ⟨c, hc, rfl⟩ := List.mem_map.mp (argmin_mem h)
  have hring := (List.mem_filter.mp hc).2
  simp only [hof, Option.any_some, Bool.and_eq_true] at hring
  exact hring.1.1

/-- The job of a rekey batch: twins of its plates under the current generation. -/
def rekeyJob (j : Jenjor) (coll : Nat) (ps : List Plate) : Replating :=
  { id := j.cat.nextId, coll := coll, cause := .rekey, sources := ps.map fun p => p.pid,
    repl := ((List.range ps.length).zip ps).map fun x => { x.2 with pid := j.cat.nextPid + x.1, keyGen := j.genBit },
    base := 0, ready := true }

theorem rekeyJob_contents (coll : Nat) (ps : List Plate) : (j.rekeyJob coll ps).repl.map (fun q => (q.num, q.recs, q.dlog, q.tomb)) =
    ps.map fun q => (q.num, q.recs, q.dlog, q.tomb) := by
  have hsnd : ((List.range ps.length).zip ps).map Prod.snd = ps := List.map_snd_zip (by simp)
  conv_rhs => rw [← hsnd]
  rw [List.map_map]
  exact List.map_map

/-- The job stands, its sources kept as they are. -/
def batchStaged (j : Jenjor) (coll : Nat) (ps : List Plate) : Jenjor :=
  ({ j with cat := { j.cat with replatings := j.cat.replatings ++ [j.rekeyJob coll ps], nextId := j.cat.nextId + 1,
                                nextPid := j.cat.nextPid + ps.length } } : Jenjor).mapPlates
    (fun p => (ps.map fun p => p.pid).contains p.pid) fun p => { p with source := true }

theorem stageBatch_of_off (h : j.dom.rekeySweep = false) (coll : Nat) (pids : List Nat) : j.stageBatch coll pids = j := by
  unfold stageBatch
  dsimp only
  exact if_pos (by simp [h])

theorem stageBatch_of_next {coll : Nat} {ps : List Plate} {r : Ring} (hon : j.dom.rekeySweep = true) (hof : j.ringOf coll = some r)
    (hr : j.ring? r.num = some r) (hnext : j.rekeyNext = some coll) (hne : ps ≠ []) (hlen : ps.length ≤ 8192)
    (hnd : (ps.map fun p => p.pid).Nodup) (hold : j.oldPlates coll = ps) (hjobs : ∀ r ∈ j.cat.replatings, r.cause ≠ .rekey)
    (hroom : ceilDiv ps.length 8 ≤ j.poolFree) : j.stageBatch coll (ps.map fun p => p.pid) =
      (j.batchStaged coll ps).mapRing r.num fun r => { r with switches := r.switches ++ [.replate j.cat.nextId] } := by
  -- `allocate` stays opaque here: reducing the match on its answer would evaluate it
  obtain ⟨allocate, hallocate⟩ : ∃ allocate, j.allocate = allocate := ⟨_, rfl⟩
  have hgranted : allocate (ceilDiv ps.length 8) [] = .granted j := by rw [← hallocate, allocate_of_free _ hroom]
  have hfound : (ps.map fun p => p.pid).filterMap (fun n => (j.oldPlates coll).find? fun p => p.pid == n) = ps := by
    rw [hold, filterMap_find?_pid hnd]
  have hstaged : ∀ mates : List Nat, (j.cat.replatings.filter fun r => r.cause == .rekey && mates.contains r.coll) = [] := fun mates =>
    List.filter_eq_nil_iff.mpr fun r hr => by simp [hjobs r hr]
  have hgo : (!j.dom.rekeySweep || j.rekeyNext != some coll || ps.length != (ps.map fun p => p.pid).length || ps.isEmpty
      || decide (8192 < ps.length) || !decide (ps.map fun p => p.pid).Nodup || decide (2 ≤ 0)) = false := by
    simp [hon, hnext, hne, hnd, Nat.not_lt.mpr hlen]
  rw [stageBatch, hallocate, hfound]
  dsimp only
  rw [hstaged, List.length_nil, hgo, if_neg Bool.false_ne_true, hgranted]
  exact enterForColl_of_sweeping (j := j.batchStaged coll ps) _ hof hr (sweeping_of_rekeyNext hnext hof)

end Jenjor

section
variable {s : State} (hs : s.j.live = true)
include hs
open Jenjor

theorem exec_slotEraseTimeout {n : Nat} (hn : n < 64) : exec (.slotEraseTimeout n) s = .next { s with j := s.j.endErase n } :=
  (if_pos (decide_eq_true hn)).trans (onBlocks_of_live (fun j => j.endErase n) hs)

theorem exec_keyGenerationRetire {n : Nat} (hn : n < 64) : exec (.keyGenerationRetire n) s = .next { s with j := s.j.retireGen n } :=
  (if_pos (decide_eq_true hn)).trans (onBlocks_of_live (fun j => j.retireGen n) hs)

theorem exec_rekeyBatch (coll : Nat) (pids : List Nat) : exec (.rekeyBatch coll pids) s = .next { s with j := s.j.stageBatch coll pids } :=
  onBlocks_of_live (fun j => j.stageBatch coll pids) hs

theorem exec_vaultRekey : exec .vaultRekey s = .next { s with j := (if !s.j.dom.rekeyVault then s.j else s.j.vaultRekeyed.retireGen 1) } :=
  onBlocks_of_live (fun j => if !j.dom.rekeyVault then j else j.vaultRekeyed.retireGen 1) hs

end

open Jenjor in
/-- Settles O39: an erase and a retirement by the slot's state, a batch by its job, the vault's rekey by what it ends. -/
theorem keyGenerations : Obligations.KeyGenerations := by
  unfold Obligations.KeyGenerations
  refine ⟨fun s n k hs hn hk => ⟨fun hst => ?_, fun hst h2 hfree => ?_, fun hst h0 => ?_⟩,
    fun s n k hs hn hk => ⟨fun h => ?_, fun hp hu hstg => ?_, fun key p hp hu hstg => ?_⟩, fun s n hn => ?_,
    fun s coll ps r hs hon hof hr hnext hne hlen hnd hold hjobs hroom => ?_, fun s coll pids hs hoff => ?_,
    fun s k hs hk => ⟨fun hoff => ?_, fun hon hp hstg => ?_⟩⟩
  · rw [exec_slotEraseTimeout hs hn, endErase_of_not_draining hk hst]
  · have hidle : s.j.withdrawModels (fun m => m.keySlot == n) = s.j :=
      withdrawModels_of_unused fun x hx => (hfree x hx).imp id beq_eq_false_iff_ne.mpr
    rw [exec_slotEraseTimeout hs hn, endErase_of_model hk hst (by omega), hidle]
    exact ⟨_, rfl, (slot?_slotZeroised _ n).trans (slot?_mapSlot hk), fun i hi => (slot?_slotZeroised _ i).trans (slot?_mapSlot_ne hi),
      congrArg (fun k => { s with j := k }) (slotZeroised_frame _)⟩
  · subst h0
    obtain ⟨i, hi⟩ := suspend_eq s.j
    rw [exec_slotEraseTimeout hs hn, endErase_zero hk hst, hi, slotZeroised_frame]
    refine ⟨_, rfl, rfl, rfl, fun x hx => ?_, rfl, rfl, copiesGivenUp_lines i, copiesGivenUp_tiers i⟩
    exact eq_of_slot?_mapSlot ((slot?_slotZeroised (j := i.copiesGivenUp) (n := 0) k.persist 0).symm.trans hx)
  · rw [exec_keyGenerationRetire hs hn, retireGen_of_used hk h]
  · rw [exec_keyGenerationRetire hs hn, retireGen_of_unstaged hk hp hu hstg]
    exact ⟨_, rfl, slot?_generationEnded hk k, generationEnded_cat k, rfl⟩
  · rw [exec_keyGenerationRetire hs hn, retireGen_of_staged hk hp hu hstg]
    refine ⟨_, rfl, rfl, (startRekey_slot? n).trans ?_⟩
    exact slot?_mapSlot (f := fun k => { k with generation := k.generation + 1, prev := some k.current, current := key,
                                                staged := none, persist := p }) hk
  · exact ⟨if_neg (by simpa using hn), if_neg (by simpa using hn)⟩
  · rw [exec_rekeyBatch hs, stageBatch_of_next hon hof hr hnext hne hlen hnd hold hjobs hroom]
    refine ⟨_, s.j.rekeyJob coll ps, rfl, rfl, rfl, rfl, rfl, ?_, fun q hq => ?_, ?_, rfl⟩
    · simp [rekeyJob]
    · obtain ⟨x, -, rfl⟩ := List.mem_map.mp hq
      rfl
    · exact rekeyJob_contents coll ps
  · rw [exec_rekeyBatch hs, stageBatch_of_off hoff]
  · rw [exec_vaultRekey hs, if_pos (by simp [hoff])]
  · have hslot : s.j.vaultRekeyed.slot? 1 = some k := by
      rw [slot?, vaultRekeyed_dom]
      exact hk
    have hunused : s.j.vaultRekeyed.oldUse 1 = false := congrArg DomState.rekeyVault (vaultRekeyed_dom s.j)
    rw [exec_vaultRekey hs, if_neg (by simp [hon]), retireGen_of_unstaged hslot hp hunused hstg]
    exact ⟨_, rfl, slot?_generationEnded hslot k, (generationEnded_rekeyVault k).trans hunused,
      (generationEnded_cat k).trans (vaultRekeyed_cat s.j), rfl, rfl⟩

end Sys2Proof.Machine
end


section
namespace Sys2Proof.Machine
namespace Jenjor

variable (j : Jenjor)

/-! ### Management requests that are refused -/

/-- A management request that is refused is answered so, counted and recorded. -/
theorem turnedAway_refuseMgmt (s : State) (unit : Nat) : turnedAway s { s with j := s.j.refuseMgmt unit } := by
  refine ⟨congrArg (_ :: ·) (discard_out ..), discard_count .., discard_head .., ?_⟩
  rw [refuseMgmt, discard_frame]
  rfl

/-! ### Steps 1 to 3 of the scrub (R390) -/

@[simp] theorem foldlRefuse_dom (l : List CmdRef) (st : Status) :
    (l.foldl (fun j r => j.refuse r st) j).dom = j.dom := foldl_dom _ _ _ fun _ _ => refuse_dom ..

@[simp] theorem endWrites_dom (st : Status) : (j.endWrites st).dom = j.dom :=
  (foldl_dom _ _ _ fun _ _ => complete_dom ..).trans rfl

@[simp] theorem endCommands_dom (st : Status) : (j.endCommands st).dom = j.dom := by
  simp [endCommands, forgetHeld]

@[simp] theorem publishAcked_dom : j.publishAcked.dom = j.dom :=
  (foldl_dom _ _ _ fun _ _ => complete_dom ..).trans rfl

theorem beginScrub_dom (t : ScrubThen) : (j.beginScrub t).dom =
    { j.dom with tenant := .scrubbing, scrub := some t, sealedRec := none, slots := List.replicate 64 emptySlot, rekeySweep := false,
                 rekeyVault := false } := by
  simp [beginScrub, mapDom]

/-- Whatever the module answers afterwards, the scrub has begun. -/
theorem scrubBegun_of (s : State) (t : ScrubThen) {k : Jenjor} (hdom : k.dom = (s.j.beginScrub t).dom) (hcoe : k.coe = (s.j.beginScrub t).coe) :
    scrubBegun s { s with j := k } t := by
  unfold scrubBegun
  dsimp only
  rw [hdom, hcoe, beginScrub_dom]
  exact ⟨rfl, rfl, rfl, rfl, rfl, rfl, rfl, rfl, rfl, rfl⟩

/-! ### Steps 4 to 6 of the scrub (R390) -/

/-- The record cache's object and its lines are all that a fresh catalogue gets. -/
theorem makeCache_frame : j.makeCache =
    { j with cat := { j.cat with objs := j.makeCache.cat.objs }, spg := j.makeCache.spg } := by
  unfold makeCache
  dsimp only
  split
  · rfl
  · rfl

theorem clearCatalogue_dom : j.clearCatalogue.dom = j.dom := by
  rw [clearCatalogue, makeCache_frame]

/-- What the scrub leaves: nothing of the tenant's. -/
def leftByScrub (k : Jenjor) : Prop :=
  k.cat.colls = [] ∧ k.cat.plates = [] ∧ k.sw.ctxs = [] ∧ k.wr.journal = [] ∧ k.wr.epoch = 0 ∧ k.qs.queues = [queueZero] ∧
    k.qs.fetched = [] ∧ k.log.trace = [] ∧ k.lnk.qps = [] ∧ k.cpn.lists = [] ∧ k.vlt.erasing = true

theorem leftByScrub_afterScrub (t : ScrubThen) (us : Nat) : leftByScrub (j.afterScrub t us) := by
  unfold leftByScrub afterScrub clearCatalogue
  rw [makeCache_frame]
  exact ⟨rfl, rfl, rfl, rfl, rfl, rfl, rfl, rfl, rfl, rfl, rfl⟩

/-- The tenancy that the scrub enters. -/
def scrubbedDom (d : DomState) (t : ScrubThen) (us : Nat) : DomState :=
  let d := { d with scrub := none, scrubLast := us % 2 ^ 32, transientKeys := d.transientKeys + 1 }
  match t with
  | .binding g => { d with tenant := .binding, digest := g }
  | .unbound => { d with tenant := .unbound, digest := 0 }
  | .lifeCycle next => { d with tenant := .unbound, digest := 0, lifeErase := some next }

theorem afterScrub_dom (t : ScrubThen) (us : Nat) : (j.afterScrub t us).dom = scrubbedDom j.dom t us := by
  have h : (j.afterScrub t us).dom = scrubbedDom j.clearCatalogue.dom t us := by
    cases t <;> rfl
  rw [h, clearCatalogue_dom]

end Jenjor

open Jenjor

section
variable {s : State} (hs : s.j.live = true)
include hs

/-! ### Tenancy changes (R390) -/

theorem exec_bind_accepted (g : BitVec 384) (ht : s.j.dom.tenant = .unbound) (hl : s.j.dom.life = .service) (hd : s.j.dom.debug = false)
    (hi : s.j.identityLost = false) (he : s.j.dom.lifeErase = none) (hstep : s.j.alm.step = 7 ∨ s.j.alm.step = 8) :
    exec (.bind .operator g) s = .next { s with j := (s.j.beginScrub (.binding g)).acceptMgmt 0 } := by
  rw [show exec (.bind .operator g) s = execBind .operator g s from rfl, execBind, onBlocks_of_live _ hs,
    if_neg (by rcases hstep with h | h <;> simp [ht, hl, hd, hi, he, h])]

theorem exec_bind_refused (r : Role) (g : BitVec 384)
    (h : r ≠ .operator ∨ s.j.dom.tenant ≠ .unbound ∨ s.j.dom.life ≠ .service ∨ s.j.dom.debug = true ∨ s.j.identityLost = true) :
    exec (.bind r g) s = .next { s with j := s.j.refuseMgmt 0 } := by
  rw [show exec (.bind r g) s = execBind r g s from rfl, execBind, onBlocks_of_live _ hs,
    if_pos (by rcases h with h | h | h | h | h <;> simp [h])]

theorem exec_unbind_accepted (h : s.j.dom.tenant = .binding ∨ s.j.dom.tenant = .bound ∨ s.j.dom.tenant = .suspended) :
    exec (.unbind .operator) s = .next { s with j := (s.j.beginScrub .unbound).acceptMgmt 0 } := by
  rw [show exec (.unbind .operator) s = execUnbind .operator s from rfl, execUnbind, onBlocks_of_live _ hs,
    if_neg (by rcases h with h | h | h <;> simp [tenanted, h])]

theorem exec_unbind_refused (r : Role) (h : r ≠ .operator ∨ s.j.dom.tenant = .unbound ∨ s.j.dom.tenant = .scrubbing) :
    exec (.unbind r) s = .next { s with j := s.j.refuseMgmt 0 } := by
  rw [show exec (.unbind r) s = execUnbind r s from rfl, execUnbind, onBlocks_of_live _ hs,
    if_pos (by rcases h with h | h | h <;> simp [tenanted, h])]

section
variable {mb : Mailbox} {sid : Nat} {x : Session} (hx : s.j.session? mb sid = some x) (hf : x.finished = true)
include hx hf

theorem exec_endTenancy_accepted (hroot : x.root = .root s.j.dom.digest)
    (h : s.j.dom.tenant = .binding ∨ s.j.dom.tenant = .bound ∨ s.j.dom.tenant = .suspended) :
    exec (.endTenancy mb false sid) s = .next (replied { s with j := s.j.beginScrub .unbound } mb 0x7E (vendor 0 [])) := by
  rw [show exec (.endTenancy mb false sid) s = execEndTenancy mb false sid s from rfl, execEndTenancy, inSession_served hs _ hx hf,
    if_neg (by rcases h with h | h | h <;> simp [ofTenant, hroot, tenanted, h])]
  exact congrArg Host.Outcome.next (replied_vendorReply s _ mb 0 [])

theorem exec_endTenancy_refused (h : x.root ≠ .root s.j.dom.digest ∨ s.j.dom.tenant = .unbound) :
    exec (.endTenancy mb false sid) s = .next (replied { s with j := s.j.discard 0 0 } mb 0x7E (vendor 4 [])) := by
  rw [show exec (.endTenancy mb false sid) s = execEndTenancy mb false sid s from rfl, execEndTenancy, inSession_served hs _ hx hf,
    if_pos (by rcases h with h | h <;> simp [ofTenant, tenanted, h])]
  exact congrArg Host.Outcome.next (replied_vendorReply s _ mb 4 [])

end

theorem exec_tenantScrubComplete (us : Nat) {t : ScrubThen} (h : s.j.dom.scrub = some t) :
    exec (.tenantScrubComplete us) s = .next { s with mem := [], rmem := [], j := s.j.afterScrub t us } := by
  rw [show exec (.tenantScrubComplete us) s = execTenantScrubComplete us s from rfl, execTenantScrubComplete, if_pos hs, h]

theorem exec_vaultBackgroundErase : exec .vaultBackgroundErase s = .next { s with j :=
    if s.j.dom.lifeErase.isSome then s.j else { s.j with vlt := { s.j.vlt with erasing := false } } } := by
  rw [show exec .vaultBackgroundErase s = execVaultBackgroundErase s from rfl, execVaultBackgroundErase, onBlocks_of_live _ hs]

end

theorem exec_tenantScrubComplete_of_none (s : State) (us : Nat) (h : s.j.dom.scrub = none) :
    exec (.tenantScrubComplete us) s = .next s := by
  rw [show exec (.tenantScrubComplete us) s = execTenantScrubComplete us s from rfl, execTenantScrubComplete, h, ite_self]

/-- Settles O40: a tenancy change that is accepted begins the scrub, whose fields nothing that it answers or forgets
touches; the scrub's end enters the state that it was begun for. -/
theorem tenancyAndScrub : Obligations.TenancyAndScrub := by
  refine ⟨fun s g hs => ⟨fun ht hl hd hi he hstep => ?_, fun r h => ?_⟩, fun s hs => ⟨fun h => ?_, fun r h => ?_⟩,
    fun s mb sid x hs hx hf => ⟨fun hroot h => ?_, fun h => ?_⟩, fun s us t hs ht => ?_, exec_tenantScrubComplete_of_none,
    fun s hs => ⟨fun h => ?_, fun h => ?_⟩⟩
  · exact ⟨_, exec_bind_accepted hs g ht hl hd hi he hstep, scrubBegun_of s _ rfl rfl, rfl⟩
  · exact ⟨_, exec_bind_refused hs r g h, turnedAway_refuseMgmt s 0⟩
  · exact ⟨_, exec_unbind_accepted hs h, scrubBegun_of s _ rfl rfl, rfl⟩
  · exact ⟨_, exec_unbind_refused hs r h, turnedAway_refuseMgmt s 0⟩
  · exact ⟨_, exec_endTenancy_accepted hs hx hf hroot h, scrubBegun_of s _ rfl rfl, rfl⟩
  · exact ⟨_, exec_endTenancy_refused hs hx hf h, discard_dom .., congrArg (_ :: ·) (discard_out ..), discard_head .., discard_cat ..,
      rfl⟩
  · obtain ⟨hcolls, hplates, hctxs, hjournal, hepoch, hqueues, hfetched, htrace, hqps, hlists, herasing⟩ := leftByScrub_afterScrub s.j t us
    refine ⟨_, exec_tenantScrubComplete hs us ht, rfl, rfl, hcolls, hplates, hctxs, hjournal, hepoch, hqueues, hfetched, htrace, hqps,
      hlists, herasing, ?_⟩
    rw [afterScrub_dom]
    cases t <;> simp [scrubbedDom]
  · rw [exec_vaultBackgroundErase hs, if_neg (by simp [h])]
  · rw [exec_vaultBackgroundErase hs, if_pos h]

end Sys2Proof.Machine
end


section
namespace Sys2Proof.Machine
open Jenjor

/-! ### Life-cycle changes (R371, R372) -/

theorem advanceLife_accepted {j : Jenjor} {next : LifeCycle} {token : List Byte} (ht : j.dom.tenant = .unbound)
    (he : j.dom.lifeErase = none) (hstep : j.alm.step = 7 ∨ j.alm.step = 8) (hlt : j.dom.life.code < next.code)
    (hv : Config.tokenVerifies j.dom.serial (2 ^ 32 + next.code) token = true) :
    j.advanceLife .operator next token = (j.beginScrub (.lifeCycle next)).acceptMgmt 0 := by
  have hno : ¬ next.code ≤ j.dom.life.code := Nat.not_le.2 hlt
  rw [advanceLife, if_neg]
  rw [ht, he, hv]
  rcases hstep with h | h <;> simp [h, hno]

theorem advanceLife_refused {j : Jenjor} {r : Role} {next : LifeCycle} (token : List Byte)
    (h : r ≠ .operator ∨ j.dom.tenant ≠ .unbound ∨ next.code ≤ j.dom.life.code) :
    j.advanceLife r next token = j.refuseMgmt next.code := by
  rw [advanceLife, if_pos]
  rcases h with h | h | h <;> simp [h]

section
variable {s : State} (hs : s.j.live = true)
include hs

theorem exec_lifecycleRma (r : Role) (token : List Byte) :
    exec (.lifecycleRma r token) s = .next { s with j := s.j.advanceLife r .rma token } :=
  onBlocks_of_live (fun j => j.advanceLife r .rma token) hs

theorem exec_lifecycleScrap (r : Role) (token : List Byte) :
    exec (.lifecycleScrap r token) s = .next { s with j := s.j.advanceLife r .scrapped token } :=
  onBlocks_of_live (fun j => j.advanceLife r .scrapped token) hs

end

/-! ### The security version (R376) -/

theorem raiseSecver_latched_length (j : Jenjor) : j.raiseSecver.dom.latched.length = j.dom.latched.length := by
  simp [raiseSecver, mapDom]

/-- Words 1 to 4 alone hold the security version. -/
theorem raiseSecver_latched_of_other (j : Jenjor) {i : Nat} (hi : i = 0 ∨ 5 ≤ i) :
    j.raiseSecver.dom.latched[i]? = j.dom.latched[i]? := by
  have hno : ¬ (1 ≤ i ∧ i ≤ 4) := by omega
  by_cases hlt : i < j.dom.latched.length
  · simp [raiseSecver, mapDom, hlt, hno]
  · rw [List.getElem?_eq_none (by rw [raiseSecver_latched_length]; omega), List.getElem?_eq_none (by omega)]

/-! ### The fuse recheck (R374) -/

/-- A word of the recheck disagrees: some read differs from its latched value, or the nine reads settle no more. -/
def disagrees (unsettled : List Nat) (x : Nat × BitVec 32 × List (BitVec 32)) : Bool :=
  x.2.2.any (fun r => r != x.2.1) || (!unsettled.contains x.1 && !settledReads x.2.2)

/-- A word that disagrees is counted and recorded. -/
def recheckWord (j : Jenjor) (x : Nat × BitVec 32 × List (BitVec 32)) : Jenjor :=
  if disagrees j.dom.unsettled x then (j.count blkDOM 0x818).info blkDOM x.1 0x818 0 else j

theorem disagrees_replicate (unsettled : List Nat) (n : Nat) (w : BitVec 32) : disagrees unsettled (n, w, List.replicate 9 w) = false := by
  simp [disagrees, settledReads, List.replicate]

theorem disagrees_of_mem (unsettled : List Nat) (n : Nat) {w r : BitVec 32} {rs : List (BitVec 32)} (hr : r ∈ rs) (hne : r ≠ w) :
    disagrees unsettled (n, w, rs) = true := by
  have hany : rs.any (fun x => x != w) = true := List.any_eq_true.2 ⟨r, hr, by simp [hne]⟩
  simp [disagrees, hany]

theorem exec_fuseRecheck {s : State} (hs : s.j.live = true) (reads : List (List (BitVec 32))) : exec (.fuseRecheck reads) s =
    .next { s with j := ((List.range s.j.dom.latched.length).zip (s.j.dom.latched.zip reads)).foldl recheckWord s.j } :=
  onBlocks_of_live (fun j => ((List.range j.dom.latched.length).zip (j.dom.latched.zip reads)).foldl recheckWord j) hs

/-- A fold that leaves every value as it is at every element. -/
theorem foldl_of_fixed {α β : Type} {f : β → α → β} {l : List α} (hfix : ∀ y ∈ l, ∀ b, f b y = b) (b : β) : l.foldl f b = b := by
  induction l with
  | nil => rfl
  | cons y ys ih =>
    rw [List.foldl_cons, hfix y List.mem_cons_self]
    exact ih fun z hz => hfix z (List.mem_cons_of_mem _ hz)

/-- A fold that changes something at one place alone. -/
theorem foldl_of_fixed_but {α β : Type} {f : β → α → β} {l : List α} {n : Nat} {x : α} (hx : l[n]? = some x)
    (hfix : ∀ i y, i ≠ n → l[i]? = some y → ∀ b, f b y = b) (b : β) : l.foldl f b = f b x := by
  induction l generalizing n b with
  | nil => simp at hx
  | cons y ys ih =>
    rw [List.foldl_cons]
    cases n with
    | zero =>
      obtain rfl : y = x := by simpa using hx
      refine foldl_of_fixed (fun z hz => ?_) _
      obtain ⟨i, hi⟩ := List.getElem?_of_mem hz
      exact hfix (i + 1) z (by omega) (by simpa using hi)
    | succ n =>
      rw [hfix 0 y (by omega) rfl]
      exact ih (by simpa using hx) (fun i z hne hz => hfix (i + 1) z (by omega) (by simpa using hz)) b

/-- The words of a recheck, each with its number. -/
def recheckWords (latched : List (BitVec 32)) (reads : List (List (BitVec 32))) : List (Nat × BitVec 32 × List (BitVec 32)) :=
  (List.range latched.length).zip (latched.zip reads)

theorem recheckWords_getElem? {latched : List (BitVec 32)} {reads : List (List (BitVec 32))} {i : Nat} {w : BitVec 32}
    {rs : List (BitVec 32)} (hw : latched[i]? = some w) (hrs : reads[i]? = some rs) :
    (recheckWords latched reads)[i]? = some (i, w, rs) := by
  obtain ⟨hlt, hget⟩ := List.getElem?_eq_some_iff.1 hw
  simp [recheckWords, List.getElem?_zip_eq_some, hget, hrs, hlt]

theorem recheckWord_of_agreeing {latched : List (BitVec 32)} {reads : List (List (BitVec 32))} {i : Nat}
    {y : Nat × BitVec 32 × List (BitVec 32)} (hreads : reads[i]? = (latched.map fun w => List.replicate 9 w)[i]?)
    (hy : (recheckWords latched reads)[i]? = some y) (j : Jenjor) : recheckWord j y = j := by
  obtain ⟨hlt, -⟩ := List.getElem?_eq_some_iff.1 hy
  have hlen : i < latched.length := by simp [recheckWords] at hlt; omega
  have hw : latched[i]? = some latched[i] := List.getElem?_eq_getElem hlen
  obtain rfl : (i, latched[i], List.replicate 9 latched[i]) = y :=
    Option.some.inj ((recheckWords_getElem? hw (hreads.trans (by simp [hw]))).symm.trans hy)
  rw [recheckWord, disagrees_replicate, if_neg Bool.false_ne_true]

section
variable {s : State} (hs : s.j.live = true)
include hs

theorem exec_fuseRecheck_agreeing :
    exec (.fuseRecheck (s.j.dom.latched.map fun w => List.replicate 9 w)) s = .next s := by
  rw [exec_fuseRecheck hs]
  refine congrArg (fun j => Host.Outcome.next { s with j := j }) (foldl_of_fixed (fun y hy j => ?_) s.j)
  obtain ⟨i, hi⟩ := List.getElem?_of_mem hy
  exact recheckWord_of_agreeing rfl hi j

theorem exec_fuseRecheck_one {n : Nat} {w r : BitVec 32} {rs : List (BitVec 32)} (hw : s.j.dom.latched[n]? = some w) (hr : r ∈ rs)
    (hne : r ≠ w) : exec (.fuseRecheck ((s.j.dom.latched.map fun w => List.replicate 9 w).set n rs)) s =
      .next { s with j := (s.j.count blkDOM 0x818).info blkDOM n 0x818 0 } := by
  have hlt : n < s.j.dom.latched.length := (List.getElem?_eq_some_iff.1 hw).1
  have hread : ((s.j.dom.latched.map fun w => List.replicate 9 w).set n rs)[n]? = some rs := by simp [hlt]
  have hfold := foldl_of_fixed_but (f := recheckWord) (recheckWords_getElem? hw hread)
    (fun i y hi hy => recheckWord_of_agreeing (List.getElem?_set_ne (Ne.symm hi)) hy) s.j
  rw [recheckWord, disagrees_of_mem _ n hr hne, if_pos rfl] at hfold
  exact (exec_fuseRecheck hs _).trans (congrArg (fun j => Host.Outcome.next { s with j := j }) hfold)

/-! ### Management sessions (R392, R405) -/

/-- The role that a certificate authority gives a client, if it is known. -/
def roleOf (j : Jenjor) (ca : Option Nat) : Option Role :=
  ca.bind fun n => if n = 8 then (if j.alm.step = 9 ∧ j.alm.cas = [] then some Role.operator else none) else j.alm.cas.lookup n

/-- A handshake that is refused. -/
def handshakeRefused (j : Jenjor) : Jenjor := (j.count blkDOM 0x820).emit (.mgmt false 0)

theorem exec_handshake_accepted (src : Nat) {n k : Nat} {r : Role} (hr : roleOf s.j (some n) = some r) (hk : k < 10) :
    exec (.mgmtTlsHandshake src (some n) k) s = .next { s with j := { s.j with
      dom := { s.j.dom with tls := s.j.dom.tls ++ [(n, r)] }, out := .mgmt true 0 :: s.j.out } } := by
  rw [show exec (.mgmtTlsHandshake src (some n) k) s = execMgmtTlsHandshake src (some n) k s from rfl, execMgmtTlsHandshake,
    onBlocks_of_live _ hs]
  unfold roleOf at hr
  simp only [hr]
  rw [if_neg (by omega)]
  rfl

theorem exec_handshake_refused (src : Nat) {ca : Option Nat} {k : Nat} (h : roleOf s.j ca = none ∨ 10 ≤ k) :
    exec (.mgmtTlsHandshake src ca k) s = .next { s with j := handshakeRefused s.j } := by
  rw [show exec (.mgmtTlsHandshake src ca k) s = execMgmtTlsHandshake src ca k s from rfl, execMgmtTlsHandshake,
    onBlocks_of_live _ hs]
  unfold roleOf at h
  dsimp only
  split
  · rfl
  · next r hr =>
    rw [if_pos (h.resolve_left (by rw [hr]; exact Option.some_ne_none r))]
    rfl

end

theorem turnedAway_advanceLife (s : State) {r : Role} {next : LifeCycle} (token : List Byte)
    (h : r ≠ .operator ∨ s.j.dom.tenant ≠ .unbound ∨ next.code ≤ s.j.dom.life.code) :
    turnedAway s { s with j := s.j.advanceLife r next token } := by
  rw [advanceLife_refused token h]
  exact turnedAway_refuseMgmt s next.code

theorem scrubBegun_advanceLife (s : State) {next : LifeCycle} {token : List Byte} (ht : s.j.dom.tenant = .unbound)
    (he : s.j.dom.lifeErase = none) (hstep : s.j.alm.step = 7 ∨ s.j.alm.step = 8) (hlt : s.j.dom.life.code < next.code)
    (hv : Config.tokenVerifies s.j.dom.serial (2 ^ 32 + next.code) token = true) :
    scrubBegun s { s with j := s.j.advanceLife .operator next token } (.lifeCycle next) ∧
      (s.j.advanceLife .operator next token).out.head? = some (.mgmt true 0) := by
  rw [advanceLife_accepted ht he hstep hlt hv]
  exact ⟨scrubBegun_of s _ rfl rfl, rfl⟩

theorem firmwareCommit_cases (s : State) (hs : s.j.live = true) :
    exec (.firmwareCommit .operator) s = .next { s with j := s.j.raiseSecver.acceptMgmt 0 } ∧
      ∀ r, r ≠ .operator → exec (.firmwareCommit r) s = .next { s with j := s.j.refuseMgmt 0 } := by
  have h (r : Role) : exec (.firmwareCommit r) s =
      .next { s with j := if r != .operator then s.j.refuseMgmt 0 else s.j.raiseSecver.acceptMgmt 0 } :=
    onBlocks_of_live (fun j => if r != .operator then j.refuseMgmt 0 else j.raiseSecver.acceptMgmt 0) hs
  refine ⟨h .operator, fun r hr => ?_⟩
  rw [h, if_pos (by simp [hr])]

theorem code_lt_rma {l : LifeCycle} (h : l = .test ∨ l = .service) : l.code < LifeCycle.rma.code := by
  rcases h with rfl | rfl <;> decide

theorem code_lt_scrapped {l : LifeCycle} (h : l ≠ .scrapped) : l.code < LifeCycle.scrapped.code := by
  cases l
  case scrapped => exact absurd rfl h
  all_goals decide

/-- Settles O41: a life-cycle change goes only to a higher code; FIRMWARE_COMMIT touches F and words 1 to 4 alone; the one
word of a recheck that disagrees is the one that is counted; a client's role comes from its authority. -/
theorem lifeCycleFusesAndSessions : Obligations.LifeCycleFusesAndSessions := by
  refine ⟨fun s token hs => ⟨fun ht he hstep => ⟨fun hl hv => ?_, fun hl hv => ?_⟩, fun r h => ⟨?_, ?_⟩, fun r h => ?_⟩,
    fun s hs => ⟨?_, fun r hr => ?_⟩, fun s hs => ⟨exec_fuseRecheck_agreeing hs, fun n w r rs hw hr hne => ?_⟩,
    fun s src n k r hs h8 hr hk => ?_, fun s src k hs h9 hcas hk => ?_, fun s src k ca hs h => ?_⟩
  · exact ⟨_, exec_lifecycleRma hs .operator token, scrubBegun_advanceLife s ht he hstep (code_lt_rma hl) hv⟩
  · exact ⟨_, exec_lifecycleScrap hs .operator token, scrubBegun_advanceLife s ht he hstep (code_lt_scrapped hl) hv⟩
  · exact ⟨_, exec_lifecycleRma hs r token, turnedAway_advanceLife s token (h.imp_right .inl)⟩
  · exact ⟨_, exec_lifecycleScrap hs r token, turnedAway_advanceLife s token (h.imp_right .inl)⟩
  · exact ⟨_, exec_lifecycleRma hs r token, turnedAway_advanceLife s token (.inr (.inr (by rw [h])))⟩
  · exact ⟨_, (firmwareCommit_cases s hs).1, rfl, rfl, raiseSecver_latched_length s.j, fun i hi => raiseSecver_latched_of_other s.j hi,
      rfl⟩
  · exact ⟨_, (firmwareCommit_cases s hs).2 r hr, turnedAway_refuseMgmt s 0⟩
  · refine ⟨_, exec_fuseRecheck_one hs hw hr hne, ?_, ?_, ?_⟩
    · dsimp only
      rw [counter_info _ _ _ _ _ _ (by decide)]
      exact congrArg Ctr.count (counter_bump ..)
    · exact record_head ..
    · dsimp only
      rw [info_frame]
      rfl
  · exact exec_handshake_accepted hs src ((if_neg h8).trans hr) hk
  · exact exec_handshake_accepted hs src (if_pos ⟨h9, hcas⟩) hk
  · refine ⟨_, exec_handshake_refused hs src ?_, ?_, rfl, rfl⟩
    · rcases h with rfl | h | ⟨n, rfl, h8, hn⟩ | ⟨rfl, h9⟩
      · exact .inl rfl
      · exact .inr h
      · exact .inl ((if_neg h8).trans hn)
      · exact .inl (if_neg fun h => h9 h.1)
    · exact congrArg Ctr.count (counter_bump ..)

end Sys2Proof.Machine
end


section
namespace Sys2Proof.Machine
namespace Jenjor

variable {j : Jenjor} {sec : Section}

/-! ### Reloads that are offered (R408, R410) -/

/-- A reload as it is accepted, in its place in the catalogue order. -/
def acceptedReload (j : Jenjor) (src : Option CmdRef) (sec : Section) : Reload :=
  { src := src, mgmt := src.isNone, seq := j.cat.seq + 1, sec := sec, persisted := false, replaced := [], entered := [] }

/-- The count and the record of a reload that is refused. -/
def reloadRefused (j : Jenjor) (sec : Section) (st : Status) : Jenjor :=
  (j.record 0 blkDEV (secType sec) 0x628 0 st.code 0).count blkDEV 0x628

/-- A reload from a queue (`some c`) or the management port (`none`): another that is under way holds it. -/
def offerReload (j : Jenjor) (c : Option CmdRef) (sec : Section) : Jenjor :=
  if j.almanacBusy || !j.alm.reloadsWaiting.isEmpty then
    { j with alm := { j.alm with reloadsWaiting := j.alm.reloadsWaiting ++ [(c, sec)] } }
  else j.acceptReload c sec

theorem offerReload_of_free (c : Option CmdRef) (sec : Section) (hb : j.almanacBusy = false) (hw : j.alm.reloadsWaiting = []) :
    j.offerReload c sec = j.acceptReload c sec := by
  rw [offerReload, if_neg (by simp [hb, hw])]

theorem offerReload_of_held (c : Option CmdRef) (sec : Section) (h : j.almanacBusy = true ∨ j.alm.reloadsWaiting ≠ []) :
    j.offerReload c sec = { j with alm := { j.alm with reloadsWaiting := j.alm.reloadsWaiting ++ [(c, sec)] } } := by
  rw [offerReload, if_pos (by rcases h with h | h <;> simp [h])]

theorem acceptReload_of_admitted (src : Option CmdRef) (h : j.reloadStatus sec = none) : j.acceptReload src sec =
    { j with cat := { j.cat with seq := j.cat.seq + 1 },
             alm := { j.alm with reloads := j.alm.reloads ++ [j.acceptedReload src sec] } } := by
  rw [acceptReload, h]
  rfl

theorem acceptReload_mgmt_of_refused {st : Status} (h : j.reloadStatus sec = some st) :
    j.acceptReload none sec = (j.reloadRefused sec st).emit (.mgmt false (st.code.setWidth 64)) := by
  rw [acceptReload, h]
  rfl

theorem acceptReload_cmd_of_refused {st : Status} (c : CmdRef) (h : j.reloadStatus sec = some st) :
    j.acceptReload (some c) sec = (j.reloadRefused sec st).refuse c st := by
  rw [acceptReload, h]
  rfl

theorem reloadRefused_counter (st : Status) : ((j.reloadRefused sec st).counter 0x628).count = (j.counter 0x628).count + 1 := by
  refine (congrArg Ctr.count (counter_bump (j.record 0 blkDEV (secType sec) 0x628 0 st.code 0) 0x628 1 0x628)).trans ?_
  rw [if_pos rfl, counter_record _ _ _ _ _ _ _ _ _ (by decide)]
  rfl

theorem reloadRefused_head (st : Status) : (j.reloadRefused sec st).log.head = j.log.head + 1 := record_head ..

theorem reloadRefused_frame (st : Status) :
    j.reloadRefused sec st = { j with log := (j.reloadRefused sec st).log, ctrs := (j.reloadRefused sec st).ctrs } := by
  unfold reloadRefused
  rw [record_frame]
  rfl

theorem reloadRefused_out (st : Status) : (j.reloadRefused sec st).out = j.out := by
  rw [reloadRefused_frame]

/-! ### Reloads that are persisted (R409, R410) -/

/-- With nothing that waits, nothing proceeds. -/
theorem proceed_of_none_waiting (hr : j.alm.reloadsWaiting = []) (hw : j.alm.writesWaiting = []) (hsw : j.alm.switchesWaiting = []) :
    j.proceed = j := by
  rw [proceed, hr, hw, hsw]
  rfl

/-- The reload `r` as it stands once it is persisted. -/
def persistedReload (j : Jenjor) (r : Reload) (entered : List Nat) : Reload :=
  { r with persisted := true, replaced := j.almanacRings, entered := entered }

/-- Generation, floor, devices and the image in force hold the section of the one reload. -/
def persistedAlone (j : Jenjor) (r : Reload) : Jenjor :=
  let g := secGeneration r.sec
  (({ j with alm := { j.alm with generation := g, floor := g, reloads := [j.persistedReload r []] } }) : Jenjor).storeSection r.sec

section
variable {r : Reload} (hone : j.alm.reloads = [r])
include hone

/-- A section that waits for a boundary is stored, and its reload waits on. -/
theorem persistReload_later (hlater : (waitsBoundary r.sec && j.sw.rings.any sweeping) = true) (hno : ∀ es, r.sec.body ≠ .rings es) :
    j.persistReload r = (j.persistedAlone r).proceed := by
  unfold persistReload
  dsimp only
  rw [hone, hlater]
  cases h : r.sec.body
  case rings es => exact absurd h (hno es)
  all_goals simp [persistedAlone, persistedReload]

/-- Any other section takes effect at once. -/
theorem persistReload_now (hnow : waitsBoundary r.sec = false) :
    j.persistReload r = ((j.persistedAlone r).finishReload (j.persistedReload r [])).proceed := by
  unfold persistReload
  dsimp only
  rw [hone, hnow]
  cases r.sec.body <;> simp [persistedAlone, persistedReload]

end

/-- The blocks once the body of the one reload has its effect. -/
def bodyApplied (j : Jenjor) (r : Reload) : Jenjor := (j.persistedAlone r).applyBody j.almanacRings [] r.sec.body

/-- The one reload, of the management port, has its effect, is counted and is answered. -/
def reloadDone (j : Jenjor) (r : Reload) : Jenjor :=
  let k := j.bodyApplied r
  (({ k.count blkDEV 0x620 with alm := { k.alm with reloads := [] } } : Jenjor).emit
    (.mgmt true (BitVec.ofNat 64 (secGeneration r.sec))))

theorem finishReload_alone {r : Reload} (hsrc : r.src = none)
    (hone : (j.bodyApplied r).alm.reloads = [j.persistedReload r []]) :
    (j.persistedAlone r).finishReload (j.persistedReload r []) = j.reloadDone r := by
  have hk : (j.persistedAlone r).applyBody (j.persistedReload r []).replaced (j.persistedReload r []).entered
      (j.persistedReload r []).sec.body = j.bodyApplied r := rfl
  unfold finishReload reloadDone
  dsimp only
  rw [hk, count_alm, hone, show (j.persistedReload r []).src = none from hsrc]
  simp [persistedReload]

end Jenjor

open Jenjor

section
variable {s : State} (hs : s.j.live = true)
include hs

theorem exec_sectionReload_mgmt (sec : Section) (hstep : s.j.alm.step = 7 ∨ s.j.alm.step = 8) :
    exec (.sectionReload none sec) s = .next { s with j := s.j.offerReload none sec } := by
  rw [show exec (.sectionReload none sec) s = execSectionReload none sec s from rfl, execSectionReload, onBlocks_of_live _ hs]
  dsimp only
  rw [if_pos (by rcases hstep with h | h <;> simp [h])]
  rfl

theorem exec_sectionReload_refused (sec : Section) (hstep : s.j.alm.step < 7 ∨ s.j.alm.step = 9) :
    exec (.sectionReload none sec) s = .next { s with j := s.j.refuseMgmt 0x53 } := by
  rw [show exec (.sectionReload none sec) s = execSectionReload none sec s from rfl, execSectionReload, onBlocks_of_live _ hs]
  dsimp only
  rw [if_neg (by simp; omega)]

theorem exec_sectionReload_cmd {q : Nat} (sec : Section) {f : Fetched} {j : Jenjor} (h : s.j.takeCatalogue q 0x53 = some (f, j)) :
    exec (.sectionReload (some q) sec) s = .next { s with j := j.offerReload (some f.ref) sec } := by
  rw [show exec (.sectionReload (some q) sec) s = execSectionReload (some q) sec s from rfl, execSectionReload,
    onBlocks_of_live _ hs]
  dsimp only
  rw [h]
  rfl

theorem exec_sectionPersisted {r : Reload} (hone : s.j.alm.reloads = [r]) (hp : r.persisted = false) :
    exec .sectionPersisted s = .next { s with j := s.j.persistReload r } := by
  rw [show exec .sectionPersisted s = execSectionPersisted s from rfl, execSectionPersisted, onBlocks_of_live _ hs]
  simp [hone, hp]

theorem exec_sectionPersisted_of_none (h : ∀ r ∈ s.j.alm.reloads, r.persisted = true) : exec .sectionPersisted s = .next s := by
  have hnone : (s.j.alm.reloads.find? fun r => !r.persisted) = none := by simpa using h
  rw [show exec .sectionPersisted s = execSectionPersisted s from rfl, execSectionPersisted, onBlocks_of_live _ hs]
  simp [hnone]

section
variable {r : Reload} (hone : s.j.alm.reloads = [r]) (hp : r.persisted = false) (hr : s.j.alm.reloadsWaiting = [])
  (hw : s.j.alm.writesWaiting = []) (hsw : s.j.alm.switchesWaiting = [])
include hone hp hr hw hsw

theorem exec_sectionPersisted_later (hlater : waitsBoundary r.sec = true) (hsweep : s.j.sw.rings.any sweeping = true)
    (hno : ∀ es, r.sec.body ≠ .rings es) : exec .sectionPersisted s = .next { s with j := s.j.persistedAlone r } := by
  rw [exec_sectionPersisted hs hone hp, persistReload_later hone (by rw [hlater, hsweep]; rfl) hno,
    proceed_of_none_waiting (j := s.j.persistedAlone r) hr hw hsw]

theorem exec_sectionPersisted_now (hsrc : r.src = none) (hnow : waitsBoundary r.sec = false)
    (halm : (s.j.bodyApplied r).alm.reloads = [s.j.persistedReload r []] ∧ (s.j.bodyApplied r).alm.reloadsWaiting = s.j.alm.reloadsWaiting ∧
      (s.j.bodyApplied r).alm.writesWaiting = s.j.alm.writesWaiting ∧
      (s.j.bodyApplied r).alm.switchesWaiting = s.j.alm.switchesWaiting) :
    exec .sectionPersisted s = .next { s with j := s.j.reloadDone r } := by
  obtain ⟨hreloads, hrw, hww, hsww⟩ := halm
  rw [exec_sectionPersisted hs hone hp, persistReload_now hone hnow, finishReload_alone hsrc hreloads,
    proceed_of_none_waiting (j := s.j.reloadDone r) (hrw.trans hr) (hww.trans hw) (hsww.trans hsw)]

end
end

section
variable {j : Jenjor} {r : Reload} {es : List PlanEntry} {cas : List (Nat × Role)} {w : Bool}

/-- Nothing that waits, and no reload, changes where a body has its effect. -/
def waitsKept (j : Jenjor) (r : Reload) : Prop :=
  (j.bodyApplied r).alm.reloads = [j.persistedReload r []] ∧ (j.bodyApplied r).alm.reloadsWaiting = j.alm.reloadsWaiting ∧
    (j.bodyApplied r).alm.writesWaiting = j.alm.writesWaiting ∧ (j.bodyApplied r).alm.switchesWaiting = j.alm.switchesWaiting

theorem waitsKept_queuePlan (hbody : r.sec.body = .queuePlan es) : waitsKept j r := by
  unfold waitsKept bodyApplied
  rw [hbody]
  exact ⟨rfl, rfl, rfl, rfl⟩

theorem waitsKept_security (hbody : r.sec.body = .security cas w) : waitsKept j r := by
  unfold waitsKept bodyApplied
  rw [hbody]
  exact ⟨rfl, rfl, rfl, rfl⟩

theorem reloadDone_security (hbody : r.sec.body = .security cas w) : (j.reloadDone r).alm.cas = cas ∧
    (j.reloadDone r).alm.witnessCa = w ∧ (j.reloadDone r).dom.tls = j.dom.tls.filter cas.contains ∧
    (j.reloadDone r).alm.reloads = [] := by
  unfold reloadDone bodyApplied
  rw [hbody]
  exact ⟨rfl, rfl, rfl, rfl⟩

/-- The queue plan in force, its reload done. -/
theorem reloadDone_queuePlan (hbody : r.sec.body = .queuePlan es) : j.reloadDone r =
    ((({ j.persistedAlone r with alm := { (j.persistedAlone r).alm with plan := es, planSet := true, reloads := [] } } :
      Jenjor).count blkDEV 0x620).emit (.mgmt true (BitVec.ofNat 64 (secGeneration r.sec)))) := by
  unfold reloadDone bodyApplied
  rw [hbody]
  rfl

end

/-- Settles O42: a reload that is offered goes through `acceptReload` or waits; one that is persisted is stored, and its
body has its effect at once or waits for the boundary. -/
theorem sectionReloads : Obligations.SectionReloads := by
  refine ⟨fun s sec hs hstep => ⟨fun hb hw => ⟨fun h => ?_, fun st h => ?_⟩, fun h => ?_⟩, fun s sec hs hstep => ?_,
    fun s q sec f j hs htake hb hw => ⟨fun h => ?_, fun st h => ?_⟩,
    fun s r hs hone hp hr hw hsw => ⟨fun hlater hsweep hno => ?_, fun es hsrc hnow hbody => ?_, fun cas w hsrc hnow hbody => ?_⟩,
    fun s hs h => exec_sectionPersisted_of_none hs h⟩
  · refine ⟨_, s.j.acceptedReload none sec, exec_sectionReload_mgmt hs sec hstep, rfl, rfl, rfl, rfl, rfl, ?_⟩
    rw [offerReload_of_free _ _ hb hw, acceptReload_of_admitted none h]
  · refine ⟨_, exec_sectionReload_mgmt hs sec hstep, ?_⟩
    rw [offerReload_of_free _ _ hb hw, acceptReload_mgmt_of_refused h]
    refine ⟨congrArg (_ :: ·) (reloadRefused_out st), reloadRefused_head st, reloadRefused_counter st, ?_⟩
    rw [reloadRefused_frame]
    rfl
  · rw [exec_sectionReload_mgmt hs sec hstep, offerReload_of_held none sec h]
  · exact ⟨_, exec_sectionReload_refused hs sec hstep, turnedAway_refuseMgmt s 0x53⟩
  · refine ⟨_, j.acceptedReload (some f.ref) sec, exec_sectionReload_cmd hs sec htake, rfl, rfl, rfl, rfl, ?_⟩
    rw [offerReload_of_free _ _ hb hw, acceptReload_of_admitted (some f.ref) h]
  · refine ⟨j.reloadRefused sec st, ?_, reloadRefused_counter st, reloadRefused_head st, reloadRefused_frame st⟩
    rw [exec_sectionReload_cmd hs sec htake, offerReload_of_free _ _ hb hw, acceptReload_cmd_of_refused f.ref h]
  · exact ⟨_, exec_sectionPersisted_later hs hone hp hr hw hsw hlater hsweep hno, rfl, rfl, rfl, rfl, rfl⟩
  · refine ⟨_, exec_sectionPersisted_now hs hone hp hr hw hsw hsrc hnow (waitsKept_queuePlan hbody), ?_⟩
    rw [reloadDone_queuePlan hbody]
    exact ⟨rfl, rfl, rfl, rfl, rfl, rfl, rfl, congrArg Ctr.count (counter_bump s.j 0x620 1 0x620), rfl⟩
  · exact ⟨_, exec_sectionPersisted_now hs hone hp hr hw hsw hsrc hnow (waitsKept_security hbody), reloadDone_security hbody⟩

end Sys2Proof.Machine
end


section
namespace Sys2Proof.Machine
namespace Jenjor

variable {j : Jenjor}

/-! ### The firmware switch (R413) -/

/-- FIRMWARE_SWITCH of record `b`, taken off its queue: what is under way holds it. -/
def offerSwitch (j : Jenjor) (b : Bool) (c : CmdRef) : Jenjor :=
  if j.almanacBusy || !j.alm.reloads.isEmpty || !j.alm.reloadsWaiting.isEmpty || !j.alm.switchesWaiting.isEmpty then
    { j with alm := { j.alm with switchesWaiting := j.alm.switchesWaiting ++ [(b, c)] } }
  else j.beginSwitch b c

theorem offerSwitch_of_busy (b : Bool) (c : CmdRef) (h : j.almanacBusy = true) :
    j.offerSwitch b c = { j with alm := { j.alm with switchesWaiting := j.alm.switchesWaiting ++ [(b, c)] } } := by
  rw [offerSwitch, if_pos (by simp [h])]

theorem offerSwitch_of_free (b : Bool) (c : CmdRef) (hb : j.almanacBusy = false) (hr : j.alm.reloads = [])
    (hw : j.alm.reloadsWaiting = []) (hsw : j.alm.switchesWaiting = []) : j.offerSwitch b c = j.beginSwitch b c := by
  rw [offerSwitch, if_neg (by simp [hb, hr, hw, hsw])]

section
variable {b : Bool} (c : CmdRef)

theorem beginSwitch_of_running (h : b = j.alm.running) :
    j.beginSwitch b c = j.complete c .success 0 (BitVec.ofNat 64 j.alm.runSecver) none := by
  rw [beginSwitch, if_pos h]

variable (hb : b ≠ j.alm.running)
include hb

theorem beginSwitch_of_not_runnable (h : j.runnable (j.fwRec b) = false) : j.beginSwitch b c = j.refuse c .parameterInvalid := by
  rw [beginSwitch, if_neg hb, h]
  rfl

theorem beginSwitch_of_barred (hr : j.runnable (j.fwRec b) = true) (h : j.arithBars (j.fwRec b) = true) :
    j.beginSwitch b c = (j.discard 0 0x54).refuse c .parameterInvalid := by
  rw [beginSwitch, if_neg hb, hr, h]
  rfl

theorem beginSwitch_of_runnable (hr : j.runnable (j.fwRec b) = true) (h : j.arithBars (j.fwRec b) = false) :
    j.beginSwitch b c = { j with alm := { j.alm with switchTo := some (b, some c) } } := by
  rw [beginSwitch, if_neg hb, hr, h]
  rfl

end

theorem runnable_eq_false {r : FwRecord} (h : fwSecver r < j.dom.secverFuses ∨ r.sigOk = false ∨ r.digestOk = false ∨ r.present = false ∨
    fwHeaderOk r = false) : j.runnable r = false := by
  rcases h with h | h | h | h | h <;> simp [runnable, h]

theorem arithBars_of_same {r : FwRecord} (h : fwArith r = j.arithRev) : j.arithBars r = false := by
  simp [arithBars, h]

theorem arithBars_of_other {r : FwRecord} (h : fwArith r ≠ j.arithRev) (hold : j.sw.rings.any holdsClusters = true) :
    j.arithBars r = true := by
  simp [arithBars, h, hold]

/-- The new image runs, and every session has ended; no command is answered yet. -/
def switched (j : Jenjor) (b : Bool) : Jenjor :=
  { j with alm := { j.alm with running := b, runSecver := fwSecver (j.fwRec b), selected := some b, switchTo := none,
                               runtimeSeq := j.alm.runtimeSeq + 1 },
           dom := { j.dom with sessions := [], tls := [] } }

/-- With the same arithmetic, the pair stays as it is. -/
theorem switchImage_of_same_arith {b : Bool} (c : CmdRef) (hp : (j.fwRec b).present = true) (h : fwArith (j.fwRec b) = j.arithRev) :
    j.switchImage b (some c) = (j.switched b).complete c .success 0 (BitVec.ofNat 64 (fwSecver (j.fwRec b))) none := by
  have harith : (j.switched b).arithRev = j.arithRev := by
    have hrec : (j.switched b).arithRev = if (j.fwRec b).present then fwArith (j.fwRec b) else 1 := rfl
    rw [hrec, if_pos hp, h]
  exact congrArg (fun k : Jenjor => k.complete c .success 0 (BitVec.ofNat 64 (fwSecver (j.fwRec b))) none) (if_pos harith)

/-! ### Image writes (R411) -/

theorem acceptImage_of_free (img : Image) (hb : j.almanacBusy = false) (hr : j.alm.reloadsWaiting = []) (hw : j.alm.writesWaiting = []) :
    j.acceptImage img = { j with alm := { j.alm with writing := some img } } := by
  have hfuel : 0 + [img].length + j.alm.switchesWaiting.length = j.alm.switchesWaiting.length + 1 := by simp; omega
  have hbusy : ({ j with alm := { j.alm with writesWaiting := [img] } } : Jenjor).almanacBusy = false := hb
  unfold acceptImage proceed
  simp only [hr, hw, List.nil_append, List.length_nil]
  rw [hfuel, almanacProceed, if_neg (by rw [← hr, hbusy]; exact Bool.false_ne_true)]

theorem almanacProceed_of_busy (n : Nat) (hb : j.almanacBusy = true) : almanacProceed n j = j := by
  cases n with
  | zero => rfl
  | succ n => exact if_pos hb

theorem acceptImage_of_busy (img : Image) (hb : j.almanacBusy = true) :
    j.acceptImage img = { j with alm := { j.alm with writesWaiting := j.alm.writesWaiting ++ [img] } } :=
  almanacProceed_of_busy _ hb

theorem almanacBusy_of_writing (h : j.alm.writing.isSome = true) : j.almanacBusy = true := by
  simp [almanacBusy, h]

/-- An image that both devices hold, its client answered. -/
def imageStored (j : Jenjor) (img : Image) : Jenjor := (j.imageWritten img).acceptMgmt 0

end Jenjor

open Jenjor

section
variable {s : State} (hs : s.j.live = true)
include hs

theorem exec_firmwareSwitch {q : Nat} {f : Fetched} {j : Jenjor} (h : s.j.takeFetched q 0x54 = some (f, j)) :
    exec (.firmwareSwitch q) s = .next { s with j := j.offerSwitch (dField f.d 8 1 == 1) f.ref } := by
  rw [show exec (.firmwareSwitch q) s = execFirmwareSwitch q s from rfl, execFirmwareSwitch, onBlocks_of_live _ hs]
  dsimp only
  rw [h]
  rfl

section
variable {b : Bool} {c : CmdRef} (hto : s.j.alm.switchTo = some (b, some c)) (hr : s.j.alm.reloadsWaiting = [])
  (hw : s.j.alm.writesWaiting = []) (hsw : s.j.alm.switchesWaiting = [])
include hto hr hw hsw

theorem exec_firmwareSwitchApply_same (hp : (s.j.fwRec b).present = true) (h : fwArith (s.j.fwRec b) = s.j.arithRev) :
    exec .firmwareSwitchApply s = .next { s with j := ((s.j.switched b).complete c .success 0
      (BitVec.ofNat 64 (fwSecver (s.j.fwRec b))) none) } := by
  rw [show exec .firmwareSwitchApply s = execFirmwareSwitchApply s from rfl, execFirmwareSwitchApply, onBlocks_of_live _ hs, hto]
  dsimp only
  rw [arithBars_of_same h, if_neg Bool.false_ne_true, switchImage_of_same_arith c hp h, proceed_of_none_waiting]
  · rw [complete_alm]; exact hr
  · rw [complete_alm]; exact hw
  · rw [complete_alm]; exact hsw

theorem exec_firmwareSwitchApply_barred (h : s.j.arithBars (s.j.fwRec b) = true) :
    exec .firmwareSwitchApply s = .next { s with j := (({ s.j.discard 0 0x54 with
      alm := { (s.j.discard 0 0x54).alm with switchTo := none } } : Jenjor).refuse c .parameterInvalid) } := by
  rw [show exec .firmwareSwitchApply s = execFirmwareSwitchApply s from rfl, execFirmwareSwitchApply, onBlocks_of_live _ hs, hto]
  dsimp only
  rw [h, if_pos rfl, dropSwitch, proceed_of_none_waiting]
  · rw [refuse_alm, discard_alm]; exact hr
  · rw [refuse_alm, discard_alm]; exact hw
  · rw [refuse_alm, discard_alm]; exact hsw

theorem exec_firmwareSwitchWatchdog : exec .firmwareSwitchWatchdog s = .next { s with j := (({ s.j with
    alm := { s.j.alm with switchTo := none } } : Jenjor).refuse c .internalError) } := by
  rw [show exec .firmwareSwitchWatchdog s = execFirmwareSwitchWatchdog s from rfl, execFirmwareSwitchWatchdog, onBlocks_of_live _ hs, hto]
  dsimp only
  rw [dropSwitch, proceed_of_none_waiting]
  · rw [refuse_alm]; exact hr
  · rw [refuse_alm]; exact hw
  · rw [refuse_alm]; exact hsw

end

theorem exec_switch_of_none (h : s.j.alm.switchTo = none) :
    exec .firmwareSwitchApply s = .next s ∧ exec .firmwareSwitchWatchdog s = .next s := by
  rw [show exec .firmwareSwitchApply s = execFirmwareSwitchApply s from rfl, execFirmwareSwitchApply, onBlocks_of_live _ hs,
    show exec .firmwareSwitchWatchdog s = execFirmwareSwitchWatchdog s from rfl, execFirmwareSwitchWatchdog, onBlocks_of_live _ hs, h]
  exact ⟨rfl, rfl⟩

theorem exec_almanacWrite_accepted {img : Image} (h7 : 7 ≤ s.j.alm.step) (h9 : s.j.alm.step ≤ 9) (hok : s.j.imageRefused img = false) :
    exec (.almanacWrite .operator img) s = .next { s with j := s.j.acceptImage img } := by
  rw [show exec (.almanacWrite .operator img) s = execAlmanacWrite .operator img s from rfl, execAlmanacWrite, onBlocks_of_live _ hs]
  rw [if_neg (by simp [h7, h9, hok])]

theorem exec_almanacWrite_refused (r : Role) {img : Image} (h : r ≠ .operator ∨ s.j.alm.step < 7 ∨ s.j.imageRefused img = true) :
    exec (.almanacWrite r img) s = .next { s with j := s.j.refuseMgmt 0x411 } := by
  rw [show exec (.almanacWrite r img) s = execAlmanacWrite r img s from rfl, execAlmanacWrite, onBlocks_of_live _ hs]
  rw [if_pos (by rcases h with h | h | h <;> simp [h])]

theorem exec_almanacWriteComplete_recovery {img : Image} (hwriting : s.j.alm.writing = some img) (h9 : s.j.alm.step = 9) :
    exec .almanacWriteComplete s = onPower (fun mem j => restart mem (j.imageStored img)) s := by
  rw [show exec .almanacWriteComplete s = execAlmanacWriteComplete s from rfl, execAlmanacWriteComplete, if_pos hs, hwriting]
  exact if_pos h9

theorem exec_almanacWriteComplete_service {img : Image} (hwriting : s.j.alm.writing = some img) (h9 : s.j.alm.step ≠ 9) :
    exec .almanacWriteComplete s = .next { s with j := (s.j.imageStored img).proceed } := by
  rw [show exec .almanacWriteComplete s = execAlmanacWriteComplete s from rfl, execAlmanacWriteComplete, if_pos hs, hwriting]
  exact if_neg h9

end

theorem exec_almanacWriteComplete_of_none (s : State) (h : s.j.alm.writing = none) : exec .almanacWriteComplete s = .next s := by
  rw [show exec .almanacWriteComplete s = execAlmanacWriteComplete s from rfl, execAlmanacWriteComplete, h, ite_self]

/-! ### Firmware writes (R405, R412) -/

/-- The record that a firmware write goes into: in recovery the one that it names, otherwise the one that is not
running. -/
def writesB (j : Jenjor) (named : Bool) : Bool := if j.alm.step = 9 then named else !j.alm.running

/-- R412 admits a firmware write. -/
def firmwareAdmitted (j : Jenjor) (r : Role) (named : Bool) (rec : FwRecord) : Bool :=
  r == .operator && 7 ≤ j.alm.step && j.alm.step ≤ 9 && j.runnable rec && !fwRecordBad (writesB j named) rec

section
variable {s : State} (hs : s.j.live = true) {r : Role} {named : Bool} {rec : FwRecord}
include hs

theorem exec_firmwareWrite : exec (.firmwareWrite r named rec) s =
    if firmwareAdmitted s.j r named rec && decide (s.j.alm.step = 9) then
      onPower (fun mem j => restart mem ((j.storeRecord (writesB s.j named) rec).acceptMgmt 0)) s
    else onBlocks (fun j => if firmwareAdmitted s.j r named rec then (j.storeRecord (writesB s.j named) rec).acceptMgmt 0
      else j.refuseMgmt 0x412) s := by
  rw [show exec (.firmwareWrite r named rec) s = execFirmwareWrite r named rec s from rfl, execFirmwareWrite]
  simp only [hs, Bool.true_and]
  rfl

theorem exec_firmwareWrite_refused (h : firmwareAdmitted s.j r named rec = false) :
    exec (.firmwareWrite r named rec) s = .next { s with j := s.j.refuseMgmt 0x412 } := by
  rw [exec_firmwareWrite hs, h, if_neg (by simp)]
  exact onBlocks_of_live _ hs

theorem exec_firmwareWrite_recovery (h9 : s.j.alm.step = 9) (h : firmwareAdmitted s.j r named rec = true) :
    exec (.firmwareWrite r named rec) s =
      onPower (fun mem j => restart mem ((j.storeRecord (writesB s.j named) rec).acceptMgmt 0)) s := by
  rw [exec_firmwareWrite hs, h, if_pos (by simp [h9])]

theorem exec_firmwareWrite_service (h9 : s.j.alm.step ≠ 9) (h : firmwareAdmitted s.j r named rec = true) :
    exec (.firmwareWrite r named rec) s =
      .next { s with j := (s.j.storeRecord (writesB s.j named) rec).acceptMgmt 0 } := by
  rw [exec_firmwareWrite hs, h, if_neg (by simp [h9])]
  exact onBlocks_of_live _ hs

end

theorem firmwareAdmitted_service {j : Jenjor} {rec : FwRecord} (named : Bool) (hstep : j.alm.step = 7 ∨ j.alm.step = 8)
    (hrun : j.runnable rec = true) (hbad : fwRecordBad (!j.alm.running) rec = false) :
    firmwareAdmitted j .operator named rec = true := by
  rcases hstep with h | h <;> simp [firmwareAdmitted, writesB, h, hrun, hbad]

theorem firmwareAdmitted_eq_false {j : Jenjor} {r : Role} {named : Bool} {rec : FwRecord}
    (h : r ≠ .operator ∨ j.alm.step < 7 ∨ j.runnable rec = false ∨ (j.alm.step ≠ 9 ∧ fwRecordBad (!j.alm.running) rec = true) ∨
      (j.alm.step = 9 ∧ fwRecordBad named rec = true)) : firmwareAdmitted j r named rec = false := by
  rcases h with h | h | h | ⟨h9, h⟩ | ⟨h9, h⟩
  · simp [firmwareAdmitted, h]
  · simp [firmwareAdmitted, h]
  · simp [firmwareAdmitted, h]
  · simp [firmwareAdmitted, writesB, h9, h]
  · simp [firmwareAdmitted, writesB, h9, h]

/-- The record that does not run takes the new one, and the other stays. -/
theorem storeRecord_records (j : Jenjor) (rec : FwRecord) : if j.alm.running then
    (j.storeRecord (!j.alm.running) rec).alm.fwA = rec ∧ (j.storeRecord (!j.alm.running) rec).alm.fwB = j.alm.fwB
    else (j.storeRecord (!j.alm.running) rec).alm.fwB = rec ∧ (j.storeRecord (!j.alm.running) rec).alm.fwA = j.alm.fwA := by
  cases j.alm.running <;> exact ⟨rfl, rfl⟩

/-- Settles O43: a switch that nothing holds answers by the record it names, and ends by what that record's arithmetic
allows; an image and a firmware record that are admitted reach both devices. -/
theorem firmwareAndImageWrites : Obligations.FirmwareAndImageWrites := by
  refine ⟨fun s q f j htakes => ⟨fun hb => ?_, fun hb hr hw hsw => ⟨fun hrun => ?_, fun hrun h => ?_, fun hrun hok h => ?_,
      fun hrun hok h hold => ?_⟩⟩,
    fun s b c hs hto hr hw hsw => ⟨fun hp h => ?_, fun h hold => ?_, exec_firmwareSwitchWatchdog hs hto hr hw hsw⟩,
    fun s hs h => exec_switch_of_none hs h, fun s img hs => ⟨fun h7 h9 hok hb hr hw => ?_, fun h7 h9 hok hwriting => ?_, fun r h => ?_⟩,
    fun s img hs hwriting => ⟨fun h9 => ?_, fun h9 hr hw hsw => ?_⟩, fun s _ h => exec_almanacWriteComplete_of_none s h,
    fun s named rec hs => ⟨fun hstep hrun hbad => ?_, fun h9 hrun hbad => ?_, fun r h => ?_⟩⟩
  · rw [exec_firmwareSwitch htakes.1 htakes.2, offerSwitch_of_busy _ _ hb]
  · rw [exec_firmwareSwitch htakes.1 htakes.2, offerSwitch_of_free _ _ hb hr hw hsw, beginSwitch_of_running _ hrun]
  · rw [exec_firmwareSwitch htakes.1 htakes.2, offerSwitch_of_free _ _ hb hr hw hsw,
      beginSwitch_of_not_runnable _ hrun (runnable_eq_false h)]
  · rw [exec_firmwareSwitch htakes.1 htakes.2, offerSwitch_of_free _ _ hb hr hw hsw,
      beginSwitch_of_runnable _ hrun hok (arithBars_of_same h)]
  · refine ⟨j.discard 0 0x54, ?_, discard_frame ..⟩
    rw [exec_firmwareSwitch htakes.1 htakes.2, offerSwitch_of_free _ _ hb hr hw hsw,
      beginSwitch_of_barred _ hrun hok (arithBars_of_other h hold)]
  · exact ⟨_, exec_firmwareSwitchApply_same hs hto hr hw hsw hp h, rfl, rfl, rfl, rfl, rfl, rfl, rfl⟩
  · refine ⟨_, exec_firmwareSwitchApply_barred hs hto hr hw hsw (arithBars_of_other h hold), ?_, ?_⟩
    · dsimp only
      rw [discard_alm]
    · rw [discard_frame]
  · rw [exec_almanacWrite_accepted hs h7 h9 hok, acceptImage_of_free img hb hr hw]
  · rw [exec_almanacWrite_accepted hs h7 h9 hok, acceptImage_of_busy img (almanacBusy_of_writing hwriting)]
  · exact ⟨_, exec_almanacWrite_refused hs r h, turnedAway_refuseMgmt s 0x411⟩
  · exact ⟨_, exec_almanacWriteComplete_recovery hs hwriting h9, rfl, rfl, rfl, rfl, rfl, rfl, rfl, rfl⟩
  · refine ⟨_, exec_almanacWriteComplete_service hs hwriting h9, ?_⟩
    rw [proceed_of_none_waiting (j := s.j.imageStored img) hr hw hsw]
    exact ⟨rfl, rfl, rfl, rfl, rfl, rfl, rfl, rfl, rfl⟩
  · have h9 : s.j.alm.step ≠ 9 := by omega
    refine ⟨_, exec_firmwareWrite_service hs h9 (firmwareAdmitted_service named hstep hrun hbad), ?_, ?_, ?_⟩
    · rw [writesB, if_neg h9]
      exact storeRecord_records s.j rec
    · rfl
    · rfl
  · refine ⟨_, exec_firmwareWrite_recovery hs h9 ?_, rfl, rfl⟩
    simp [firmwareAdmitted, writesB, h9, hrun, hbad]
  · exact ⟨_, exec_firmwareWrite_refused hs (firmwareAdmitted_eq_false h), turnedAway_refuseMgmt s 0x412⟩

end Sys2Proof.Machine
end


section
namespace Sys2Proof.Machine
open Jenjor

/-! ### Board interfaces (R464 to R466) -/

/-- A sensor's reading draws at most a free value. -/
theorem sensorValue_frame (j : Jenjor) (n : Nat) :
    (sensorValue j n).2 = { j with freeIdx := (sensorValue j n).2.freeIdx } := by
  unfold sensorValue
  dsimp only
  split_ifs <;> rfl

theorem sensorValue_power (j : Jenjor) : (sensorValue j 2).1 = j.isl.avgW := rfl

theorem sensorValue_hottest (j : Jenjor) : (sensorValue j 7).1 = j.hottest := rfl

theorem exec_pldmSensorRequest {s : State} (hs : s.j.live = true) {n : Nat} (hn : n < 20) : exec (.pldmSensorRequest n) s =
    .next { s with j := (sensorValue s.j n).2.emit (.pldmReading n (sensorValue s.j n).1) } :=
  (if_pos (decide_eq_true hn)).trans
    (onBlocks_of_live (fun j => (sensorValue j n).2.emit (.pldmReading n (sensorValue j n).1)) hs)

theorem pldmSensor_answered {s : State} (hs : s.j.live = true) {n : Nat} (hn : n < 20) :
    ∃ t v, exec (.pldmSensorRequest n) s = .next t ∧ t.j.out = .pldmReading n v :: s.j.out ∧
      (n = 2 → v = s.j.isl.avgW) ∧ (n = 7 → v = s.j.hottest) ∧
      t = { s with j := { s.j with out := t.j.out, freeIdx := t.j.freeIdx } } := by
  refine ⟨_, (sensorValue s.j n).1, exec_pldmSensorRequest hs hn, ?_, ?_, ?_, ?_⟩
  · rw [sensorValue_frame]
    rfl
  · rintro rfl
    exact sensorValue_power s.j
  · rintro rfl
    exact sensorValue_hottest s.j
  · rw [sensorValue_frame]
    rfl

theorem exec_mgmtLinkUp {s : State} (hs : s.j.live = true) : exec .mgmtLinkUp s = .next { s with j :=
    (if mgmtPortUp s.j then { s.j with isl := { s.j.isl with ledLinkLow := true } } else s.j) } :=
  onBlocks_of_live (fun j => if mgmtPortUp j then { j with isl := { j.isl with ledLinkLow := true } } else j) hs

/-! ### JTAG (R466) -/

/-- What the Logbook notes of a scan instruction that every life-cycle state allows. -/
def scanNote : JtagInstr → Option Nat
  | .bypass => some 0
  | .extest => some 2
  | .sample => some 3
  | .preload => some 4
  | .clamp => some 5
  | .extestPulse => some 6
  | .extestTrain => some 7
  | .idcode | .other _ => none

section
variable {s : State}

section
variable (hp : s.j.isl.power ≠ .off)
include hp

theorem exec_jtag_scan {i : JtagInstr} {n : Nat} (hi : scanNote i = some n) :
    exec (.jtagInstruction i) s = .next { s with j := s.j.info blkISL 0 0xFFFF n } := by
  refine (if_neg hp).trans ?_
  cases i <;> cases hi <;> rfl

theorem exec_jtag_idcode : exec (.jtagInstruction .idcode) s =
    .next { s with j := (s.j.info blkISL 0 0xFFFF 1).emit (.jtag 0xB8400C9F) } :=
  if_neg hp

theorem exec_jtag_other (code : Nat) : exec (.jtagInstruction (.other code)) s = .next { s with j :=
    (if debugOpen s.j.dom then s.j.info blkISL 0 0xFFFF (256 + code) else s.j.discard 0x466 code) } :=
  if_neg hp

end

/-- A scan instruction is recorded, and nothing else happens. -/
theorem jtag_recorded {i : JtagInstr} (h : ∃ n, exec (.jtagInstruction i) s = .next { s with j := s.j.info blkISL 0 0xFFFF n }) :
    ∃ t, exec (.jtagInstruction i) s = .next t ∧ t.j.log.head = s.j.log.head + 1 ∧ t.j.counter 0xF0020 = s.j.counter 0xF0020 ∧
      t = { s with j := { s.j with log := t.j.log, ctrs := t.j.ctrs } } := by
  obtain ⟨n, hexec⟩ := h
  refine ⟨_, hexec, record_head .., counter_info _ _ _ _ _ _ (by decide), ?_⟩
  exact congrArg (fun j => { s with j := j }) (info_frame ..)

end

theorem exists_scanNote : ∀ i ∈ [JtagInstr.bypass, .extest, .sample, .preload, .clamp, .extestPulse, .extestTrain],
    ∃ n, scanNote i = some n := by
  simp [scanNote]

/-- Settles O47: a sensor's reading draws at most a free value; a scan instruction leaves its record, whose number tells it
apart, and one beyond boundary scan is discarded where debug is closed. -/
theorem boardInterfaces : Obligations.BoardInterfaces := by
  refine ⟨fun s n hs => ⟨fun hn => pldmSensor_answered hs hn, fun hn => if_neg (by simp [hn])⟩, fun s hs => ⟨?_, ?_, ?_, ?_, ?_⟩,
    fun s code hp => ⟨?_, fun i hi => ?_, fun h => ?_, fun hd h => ?_⟩, fun s i hp => if_pos hp⟩
  · exact onBlocks_of_live (fun j => { j with isl := { j.isl with alertLow := false } }) hs
  · exact onBlocks_of_live (fun j => { j with isl := { j.isl with smbReleased := true } }) hs
  · exact onBlocks_of_live (fun j => { j with isl := { j.isl with ledLinkLow := false } }) hs
  · intro h5
    rw [exec_mgmtLinkUp hs, if_pos (by simp [mgmtPortUp, h5])]
  · intro h5
    rw [exec_mgmtLinkUp hs, if_neg (by simp [mgmtPortUp, h5])]
  · refine ⟨_, exec_jtag_idcode hp, congrArg (_ :: ·) (info_out ..), record_head .., ?_⟩
    rw [info_frame]
    rfl
  · obtain ⟨n, hn⟩ := exists_scanNote i hi
    obtain ⟨t, ht, hhead, -, hframe⟩ := jtag_recorded ⟨n, exec_jtag_scan hp hn⟩
    exact ⟨t, ht, hhead, hframe⟩
  · refine jtag_recorded ⟨256 + code, ?_⟩
    rw [exec_jtag_other hp, if_pos (by rcases h with h | h | h <;> simp [debugOpen, h])]
  · have hclosed : debugOpen s.j.dom = false := by
      rcases h with h | h <;> simp [debugOpen, hd, h]
    refine ⟨_, (exec_jtag_other hp code).trans (by rw [hclosed, if_neg Bool.false_ne_true]), discard_count .., discard_head .., ?_⟩
    exact congrArg (fun j => { s with j := j }) (discard_frame ..)

end Sys2Proof.Machine
end


section
namespace Sys2Proof.Machine
open Jenjor

/-! ### The START rings (R407) -/

theorem exec_ringRestoreComplete {s : State} (hs : s.j.live = true) {n : Nat} (hn : n < 64) (bad : List Nat) :
    exec (.ringRestoreComplete ⟨n, bad⟩) s =
      .next { s with j := (if s.j.alm.step = 7 ∧ s.j.nextStart = some n then s.j.ringRestored n bad else s.j) } :=
  (if_pos (decide_eq_true hn)).trans
    (onBlocks_of_live (fun j => if j.alm.step = 7 ∧ j.nextStart = some n then j.ringRestored n bad else j) hs)

/-- A START ring whose plates are in place waits no more. -/
theorem almanacStart_cleared (j : Jenjor) (n blk cause addr : Nat) :
    ∀ r ∈ ((j.mapRing n fun r => { r with almanacStart := false }).info blk n cause addr).sw.rings, r.num = n →
      r.almanacStart = false := by
  rw [info_sw]
  intro r hr hnum
  obtain ⟨x, -, rfl⟩ := mem_updWhere hr
  split at hnum
  · next h =>
    rw [if_pos h]
  · next h =>
    exact absurd (by simpa using hnum) h

/-! ### The end of a life-cycle change (R372) -/

/-- What a life-cycle change leaves to the reset that ends it. -/
def lifeAdvanced (j : Jenjor) (next : LifeCycle) : Jenjor :=
  { j with vlt := { j.vlt with erasing := false },
           alm := { j.alm with floor := 0, owner := 0, selected := none, runtimeSeq := 0, training := [] },
           dom := { j.dom with life := laterLife j.dom.life next, lifeErase := none,
                               seedErased := j.dom.seedErased || next == .scrapped } }

theorem exec_lifecycleEraseComplete {s : State} (hs : s.j.live = true) {next : LifeCycle} (h : s.j.dom.lifeErase = some next) :
    exec .lifecycleEraseComplete s = onPower (fun mem j => restart mem (lifeAdvanced j next)) s := by
  rw [show exec .lifecycleEraseComplete s = execLifecycleEraseComplete s from rfl, execLifecycleEraseComplete, if_pos hs, h]
  rfl

theorem exec_lifecycleEraseComplete_of_none (s : State) (h : s.j.dom.lifeErase = none) : exec .lifecycleEraseComplete s = .next s := by
  rw [show exec .lifecycleEraseComplete s = execLifecycleEraseComplete s from rfl, execLifecycleEraseComplete, h, ite_self]

/-! ### The repair of a device (R404) -/

/-- The device that is not the source takes the image in force. -/
def deviceRepaired (j : Jenjor) : Jenjor :=
  let put := fun (d : Device) => { d with image := j.alm.image }
  { j with alm := { j.alm with repairing := false,
                               primary := if j.alm.source then put j.alm.primary else j.alm.primary,
                               alternate := if j.alm.source then j.alm.alternate else put j.alm.alternate } }

theorem exec_almanacRepairComplete {s : State} (hs : s.j.live = true) : exec .almanacRepairComplete s =
    .next { s with j := (if s.j.alm.step = 8 && s.j.alm.repairing then deviceRepaired s.j else s.j) } :=
  onBlocks_of_live (fun j => if j.alm.step = 8 && j.alm.repairing then deviceRepaired j else j) hs

/-- Settles O45: a START ring's own flag falls whatever its start does; the device that is not the source is the one that is
repaired; the reset that ends a life-cycle change keeps the state just programmed. -/
theorem restoreRepairLifeCycle : Obligations.RestoreRepairLifeCycle := by
  refine ⟨fun s n bad hs hn => ⟨fun h7 hnext => ⟨almanacStart_cleared _ _ _ _ _, ?_⟩, fun h => ?_⟩,
    fun s n bad hn => if_neg (by simp [hn]), fun s hs => ⟨fun h8 hrep => ?_, fun hrep => ?_⟩, fun s l hs hl => ?_,
    exec_lifecycleEraseComplete_of_none⟩
  · rw [exec_ringRestoreComplete hs hn, if_pos ⟨h7, hnext⟩]
    rfl
  · rw [exec_ringRestoreComplete hs hn, if_neg (by tauto)]
  · rw [exec_almanacRepairComplete hs, if_pos (by simp [h8, hrep])]
    refine ⟨_, rfl, rfl, fun hsrc => ?_, fun hsrc => ?_, rfl⟩
    · simp [deviceRepaired, hsrc]
    · simp [deviceRepaired, hsrc]
  · rw [exec_almanacRepairComplete hs, if_neg (by simp [hrep])]
  · refine ⟨_, exec_lifecycleEraseComplete hs hl, rfl, rfl, ?_, rfl, rfl, rfl, rfl, rfl, rfl, rfl⟩
    rintro rfl
    exact Bool.or_true _

end Sys2Proof.Machine
end


section
namespace Sys2Proof.Machine
namespace Jenjor

/-! ### The handing out of clusters leaves the Almanac alone (R74, R75) -/

variable (j : Jenjor) (n : Nat)

theorem settleFences_alm : j.settleFences.alm = j.alm := (foldl_alm _ _ _ fun _ _ => complete_alm ..).trans rfl

theorem discardWrites_alm : (j.discardWrites n).alm = j.alm := by
  refine (settleFences_alm _).trans ((foldl_alm _ _ _ fun k e => ?_).trans rfl)
  dsimp only
  split
  · rfl
  · exact complete_alm ..

theorem deleteTakesEffect_alm : (j.deleteTakesEffect n).alm = j.alm := by
  simp [deleteTakesEffect, discardWrites_alm]

theorem swapReplating_alm : (j.swapReplating n).alm = j.alm := by
  unfold swapReplating
  split
  · rfl
  · dsimp only
    split
    · exact (foldl_alm retirePlate _ _ fun _ _ => rfl).trans rfl
    · exact (foldl_alm retirePlate _ _ fun _ _ => rfl).trans rfl

theorem swapRecal_alm : (j.swapRecal n).alm = j.alm := by
  unfold swapRecal
  split
  · rfl
  · exact complete_alm ..

theorem applySwitch_alm (s : RingSwitch) : (j.applySwitch n s).alm = j.alm := by
  cases s with
  | edit es => exact foldl_alm _ _ _ fun _ _ => rfl
  | addPlate | biasFrame | redefine => rfl
  | replate job => exact swapReplating_alm j job
  | recal coll => exact swapRecal_alm j coll
  | delete coll => exact deleteTakesEffect_alm j coll

theorem applySwitches_alm : (j.applySwitches n).alm = j.alm := by
  unfold applySwitches
  split
  · rfl
  · exact (foldl_alm _ _ _ fun _ _ => applySwitch_alm ..).trans rfl

theorem gateRetired_alm : j.gateRetired.alm = j.alm := foldl_alm _ _ _ fun _ _ => rfl

theorem moveClusters_alm : (j.moveClusters n).alm = j.alm := by
  unfold moveClusters
  split
  · rfl
  · split
    · rfl
    next d _ =>
      exact (foldl_alm (fun (j : Jenjor) c => j.homeCluster c n d.format) _ _ fun _ _ => rfl).trans
        ((gateRetired_alm _).trans (foldl_alm unhome _ _ fun _ _ => rfl))

theorem announce_alm : (j.announce n).alm = j.alm := by
  unfold announce
  split
  · rfl
  · dsimp only
    split <;> rfl

theorem setGrant_alm (g : Nat) : (j.setGrant n g).alm = j.alm := by
  unfold setGrant
  dsimp only
  split
  · rfl
  · split
    · rfl
    · split
      · exact stretchTo_alm ..
      · split <;> rfl

theorem regrant_alm : j.regrant.alm = j.alm := by
  refine foldl_alm _ _ _ fun k r => ?_
  dsimp only
  split
  · rfl
  · split
    · exact setGrant_alm ..
    · rfl

theorem stopRing_alm : (j.stopRing n).alm = j.alm := by
  unfold stopRing
  split
  · rfl
  · exact (foldl_alm _ _ _ fun _ _ => complete_alm ..).trans
      ((regrant_alm _).trans ((gateRetired_alm _).trans (foldl_alm _ _ _ fun _ _ => rfl)))

theorem ringToWaiting_alm : (j.ringToWaiting n).alm = j.alm := by
  have habort : (((j.abortAll (j.ridersOf n) .internalError).abortAll
      ((j.abortAll (j.ridersOf n) .internalError).waitersOf n) .ringStopped).applySwitches n).alm = j.alm :=
    (applySwitches_alm ..).trans ((abortAll_alm ..).trans (abortAll_alm ..))
  unfold ringToWaiting
  dsimp only
  split
  · exact (stopRing_alm ..).trans habort
  · exact (regrant_alm _).trans habort

theorem settleEmpty_alm : (j.settleEmpty n).alm = j.alm := by
  have hmoved : (((j.applySwitches n).announce n).moveClusters n).alm = j.alm :=
    (moveClusters_alm ..).trans ((announce_alm ..).trans (applySwitches_alm ..))
  unfold settleEmpty
  split
  · rfl
  next r _ =>
    split
    · rfl
    · dsimp only
      generalize ((j.applySwitches n).announce n).moveClusters n = k at hmoved ⊢
      have hgrant : (if r.defn.any (fun d => d.deep) then (k.setGrant n (min (k.targetGrant n) (k.ungranted n))).regrant else k).alm =
          j.alm := by
        split
        · exact (regrant_alm _).trans ((setGrant_alm ..).trans hmoved)
        · exact hmoved
      generalize (if r.defn.any (fun d => d.deep) then (k.setGrant n (min (k.targetGrant n) (k.ungranted n))).regrant else k) = l
        at hgrant ⊢
      split
      · exact (ringToWaiting_alm ..).trans hgrant
      · exact hgrant

theorem placeBias_alm : (j.placeBias n).alm = j.alm := by
  unfold placeBias
  split
  · rfl
  · split <;> rfl

theorem giveClusters_alm (r : Ring) (cs : List Nat) : (j.giveClusters r cs).alm = j.alm := by
  unfold giveClusters
  dsimp only
  split
  · rfl
  · exact moveClusters_alm ..

/-- A ring once it runs on its clusters: its grant, and the beginning of its first pass. -/
def runsOn (d : RingDef) : Jenjor :=
  let j := if d.deep then j.regrant else j
  let j := if d.deep && (j.ring? n).any (fun r => r.grant == 0) then j.setGrant n 0 else j
  j.beginPass n

theorem runsOn_alm (d : RingDef) : (j.runsOn n d).alm = j.alm := by
  have hgrant : (if d.deep then j.regrant else j).alm = j.alm := by
    split
    · exact regrant_alm j
    · rfl
  unfold runsOn
  dsimp only
  generalize (if d.deep then j.regrant else j) = k at hgrant
  rw [← hgrant]
  split
  · exact setGrant_alm ..
  · rfl

theorem startRing_alm (cs : List Nat) : (j.startRing n cs).alm = j.alm := by
  cases hr : j.ring? n with
  | none => simp only [startRing, hr]
  | some r =>
    cases hd : r.defn with
    | none => simp only [startRing, hr, hd]
    | some d =>
      have hplaced : (d.colls.foldl placeBias (cs.foldl (fun j c => j.homeCluster c n d.format) j)).alm = j.alm :=
        (foldl_alm placeBias _ _ fun _ _ => placeBias_alm ..).trans
          (foldl_alm (fun (j : Jenjor) c => j.homeCluster c n d.format) _ _ fun _ _ => rfl)
      generalize hl : d.colls.foldl placeBias (cs.foldl (fun j c => j.homeCluster c n d.format) j) = l at hplaced
      cases hs : r.starter with
      | none =>
        simp only [startRing, hr, hd, hl, hs]
        exact ((runsOn_alm (l.mapRing n (startsOn d cs (l.ringM d))) n d).trans hplaced :)
      | some c =>
        simp only [startRing, hr, hd, hl, hs]
        exact (complete_alm ..).trans ((runsOn_alm (l.mapRing n (startsOn d cs (l.ringM d))) n d).trans hplaced :)

theorem reassign_alm : j.reassign.alm = j.alm := by
  unfold reassign
  refine (foldl_alm _ _ _ fun k x => ?_).trans (foldl_alm (fun (j : Jenjor) (r : Ring) => j.settleEmpty r.num) _ _ fun _ _ =>
    settleEmpty_alm ..)
  dsimp only
  split
  · rfl
  · split
    · rfl
    · split
      · split
        · exact startRing_alm ..
        · rfl
      · split
        · exact giveClusters_alm ..
        · rfl

theorem plateLoss_alm : (j.plateLoss n).alm = j.alm := by
  unfold plateLoss
  split
  · rfl
  · simp

theorem restorePlates_alm (pids bad : List Nat) : (j.restorePlates pids bad).alm = j.alm :=
  foldl_alm plateLoss _ _ fun _ _ => plateLoss_alm ..

end Jenjor
end Sys2Proof.Machine
end


section
namespace Sys2Proof.Machine
namespace Jenjor

variable {j : Jenjor}

/-! ### Step 1: the fuses (R373) -/

theorem le_laterLife (a b : LifeCycle) : a.code ≤ (laterLife a b).code := by
  unfold laterLife
  split
  · omega
  · exact Nat.le_refl _

theorem resolveWord_of_settled {reads : List (List (BitVec 32))} {w : Nat} (h : settledReads (reads.getD w []) = true) :
    resolveWord reads w = (reads.getD w []).headD 0 :=
  if_pos h

/-- Past the words that resolve to the union of their reads, an unsettled word reads as zero. -/
theorem resolveWord_of_unsettled {reads : List (List (BitVec 32))} {w : Nat} (h : settledReads (reads.getD w []) = false) (h5 : 5 ≤ w) :
    resolveWord reads w = 0 :=
  (if_neg (by rw [wordReads, h]; exact Bool.false_ne_true)).trans (if_neg (by omega))

theorem readFuses_latched (reads : List (List (BitVec 32))) {w : Nat} (hw : w < 46) :
    (j.readFuses reads).dom.latched[w]? = some (resolveWord reads w) := by
  change ((List.range 46).map (resolveWord reads))[w]? = _
  simp [hw]

theorem mem_readFuses_unsettled (reads : List (List (BitVec 32))) {w : Nat} (hw : w < 46) :
    w ∈ (j.readFuses reads).dom.unsettled ↔ settledReads (reads.getD w []) = false := by
  change w ∈ (List.range 46).filter (fun w => !settledReads (wordReads reads w)) ↔ _
  simp [hw, wordReads]

/-! ### Steps 2 and 3: firmware and image (R402 to R405) -/

theorem recover_step (j : Jenjor) : j.recover.alm.step = 9 := by
  unfold recover
  dsimp only
  split <;> rfl

theorem bootFirmware_of_none (h : j.bootRecords = none) : j.bootFirmware = j.recover := by
  rw [bootFirmware, h]

/-- The record that a start runs: the one wanted where it is runnable. -/
def runChoice (j : Jenjor) (ok : List Bool) : Bool :=
  if ok.contains (j.alm.selected.getD false) then j.alm.selected.getD false else !(j.alm.selected.getD false)

theorem bootFirmware_of_some {i : Image} {ok : List Bool} (h : j.bootRecords = some (i, ok)) :
    j.bootFirmware = { j with alm := j.bootFirmware.alm } ∧ j.bootFirmware.alm.step = 3 ∧
      j.bootFirmware.alm.running = j.runChoice ok := by
  rw [bootFirmware, h]
  dsimp only
  split <;> exact ⟨rfl, rfl, rfl⟩

/-- What the sections of an image leave of the choice of that image. -/
def imageInForce (j : Jenjor) : Nat × Option Image × Nat × Bool × Bool :=
  (j.alm.step, j.alm.image, j.alm.generation, j.alm.source, j.alm.repairing)

theorem imageInForce_applyEarly (j : Jenjor) (b : SectionBody) : (j.applyEarly b).imageInForce = j.imageInForce := by
  cases b with
  | islandPlan ceil repair =>
    have halm : (j.applyEarly (.islandPlan ceil repair)).alm = j.alm :=
      foldl_alm (fun (j : Jenjor) (x : Nat × Nat) => j.mapIsland x.1 fun k => { k with ceil := x.2 }) _ _ fun _ _ => rfl
    unfold imageInForce
    rw [halm]
  | _ => rfl

theorem imageInForce_foldl_applyEarly (bs : List SectionBody) (j : Jenjor) :
    (bs.foldl applyEarly j).imageInForce = j.imageInForce := by
  induction bs generalizing j with
  | nil => rfl
  | cons b bs ih => exact (ih _).trans (imageInForce_applyEarly j b)

/-- The image of the device that holds a valid one is in force; with the alternate's, the primary is to be repaired. -/
theorem readImage_of_some {i : Image} (h : (j.startImage j.alm.primary).or (j.startImage j.alm.alternate) = some i) :
    j.readImage.imageInForce = (4, some i, imageGeneration i, (j.startImage j.alm.primary).isNone,
      (j.startImage j.alm.primary).isNone || j.alm.primary.image != j.alm.alternate.image) := by
  unfold readImage
  dsimp only
  rw [h]
  exact imageInForce_foldl_applyEarly _ _

theorem readImage_of_none (hp : j.startImage j.alm.primary = none) (ha : j.startImage j.alm.alternate = none) :
    j.readImage = j.recover := by
  unfold readImage
  dsimp only
  rw [hp, ha]
  rfl

/-! ### Step 4: clocks (R403, R458) -/

/-- With every clock locked, the endpoint rises with PERST#. -/
theorem startClocks_locked (j : Jenjor) :
    (j.startClocks []).alm.step = 5 ∧ (j.startClocks []).lnk.endpointUp = j.lnk.perstHigh := by
  refine ⟨rfl, ?_⟩
  have hlnk : ((List.range 29).foldl (fun (j : Jenjor) i => if [].contains i then j else j.setClock i (j.fullClock i)) j.assignSpares).lnk =
      j.lnk := (foldl_lnk _ _ _ fun _ _ => setClock_lnk ..).trans rfl
  simp only [startClocks, List.filter_nil, List.foldl_nil, raiseEndpoint]
  rw [hlnk]
  exact Bool.and_true _

/-! ### Step 5: training (R307) -/

/-- The channels that serve where every one has passed: each rim's first twenty. -/
def allRims : List (List Nat) := (List.range 4).map fun r => (List.range 20).map fun k => r * 21 + k

theorem rimServing_of_all {passed : Nat → Bool} (h : ∀ p, p < 84 → passed p = true) {r : Nat} (hr : r < 4) :
    rimServing passed r = (List.range 20).map fun k => r * 21 + k := by
  have hown : ((List.range 20).map fun k => r * 21 + k).filter passed = (List.range 20).map fun k => r * 21 + k := by
    rw [List.filter_eq_self]
    intro p hp
    obtain ⟨k, hk, rfl⟩ := List.mem_map.1 hp
    have := List.mem_range.1 hk
    exact h _ (by omega)
  unfold rimServing
  dsimp only
  rw [hown, if_neg (by simp)]

theorem rims_of_all {passed : Nat → Bool} (h : ∀ p, p < 84 → passed p = true) : (List.range 4).map (rimServing passed) = allRims :=
  List.map_congr_left fun _ hr => rimServing_of_all h (List.mem_range.1 hr)

/-- The logical index of a physical channel where each rim's first twenty serve. -/
def allLogical (p : Nat) : Option Nat :=
  if (allRims.getD (p / 21) []).contains p then some (p / 21 * 20 + (allRims.getD (p / 21) []).idxOf p) else none

theorem allLogical_own : ∀ p, p < 84 → p % 21 ≠ 20 → allLogical p = some (p / 21 * 20 + p % 21) := by
  decide

theorem allLogical_spare : ∀ p, p < 84 → p % 21 = 20 → allLogical p = none := by
  decide

/-- A channel passed its training. -/
def trainPassed (res : List (Bool × Nat)) (p : Nat) : Bool := (res[p]?).any fun r => r.1 && 64 ≤ r.2

/-- A channel as its training leaves it, where every channel passed. -/
def trainedChan (res : List (Bool × Nat)) (x : Nat × Chan) : Chan :=
  { x.2 with margin := min 255 ((res[x.1]?).map fun r => r.2).getD 0, logical := allLogical x.1,
             state := if (allLogical x.1).isSome then .serving else if trainPassed res x.1 then .standby else .retired,
             back := if (allLogical x.1).isSome then .serving else .standby, busy := false, marked := false, markAt := none,
             again := false }

/-- A rim as a training that every channel passes leaves it: its spare unused. -/
def trainedRim (res : List (Bool × Nat)) (r : Nat) : Rim :=
  let s := allRims.getD r []
  let used := s.contains (r * 21 + 20)
  { freshRim with spareUsed := used, spareFailed := !trainPassed res (r * 21 + 20), spareFor := if used then s.length - 1 else 0 }

/-- The module as a training that every channel passes leaves it. -/
def trained (j : Jenjor) (res : List (Bool × Nat)) : Jenjor :=
  { j with mem := { j.mem with chans := ((List.range 84).zip j.mem.chans).map (trainedChan res),
                               rims := (List.range 4).map (trainedRim res), online := true },
           alm := { j.alm with step := 6, training := (List.range 84).map fun p => ((res[p]?).map fun r => r.2).getD 0 } }

section
variable {res : List (Bool × Nat)} (hlen : res.length = 84) (hall : ∀ r ∈ res, r.1 = true ∧ 64 ≤ r.2)
include hlen

theorem trainPassed_of_all (hall : ∀ r ∈ res, r.1 = true ∧ 64 ≤ r.2) {p : Nat} (hp : p < 84) : trainPassed res p = true := by
  have hget : res[p]? = some res[p] := List.getElem?_eq_getElem (hlen ▸ hp)
  obtain ⟨h1, h2⟩ := hall _ (List.getElem_mem (hlen ▸ hp))
  rw [trainPassed, hget]
  simp [h1, h2]

include hall in
theorem train_of_all : j.train res = j.trained res := by
  have hrims : (List.range 4).map (rimServing fun p => (res[p]?).any fun r => r.1 && decide (64 ≤ r.2)) = allRims :=
    rims_of_all fun p => trainPassed_of_all hlen hall
  have hok : (allRims.all fun s => s.length == 20) = true := by decide
  unfold train
  dsimp only
  rw [hrims, hok, if_pos rfl]
  rfl

theorem margins_eq : ((List.range 84).map fun p => ((res[p]?).map fun r => r.2).getD 0) = res.map fun r => r.2 := by
  refine List.ext_getElem (by simp [hlen]) fun p h1 h2 => ?_
  have hp : p < res.length := by simpa using h2
  simp [hp]

end

theorem trained_chan? (res : List (Bool × Nat)) (hchans : j.mem.chans.length = 84) {p : Nat} (hp : p < 84) :
    ∃ c, (j.trained res).mem.chans[p]? = some (trainedChan res (p, c)) := by
  have hlt : p < j.mem.chans.length := by omega
  refine ⟨j.mem.chans[p], ?_⟩
  change (((List.range 84).zip j.mem.chans).map (trainedChan res))[p]? = _
  simp [hp, hlt]

end Jenjor

open Jenjor

section
variable {s : State} (hs : s.j.live = true)
include hs

/-! ### The reports of a start (R403) -/

theorem exec_fuses (h : s.j.alm.step = 1) (reads : List (List (BitVec 32))) :
    exec (.startStepComplete (.fuses reads)) s = .next { s with j := s.j.readFuses reads } := by
  rw [show exec (.startStepComplete (.fuses reads)) s = execStartStepComplete (.fuses reads) s from rfl, execStartStepComplete]
  · exact onBlocks_of_live _ hs
  · exact hs
  · exact h

theorem exec_firmware (h : s.j.alm.step = 2) : exec (.startStepComplete .firmware) s = .next { s with j := s.j.bootFirmware } := by
  rw [show exec (.startStepComplete .firmware) s = execStartStepComplete .firmware s from rfl, execStartStepComplete]
  · exact onBlocks_of_live _ hs
  · exact hs
  · exact h

theorem exec_image (h : s.j.alm.step = 3) : exec (.startStepComplete .image) s = .next { s with j := s.j.readImage } := by
  rw [show exec (.startStepComplete .image) s = execStartStepComplete .image s from rfl, execStartStepComplete]
  · exact onBlocks_of_live _ hs
  · exact hs
  · exact h

theorem exec_clocks (h : s.j.alm.step = 4) (unlocked : List Nat) :
    exec (.startStepComplete (.clocks unlocked)) s = .next { s with j := s.j.startClocks unlocked } := by
  rw [show exec (.startStepComplete (.clocks unlocked)) s = execStartStepComplete (.clocks unlocked) s from rfl,
    execStartStepComplete]
  · exact onBlocks_of_live _ hs
  · exact hs
  · exact h

theorem exec_training (h : s.j.alm.step = 5) (res : List (Bool × Nat)) :
    exec (.startStepComplete (.training res)) s = .next { s with j := s.j.train res } := by
  rw [show exec (.startStepComplete (.training res)) s = execStartStepComplete (.training res) s from rfl,
    execStartStepComplete]
  · exact onBlocks_of_live _ hs
  · exact hs
  · exact h

theorem exec_vault (h : s.j.alm.step = 6) (cars : List (Option CarrierId)) (opens : Bool) :
    exec (.startStepComplete (.vault cars opens)) s = .next { s with
      mem := (s.j.startVault s.mem s.rmem cars opens).1, rmem := (s.j.startVault s.mem s.rmem cars opens).2.1,
      j := (s.j.startVault s.mem s.rmem cars opens).2.2 } := by
  rw [show exec (.startStepComplete (.vault cars opens)) s = execStartStepComplete (.vault cars opens) s from rfl,
    execStartStepComplete]
  · exact hs
  · exact h

theorem exec_restoreReport (h : s.j.alm.step = 7) (bad : List Nat) : exec (.startStepComplete (.restore bad)) s = .next { s with j :=
    (if s.j.sw.rings.any fun r => r.almanacStart then s.j else s.j.restoreRest bad) } := by
  rw [show exec (.startStepComplete (.restore bad)) s = execStartStepComplete (.restore bad) s from rfl, execStartStepComplete]
  · exact onBlocks_of_live (fun j => if j.sw.rings.any fun r => r.almanacStart then j else j.restoreRest bad) hs
  · exact hs
  · exact h

end

theorem exec_restoreReport_early {s : State} (h : s.j.alm.step < 7) (bad : List Nat) : exec (.startStepComplete (.restore bad)) s = .next s := by
  rw [show exec (.startStepComplete (.restore bad)) s = execStartStepComplete (.restore bad) s from rfl]
  unfold execStartStepComplete
  split
  case h_7 | h_8 => omega
  case h_9 => rfl
  all_goals contradiction

theorem exec_firmware_elsewhere {s : State} (h : s.j.alm.step ≠ 2) : exec (.startStepComplete .firmware) s = .next s := by
  rw [show exec (.startStepComplete .firmware) s = execStartStepComplete .firmware s from rfl]
  unfold execStartStepComplete
  split
  case h_9 => rfl
  all_goals contradiction

end Sys2Proof.Machine
end


section
namespace Sys2Proof.Machine
namespace Jenjor

/-! ### Step 6: the carriers (R326) -/

/-- Four VC16 parts serve, and the vault is up. -/
theorem findCarriers_of_vc16 (j : Jenjor) {cars : List (Option CarrierId)} (hlen : cars.length = 4) (hbays : j.vlt.carriers.length = 4)
    (hcars : ∀ c ∈ cars, ∃ i : CarrierId, c = some i ∧ i.vc16 = true) :
    ∃ cs ctrs, j.findCarriers cars = { j with vlt := { j.vlt with carriers := cs, online := true }, ctrs := ctrs } := by
  obtain ⟨a, b, c, d, rfl⟩ := List.length_eq_four.1 hlen
  obtain ⟨w, x, y, z, hvlt⟩ := List.length_eq_four.1 hbays
  obtain ⟨i0, rfl, h0⟩ := hcars a (by simp)
  obtain ⟨i1, rfl, h1⟩ := hcars b (by simp)
  obtain ⟨i2, rfl, h2⟩ := hcars c (by simp)
  obtain ⟨i3, rfl, h3⟩ := hcars d (by simp)
  refine ⟨[carrierOf .serving i0, carrierOf .serving i1, carrierOf .serving i2, carrierOf .serving i3], ?_⟩
  have hfold : ∃ ctrs, (List.range 4).foldl (fun (j : Jenjor) b => j.findCarrier b ([some i0, some i1, some i2, some i3].getD b none)) j =
      { j with vlt := { j.vlt with carriers := [carrierOf .serving i0, carrierOf .serving i1, carrierOf .serving i2, carrierOf .serving i3] },
               ctrs := ctrs } := by
    simp [List.range_succ, findCarrier, h0, h1, h2, h3, mapCarrier, setProgrammed, hvlt]
  obtain ⟨ctrs, hfold⟩ := hfold
  refine ⟨ctrs, ?_⟩
  unfold findCarriers
  dsimp only
  rw [hfold]
  rfl

/-! ### Step 6: the catalogue and the journal (R219, R403) -/

/-- An image with no catalogue and no ring section adds nothing to the catalogue. -/
theorem applyLate_of_noEntries {j : Jenjor} (h : noEntries j) : ∃ ps, j.applyLate = { j with cat := { j.cat with plates := ps } } := by
  have hbody : ∀ b ∈ ((j.alm.image.map fun i => i.sections).getD []).map (fun s => s.body), bodyType b ≠ some 4 ∧ bodyType b ≠ some 5 := by
    intro b hb
    obtain ⟨x, hx, rfl⟩ := List.mem_map.1 hb
    cases himage : j.alm.image with
    | none => simp [himage] at hx
    | some i => exact h i himage x (by simpa [himage] using hx)
  generalize hbs : ((j.alm.image.map fun i => i.sections).getD []).map (fun s => s.body) = bs at hbody
  suffices hlate : j.applyLate = j.mapPlates (fun p => ((j.cat.plates.filter j.inSweepMemory).map fun p => p.pid).contains p.pid)
      fun p => { p with present := false } from ⟨_, hlate⟩
  unfold applyLate
  dsimp only
  rw [hbs, foldl_of_fixed (l := bs) (b := j), foldl_of_fixed (l := bs) (b := j)]
  · intro b hb k
    split
    · exact absurd rfl (hbody _ hb).2
    · rfl
  · intro b hb k
    split
    · exact absurd rfl (hbody _ hb).1
    · rfl

/-- With no doorbell held, the end of the step rings none. -/
theorem endVaultStep_of_none_held {j : Jenjor} (h : j.qs.heldDoorbells = []) :
    j.endVaultStep.alm.step = 7 ∧ j.endVaultStep.dom = j.dom ∧ j.endVaultStep.cat = j.cat ∧
      j.endVaultStep.vlt.online = j.vlt.online := by
  unfold endVaultStep
  dsimp only
  rw [h]
  exact ⟨rfl, rfl, rfl, rfl⟩

theorem settleFrames_of_no_collection {j : Jenjor} (h : j.cat.colls = []) : j.settleFrames = j := by
  unfold settleFrames
  rw [h]
  rfl

theorem settleCatalogue_of_no_collection {j : Jenjor} (h : j.cat.colls = []) : j.settleCatalogue = j := by
  unfold settleCatalogue
  rw [h]
  exact settleFrames_of_no_collection h

/-- With no collection and no write there is nothing to replay. -/
theorem replayJournal_of_empty {j : Jenjor} (mem : List Host.Cell) (hc : j.cat.colls = []) (hj : j.wr.journal = [])
    (hw : j.wr.commits = []) : j.replayJournal mem = (mem, j) := by
  unfold replayJournal
  dsimp only
  rw [settleCatalogue_of_no_collection hc, hj, hw]
  exact congrArg (Prod.mk mem) (settleCatalogue_of_no_collection hc)

theorem startUnbound_kept (j : Jenjor) : j.startUnbound.alm = j.alm ∧ j.startUnbound.qs = j.qs ∧ j.startUnbound.cat.colls = [] ∧
    j.startUnbound.vlt.online = j.vlt.online ∧ j.startUnbound.dom.tenant = .unbound := by
  unfold startUnbound clearCatalogue
  rw [makeCache_frame]
  exact ⟨rfl, rfl, rfl, rfl, rfl⟩

/-! ### The sealed record opens (R386) -/

/-- What the retirement of a key generation leaves alone. -/
structure SealKept (j k : Jenjor) : Prop where
  tenant : k.dom.tenant = j.dom.tenant
  digest : k.dom.digest = j.dom.digest
  colls : k.cat.colls = j.cat.colls
  wr : k.wr = j.wr
  qs : k.qs = j.qs
  alm : k.alm = j.alm

namespace SealKept
variable {j k l : Jenjor}

theorem refl (j : Jenjor) : SealKept j j := ⟨rfl, rfl, rfl, rfl, rfl, rfl⟩

theorem trans (h : SealKept j k) (h' : SealKept k l) : SealKept j l :=
  ⟨h'.tenant.trans h.tenant, h'.digest.trans h.digest, h'.colls.trans h.colls, h'.wr.trans h.wr, h'.qs.trans h.qs, h'.alm.trans h.alm⟩

theorem foldl {α : Type} {f : Jenjor → α → Jenjor} (hf : ∀ k x, SealKept k (f k x)) (l : List α) (j : Jenjor) :
    SealKept j (l.foldl f j) := by
  induction l generalizing j with
  | nil => exact refl j
  | cons x l ih => exact (hf j x).trans (ih _)

theorem mapSlot (j : Jenjor) (n : Nat) (f : KeySlot → KeySlot) : SealKept j (j.mapSlot n f) := ⟨rfl, rfl, rfl, rfl, rfl, rfl⟩

theorem sealKeys (j : Jenjor) : SealKept j j.sealKeys := ⟨rfl, rfl, rfl, rfl, rfl, rfl⟩

theorem startRekey (j : Jenjor) (n : Nat) : SealKept j (j.startRekey n) := by
  unfold Jenjor.startRekey
  split
  · unfold startSweepRekey
    refine trans ?_ (foldl (f := fun j (o : Obj) => j.addSlew o.num o.tier 0 .rekey) (fun _ _ => ⟨rfl, rfl, rfl, rfl, rfl, rfl⟩) _ _)
    exact ⟨rfl, rfl, rfl, rfl, rfl, rfl⟩
  · split
    · exact ⟨rfl, rfl, rfl, rfl, rfl, rfl⟩
    · exact refl j

theorem generationEnded (j : Jenjor) (n : Nat) (x : KeySlot) : SealKept j (j.generationEnded n x) := by
  unfold Jenjor.generationEnded
  dsimp only
  split <;> split <;> exact ⟨rfl, rfl, rfl, rfl, rfl, rfl⟩

theorem retireGen (j : Jenjor) (n : Nat) : SealKept j (j.retireGen n) := by
  unfold Jenjor.retireGen
  split
  · exact refl j
  next x _ =>
    split
    · exact refl j
    · split
      · exact generationEnded j n x
      · exact ((mapSlot j n _).trans (sealKeys _)).trans (startRekey _ n)

end SealKept

/-- The keys of a sealed record are loaded, and no generation has been retired yet. -/
def keysLoaded (j : Jenjor) (r : SealedRec) : Jenjor :=
  let slot := fun (s : Nat) =>
    match r.slots.lookup s with
    | none => emptySlot
    | some k => if s = 1 then k else { k with prev := none }
  let j := j.mapDom fun d =>
    { d with tenant := if (r.slots.lookup 0).isSome then .bound else .suspended, digest := r.tenant,
             slots := (List.range 64).map slot, rekeyVault := (slot 1).prev.isSome }
  let j := j.mapPlates (fun _ => true) fun p => { p with keyGen := j.genBit }
  j.mapObjs (fun _ => true) fun o => { o with keyGen := j.sweepGen }

theorem openSealed_eq (j : Jenjor) (r : SealedRec) : j.openSealed r = (List.range 64).foldl retireGen (j.keysLoaded r) := by
  unfold openSealed keysLoaded
  rfl

/-- The tenancy that a sealed record restores. -/
theorem openSealed_kept (j : Jenjor) (r : SealedRec) :
    (j.openSealed r).dom.tenant = (if (r.slots.lookup 0).isSome then .bound else .suspended) ∧ (j.openSealed r).dom.digest = r.tenant ∧
      (j.openSealed r).cat.colls = j.cat.colls ∧ (j.openSealed r).wr = j.wr ∧ (j.openSealed r).qs = j.qs ∧
      (j.openSealed r).alm = j.alm := by
  have hkept := SealKept.foldl SealKept.retireGen (List.range 64) (j.keysLoaded r)
  rw [openSealed_eq]
  exact ⟨hkept.tenant, hkept.digest, hkept.colls, hkept.wr, hkept.qs, hkept.alm⟩

end Jenjor
end Sys2Proof.Machine
end


section
namespace Sys2Proof.Machine
namespace Jenjor

/-! ### Step 6 as a whole (R386, R403) -/

theorem noEntries_of_alm {j k : Jenjor} (h : k.alm = j.alm) (hj : noEntries j) : noEntries k := by
  unfold noEntries
  rw [h]
  exact hj

/-- The catalogue entries of an image with none, and the end of the step. -/
theorem endVaultStep_applyLate {j : Jenjor} (hno : noEntries j) (hheld : j.qs.heldDoorbells = []) :
    j.applyLate.endVaultStep.alm.step = 7 ∧ j.applyLate.endVaultStep.dom = j.dom ∧
      j.applyLate.endVaultStep.cat.colls = j.cat.colls ∧ j.applyLate.endVaultStep.vlt.online = j.vlt.online := by
  obtain ⟨ps, hlate⟩ := applyLate_of_noEntries hno
  obtain ⟨hstep, hdom, hcat, honline⟩ := endVaultStep_of_none_held (j := j.applyLate) (by rw [hlate]; exact hheld)
  rw [hstep, hdom, hcat, honline, hlate]
  exact ⟨rfl, rfl, rfl, rfl⟩

section
variable {j : Jenjor} (mem rmem : List Host.Cell) {cars : List (Option CarrierId)}

theorem startVault_unsealed (opens : Bool) (h : (j.findCarriers cars).dom.sealedRec = none) :
    startVault mem rmem j cars opens = ([], [], (j.findCarriers cars).startUnbound.applyLate.endVaultStep) := by
  unfold startVault
  dsimp only
  rw [h]

theorem makeCache_dom (j : Jenjor) : j.makeCache.dom = j.dom := by
  rw [makeCache_frame]

theorem makeCache_colls (j : Jenjor) : j.makeCache.cat.colls = j.cat.colls := by
  rw [makeCache_frame]

theorem makeCache_wr (j : Jenjor) : j.makeCache.wr = j.wr := by
  rw [makeCache_frame]

theorem makeCache_qs (j : Jenjor) : j.makeCache.qs = j.qs := by
  rw [makeCache_frame]

theorem makeCache_alm (j : Jenjor) : j.makeCache.alm = j.alm := by
  rw [makeCache_frame]

/-- The blocks with the keys of a sealed record and a record cache. -/
def unsealed (j : Jenjor) (r : SealedRec) : Jenjor := (j.openSealed r).makeCache

theorem unsealed_kept (k : Jenjor) (r : SealedRec) :
    (k.unsealed r).dom.tenant = (if (r.slots.lookup 0).isSome then .bound else .suspended) ∧ (k.unsealed r).dom.digest = r.tenant ∧
      (k.unsealed r).cat.colls = k.cat.colls ∧ (k.unsealed r).wr = k.wr ∧ (k.unsealed r).qs = k.qs ∧ (k.unsealed r).alm = k.alm := by
  unfold unsealed
  rw [makeCache_dom, makeCache_colls, makeCache_wr, makeCache_qs, makeCache_alm]
  exact openSealed_kept k r

theorem startVault_sealed {r : SealedRec} (h : (j.findCarriers cars).dom.sealedRec = some r)
    (hlife : r.life = (j.findCarriers cars).dom.life) (hcolls : (j.findCarriers cars).cat.colls = [])
    (hjournal : (j.findCarriers cars).wr.journal = []) (hcommits : (j.findCarriers cars).wr.commits = []) :
    startVault mem rmem j cars true = (mem, rmem, ((j.findCarriers cars).unsealed r).applyLate.endVaultStep) := by
  obtain ⟨-, -, hcat, hwr, -, -⟩ := unsealed_kept (j.findCarriers cars) r
  have hreplay : (((j.findCarriers cars).openSealed r).makeCache).replayJournal mem = (mem, (j.findCarriers cars).unsealed r) :=
    replayJournal_of_empty (j := (j.findCarriers cars).unsealed r) mem (hcat.trans hcolls) (by rw [hwr, hjournal])
      (by rw [hwr, hcommits])
  unfold startVault
  dsimp only
  rw [h]
  dsimp only
  rw [if_pos (by simp [hlife]), hreplay]

end

/-! ### Step 7 ends (R407) -/

theorem restoreRest_full {j : Jenjor} (h : j.alm.step = 7) (bad : List Nat) :
    (j.restoreRest bad).alm.step = 8 ∧ (j.restoreRest bad).isl.power = .on := by
  unfold restoreRest
  dsimp only
  rw [if_pos (by rw [reassign_alm, restorePlates_alm, h])]
  exact ⟨rfl, rfl⟩

end Jenjor

open Jenjor

section
variable {s : State} (hs : s.j.live = true)
include hs

theorem step1_fuses (h : s.j.alm.step = 1) (reads : List (List (BitVec 32))) :
    ∃ t, exec (.startStepComplete (.fuses reads)) s = .next t ∧ t.j.alm.step = 2 ∧ t.j.dom.latched.length = 46 ∧
      t.j.dom.serial = Config.serial ∧ t.j.dom.mac = Config.mac ∧ t.j.dom.stepping = 0xB0 ∧
      s.j.dom.life.code ≤ t.j.dom.life.code ∧ s.j.dom.secverFuses ≤ t.j.dom.secverFuses ∧
      (∀ w, w < 46 → settledReads (reads.getD w []) = true →
        t.j.dom.latched[w]? = some ((reads.getD w []).headD 0) ∧ ¬ w ∈ t.j.dom.unsettled) ∧
      (∀ w, 5 ≤ w → w < 46 → settledReads (reads.getD w []) = false → t.j.dom.latched[w]? = some 0 ∧ w ∈ t.j.dom.unsettled) ∧
      t = { s with j := { s.j with alm := { s.j.alm with step := 2 }, dom := t.j.dom } } := by
  have hlatched : (s.j.readFuses reads).dom.latched.length = 46 := by simp [readFuses, mapDom]
  refine ⟨_, exec_fuses hs h reads, rfl, hlatched, rfl, rfl, rfl, le_laterLife .., Nat.le_max_left .., fun w hw hsettled => ?_,
    fun w h5 hw hun => ?_, rfl⟩
  · refine ⟨(readFuses_latched reads hw).trans (by rw [resolveWord_of_settled hsettled]), fun hmem => ?_⟩
    rw [mem_readFuses_unsettled reads hw, hsettled] at hmem
    exact Bool.noConfusion hmem
  · exact ⟨(readFuses_latched reads hw).trans (by rw [resolveWord_of_unsettled hun h5]), (mem_readFuses_unsettled reads hw).2 hun⟩

theorem step5_training (h : s.j.alm.step = 5) {res : List (Bool × Nat)} (hlen : res.length = 84) (hchans : s.j.mem.chans.length = 84)
    (hall : ∀ r ∈ res, r.1 = true ∧ 64 ≤ r.2) :
    ∃ t, exec (.startStepComplete (.training res)) s = .next t ∧ t.j.alm.step = 6 ∧ t.j.mem.online = true ∧
      t.j.alm.training = res.map (fun r => r.2) ∧
      (∀ p, p < 84 → p % 21 ≠ 20 → (t.j.mem.chans[p]?).map (fun c => (c.state, c.logical)) = some (.serving, some (p / 21 * 20 + p % 21))) ∧
      (∀ p, p < 84 → p % 21 = 20 → (t.j.mem.chans[p]?).map (fun c => (c.state, c.logical)) = some (.standby, none)) ∧
      t = { s with j := { s.j with mem := t.j.mem, alm := t.j.alm } } := by
  refine ⟨{ s with j := s.j.trained res }, ?_, rfl, rfl, margins_eq hlen, fun p hp hown => ?_, fun p hp hspare => ?_, rfl⟩
  · rw [exec_training hs h, train_of_all hlen hall]
  · obtain ⟨c, hc⟩ := trained_chan? res hchans hp
    rw [hc, Option.map_some]
    simp [trainedChan, allLogical_own p hp hown]
  · obtain ⟨c, hc⟩ := trained_chan? res hchans hp
    rw [hc, Option.map_some]
    simp [trainedChan, allLogical_spare p hp hspare, trainPassed_of_all hlen hall hp]

section
variable (h : s.j.alm.step = 6) {cars : List (Option CarrierId)} (hheld : s.j.qs.heldDoorbells = []) (hno : noEntries s.j)
  (hlen : cars.length = 4) (hbays : s.j.vlt.carriers.length = 4) (hcars : ∀ c ∈ cars, ∃ i : CarrierId, c = some i ∧ i.vc16 = true)
include h hheld hno hlen hbays hcars

theorem step6_unsealed (opens : Bool) (hsealed : s.j.dom.sealedRec = none) :
    ∃ t, exec (.startStepComplete (.vault cars opens)) s = .next t ∧ t.mem = [] ∧ t.rmem = [] ∧ t.j.alm.step = 7 ∧
      t.j.dom.tenant = .unbound ∧ t.j.cat.colls = [] ∧ t.j.vlt.online = true := by
  obtain ⟨cs, ctrs, hfound⟩ := findCarriers_of_vc16 s.j hlen hbays hcars
  obtain ⟨halm, hqs, hcolls, honline, htenant⟩ := startUnbound_kept (s.j.findCarriers cars)
  obtain ⟨hstep, hdom, hcat, hvlt⟩ := endVaultStep_applyLate (j := (s.j.findCarriers cars).startUnbound)
    (noEntries_of_alm (halm.trans (by rw [hfound])) hno) (by rw [hqs, hfound]; exact hheld)
  refine ⟨_, exec_vault hs h cars opens, ?_⟩
  rw [startVault_unsealed _ _ opens (by rw [hfound]; exact hsealed)]
  refine ⟨rfl, rfl, hstep, ?_, hcat.trans hcolls, (hvlt.trans honline).trans (by rw [hfound])⟩
  dsimp only
  rw [hdom, htenant]

theorem step6_sealed {r : SealedRec} (hsealed : s.j.dom.sealedRec = some r) (hlife : r.life = s.j.dom.life)
    (hcolls : s.j.cat.colls = []) (hjournal : s.j.wr.journal = []) (hcommits : s.j.wr.commits = []) :
    ∃ t, exec (.startStepComplete (.vault cars true)) s = .next t ∧ t.mem = s.mem ∧ t.rmem = s.rmem ∧ t.j.alm.step = 7 ∧
      t.j.dom.tenant = (if (r.slots.lookup 0).isSome then Tenancy.bound else .suspended) ∧ t.j.dom.digest = r.tenant := by
  obtain ⟨cs, ctrs, hfound⟩ := findCarriers_of_vc16 s.j hlen hbays hcars
  obtain ⟨htenant, hdigest, -, -, hqs, halm⟩ := unsealed_kept (s.j.findCarriers cars) r
  obtain ⟨hstep, hdom, -, -⟩ := endVaultStep_applyLate (j := (s.j.findCarriers cars).unsealed r)
    (noEntries_of_alm (halm.trans (by rw [hfound])) hno) (by rw [hqs, hfound]; exact hheld)
  refine ⟨_, exec_vault hs h cars true, ?_⟩
  rw [startVault_sealed _ _ (r := r) (by rw [hfound]; exact hsealed) (by rw [hfound]; exact hlife) (by rw [hfound]; exact hcolls)
    (by rw [hfound]; exact hjournal) (by rw [hfound]; exact hcommits)]
  refine ⟨rfl, rfl, ?_, ?_, ?_⟩
  · dsimp only
    exact hstep
  · dsimp only
    rw [hdom, htenant]
  · dsimp only
    rw [hdom, hdigest]

end
end

/-- Settles O44: each report goes through the model's own step; what the sections, the vault and the sealed record touch
leaves the step, the image in force and the tenancy as the report sets them. -/
theorem startSteps : Obligations.StartSteps := by
  refine ⟨fun s reads hs h => step1_fuses hs h reads, fun s hs h => ⟨fun hnone => ?_, fun i ok hsome => ?_⟩,
    fun s hs h => ⟨fun i hi => ?_, fun i hp hi => ?_, fun hp ha => ?_⟩, fun s hs h => ?_,
    fun s res hs h hlen hchans hall => step5_training hs h hlen hchans hall,
    fun s cars opens hs h hheld hno hlen hbays hcars => ⟨fun hsealed => step6_unsealed hs h hheld hno hlen hbays hcars opens hsealed,
      fun r hsealed hlife hopens hcolls hjournal hcommits => ?_⟩,
    fun s bad hs => ⟨fun h hnone => ?_, fun h hany => ?_, fun h => exec_restoreReport_early h bad, exec_firmware_elsewhere⟩⟩
  · refine ⟨_, exec_firmware hs h, ?_⟩
    rw [bootFirmware_of_none hnone]
    exact recover_step s.j
  · obtain ⟨hframe, hstep, hrun⟩ := bootFirmware_of_some hsome
    exact ⟨_, exec_firmware hs h, hstep, hrun, congrArg (fun j => { s with j := j }) hframe⟩
  · have himage := readImage_of_some (j := s.j) (i := i) (by rw [hi]; rfl)
    simp only [imageInForce, hi, Prod.mk.injEq] at himage
    obtain ⟨hstep, hforce, hgen, hsource, -⟩ := himage
    exact ⟨_, exec_image hs h, hstep, hforce, hgen, hsource⟩
  · have himage := readImage_of_some (j := s.j) (i := i) (by rw [hp, hi]; rfl)
    simp only [imageInForce, hp, Prod.mk.injEq] at himage
    obtain ⟨hstep, hforce, -, hsource, hrepair⟩ := himage
    exact ⟨_, exec_image hs h, hstep, hforce, hsource, hrepair⟩
  · refine ⟨_, exec_image hs h, ?_⟩
    rw [readImage_of_none hp ha]
    exact recover_step s.j
  · exact ⟨_, exec_clocks hs h [], startClocks_locked s.j⟩
  · subst hopens
    exact step6_sealed hs h hheld hno hlen hbays hcars hsealed hlife hcolls hjournal hcommits
  · refine ⟨_, (exec_restoreReport hs h bad).trans (by rw [if_neg (by simpa using hnone)]), restoreRest_full h bad⟩
  · rw [exec_restoreReport hs h, if_pos hany]

end Sys2Proof.Machine
end
